-- ==== Sys2Proof/Word.lean ====
section
/-! DEFINITION. The word types of the model and their plainest arithmetic (R12, R14). -/

namespace Sys2Proof

abbrev Byte := BitVec 8
abbrev W16 := BitVec 16
abbrev W32 := BitVec 32
abbrev W64 := BitVec 64

/-- One row of a vector register: its lanes, 32 bits each (R140, R323). -/
abbrev Row := List W32

end Sys2Proof
end

