-- ==== Sys2Proof/Syntax.lean ====
section
/-! DEFINITION. The commands of the block: one constructor of `Instr` per row of spec/opcode_table.json, with the
operands of the row. A unit is named by a `Fin` of the count the spec gives, so no command names a unit that does not exist. -/

namespace Sys2Proof

/-- Tile ID (R26): bits [7:6] the die, bits [5:0] the tile within it. -/
abbrev TileId := Fin 256
/-- A-die number, A0 to A3 (R23). -/
abbrev ADie := Fin 4
/-- Bell number (R27): bits [13:12] the A-die, bits [11:0] the bell within it. -/
abbrev BellId := Fin 16384
/-- Resident core number (R371). -/
abbrev CoreId := Fin 96
/-- Memory controller, and its Clapper unit: 0 to 15 near, 16 to 23 deep (R24, R317). -/
abbrev Ctrl := Fin 24
/-- Hoop link 0 to 7: ring 0 to 3, then hub 0 to 3 (R28, R370). -/
abbrev LinkId := Fin 8
/-- Carillon port (R270). -/
abbrev PortId := Fin 8
/-- Peal slot s = 4a + i (R302). -/
abbrev PealSlot := Fin 16
/-- Command stream (R401). -/
abbrev StreamId := Fin 256
/-- Update job slot (R329). -/
abbrev JobSlot := Fin 16

/-- The token fields of an instruction word (R135): the channel waited on and the channel signalled, where set. -/
structure Tok where
  wait : Option (Fin 8)
  signal : Option (Fin 8)
  deriving DecidableEq, Repr

/-- Scopes, narrowest first (R11, R251). -/
inductive Scope where
  | tile | die | package | system
  deriving DecidableEq, Repr

/-- The increment of a RING (R160): an immediate, or a scalar register. -/
inductive RingN where
  | imm (n : W16)
  | reg (r : Fin 32)
  deriving DecidableEq, Repr

/-- The engines that hold a queue (R132). -/
inductive Engine where
  | matrix | vector | move
  deriving DecidableEq, Repr

/-- The seven principals of R9, in their positions. -/
inductive Principal where
  | vendor | owner | host | tray | runtime | job | peer
  deriving DecidableEq, Repr

/-- A requester of memory (R196, R199, R206). -/
inductive Agent where
  | descriptor (t : TileId) (i : Nat)
  | core (c : CoreId)
  | cache
  | clapper (u : Ctrl)
  | peal (s : PealSlot)
  | port (p : PortId)
  | cxlMem
  | migration
  | stream (s : StreamId) (i : Nat)
  deriving DecidableEq, Repr

/-- An operation that a bell's home accepts in one handshake cycle (R259); the waiting WAITs need none. -/
inductive BellOp where
  | set (b : BellId) (v : W64)
  | coreRing (c : CoreId) (b : BellId) (n : W64)
  | tileRing (t : TileId)
  deriving DecidableEq, Repr

/-- What an array self-test finds (R96): failed rows and columns as (half, local position), and a failure outside the array. -/
structure SelfTest where
  rows : List (Fin 2 × Fin 66)
  cols : List (Fin 2 × Fin 66)
  outside : Bool
  deriving DecidableEq, Repr

/-- The atomic operations of R209. -/
inductive AmoOp where
  | swap | add | and | or | xor | min | max | minu | maxu | cas
  deriving DecidableEq, Repr

/-- A unit with a margin monitor (R445). -/
inductive MonUnit where
  | tile (t : TileId)
  | core (c : CoreId)
  deriving DecidableEq, Repr

/-- A unit that a service action names (R516). -/
inductive ServiceUnit where
  | tile (t : TileId)
  | core (c : CoreId)
  | ctrl (c : Ctrl)
  | port (p : PortId)
  | group (l : LinkId) (g : Fin 512)
  | link (l : LinkId)
  deriving DecidableEq, Repr

/-- The causes of host loss in the order of R421. -/
inductive LossCause where
  | perst | hotReset | linkDisable | flr | cxlReset | ide | timeout
  deriving DecidableEq, Repr

/-- A host snoop of a host-window line (R393, R395). -/
inductive SnoopKind where
  | data | inv | cur
  deriving DecidableEq, Repr

/-- The paths to the dictionary (R452). -/
inductive Path where
  | segment | mailbox | window
  | carillon (p : PortId)
  deriving DecidableEq, Repr

/-- One request item of a dictionary frame (R456); `padZero` says that the padding is zero. -/
structure Item where
  index : W16
  sub : Byte
  type : Byte
  vlen : Nat
  rsv : W16
  value : List Byte
  padZero : Bool
  deriving DecidableEq, Repr

/-- An authorisation block (R489). -/
structure AuthBlock where
  gen : BitVec 4
  signer : BitVec 4
  rsvZero : Bool
  keyId : List Byte
  sig : List Byte
  deriving DecidableEq, Repr

/-- A dictionary request PDU (R455): its fields, its items, its authorisation block and its tag. `received` is the number
of bytes received, `body` the 8 B capability word of OPEN (R460), `bytes` the PDU bytes before the tag. -/
structure Pdu where
  gen : BitVec 4
  kind : BitVec 4
  rsv1 : Byte
  len : Nat
  session : W32
  seq : W32
  op : Byte
  count : Nat
  principal : Nat
  rsv2 : Byte
  items : List Item
  auth : Option AuthBlock
  tag : List Byte
  received : Nat
  body : W64
  broadcast : Bool
  bytes : List Byte
  deriving DecidableEq, Repr

/-- Why a segment frame is dropped (R454). -/
inductive FrameFault where
  | etherType | vlan | fcs
  deriving DecidableEq, Repr

/-- The carriers of SPDM (R496). -/
inductive SpdmPath where
  | doe | segment
  | port (p : PortId)
  deriving DecidableEq, Repr

/-- The link trailer of a Carillon flit (R275), with what the receiver found: CRC good, AUTH verified, a reserved bit set. -/
structure Trailer where
  fseq : BitVec 12
  ltype : BitVec 4
  ackseq : BitVec 12
  ackv : Bool
  retry : Bool
  vc : BitVec 3
  cv : Bool
  cvc : BitVec 3
  credits : BitVec 12
  gen : BitVec 4
  rsv : Bool
  crcGood : Bool
  authGood : Bool
  ctrlCode : Byte
  deriving DecidableEq, Repr

/-- The transport header and payload of a Carillon message (R276), with the channel its flits travel on, a flag for a nonzero
reserved header field and one for continuation flits that do not match (R277). -/
structure Msg where
  vc : BitVec 3
  gen : BitVec 4
  ttype : BitVec 4
  cont : Nat
  ringop : Bool
  detour : BitVec 3
  dst : BitVec 19
  src : BitVec 19
  tag : W16
  len : Nat
  offset : W64
  window : Byte
  ncode : Byte
  bell : BitVec 12
  n : W16
  rsv : Bool
  contBroken : Bool
  payload : List Byte
  deriving DecidableEq, Repr

/-- A CAPS message (R284 step 4). -/
structure Caps where
  levels : W16
  lanes : W16
  port : Nat
  pair : W64
  shape : BitVec 19
  isSwitch : Bool
  encCap : Bool
  encReq : Bool
  deriving DecidableEq, Repr

/-- What the SPDM session between two link ends established (R505): mutual authentication, the chain to its root, the
peer's measurements. -/
structure PeerProof where
  bothSides : Bool
  chainVendor : Bool
  chainSwitchRoot : Bool
  runtimeMeas : List Byte
  svn : Nat
  sealed : Bool
  ownerDigest : List Byte
  deriving DecidableEq, Repr

/-- What a port finds when bring-up starts (R284 steps 1 and 2): the lanes with light and lock. -/
structure PortProbe where
  lanes : W16
  deriving DecidableEq, Repr

/-- A Hoop packet (R352), with what the receiver found. -/
structure HoopPkt where
  gen : BitVec 4
  cls : BitVec 2
  seq : BitVec 12
  rsv : BitVec 14
  crcGood : Bool
  payload : List Byte
  deriving DecidableEq, Repr

/-- The state a Hoop link control packet carries (R353). -/
structure HoopCtl where
  ackReq : BitVec 12
  avReq : Bool
  ackRsp : BitVec 12
  avRsp : Bool
  crReq : BitVec 10
  crRsp : BitVec 10
  rseq : BitVec 12
  rclass : Bool
  rreq : Bool
  rsv : Bool
  crcGood : Bool
  deriving DecidableEq, Repr

/-- What the lane tests of a training found (R357 steps 3 to 6): for each group and receiving end the failed lanes, the
levels advertised, and for each of three attempts whether a pair or an echo was damaged. -/
structure TrainFindings where
  failed : List (Fin 512 × List (Fin 35))
  level0 : W16
  level1 : W16
  damaged : List Bool
  deriving DecidableEq, Repr

/-- What Kettle reads in one cycle (R430 to R434, R441 to R447): powers at the rails in mW, the ratio of rails to input in
thousandths, beats issued and beats that could have been issued, the energy of a beat in pJ, the power of a tile at full issue,
the beats that the busiest tile of a die made, the dies whose current-limit alert holds, temperatures in 1/8 °C, the units whose
queues held work throughout with the beats their pacers admitted, and the dies with room to boost, with how many tiles. -/
structure KettleIn where
  ungated : Nat
  eta : Nat
  estimate : Nat
  tileBeats : List (TileId × Nat)
  tileCould : List (TileId × Nat)
  clapBeats : List (Ctrl × Nat)
  clapCould : List (Ctrl × Nat)
  tileEnergy : List (TileId × Nat)
  clapEnergy : List (Ctrl × Nat)
  tileFull : Nat
  made : List (ADie × Nat)
  dieEstimate : List (ADie × Nat)
  railLimit : List (ADie × Nat)
  alerts : List ADie
  logic : List (Fin 6 × Int)
  dram : List (Ctrl × Int)
  worked : List TileId
  workedClap : List Ctrl
  pacer : Nat
  pacerClap : Nat
  boostRoom : List (ADie × Nat)
  deriving DecidableEq, Repr

/-- A decoder as the host programmed it before its commit: base, size in bytes and interleave ways (R399). -/
structure HdmReq where
  base : W64
  size : W64
  ways : Nat
  deriving DecidableEq, Repr

/-- What the host's CXL link settles at (R392): lanes and rate in GT/s. -/
structure LinkRate where
  lanes : Nat
  gts : Nat
  deriving DecidableEq, Repr

/-- A line that a C-die cache evicts to make room, and whether the system cache takes it where it may decline (R202). -/
structure Victim where
  line : Nat
  keepInSystem : Bool
  deriving DecidableEq, Repr

/-- The commands, in the order of spec/opcode_table.json. -/
inductive Instr where
  /-- INSTRUCTION_FETCH (R132): The sequencer fetches and decodes one 8 B instruction word at its PC, executing sequencer instructions and appending engine instructions to their queues. -/
  | instructionFetch (t : TileId)
  /-- NOP (R146): Does nothing, apart from any token wait or signal it carries. -/
  | nop (t : TileId) (k : Tok)
  /-- HALT (R146): Ends the tile program; the tile ends once its work has drained. -/
  | halt (t : TileId) (k : Tok)
  /-- SADD (R146): SD = SA + SB, wrapping. -/
  | sadd (t : TileId) (k : Tok) (sd sa sb : Fin 32)
  /-- SSUB (R146): SD = SA - SB. -/
  | ssub (t : TileId) (k : Tok) (sd sa sb : Fin 32)
  /-- SAND (R146): SD = SA AND SB. -/
  | sand (t : TileId) (k : Tok) (sd sa sb : Fin 32)
  /-- SOR (R146): SD = SA OR SB. -/
  | sor (t : TileId) (k : Tok) (sd sa sb : Fin 32)
  /-- SXOR (R146): SD = SA XOR SB. -/
  | sxor (t : TileId) (k : Tok) (sd sa sb : Fin 32)
  /-- SSHL (R146): SD = SA shifted left by SB[5:0]. -/
  | sshl (t : TileId) (k : Tok) (sd sa sb : Fin 32)
  /-- SSHR (R146): SD = SA shifted logically right by SB[5:0]. -/
  | sshr (t : TileId) (k : Tok) (sd sa sb : Fin 32)
  /-- SMUL (R146): SD = low 64 bits of SA x SB. -/
  | smul (t : TileId) (k : Tok) (sd sa sb : Fin 32)
  /-- SADDI (R146): SD = SA + IMM. -/
  | saddi (t : TileId) (k : Tok) (sd sa : Fin 32) (imm : W32)
  /-- SLI (R146): SD = IMM, sign-extended. -/
  | sli (t : TileId) (k : Tok) (sd : Fin 32) (imm : W32)
  /-- SHI (R146): SD[63:32] = IMM, with SD[31:0] unchanged. -/
  | shi (t : TileId) (k : Tok) (sd : Fin 32) (imm : W32)
  /-- SLD (R146): Loads 8 B from tile SRAM at SA + IMM into SD. -/
  | sld (t : TileId) (k : Tok) (sd sa : Fin 32) (imm : W32)
  /-- SST (R146): Stores SB as 8 B to tile SRAM at SA + IMM. -/
  | sst (t : TileId) (k : Tok) (sa sb : Fin 32) (imm : W32)
  /-- BEQ (R146): Branches by IMM x 8 if SA equals SB; a target outside tile SRAM stops the tile. -/
  | beq (t : TileId) (k : Tok) (sa sb : Fin 32) (imm : W32)
  /-- BNE (R146): Branches by IMM x 8 if SA differs from SB. -/
  | bne (t : TileId) (k : Tok) (sa sb : Fin 32) (imm : W32)
  /-- BLT (R146): Branches by IMM x 8 if SA is less than SB, compared signed. -/
  | blt (t : TileId) (k : Tok) (sa sb : Fin 32) (imm : W32)
  /-- BLTU (R146): Branches by IMM x 8 if SA is less than SB, compared unsigned. -/
  | bltu (t : TileId) (k : Tok) (sa sb : Fin 32) (imm : W32)
  /-- JMP (R146): Jumps unconditionally by IMM x 8. -/
  | jmp (t : TileId) (k : Tok) (imm : W32)
  /-- RING (R160): Posts a release of a bell at a scope, to fire once the covered queues have completed and their writes are visible. -/
  | ring (t : TileId) (k : Tok) (bell : BitVec 12) (scope : Scope) (qmask : BitVec 3) (n : RingN)
  /-- RING_FIRE (R160): A posted RING fires, in issue order, and adds N to its bell count at the bell's home. -/
  | ringFire (t : TileId)
  /-- WAIT (R161): Stops the sequencer as an acquire until the bell count reaches the threshold in TREG. -/
  | wait (t : TileId) (k : Tok) (bell : BitVec 12) (scope : Scope) (treg : Fin 32)
  /-- FENCE (R162): Stops the sequencer until the named queues have completed and their writes are visible at the scope. -/
  | fence (t : TileId) (k : Tok) (scope : Scope) (qmask : BitVec 3)
  /-- FLAGS (R146): Reads XFLAGS into SD and clears the flags selected by IMM. -/
  | flags (t : TileId) (k : Tok) (sd : Fin 32) (clear : BitVec 7)
  /-- TALLY (R146): Reads the die's tally counter into SD. -/
  | tally (t : TileId) (k : Tok) (sd : Fin 32)
  /-- MMA (R147): Starts a matrix multiply-accumulate on an accumulator bank from its operand records, checking pair class, shape and tag. -/
  | mma (t : TileId) (parity : Bool)
  /-- DRAIN (R148): Drains an accumulator bank through conversion, rounding and optional scale tracking to tile SRAM or the vector engine. -/
  | drain (t : TileId) (parity : Bool)
  /-- SCLR (R150): Clears a range of scale-table entries and their NaN bits. -/
  | sclr (t : TileId)
  /-- SSTO (R150): Stores the scale table and NaN mask as 264 B to tile SRAM. -/
  | ssto (t : TileId)
  /-- SEED (R150): Sets SR_SEED from a scalar register, for every drain behind it. -/
  | seed (t : TileId)
  /-- VADD (R152): Vector FP32 addition. -/
  | vadd (t : TileId)
  /-- VSUB (R152): Vector FP32 subtraction. -/
  | vsub (t : TileId)
  /-- VMUL (R152): Vector FP32 multiplication. -/
  | vmul (t : TileId)
  /-- VFMA (R152): Vector fused multiply-add, rounded once. -/
  | vfma (t : TileId)
  /-- VFNMA (R152): Vector negated multiply plus addend, rounded once. -/
  | vfnma (t : TileId)
  /-- VMIN (R152): Vector minimum, with NaN giving the canonical NaN. -/
  | vmin (t : TileId)
  /-- VMAX (R152): Vector maximum, with NaN giving the canonical NaN. -/
  | vmax (t : TileId)
  /-- VABS (R152): Vector absolute value. -/
  | vabs (t : TileId)
  /-- VNEG (R152): Vector negation. -/
  | vneg (t : TileId)
  /-- VDIV (R152): Vector division, correctly rounded. -/
  | vdiv (t : TileId)
  /-- VSQRT (R152): Vector square root, correctly rounded. -/
  | vsqrt (t : TileId)
  /-- VCMPLT (R152): Writes a mask of lanes where VA is less than VB. -/
  | vcmplt (t : TileId)
  /-- VCMPEQ (R152): Writes a mask of lanes where VA equals VB. -/
  | vcmpeq (t : TileId)
  /-- VCLASS (R152): Writes a mask of lanes whose class is among those selected by IMM12. -/
  | vclass (t : TileId)
  /-- VSEL (R152): Selects VA or VB per lane by a mask register. -/
  | vsel (t : TileId)
  /-- VBCAST (R152): Broadcasts bits [31:0] of a scalar register to every lane. -/
  | vbcast (t : TileId)
  /-- VLD (R152): Loads and converts 128 elements from tile SRAM into a vector register. -/
  | vld (t : TileId)
  /-- VST (R152): Converts and stores the lanes of a vector register to tile SRAM, computing MX scales where needed. -/
  | vst (t : TileId)
  /-- VRSUM (R152): Sums the lanes in a fixed pairwise tree into lane 0. -/
  | vrsum (t : TileId)
  /-- VRMAX (R152): Places the largest lane in lane 0. -/
  | vrmax (t : TileId)
  /-- VIADD (R152): Vector INT32 wrapping addition. -/
  | viadd (t : TileId)
  /-- VISUB (R152): Vector INT32 wrapping subtraction. -/
  | visub (t : TileId)
  /-- VIMUL (R152): Vector INT32 multiplication keeping the low 32 bits. -/
  | vimul (t : TileId)
  /-- VAND (R152): Vector bitwise AND. -/
  | vand (t : TileId)
  /-- VOR (R152): Vector bitwise OR. -/
  | vor (t : TileId)
  /-- VXOR (R152): Vector bitwise XOR. -/
  | vxor (t : TileId)
  /-- VSHL (R152): Vector shift left by IMM12[4:0]. -/
  | vshl (t : TileId)
  /-- VSHR (R152): Vector logical shift right. -/
  | vshr (t : TileId)
  /-- VSHRA (R152): Vector arithmetic shift right. -/
  | vshra (t : TileId)
  /-- VCVTIF (R152): Converts INT32 lanes to FP32 with round to nearest even. -/
  | vcvtif (t : TileId)
  /-- VCVTFI (R152): Converts FP32 lanes to INT32 in mode RM, saturating. -/
  | vcvtfi (t : TileId)
  /-- VMOV (R152): Copies VA to VD. -/
  | vmov (t : TileId)
  /-- VCNT (R326): A Clapper program adds the count of active lanes set in a mask to the job counter. -/
  | vcnt (u : Ctrl) (msk : Fin 8)
  /-- CLAPPER_VLD (R326): A Clapper program loads the lot's 256 elements of a stream, converted exactly to FP32. -/
  | clapperVld (u : Ctrl) (vd : Fin 64) (msk : Fin 8) (stream : Fin 8)
  /-- CLAPPER_VST (R326): A Clapper program stores a register to a writable stream in its format, active lanes only. -/
  | clapperVst (u : Ctrl) (vc : Fin 64) (msk : Fin 8) (stream : Fin 8) (rtz : Bool)
  /-- CLAPPER_VBCAST (R343): A Clapper program broadcasts a scalar, checking the flam pair of a Cadence output. -/
  | clapperVbcast (u : Ctrl) (vd : Fin 64) (msk : Fin 8) (sa : Fin 24)
  /-- INSTRUCTION_COMPLETION (R138): An engine instruction completes and signals its token channel if STE is set. -/
  | instructionCompletion (t : TileId) (e : Engine) (idx : Nat)
  /-- MSUB (R153): Submits a move descriptor from tile SRAM to the move engine without waiting for the transfer. -/
  | msub (t : TileId)
  /-- DESCRIPTOR_ACCEPT (R157): The move engine accepts a descriptor, checks it in order and translates its virtual side. -/
  | descriptorAccept (t : TileId)
  /-- COPY (R156): Moves ROWS rows of COLS elements at the given strides. -/
  | copy (t : TileId) (i : Nat)
  /-- TRANSPOSE (R156): Moves a block, writing element (r, c) as element r of row c. -/
  | transpose (t : TileId) (i : Nat)
  /-- FILL (R156): Writes rows of the FILL pattern at the destination. -/
  | fill (t : TileId) (i : Nat)
  /-- INLINE (R156): Writes COLS bytes of the descriptor's inline data to the destination. -/
  | inline (t : TileId) (i : Nat)
  /-- PUT (R296): Sends local data to a remote window in messages, optionally followed by a remote ring. -/
  | put (t : TileId) (i : Nat)
  /-- GET (R296): Requests data from a remote window into a local destination. -/
  | get (t : TileId) (i : Nat)
  /-- DESCRIPTOR_COMPLETE (R158): A move descriptor writes STATUS, rings its bell on success and signals the MSUB token. -/
  | descriptorComplete (t : TileId) (i : Nat)
  /-- SET (R165): A write to a bell's SET register writes the count and clears POISON, SAT, MISMATCH and the last release. -/
  | set (b : BellId) (v : W64)
  /-- RING_REGISTER_WRITE (R167): A core write to a bell's RING register adds N as a PACKAGE-scope release. -/
  | ringRegisterWrite (c : CoreId) (b : BellId) (n : W64)
  /-- BELL_BATCH (R259): A bell home applies the operations of one handshake cycle: SET, then the RINGs, then every WAIT evaluation. -/
  | bellBatch (die : ADie) (ops : List BellOp)
  /-- LAUNCH (R390): The command processor takes a launch-queue LAUNCH entry, checks it and submits it for admission. -/
  | launch (prefTiles : List TileId) (prefBells : List BellId)
  /-- TERMINATE (R390): A launch-queue TERMINATE terminates every running kernel with the given tag. -/
  | terminate
  /-- TILE_STOP (R174): A stop from another tile or a terminate reaches a tile and stops it at its next instruction. -/
  | tileStop (t : TileId)
  /-- TILE_PROGRAM_END (R174): After HALT, a tile's queues, RINGs and descriptors have drained and its program ends. -/
  | tileProgramEnd (t : TileId)
  /-- COMPLETION_RECORD (R175): Once the kernel's writes are visible, the command processor releases resources, writes the completion record and starts tile clears. -/
  | completionRecord (kid : Nat)
  /-- TILE_CLEAR_END (R175): A tile clear finishes and the tile becomes free. -/
  | tileClearEnd (t : TileId)
  /-- ARRAY_SELF_TEST (R96): Array self-test of a tile completes, setting the tile's state and quadrant mask. -/
  | arraySelfTest (t : TileId) (found : SelfTest)
  /-- SR_SEED_WRITE (R84): A core write to SR_SEED takes effect only while no kernel holds the tile. -/
  | srSeedWrite (t : TileId) (v : W64)
  /-- MEMORY_READ (R188): A read accepted at the home controller is decoded by the outer code and returned, corrected, failed or poisoned. -/
  | memoryRead (a : Agent) (addr : Nat) (len : Nat)
  /-- MEMORY_WRITE (R186): A write accepted at the home writes whole codewords, or partial ones by read-modify-write. -/
  | memoryWrite (a : Agent) (addr : Nat) (bytes : List Byte)
  /-- PATROL_SCRUB (R190): The patrol reads the next codeword and writes back a corrected one or poisons an uncorrectable one. -/
  | patrolScrub (c : Ctrl)
  /-- CE_INNER_COLLECT (R187): Every 1 s the controller collects the DRAM dies' inner-code correction counts. -/
  | ceInnerCollect (c : Ctrl) (n : Nat)
  /-- LOWER_TIER_TIMEOUT (R197): A request not completed within its tier's limit ends with LOWER_TIER_TIMEOUT. -/
  | lowerTierTimeout (a : Agent) (addr : Nat)
  /-- LATE_RESPONSE_DISCARD (R197): A response arriving after its request timed out is discarded. -/
  | lateResponseDiscard (a : Agent) (addr : Nat)
  /-- WRITEBACK_RETRY (R545): A cache write-back that timed out at its home is sent again. -/
  | writebackRetry (line : Nat)
  /-- CORE_LOAD (R196): A core load or fetch served through the caches, faulting on reserved ranges or poisoned data. -/
  | coreLoad (c : CoreId) (addr : Nat) (size : Nat) (fetch hint : Bool) (victims : List Victim)
  /-- CORE_STORE (R196): A core store completes into the cache. -/
  | coreStore (c : CoreId) (addr : Nat) (bytes : List Byte) (hint : Bool) (victims : List Victim)
  /-- CORE_AMO (R208): A core atomic is performed in the cache or at the home, as the contention predictor chooses. -/
  | coreAmo (c : CoreId) (op : AmoOp) (addr : Nat) (wide : Bool) (v cmp : W64)
  /-- CACHE_SWEEP_COMPLETE (R203): Every cache sweep after reset has completed and SC_STATUS.SWEPT becomes 1. -/
  | cacheSweepComplete
  /-- QMODE_WRITE (R183): A QMODE write changes quad interleave modes for later accesses and increments MAP_GEN on any change. -/
  | qmodeWrite (hi : Bool) (v : W64)
  /-- POOL_WRITE (R214): A write sets a reservation pool's size, discarded if above capacity. -/
  | poolWrite (pool : Fin 6) (v : W64)
  /-- STACK_FAILURE (R215): A stack fails and leaves service, affecting its regions and pools. -/
  | stackFailure (c : Ctrl)
  /-- STACK_INIT_COMPLETE (R216): A stack's initialisation to zero completes and its regions and pools return. -/
  | stackInitComplete (c : Ctrl) (passed : Bool)
  /-- FAULT_RESP (R229): The runtime answers a Tocsin-queue fault with RETRY or FAIL. -/
  | faultResp (v : W64)
  /-- FQ_RESP (R230): The host driver answers a forward-queue fault. -/
  | fqResp (v : W64)
  /-- IOINVAL (R221): A write starts invalidation of cached contexts and translations in the scope its KIND selects. -/
  | ioinval (v : W64)
  /-- IOINVAL_COMPLETE (R221): Every copy in scope is gone and IOINVAL_STATUS.BUSY clears. -/
  | ioinvalComplete
  /-- TOCSIN_POST (R234): The Tocsin unit writes an accepted record to the queue and advances TQ_PROD. -/
  | tocsinPost (i : Nat)
  /-- TQ_CONS_WRITE (R233): The runtime advances the Tocsin consumer index, discarded if out of range. -/
  | tqConsWrite (v : W32)
  /-- TQ_ENABLE (R235): Setting TQ_CTRL.EN resets the indices, writes the overflow marker and lets held records post. -/
  | tqEnable (v : W32)
  /-- OVERFLOW_MARKER_REWRITE (R238): The overflow marker is rewritten within 10 us of a dropped informational record. -/
  | overflowMarkerRewrite
  /-- FORWARD_QUEUE_POST (R230): A host-managed fault record is written to the forward queue, FQ_PROD advances and vector 0 is raised. -/
  | forwardQueuePost (i : Nat)
  /-- COUNTER_DECAY (R239): Every DECAY ms all access counters are halved. -/
  | counterDecay
  /-- MIGRATION_COPY (R242): The migration engine copies LEN bytes between physical ranges. -/
  | migrationCopy
  /-- MIGRATION_ZERO (R242): The migration engine writes LEN zero bytes. -/
  | migrationZero
  /-- MIGRATION_ADVISE (R242): Installs or removes an advice range in the access-counter units. -/
  | migrationAdvise
  /-- WIN_COMMIT (R244): Commits the staged window entry to an index, or discards it and sets ERR. -/
  | winCommit (v : W32)
  /-- UNMAP_GO (R247): Issues the staged unmap: increments MGEN, invalidates translations and revokes unstarted descriptors. -/
  | unmapGo (v : W32)
  /-- UNMAP_PHASE_ONE_COMPLETE (R247): Phase one is complete everywhere and UNMAP_ISSUED takes the ticket. -/
  | unmapPhaseOneComplete
  /-- UNMAP_DRAINED (R247): Every started access in range has ended and UNMAP_DRAINED advances to the ticket. -/
  | unmapDrained
  /-- CORE_START (R387): Starts a held core in M-mode at the given entry address. -/
  | coreStart (c : CoreId) (entry : W64)
  /-- CBO_CLEAN (R265): Writes a dirty line home and keeps it valid and clean. -/
  | cboClean (c : CoreId) (addr : Nat)
  /-- CBO_FLUSH (R265): Writes a dirty line home and removes it from every cache. -/
  | cboFlush (c : CoreId) (addr : Nat)
  /-- CBO_INVAL (R265): Performed as a flush; dirty data is written home, never discarded. -/
  | cboInval (c : CoreId) (addr : Nat)
  /-- CLEAN_BY_RANGE (R378): CRCMD 1 cleans every line of the range in every C-die cache. -/
  | cleanByRange (c : CoreId)
  /-- INVALIDATE_BY_RANGE (R378): CRCMD 2 flushes every line of the range in every C-die cache. -/
  | invalidateByRange (c : CoreId)
  /-- RANGE_OPERATION_COMPLETE (R379): A range operation completes, clearing BUSY and writing CRSTAT. -/
  | rangeOperationComplete (c : CoreId)
  /-- MACHINE_TIMER_INTERRUPT (R384): Time reaches a core's MTIMECMP and MTIP becomes pending. -/
  | machineTimerInterrupt (c : CoreId)
  /-- HOST_MSG_FREE (R391): A write of 0 to HOST_MSG_LEN frees the inbound message buffer. -/
  | hostMsgFree (v : W32)
  /-- RT_MSG_OFFER (R391): A write of RT_MSG_LEN offers the runtime's reply to RUNTIME_RECV. -/
  | rtMsgOffer (v : W32)
  /-- MONITOR_EVALUATION (R445): Every 1 ms a unit's monitor measures margin and adjusts TRIM. -/
  | monitorEvaluation (u : MonUnit) (margin : Nat) (inRange : Bool) (reading : W16)
  /-- TRIM_SAVE (R445): Every hour the Belfry saves each unit's TRIM. -/
  | trimSave
  /-- STREAM_OPEN (R402): CMD open checks the stream's level, fields and rings and opens it. -/
  | streamOpen (s : StreamId) (v : W32)
  /-- STREAM_CLOSE (R403): CMD close makes the stream CLOSING until its commands end. -/
  | streamClose (s : StreamId) (v : W32)
  /-- DOORBELL (R406): A doorbell write sets the pending tail and starts slot reads. -/
  | doorbell (s : StreamId) (v : W32)
  /-- SLOT_READ (R405): A slot read returns; a command whose slots are all ready is accepted and checked. -/
  | slotRead (s : StreamId)
  /-- SLOT_REREAD (R405): A not-ready slot is read again 1 us after the previous read returned. -/
  | slotReread (s : StreamId)
  /-- STREAM_NOP (R407): A stream NOP command, complete when started. -/
  | streamNop (s : StreamId) (i : Nat)
  /-- STREAM_INLINE (R408): Writes up to 48 B of slot data to a translated destination. -/
  | streamInline (s : StreamId) (i : Nat)
  /-- INLINE_CHAIN (R408): Writes up to 960 B from continuation slots to a translated destination. -/
  | inlineChain (s : StreamId) (i : Nat)
  /-- STREAM_COPY (R409): Copies LEN bytes between virtual ranges after translating every page. -/
  | streamCopy (s : StreamId) (i : Nat)
  /-- STREAM_LAUNCH (R410): A stream launch request, completing when its completion record is written. -/
  | streamLaunch (s : StreamId) (i : Nat) (prefTiles : List TileId) (prefBells : List BellId)
  /-- STREAM_TERMINATE (R410): Terminates every running kernel with the given tag. -/
  | streamTerminate (s : StreamId) (i : Nat)
  /-- STREAM_RING (R411): After earlier commands complete, adds N to a bell as a PACKAGE-scope release. -/
  | streamRing (s : StreamId) (i : Nat)
  /-- STREAM_WAIT (R411): Waits until a bell count reaches THRESH, as an acquire. -/
  | streamWait (s : StreamId) (i : Nat)
  /-- STREAM_FENCE (R412): Completes once every earlier command of the stream has completed. -/
  | streamFence (s : StreamId) (i : Nat)
  /-- ROLL (R435): A stream ROLL command hands a ROLL word to Kettle. -/
  | roll (s : StreamId) (i : Nat)
  /-- COMPLETION_ENTRY (R413): Once the command's writes are visible and space exists, a completion entry is written and CVEC raised. -/
  | completionEntry (s : StreamId) (i : Nat)
  /-- APERTURE_WRITE (R416): A BAR4 write is accepted into a registered region or dropped whole. -/
  | apertureWrite (off : Nat) (bytes : List Byte) (requester : W16)
  /-- APERTURE_READ (R416): A BAR4 read is served from a registered region or refused. -/
  | apertureRead (off len : Nat) (requester : W16)
  /-- CXL_MEM_READ (R399): A host CXL.mem read through an HDM decoder, poisoned in sealed mode. -/
  | cxlMemRead (addr : Nat) (len : Nat)
  /-- CXL_MEM_WRITE (R399): A host CXL.mem write through an HDM decoder, dropped in sealed mode. -/
  | cxlMemWrite (addr : Nat) (bytes : List Byte)
  /-- HDM_COMMIT (R399): A host commit of an HDM decoder, failing unless its size matches HDM_MAP. -/
  | hdmCommit (i : Fin 2) (req : HdmReq)
  /-- HOST_SNOOP (R395): A host snoop of a host-window line is answered from the C-die caches. -/
  | hostSnoop (kind : SnoopKind) (addr : Nat)
  /-- GET_SUPPORTED_LOGS (R417): Mailbox command listing the Command Effects Log. -/
  | getSupportedLogs
  /-- GET_LOG (R417): Mailbox command returning the Command Effects Log. -/
  | getLog
  /-- MYDAR_REQUEST (R417): Mailbox command carrying one dictionary request frame and returning its response. -/
  | mydarRequest (f : Pdu)
  /-- RUNTIME_SEND (R417): Places a host message for the runtime and raises routed source 7. -/
  | runtimeSend (bytes : List Byte)
  /-- RUNTIME_RECV (R417): Returns the runtime's pending reply. -/
  | runtimeRecv
  /-- LINK_RECOVERY (R421): The CXL link leaves L0 and requests wait while it recovers. -/
  | linkRecovery
  /-- HOST_LOSS (R422): A reset, IDE failure or link out of L0 beyond 2 ms ends host traffic, loses streams and informs the runtime. -/
  | hostLoss (cause : LossCause)
  /-- HOST_LINK_UP (R423): At link-up the function's registers reset, streams close and source 10 is raised. -/
  | hostLinkUp (rate : LinkRate)
  /-- KETTLE_CYCLE (R430): Every 4 us Kettle collects estimates, applies limits, grants issue tokens and sets V_A targets. -/
  | kettleCycle (r : KettleIn)
  /-- KETTLE_ROLL (R434): A write of a ROLL word to KETTLE_ROLL, discarded if malformed. -/
  | kettleRoll (v : W64)
  /-- CURRENT_LIMIT_ALERT (R438): A V_A rail alert cuts the die's tokens to the floor and limits later grants. -/
  | currentLimitAlert (die : ADie) (amps : W32)
  /-- INPUT_REPORT (R428): Every 4 us the first stage reports input, and Kettle acts on its voltage. -/
  | inputReport (volt10mV : Nat) (watts : Nat)
  /-- RAIL_TARGET_REACHED (R440): Every rail holds its target, RAMP clears and a record is posted. -/
  | railTargetReached
  /-- READ (R467): Dictionary operation returning the value of each item. -/
  | dictRead (p : Path) (f : Pdu)
  /-- WRITE (R470): Dictionary operation committing all items or none under one commit sequence number. -/
  | dictWrite (p : Path) (f : Pdu)
  /-- FREEZE (R471): Freezes each entry at its current value until cold reset. -/
  | dictFreeze (p : Path) (f : Pdu)
  /-- RELEASE (R469): Withdraws the requester's claim on restrictive-wins entries. -/
  | dictRelease (p : Path) (f : Pdu)
  /-- DESCRIBE (R467): Returns each entry's type, rights, attributes and range. -/
  | dictDescribe (p : Path) (f : Pdu)
  /-- DISCOVER (R467): Returns the identity entries, including on broadcast. -/
  | dictDiscover (p : Path) (f : Pdu)
  /-- OPEN (R460): Opens a dictionary session at the highest common level. -/
  | dictOpen (p : Path) (f : Pdu)
  /-- CLOSE (R462): Ends a dictionary session. -/
  | dictClose (p : Path) (f : Pdu)
  /-- SESSION_IDLE_TIMEOUT (R462): A session with no accepted request for 30 s ends. -/
  | sessionIdleTimeout (p : Path) (session : W32)
  /-- FRAME_DROP (R454): A segment frame with wrong EtherType, VLAN tag or bad FCS is dropped and counted. -/
  | frameDrop (why : FrameFault)
  /-- SEALED_COMPLETE (R501): After entry steps and affected work finish, HOST_STATE.SEALED is set. -/
  | sealedComplete
  /-- TELEMETRY_WINDOW (R508): A coarse telemetry window of about 1 s closes and its values become readable. -/
  | telemetryWindow
  /-- GET_VERSION (R496): SPDM request for supported versions. -/
  | getVersion (p : SpdmPath)
  /-- GET_CAPABILITIES (R496): SPDM request for capabilities. -/
  | getCapabilities (p : SpdmPath)
  /-- NEGOTIATE_ALGORITHMS (R496): SPDM algorithm negotiation. -/
  | negotiateAlgorithms (p : SpdmPath) (common : Bool)
  /-- GET_DIGESTS (R496): SPDM request for certificate chain digests. -/
  | getDigests (p : SpdmPath)
  /-- GET_CERTIFICATE (R497): SPDM request for a portion of the slot 0 chain. -/
  | getCertificate (p : SpdmPath) (slot : Nat) (offset len : Nat)
  /-- CHALLENGE (R497): SPDM challenge answered with the alias key. -/
  | challenge (p : SpdmPath) (nonce : List Byte)
  /-- GET_MEASUREMENTS (R498): Returns the measurement blocks. -/
  | getMeasurements (p : SpdmPath) (nonce : List Byte)
  /-- KEY_EXCHANGE (R496): Starts an SPDM secure session. -/
  | keyExchange (p : SpdmPath) (exchange : List Byte)
  /-- FINISH (R496): Completes an SPDM session handshake. -/
  | finish (p : SpdmPath) (valid bothSides : Bool)
  /-- HEARTBEAT (R496): SPDM session heartbeat. -/
  | heartbeat (p : SpdmPath)
  /-- KEY_UPDATE (R499): Refreshes the SPDM session keys and the link keys derived from them. -/
  | keyUpdate (p : SpdmPath)
  /-- END_SESSION (R499): Ends an SPDM session and the sessions or links it keyed. -/
  | endSession (p : SpdmPath)
  /-- BEGIN (R524): ROM recovery request starting an image for a firmware slot. -/
  | romBegin (slot : Byte) (len : W32)
  /-- DATA (R524): ROM recovery request carrying image bytes at an offset. -/
  | romData (offset : W32) (bytes : List Byte)
  /-- END (R524): ROM recovery request that checks the image, writes the slot and cold-resets. -/
  | romEnd
  /-- POWER_ON (R514): Input rising through 58 V starts the full bring-up from step 1. -/
  | powerOn (volt10mV : Nat)
  /-- RESET_N (R536): RESET_N held low for 1 ms or more starts a cold reset. -/
  | resetN (low : Bool) (micros : Nat)
  /-- EN_BREAK (R529): A break of J1 EN longer than 20 us stops the first stage. -/
  | enBreak (micros : Nat)
  /-- LATCH_OPENED (R541): A light source bay's latch opens and it stops its lasers. -/
  | latchOpened (bay : Fin 2)
  /-- BAY_INSERTED (R541): A light source bay is inserted and latched and starts its lasers. -/
  | bayInserted (bay : Fin 2)
  /-- NONE (R516): ACTION code that does nothing. -/
  | actNone (who : Principal)
  /-- COLD_RESET (R511): ACTION code that starts a cold reset. -/
  | coldReset (who : Principal)
  /-- BRINGUP_DONE (R514): The runtime reports bring-up done and units move to SERVICE. -/
  | bringupDone (who : Principal)
  /-- TAKE_OUT (R519): Removes a unit from new use; its work finishes or fails. -/
  | takeOut (who : Principal) (u : ServiceUnit) (force : Bool)
  /-- BRING_BACK (R521): Resets and tests a unit for return to service. -/
  | bringBack (who : Principal) (u : ServiceUnit)
  /-- RETEST (R521): Resets and self-tests a tile. -/
  | retest (who : Principal) (t : TileId)
  /-- DIE_RESET (R520): Terminates affected kernels, takes out and resets an A-die, and retrains its links. -/
  | dieReset (who : Principal) (die : ADie)
  /-- WRITE_SLOT (R523): Copies a staged chunk into a boot store slot. -/
  | writeSlot (who : Principal) (slot : Fin 6) (chunk : BitVec 12) (len16 : W16)
  /-- DEBUG_OPEN (R504): Opens the selected debug facilities. -/
  | debugOpen (who : Principal) (set : BitVec 3)
  /-- DEBUG_CLOSE (R504): Closes debug. -/
  | debugClose (who : Principal)
  /-- UNIT_OUT_OF_SERVICE (R519): A unit's accepted work has drained and it is out of service. -/
  | unitOutOfService (u : ServiceUnit)
  /-- REINTEGRATION (R521): A returned unit passes or fails its test; on success REINTEGRATED is committed. -/
  | reintegration (u : ServiceUnit) (passed : Bool)
  /-- PORT_ENABLE (R284): Setting PORT_CTRL.EN starts port bring-up. -/
  | portEnable (p : PortId) (v : W32)
  /-- PORT_DISABLE (R280): Clearing PORT_CTRL.EN takes the link down. -/
  | portDisable (p : PortId) (v : W32)
  /-- WIDTH_REQUEST (R283): A write of WREQ starts a planned width change. -/
  | widthRequest (p : PortId) (v : W32)
  /-- WIDTH_LAPSE (R283): A width request without a peer WIDTH within 1 ms lapses. -/
  | widthLapse (p : PortId)
  /-- PORT_BRINGUP (R284): After hold-off the port starts bring-up. -/
  | portBringup (p : PortId) (probe : PortProbe)
  /-- NEIGHBOUR_RECHECK (R285): The neighbour check runs again every 100 ms. -/
  | neighbourRecheck (p : PortId)
  /-- COORDINATE_CHECK (R287): Every 1 ms an engine checks its coordinate copy. -/
  | coordinateCheck (p : PortId)
  /-- LINK_HEARTBEAT_TIMEOUT (R280): No good flit for 4 us takes the link down. -/
  | linkHeartbeatTimeout (p : PortId)
  /-- FLIT_DISCARD (R278): A flit failing CRC, AUTH or sequence is discarded and a replay requested. -/
  | flitDiscard (p : PortId) (f : Trailer)
  /-- LINK_REPLAY (R278): A RETRY makes the sender replay from ACKSEQ + 1. -/
  | linkReplay (p : PortId) (ackseq : BitVec 12)
  /-- CAPS (R284): CTRL capability exchange during bring-up. -/
  | caps (p : PortId) (m : Caps)
  /-- WIDTH (R283): CTRL planned width change message. -/
  | width (p : PortId) (half : Fin 2)
  /-- KEY (R309): CTRL message switching to the newest key. -/
  | key (p : PortId)
  /-- SPDM (R281): CTRL fragment of an SPDM message between link ends. -/
  | spdm (p : PortId) (m : PeerProof)
  /-- REKEY (R309): The Belfry rekeys a direction at least every 2^31 flits. -/
  | rekey (p : PortId) (tx : Bool)
  /-- PUT_DATA (R299): An inbound PUT message is checked and written before PUT_ACK. -/
  | putData (p : PortId) (m : Msg)
  /-- GET_REQ (R299): An inbound GET request is checked and answered with GET_DATA. -/
  | getReq (p : PortId) (m : Msg)
  /-- REMOTE_RING (R166): An inbound RING adds N to a window bell. -/
  | remoteRing (p : PortId) (m : Msg)
  /-- PUT_ACK (R300): A PUT or RING acknowledgement frees its tracker. -/
  | putAck (p : PortId) (m : Msg)
  /-- GET_DATA (R300): GET response data is written to the local destination. -/
  | getData (p : PortId) (m : Msg)
  /-- NACK (R300): A refusal of a request message. -/
  | nack (p : PortId) (m : Msg)
  /-- PEAL (R305): Peal step data arrives and is summed or written. -/
  | peal (p : PortId) (m : Msg)
  /-- MESSAGE_TIMEOUT (R301): A request unanswered within E2E_TIMEOUT times out. -/
  | messageTimeout (p : PortId) (slot : Fin 2048)
  /-- SLOT_EPOCH_ADVANCE (R301): A timed-out tracker slot's EPOCH advances after a further E2E_TIMEOUT. -/
  | slotEpochAdvance (p : PortId) (slot : Fin 2048)
  /-- VIOLATION_HALVING (R310): Every second each violation count entry is halved. -/
  | violationHalving
  /-- QCLEAR (R311): Ends quarantine of one or all entries. -/
  | qclear (p : PortId) (v : W32)
  /-- RS (R304): Peal reduce-scatter descriptor. -/
  | rs (s : PealSlot)
  /-- AG (R304): Peal all-gather descriptor. -/
  | ag (s : PealSlot)
  /-- AR (R304): Peal all-reduce descriptor. -/
  | ar (s : PealSlot)
  /-- PEAL_TIMEOUT (R306): No step data for PEAL_TIMEOUT fails the descriptor. -/
  | pealTimeout (s : PealSlot)
  /-- PEAL_DESCRIPTOR_COMPLETE (R306): Output visible; STATUS written and DONE_BELL rung. -/
  | pealDescriptorComplete (s : PealSlot)
  /-- PEAL_BIND (R319): A TO_CLAPPER descriptor binds to a matching active job. -/
  | pealBind (s : PealSlot)
  /-- LOT_HANDOVER (R320): A summed lot is handed to its Clapper unit. -/
  | lotHandover (s : PealSlot) (lot : Nat)
  /-- JOB_ACCEPT (R331): The dispatcher checks an update job descriptor and loads its program. -/
  | jobAccept
  /-- LOT_RUN (R334): A Clapper unit reads, runs the program and writes one lot. -/
  | lotRun (u : Ctrl)
  /-- JOB_COMPLETE (R336): Writes the job's STATUS and rings DONE. -/
  | jobComplete (j : JobSlot)
  /-- CAD_ADV (R337): Advances the step counter, at once or pending. -/
  | cadAdv (v : W32)
  /-- CAD_SET_C (R338): Commits a staged step counter value. -/
  | cadSetC (v : W64)
  /-- CAD_COMMIT (R341): Submits a staged schedule table. -/
  | cadCommit (v : W32)
  /-- CADENCE_DELIVERY (R339): Cadence outputs for the new step are delivered and VALID set. -/
  | cadenceDelivery
  /-- HOOP_PACKET (R354): A Hoop packet is received, checked and delivered in order. -/
  | hoopPacket (l : LinkId) (rev : Bool) (p : HoopPkt)
  /-- LINK_CONTROL (R353): A link control packet gives ACKs, credits and replay requests. -/
  | linkControl (l : LinkId) (rev : Bool) (p : HoopCtl)
  /-- LINK_CONTROL_SEND (R353): Sends an owed link control packet at least every 1 us. -/
  | linkControlSend (l : LinkId) (rev : Bool)
  /-- RETRAIN (R355): A write of LINK_CTRL.RETRAIN requests a retrain point. -/
  | retrain (l : LinkId)
  /-- TRAINING_COMPLETE (R357): Training finishes: spares, mask, roles, floors and resume. -/
  | trainingComplete (l : LinkId) (f : TrainFindings)
  /-- REGISTER_WRITE (R18): A write to a register without behaviour of its own. -/
  | registerWrite (addr : Nat) (wide : Bool) (v : W64)
  /-- LINK_RETURN_TO_L0 (R421): A CXL link that left L0 returns to L0 within 2 ms, ending recovery so waiting requests proceed and HOST_STATE leaves recovering. -/
  | linkReturnToL0 (rate : LinkRate)
  /-- SUPERVISOR_TIMER_INTERRUPT (R384): Time reaches a core's stimecmp or vstimecmp and the supervisor timer interrupt becomes pending under Sstc. -/
  | supervisorTimerInterrupt (c : CoreId) (virt : Bool)
  /-- IDLE_FLIT (R279): A Carillon receiver accepts an IDLE flit whose trailer returns credits and acknowledges sequenced flits, freeing retry buffer and refreshing the link heartbeat. -/
  | idleFlit (p : PortId) (f : Trailer)
  /-- FQ_CONS_WRITE (R420): The host driver advances the forward-queue consumer index, accepted only within the occupancy, freeing space for held faults. -/
  | fqConsWrite (v : W32)
  /-- FQ_ENABLE (R420): Setting FQ_CTRL.EN resets FQ_PROD and FQ_CONS to 0 and lets host-managed faults waiting for the forward queue post. -/
  | fqEnable (v : W32)
  /-- MIGRATION_DESCRIPTOR_COMPLETE (R242): A migration descriptor's data becomes visible at PACKAGE scope, STATUS is written, its bell rung if requested, MQ_HEAD advances and routed source 2 is raised. -/
  | migrationDescriptorComplete
  /-- WRITE_SLOT_ENDED (R523): The boot store write of a WRITE_SLOT chunk finishes, some 50 ms after the action began, setting RESULT 2 or 3 and posting an action-ended record. -/
  | writeSlotEnded (ok : Bool)
  /-- DOE_DISCOVERY (R418): A DOE Discovery request on the CXL DOE mailbox is answered with the supported protocols. -/
  | doeDiscovery (index : Byte)
  /-- IDE_KM (R418): An IDE_KM message over secured SPDM programs or activates CXL IDE keys. -/
  | ideKm (activate : Bool) (key : List Byte) (integrityFault : Bool)
  /-- EN_TIED (R529): J1 EN has been tied to RTN for 50 ms with input at or above 58 V, so the first stage starts and power-on bring-up begins. -/
  | enTied (millis : Nat)
  deriving DecidableEq, Repr

end Sys2Proof
end

