-- ==== Sys2Proof/Decode.lean ====
section
/-! DEFINITION. The decoder over the rows of spec/opcode_table.json that give bits. No row of this block gives any: every row's
encoding is left to the chapter of its command, and the words that the block itself fetches, the tile programs' and the
Clapper programs', are decoded in Machine/Operands.lean and Machine/Clapper.lean. -/

namespace Sys2Proof

/-- The command that a word of the table spells: none, since no row of the table gives bits. -/
def decodeTableWord (_nbits _w : Nat) : Option Instr := none

end Sys2Proof
end

