-- ==== Sys2Proof/Config.lean ====
section
/-! DEFINITION. What the spec leaves open: the free values of undefined data, the cryptographic functions whose standards lie
outside the spec, and the functions whose exact result it does not state. None has a body, so no proof can see a value. -/

namespace Sys2Proof.Config

/-- Byte `i` of the undefined data of draw `n` (assumption 1). -/
opaque freeByte (n i : Nat) : Byte
/-- Word `i` of the undefined values of draw `n` (assumption 1). -/
opaque freeWord (n i : Nat) : W64
/-- Choice `i` of draw `n`, where the spec leaves a decision to the device (assumption 1). -/
opaque freeChoice (n i : Nat) : Bool
/-- By how much a tally counter has advanced before read `n` (R38, assumption 2). -/
opaque tallyStep (n : Nat) : Nat
/-- The SM3 digest of bytes, 32 B (R487). -/
opaque sm3 (bytes : List Byte) : List Byte
/-- HMAC-SM3 under a key (R457). -/
opaque hmacSm3 (key bytes : List Byte) : List Byte
/-- The alias key of a booted firmware, the certificate chain of slot 0 that certifies it, and an SM2 signature under a key (R487,
R497). -/
opaque aliasKey (firmware : List Byte) : List Byte
opaque certChain (firmware : List Byte) : List Byte
opaque sm2Sign (key bytes : List Byte) : List Byte
/-- True of a valid SM2 signature of `bytes` under the public key (R487, R489). -/
opaque sm2Verify (key sig bytes : List Byte) : Bool
/-- The export master secret of the SPDM session that a key exchange begins, and the key HKDF-Expand derives from one for a purpose:
0 "mydar hmac", 1 "ewb link 0", 2 "ewb link 1" (R499). -/
opaque exportSecret (exchange : List Byte) (n : Nat) : List Byte
opaque deriveKey (secret : List Byte) (purpose : Nat) : List Byte
/-- What the mailbox answers to Get Supported Logs and Get Log, whose form the CXL specification gives (R417, assumption 21). -/
opaque supportedLogs : List Byte
opaque effectsLog : List Byte
/-- The Cadence values of pow and cos, whose rounding the spec does not state (R340, assumption 8). -/
opaque cadencePow (base expo : W64) : W64
opaque cadenceCos (x : W64) : W64
/-- What is fused or recorded per part (R431, R441, R474): the serial number, PCI IDs, MAC address, estimator weights as F32, and
V_FR in steps of 5 mV above 730 mV. -/
opaque serial : List Byte
opaque pciId : W64
opaque mac : W64
opaque weight (i : Nat) : W32
opaque vfrStep : Fin 9
/-- The vendor's public key, whose digest is fused (R487), and the digest of the Belfry ROM (R498). -/
opaque vendorKey : List Byte
opaque romDigest : List Byte

end Sys2Proof.Config
end

