-- ==== Sys2Proof/Machine/Float.lean ====
section
/-! DEFINITION. Number formats and their arithmetic (spec/03): exact values, the bit layouts of R104 to R107, rounding
(R127, R128), conversions with saturation and special values (R122 to R126), MX block scales (R130) and FP32 arithmetic
(R116, R118). -/

namespace Sys2Proof.Machine

/-- A finite value held exactly: (-1)^neg * man * 2^exp; a zero keeps its sign (R112). -/
structure Exact where
  neg : Bool
  man : Nat
  exp : Int
  deriving DecidableEq, Repr

/-- A value of a floating-point format. -/
inductive Num where
  | nan
  | inf (neg : Bool)
  | fin (x : Exact)
  deriving DecidableEq, Repr

/-- The special encodings of a floating-point format (R105). -/
inductive Specials where
  | ieee | e4m3 | none
  deriving DecidableEq, Repr

/-- The fields of a floating-point element format (R105). -/
structure FloatFmt where
  ebits : Nat
  mbits : Nat
  bias : Nat
  special : Specials
  deriving DecidableEq, Repr

def FloatFmt.fp32 : FloatFmt := ⟨8, 23, 127, .ieee⟩
def FloatFmt.bf16 : FloatFmt := ⟨8, 7, 127, .ieee⟩
def FloatFmt.fp16 : FloatFmt := ⟨5, 10, 15, .ieee⟩
def FloatFmt.e4m3 : FloatFmt := ⟨4, 3, 7, .e4m3⟩
def FloatFmt.e5m2 : FloatFmt := ⟨5, 2, 15, .ieee⟩
def FloatFmt.e3m2 : FloatFmt := ⟨3, 2, 3, .none⟩
def FloatFmt.e2m3 : FloatFmt := ⟨2, 3, 1, .none⟩
def FloatFmt.e2m1 : FloatFmt := ⟨2, 1, 1, .none⟩

/-- The encoding, without its sign, of the largest finite magnitude (R105). -/
def FloatFmt.maxEnc (f : FloatFmt) : Nat :=
  match f.special with
  | .ieee => (2 ^ f.ebits - 1) * 2 ^ f.mbits - 1
  | .e4m3 => 2 ^ (f.ebits + f.mbits) - 2
  | .none => 2 ^ (f.ebits + f.mbits) - 1

/-- The encoding of +infinity, for a format that has one. -/
def FloatFmt.infEnc (f : FloatFmt) : Nat := (2 ^ f.ebits - 1) * 2 ^ f.mbits

/-- The canonical NaN (R111); 0 in a format without one, where it is met only inside an MX block of scale 0xFF (R125). -/
def FloatFmt.nanEnc (f : FloatFmt) : Nat :=
  match f.special with
  | .ieee => f.infEnc + 2 ^ (f.mbits - 1)
  | .e4m3 => 2 ^ (f.ebits + f.mbits) - 1
  | .none => 0

/-- The magnitude that an encoding without its sign names, as a significand and an exponent (R105). -/
def FloatFmt.magnitude (f : FloatFmt) (enc : Nat) : Nat × Int :=
  let e := enc / 2 ^ f.mbits
  let m := enc % 2 ^ f.mbits
  if e = 0 then (m, 1 - (f.bias : Int) - f.mbits) else (2 ^ f.mbits + m, (e : Int) - f.bias - f.mbits)

/-- The value of an encoding (R105). -/
def FloatFmt.decode (f : FloatFmt) (bits : Nat) : Num :=
  let w := f.ebits + f.mbits
  let neg := bits / 2 ^ w % 2 = 1
  let enc := bits % 2 ^ w
  match f.special with
  | .ieee =>
    if enc = f.infEnc then .inf neg
    else if enc > f.infEnc then .nan
    else .fin ⟨neg, (f.magnitude enc).1, (f.magnitude enc).2⟩
  | .e4m3 => if enc = f.nanEnc then .nan else .fin ⟨neg, (f.magnitude enc).1, (f.magnitude enc).2⟩
  | .none => .fin ⟨neg, (f.magnitude enc).1, (f.magnitude enc).2⟩

/-- Rounding of a magnitude: to nearest even, toward zero, or stochastic with a 24-bit draw (R120, R127, R128). -/
inductive Round where
  | rne
  | rtz
  | sr (draw : Nat)
  deriving DecidableEq, Repr

/-- Divides by 2^sh and rounds; `sticky` says that a nonzero part below was cut off before. -/
def roundShift (r : Round) (man sh : Nat) (sticky : Bool) : Nat :=
  let q := man / 2 ^ sh
  let rem := 2 * (man % 2 ^ sh) + (if sticky then 1 else 0)
  let full := 2 * 2 ^ sh
  match r with
  | .rne => if 2 * rem > full || (2 * rem = full && q % 2 = 1) then q + 1 else q
  | .rtz => q
  | .sr d => if 2 ^ 24 * rem / full + d ≥ 2 ^ 24 then q + 1 else q

/-- The place of the leading bit of man * 2^exp, man nonzero. -/
def topExp (man : Nat) (exp : Int) : Int := (man.log2 : Int) + exp

/-- Rounds man * 2^exp once to a format; the encoding without its sign, with no bound at the top (R127). -/
def FloatFmt.round (f : FloatFmt) (r : Round) (man : Nat) (exp : Int) (sticky : Bool := false) : Nat :=
  if man = 0 then 0
  else
    let emin : Int := 1 - (f.bias : Int)
    let e := max (topExp man exp) emin
    let q := e - f.mbits
    let sig := if q ≤ exp then man * 2 ^ (exp - q).toNat else roundShift r man (q - exp).toNat sticky
    (e - emin).toNat * 2 ^ f.mbits + sig

/-- |man * 2^exp| > |m * 2^e|, exactly. -/
def magLt (m : Nat) (e : Int) (man : Nat) (exp : Int) : Bool :=
  if e ≤ exp then m < man * 2 ^ (exp - e).toNat else m * 2 ^ (e - exp).toNat < man

/-- Puts a sign bit above an encoding. -/
def FloatFmt.signed (f : FloatFmt) (neg : Bool) (enc : Nat) : Nat :=
  if neg then 2 ^ (f.ebits + f.mbits) + enc else enc

/-- The flags a conversion may raise (R126). -/
structure ConvFlags where
  sat : Bool
  uf : Bool
  deriving DecidableEq, Repr

def ConvFlags.none : ConvFlags := ⟨false, false⟩
def ConvFlags.or (a b : ConvFlags) : ConvFlags := ⟨a.sat || b.sat, a.uf || b.uf⟩

/-- Conversion to a floating-point format: special values by R125, saturation by R124, then one rounding (R122 steps 5 to
8), with UF for a nonzero value that becomes subnormal or zero (R126). -/
def FloatFmt.convert (f : FloatFmt) (r : Round) (x : Num) : Nat × ConvFlags :=
  match x with
  | .nan => (f.nanEnc, .none)
  | .inf neg =>
    match f.special with
    | .ieee => (f.signed neg f.infEnc, .none)
    | .e4m3 => (f.signed neg f.maxEnc, ⟨true, false⟩)
    | .none => (0, .none)
  | .fin v =>
    let top := f.magnitude f.maxEnc
    if magLt top.1 top.2 v.man v.exp then (f.signed v.neg f.maxEnc, ⟨true, false⟩)
    else
      let enc := f.round r v.man v.exp
      (f.signed v.neg enc, ⟨false, v.man ≠ 0 && enc < 2 ^ f.mbits⟩)

/-- Conversion to a two's-complement integer of w bits (R106, R124 to R127). -/
def convertInt (w : Nat) (r : Round) (x : Num) : Nat × ConvFlags :=
  let hi := 2 ^ (w - 1) - 1
  let lo := 2 ^ (w - 1)
  match x with
  | .nan => (0, ⟨true, false⟩)
  | .inf neg => (if neg then lo else hi, ⟨true, false⟩)
  | .fin v =>
    if magLt (if v.neg then lo else hi) 0 v.man v.exp then (if v.neg then lo else hi, ⟨true, false⟩)
    else
      let mag := if 0 ≤ v.exp then v.man * 2 ^ v.exp.toNat else roundShift r v.man (-v.exp).toNat false
      (if v.neg then (2 ^ w - mag) % 2 ^ w else mag, ⟨false, v.man ≠ 0 && mag = 0⟩)

/-- A two's-complement integer of w bits as an exact value. -/
def Exact.ofInt (i : Int) : Exact := ⟨i < 0, i.natAbs, 0⟩

/-- Multiplication by a power of two, exact and without a range limit (R122 step 3). -/
def Num.scale (x : Num) (s : Int) : Num :=
  match x with
  | .fin v => .fin { v with exp := v.exp + s }
  | y => y

def Num.negate (x : Num) : Num :=
  match x with
  | .nan => .nan
  | .inf n => .inf (!n)
  | .fin v => .fin { v with neg := !v.neg }

def Num.abs (x : Num) : Num :=
  match x with
  | .nan => .nan
  | .inf _ => .inf false
  | .fin v => .fin { v with neg := false }

def Num.isNan (x : Num) : Bool :=
  match x with
  | .nan => true
  | _ => false

/-- The exact sum of two finite values; an exact zero is +0 unless both terms are -0 (R112). -/
def Exact.add (a b : Exact) : Exact :=
  let e := min a.exp b.exp
  let va : Int := (a.man * 2 ^ (a.exp - e).toNat : Nat)
  let vb : Int := (b.man * 2 ^ (b.exp - e).toNat : Nat)
  let v := (if a.neg then -va else va) + (if b.neg then -vb else vb)
  if v = 0 then ⟨a.neg && b.neg, 0, e⟩ else ⟨v < 0, v.natAbs, e⟩

/-- The exact product of two finite values. -/
def Exact.mul (a b : Exact) : Exact := ⟨xor a.neg b.neg, a.man * b.man, a.exp + b.exp⟩

/-- Addition of values: infinities of opposite signs give NaN (R116). -/
def Num.add (x y : Num) : Num :=
  match x, y with
  | .nan, _ => .nan
  | _, .nan => .nan
  | .inf a, .inf b => if a = b then .inf a else .nan
  | .inf a, .fin _ => .inf a
  | .fin _, .inf b => .inf b
  | .fin a, .fin b => .fin (a.add b)

/-- Multiplication of values: infinity times zero gives NaN. -/
def Num.mul (x y : Num) : Num :=
  match x, y with
  | .nan, _ => .nan
  | _, .nan => .nan
  | .inf a, .inf b => .inf (xor a b)
  | .inf a, .fin b => if b.man = 0 then .nan else .inf (xor a b.neg)
  | .fin a, .inf b => if a.man = 0 then .nan else .inf (xor a.neg b)
  | .fin a, .fin b => .fin (a.mul b)

/-- An FP32 result with one rounding to nearest even; overflow gives an infinity (R118). -/
def fp32Round (x : Num) (sticky : Bool := false) : W32 :=
  match x with
  | .nan => 0x7FC00000#32
  | .inf neg => if neg then 0xFF800000#32 else 0x7F800000#32
  | .fin v =>
    let enc := min (FloatFmt.fp32.round .rne v.man v.exp sticky) FloatFmt.fp32.infEnc
    BitVec.ofNat 32 (FloatFmt.fp32.signed v.neg enc)

def fp32Val (w : W32) : Num := FloatFmt.fp32.decode w.toNat

def fp32Add (a b : W32) : W32 := fp32Round ((fp32Val a).add (fp32Val b))
def fp32Sub (a b : W32) : W32 := fp32Round ((fp32Val a).add (fp32Val b).negate)
def fp32Mul (a b : W32) : W32 := fp32Round ((fp32Val a).mul (fp32Val b))
/-- a * b + c, rounded once (R118). -/
def fp32Fma (a b c : W32) : W32 := fp32Round (((fp32Val a).mul (fp32Val b)).add (fp32Val c))
/-- -(a * b) + c, rounded once (R152 VFNMA). -/
def fp32Fnma (a b c : W32) : W32 := fp32Round (((fp32Val a).mul (fp32Val b)).negate.add (fp32Val c))

/-- Division, correctly rounded: 40 quotient bits beyond the divisor's and a sticky remainder decide the rounding. -/
def fp32Div (a b : W32) : W32 :=
  match fp32Val a, fp32Val b with
  | .nan, _ => 0x7FC00000#32
  | _, .nan => 0x7FC00000#32
  | .inf _, .inf _ => 0x7FC00000#32
  | .inf s, .fin y => fp32Round (.inf (xor s y.neg))
  | .fin x, .inf s => fp32Round (.fin ⟨xor x.neg s, 0, 0⟩)
  | .fin x, .fin y =>
    if y.man = 0 then (if x.man = 0 then 0x7FC00000#32 else fp32Round (.inf (xor x.neg y.neg)))
    else
      let n := x.man * 2 ^ 64
      fp32Round (.fin ⟨xor x.neg y.neg, n / y.man, x.exp - y.exp - 64⟩) (n % y.man ≠ 0)

/-- The integer square root, by trying each bit from bit k - 1 down. -/
def isqrtBits (n : Nat) (k acc : Nat) : Nat :=
  match k with
  | 0 => acc
  | k' + 1 => isqrtBits n k' (if (acc + 2 ^ k') * (acc + 2 ^ k') ≤ n then acc + 2 ^ k' else acc)

/-- Square root, correctly rounded; of a negative value NaN, of -0 -0. -/
def fp32Sqrt (a : W32) : W32 :=
  match fp32Val a with
  | .nan => 0x7FC00000#32
  | .inf neg => if neg then 0x7FC00000#32 else 0x7F800000#32
  | .fin x =>
    if x.man = 0 then a
    else if x.neg then 0x7FC00000#32
    else
      let odd := x.exp % 2 ≠ 0
      let n := x.man * 2 ^ (if odd then 81 else 80)
      let e := if odd then x.exp - 81 else x.exp - 80
      let r := isqrtBits n 54 0
      fp32Round (.fin ⟨false, r, e / 2⟩) (r * r ≠ n)

/-- The sign bit of an FP32 word. -/
def fp32Neg (w : W32) : Bool := w.getLsbD 31

/-- An order on FP32 words that are not NaN: -0 ranks below +0 (R152 VMIN). -/
def fp32Rank (w : W32) : Int :=
  let m : Int := (w.toNat % 2 ^ 31 : Nat)
  if fp32Neg w then -m - 1 else m

def fp32IsNan (w : W32) : Bool := w.toNat % 2 ^ 31 > 0x7F800000
def fp32IsInf (w : W32) : Bool := w.toNat % 2 ^ 31 = 0x7F800000
def fp32IsZero (w : W32) : Bool := w.toNat % 2 ^ 31 = 0
def fp32IsSub (w : W32) : Bool := w.toNat % 2 ^ 31 < 0x00800000 && !fp32IsZero w

/-- R152 VMIN and VMAX: a NaN input gives the canonical NaN; -0 ranks below +0. -/
def fp32Min (a b : W32) : W32 :=
  if fp32IsNan a || fp32IsNan b then 0x7FC00000#32 else if fp32Rank a ≤ fp32Rank b then a else b
def fp32Max (a b : W32) : W32 :=
  if fp32IsNan a || fp32IsNan b then 0x7FC00000#32 else if fp32Rank a ≤ fp32Rank b then b else a

def fp32Abs (a : W32) : W32 := if fp32IsNan a then 0x7FC00000#32 else a &&& 0x7FFFFFFF#32
def fp32Negate (a : W32) : W32 := if fp32IsNan a then 0x7FC00000#32 else a ^^^ 0x80000000#32

/-- A < B as numbers; false if either is NaN; the two zeros are equal (R152). -/
def fp32Lt (a b : W32) : Bool :=
  !fp32IsNan a && !fp32IsNan b && !(fp32IsZero a && fp32IsZero b) && fp32Rank a < fp32Rank b
def fp32Eq (a b : W32) : Bool :=
  !fp32IsNan a && !fp32IsNan b && ((fp32IsZero a && fp32IsZero b) || a = b)

/-- The formats of R104. -/
inductive Fmt where
  | fp32 | bf16 | fp16 | e4m3 | e5m2 | int8 | int32 | mxE4m3 | mxE5m2 | mxE3m2 | mxE2m3 | mxE2m1
  deriving DecidableEq, Repr

/-- The format of a code; the codes 0xC to 0xF are reserved (R104). -/
def Fmt.ofCode (c : Nat) : Option Fmt :=
  match c with
  | 0 => some .fp32
  | 1 => some .bf16
  | 2 => some .fp16
  | 3 => some .e4m3
  | 4 => some .e5m2
  | 5 => some .int8
  | 6 => some .int32
  | 7 => some .mxE4m3
  | 8 => some .mxE5m2
  | 9 => some .mxE3m2
  | 10 => some .mxE2m3
  | 11 => some .mxE2m1
  | _ => none

/-- Element width in bits, without the MX scale (R104). -/
def Fmt.width : Fmt → Nat
  | .fp32 => 32
  | .bf16 => 16
  | .fp16 => 16
  | .e4m3 => 8
  | .e5m2 => 8
  | .int8 => 8
  | .int32 => 32
  | .mxE4m3 => 8
  | .mxE5m2 => 8
  | .mxE3m2 => 6
  | .mxE2m3 => 6
  | .mxE2m1 => 4

/-- True of the MX formats, whose elements share a scale by blocks of 32. -/
def Fmt.isMx : Fmt → Bool
  | .mxE4m3 => true
  | .mxE5m2 => true
  | .mxE3m2 => true
  | .mxE2m3 => true
  | .mxE2m1 => true
  | _ => false

/-- The element layout of a floating-point format; none for the integers. -/
def Fmt.float : Fmt → Option FloatFmt
  | .fp32 => some .fp32
  | .bf16 => some .bf16
  | .fp16 => some .fp16
  | .e4m3 => some .e4m3
  | .e5m2 => some .e5m2
  | .int8 => none
  | .int32 => none
  | .mxE4m3 => some .e4m3
  | .mxE5m2 => some .e5m2
  | .mxE3m2 => some .e3m2
  | .mxE2m3 => some .e2m3
  | .mxE2m1 => some .e2m1

/-- A two's-complement integer of w bits. -/
def intOfBits (w n : Nat) : Int := if n % 2 ^ w < 2 ^ (w - 1) then (n % 2 ^ w : Nat) else ((n % 2 ^ w : Nat) : Int) - 2 ^ w

/-- The value of an element of a format. -/
def Fmt.decode (f : Fmt) (bits : Nat) : Num :=
  match f.float with
  | some ff => ff.decode bits
  | none => .fin (Exact.ofInt (intOfBits f.width bits))

/-- One conversion to a format, without its MX scale (R122 steps 5 to 8). -/
def Fmt.convert (f : Fmt) (r : Round) (x : Num) : Nat × ConvFlags :=
  match f.float with
  | some ff => ff.convert r x
  | none => convertInt f.width r x

/-- emax of R130: the exponent of the element type's largest normal value. -/
def FloatFmt.emax (f : FloatFmt) : Int :=
  let top := f.magnitude f.maxEnc
  topExp top.1 top.2

/-- The largest leading-bit exponent of a block's finite nonzero values (R130 amax). -/
def blockTop (xs : List Num) : Option Int :=
  xs.foldl (fun acc x =>
    match x with
    | .fin v =>
      if v.man = 0 then acc
      else match acc with
        | none => some (topExp v.man v.exp)
        | some t => some (max t (topExp v.man v.exp))
    | _ => acc) none

/-- True if a block holds an infinity or a NaN (R125). -/
def blockSpecial (xs : List Num) : Bool :=
  xs.any fun x => match x with
    | .fin _ => false
    | _ => true

/-- One MX block: its scale byte by R130, then each element divided by it and converted with its own rounding (R122 steps
4 to 8). A block with an infinity or a NaN takes scale 0xFF, every element 0 and no flag (R125, R126). -/
def mxBlock (f : FloatFmt) (xs : List (Num × Round)) : Nat × List Nat × ConvFlags :=
  if blockSpecial (xs.map Prod.fst) then (0xFF, xs.map fun _ => 0, .none)
  else
    let e : Int := match blockTop (xs.map Prod.fst) with
      | none => -127
      | some t => max (-127) (min 127 (t - f.emax))
    let cs := xs.map fun p => f.convert p.2 (p.1.scale (-e))
    ((e + 127).toNat, cs.map Prod.fst, cs.foldl (fun a c => a.or c.2) .none)

/-- The exponent of an E8M0 scale byte; 0xFF is NaN (R107). -/
def e8m0 (b : Nat) : Option Int := if b = 0xFF then none else some ((b : Int) - 127)

/-- Packs elements of w bits densely from the lowest bit (R108). -/
def packBits (w : Nat) (xs : List Nat) : Nat := xs.foldr (fun x acc => acc * 2 ^ w + x % 2 ^ w) 0

/-- The bytes of a little-endian number. -/
def bytesOfNat (n : Nat) (v : Nat) : List Byte := (List.range n).map fun i => BitVec.ofNat 8 (v / 2 ^ (8 * i))

/-- The number that little-endian bytes hold. -/
def natOfBytes (bs : List Byte) : Nat := bs.foldr (fun b acc => acc * 256 + b.toNat) 0

end Sys2Proof.Machine
end

