-- ==== Sys2Proof/Machine/Flags.lean ====
section
/-! DEFINITION. Status words (R14, R15, R177), the order of R17, and the tile's exception flags XFLAGS (R89, R100). -/

namespace Sys2Proof.Machine

/-- A status word: code in [31:16], detail in [7:0] (R14). -/
def statusWord (code detail : Nat) : W32 := BitVec.ofNat 32 (code % 65536 * 65536 + detail % 256)

/-- The code of a status word. -/
def statusCode (w : W32) : Nat := w.toNat / 65536

def stOk : W32 := 0#32
def stReserved : W32 := statusWord 0x0101 0
def stLength : W32 := statusWord 0x0102 0
def stBounds : W32 := statusWord 0x0103 0
/-- REJECT_VERSION carries the highest level supported, 1 (R15). -/
def stVersion : W32 := statusWord 0x0104 1
def stUnresolved : W32 := statusWord 0x0201 0
def stRevoked : W32 := statusWord 0x0202 0
def stTierError : W32 := statusWord 0x0301 0
def stTierTimeout : W32 := statusWord 0x0302 0
def stHostLost : W32 := statusWord 0x0401 0
def stRemoteNack (n : Nat) : W32 := statusWord 0x0501 n
def stSlotNotReady : W32 := statusWord 0x0601 0
def stAdmission : W32 := statusWord 0x0701 0
def stParity : W32 := statusWord 0x0702 1
def stTokenOverflow : W32 := statusWord 0x0702 2
def stBellFault : W32 := statusWord 0x0703 0
def stTerminated : W32 := statusWord 0x0704 0
def stHeader : W32 := statusWord 0x0705 0
/-- 0x0602 SEALED_DENIED (R425). -/
def stSealed : W32 := statusWord 0x0602 0

/-- Of the failed checks of one item, the one reported: a header mismatch first, then by code (R17). -/
def firstStatus (errs : List (Bool × W32)) : Option W32 :=
  let failed := (errs.filter Prod.fst).map Prod.snd
  if failed.contains stHeader then some stHeader
  else if failed.contains stVersion then some stVersion
  else if failed.contains stReserved then some stReserved
  else if failed.contains stLength then some stLength
  else if failed.contains stBounds then some stBounds
  else failed.head?

/-- The bits of XFLAGS (R100). -/
def flagNv : BitVec 7 := 1#7
def flagNanin : BitVec 7 := 2#7
def flagOf : BitVec 7 := 4#7
def flagIov : BitVec 7 := 8#7
def flagSat : BitVec 7 := 16#7
def flagUf : BitVec 7 := 32#7
def flagPar : BitVec 7 := 64#7

/-- A flag, where a condition holds. -/
def flagIf (c : Bool) (f : BitVec 7) : BitVec 7 := if c then f else 0#7

/-- The flags that a conversion raises (R126). -/
def ConvFlags.bits (c : ConvFlags) : BitVec 7 := flagIf c.sat flagSat ||| flagIf c.uf flagUf

end Sys2Proof.Machine
end

