-- ==== Sys2Proof/Machine/Map.lean ====
section
/-! DEFINITION. Finite maps as plain data: a list of keys and values in one canonical form. The keys rise strictly and no
entry equals the value that an unlisted key reads as. Memories are maps of bytes whose unlisted value is 0. -/

namespace Sys2Proof.Machine

/-- Keys and values, in the canonical form of `Map.wf`. -/
abbrev Map (α : Type) := List (Nat × α)

/-- The value at a key; `d` where the key is not listed. -/
def Map.get {α : Type} (d : α) (m : Map α) (i : Nat) : α :=
  match m with
  | [] => d
  | (k, v) :: rest => if k = i then v else Map.get d rest i

/-- The entries whose keys lie below `i`. -/
def Map.below {α : Type} (m : Map α) (i : Nat) : Map α := m.filter fun e => e.1 < i

/-- The entries whose keys are `i` or above. -/
def Map.from {α : Type} (m : Map α) (i : Nat) : Map α := m.filter fun e => i ≤ e.1

/-- The cells that a run of values from key `a` lists: the ones that differ from what their key reads as unlisted. -/
def Map.cells {α : Type} [DecidableEq α] (d : Nat → α) (a : Nat) (xs : List α) : Map α :=
  match xs with
  | [] => []
  | x :: rest => if x = d a then Map.cells d (a + 1) rest else (a, x) :: Map.cells d (a + 1) rest

/-- Writes a run of values from key `a`, keeping the canonical form; `d` is what each key reads as unlisted. -/
def Map.setRunBy {α : Type} [DecidableEq α] (d : Nat → α) (m : Map α) (a : Nat) (xs : List α) : Map α :=
  m.below a ++ (Map.cells d a xs ++ m.from (a + xs.length))

/-- As `setRunBy`, with one unlisted value for every key. -/
def Map.setRun {α : Type} [DecidableEq α] (d : α) (m : Map α) (a : Nat) (xs : List α) : Map α := m.setRunBy (fun _ => d) a xs

/-- Writes one value, keeping the canonical form. -/
def Map.set {α : Type} [DecidableEq α] (d : α) (m : Map α) (i : Nat) (x : α) : Map α := m.setRun d i [x]

/-- Reads `n` values from key `a`; `d` is what each key reads as unlisted. -/
def Map.getRunBy {α : Type} (d : Nat → α) (m : Map α) (a n : Nat) : List α :=
  let near := (m.from a).below (a + n)
  (List.range n).map fun i => near.get (d (a + i)) (a + i)

/-- Reads `n` values from key `a`. -/
def Map.getRun {α : Type} (d : α) (m : Map α) (a n : Nat) : List α := m.getRunBy (fun _ => d) a n

/-- Changes the value at one key. -/
def Map.modify {α : Type} [DecidableEq α] (d : α) (m : Map α) (i : Nat) (f : α → α) : Map α := m.set d i (f (m.get d i))

/-- The canonical form: keys strictly rising, no entry equal to what its key reads as unlisted. -/
def Map.wfBy {α : Type} [DecidableEq α] (d : Nat → α) (m : Map α) : Bool :=
  decide ((m.map Prod.fst).Pairwise (· < ·)) && m.all fun e => e.2 ≠ d e.1
def Map.wf {α : Type} [DecidableEq α] (d : α) (m : Map α) : Bool := m.wfBy fun _ => d

end Sys2Proof.Machine
end

