-- ==== Sys2Proof/Machine/TileState.lean ====
section
/-! DEFINITION. The state of a matrix tile (spec/02, spec/04): health and repair, accumulator banks, scale table, flags, the
sequencer with its register files and tokens, the engine queues, posted RINGs, drains through the vector engine, move
descriptors in flight and tile SRAM. -/

namespace Sys2Proof.Machine

/-- Tile states of R97, with their codes 0 to 3. -/
inductive TileHealth where
  | full | foldOnly | retired | outOfService
  deriving DecidableEq, Repr

/-- The STATE codes of SEQ_STATUS, 0 to 5 (R178). -/
inductive SeqState where
  | idle | running | inWait | draining | stopped | clearing
  deriving DecidableEq, Repr

/-- The vector operations, in the order of their OP codes (R152). -/
inductive VOp where
  | vadd | vsub | vmul | vfma | vfnma | vmin | vmax | vabs | vneg | vdiv | vsqrt | vcmplt | vcmpeq | vclass | vsel | vbcast
  | vld | vst | vrsum | vrmax | viadd | visub | vimul | vand | vor | vxor | vshl | vshr | vshra | vcvtif | vcvtfi | vmov
  deriving DecidableEq, Repr

/-- The operands of an MMA word (R147). -/
structure MmaOp where
  k : Nat
  shape : Nat
  pmask : Nat
  bank : Bool
  zero : Bool
  sparse : Bool
  arec : Nat
  brec : Nat
  deriving DecidableEq, Repr

/-- The operands of a DRAIN word (R148); `tag` is bits [31:0] of TAGREG, read when the word was appended (R134). -/
structure DrainOp where
  bank : Bool
  shape : Nat
  pmask : Nat
  rm : Nat
  ds : Int
  sen : Bool
  sent : Nat
  viaVector : Bool
  drec : Nat
  tag : W32
  deriving DecidableEq, Repr

/-- The operands of a vector word (R151); `sa` and `sb` are the scalar registers VA and VB name, read at the append. -/
structure VecArgs where
  vd : Nat
  va : Nat
  vb : Nat
  vc : Nat
  msk : Nat
  md : Nat
  fmt : Nat
  rm : Nat
  imm : Nat
  sa : W64
  sb : W64
  deriving DecidableEq, Repr

/-- An engine instruction in a queue, with its scalar operands already read (R134). -/
inductive EngOp where
  | mma (o : MmaOp)
  | drain (o : DrainOp)
  | sclr (first count : Nat)
  | ssto (addr : W64)
  | seed (v : W64)
  | vec (op : VOp) (a : VecArgs)
  | msub (addr : W64)
  deriving DecidableEq, Repr

/-- A queued or running engine instruction: its place in the order of appends, its PC and its token fields. -/
structure QEntry where
  idx : Nat
  pc : Nat
  tok : Tok
  op : EngOp
  deriving DecidableEq, Repr

/-- A RING not yet fired (R160): it covers the instructions appended before `upto` to the queues of its mask. -/
structure PostedRing where
  bell : Nat
  scope : Scope
  qmask : BitVec 3
  n : W64
  upto : Nat
  pc : Nat
  tok : Tok
  deriving DecidableEq, Repr

/-- A WAIT in progress (R161). -/
structure WaitRec where
  bell : Nat
  scope : Scope
  thresh : W64
  pc : Nat
  tok : Tok
  deriving DecidableEq, Repr

/-- An operand record (R143). -/
structure OpRec where
  base : Nat
  fmt : Nat
  kstride : Nat
  pstride : Nat
  scaleBase : Nat
  scaleStride : Nat
  indexBase : Nat
  indexStride : Nat
  rsvZero : Bool
  deriving DecidableEq, Repr

/-- A DMODE 0b01 drain under way (R149): rows read from the bank, rows handed back, flags it has already set (R126). -/
structure ActiveDrain where
  entry : QEntry
  o : DrainOp
  opRec : OpRec
  int : Bool
  seed : W64
  read : Nat
  back : Nat
  raised : BitVec 7
  deriving DecidableEq, Repr

/-- An accumulator bank (R57, R69): 128 x 128 words, its type tag, and whether it is poisoned (R92). -/
structure Bank where
  cells : Map W32
  int : Bool
  poisoned : Bool
  deriving DecidableEq, Repr

/-- The kinds of a move descriptor (R155). -/
inductive MoveKind where
  | copy | transpose | fill | inline | put | get
  deriving DecidableEq, Repr

/-- The fields of a move descriptor that its execution uses (R155, R297). -/
structure MoveDesc where
  kind : MoveKind
  esize : Nat
  srcSram : Bool
  dstSram : Bool
  stream : Nat
  src : W64
  dst : W64
  cols : Nat
  rows : Nat
  srcStride : Nat
  dstStride : Nat
  bell : Nat
  scope : Scope
  ringEn : Bool
  n : W16
  fill : W32
  remoteCoord : BitVec 19
  remoteWindow : Byte
  remoteMulti : Bool
  data : List Byte
  deriving DecidableEq, Repr

/-- Where a descriptor in flight stands: handed over by MSUB, stalled on a fault, translated, moving, done, or refused. -/
inductive DescPhase where
  | submitted | faulted | accepted | transferring | done | failed
  deriving DecidableEq, Repr

/-- A descriptor in flight (R153, R154, R158). `pbase` is the physical address of the page its translation found, `vbase` the
page's virtual base and `psize` its size; `atOnce` marks the refusals that wait for no stream (R158). -/
structure InFlight where
  off : Nat
  idx : Nat
  pc : Nat
  tok : Tok
  phase : DescPhase
  d : Option MoveDesc
  vbase : Nat
  pbase : Nat
  psize : Nat
  host : Bool
  revoked : Bool
  atOnce : Bool
  status : W32
  ext : W32
  deriving DecidableEq, Repr

structure Tile where
  health : TileHealth
  qmask : BitVec 4
  phys : BitVec 7
  repairRow : W64
  repairCol : W64
  failRows0 : BitVec 2
  failRows1 : BitVec 2
  failCols0 : BitVec 2
  failCols1 : BitVec 2
  xflags : BitVec 7
  srSeed : W64
  scale : Map W32
  scaleNan : W64
  bank0 : Bank
  bank1 : Bank
  seq : SeqState
  pc : Nat
  sregs : Map W64
  vregs : Map Row
  mregs : Map (BitVec 128)
  tokens : Map Nat
  appended : Nat
  matrixQ : List QEntry
  vectorQ : List QEntry
  moveQ : List QEntry
  running : List (Engine × QEntry)
  rings : List PostedRing
  waiting : Option WaitRec
  vdin : List Row
  drains : List ActiveDrain
  descs : List InFlight
  sram : Map Byte
  xheld : Map Bool
  kernel : Option Nat
  logical : Nat
  tag : W64
  recBase : Nat
  sramBytes : Nat
  stop : W32
  failPc : Nat
  ownStop : Bool
  stopDue : Option W32
  deriving DecidableEq, Repr

/-- A bank after tile reset: +0.0 and the FP32 tag (R69). -/
def Bank.reset : Bank := { cells := [], int := false, poisoned := false }

/-- A tile after cold reset, before its self-test. The fields "Set at self-test" and the fused physical position hold the
values that assumption 4 names. -/
def Tile.reset : Tile :=
  { health := .full, qmask := 0xF#4, phys := 0#7, repairRow := 0#64, repairCol := 0#64, failRows0 := 0#2, failRows1 := 0#2,
    failCols0 := 0#2, failCols1 := 0#2, xflags := 0#7, srSeed := 0#64, scale := [], scaleNan := 0#64, bank0 := Bank.reset,
    bank1 := Bank.reset, seq := .idle, pc := 0, sregs := [], vregs := [], mregs := [], tokens := [], appended := 0,
    matrixQ := [], vectorQ := [], moveQ := [], running := [], rings := [], waiting := none, vdin := [], drains := [],
    descs := [], sram := [], xheld := [], kernel := none, logical := 0, tag := 0#64, recBase := 0, sramBytes := 0,
    stop := 0#32, failPc := 0, ownStop := false, stopDue := none }

end Sys2Proof.Machine
end

