-- ==== Sys2Proof/Machine/Tile.lean ====
section
/-! DEFINITION. The named operations of one tile: register files (R140), tokens (R137, R139), tile SRAM (R141, R142), the
engine queues (R132, R133), and how a tile stops (R136). -/

namespace Sys2Proof.Machine

/-- The lanes of a vector register of a tile (R140). -/
def zeroRow : Row := List.replicate 128 0#32

/-- S0 reads as zero (R140). -/
def Tile.sreg (x : Tile) (r : Nat) : W64 := if r = 0 then 0#64 else x.sregs.get 0#64 r

/-- A write to S0 is discarded (R140). -/
def Tile.setSreg (x : Tile) (r : Nat) (v : W64) : Tile :=
  { x with sregs := if r = 0 then x.sregs else x.sregs.set 0#64 r v }

def Tile.vreg (x : Tile) (r : Nat) : Row := x.vregs.get zeroRow r

/-- M0 reads as all ones and cannot be written (R140). -/
def Tile.mreg (x : Tile) (r : Nat) : BitVec 128 := if r = 0 then BitVec.allOnes 128 else x.mregs.get 0#128 r
def Tile.setMreg (x : Tile) (r : Nat) (v : BitVec 128) : Tile :=
  { x with mregs := if r = 0 then x.mregs else x.mregs.set 0#128 r v }

/-- Bytes of tile SRAM. -/
def Tile.load (x : Tile) (a n : Nat) : List Byte := Map.getRun 0#8 x.sram a n
/-- The 128 B lines that a span touches. -/
def lineCount (a n : Nat) : Nat := if n = 0 then 0 else (a + n - 1) / 128 + 1 - a / 128
/-- A write of STATUS or XLAT by the move engine, which leaves XHELD as it is (R224). -/
def Tile.storeOwn (x : Tile) (a : Nat) (bs : List Byte) : Tile := { x with sram := Map.setRun 0#8 x.sram a bs }
/-- Any other write into tile SRAM clears XHELD of the lines it touches (R224). -/
def Tile.store (x : Tile) (a : Nat) (bs : List Byte) : Tile :=
  { x with sram := Map.setRun 0#8 x.sram a bs,
           xheld := Map.setRun false x.xheld (a / 128) (List.replicate (lineCount a bs.length) false) }

/-- The access of `n` bytes at `a` lies wholly below SRAM_BYTES (R142). -/
def Tile.within (x : Tile) (a n : Nat) : Bool := a + n ≤ x.sramBytes

/-- True if the channel an instruction waits on, if any, is nonzero (R137). -/
def Tile.tokAvail (x : Tile) (k : Tok) : Bool :=
  match k.wait with
  | none => true
  | some c => x.tokens.get 0 c.val ≠ 0

/-- Takes the token an instruction waits for (R137). -/
def Tile.takeTok (x : Tile) (k : Tok) : Tile :=
  match k.wait with
  | none => x
  | some c => { x with tokens := x.tokens.set 0 c.val (x.tokens.get 0 c.val - 1) }

/-- The queue of an engine. -/
def Tile.queue (x : Tile) (e : Engine) : List QEntry :=
  match e with
  | .matrix => x.matrixQ
  | .vector => x.vectorQ
  | .move => x.moveQ

def Tile.setQueue (x : Tile) (e : Engine) (q : List QEntry) : Tile :=
  match e with
  | .matrix => { x with matrixQ := q }
  | .vector => { x with vectorQ := q }
  | .move => { x with moveQ := q }

/-- The tile is running a program or finishing one (SEQ_STATUS 1 to 4). -/
def Tile.live (x : Tile) : Bool :=
  match x.seq with
  | .idle => false
  | .clearing => false
  | _ => true

/-- True once the tile has been stopped. -/
def Tile.stopped (x : Tile) : Bool := x.seq = .stopped

/-- R136: the queues keep what lies ahead of `cut` in the order of appends; RINGs not fired are discarded. -/
def Tile.cutQueues (x : Tile) (cut : Nat) : Tile :=
  { x with matrixQ := x.matrixQ.filter (·.idx < cut), vectorQ := x.vectorQ.filter (·.idx < cut),
           moveQ := x.moveQ.filter (·.idx < cut), rings := [] }

/-- R136, R174: the tile stops with a status, the PC reported, and whether it is its own stop. A tile that has stopped
already keeps its first status and drops what is queued behind `cut`. -/
def Tile.halt (x : Tile) (status : W32) (pc cut : Nat) (own : Bool) : Tile :=
  if x.stopped then x.cutQueues cut
  else { x.cutQueues cut with seq := .stopped, stop := status, failPc := pc, ownStop := own, waiting := none, stopDue := none }

/-- A stop of the tile's own account (R174). -/
def Tile.fail (x : Tile) (status : W32) (pc cut : Nat) : Tile := x.halt status pc cut true

/-- Signals a channel on completion; a channel already at 255 stops the tile (R137, R139). -/
def Tile.signal (x : Tile) (k : Tok) (pc cut : Nat) : Tile :=
  match k.signal with
  | none => x
  | some c =>
    if x.tokens.get 0 c.val < 255 then { x with tokens := x.tokens.set 0 c.val (x.tokens.get 0 c.val + 1) }
    else x.fail stTokenOverflow pc cut

/-- Sticky flags (R89). -/
def Tile.raise (x : Tile) (f : BitVec 7) : Tile := { x with xflags := x.xflags ||| f }

/-- A sequencer instruction may execute: the sequencer runs, no stop is due, and its token is there (R137, R174). -/
def Tile.seqReady (x : Tile) (k : Tok) : Bool := x.seq = .running && x.stopDue.isNone && x.tokAvail k

/-- Appends an engine instruction to its queue (R132); its index is its place in the order of appends. -/
def Tile.append (x : Tile) (e : Engine) (k : Tok) (op : EngOp) : Tile :=
  { (x.setQueue e (x.queue e ++ [{ idx := x.appended, pc := x.pc, tok := k, op := op }])) with
    appended := x.appended + 1, pc := x.pc + 8 }

/-- The rows that a drain of a shape reads: 128, or one band (R73). -/
def drainRows (shape : Nat) : Nat :=
  match shape with
  | 3 => 32
  | 4 => 16
  | _ => 128

/-- True if an MMA on the bank is still running (R74). -/
def Tile.bankBusy (x : Tile) (bank : Bool) : Bool :=
  x.running.any fun r => match r.2.op with
    | .mma o => o.bank = bank
    | _ => false

/-- True if a drain of the bank has rows of it still to read (R74). -/
def Tile.bankDraining (x : Tile) (bank : Bool) : Bool :=
  x.drains.any fun d => d.o.bank = bank && d.read < drainRows d.o.shape

/-- True if a vector operation reads VDIN (V62) through a source it uses. -/
def VecArgs.readsVdin (op : VOp) (a : VecArgs) : Bool :=
  let va := a.va = 62
  let vb := a.vb = 62
  let vc := a.vc = 62
  match op with
  | .vadd => va || vb
  | .vsub => va || vb
  | .vmul => va || vb
  | .vfma => va || vb || vc
  | .vfnma => va || vb || vc
  | .vmin => va || vb
  | .vmax => va || vb
  | .vabs => va
  | .vneg => va
  | .vdiv => va || vb
  | .vsqrt => va
  | .vcmplt => va || vb
  | .vcmpeq => va || vb
  | .vclass => va
  | .vsel => va || vb
  | .vbcast => false
  | .vld => false
  | .vst => vc
  | .vrsum => va
  | .vrmax => va
  | .viadd => va || vb
  | .visub => va || vb
  | .vimul => va || vb
  | .vand => va || vb
  | .vor => va || vb
  | .vxor => va || vb
  | .vshl => va
  | .vshr => va
  | .vshra => va
  | .vcvtif => va
  | .vcvtfi => va
  | .vmov => va

/-- What delays the start of an engine instruction besides its token: bank order (R74), a row for VDIN (R149), the 64
descriptors in flight (R153), and a drain through the vector engine still under way for the scale-table operations (R88). -/
def Tile.unblocked (x : Tile) (op : EngOp) : Bool :=
  match op with
  | .mma o => !x.bankDraining o.bank
  | .drain o => !x.bankBusy o.bank && !(x.drains.any fun d => d.read < drainRows d.o.shape)
  | .sclr _ _ => x.drains.isEmpty
  | .ssto _ => x.drains.isEmpty
  | .seed _ => true
  | .vec op a => !a.readsVdin op || !x.vdin.isEmpty
  | .msub _ => x.descs.length < 64

/-- The head of a queue may start. -/
def Tile.headStarts (x : Tile) (e : Engine) : Bool :=
  match x.queue e with
  | [] => false
  | h :: _ => x.live && x.tokAvail h.tok && x.unblocked h.op

/-- True if nothing ahead of a stop runs that could still complete by itself (R136): only drains awaiting VDOUT rows. -/
def Tile.stuck (x : Tile) : Bool :=
  x.descs.isEmpty && (x.running.all fun r => x.drains.any fun d => d.entry.idx = r.2.idx)
    && !x.headStarts .matrix && !x.headStarts .vector && !x.headStarts .move

/-- True if nothing is queued, running or in flight. -/
def Tile.drained (x : Tile) : Bool :=
  x.matrixQ.isEmpty && x.vectorQ.isEmpty && x.moveQ.isEmpty && x.running.isEmpty && x.rings.isEmpty && x.descs.isEmpty

end Sys2Proof.Machine
end

