-- ==== Sys2Proof/Machine/Matrix.lean ====
section
/-! DEFINITION. The matrix engine (spec/02, spec/03): operand records, MMA, drains with band reduction, scale tracking and
conversion, and the scale-table operations. -/

namespace Sys2Proof.Machine

/-- Bits [hi:lo] of a number. -/
def bitsOf (n lo w : Nat) : Nat := n / 2 ^ lo % 2 ^ w

/-- The 32-bit word at byte offset `o` of a record. -/
def wordAt (bs : List Byte) (o : Nat) : Nat := natOfBytes ((bs.drop o).take 4)

/-- Decodes the 32 B of an operand record (R143). -/
def OpRec.ofBytes (bs : List Byte) : OpRec :=
  let w0 := wordAt bs 0
  let w1 := wordAt bs 4
  let w2 := wordAt bs 8
  let w3 := wordAt bs 12
  let w4 := wordAt bs 16
  let w5 := wordAt bs 20
  let w6 := wordAt bs 24
  { base := bitsOf w0 0 23, fmt := bitsOf w0 24 4, kstride := bitsOf w1 0 23, pstride := bitsOf w2 0 23,
    scaleBase := bitsOf w3 0 23, scaleStride := bitsOf w4 0 23, indexBase := bitsOf w5 0 23, indexStride := bitsOf w6 0 23,
    rsvZero := bitsOf w0 23 1 = 0 && bitsOf w0 28 4 = 0 && bitsOf w1 23 9 = 0 && bitsOf w2 23 9 = 0 && bitsOf w3 23 9 = 0
      && bitsOf w4 23 9 = 0 && bitsOf w5 23 9 = 0 && bitsOf w6 23 9 = 0 && wordAt bs 28 = 0 }

/-- The address of record n (R143). -/
def Tile.recAddr (x : Tile) (n : Nat) : Nat := x.recBase + 32 * n
def Tile.opRec (x : Tile) (n : Nat) : OpRec := OpRec.ofBytes (x.load (x.recAddr n) 32)

/-- Bytes of a row of `l` elements. -/
def rowBytes (f : Fmt) (l : Nat) : Nat := l * f.width / 8

/-- The alignment rules of a record, for rows of `l` lanes (R144). The stride of an index plane is checked like the rest. -/
def OpRec.aligned (r : OpRec) (f : Fmt) (l : Nat) : Bool :=
  r.base % 32 = 0 && r.kstride % 32 = 0 && r.pstride % 32 = 0 && r.scaleStride % 32 = 0 && r.indexStride % 32 = 0
    && rowBytes f l ≤ r.kstride

/-- A pair class (R61). -/
inductive PairClass where
  | mx4 | mx68 | fp8 | int8 | bf16 | fp16
  deriving DecidableEq, Repr

/-- The class of an operand format; none where it is no matrix operand (R61, R104). -/
def Fmt.pairClass (f : Fmt) : Option PairClass :=
  match f with
  | .fp32 => none
  | .bf16 => some .bf16
  | .fp16 => some .fp16
  | .e4m3 => some .fp8
  | .e5m2 => some .fp8
  | .int8 => some .int8
  | .int32 => none
  | .mxE4m3 => some .mx68
  | .mxE5m2 => some .mx68
  | .mxE3m2 => some .mx68
  | .mxE2m3 => some .mx68
  | .mxE2m1 => some .mx4

/-- The class of a pair of formats, where R61 permits the pair. -/
def pairClass (a b : Option Fmt) : Option PairClass :=
  match a.bind Fmt.pairClass, b.bind Fmt.pairClass with
  | some x, some y => if x = y then some x else none
  | _, _ => none

/-- G of R75. -/
def PairClass.gran (c : PairClass) : Nat :=
  match c with
  | .mx4 => 32
  | .mx68 => 32
  | .fp8 => 2
  | .int8 => 2
  | .bf16 => 1
  | .fp16 => 1

/-- Products of one granule: 32 dense indices of an MX block, two of an 8-bit K-slot, one of a 16-bit one; a sparse operand
keeps half of the dense indices (R60, R63, R113). -/
def PairClass.products (c : PairClass) (sparse : Bool) : Nat :=
  match c with
  | .mx4 => if sparse then 16 else 32
  | .mx68 => if sparse then 16 else 32
  | .fp8 => 2
  | .int8 => 2
  | .bf16 => 1
  | .fp16 => 1

def PairClass.isMx (c : PairClass) : Bool :=
  match c with
  | .mx4 => true
  | .mx68 => true
  | _ => false

/-- Bands of a shape (R75). -/
def shapeBands (shape : Nat) : Nat :=
  match shape with
  | 3 => 4
  | 4 => 8
  | _ => 1

/-- Problems of a shape (R75). -/
def shapeProblems (shape : Nat) : Nat :=
  match shape with
  | 1 => 2
  | 2 => 4
  | _ => 1

/-- Output rows and columns per problem (R75). -/
def shapeM (shape : Nat) : Nat :=
  match shape with
  | 0 => 128
  | 1 => 64
  | 2 => 64
  | 3 => 32
  | _ => 16
def shapeN (shape : Nat) : Nat := if shape = 2 then 64 else 128

/-- The first row and column of a problem's region (R75). -/
def problemRow (shape p : Nat) : Nat :=
  match shape with
  | 1 => 64 * p
  | 2 => 64 * (p / 2)
  | _ => 0
def problemCol (shape p : Nat) : Nat := if shape = 2 then 64 * (p % 2) else 0

/-- The problems that an instruction enables (R76). -/
def enabledProblems (shape pmask : Nat) : List Nat :=
  match shape with
  | 1 => (List.range 2).filter fun p => bitsOf pmask p 1 = 1
  | 2 => (List.range 4).filter fun p => bitsOf pmask p 1 = 1
  | _ => [0]

/-- R76 and the codes of R75 by the word alone: a reserved shape, or a mask where or beyond what the shape takes. -/
def shapeMaskBad (shape pmask : Nat) : Bool :=
  match shape with
  | 0 => pmask ≠ 0
  | 1 => pmask ≥ 4
  | 2 => false
  | 3 => pmask ≠ 0
  | 4 => pmask ≠ 0
  | _ => true

/-- The quadrants that a problem uses (R96). -/
def problemQuadrants (shape p : Nat) : List Nat :=
  match shape with
  | 1 => [2 * p, 2 * p + 1]
  | 2 => [p]
  | _ => [0, 1, 2, 3]

/-- R98: what a FOLD_ONLY tile refuses. -/
def Tile.foldRefuses (x : Tile) (shape pmask : Nat) : Bool :=
  x.health = .foldOnly &&
    (!(shape = 1 || shape = 2) ||
      (enabledProblems shape pmask).any fun p => (problemQuadrants shape p).any fun q => !x.qmask.getLsbD q)

/-- Element l of a packed row. -/
def elemOf (f : Fmt) (row : Nat) (l : Nat) : Nat := bitsOf row (f.width * l) f.width

/-- The elements of one row of an operand. -/
def Tile.rowElems (x : Tile) (f : Fmt) (a l : Nat) : List Nat :=
  let n := natOfBytes (x.load a (rowBytes f l))
  (List.range l).map (elemOf f n)

/-- A product of an A element and a B element as the granule meets it. -/
structure Product where
  a : Num
  b : Num
  deriving DecidableEq, Repr

/-- A granule's contribution with its flags, by the precedence of R115; `scale` is the exponent sum of its block scales, none
if either is NaN (R114). -/
def granule (ps : List Product) (scale : Option Int) : Num × BitVec 7 :=
  let nan := scale.isNone || ps.any fun p => p.a.isNan || p.b.isNan
  let prods := ps.map fun p => p.a.mul p.b
  let bad := prods.any Num.isNan
  let pos := prods.contains (.inf false)
  let neg := prods.contains (.inf true)
  if nan then (.nan, flagNanin)
  else if bad || (pos && neg) then (.nan, flagNv)
  else if pos then (.inf false, 0#7)
  else if neg then (.inf true, 0#7)
  else
    let sum := prods.foldl (fun acc p => match p with
      | .fin v => acc.add v
      | _ => acc) (Exact.mk false 0 0)
    (.fin { (if sum.man = 0 then Exact.mk false 0 0 else sum) with exp := sum.exp + scale.getD 0 }, 0#7)

/-- One update of an FP32 accumulator element; `first` replaces it (R70, R116). -/
def accUpdate (first : Bool) (acc : W32) (c : Num × BitVec 7) : W32 × BitVec 7 :=
  let old := fp32Val acc
  let sum := if first then c.1 else old.add c.1
  let r := fp32Round sum
  let nv := !first && sum.isNan && !old.isNan && !c.1.isNan
  let ovf := fp32IsInf r && (match sum with
    | .fin _ => true
    | _ => false)
  (r, c.2 ||| flagIf nv flagNv ||| flagIf ovf flagOf)

/-- One update of an INT32 accumulator element, saturating (R65, R117). -/
def accUpdateInt (first : Bool) (acc : W32) (sum : Int) : W32 × BitVec 7 :=
  let v := (if first then 0 else acc.toInt) + sum
  if v > 0x7FFFFFFF then (0x7FFFFFFF#32, flagIov)
  else if v < -0x80000000 then (0x80000000#32, flagIov)
  else (BitVec.ofInt 32 v, 0#7)

/-- The exact integer sum of a granule of INT8 products. -/
def granuleInt (ps : List Product) : Int :=
  ps.foldl (fun acc p => match p.a, p.b with
    | .fin u, .fin v =>
      acc + (if u.neg then -(u.man : Int) else u.man) * (if v.neg then -(v.man : Int) else v.man)
    | _, _ => acc) 0

/-- All updates of one accumulator element, granule by granule in increasing K (R64). -/
def accumulate (int : Bool) (zero : Bool) (acc : W32) (gs : List (List Product × Option Int)) : W32 × BitVec 7 :=
  (gs.foldl (fun (st : W32 × BitVec 7 × Bool) g =>
    let u := if int then accUpdateInt st.2.2 st.1 (granuleInt g.1) else accUpdate st.2.2 st.1 (granule g.1 g.2)
    (u.1, st.2.1 ||| u.2, false)) (acc, 0#7, zero)) |> fun st => (st.1, st.2.1)

/-- The block scales of one operand for a lane: the exponent of block b, none if it is NaN (R144). -/
def Tile.blockScale (x : Tile) (r : OpRec) (b p l lane : Nat) : Option Int :=
  e8m0 ((x.sram.get 0#8 (r.scaleBase + b * r.scaleStride + p * l + lane)).toNat)

/-- The operands of problem p, band b: the rows of A and of B, and for a sparse B the index rows (R144, R145, R147). -/
def Tile.aRows (x : Tile) (r : OpRec) (f : Fmt) (p k0 kn m : Nat) : List (List Nat) :=
  (List.range kn).map fun k => x.rowElems f (r.base + p * r.pstride + (k0 + k) * r.kstride) m

/-- The index nibble of group g and a lane (R80, R144). -/
def Tile.indexNibble (x : Tile) (r : OpRec) (g p l lane : Nat) : Nat :=
  let n := p * l + lane
  bitsOf ((x.sram.get 0#8 (r.indexBase + g * r.indexStride + n / 2)).toNat) (4 * (n % 2)) 4

/-- The A element index that the kept product j of a lane multiplies: group j / 2, kept value j % 2 (R79, R80). -/
def Tile.keptIndex (x : Tile) (r : OpRec) (p l lane g0 j : Nat) : Nat :=
  4 * (j / 2) + bitsOf (x.indexNibble r (g0 + j / 2) p l lane) (2 * (j % 2)) 2

/-- Cuts a list into runs of n. -/
def chunks {α : Type} (n fuel : Nat) (xs : List α) : List (List α) :=
  match fuel with
  | 0 => []
  | fuel' + 1 => if xs.isEmpty then [] else xs.take n :: chunks n fuel' (xs.drop n)

/-- What an MMA with K nonzero reads and writes: one band of one enabled problem. -/
structure Band where
  p : Nat
  row : Nat
  col : Nat
  k0 : Nat
  kn : Nat
  deriving DecidableEq, Repr

/-- The bands of an MMA (R75, R77). -/
def mmaBands (o : MmaOp) : List Band :=
  let n := shapeBands o.shape
  (enabledProblems o.shape o.pmask).flatMap fun p => (List.range n).map fun b =>
    { p := p, row := problemRow o.shape p + b * shapeM o.shape, col := problemCol o.shape p, k0 := b * (o.k / n),
      kn := o.k / n }

/-- The granules of element (i, j) of a band. -/
def Tile.elemGranules (x : Tile) (o : MmaOp) (c : PairClass) (fa fb : Fmt) (ra rb : OpRec) (bd : Band)
    (as bs : List (List Nat)) (i j : Nat) : List (List Product × Option Int) :=
  let n := if o.sparse then bd.kn / 2 else bd.kn
  let ps := (List.range n).map fun t =>
    let k := if o.sparse then x.keptIndex rb bd.p (shapeN o.shape) j (bd.k0 / 4) t else t
    Product.mk (fa.decode ((as.getD k []).getD i 0)) (fb.decode ((bs.getD t []).getD j 0))
  let gs := chunks (c.products o.sparse) n ps
  gs.zipIdx.map fun g =>
    (g.1, if c.isMx then
        match x.blockScale ra (bd.k0 / 32 + g.2) bd.p (shapeM o.shape) i,
          x.blockScale rb (bd.k0 / 32 + g.2) bd.p (shapeN o.shape) j with
        | some u, some v => some (u + v)
        | _, _ => none
      else some 0)

/-- One band: its rows of the bank updated, with the flags raised. -/
def Tile.runBand (x : Tile) (o : MmaOp) (c : PairClass) (fa fb : Fmt) (ra rb : OpRec) (st : Map W32 × BitVec 7)
    (bd : Band) : Map W32 × BitVec 7 :=
  let as := x.aRows ra fa bd.p bd.k0 bd.kn (shapeM o.shape)
  let kb := if o.sparse then bd.kn / 2 else bd.kn
  let bs := (List.range kb).map fun k =>
    x.rowElems fb (rb.base + bd.p * rb.pstride + ((if o.sparse then bd.k0 / 2 else bd.k0) + k) * rb.kstride) (shapeN o.shape)
  (List.range (shapeM o.shape)).foldl (fun st i =>
    let a := (bd.row + i) * 128 + bd.col
    let us := (List.range (shapeN o.shape)).map fun j =>
      accumulate (c = .int8) o.zero (st.1.get 0#32 (a + j)) (x.elemGranules o c fa fb ra rb bd as bs i j)
    (Map.setRun 0#32 st.1 a (us.map Prod.fst), us.foldl (fun f u => f ||| u.2) st.2)) st

def Tile.bank (x : Tile) (b : Bool) : Bank := if b then x.bank1 else x.bank0
def Tile.setBank (x : Tile) (b : Bool) (v : Bank) : Tile := if b then { x with bank1 := v } else { x with bank0 := v }

/-- The highest byte that an operand with its planes reaches, over the enabled problems. -/
def operandTop (r : OpRec) (f : Fmt) (ps : List Nat) (l rows blocks groups : Nat) (mx sparse : Bool) : Nat :=
  ps.foldl (fun top p =>
    let e := r.base + p * r.pstride + (rows - 1) * r.kstride + rowBytes f l
    let sc := if mx then r.scaleBase + (blocks - 1) * r.scaleStride + p * l + l else 0
    let ix := if sparse then r.indexBase + (groups - 1) * r.indexStride + (p * l + l) / 2 else 0
    max top (max e (max sc ix))) 0

/-- The checks of an MMA at its start (R61, R69, R71, R76, R98, R142, R144). -/
def Tile.mmaCheck (x : Tile) (o : MmaOp) : Option W32 :=
  let recIn := x.within (x.recAddr o.arec) 32 && x.within (x.recAddr o.brec) 32
  let ra := x.opRec o.arec
  let rb := x.opRec o.brec
  let fa := Fmt.ofCode ra.fmt
  let fb := Fmt.ofCode rb.fmt
  let ps := enabledProblems o.shape o.pmask
  let fold := (x.foldRefuses o.shape o.pmask, stBounds)
  if !recIn then some stBounds
  else
    match pairClass fa fb, fa, fb with
    | some c, some a, some b =>
      let int : Bool := c = .int8
      let gran := (if o.sparse then max 4 c.gran else c.gran) * shapeBands o.shape
      let top := max (operandTop ra a ps (shapeM o.shape) o.k (o.k / 32) 0 c.isMx false)
        (operandTop rb b ps (shapeN o.shape) (if o.sparse then o.k / 2 else o.k) (o.k / 32) (o.k / 4) c.isMx o.sparse)
      firstStatus
        [(!ra.rsvZero || !rb.rsvZero, stReserved),
         (!ra.aligned a (shapeM o.shape) || !rb.aligned b (shapeN o.shape), stReserved),
         (!o.zero && (x.bank o.bank).int ≠ int, stReserved),
         (o.k % gran ≠ 0, stLength),
         (o.k ≠ 0 && top > x.sramBytes, stBounds),
         fold]
    | _, _, _ => some stReserved

/-- The effect of an MMA that passed its checks: nothing with K = 0 or no problem enabled (R71, R76). -/
def Tile.mmaRun (x : Tile) (o : MmaOp) : Tile :=
  let ra := x.opRec o.arec
  let rb := x.opRec o.brec
  match Fmt.ofCode ra.fmt, Fmt.ofCode rb.fmt, pairClass (Fmt.ofCode ra.fmt) (Fmt.ofCode rb.fmt) with
  | some fa, some fb, some c =>
    if o.k = 0 || (enabledProblems o.shape o.pmask).isEmpty then x
    else
      let b := x.bank o.bank
      let r := (mmaBands o).foldl (x.runBand o c fa fb ra rb) (b.cells, 0#7)
      (x.setBank o.bank { b with cells := r.1, int := if o.zero then decide (c = .int8) else b.int }).raise r.2
  | _, _, _ => x

/-- The mixing function of R83. -/
def mix32 (h : W32) : W32 :=
  let h := (h ^^^ (h >>> 16)) * 0x85EBCA6B#32
  let h := (h ^^^ (h >>> 13)) * 0xC2B2AE35#32
  h ^^^ (h >>> 16)

/-- The 24-bit draw of an element (R83). -/
def srDraw (seed : W64) (tag : W32) (elem : Nat) : Nat :=
  let a := mix32 (seed.truncate 32 ^^^ tag)
  let b := mix32 (a ^^^ (seed >>> 32).truncate 32 ^^^ BitVec.ofNat 32 elem)
  b.toNat / 256

/-- The rounding of an element under a drain's mode (R120, R129). -/
def drainRound (rm : Nat) (seed : W64) (tag : W32) (elem : Nat) : Round :=
  match rm with
  | 1 => .rtz
  | 2 => .sr (srDraw seed tag elem)
  | _ => .rne

/-- A saturating INT32 sum of band reduction with IOV (R77). -/
def bandAddInt (a b : W32) : W32 × BitVec 7 := accUpdateInt false a b.toInt

/-- The pairwise tree over a list whose length is a power of two (R77). -/
def bandTree (int : Bool) (fuel : Nat) (xs : List W32) : W32 × BitVec 7 :=
  match fuel, xs with
  | 0, _ => (xs.headD 0#32, 0#7)
  | _, [] => (0#32, 0#7)
  | _, [x] => (x, 0#7)
  | fuel' + 1, xs =>
    let ys := (chunks 2 xs.length xs).map fun p =>
      match p with
      | [a, b] => if int then bandAddInt a b else (fp32Add a b, 0#7)
      | p => (p.headD 0#32, 0#7)
    let r := bandTree int fuel' (ys.map Prod.fst)
    (r.1, ys.foldl (fun f y => f ||| y.2) r.2)

/-- Row r of a drain after any band reduction, with the IOV that the reduction raised (R72, R77). -/
def drainRow (b : Bank) (shape r : Nat) : Row × BitVec 7 :=
  let n := shapeBands shape
  let m := drainRows shape
  let us := (List.range 128).map fun c =>
    bandTree b.int 3 ((List.range n).map fun k => b.cells.get 0#32 ((r + m * k) * 128 + c))
  (us.map Prod.fst, us.foldl (fun f u => f ||| u.2) 0#7)

/-- One scale entry after an element (R86): infinity gives +infinity, a NaN sets the mask bit. -/
def scaleTrack (st : W32 × Bool) (v : W32) : W32 × Bool :=
  if fp32IsNan v then (st.1, true)
  else if (v &&& 0x7FFFFFFF#32).toNat > st.1.toNat then (v &&& 0x7FFFFFFF#32, st.2) else st

/-- Updates scale entry e by elements (R86). -/
def Tile.track (x : Tile) (e : Nat) (vs : List W32) : Tile :=
  let r := vs.foldl scaleTrack (x.scale.get 0#32 e, x.scaleNan.getLsbD e)
  { x with scale := x.scale.set 0#32 e r.1, scaleNan := if r.2 then x.scaleNan ||| (1#64 <<< e) else x.scaleNan }

/-- A row of elements converted for its destination: packed bytes, scale bytes, flags (R122). -/
def convertRow (f : Fmt) (xs : List (Num × Round)) : List Byte × List Byte × ConvFlags :=
  match f.isMx, f.float with
  | true, some ff =>
    let bs := (chunks 32 xs.length xs).map (mxBlock ff)
    (bytesOfNat (rowBytes f xs.length) (packBits f.width (bs.flatMap fun b => b.2.1)),
      bs.map (fun b => BitVec.ofNat 8 b.1), bs.foldl (fun a b => a.or b.2.2) .none)
  | _, _ =>
    let cs := xs.map fun x => f.convert x.2 x.1
    (bytesOfNat (rowBytes f xs.length) (packBits f.width (cs.map Prod.fst)), [], cs.foldl (fun a c => a.or c.2) .none)

/-- Where element (i, 0) of problem p of a drain goes, and its row of scale bytes (R144). -/
def OpRec.drainAddr (r : OpRec) (p i : Nat) : Nat := r.base + p * r.pstride + i * r.kstride
def OpRec.drainScaleAddr (r : OpRec) (p i l : Nat) : Nat := r.scaleBase + i * r.scaleStride + p * (l / 32)

/-- The problems of a drain with elements in bank row r, with r's place in the problem. -/
def drainParts (o : DrainOp) (r : Nat) : List (Nat × Nat) :=
  (enabledProblems o.shape o.pmask).filterMap fun p =>
    let r0 := problemRow o.shape p
    if r0 ≤ r && r < r0 + shapeM o.shape then some (p, r - r0) else none

/-- Writes one row of a drain to tile SRAM: scale tracking, conversion, flags (R122 steps 2 to 8). `raised` holds the flags
this drain has set before, which it does not set again (R126). -/
def Tile.drainWrite (x : Tile) (o : DrainOp) (rec_ : OpRec) (f : Fmt) (int : Bool) (seed : W64) (raised : BitVec 7)
    (r : Nat) (row : Row) : Tile × BitVec 7 :=
  (drainParts o r).foldl (fun (st : Tile × BitVec 7) pi =>
    let n := shapeN o.shape
    let c0 := problemCol o.shape pi.1
    let vs := (row.drop c0).take n
    let x1 := if o.sen then st.1.track o.sent vs else st.1
    let xs := vs.zipIdx.map fun v =>
      ((if int then Num.fin (Exact.ofInt v.1.toInt) else fp32Val v.1).scale o.ds,
        drainRound o.rm seed o.tag (r * 128 + c0 + v.2))
    let c := convertRow f xs
    let fl := c.2.2.bits &&& ~~~ st.2
    let x2 := x1.store (rec_.drainAddr pi.1 pi.2) c.1
    ((x2.store (rec_.drainScaleAddr pi.1 pi.2 n) c.2.1).raise fl, st.2 ||| fl)) (x, raised)

/-- Destinations by the bank's type (R119). -/
def drainDest (int : Bool) (f : Fmt) : Bool :=
  match f with
  | .fp32 => true
  | .int8 => int
  | .int32 => int
  | _ => !int

/-- Destinations that take stochastic rounding (R85, R120). -/
def srDest (f : Fmt) : Bool :=
  match f with
  | .bf16 => true
  | .fp16 => true
  | .e4m3 => true
  | .e5m2 => true
  | .mxE4m3 => true
  | .mxE5m2 => true
  | _ => false

/-- The drain scale exponents of R121. -/
def drainScaleOk (int : Bool) (f : Fmt) (ds : Int) : Bool :=
  if int then -31 ≤ ds && ds ≤ 0 else if f.isMx then ds = 0 else -127 ≤ ds && ds ≤ 127

/-- The checks of a drain at its start (R85, R87, R98, R119 to R121, R142, R144). -/
def Tile.drainCheck (x : Tile) (o : DrainOp) : Option W32 :=
  let r := x.opRec o.drec
  let int := (x.bank o.bank).int
  let ps := enabledProblems o.shape o.pmask
  let n := shapeN o.shape
  let m := shapeM o.shape
  if !x.within (x.recAddr o.drec) 32 then some stBounds
  else
    match Fmt.ofCode r.fmt with
    | none => some stReserved
    | some f =>
      let top := ps.foldl (fun t p =>
        max t (max (r.drainAddr p (m - 1) + rowBytes f n)
          (if f.isMx then r.drainScaleAddr p (m - 1) n + n / 32 else 0))) 0
      firstStatus
        [(!r.rsvZero || !r.aligned f n, stReserved),
         (!drainDest int f || (o.rm = 2 && !srDest f) || !drainScaleOk int f o.ds || (o.sen && int), stReserved),
         (top > x.sramBytes, stBounds),
         (x.foldRefuses o.shape o.pmask, stBounds)]

/-- Overwrites the destination range of a drain with the undefined bytes of a draw (R92, R136). -/
def Tile.drainUndefined (x : Tile) (o : DrainOp) (rec_ : OpRec) (draw : Nat) : Tile :=
  match Fmt.ofCode rec_.fmt with
  | none => x
  | some f =>
    let n := shapeN o.shape
    (enabledProblems o.shape o.pmask).foldl (fun x p => (List.range (shapeM o.shape)).foldl (fun x i =>
      let at_ := (p * 128 + i) * 1024
      let x1 := x.store (rec_.drainAddr p i) ((List.range (rowBytes f n)).map fun b => Config.freeByte draw (at_ + b))
      if f.isMx then
        x1.store (rec_.drainScaleAddr p i n) ((List.range (n / 32)).map fun b => Config.freeByte draw (at_ + 768 + b))
      else x1) x) x

/-- A drain straight to tile SRAM: every row in order (R72). -/
def Tile.drainRun (x : Tile) (o : DrainOp) (draw : Nat) : Tile :=
  let r := x.opRec o.drec
  let b := x.bank o.bank
  if b.poisoned then x.drainUndefined o r draw
  else
    match Fmt.ofCode r.fmt with
    | none => x
    | some f =>
      ((List.range (drainRows o.shape)).foldl (fun (st : Tile × BitVec 7) i =>
        let row := drainRow b o.shape i
        (st.1.raise row.2).drainWrite o r f b.int x.srSeed st.2 i row.1) (x, 0#7)).1

/-- Fills VDIN from the drain that is still reading, to at most 8 rows waiting (R149). -/
def Tile.fillVdin (fuel : Nat) (x : Tile) : Tile :=
  match fuel with
  | 0 => x
  | fuel' + 1 =>
    if x.vdin.length ≥ 8 then x
    else
      match x.drains.findIdx? fun d => d.read < drainRows d.o.shape with
      | none => x
      | some i =>
        match x.drains[i]? with
        | none => x
        | some d =>
          let row := drainRow (x.bank d.o.bank) d.o.shape d.read
          let y := x.raise row.2
          Tile.fillVdin fuel'
            { y with vdin := y.vdin ++ [row.1], drains := y.drains.set i { d with read := d.read + 1 } }

/-- Starts a drain through the vector engine (R149). -/
def Tile.drainStart (x : Tile) (e : QEntry) (o : DrainOp) : Tile :=
  Tile.fillVdin 8 { x with drains := x.drains ++
    [{ entry := e, o := o, opRec := x.opRec o.drec, int := (x.bank o.bank).int, seed := x.srSeed, read := 0, back := 0,
       raised := 0#7 }] }

/-- A row handed back by VDOUT: written by the oldest drain with a row outstanding (R149). -/
def Tile.vdout (x : Tile) (row : Row) : Tile :=
  match x.drains.findIdx? fun d => d.back < d.read with
  | none => x
  | some i =>
    match x.drains[i]? with
    | none => x
    | some d =>
      match Fmt.ofCode d.opRec.fmt with
      | none => x
      | some f =>
        let r := x.drainWrite d.o d.opRec f d.int d.seed d.raised d.back row
        { r.1 with drains := r.1.drains.set i { d with back := d.back + 1, raised := r.2 } }

/-- A drain through the vector engine is done when its last row has been returned (R149). -/
def ActiveDrain.done (d : ActiveDrain) : Bool := d.back = drainRows d.o.shape

/-- SCLR: entries first to first + count - 1 (R88, R150). -/
def Tile.clearScale (x : Tile) (first count : Nat) : Tile :=
  { x with scale := x.scale.setRun 0#32 first (List.replicate count 0#32),
           scaleNan := x.scaleNan &&& ~~~ (((BitVec.allOnes 64) >>> (64 - count)) <<< first) }

/-- The 264 B of SSTO (R150). -/
def Tile.scaleImage (x : Tile) : List Byte :=
  (x.scale.getRun 0#32 0 64).flatMap (fun w => bytesOfNat 4 w.toNat) ++ bytesOfNat 8 x.scaleNan.toNat

/-- The checks of SSTO at its start (R150). -/
def Tile.sstoCheck (x : Tile) (a : W64) : Option W32 :=
  firstStatus [(a.toNat % 32 ≠ 0, stReserved), (!x.within a.toNat 264, stBounds)]

/-- R136 step 2: what can only wait is abandoned once nothing else ahead runs; an abandoned drain leaves its destination
undefined. -/
def Tile.settle (x : Tile) (draw : Nat) : Tile :=
  if x.stopped && x.stuck then
    let y := x.drains.foldl (fun y d => y.drainUndefined d.o d.opRec draw) x
    { y with matrixQ := [], vectorQ := [], moveQ := [], running := [], drains := [], vdin := [] }
  else x

end Sys2Proof.Machine
end

