-- ==== Sys2Proof/Machine/Vector.lean ====
section
/-! DEFINITION. The vector engine (R149, R151, R152): lane operations, loads and stores with conversion, reductions, masks. The
lane operations serve the Clapper units too, on their own number of lanes (R326). -/

namespace Sys2Proof.Machine

/-- Rounding by the RM code of a vector word: RNE or RTZ (R152). -/
def vecRound (rm : Nat) : Round := if rm = 1 then .rtz else .rne

/-- One level of the pairwise tree of VRSUM. -/
def sumLevel (xs : List W32) : List W32 :=
  (chunks 2 xs.length xs).map fun p =>
    match p with
    | [a, b] => fp32Add a b
    | p => p.headD 0#32

/-- The fixed pairwise tree of VRSUM over `levels` levels. -/
def sumTree (levels : Nat) (xs : List W32) : W32 :=
  match levels with
  | 0 => xs.headD 0#32
  | n + 1 => sumTree n (sumLevel xs)

/-- VRMAX: the largest lane, NaN if any lane is NaN. -/
def maxLane (xs : List W32) : W32 := (xs.drop 1).foldl fp32Max (xs.headD 0#32)

/-- VCVTFI: FP32 to INT32; SAT where it saturates or meets an infinity or a NaN (R125, R152). -/
def cvtToInt (rm : Nat) (v : W32) : W32 × BitVec 7 :=
  let c := convertInt 32 (vecRound rm) (fp32Val v)
  (BitVec.ofNat 32 c.1, flagIf c.2.sat flagSat)

/-- VCVTIF: INT32 to FP32, to nearest even. -/
def cvtFromInt (v : W32) : W32 := fp32Round (.fin (Exact.ofInt v.toInt))

/-- VCLASS: the lane's class is among those that IMM12[3:0] selects. -/
def laneClass (imm : Nat) (v : W32) : Bool :=
  (bitsOf imm 0 1 = 1 && fp32IsNan v) || (bitsOf imm 1 1 = 1 && fp32IsInf v) || (bitsOf imm 2 1 = 1 && fp32IsZero v)
    || (bitsOf imm 3 1 = 1 && fp32IsSub v)

/-- A mask from the lanes' conditions. -/
def maskOf (n : Nat) (bs : List Bool) : BitVec n := BitVec.ofNat n (bs.foldr (fun b acc => 2 * acc + b.toNat) 0)

/-- The values that an operation writing a vector register gives its lanes; `levels` is log2 of the number of lanes. -/
def laneResult (levels : Nat) (op : VOp) (rm imm : Nat) (sa : W64) (a b c : Row) : Row :=
  match op with
  | .vadd => List.zipWith fp32Add a b
  | .vsub => List.zipWith fp32Sub a b
  | .vmul => List.zipWith fp32Mul a b
  | .vfma => List.zipWith (fun p z => fp32Fma p.1 p.2 z) (List.zip a b) c
  | .vfnma => List.zipWith (fun p z => fp32Fnma p.1 p.2 z) (List.zip a b) c
  | .vmin => List.zipWith fp32Min a b
  | .vmax => List.zipWith fp32Max a b
  | .vabs => a.map fp32Abs
  | .vneg => a.map fp32Negate
  | .vdiv => List.zipWith fp32Div a b
  | .vsqrt => a.map fp32Sqrt
  | .vbcast => List.replicate (2 ^ levels) (sa.truncate 32)
  | .vrsum => sumTree levels a :: List.replicate (2 ^ levels - 1) 0#32
  | .vrmax => maxLane a :: List.replicate (2 ^ levels - 1) 0#32
  | .viadd => List.zipWith (· + ·) a b
  | .visub => List.zipWith (· - ·) a b
  | .vimul => List.zipWith (· * ·) a b
  | .vand => List.zipWith (· &&& ·) a b
  | .vor => List.zipWith (· ||| ·) a b
  | .vxor => List.zipWith (· ^^^ ·) a b
  | .vshl => a.map fun v : W32 => v <<< (imm % 32)
  | .vshr => a.map fun v : W32 => v >>> (imm % 32)
  | .vshra => a.map fun v : W32 => v.sshiftRight (imm % 32)
  | .vcvtif => a.map cvtFromInt
  | .vcvtfi => a.map fun v => (cvtToInt rm v).1
  | .vmov => a
  | .vcmplt => a
  | .vcmpeq => a
  | .vclass => a
  | .vsel => a
  | .vld => a
  | .vst => a

/-- The bits that a mask-writing operation gives its lanes. -/
def laneMask (op : VOp) (imm : Nat) (a b : Row) : List Bool :=
  match op with
  | .vcmplt => List.zipWith fp32Lt a b
  | .vcmpeq => List.zipWith fp32Eq a b
  | _ => a.map (laneClass imm)

/-- Lanes whose mask bit is 0 keep their old value (R151). -/
def maskedRow (n : Nat) (m : BitVec n) (old new : Row) : Row :=
  (List.zip old new).zipIdx.map fun p => if m.getLsbD p.2 then p.1.2 else p.1.1

/-- VSEL: A where the mask bit is 1, B where it is 0. -/
def selectRow (n : Nat) (m : BitVec n) (a b : Row) : Row :=
  (List.zip a b).zipIdx.map fun p => if m.getLsbD p.2 then p.1.1 else p.1.2

/-- The lanes that memory elements of a format load as, with the flags of each (R123, R152). -/
def loadLane (f : Fmt) (scale : Option Int) (bits : Nat) : W32 × ConvFlags :=
  match f with
  | .int8 => (BitVec.ofInt 32 (intOfBits 8 bits), .none)
  | .int32 => (BitVec.ofNat 32 bits, .none)
  | _ =>
    let v := match scale with
      | some s => (f.decode bits).scale s
      | none => Num.nan
    let c := FloatFmt.fp32.convert .rne v
    (BitVec.ofNat 32 c.1, c.2)

/-- The value that VST converts: an INT32 pattern for an integer format, an FP32 value otherwise (R152). -/
def storeValue (f : Fmt) (w : W32) : Num :=
  match f with
  | .int8 => .fin (Exact.ofInt w.toInt)
  | .int32 => .fin (Exact.ofInt w.toInt)
  | _ => fp32Val w

/-- The address of VLD and VST (R152). -/
def VecArgs.addr (a : VecArgs) : Nat := (a.sa + BitVec.ofNat 64 (32 * a.imm)).toNat

/-- True of the operations that write a vector register. -/
def VOp.writesVd (op : VOp) : Bool :=
  match op with
  | .vcmplt => false
  | .vcmpeq => false
  | .vclass => false
  | .vst => false
  | _ => true

/-- True of the operations that write a mask register. -/
def VOp.writesMd (op : VOp) : Bool :=
  match op with
  | .vcmplt => true
  | .vcmpeq => true
  | .vclass => true
  | _ => false

/-- The checks of a vector instruction at its start: VDOUT with no row outstanding (R149), addresses and bounds (R142, R152). -/
def Tile.vecCheck (x : Tile) (op : VOp) (a : VecArgs) : Option W32 :=
  let noRow := op.writesVd && a.vd = 63 && !(x.drains.any fun d => d.back < d.read)
  let mem : Bool := op = .vld || op = .vst
  match Fmt.ofCode a.fmt with
  | none => if mem || noRow then some stReserved else none
  | some f =>
    firstStatus
      [(noRow, stReserved), (mem && a.addr % 32 ≠ 0, stReserved),
       (mem && !x.within a.addr (rowBytes f 128), stBounds),
       (mem && f.isMx && !x.within a.sb.toNat 4, stBounds)]

/-- Reads a source operand: VDIN gives the row taken for this instruction (R149). -/
def Tile.source (x : Tile) (v : Nat) : Row := if v = 62 then x.vdin.headD zeroRow else x.vreg v

/-- VLD: the lanes and the flags of the enabled ones. -/
def Tile.vload (x : Tile) (a : VecArgs) (f : Fmt) : List (W32 × ConvFlags) :=
  let n := natOfBytes (x.load a.addr (rowBytes f 128))
  (List.range 128).map fun l =>
    loadLane f (if f.isMx then e8m0 ((x.sram.get 0#8 (a.sb.toNat + l / 32)).toNat) else some 0) (elemOf f n l)

/-- The flags of the lanes that a mask enables. -/
def laneFlags (m : BitVec 128) (fs : List ConvFlags) : BitVec 7 :=
  fs.zipIdx.foldl (fun acc f => if m.getLsbD f.2 then acc ||| f.1.bits else acc) 0#7

/-- VST: converts the lanes and stores the enabled ones, with block scales for an MX format (R152). -/
def Tile.vstore (x : Tile) (a : VecArgs) (f : Fmt) (row : Row) : Tile :=
  let m := x.mreg a.msk
  let r := vecRound a.rm
  if f.isMx then
    let c := convertRow f (row.map fun w => (storeValue f w, r))
    ((x.store a.addr c.1).store a.sb.toNat c.2.1).raise c.2.2.bits
  else
    let cs := row.map fun w => f.convert r (storeValue f w)
    let w := f.width / 8
    let y := cs.zipIdx.foldl (fun y c =>
      if m.getLsbD c.2 then y.store (a.addr + w * c.2) (bytesOfNat w c.1.1) else y) x
    y.raise (laneFlags m (cs.map Prod.snd))

/-- Writes the result of a vector operation: handed back through VDOUT, or to VD under the mask (R149, R151). -/
def Tile.writeVd (x : Tile) (op : VOp) (a : VecArgs) (row : Row) : Tile :=
  if a.vd = 63 then x.vdout row
  else
    let new : Row := if op = .vsel then row else maskedRow 128 (x.mreg a.msk) (x.vreg a.vd) row
    { x with vregs := x.vregs.set zeroRow a.vd new }

/-- The effect of a vector instruction that passed its checks (R152). -/
def Tile.vecRun (x : Tile) (op : VOp) (a : VecArgs) : Tile :=
  let va := x.source a.va
  let vb := x.source a.vb
  let vc := x.source a.vc
  let y := if a.readsVdin op then Tile.fillVdin 8 { x with vdin := x.vdin.drop 1 } else x
  let m := x.mreg a.msk
  match op, Fmt.ofCode a.fmt with
  | .vst, some f => y.vstore a f vc
  | .vld, some f =>
    let ls := x.vload a f
    (y.writeVd op a (ls.map Prod.fst)).raise (laneFlags m (ls.map Prod.snd))
  | .vsel, _ => y.writeVd op a (selectRow 128 m va vb)
  | .vcvtfi, _ =>
    let ls := va.map (cvtToInt a.rm)
    let fl := ls.zipIdx.foldl (fun acc l => if m.getLsbD l.2 then acc ||| l.1.2 else acc) 0#7
    (y.writeVd op a (ls.map Prod.fst)).raise fl
  | _, _ =>
    if op.writesMd then
      let new := maskOf 128 (laneMask op a.imm va vb)
      y.setMreg a.md ((y.mreg a.md &&& ~~~ m) ||| (new &&& m))
    else y.writeVd op a (laneResult 7 op a.rm a.imm a.sa va vb vc)

end Sys2Proof.Machine
end

