-- ==== Sys2Proof/Machine/Operands.lean ====
section
/-! DEFINITION. The 8 B instruction words of a tile program (R135, R146 to R153): every operand form, and the checks that the
word alone decides (R136). -/

namespace Sys2Proof.Machine

/-- A two-operand scalar operation (R146, OP 0x02 to 0x09). -/
inductive AluOp where
  | add | sub | and | or | xor | shl | shr | mul
  deriving DecidableEq, Repr

/-- A branch condition (R146, OP 0x0F to 0x12). -/
inductive Cond where
  | eq | ne | lt | ltu
  deriving DecidableEq, Repr

/-- A sequencer instruction (R146). -/
inductive SeqOp where
  | nop
  | halt
  | alu (op : AluOp) (sd sa sb : Nat)
  | addi (sd sa : Nat) (imm : W32)
  | li (sd : Nat) (imm : W32)
  | hi (sd : Nat) (imm : W32)
  | ld (sd sa : Nat) (imm : W32)
  | st (sa sb : Nat) (imm : W32)
  | branch (c : Cond) (sa sb : Nat) (imm : W32)
  | jmp (imm : W32)
  | ring (bell : Nat) (scope : Scope) (qmask : BitVec 3) (n : RingN)
  | wait (bell : Nat) (scope : Scope) (treg : Nat)
  | fence (scope : Scope) (qmask : BitVec 3)
  | flags (sd : Nat) (clear : BitVec 7)
  | tally (sd : Nat)
  deriving DecidableEq, Repr

/-- A decoded word: a sequencer instruction, or one for an engine's queue. -/
inductive TileOp where
  | seq (o : SeqOp)
  | eng (e : Engine) (o : EngOp)
  deriving DecidableEq, Repr

/-- The scope of a code (R11). -/
def scopeOf (c : Nat) : Scope :=
  match c with
  | 0 => .tile
  | 1 => .die
  | 2 => .package
  | _ => .system

/-- The code of a scope (R11). -/
def scopeCode (s : Scope) : Nat :=
  match s with
  | .tile => 0
  | .die => 1
  | .package => 2
  | .system => 3

/-- The token fields of a word (R135). -/
def tokOf (n : Nat) : Tok :=
  { wait := if bitsOf n 55 1 = 1 then some (Fin.ofNat 8 (bitsOf n 52 3)) else none,
    signal := if bitsOf n 51 1 = 1 then some (Fin.ofNat 8 (bitsOf n 48 3)) else none }

/-- True if bits [47:0] outside the given fields (low bit, width) are all zero. -/
def onlyFields (n : Nat) (fs : List (Nat × Nat)) : Bool :=
  let kept := fs.foldl (fun acc f => acc + bitsOf n f.1 f.2 * 2 ^ f.1) 0
  kept = n % 2 ^ 48

/-- A decoded form, or the status that refuses the word: every reserved bit outside the fields used must be zero. -/
def form (n : Nat) (fs : List (Nat × Nat)) (o : TileOp) : Except W32 TileOp :=
  if onlyFields n fs then .ok o else .error stReserved

/-- The sequencer words of R146, R160 to R162. -/
def decodeSeq (n op : Nat) : Except W32 TileOp :=
  let sd := bitsOf n 0 5
  let sa := bitsOf n 5 5
  let sb := bitsOf n 10 5
  let imm : W32 := BitVec.ofNat 32 (bitsOf n 15 32)
  let d := (0, 5)
  let a := (5, 5)
  let b := (10, 5)
  let i := (15, 32)
  match op with
  | 0x00 => form n [] (.seq .nop)
  | 0x01 => form n [] (.seq .halt)
  | 0x02 => form n [d, a, b] (.seq (.alu .add sd sa sb))
  | 0x03 => form n [d, a, b] (.seq (.alu .sub sd sa sb))
  | 0x04 => form n [d, a, b] (.seq (.alu .and sd sa sb))
  | 0x05 => form n [d, a, b] (.seq (.alu .or sd sa sb))
  | 0x06 => form n [d, a, b] (.seq (.alu .xor sd sa sb))
  | 0x07 => form n [d, a, b] (.seq (.alu .shl sd sa sb))
  | 0x08 => form n [d, a, b] (.seq (.alu .shr sd sa sb))
  | 0x09 => form n [d, a, b] (.seq (.alu .mul sd sa sb))
  | 0x0A => form n [d, a, i] (.seq (.addi sd sa imm))
  | 0x0B => form n [d, i] (.seq (.li sd imm))
  | 0x0C => form n [d, i] (.seq (.hi sd imm))
  | 0x0D => form n [d, a, i] (.seq (.ld sd sa imm))
  | 0x0E => form n [a, b, i] (.seq (.st sa sb imm))
  | 0x0F => form n [a, b, i] (.seq (.branch .eq sa sb imm))
  | 0x10 => form n [a, b, i] (.seq (.branch .ne sa sb imm))
  | 0x11 => form n [a, b, i] (.seq (.branch .lt sa sb imm))
  | 0x12 => form n [a, b, i] (.seq (.branch .ltu sa sb imm))
  | 0x13 => form n [i] (.seq (.jmp imm))
  | 0x14 =>
    let ring := fun (v : RingN) =>
      TileOp.seq (.ring (bitsOf n 0 12) (scopeOf (bitsOf n 12 2)) (BitVec.ofNat 3 (bitsOf n 14 3)) v)
    if bitsOf n 17 1 = 0 then form n [(0, 34)] (ring (.imm (BitVec.ofNat 16 (bitsOf n 18 16))))
    else form n [(0, 23)] (ring (.reg (Fin.ofNat 32 (bitsOf n 18 5))))
  | 0x15 => form n [(0, 19)] (.seq (.wait (bitsOf n 0 12) (scopeOf (bitsOf n 12 2)) (bitsOf n 14 5)))
  | 0x16 => form n [(0, 5)] (.seq (.fence (scopeOf (bitsOf n 0 2)) (BitVec.ofNat 3 (bitsOf n 2 3))))
  | 0x17 => form n [d, (15, 7)] (.seq (.flags sd (BitVec.ofNat 7 (bitsOf n 15 7))))
  | 0x18 => form n [d] (.seq (.tally sd))
  | _ => .error stReserved

/-- An engine word with the further reasons that the word alone refuses it (R17 picks the first). -/
def engForm (n : Nat) (fs : List (Nat × Nat)) (errs : List (Bool × W32)) (e : Engine) (o : EngOp) : Except W32 TileOp :=
  match firstStatus ((!onlyFields n fs, stReserved) :: errs) with
  | some st => .error st
  | none => .ok (.eng e o)

/-- The matrix words of R147, R148 and R150; scalar operands are read now (R134). -/
def decodeMatrix (sreg : Nat → W64) (n op : Nat) : Except W32 TileOp :=
  match op with
  | 0x00 =>
    let o : MmaOp :=
      { k := bitsOf n 0 10, shape := bitsOf n 10 3, pmask := bitsOf n 13 4, bank := bitsOf n 17 1 = 1,
        zero := bitsOf n 18 1 = 1, sparse := bitsOf n 19 1 = 1, arec := bitsOf n 20 8, brec := bitsOf n 28 8 }
    engForm n [(0, 36)]
      [(shapeMaskBad o.shape o.pmask, stReserved), (o.sparse && shapeBands o.shape ≠ 1, stReserved), (o.k > 512, stLength)]
      .matrix (.mma o)
  | 0x01 =>
    let o : DrainOp :=
      { bank := bitsOf n 0 1 = 1, shape := bitsOf n 1 3, pmask := bitsOf n 4 4, rm := bitsOf n 8 2,
        ds := intOfBits 8 (bitsOf n 10 8), sen := bitsOf n 18 1 = 1, sent := bitsOf n 19 6,
        viaVector := bitsOf n 25 2 = 1, drec := bitsOf n 27 8, tag := (sreg (bitsOf n 35 5)).truncate 32 }
    engForm n [(0, 40)]
      [(shapeMaskBad o.shape o.pmask, stReserved), (o.rm = 3, stReserved), (o.ds = -128, stReserved),
       (bitsOf n 25 2 ≥ 2, stReserved)]
      .matrix (.drain o)
  | 0x02 =>
    let first := bitsOf n 0 6
    let count := bitsOf n 6 7
    engForm n [(0, 13)] [(count = 127, stLength), (first + count > 64, stBounds)] .matrix (.sclr first count)
  | 0x03 => engForm n [(0, 5)] [] .matrix (.ssto (sreg (bitsOf n 0 5)))
  | 0x04 => engForm n [(0, 5)] [] .matrix (.seed (sreg (bitsOf n 0 5)))
  | _ => .error stReserved

/-- The vector operation of an OP code (R152). -/
def VOp.ofCode (c : Nat) : Option VOp :=
  [VOp.vadd, .vsub, .vmul, .vfma, .vfnma, .vmin, .vmax, .vabs, .vneg, .vdiv, .vsqrt, .vcmplt, .vcmpeq, .vclass, .vsel,
    .vbcast, .vld, .vst, .vrsum, .vrmax, .viadd, .visub, .vimul, .vand, .vor, .vxor, .vshl, .vshr, .vshra, .vcvtif, .vcvtfi,
    .vmov][c]?

/-- The vector sources that an operation uses: VA, VB, VC (R152). -/
def VOp.sources (op : VOp) : Bool × Bool × Bool :=
  match op with
  | .vadd => (true, true, false)
  | .vsub => (true, true, false)
  | .vmul => (true, true, false)
  | .vfma => (true, true, true)
  | .vfnma => (true, true, true)
  | .vmin => (true, true, false)
  | .vmax => (true, true, false)
  | .vabs => (true, false, false)
  | .vneg => (true, false, false)
  | .vdiv => (true, true, false)
  | .vsqrt => (true, false, false)
  | .vcmplt => (true, true, false)
  | .vcmpeq => (true, true, false)
  | .vclass => (true, false, false)
  | .vsel => (true, true, false)
  | .vbcast => (false, false, false)
  | .vld => (false, false, false)
  | .vst => (false, false, true)
  | .vrsum => (true, false, false)
  | .vrmax => (true, false, false)
  | .viadd => (true, true, false)
  | .visub => (true, true, false)
  | .vimul => (true, true, false)
  | .vand => (true, true, false)
  | .vor => (true, true, false)
  | .vxor => (true, true, false)
  | .vshl => (true, false, false)
  | .vshr => (true, false, false)
  | .vshra => (true, false, false)
  | .vcvtif => (true, false, false)
  | .vcvtfi => (true, false, false)
  | .vmov => (true, false, false)

/-- The bits of IMM12 that an operation uses: how many from bit 0 (R152). -/
def VOp.immBits (op : VOp) : Nat :=
  match op with
  | .vclass => 4
  | .vshl => 5
  | .vshr => 5
  | .vshra => 5
  | .vld => 12
  | .vst => 12
  | _ => 0

/-- True of the operations whose VA names a scalar register (R152). -/
def VOp.scalarVa (op : VOp) : Bool :=
  match op with
  | .vbcast => true
  | .vld => true
  | .vst => true
  | _ => false

/-- True of VLD and VST, which use FMT. -/
def VOp.usesFmt (op : VOp) : Bool :=
  match op with
  | .vld => true
  | .vst => true
  | _ => false

/-- True of VST and VCVTFI, which use RM. -/
def VOp.usesRm (op : VOp) : Bool :=
  match op with
  | .vst => true
  | .vcvtfi => true
  | _ => false

/-- The words of R151, R152 with the rules of R149 on VDIN and VDOUT. -/
def decodeVector (sreg : Nat → W64) (n opc : Nat) : Except W32 TileOp :=
  match VOp.ofCode opc with
  | none => .error stReserved
  | some op =>
    let vd := bitsOf n 0 6
    let va := bitsOf n 6 6
    let vb := bitsOf n 12 6
    let vc := bitsOf n 18 6
    let msk := bitsOf n 24 3
    let md := bitsOf n 27 3
    let fmt := bitsOf n 30 4
    let rm := bitsOf n 34 2
    let mx := 7 ≤ fmt && fmt ≤ 11
    let src := op.sources
    let vbScalar := op.usesFmt && mx
    let a : VecArgs :=
      { vd := vd, va := va, vb := vb, vc := vc, msk := msk, md := md, fmt := fmt, rm := rm, imm := bitsOf n 36 12,
        sa := if op.scalarVa then sreg va else 0#64, sb := if vbScalar then sreg vb else 0#64 }
    engForm n
      ([(24, 3)] ++ (if op.writesVd then [(0, 6)] else []) ++ (if src.1 then [(6, 6)] else [])
        ++ (if op.scalarVa then [(6, 5)] else []) ++ (if src.2.1 then [(12, 6)] else [])
        ++ (if vbScalar then [(12, 5)] else []) ++ (if src.2.2 then [(18, 6)] else [])
        ++ (if op.writesMd then [(27, 3)] else []) ++ (if op.usesFmt then [(30, 4)] else [])
        ++ (if op.usesRm then [(34, 2)] else []) ++ [(36, op.immBits)])
      [(op.writesMd && md = 0, stReserved), (op.usesFmt && fmt > 11, stReserved), (op.usesRm && rm ≥ 2, stReserved),
       ((src.1 && va = 63) || (src.2.1 && vb = 63) || (src.2.2 && vc = 63), stReserved),
       (op.writesVd && vd = 62, stReserved), (op.writesVd && vd = 63 && msk ≠ 0, stReserved),
       (op = .vst && mx && msk ≠ 0, stReserved)]
      .vector (.vec op a)

/-- MSUB, the one word of the move queue (R153). -/
def decodeMove (sreg : Nat → W64) (n op : Nat) : Except W32 TileOp :=
  match op with
  | 0x00 => engForm n [(0, 5)] [] .move (.msub (sreg (bitsOf n 0 5)))
  | _ => .error stReserved

/-- A whole word: its token fields and its operation, or the status that refuses it at decode (R135, R136). -/
def decodeWord (sreg : Nat → W64) (w : W64) : Except W32 (Tok × TileOp) :=
  let n := w.toNat
  let op := bitsOf n 56 6
  let r := match bitsOf n 62 2 with
    | 0 => decodeSeq n op
    | 1 => decodeMatrix sreg n op
    | 2 => decodeVector sreg n op
    | _ => decodeMove sreg n op
  r.map fun o => (tokOf n, o)

end Sys2Proof.Machine
end

