-- ==== Sys2Proof/Machine/MemState.lean ====
section
/-! DEFINITION. The state of bells and kernels (spec/04), the memory system and the C-die caches (spec/05), translation, faults,
the Tocsin queue, access counters, migration, inbound windows and unmaps (spec/06), and the resident cores (spec/11). -/

namespace Sys2Proof.Machine

/-- A bell (R159, R163, R167). -/
structure Bell where
  count : W64
  compl : W64
  lrel : Byte
  lkind : BitVec 3
  lscope : Scope
  diag : Bool
  sat : Bool
  poison : Bool
  held : Bool
  mismatch : W32
  deriving DecidableEq, Repr

def Bell.reset : Bell :=
  { count := 0#64, compl := BitVec.allOnes 64, lrel := 0#8, lkind := 0#3, lscope := .tile, diag := false, sat := false,
    poison := false, held := false, mismatch := 0#32 }

/-- Where a launch came from: the launch queue, or command `idx` of a stream (R390, R410). -/
inductive LaunchSrc where
  | queue
  | stream (s : StreamId) (idx : Nat)
  deriving DecidableEq, Repr

/-- An admitted kernel and everything it holds (R170 to R176). `draws` lists the units drawn from each pool of R211. -/
structure Kernel where
  tag : W64
  compl : Nat
  ctx : W32
  src : LaunchSrc
  tiles : List TileId
  bells : List Nat
  draws : List (Nat × Nat)
  hostWindow : Bool
  streams : Nat
  terminated : Bool
  clearing : Bool
  deriving DecidableEq, Repr

/-- A ring of descriptors in memory: base, head, tail, log2 of its size, enable (R241, R303, R329, R389). -/
structure Ring where
  base : Nat
  head : Nat
  tail : Nat
  log2 : Nat
  en : Bool
  deriving DecidableEq, Repr

/-- A ring register block after reset: size 2^4, disabled. -/
def Ring.reset : Ring := { base := 0, head := 0, tail := 0, log2 := 4, en := false }

/-- The command processor: kernels, the launch queue with LQ_ERR, the round-robin source pointer (R390, R391), the mark of sealed
mode (R502), and the stream commands that a completion record has ended, with their status words (R410). -/
structure KernS where
  kernels : Map (Option Kernel)
  nextKid : Nat
  lq : Ring
  lqErrCode : W16
  lqNoMatch : Bool
  lqSkip : Bool
  lqErrIndex : Nat
  nextSource : Nat
  sealedMark : Bool
  streamDone : List (StreamId × Nat × W32 × W32)
  deriving DecidableEq, Repr

/-- A physical error pending in a stored codeword, as the outer code meets it (R188). -/
inductive CwErr where
  | none | oneSymbol | uncorrectable
  deriving DecidableEq, Repr

/-- A memory controller (R193). STATE codes are 0 in service, 1 initialising, 2 out of service, 3 returning. -/
structure MemCtrl where
  state : Nat
  dblRefresh : Bool
  halfRate : Bool
  period : Byte
  passes : W16
  ceInner : W64
  ceOuter : W64
  ue : W32
  poisonReads : W32
  lastUe : Nat
  lastUeValid : Bool
  ceThresh : W32
  patrol : Nat
  deriving DecidableEq, Repr

def MemCtrl.reset : MemCtrl :=
  { state := 1, dblRefresh := false, halfRate := false, period := 0x0C#8, passes := 0#16, ceInner := 0#64, ceOuter := 0#64,
    ue := 0#32, poisonReads := 0#32, lastUe := 0, lastUeValid := false, ceThresh := 0x1000#32, patrol := 0 }

/-- A reservation pool in units of 2 MiB (R211, R214). -/
structure Pool where
  size : Nat
  held : Nat
  deriving DecidableEq, Repr

/-- The memory system (R179 to R199, R214). `mem` holds near and deep memory by physical address, `host` the host's memory by
host physical address. An unlisted byte reads 0, but in a quad whose mode has changed: `undef` holds, for each quad and stack
(16 * quad + stack), 0 or one more than the draw whose free bytes the unlisted addresses read as (R183). `poison` marks
codewords, `cwErr` the errors their storage took. -/
structure MemS where
  mem : Map Byte
  undef : Map Nat
  host : Map Byte
  poison : Map Bool
  hostPoison : Map Bool
  cwErr : Map CwErr
  ctrls : Map MemCtrl
  qmode : BitVec 128
  mapGen : W32
  pools : Map Pool
  timedOut : List (Agent × Nat)
  deriving DecidableEq, Repr

/-- A line held by caches of the C-die, which are coherent with each other (R205): its bytes, its dirty mark, a poison mark
for each codeword, the cores whose caches hold it, whether one holds it exclusively, whether the system cache holds it, the
no-reuse hint (R202), and the core that last touched it with an AMO (R210). -/
structure CacheLine where
  data : List Byte
  dirty : Bool
  poison0 : Bool
  poison1 : Bool
  holders : List CoreId
  excl : Bool
  inSystem : Bool
  hint : Bool
  amoBy : Option CoreId
  deriving DecidableEq, Repr

/-- The C-die caches with their sweep (R200 to R203, R214), the contention predictors, most recently used entry first
(R210), and the write-backs to be sent again (R545). -/
structure CacheS where
  lines : Map (Option CacheLine)
  swept : Bool
  sweepStep : Nat
  predictor : Map (List (Nat × Nat))
  retry : List Nat
  deriving DecidableEq, Repr

/-- The RISC-V exceptions a core access may raise (R51, R52, R196, R374). -/
inductive CoreTrap where
  | fetchFault | loadFault | storeFault | loadMisaligned | storeMisaligned
  deriving DecidableEq, Repr

/-- A resident core at its interface with the package (R378, R384 to R387, R391). `value` is what its last load or AMO
returned and `trap` the exception its last access raised; `hpmEvent` and `hpmCount` hold, for the hpm counters 3 to 31, the event
selected and the count (R376, R449). -/
structure Core where
  state : Nat
  ceiling : Bool
  trim : Nat
  ceil : BitVec 12
  stuckCeiling : Bool
  streak : Nat
  pc : W64
  a0 : W64
  value : W64
  trap : Option CoreTrap
  mtimecmp : W64
  stimecmp : W64
  vstimecmp : W64
  htimedelta : W64
  mtip : Bool
  stip : Bool
  vstip : Bool
  crBase : W64
  crLen : W64
  crBusy : Bool
  crStatus : W32
  crCmd : Nat
  hpmEvent : Map Nat
  hpmCount : Map W64
  routeBlocked : Bool
  deriving DecidableEq, Repr

/-- A core after cold reset: held, in CEILING, MTIMECMP all ones (R391); the values the spec does not give are those of
assumption 5. -/
def Core.reset : Core :=
  { state := 0, ceiling := true, trim := 0, ceil := 320#12, stuckCeiling := false, streak := 0, pc := 0#64,
    a0 := 0#64, value := 0#64, trap := none, mtimecmp := BitVec.allOnes 64, stimecmp := BitVec.allOnes 64,
    vstimecmp := BitVec.allOnes 64, htimedelta := 0#64, mtip := false, stip := false, vstip := false, crBase := 0#64,
    crLen := 0#64, crBusy := false, crStatus := 0#32, crCmd := 0, hpmEvent := [], hpmCount := [],
    routeBlocked := false }

/-- The cores, the IMSIC pending bits by ((core * 9 + file) * 256 + identity), the routed sources and the host mailbox
registers (R381 to R383, R391). -/
structure CoreS where
  cores : Map Core
  imsic : Map Bool
  routes : Map W64
  routeDrops : W32
  hostMsg : List Byte
  rtMsg : Map Byte
  hostMsgLen : Nat
  rtMsgLen : Nat
  rtMsgOffered : Bool
  deriving DecidableEq, Repr

/-- A cached translation of an IOTLB (R220): die 0 to 3 or 4 for the C-die, the PSCID tag and the process it was read for, the
virtual page and the leaf PTE read. -/
structure TlbEntry where
  die : Nat
  device : Nat
  process : Nat
  pscid : Nat
  vbase : Nat
  size : Nat
  pte : W64
  deriving DecidableEq, Repr

/-- A cached context (R220): the root table address, the number of walk levels and the PSCID. -/
structure CtxEntry where
  die : Nat
  device : Nat
  process : Nat
  pscid : Nat
  root : Nat
  levels : Nat
  deriving DecidableEq, Repr

/-- A translation fault held in a fault register (R227 to R230, R237). -/
structure FaultReg where
  seq : W32
  forward : Bool
  cause : Nat
  write : Bool
  ctx : W32
  locator : W32
  va : W64
  last : W64
  level : Nat
  deriving DecidableEq, Repr

/-- An unmap under way (R246, R247): its ticket is given once phase one is complete. -/
structure Unmap where
  device : Nat
  process : Option Nat
  base : Nat
  len : Nat
  ticket : Option W32
  deriving DecidableEq, Repr

/-- Translation: the registers of R249, the IOTLBs and context caches, the fault registers by FAULT_ID (R237), the unmaps in
order, and by device the kernels that keep its reuse suspended (R226). -/
structure XlatS where
  ddtp : W64
  ioBase : W64
  ioLen : W64
  ioBusy : Bool
  unmapCtx : W64
  unmapBase : W64
  unmapLen : W64
  issued : W32
  drained : W32
  unmaps : List Unmap
  mgen : Map (BitVec 24)
  suspended : Map (List Nat)
  tlb : List TlbEntry
  ctxs : List CtxEntry
  faults : Map (Option FaultReg)
  deriving DecidableEq, Repr

/-- An event record (R236): `src` numbers its source for the holding limits and the order of R234. -/
structure Rec where
  cls : Nat
  type : Nat
  die : Nat
  kind : Nat
  unit : Nat
  seq : W32
  tally : W64
  src : Nat
  payload : List Byte
  deriving DecidableEq, Repr

/-- The Tocsin unit (R232 to R238, R249): the queue's registers, the records held by sources, the records accepted and not yet
posted, the counts of dropped informational records and the latest of them. -/
structure TocsinS where
  base : Nat
  prod : Nat
  cons : Nat
  reserve : Nat
  werr : Bool
  ie : Bool
  en : Bool
  needBase : Bool
  held : List Rec
  accepted : List Rec
  forward : List Rec
  dropAll : W32
  dropHint : W32
  dropCe : W32
  dropScope : W32
  dropInbound : W32
  dropOther : W32
  lastDrop : Option Rec
  markerDue : Bool
  errDrops : Map Nat
  seqs : Map W32
  tallies : Map W64
  tallyFreq : Map W32
  deriving DecidableEq, Repr

/-- An access counter (R239). -/
structure AccCtr where
  valid : Bool
  region : Nat
  count : Nat
  dies : BitVec 5
  wrote : Bool
  deriving DecidableEq, Repr

/-- An advice range of an access-counter unit (R240, R242). -/
structure Advice where
  base : Nat
  len : Nat
  eager : Bool
  deriving DecidableEq, Repr

/-- A migration descriptor that has been executed and awaits its completion (R241, R242). -/
structure MigRun where
  addr : Nat
  status : W32
  ringEn : Bool
  bell : Nat
  n : W16
  deriving DecidableEq, Repr

/-- Access counters of units 0 to 7 (deep) and 8 (host window), by unit * 4096 + set * 16 + way, and the migration engine. -/
structure MigS where
  ctrs : Map AccCtr
  advice : Map (List Advice)
  decay : Nat
  thresh : Nat
  mq : Ring
  cur : Option MigRun
  deriving DecidableEq, Repr

/-- The inbound window table: word j of entry w at 8 * w + j (R243), the staged entry and WIN_STATUS (R244). -/
structure WinS where
  words : Map W64
  stage : Map W64
  err : Bool
  drained : Bool
  last : Byte
  deriving DecidableEq, Repr

/-- The telemetry group's counters of events without a counter of their own, of flam mismatches, and of the dictionary's
failures (R13, R19, R481). -/
structure TeleS where
  discards : W64
  flam : W64
  authFails : W32
  frameDrops : W32
  refusals : W32
  deriving DecidableEq, Repr

end Sys2Proof.Machine
end

