-- ==== Sys2Proof/Machine/CtlState.lean ====
section
/-! DEFINITION. The state of Kettle (spec/13), of the dictionary and its telemetry window (spec/14, spec/15), and of reset,
bring-up and service (spec/16, spec/17). -/

namespace Sys2Proof.Machine

/-! ### Power, rate and heat -/

/-- A tile's rate mode (R427, R445, R446, R451): its fused ceiling in units of 10 Mbeat/s (assumption 4), the trim in mV,
whether it is in CEILING, kept there by a reading out of range, boosted, and the readings above 18 % in a row. -/
structure TilePwr where
  ceil : BitVec 12
  trim : Nat
  ceiling : Bool
  stuck : Bool
  boost : Bool
  streak : Nat
  deriving DecidableEq, Repr

def TilePwr.reset : TilePwr := { ceil := 143#12, trim := 0, ceiling := true, stuck := false, boost := false, streak := 0 }

/-- The ROLL in force on a die (R434, R436): its class and the array beats that remain. -/
structure RollS where
  cls : Nat
  beats : Nat
  deriving DecidableEq, Repr

def RollS.idle : RollS := { cls := 0, beats := 0 }

/-- The current limit of a die's rail (R438): the alert, the limit while it holds, its base in mW and its per cent, and the cycles
since the last alert, up to 250 (1 ms). -/
structure IlimS where
  alert : Bool
  held : Bool
  base : Nat
  pct : Nat
  since : Nat
  deriving DecidableEq, Repr

def IlimS.clear : IlimS := { alert := false, held := false, base := 0, pct := 0, since := 250 }

/-- Kettle (R426 to R448, R451): the settings in effect and the status; the input (10 mV units, W); estimate and budget in W; each
V_A rail and its target in mV; ROLLs in force and waiting; the thermal cap in mW; temperatures by die in 1/8 °C; the current limits
and the dies' estimates of the last cycle; the hot dies; tokens by unit (tile t, 256 + u for Clapper unit u), 64 where not listed. -/
structure KettleS where
  point : Nat
  boostEn : Bool
  frRate : Nat
  frClap : Nat
  frReady : Bool
  shortfall : Bool
  throttle : Bool
  ramp : Bool
  inputBad : Bool
  volt : Nat
  watts : Nat
  est : Nat
  limit : Nat
  rails : Map Nat
  targets : Map Nat
  rolls : Map RollS
  waiting : List W64
  shortfalls : W32
  ilimAlerts : W32
  throttleCycles : W32
  sinceShort : Nat
  cap : Option Nat
  logic : Map W16
  dram : Map W16
  ilim : Map IlimS
  lastEst : Map Nat
  hot : List Nat
  grants : Map Nat
  tiles : Map TilePwr
  deriving DecidableEq, Repr

def KettleS.reset : KettleS :=
  { point := 0, boostEn := false, frRate := 135, frClap := 198, frReady := false, shortfall := false, throttle := false, ramp := false,
    inputBad := false, volt := 0, watts := 0, est := 0, limit := 0x0AF0, rails := [], targets := [], rolls := [], waiting := [],
    shortfalls := 0#32, ilimAlerts := 0#32, throttleCycles := 0#32, sinceShort := 250, cap := none, logic := [], dram := [],
    ilim := [], lastEst := [], hot := [], grants := [], tiles := [] }

/-! ### The dictionary -/

/-- A dictionary entry as commits have left it (R464, R468 to R471): its value, the claims on it by principal, whether it is frozen,
and the commit that produced the value. -/
structure EntryS where
  value : Option (List Byte)
  claims : List (Nat × List Byte)
  frozen : Bool
  csn : W64
  deriving DecidableEq, Repr

def EntryS.empty : EntryS := { value := none, claims := [], frozen := false, csn := 0#64 }

/-- A session (R460, R461): its path (0 segment, 1 CXL mailbox, 2 runtime window, 3 + p port p), its ID and HMAC key, the last SEQ
accepted with the tag and the response of that request, and the authentication failures met. -/
structure SessionS where
  path : Nat
  id : W32
  key : List Byte
  last : W32
  lastTag : List Byte
  lastResp : List Byte
  fails : Nat
  deriving DecidableEq, Repr

/-- The dictionary (R452 to R483): entries by 256 * index + subindex, the commit sequence number and the one last stored, the
sessions, the refusal log, and the runtime window with its registers. -/
structure DictS where
  entries : Map EntryS
  csn : W64
  stored : W64
  sessions : List SessionS
  log : Map (List Byte)
  req : Map Byte
  resp : List Byte
  done : Bool
  busy : Bool
  deriving DecidableEq, Repr

def DictS.reset : DictS :=
  { entries := [], csn := 0#64, stored := 0#64, sessions := [], log := [], req := [], resp := [], done := false, busy := false }

/-- The values of the telemetry window under way (R508): status bits met, Kettle cycles, sums and the lowest limit, input reports. -/
structure WindowS where
  bits : Nat
  cycles : Nat
  est : Nat
  limit : Nat
  reports : Nat
  watts : Nat
  volt : Nat
  logic : Map Int
  dram : Map Int
  deriving DecidableEq, Repr

def WindowS.empty : WindowS :=
  { bits := 0, cycles := 0, est := 0, limit := 0xFFFF, reports := 0, watts := 0, volt := 0, logic := [], dram := [] }

/-- The coarse values of the last complete window (R508), and the commit sequence number current when it closed. -/
structure CoarseS where
  status : W32
  budget : W32
  input : W32
  temps : Map W32
  csn : W64
  deriving DecidableEq, Repr

def CoarseS.reset : CoarseS := { status := 0#32, budget := 0#32, input := 0#32, temps := [], csn := 0#64 }

/-! ### Reset, bring-up and service -/

/-- Reset, bring-up and service (R510 to R524, R529, R534 to R541): the first stage and its inputs (10 mV units), the rails other
than V_B and V_AUX, a thermal trip, the ROM state; ACTION_STATE and the action's value and commit; the units that leave and return;
reintegrations; IMAGE_STAGE, the next chunk expected of each slot, the slot of each pair written since power-on and the chunk being
written; an image under recovery; ALERT_N, RESET_N, the slot strap and NODE_ID; the light source bays. -/
structure SvcS where
  enTied : Bool
  inVolt : Nat
  running : Bool
  railsOn : Bool
  tripped : Bool
  rom : Bool
  phase : Nat
  code : Nat
  result : Nat
  detail : Nat
  action : W64
  actionCsn : W64
  leaving : List (ServiceUnit × Bool)
  returning : List ServiceUnit
  reint : Nat
  stage : Map Byte
  nextChunk : Map Nat
  pairSlot : Map (Option Nat)
  writing : Option (Nat × Nat × List Byte)
  romImage : Option (Nat × Nat × List Byte)
  alert : Bool
  resetLow : Bool
  strap : Fin 32
  node : Nat
  baysOut : List (Fin 2)
  deriving DecidableEq, Repr

/-- Before power-on: EN tied, no input yet, the strap at 1, both bays in (assumption 23). -/
def SvcS.reset : SvcS :=
  { enTied := true, inVolt := 0, running := false, railsOn := false, tripped := false, rom := false, phase := 0, code := 0,
    result := 0, detail := 0, action := 0#64, actionCsn := 0#64, leaving := [], returning := [], reint := 0, stage := [],
    nextChunk := [], pairSlot := [], writing := none, romImage := none, alert := false, resetLow := false, strap := 1, node := 0,
    baysOut := [] }

end Sys2Proof.Machine
end

