-- ==== Sys2Proof/Machine/HostState.lean ====
section
/-! DEFINITION. The state of the host attachment, the command streams, power, the dictionary, custody and service. -/

namespace Sys2Proof.Machine

/-- Where a stream command stands (R412): accepted, its pages translated (COPY), started, or complete with its status. -/
inductive CmdPhase where
  | accepted | translated | started | done
  deriving DecidableEq, Repr

/-- A command accepted by a stream (R404, R407 to R413): its number within the stream, the fields of its head slot, the data of
its continuation slots; the physical pieces of a COPY with the pages that they lie in; the kernels that a TERMINATE awaits. -/
structure StreamCmd where
  uid : Nat
  seq : W16
  op : Nat
  cmpl : Bool
  irq : Bool
  fence : Bool
  len : Nat
  operand : W64
  body : List Byte
  chain : List Byte
  phase : CmdPhase
  status : W32
  ext : W32
  srcPs : List (Nat × Nat)
  dstPs : List (Nat × Nat)
  pages : List (Nat × Nat)
  revoked : Bool
  kids : List Nat
  deriving DecidableEq, Repr

/-- A command stream (R401 to R406, R413). STATE codes: 0 CLOSED, 1 OPEN, 2 STALLED, 3 CLOSING, 4 LOST. `tail` is the pending
tail, `cqTail` counts modulo twice the ring, which gives the phase; `seen` counts the slots of the next command that have been
read, and `waits` lists those found not ready, each with its re-reads. -/
structure StreamS where
  sqBase : Nat
  cqBase : Nat
  evec : Nat
  cvec : Nat
  clog2 : Nat
  slog2 : Nat
  ctx : W32
  sqHead : Nat
  cqTail : Nat
  cqHead : Nat
  status : W32
  level : Nat
  state : Nat
  tail : Nat
  counter : W64
  nextUid : Nat
  seen : Nat
  waits : List (Nat × Nat)
  cmds : List StreamCmd
  deriving DecidableEq, Repr

def StreamS.reset : StreamS :=
  { sqBase := 0, cqBase := 0, evec := 0, cvec := 0, clog2 := 4, slog2 := 6, ctx := 0#32, sqHead := 0, cqTail := 0, cqHead := 0,
    status := 0#32, level := 0, state := 0, tail := 0, counter := 0#64, nextUid := 0, seen := 0, waits := [],
    cmds := [] }

/-- The MSI-X table of R396, word j of entry v at 4 * v + j, its mask and pending bits, the function's enable, and the messages
sent by vector (R419). -/
structure MsixS where
  on : Bool
  words : Map W32
  mask : Map Bool
  pba : Map Bool
  sent : Map Nat
  deriving DecidableEq, Repr

def MsixS.reset : MsixS := { on := false, words := [], mask := [], pba := [], sent := [] }

/-- The host attachment (R392 to R425): HOST_STATE, where STATE is 0 down, 1 up, 2 recovering, 3 lost; the forward queue; the
aperture; the HDM decoders; the log, its entries by index; MSI-X; the IDE key set; the streams. -/
structure CxlS where
  state : Nat
  losses : Nat
  lanes : Nat
  gts : Nat
  sealedBit : Bool
  fqBase : Nat
  fqProd : Nat
  fqCons : Nat
  fqWerr : Bool
  fqEn : Bool
  p2pDrops : W32
  logs : Map (List Byte)
  logTotal : Nat
  hdmMap : Map W64
  hdm : Map (Option HdmReq)
  hdmErr : Map Bool
  region : Map W64
  msix : MsixS
  ideKey : List Byte
  ideOn : Bool
  streams : Map StreamS
  deriving DecidableEq, Repr

/-! ### Custody (spec/15) -/

/-- An owner configuration in use (R494). -/
structure OwnerConfig where
  version : Nat
  allowHostLaunch : Bool
  requireEnc : Bool
  digests : List (List Byte)
  switchRoot : List Byte
  peerOwner : List Byte
  bytes : List Byte
  deriving DecidableEq, Repr

/-- A secure session of SPDM (R496, R499): its ID, its export master secret, whether both ends authenticated, and how often its
keys were updated. -/
structure SpdmSes where
  id : W32
  secret : List Byte
  bothSides : Bool
  updates : Nat
  deriving DecidableEq, Repr

/-- SPDM on one carrier (R496 to R499): how far negotiation has come (1 version, 2 capabilities, 3 algorithms), the handshake begun
by KEY_EXCHANGE, the open sessions, the newest first, and the number of sessions begun. -/
structure SpdmS where
  level : Nat
  handshake : Option SpdmSes
  sessions : List SpdmSes
  begun : Nat
  deriving DecidableEq, Repr

def SpdmS.reset : SpdmS := { level := 0, handshake := none, sessions := [], begun := 0 }

/-- Custody: OWNER_KEY, sealed mode in effect until cold reset (R500), its entry under way (R501), the configuration in use and the
highest VERSION stored, the rollback level, the booted firmware, the measurements, the runtime's verification and entry address
(R492), debug (R504), SPDM by carrier (0 DOE, 1 segment, 2 + p port p), and the boot store by 2^32 * slot + offset (R491). The value
of SEALED is the dictionary's. -/
structure CustS where
  ownerKey : List Byte
  latched : Bool
  entering : Bool
  config : Option OwnerConfig
  topVersion : Nat
  rollback : Nat
  svn : Nat
  romMeas : List Byte
  fwMeas : List Byte
  runtimeMeas : List Byte
  verified : Bool
  entry : Nat
  debug : BitVec 3
  spdm : Map SpdmS
  store : Map Byte
  deriving DecidableEq, Repr

/-- Sealed mode is in effect (R500). -/
def CustS.sealed (c : CustS) : Bool := c.latched

end Sys2Proof.Machine
end

