-- ==== Sys2Proof/Machine/NetState.lean ====
section
/-! DEFINITION. The state of the Carillon fabric with its Peal slots (spec/08), the update path: Clapper units, jobs and the
Cadence engine (spec/09), and the Hoop links (spec/10). -/

namespace Sys2Proof.Machine

/-! ### Carillon ports -/

/-- What a port sends: a message, or a control flit with its code of R281 and argument. -/
inductive TxItem where
  | msg (m : Msg)
  | ctrl (code : Nat) (arg : Nat)
  deriving DecidableEq, Repr

/-- An unacknowledged item in the retry buffer: its first FSEQ and its number of flits (R278). -/
structure TxRec where
  first : BitVec 12
  flits : Nat
  item : TxItem
  deriving DecidableEq, Repr

/-- The link layer of a port (R278, R279): the next FSEQ to send and the last acknowledged, the next FSEQ expected and whether a
replay of it is awaited, the last flit replayed and how often, the credits spent on each channel, the retry buffer and the
items waiting for credit. -/
structure LinkLayer where
  txNext : BitVec 12
  acked : BitVec 12
  rxNext : BitVec 12
  awaited : Bool
  replayed : BitVec 12
  replays : Nat
  spent : Map Nat
  sent : List TxRec
  queue : List TxItem
  deriving DecidableEq, Repr

/-- A link at step 3 of R284: FSEQ from 0, credits as R279. -/
def LinkLayer.fresh : LinkLayer :=
  { txNext := 0#12, acked := 0xFFF#12, rxNext := 0#12, awaited := false, replayed := 0#12, replays := 0, spent := [], sent := [],
    queue := [] }

/-- An entry of a port's violation table, the most recently counted first (R310). -/
structure Viol where
  src : Nat
  count : Nat
  quarantined : Bool
  deriving DecidableEq, Repr

/-- A quarantined source (R311, R315). -/
structure QEnt where
  src : Nat
  count : Nat
  deriving DecidableEq, Repr

/-- A Carillon port (R279 to R285, R308 to R311, R315). STATE codes: 0 disabled, 1 training, 2 neighbour mismatch, 3 up, 4 down in
hold-off; `step` is the bring-up step of R284 reached. WIDTH codes: 0 none, 1 lanes 0-7, 2 lanes 8-15, 3 full. -/
structure Port where
  en : Bool
  encReq : Bool
  wreq : Nat
  state : Nat
  step : Nat
  lanes : W16
  peer : Option Caps
  width : Nat
  enc : Bool
  attested : Bool
  link : LinkLayer
  widthSent : Option (Fin 2)
  widthGot : Option (Fin 2)
  retrains : Nat
  retries : W64
  fecUncorr : W64
  authFail : W32
  violations : W32
  downs : W32
  txKey : Nat
  rxKey : Nat
  rxNewKey : Nat
  txCount : W64
  rxCount : W64
  table : List Viol
  qent : Map (Option QEnt)
  coordCopy : W64
  waiting : List Msg
  deriving DecidableEq, Repr

def Port.reset : Port :=
  { en := true, encReq := false, wreq := 0, state := 0, step := 1, lanes := 0#16, peer := none, width := 0, enc := false,
    attested := false, link := LinkLayer.fresh, widthSent := none, widthGot := none, retrains := 0, retries := 0#64,
    fecUncorr := 0#64, authFail := 0#32, violations := 0#32, downs := 0#32, txKey := 0, rxKey := 0, rxNewKey := 0,
    txCount := 0#64, rxCount := 0#64, table := [], qent := [], coordCopy := 0#64, waiting := [] }

/-- A tracker slot (R301): the transfer it serves, the kind of its request (0 PUT, 1 GET, 2 RING), its place in the transfer. -/
structure Tracker where
  busy : Bool
  cooling : Bool
  epoch : BitVec 2
  tile : TileId
  idx : Nat
  kind : Nat
  offset : Nat
  len : Nat
  row : Nat
  col : Nat
  deriving DecidableEq, Repr

def Tracker.reset : Tracker :=
  { busy := false, cooling := false, epoch := 0#2, tile := 0, idx := 0, kind := 0, offset := 0, len := 0, row := 0, col := 0 }

/-- A request message that a remote transfer still has to send, with its row and its offset within it (R298). -/
structure Pending where
  kind : Nat
  offset : Nat
  len : Nat
  row : Nat
  col : Nat
  payload : List Byte
  deriving DecidableEq, Repr

/-- A PUT or GET under way (R300): the descriptor by tile and index, the messages not yet sent, how many await an answer, the
NACK of lowest offset, and what has been met. -/
structure Xfer where
  tile : TileId
  idx : Nat
  d : MoveDesc
  vbase : Nat
  pbase : Nat
  todo : List Pending
  out : Nat
  nack : Option (Nat × Nat)
  timedOut : Bool
  failed : Option W32
  ringDue : Bool
  deriving DecidableEq, Repr

/-! ### Peal slots -/

/-- The fields of a Peal descriptor (R303). OP codes 0 RS, 1 AG, 2 AR; DIR codes 0 POS, 1 NEG, 2 BOTH. -/
structure PealDesc where
  op : Nat
  dir : Nat
  inFmt : Nat
  outFmt : Nat
  toClapper : Bool
  startEn : Bool
  doneEn : Bool
  src : Nat
  out : Nat
  count : Nat
  ctx : W32
  opid : Nat
  startBell : Nat
  doneBell : Nat
  startT : Nat
  deriving DecidableEq, Repr

/-- Where a Peal descriptor stands: waiting to bind to a job, to be started, running, or ended with its status. -/
inductive PealPhase where
  | binding | starting | running | ended
  deriving DecidableEq, Repr

/-- A Peal descriptor in its slot (R304 to R306, R319 to R321): the elements received of each chunk in the reduce-scatter and in
the all-gather, the step data that a fault holds back, the owned sums for a Clapper job, the lots handed over, the job, and the
lot whose anchor its fault register names (R318). -/
structure PealRun where
  addr : Nat
  d : PealDesc
  phase : PealPhase
  status : W32
  rsGot : Map Nat
  agGot : Map Nat
  held : List (Msg × Bool)
  sums : Map (Option W32)
  handed : Map Bool
  job : Option JobSlot
  lotFault : Option Nat
  deriving DecidableEq, Repr

structure PealS where
  ring : Ring
  run : Option PealRun
  deriving DecidableEq, Repr

def PealS.reset : PealS := { ring := Ring.reset, run := none }

/-! ### The update path -/

/-- The fields of an update job descriptor (R330). -/
structure JobDesc where
  gsrc : Nat
  doneEn : Bool
  smask : Nat
  swmask : Nat
  n : Nat
  step : W64
  prog : Nat
  plen : Nat
  opid : Nat
  ctx : W32
  sfmt : Nat
  done : Nat
  pro : Nat
  sbase : List Nat
  deriving DecidableEq, Repr

/-- An active update job (R329 to R336): the image loaded, the job counter, the lots handed over or dispatched, those done, the
failed lot of lowest index with its status, the unit of the last lot, and the Peal slot bound to it. -/
structure Job where
  addr : Nat
  d : JobDesc
  consts : List W32
  words : List W64
  counter : W64
  next : Nat
  doneLots : Nat
  failed : Option (Nat × W32)
  lastUnit : Option Ctrl
  bound : Option PealSlot
  deriving DecidableEq, Repr

/-- A lot in a unit's buffers (R320, R334): its job, its index, and its gradient where it arrived with it. -/
structure Lot where
  job : JobSlot
  lot : Nat
  grad : Option (List W32)
  deriving DecidableEq, Repr

/-- The lot that a unit runs (R334): its stream data as read, the place in the program, by stream the elements that the body has
stored in each lane, and the number of streams already dealt with in stage 3. -/
structure LotRun where
  lot : Lot
  data : Map Row
  pc : Nat
  stores : Map (List (Option Nat))
  written : Nat
  deriving DecidableEq, Repr

/-- A Clapper unit (R323, R348): lots run or failed, the job of the last lot, the prologue's and the lot's registers, the
Cadence outputs with their complements and the step they are for, a step whose outputs it has discarded (R343), its buffers, the
lot it runs. -/
structure ClapUnit where
  lots : W32
  lastJob : Option JobSlot
  vregs : Map Row
  mregs : Map (BitVec 256)
  outs : Map W32
  outsC : Map W32
  valid : Option W64
  badStep : Option W64
  buffers : List Lot
  cur : Option LotRun
  deriving DecidableEq, Repr

def ClapUnit.reset : ClapUnit :=
  { lots := 0#32, lastJob := none, vregs := [], mregs := [], outs := [], outsC := [], valid := none, badStep := none,
    buffers := [], cur := none }

/-- What the dispatcher's fault register holds it in: nothing, the acceptance of a job, or the dispatch of a lot. -/
inductive DispWait where
  | none
  | accept
  | lot (j : JobSlot)
  deriving DecidableEq, Repr

/-- The Cadence engine and the dispatcher (R329, R337 to R343, R348). -/
structure CadS where
  step : W64
  stepC : W64
  setVal : W64
  err : Bool
  pend : Bool
  fault : Bool
  valid : Bool
  due : Bool
  out : Map W32
  stage : Map W64
  table : Map W64
  next : Option (Map W64)
  uq : Ring
  jobs : Map (Option Job)
  wait : DispWait
  units : Map ClapUnit
  deriving DecidableEq, Repr

def CadS.reset : CadS :=
  { step := 0#64, stepC := BitVec.allOnes 64, setVal := 0#64, err := false, pend := false, fault := false, valid := false,
    due := false, out := [], stage := [], table := [], next := none, uq := Ring.reset, jobs := [], wait := .none, units := [] }

/-! ### Hoop links -/

/-- One class and direction of a Hoop link (R353, R354): the sender's next SEQ, last acknowledgement, credits spent and last CR
value seen; the receiver's next SEQ to deliver, the packets it holds out of order, buffers freed, and what it owes; the packet
last replayed and how often. -/
structure HoopLane where
  txNext : BitVec 12
  acked : BitVec 12
  spent : Nat
  crSeen : Nat
  rxNext : BitVec 12
  held : List (BitVec 12)
  freed : Nat
  owed : Bool
  replayOwed : Bool
  replaySeq : BitVec 12
  replays : Nat
  deriving DecidableEq, Repr

def HoopLane.fresh : HoopLane :=
  { txNext := 0#12, acked := 0xFFF#12, spent := 0, crSeen := 0, rxNext := 0#12, held := [], freed := 0, owed := false,
    replayOwed := false, replaySeq := 0#12, replays := 0 }

/-- A Hoop link (R350 to R365, R370). STATE codes: 0 down, 1 training, 2 up, 3 fenced; `full` marks a full training. For each
end its own retired groups, and for each group (35 * group + spare) one more than the lane that a spare replaces. -/
structure HoopLink where
  state : Nat
  full : Bool
  cause : Nat
  attempts : Nat
  split : Nat
  reqf : Nat
  reqr : Nat
  trained : Bool
  good : BitVec 512
  retired : BitVec 512
  dmask0 : BitVec 512
  dmask1 : BitVec 512
  crcErr : W64
  replayCount : W64
  retrains : W32
  violations : W32
  sparesUsed : W32
  retired0 : BitVec 512
  retired1 : BitVec 512
  heldOut : BitVec 512
  spares : Map Nat
  lanes : Map HoopLane
  crcFwd : Nat
  crcRev : Nat
  recent : Nat
  deriving DecidableEq, Repr

def HoopLink.reset : HoopLink :=
  { state := 0, full := true, cause := 0, attempts := 0, split := 16, reqf := 4, reqr := 4, trained := false, good := 0#512,
    retired := 0#512, dmask0 := 0#512, dmask1 := 0#512, crcErr := 0#64, replayCount := 0#64, retrains := 0#32,
    violations := 0#32, sparesUsed := 0#32, retired0 := 0#512, retired1 := 0#512, heldOut := 0#512, spares := [], lanes := [],
    crcFwd := 0, crcRev := 0, recent := 0 }

/-! ### The fabric -/

/-- The ports with their trackers by 2048 * port + slot, remote transfers, the coordinate pair and shape (R286, R315), the Peal
slots, the update path, the Hoop links and their route map (R370). -/
structure NetS where
  ports : Map Port
  trackers : Map Tracker
  xfers : List Xfer
  coord : W32
  coordC : W32
  shape : BitVec 19
  frozen : Bool
  coordFault : Bool
  qthresh : Nat
  e2e : W32
  pealMs : W32
  peals : Map PealS
  cad : CadS
  hoops : Map HoopLink
  routeMap : BitVec 20
  deriving DecidableEq, Repr

def NetS.reset : NetS :=
  { ports := [], trackers := [], xfers := [], coord := 0#32, coordC := BitVec.allOnes 32, shape := 0#19, frozen := false,
    coordFault := false, qthresh := 0x20, e2e := 0x7D0#32, pealMs := 0x64#32, peals := [], cad := CadS.reset, hoops := [],
    routeMap := 0#20 }

end Sys2Proof.Machine
end

