-- ==== Sys2Proof/Machine/State.lean ====
section
/-! DEFINITION. The whole state of the block, its reset, and the reasons a command could stop. -/

namespace Sys2Proof.Machine

/-- Reasons for a fault. -/
inductive Fault where
  /-- No meaning raises it: every command of this block has an effect, or is dropped, by the spec's own rules. Safe. -/
  | noCommandFaults
  deriving DecidableEq, Repr

/-- Reasons for a refusal. -/
inductive Refusal where
  /-- A command whose meaning is not written yet; raised by the dispatcher alone, with the command's mnemonic. Safe: nothing
  is claimed of such a command. -/
  | notModelled (mnemonic : String)
  deriving DecidableEq, Repr

/-- What the last command that answers its sender answered: a status or result code and bytes (assumption 9). -/
structure Reply where
  code : W32
  data : List Byte
  deriving DecidableEq, Repr

/-- The state of the package, unit by unit; `reply` holds the last answer, `fresh` numbers the draws of free values, `pending`
holds the commands waiting. -/
structure State where
  tiles : Map Tile
  bells : Map Bell
  kern : KernS
  mem : MemS
  cache : CacheS
  cores : CoreS
  xlat : XlatS
  tocsin : TocsinS
  mig : MigS
  win : WinS
  tele : TeleS
  net : NetS
  cxl : CxlS
  cust : CustS
  kettle : KettleS
  dict : DictS
  window : WindowS
  coarse : CoarseS
  svc : SvcS
  reply : Reply
  fresh : Nat
  pending : List Instr
  deriving DecidableEq, Repr

def KernS.reset : KernS :=
  { kernels := [], nextKid := 0, lq := Ring.reset, lqErrCode := 0#16, lqNoMatch := false, lqSkip := false, lqErrIndex := 0,
    nextSource := 0, sealedMark := false, streamDone := [] }

def MemS.reset : MemS :=
  { mem := [], undef := [], host := [], poison := [], hostPoison := [], cwErr := [], ctrls := [], qmode := 0#128, mapGen := 0#32, pools := [],
    timedOut := [] }

def CacheS.reset : CacheS := { lines := [], swept := false, sweepStep := 0, predictor := [], retry := [] }

def CoreS.reset : CoreS :=
  { cores := [], imsic := [], routes := [], routeDrops := 0#32, hostMsg := [], rtMsg := [], hostMsgLen := 0, rtMsgLen := 0,
    rtMsgOffered := false }

def XlatS.reset : XlatS :=
  { ddtp := 0#64, ioBase := 0#64, ioLen := 0#64, ioBusy := false, unmapCtx := 0#64, unmapBase := 0#64, unmapLen := 0#64,
    issued := 0#32, drained := 0#32, unmaps := [], mgen := [], suspended := [], tlb := [], ctxs := [], faults := [] }

def TocsinS.reset : TocsinS :=
  { base := 0, prod := 0, cons := 0, reserve := 0x100, werr := false, ie := false, en := false, needBase := false, held := [],
    accepted := [], forward := [], dropAll := 0#32, dropHint := 0#32, dropCe := 0#32, dropScope := 0#32, dropInbound := 0#32,
    dropOther := 0#32, lastDrop := none, markerDue := false, errDrops := [], seqs := [], tallies := [], tallyFreq := [] }

def MigS.reset : MigS := { ctrs := [], advice := [], decay := 0x0A, thresh := 0x100, mq := Ring.reset, cur := none }

def WinS.reset : WinS := { words := [], stage := [], err := false, drained := true, last := 0#8 }

def TeleS.reset : TeleS := { discards := 0#64, flam := 0#64, authFails := 0#32, frameDrops := 0#32, refusals := 0#32 }

def CxlS.reset : CxlS :=
  { state := 0, losses := 0, lanes := 0, gts := 0, sealedBit := false, fqBase := 0, fqProd := 0, fqCons := 0, fqWerr := false,
    fqEn := false, p2pDrops := 0#32, logs := [], logTotal := 0, hdmMap := [], hdm := [], hdmErr := [], region := [],
    msix := MsixS.reset, ideKey := [], ideOn := false, streams := [] }

def CustS.reset : CustS :=
  { ownerKey := [], latched := false, entering := false, config := none, topVersion := 0, rollback := 0,
    svn := 0, romMeas := [], fwMeas := [], runtimeMeas := [], verified := false, entry := 0, debug := 0#3, spdm := [], store := [] }

/-- The machine after a cold reset at power-on, before bring-up (R512, R514). -/
def State.reset : State :=
  { tiles := [], bells := [], kern := KernS.reset, mem := MemS.reset, cache := CacheS.reset, cores := CoreS.reset,
    xlat := XlatS.reset, tocsin := TocsinS.reset, mig := MigS.reset, win := WinS.reset, tele := TeleS.reset,
    net := NetS.reset, cxl := CxlS.reset, cust := CustS.reset, kettle := KettleS.reset,
    dict := DictS.reset, window := WindowS.empty, coarse := CoarseS.reset, svc := SvcS.reset, reply := ⟨0#32, []⟩, fresh := 0, pending := [] }

end Sys2Proof.Machine
end

