-- ==== Sys2Proof/Machine/Ops.lean ====
section
/-! DEFINITION. The named operations that the families share: counters, event records (R234 to R237), routed sources (R382,
R383), the address map (R49), the interleave (R180 to R185) and accesses to memory at its home (R186 to R198). -/

namespace Sys2Proof.Machine

/-- A 64-bit counter of the telemetry group saturates (R481). -/
def satInc64 (v : W64) : W64 := if v = BitVec.allOnes 64 then v else v + 1#64
def satInc32 (v : W32) : W32 := if v = BitVec.allOnes 32 then v else v + 1#32

/-- A discarded write, counted in the telemetry group (R19, R481). -/
def TeleS.discard (t : TeleS) : TeleS := { t with discards := satInc64 t.discards }
def State.discard (s : State) : State := { s with tele := s.tele.discard }

/-- A flam mismatch, counted in the telemetry group (R13). -/
def TeleS.mismatch (t : TeleS) : TeleS := { t with flam := satInc64 t.flam }
def State.flamMismatch (s : State) : State := { s with tele := s.tele.mismatch }

/-- A path to the dictionary is lost, and its sessions end (R462). Paths: 0 segment, 1 CXL mailbox, 2 runtime window, 3 + p port p. -/
def DictS.endPath (d : DictS) (path : Nat) : DictS := { d with sessions := d.sessions.filter fun x => x.path ≠ path }

/-- Answers the command's sender. -/
def State.answer (s : State) (code : W32) (data : List Byte) : State := { s with reply := ⟨code, data⟩ }

/-- Applies a change where a condition holds. -/
def State.when (s : State) (c : Bool) (f : State → State) : State := if c then f s else s

/-- A free draw: the state with the draw spent; the draw's number is the old `fresh` (assumption 1). -/
def State.drawn (s : State) : State := { s with fresh := s.fresh + 1 }

def State.tile (s : State) (t : TileId) : Tile := s.tiles.get Tile.reset t.val
def State.bell (s : State) (b : Nat) : Bell := s.bells.get Bell.reset b
def State.core (s : State) (c : CoreId) : Core := s.cores.cores.get Core.reset c.val
def State.kernel (s : State) (k : Nat) : Option Kernel := s.kern.kernels.get none k
def MemS.ctrl (m : MemS) (c : Nat) : MemCtrl := m.ctrls.get MemCtrl.reset c
def MemS.setCtrl (m : MemS) (c : Nat) (v : MemCtrl) : MemS := { m with ctrls := m.ctrls.set MemCtrl.reset c v }

def State.setBell (s : State) (b : Nat) (v : Bell) : State := { s with bells := s.bells.set Bell.reset b v }
def State.setCore (s : State) (c : CoreId) (v : Core) : State :=
  { s with cores := { s.cores with cores := s.cores.cores.set Core.reset c.val v } }
def State.setKernel (s : State) (k : Nat) (v : Option Kernel) : State :=
  { s with kern := { s.kern with kernels := s.kern.kernels.set none k v } }

/-! ### Tally counters and event records -/

/-- The tally of a die (R38); die 4 is the C-die, 5 the Belfry. -/
def TocsinS.tally (q : TocsinS) (die : Nat) : W64 := q.tallies.get 0#64 die

/-- A tally counter has run on before it is read: by a free amount, never back (R38, R41, assumption 2). -/
def TocsinS.tick (q : TocsinS) (draw die : Nat) : TocsinS :=
  { q with tallies := q.tallies.set 0#64 die (q.tally die + BitVec.ofNat 64 (Config.tallyStep draw)) }

/-- The records that the queue holds (R233). -/
def TocsinS.occupancy (q : TocsinS) : Nat := (q.prod + 8190 - q.cons) % 8190

/-- Free entries, accepted records counted; none while the queue is disabled (R233, R235). -/
def TocsinS.free (q : TocsinS) : Nat := if q.en then 4095 - q.occupancy - q.accepted.length else 0

/-- The holding limit of a source for error records (R234): 1 for a tile, 16 for the others. -/
def holdLimit (src : Nat) : Nat := if src / 65536 = 1 then 1 else 16

/-- The number of a source of records: its unit kind (R236) and unit. -/
def srcOf (kind unit : Nat) : Nat := kind * 65536 + unit

/-- The number of a fault register as a source of records (R234, R237). -/
def faultSrc (fid : Nat) : Nat := 0x10000000 + fid

/-- Withdraws the records that a source still holds (R229). -/
def TocsinS.withdraw (q : TocsinS) (src : Nat) : TocsinS :=
  { q with held := q.held.filter (fun r => r.src ≠ src), forward := q.forward.filter fun r => r.src ≠ src }

/-- Fields of a payload: offset from the start of the record, size and value. -/
def payloadOf (fs : List (Nat × Nat × Nat)) : List Byte :=
  bytesOfNat 44 (fs.foldl (fun acc f => acc + f.2.2 % 2 ^ (8 * f.2.1) * 2 ^ (8 * (f.1 - 0x14))) 0)

/-- A dropped informational record is counted in the overflow marker by its type (R234, R238). -/
def TocsinS.drop (q : TocsinS) (r : Rec) : TocsinS :=
  { q with
    dropAll := q.dropAll + 1#32
    dropHint := if r.type = 0x08 then q.dropHint + 1#32 else q.dropHint
    dropCe := if r.type = 0x11 then q.dropCe + 1#32 else q.dropCe
    dropScope := if r.type = 0x20 then q.dropScope + 1#32 else q.dropScope
    dropInbound := if r.type = 0x03 then q.dropInbound + 1#32 else q.dropInbound
    dropOther := if r.type = 0x08 || r.type = 0x11 || r.type = 0x20 || r.type = 0x03 then q.dropOther else q.dropOther + 1#32
    lastDrop := some r
    markerDue := true }

/-- The records of a source that wait for space. -/
def TocsinS.heldOf (q : TocsinS) (src : Nat) : List Rec := q.held.filter fun r => r.src = src

/-- Where an assigned record goes, by its class (R234): accepted, held by its source, dropped, or counted at its source. -/
def TocsinS.enrol (q : TocsinS) (r : Rec) : TocsinS :=
  match r.cls with
  | 0 => if q.free > 0 && (q.heldOf r.src).isEmpty then { q with accepted := q.accepted ++ [r] }
         else { q with held := q.held ++ [r] }
  | 1 =>
    if q.free > 0 && (q.heldOf r.src).isEmpty then { q with accepted := q.accepted ++ [r] }
    else if (q.heldOf r.src).length < holdLimit r.src then { q with held := q.held ++ [r] }
    else { q with errDrops := q.errDrops.set 0 r.src (q.errDrops.get 0 r.src + 1) }
  | _ => if q.free > q.reserve then { q with accepted := q.accepted ++ [r] } else q.drop r

/-- Assigns a record: the die's sequence number and tally (R43). -/
def TocsinS.assign (q : TocsinS) (draw cls type die kind unit src : Nat) (payload : List Byte) : TocsinS × Rec :=
  let q1 := q.tick draw die
  ({ q1 with seqs := q1.seqs.set 0#32 die (q1.seqs.get 0#32 die + 1#32) },
    { cls := cls, type := type, die := die, kind := kind, unit := unit, seq := q1.seqs.get 0#32 die, tally := q1.tally die,
      src := src, payload := payload })

/-- Raises a record of a class and type from a unit. -/
def TocsinS.raise (q : TocsinS) (draw cls type die kind unit src : Nat) (payload : List Byte) : TocsinS :=
  let a := q.assign draw cls type die kind unit src payload
  a.1.enrol a.2

def State.raise (s : State) (cls type die kind unit : Nat) (payload : List Byte) : State :=
  { s with tocsin := s.tocsin.raise s.fresh cls type die kind unit (srcOf kind unit) payload, fresh := s.fresh + 1 }

/-- As `raise`, for a source that shares its unit kind with another (R234, R236). -/
def State.raiseFrom (s : State) (src cls type die kind unit : Nat) (payload : List Byte) : State :=
  { s with tocsin := s.tocsin.raise s.fresh cls type die kind unit src payload, fresh := s.fresh + 1 }

/-- The 64 B of a record (R236). -/
def Rec.bytes (r : Rec) : List Byte :=
  bytesOfNat 4 (1 + 16 * r.cls + 256 * r.type) ++ bytesOfNat 4 r.seq.toNat ++ bytesOfNat 8 r.tally.toNat
    ++ bytesOfNat 4 (r.die + 256 * r.kind + 65536 * r.unit) ++ r.payload

/-- Held records move into the queue while entries are free, in order (R234). -/
def TocsinS.admitHeld (q : TocsinS) (fuel : Nat) : TocsinS :=
  match fuel, q.held with
  | 0, _ => q
  | _, [] => q
  | n + 1, r :: rest => if q.free > 0 then TocsinS.admitHeld { q with held := rest, accepted := q.accepted ++ [r] } n else q

/-! ### Routed sources -/

/-- The key of an identity's pending bit. -/
def imsicKey (core file eiid : Nat) : Nat := (core * 9 + file) * 256 + eiid

/-- An MSI arrives at a file (R383): pending, or not delivered and counted. A core returned to service receives none until a
route names it again. -/
def CoreS.deliver (c : CoreS) (core file eiid : Nat) : CoreS :=
  let k := c.cores.get Core.reset core
  if core < 96 && file < 9 && eiid ≠ 0 && eiid < 256 && k.state = 1 && !k.routeBlocked then
    { c with imsic := c.imsic.set false (imsicKey core file eiid) true }
  else { c with routeDrops := satInc32 c.routeDrops }

/-- An event of a routed source (R382). -/
def CoreS.route (c : CoreS) (source : Nat) : CoreS :=
  let r := (c.routes.get 0#64 source).toNat
  if bitsOf r 63 1 = 1 then c.deliver (bitsOf r 0 7) (bitsOf r 8 4) (bitsOf r 16 8) else c

def State.route (s : State) (source : Nat) : State := { s with cores := s.cores.route source }

/-! ### The address map and the interleave -/

/-- The ranges of R49. -/
inductive Region where
  | near | deep | host | device | absent
  deriving DecidableEq, Repr

/-- The range of a physical address (R49). -/
def regionOf (a : Nat) : Region :=
  if a < 0x008000000000 then .near
  else if a < 0x010000000000 then .deep
  else if a < 0x100000000000 then .absent
  else if a < 0x200000000000 then .host
  else if a < 0x3F0000000000 then .absent
  else if a < 0x400000000000 then .device
  else .absent

/-- True of the ranges that engines reach: near, deep and host memory. -/
def Region.isMem (r : Region) : Bool :=
  match r with
  | .near => true
  | .deep => true
  | .host => true
  | .device => false
  | .absent => false

/-- An access of n bytes by an agent other than a core: the range it lies in, or none where R51, R52 refuse it. -/
def engineRange (a n : Nat) : Option Region :=
  if (regionOf a).isMem && regionOf a = regionOf (a + (n - 1)) then some (regionOf a) else none

/-- The near stack of an address in its quad's mode (R180 to R182). -/
def nearStack (qmode : BitVec 128) (a : Nat) : Nat :=
  let o := a % 2 ^ 30
  if qmode.getLsbD (a / 2 ^ 32) then
    4 * (a / 2 ^ 30 % 4) + (bitsOf o 11 2 ^^^ bitsOf o 13 2 ^^^ bitsOf o 15 2 ^^^ bitsOf o 17 2)
  else bitsOf o 11 4 ^^^ bitsOf o 15 4 ^^^ bitsOf o 19 4 ^^^ bitsOf o 23 4

/-- The deep stack of an address (R185). -/
def deepStack (a : Nat) : Nat :=
  let d := a - 0x008000000000
  bitsOf d 11 3 ^^^ bitsOf d 14 3 ^^^ bitsOf d 17 3 ^^^ bitsOf d 20 3

/-- The controller, 0 to 15 near and 16 to 23 deep, that homes an address. -/
def MemS.homeOf (m : MemS) (a : Nat) : Nat := if regionOf a = .deep then 16 + deepStack a else nearStack m.qmode a

/-- A controller is in service (STATE 0). -/
def MemS.inService (m : MemS) (c : Nat) : Bool := (m.ctrl c).state = 0

/-- The region of an address is served: every stack it depends on is in service (R198, R215). -/
def MemS.serves (m : MemS) (a : Nat) : Bool :=
  if regionOf a = .deep then (List.range 8).all fun k => m.inService (16 + k)
  else if m.qmode.getLsbD (a / 2 ^ 32) then (List.range 4).all fun j => m.inService (4 * (a / 2 ^ 30 % 4) + j)
  else (List.range 16).all m.inService

/-! ### Codewords and accesses at the home -/

/-- What an unlisted byte of near or deep memory reads as: 0, or a free byte where a change of mode has left the quad's
contents undefined and no stack has been initialised since (R183, R194, R216). -/
def MemS.base (m : MemS) (a : Nat) : Byte :=
  match m.undef.get 0 (16 * (a / 2 ^ 32) + nearStack m.qmode a) with
  | 0 => 0#8
  | n + 1 => if regionOf a = .near then Config.freeByte n a else 0#8

/-- Bytes of near or deep memory, as their storage holds them. -/
def MemS.load (m : MemS) (a n : Nat) : List Byte := m.mem.getRunBy m.base a n
def MemS.store (m : MemS) (a : Nat) (bs : List Byte) : MemS := { m with mem := m.mem.setRunBy m.base a bs }

/-- The canonical form of near, deep and host memory. -/
def MemS.wf (m : MemS) : Bool := m.mem.wfBy m.base && m.host.wf 0#8

/-- What an access leaves: the state, its status and the bytes read. -/
structure Resp where
  st : State
  status : W32
  data : List Byte
  deriving DecidableEq, Repr

/-- The die of a controller's records, its unit kind and its unit (R236). -/
def ctrlDie (c : Nat) : Nat := if c < 16 then c / 4 else 4
def ctrlKind (c : Nat) : Nat := if c < 16 then 3 else 4
def ctrlUnit (c : Nat) : Nat := if c < 16 then c else c - 16

/-- A record from a memory controller. -/
def State.raiseCtrl (s : State) (cls type c : Nat) (payload : List Byte) : State :=
  s.raise cls type (ctrlDie c) (ctrlKind c) (ctrlUnit c) payload

/-- A counter crosses a multiple of the threshold (R192). -/
def crosses (old new thresh : Nat) : Bool := thresh ≠ 0 && old / thresh ≠ new / thresh

/-- Adds to a saturating counter. -/
def satAdd64 (v : W64) (n : Nat) : W64 := BitVec.ofNat 64 (min (v.toNat + n) (2 ^ 64 - 1))

/-- A unit leaves service (R519, R525): by action (1), by failure (2), or with its die (3). -/
def State.unitLeft (s : State) (kind unit cause : Nat) : State :=
  s.raise 1 0x51 5 10 0 (payloadOf [(0x18, 2, unit), (0x1A, 1, kind), (0x1B, 1, cause)])

/-- Outer corrections counted, with their threshold record (R188, R192). -/
def State.countOuter (s : State) (c : Nat) : State :=
  let k := s.mem.ctrl c
  let v := satAdd64 k.ceOuter 1
  let s1 := { s with mem := s.mem.setCtrl c { k with ceOuter := v } }
  s1.when (crosses k.ceOuter.toNat v.toNat k.ceThresh.toNat) fun s =>
    s.raiseCtrl 2 0x11 c (payloadOf [(0x18, 8, v.toNat), (0x20, 1, 1)])

/-- Inner corrections collected, with their threshold record (R187, R192). -/
def State.countInner (s : State) (c n : Nat) : State :=
  let k := s.mem.ctrl c
  let v := satAdd64 k.ceInner n
  let s1 := { s with mem := s.mem.setCtrl c { k with ceInner := v } }
  s1.when (crosses k.ceInner.toNat v.toNat k.ceThresh.toNat) fun s =>
    s.raiseCtrl 2 0x11 c (payloadOf [(0x18, 8, v.toNat), (0x20, 1, 0)])

/-- An uncorrectable read: counted, recorded, the codeword poisoned, a memory error record posted (R189, R192). -/
def State.uncorrectable (s : State) (cw c finder : Nat) : State :=
  let k := s.mem.ctrl c
  let m := s.mem.setCtrl c { k with ue := satInc32 k.ue, lastUe := cw * 64, lastUeValid := true }
  State.raiseCtrl { s with mem := { m with poison := m.poison.set false cw true, cwErr := m.cwErr.set CwErr.none cw CwErr.none } }
    1 0x10 c (payloadOf [(0x18, 8, cw * 64), (0x20, 1, 1), (0x21, 1, finder)])

/-- The controller reads one codeword (R188 to R191): true where it is good. A correctable error is corrected, counted and
scrubbed; a poisoned codeword read for a requester is counted. -/
def State.readCodeword (s : State) (cw finder : Nat) (requester : Bool) : State × Bool :=
  let c := s.mem.homeOf (cw * 64)
  if s.mem.poison.get false cw then
    let k := s.mem.ctrl c
    (if requester then { s with mem := s.mem.setCtrl c { k with poisonReads := satInc32 k.poisonReads } } else s, false)
  else
    match s.mem.cwErr.get CwErr.none cw with
    | .none => (s, true)
    | .oneSymbol => (State.countOuter { s with mem := { s.mem with cwErr := s.mem.cwErr.set CwErr.none cw CwErr.none } } c, true)
    | .uncorrectable => (s.uncorrectable cw c finder, false)

/-- Stores bytes of one codeword: a whole codeword clears its poison and stores fresh check bytes; part of one is a
read-modify-write, which fails on a codeword that is poisoned or found uncorrectable (R186, R189). -/
def State.writeCodeword (s : State) (a : Nat) (bs : List Byte) : State × Bool :=
  let cw := a / 64
  if bs.length = 64 then
    ({ s with mem := { s.mem.store a bs with poison := s.mem.poison.set false cw false,
                                             cwErr := s.mem.cwErr.set CwErr.none cw CwErr.none } }, true)
  else if s.mem.poison.get false cw then
    let c := s.mem.homeOf a
    (s.raiseCtrl 1 0x10 c (payloadOf [(0x18, 8, cw * 64), (0x20, 1, 2), (0x21, 1, 0)]), false)
  else
    let r := s.readCodeword cw 0 true
    if r.2 then ({ r.1 with mem := r.1.mem.store a bs }, true) else r

/-- The pieces of an access, cut at codewords: address and length of each. -/
def codewordPieces (a n fuel : Nat) : List (Nat × Nat) :=
  match fuel with
  | 0 => []
  | fuel' + 1 =>
    if n = 0 then []
    else
      let k := min n (64 - a % 64)
      (a, k) :: codewordPieces (a + k) (n - k) fuel'

/-- Reads the codewords of a span in order; false if any failed. -/
def State.readPieces (s : State) (finder : Nat) (ps : List (Nat × Nat)) : State × Bool :=
  ps.foldl (fun st p =>
    let r := st.1.readCodeword (p.1 / 64) finder true
    (r.1, st.2 && r.2)) (s, true)

/-- Writes the codewords of a span in order; false if any failed. -/
def State.writePieces (s : State) (a : Nat) (bs : List Byte) (ps : List (Nat × Nat)) : State × Bool :=
  ps.foldl (fun st p =>
    let r := st.1.writeCodeword p.1 ((bs.drop (p.1 - a)).take p.2)
    (r.1, st.2 && r.2)) (s, true)

/-! ### Access counters (R239, R240) -/

/-- The access-counter unit of an address: the deep controller, 8 for the host window; none for near memory. -/
def MemS.counterUnit (m : MemS) (a : Nat) : Option Nat :=
  match regionOf a with
  | .deep => some (m.homeOf a - 16)
  | .host => some 8
  | _ => none

/-- An empty access counter. -/
def AccCtr.empty : AccCtr := { valid := false, region := 0, count := 0, dies := 0#5, wrote := false }

/-- The key of way w in the set of a region (set = region mod 256, assumption 12). -/
def ctrKey (unit region w : Nat) : Nat := unit * 4096 + region % 256 * 16 + w

/-- The way that a region counts in: its own, else the one with the smallest count, the lowest way among equals (R239). -/
def MigS.wayOf (g : MigS) (unit region : Nat) : Nat :=
  let at_ := fun w => g.ctrs.get AccCtr.empty (ctrKey unit region w)
  match (List.range 16).find? fun w => (at_ w).valid && (at_ w).region = region with
  | some w => w
  | none =>
    let least := (List.range 16).foldl (fun m w => min m (at_ w).count) 0x10000
    ((List.range 16).find? fun w => (at_ w).count = least).getD 0

/-- The advice that covers a region, and the threshold it posts at; none where it posts no hints (R240). -/
def MigS.hintAt (g : MigS) (unit region : Nat) : Option Nat :=
  if g.thresh = 0 then none
  else
    match (g.advice.get [] unit).find? fun r => r.base ≤ region * 65536 && region * 65536 < r.base + r.len with
    | none => some g.thresh
    | some r => if r.eager then some ((g.thresh + 7) / 8) else none

/-- One request accepted at the home of an address, counted in its region (R239), with its hint (R240). -/
def State.countAccess (s : State) (a die : Nat) (write : Bool) : State :=
  match s.mem.counterUnit a with
  | none => s
  | some u =>
    let region := a / 65536
    let w := s.mig.wayOf u region
    let old := s.mig.ctrs.get AccCtr.empty (ctrKey u region w)
    let c := if old.valid && old.region = region then old else { AccCtr.empty with valid := true, region := region }
    let n := min (c.count + 1) 0xFFFF
    let c1 := { c with count := n, dies := c.dies ||| (1#5 <<< die), wrote := c.wrote || write }
    match s.mig.hintAt u region with
    | none => { s with mig := { s.mig with ctrs := s.mig.ctrs.set AccCtr.empty (ctrKey u region w) c1 } }
    | some h =>
      if n ≥ h then
        State.raise { s with mig := { s.mig with ctrs := s.mig.ctrs.set AccCtr.empty (ctrKey u region w) { c1 with count := 0 } } }
          2 0x08 4 (if u = 8 then 9 else 4) (if u = 8 then 0 else u)
          (payloadOf [(0x18, 8, region * 65536), (0x20, 2, n), (0x22, 1, c1.dies.toNat), (0x23, 1, c1.wrote.toNat)])
      else { s with mig := { s.mig with ctrs := s.mig.ctrs.set AccCtr.empty (ctrKey u region w) c1 } }

/-- The first bytes of the lines that a span touches: each is one request at its home. -/
def linesOf (a n fuel : Nat) : List Nat :=
  match fuel with
  | 0 => []
  | fuel' + 1 =>
    if n = 0 then []
    else
      let k := min n (128 - a % 128)
      a :: linesOf (a + k) (n - k) fuel'

def State.countSpan (s : State) (a n die : Nat) (write : Bool) : State :=
  (linesOf a n (n + 1)).foldl (fun s l => s.countAccess l die write) s

/-! ### Accesses by agents without caches (R206) -/

/-- The host answers requests of the host window: the link is up or recovering (R421, R422). -/
def State.hostServes (s : State) : Bool := s.cxl.state = 1 || s.cxl.state = 2

/-- A request to the host window waits while the link recovers (R421). -/
def State.hostWaits (s : State) (a : Nat) : Bool := s.cxl.state = 2 && regionOf a = .host

/-- The host physical address of a host-window address (R50). -/
def hostAddr (a : Nat) : Nat := a - 0x100000000000

/-- The 64 B units of a span of host memory hold poison. -/
def MemS.hostPoisoned (m : MemS) (a n : Nat) : Bool :=
  (codewordPieces a n (n + 1)).any fun p => m.hostPoison.get false (p.1 / 64)

/-- The die that homes an address, 4 the C-die (R24, R204). -/
def MemS.homeDie (m : MemS) (a : Nat) : Nat := if regionOf a = .near then nearStack m.qmode a / 4 else 4

/-- The place of a pair of dies in ROUTE_MAP (R370). -/
def pairIndex (a b : Nat) : Nat :=
  let x := min a b
  let y := max a b
  if y = 4 then 4 + x else if y = x + 2 then 8 + x else if x = 0 && y = 3 then 3 else x

/-- A route carries requests from a die to the home of an address (R365, R366). -/
def State.routed (s : State) (a die : Nat) : Bool :=
  let h := s.mem.homeDie a
  h = die || bitsOf s.net.routeMap.toNat (2 * pairIndex die h) 2 ≠ 3

/-- The home of an address answers requests of a die: a route reaches it, and the region is served. -/
def State.serves (s : State) (a die : Nat) : Bool := s.routed a die && s.mem.serves a

/-- A read at the home (R188, R198, R206, R422), its requests counted or not (R239). `die` is the requester's, 4 for the
C-die. -/
def State.readMemBy (count : Bool) (s : State) (a n die : Nat) : Resp :=
  match engineRange a n with
  | none => ⟨s, stBounds, []⟩
  | some .host =>
    if !s.routed a die then ⟨s, stTierError, []⟩
    else if !s.hostServes then ⟨s, stHostLost, []⟩
    else
      let s1 := s.when count fun s => s.countSpan a n die false
      if s.mem.hostPoisoned (hostAddr a) n then ⟨s1, stTierError, []⟩
      else ⟨s1, stOk, s.mem.host.getRun 0#8 (hostAddr a) n⟩
  | some _ =>
    if !s.serves a die then ⟨s, stTierError, []⟩
    else
      let r := (s.when count fun s => s.countSpan a n die false).readPieces 0 (codewordPieces a n (n + 1))
      if r.2 then ⟨r.1, stOk, s.mem.load a n⟩ else ⟨r.1, stTierError, []⟩

/-- A read at the home, its requests counted. -/
def State.readMem (s : State) (a n die : Nat) : Resp := s.readMemBy true a n die

/-- Host memory after a write by an engine: whole units written are no longer poisoned. -/
def MemS.writeHost (m : MemS) (a : Nat) (bs : List Byte) : MemS :=
  { m with host := m.host.setRun 0#8 a bs,
           hostPoison := (codewordPieces a bs.length (bs.length + 1)).foldl
             (fun p c => if c.2 = 64 then p.set false (c.1 / 64) false else p) m.hostPoison }

/-- A write at the home (R186, R189, R198, R206, R422), its requests counted or not (R239). -/
def State.writeMemBy (count : Bool) (s : State) (a : Nat) (bs : List Byte) (die : Nat) : Resp :=
  match engineRange a bs.length with
  | none => ⟨s, stBounds, []⟩
  | some .host =>
    if !s.routed a die then ⟨s, stTierError, []⟩
    else if !s.hostServes then ⟨s, stHostLost, []⟩
    else
      let s1 := s.when count fun s => s.countSpan a bs.length die true
      ⟨{ s1 with mem := s1.mem.writeHost (hostAddr a) bs }, stOk, []⟩
  | some _ =>
    if !s.serves a die then ⟨s, stTierError, []⟩
    else
      let r := (s.when count fun s => s.countSpan a bs.length die true).writePieces a bs (codewordPieces a bs.length (bs.length + 1))
      ⟨r.1, if r.2 then stOk else stTierError, []⟩

/-- A write at the home, its requests counted. -/
def State.writeMem (s : State) (a : Nat) (bs : List Byte) (die : Nat) : Resp := s.writeMemBy true a bs die

/-- A span left undefined holds the bytes of a draw (assumption 1). -/
def State.undefinedSpan (s : State) (a n : Nat) : State :=
  let bs := (List.range n).map (Config.freeByte s.fresh)
  let s1 := s.drawn
  match engineRange a n with
  | none => s
  | some .host => { s1 with mem := { s1.mem with host := s1.mem.host.setRun 0#8 (hostAddr a) bs } }
  | some _ => { s1 with mem := s1.mem.store a bs }

/-- Bits of a 64-bit word. -/
def w64Bits (v : W64) (lo w : Nat) : Nat := bitsOf v.toNat lo w

/-- The halves of a flam pair agree (R12). -/
def flamOk (v c : W64) : Bool := c = ~~~ v

/-- The little-endian 64-bit word at an offset of bytes read. -/
def w64At (bs : List Byte) (o : Nat) : W64 := BitVec.ofNat 64 (natOfBytes ((bs.drop o).take 8))
def w32At (bs : List Byte) (o : Nat) : W32 := BitVec.ofNat 32 (natOfBytes ((bs.drop o).take 4))
def w16At (bs : List Byte) (o : Nat) : Nat := natOfBytes ((bs.drop o).take 2)
def byteAt (bs : List Byte) (o : Nat) : Nat := (bs.getD o 0#8).toNat

end Sys2Proof.Machine
end

