-- ==== Sys2Proof/Machine/TileOps.lean ====
section
/-! DEFINITION. Tiles within the package: storing a tile back with what its own stop does to the kernel's other tiles (R174), its
fault register (R229), and the end of an engine instruction (R138). -/

namespace Sys2Proof.Machine

/-- The die of a tile (R26). -/
def tileDie (t : TileId) : Nat := t.val / 64

/-- A stop reaches another tile of the kernel: it stops at its next instruction (R174). -/
def markStop (status : W32) (m : Map Tile) (u : TileId) : Map Tile :=
  let x := m.get Tile.reset u.val
  if x.live && !x.stopped && x.stopDue.isNone then m.set Tile.reset u.val { x with stopDue := some status } else m

/-- The tiles of the kernel that holds a tile, without that tile. -/
def State.kernelMates (s : State) (t : TileId) : List TileId :=
  match (s.tile t).kernel.bind s.kernel with
  | none => []
  | some k => k.tiles.filter fun u => u ≠ t

/-- Stores a tile that has not stopped anew. -/
def State.setTile (s : State) (t : TileId) (x : Tile) : State := { s with tiles := s.tiles.set Tile.reset t.val x }

/-- A stopped tile's fault register is emptied, its record withdrawn where it still waits (R229); a descriptor stalled in
the fault completes as a refusal (assumption 17). -/
def Tile.dropFault (x : Tile) : Tile :=
  { x with descs := x.descs.map fun d =>
      if d.phase = .faulted then { d with phase := .failed, status := stUnresolved } else d }

/-- Stores a tile. If it has just stopped, its fault register is emptied (R229), and if it stopped of its own account the
kernel's other tiles are told (R174). -/
def State.putTile (s : State) (t : TileId) (x : Tile) : State :=
  if x.stopped then
    let news := !(s.tile t).stopped
    let mates := if news && x.ownStop then s.kernelMates t else []
    let y := if news then x.dropFault else x
    { s with
      tiles := mates.foldl (markStop x.stop) (s.tiles.set Tile.reset t.val (y.settle s.fresh))
      xlat := if news then { s.xlat with faults := s.xlat.faults.set none t.val none } else s.xlat
      tocsin := if news then s.tocsin.withdraw (faultSrc t.val) else s.tocsin
      fresh := s.fresh + 1 }
  else s.setTile t x

/-- An engine instruction has completed: it leaves the engine and signals its channel (R138). -/
def Tile.complete (x : Tile) (idx : Nat) : Tile :=
  match x.running.find? fun r => r.2.idx = idx with
  | none => x
  | some r =>
    Tile.signal { x with running := x.running.filter fun q => q.2.idx ≠ idx,
                         drains := x.drains.filter fun d => d.entry.idx ≠ idx } r.2.tok r.2.pc r.2.idx

end Sys2Proof.Machine
end

