-- ==== Sys2Proof/Machine/Bells.lean ====
section
/-! DEFINITION. Bells (R159 to R167) and their batches (R259): SET, the RINGs, then the evaluation of every WAIT. -/

namespace Sys2Proof.Machine

/-- The die that homes a bell (R27). -/
def bellDie (b : Nat) : Nat := b / 4096

/-- Every operation on a count checks its flam pair first (R164). -/
def Bell.mismatched (b : Bell) : Bool := !b.poison && b.compl ≠ ~~~ b.count

/-- A record of type 0x21 from the home of a bell, cause 1 saturation or 2 flam mismatch (R164, R237). -/
def State.bellFault (s : State) (b cause : Nat) : State :=
  s.raise 1 0x21 (bellDie b) 11 (bellDie b) (payloadOf [(0x18, 2, b), (0x1A, 1, cause)])

/-- The flam check of a RING or a WAIT: a mismatch sets POISON and posts a record (R164, R13). -/
def State.bellCheck (s : State) (b : Nat) : State :=
  let x := s.bell b
  s.when x.mismatched fun s => ((s.setBell b { x with poison := true }).flamMismatch).bellFault b 2

/-- A bell after a RING of n (R160, R164): saturating, with its release recorded. -/
def Bell.ring (x : Bell) (n : W64) (kind : BitVec 3) (unit : Byte) (scope : Scope) : Bell :=
  let ovf := x.count.toNat + n.toNat ≥ 2 ^ 64
  let c := if ovf then BitVec.allOnes 64 else x.count + n
  { x with count := c, compl := ~~~ c, sat := x.sat || ovf, lrel := unit, lkind := kind, lscope := scope }

/-- A RING reaches the home of a bell. While POISON is set it is dropped and counted; SAT going from 0 to 1 posts a record
(R164). -/
def State.ringBell (s : State) (b : Nat) (n : W64) (kind : BitVec 3) (unit : Byte) (scope : Scope) : State :=
  let s1 := s.bellCheck b
  let x := s1.bell b
  if x.poison then s1.discard
  else
    let y := x.ring n kind unit scope
    (s1.setBell b y).when (y.sat && !x.sat) fun s => s.bellFault b 1

/-- A bell after a SET (R165). -/
def Bell.set (x : Bell) (v : W64) : Bell :=
  { x with count := v, compl := ~~~ v, poison := false, sat := false, mismatch := 0#32, lrel := 0#8, lkind := 0#3, lscope := .tile }

/-- A SET by the runtime: discarded and counted while a kernel holds the bell (R165). -/
def State.setBellCount (s : State) (b : Nat) (v : W64) : State :=
  if (s.bell b).held then s.discard else s.setBell b ((s.bell b).set v)

/-- Where the recorded releaser of a bell sits: its tile if it is one, and its die (4 the C-die); none for a remote one. -/
def Bell.releaser (x : Bell) : Option (Option Nat × Nat) :=
  let u := x.lrel.toNat
  match x.lkind.toNat with
  | 1 => some (some u, u / 64)
  | 2 => some (none, 4)
  | 3 => some (none, if u < 16 then u / 4 else 4)
  | 4 => some (none, u / 8)
  | 5 => none
  | _ => some (none, 4)

/-- The narrower of two scopes. -/
def scopeNarrower (a b : Scope) : Scope := if scopeCode a ≤ scopeCode b then a else b

/-- An agent that acquires: its tile if it is one, its die (4 the C-die), its kind and unit as R167 numbers releasers. -/
structure Acquirer where
  tile : Option Nat
  die : Nat
  kind : Nat
  unit : Nat
  deriving DecidableEq, Repr

/-- A tile as an acquirer. -/
def tileAcquirer (t : TileId) : Acquirer := { tile := some t.val, die := tileDie t, kind := 1, unit := t.val }

/-- The last releaser and an acquirer both lie within the narrower of their scopes (R163, R257). -/
def Bell.covered (x : Bell) (a : Acquirer) (scope : Scope) : Bool :=
  if x.lkind = 0#3 then true
  else
    match scopeNarrower x.lscope scope, x.releaser with
    | .system, _ => true
    | .package, some _ => true
    | .die, some r => r.2 = a.die
    | .tile, some r => r.1.isSome && r.1 = a.tile
    | _, none => false

/-- A wait that takes effect is judged against the last release recorded (R163). -/
def State.judge (s : State) (b : Nat) (a : Acquirer) (scope : Scope) : State :=
  let x := s.bell b
  if x.covered a scope then s
  else
    (s.setBell b { x with mismatch := satInc32 x.mismatch }).when x.diag fun s =>
      s.raise 2 0x20 (bellDie b) 11 (bellDie b)
        (payloadOf [(0x18, 2, b), (0x1A, 1, x.lkind.toNat + 16 * scopeCode x.lscope), (0x1B, 1, x.lrel.toNat),
          (0x1C, 1, a.kind + 16 * scopeCode scope), (0x1D, 1, a.unit)])

/-- A WAIT whose condition is met completes (R138, R161). -/
def Tile.waitDone (x : Tile) (w : WaitRec) : Tile :=
  Tile.signal { x with seq := .running, waiting := none, pc := w.pc + 8 } w.tok w.pc x.appended

/-- The evaluation of a tile's WAIT: a poisoned bell stops its tile; a count at the threshold completes it (R161, R164). -/
def State.evalWait (s : State) (t : TileId) : State :=
  match (s.tile t).waiting with
  | none => s
  | some w =>
    let s1 := s.bellCheck w.bell
    let x := s1.bell w.bell
    if x.poison then s1.putTile t ((s1.tile t).fail stBellFault w.pc (s1.tile t).appended)
    else if w.thresh.toNat ≤ x.count.toNat then
      let s2 := s1.judge w.bell (tileAcquirer t) w.scope
      s2.putTile t ((s2.tile t).waitDone w)
    else s1

/-- A wait by an agent other than a tile, at PACKAGE scope (R306, R411): where the count has reached the threshold it takes
effect and is judged; a poisoned bell gives no count. -/
def State.acquire (s : State) (b : Nat) (thresh : Nat) (a : Acquirer) : State × Bool :=
  let s1 := s.bellCheck b
  let x := s1.bell b
  if !x.poison && thresh ≤ x.count.toNat then (s1.judge b a .package, true) else (s1, false)

/-- The tiles waiting on bells of a die, in the order of their IDs. -/
def State.waiters (s : State) (die : Nat) : List TileId :=
  (List.finRange 256).filter fun t =>
    match (s.tile t).waiting with
    | none => false
    | some w => bellDie w.bell = die

/-- Every WAIT on a die's bells is evaluated (R259). -/
def State.evalWaits (s : State) (die : Nat) : State := (s.waiters die).foldl State.evalWait s

/-- An instruction appended before `upto` to a queue of the mask has not completed (R160, R162). -/
def Tile.covers (x : Tile) (qmask : BitVec 3) (upto : Nat) : Bool :=
  let q := fun (l : List QEntry) => l.any fun e => e.idx < upto
  let r := fun (e : Engine) => x.running.any fun p => p.1 = e && p.2.idx < upto
  (qmask.getLsbD 0 && (q x.matrixQ || r .matrix)) || (qmask.getLsbD 1 && (q x.vectorQ || r .vector))
    || (qmask.getLsbD 2 && (q x.moveQ || r .move || x.descs.any fun d => d.idx < upto))

/-- The first posted RING of a tile, where it may fire (R160). -/
def Tile.dueRing (x : Tile) : Option PostedRing :=
  match x.rings with
  | [] => none
  | r :: _ => if x.live && !x.covers r.qmask r.upto then some r else none

/-- A posted RING fires: its addition at the bell's home, then its signal (R138, R160). -/
def State.fireRing (s : State) (t : TileId) : State :=
  match (s.tile t).dueRing with
  | none => s
  | some r =>
    let s1 := s.ringBell r.bell r.n 1#3 (BitVec.ofNat 8 t.val) r.scope
    let x := s1.tile t
    s1.putTile t (Tile.signal { x with rings := x.rings.drop 1 } r.tok r.pc r.upto)

/-- The RINGs of a batch, one operation at a time; the SETs have been applied before. -/
def State.batchRing (s : State) (die : Nat) (op : BellOp) : State :=
  match op with
  | .set _ _ => s
  | .coreRing c b n =>
    s.when (bellDie b.val = die) fun s => s.ringBell b.val n 2#3 (BitVec.ofNat 8 c.val) .package
  | .tileRing t =>
    match (s.tile t).dueRing with
    | none => s
    | some r => s.when (bellDie r.bell = die) fun s => s.fireRing t

/-- The SETs of a batch. -/
def State.batchSet (s : State) (die : Nat) (op : BellOp) : State :=
  match op with
  | .set b v => s.when (bellDie b.val = die) fun s => s.setBellCount b.val v
  | _ => s

/-- One batch at the bell home of a die: SET first, then the RINGs, then every WAIT (R259). -/
def State.batch (s : State) (die : Nat) (ops : List BellOp) : State :=
  let s1 := ops.foldl (fun s o => s.batchSet die o) s
  let s2 := ops.foldl (fun s o => s.batchRing die o) s1
  s2.evalWaits die

/-- SET (R165): a batch of its own. -/
def execSet (b : BellId) (v : W64) (s : State) : Host.Outcome State Fault Refusal :=
  .next (s.batch (bellDie b.val) [.set b v])

/-- A core's write to the RING register (R167): a PACKAGE-scope release by that core. -/
def execRingRegisterWrite (c : CoreId) (b : BellId) (n : W64) (s : State) : Host.Outcome State Fault Refusal :=
  .next (s.batch (bellDie b.val) [.coreRing c b n])

/-- The first posted RING of a tile fires, once its covered instructions have completed (R160). -/
def execRingFire (t : TileId) (s : State) : Host.Outcome State Fault Refusal :=
  match (s.tile t).dueRing with
  | none => .next s
  | some r => .next (s.batch (bellDie r.bell) [.tileRing t])

/-- Operations that one home accepts in one handshake cycle (R259). -/
def execBellBatch (die : ADie) (ops : List BellOp) (s : State) : Host.Outcome State Fault Refusal :=
  .next (s.batch die.val ops)

end Sys2Proof.Machine
end

