-- ==== Sys2Proof/Machine/Engine.lean ====
section
/-! DEFINITION. The engines' queues (R133, R136 to R138): the head of a queue starts, with its checks and its effect, and an
instruction completes. The effect of an instruction lands when it starts; its completion signals (assumption 6). -/

namespace Sys2Proof.Machine

/-- The checks of an engine instruction at its start (R136). -/
def Tile.opCheck (x : Tile) (op : EngOp) : Option W32 :=
  match op with
  | .mma o => x.mmaCheck o
  | .drain o => x.drainCheck o
  | .sclr _ _ => none
  | .ssto a => x.sstoCheck a
  | .seed _ => none
  | .vec op a => x.vecCheck op a
  | .msub a => firstStatus [(a.toNat % 128 ≠ 0, stReserved), (!x.within a.toNat 128, stBounds)]

/-- A descriptor handed on by MSUB, not yet accepted (R153). -/
def InFlight.submitted (e : QEntry) (off : Nat) : InFlight :=
  { off := off, idx := e.idx, pc := e.pc, tok := e.tok, phase := .submitted, d := none, vbase := 0, pbase := 0, psize := 0,
    host := false, revoked := false, atOnce := false, status := 0#32, ext := 0#32 }

/-- The effect of an engine instruction that starts (R147 to R153). MSUB hands its descriptor on and is done with its queue;
the others stay in their engine until they complete. -/
def Tile.opRun (x : Tile) (e : Engine) (h : QEntry) (draw : Nat) : Tile :=
  let y := { x with running := x.running ++ [(e, h)] }
  match h.op with
  | .mma o => y.mmaRun o
  | .drain o => if o.viaVector then y.drainStart h o else y.drainRun o draw
  | .sclr first count => y.clearScale first count
  | .ssto a => y.store a.toNat x.scaleImage
  | .seed v => { y with srSeed := v }
  | .vec op a => y.vecRun op a
  | .msub a => { x with descs := x.descs ++ [InFlight.submitted h a.toNat] }

/-- The head of a queue, with its token taken, where it is an instruction of the wanted kind and may start (R133, R137). -/
def Tile.startHead (x : Tile) (e : Engine) (want : EngOp → Bool) : Option (QEntry × Tile) :=
  match x.queue e with
  | [] => none
  | h :: rest => if want h.op && x.headStarts e then some (h, (x.setQueue e rest).takeTok h.tok) else none

/-- Starts the head of a queue: refused at its start, or run (R136). -/
def State.start (s : State) (t : TileId) (e : Engine) (want : EngOp → Bool) : State :=
  match (s.tile t).startHead e want with
  | none => s
  | some (h, x) =>
    match x.opCheck h.op with
    | some st => s.putTile t (x.fail st h.pc h.idx)
    | none => (s.putTile t (x.opRun e h s.fresh)).drawn

/-- A tile's state, quadrant mask or repairs changed (R99): a record of type 0x18. -/
def State.tileChanged (s : State) (t : TileId) (old : TileHealth) : State :=
  let code := fun (h : TileHealth) => match h with
    | .full => 0
    | .foldOnly => 1
    | .retired => 2
    | .outOfService => 3
  let x := s.tile t
  s.raise 1 0x18 (tileDie t) 1 t.val
    (payloadOf [(0x18, 1, code old), (0x19, 1, code x.health), (0x1A, 1, x.qmask.toNat)])

/-- A parity error in a bank (R92): the bank is poisoned, PAR is set, records name the tile, no further matrix instruction
issues, the tile stops with TILE_FAULT and leaves service. -/
def State.parityError (s : State) (t : TileId) (h : QEntry) (bank : Bool) (x : Tile) : State :=
  let y := (x.setBank bank { x.bank bank with poisoned := true }).raise flagPar
  let s1 := s.putTile t ({ (y.fail stParity h.pc h.idx) with matrixQ := [], health := .outOfService })
  (s1.raise 1 0x19 (tileDie t) 1 t.val (payloadOf [(0x18, 1, bank.toNat)])).when (x.health ≠ .outOfService) fun s =>
    (s.tileChanged t x.health).unitLeft 1 t.val 2

/-- As `start`, for an instruction in which a parity error is detected. -/
def State.startParity (s : State) (t : TileId) (want : EngOp → Bool) : State :=
  match (s.tile t).startHead .matrix want with
  | none => s
  | some (h, x) =>
    match x.opCheck h.op with
    | some st => s.putTile t (x.fail st h.pc h.idx)
    | none =>
      match h.op with
      | .mma o => s.parityError t h o.bank x
      | .drain o => (s.parityError t h o.bank (x.drainUndefined o (x.opRec o.drec) s.fresh)).drawn
      | _ => s

def EngOp.isMma (o : EngOp) : Bool := match o with
  | .mma _ => true
  | _ => false
def EngOp.isDrain (o : EngOp) : Bool := match o with
  | .drain _ => true
  | _ => false
def EngOp.isSclr (o : EngOp) : Bool := match o with
  | .sclr _ _ => true
  | _ => false
def EngOp.isSsto (o : EngOp) : Bool := match o with
  | .ssto _ => true
  | _ => false
def EngOp.isSeed (o : EngOp) : Bool := match o with
  | .seed _ => true
  | _ => false
def EngOp.isMsub (o : EngOp) : Bool := match o with
  | .msub _ => true
  | _ => false
/-- A vector instruction with the given operation. -/
def EngOp.isVec (v : VOp) (o : EngOp) : Bool := match o with
  | .vec op _ => op = v
  | _ => false

def State.startVec (s : State) (t : TileId) (v : VOp) : State := s.start t .vector (EngOp.isVec v)

/-- MMA (R147): the head of the matrix queue starts. -/
def execMma (t : TileId) (parity : Bool) (s : State) : Host.Outcome State Fault Refusal :=
  .next (if parity then s.startParity t EngOp.isMma else s.start t .matrix EngOp.isMma)
/-- DRAIN (R148). -/
def execDrain (t : TileId) (parity : Bool) (s : State) : Host.Outcome State Fault Refusal :=
  .next (if parity then s.startParity t EngOp.isDrain else s.start t .matrix EngOp.isDrain)
/-- SCLR, SSTO and SEED (R150). -/
def execSclr (t : TileId) (s : State) : Host.Outcome State Fault Refusal := .next (s.start t .matrix EngOp.isSclr)
def execSsto (t : TileId) (s : State) : Host.Outcome State Fault Refusal := .next (s.start t .matrix EngOp.isSsto)
def execSeed (t : TileId) (s : State) : Host.Outcome State Fault Refusal := .next (s.start t .matrix EngOp.isSeed)

/-! The vector operations of R152, each the head of the vector queue. -/

def execVadd (t : TileId) (s : State) : Host.Outcome State Fault Refusal := .next (s.startVec t .vadd)
def execVsub (t : TileId) (s : State) : Host.Outcome State Fault Refusal := .next (s.startVec t .vsub)
def execVmul (t : TileId) (s : State) : Host.Outcome State Fault Refusal := .next (s.startVec t .vmul)
def execVfma (t : TileId) (s : State) : Host.Outcome State Fault Refusal := .next (s.startVec t .vfma)
def execVfnma (t : TileId) (s : State) : Host.Outcome State Fault Refusal := .next (s.startVec t .vfnma)
def execVmin (t : TileId) (s : State) : Host.Outcome State Fault Refusal := .next (s.startVec t .vmin)
def execVmax (t : TileId) (s : State) : Host.Outcome State Fault Refusal := .next (s.startVec t .vmax)
def execVabs (t : TileId) (s : State) : Host.Outcome State Fault Refusal := .next (s.startVec t .vabs)
def execVneg (t : TileId) (s : State) : Host.Outcome State Fault Refusal := .next (s.startVec t .vneg)
def execVdiv (t : TileId) (s : State) : Host.Outcome State Fault Refusal := .next (s.startVec t .vdiv)
def execVsqrt (t : TileId) (s : State) : Host.Outcome State Fault Refusal := .next (s.startVec t .vsqrt)
def execVcmplt (t : TileId) (s : State) : Host.Outcome State Fault Refusal := .next (s.startVec t .vcmplt)
def execVcmpeq (t : TileId) (s : State) : Host.Outcome State Fault Refusal := .next (s.startVec t .vcmpeq)
def execVclass (t : TileId) (s : State) : Host.Outcome State Fault Refusal := .next (s.startVec t .vclass)
def execVsel (t : TileId) (s : State) : Host.Outcome State Fault Refusal := .next (s.startVec t .vsel)
def execVbcast (t : TileId) (s : State) : Host.Outcome State Fault Refusal := .next (s.startVec t .vbcast)
def execVld (t : TileId) (s : State) : Host.Outcome State Fault Refusal := .next (s.startVec t .vld)
def execVst (t : TileId) (s : State) : Host.Outcome State Fault Refusal := .next (s.startVec t .vst)
def execVrsum (t : TileId) (s : State) : Host.Outcome State Fault Refusal := .next (s.startVec t .vrsum)
def execVrmax (t : TileId) (s : State) : Host.Outcome State Fault Refusal := .next (s.startVec t .vrmax)
def execViadd (t : TileId) (s : State) : Host.Outcome State Fault Refusal := .next (s.startVec t .viadd)
def execVisub (t : TileId) (s : State) : Host.Outcome State Fault Refusal := .next (s.startVec t .visub)
def execVimul (t : TileId) (s : State) : Host.Outcome State Fault Refusal := .next (s.startVec t .vimul)
def execVand (t : TileId) (s : State) : Host.Outcome State Fault Refusal := .next (s.startVec t .vand)
def execVor (t : TileId) (s : State) : Host.Outcome State Fault Refusal := .next (s.startVec t .vor)
def execVxor (t : TileId) (s : State) : Host.Outcome State Fault Refusal := .next (s.startVec t .vxor)
def execVshl (t : TileId) (s : State) : Host.Outcome State Fault Refusal := .next (s.startVec t .vshl)
def execVshr (t : TileId) (s : State) : Host.Outcome State Fault Refusal := .next (s.startVec t .vshr)
def execVshra (t : TileId) (s : State) : Host.Outcome State Fault Refusal := .next (s.startVec t .vshra)
def execVcvtif (t : TileId) (s : State) : Host.Outcome State Fault Refusal := .next (s.startVec t .vcvtif)
def execVcvtfi (t : TileId) (s : State) : Host.Outcome State Fault Refusal := .next (s.startVec t .vcvtfi)
def execVmov (t : TileId) (s : State) : Host.Outcome State Fault Refusal := .next (s.startVec t .vmov)

/-- MSUB (R153): the head of the move queue hands its descriptor on. -/
def execMsub (t : TileId) (s : State) : Host.Outcome State Fault Refusal := .next (s.start t .move EngOp.isMsub)

/-- A running instruction can complete: a drain through the vector engine once its last row is back (R149). -/
def Tile.canComplete (x : Tile) (e : Engine) (idx : Nat) : Bool :=
  (x.running.any fun r => r.1 = e && r.2.idx = idx) && !(x.drains.any fun d => d.entry.idx = idx && !d.done)

/-- INSTRUCTION_COMPLETION (R138): a running engine instruction completes and signals. -/
def execInstructionCompletion (t : TileId) (e : Engine) (idx : Nat) (s : State) : Host.Outcome State Fault Refusal :=
  let x := s.tile t
  .next (if x.canComplete e idx then s.putTile t (x.complete idx) else s)

/-- A core's write of SR_SEED takes effect only while no kernel holds the tile (R84). -/
def execSrSeedWrite (t : TileId) (v : W64) (s : State) : Host.Outcome State Fault Refusal :=
  let x := s.tile t
  .next (if x.kernel.isSome then s.discard else s.setTile t { x with srSeed := v })

/-- The tile clear (R175): tile SRAM, the state of R140, both banks, the scale table and its NaN mask; SR_SEED stays. -/
def Tile.cleared (x : Tile) : Tile :=
  { x with sram := [], xheld := [], sregs := [], vregs := [], mregs := [], pc := 0, tokens := [], bank0 := Bank.reset,
           bank1 := Bank.reset, scale := [], scaleNan := 0#64, vdin := [], drains := [] }

/-- TILE_CLEAR_END (R175): the clear ends and the tile becomes free. -/
def execTileClearEnd (t : TileId) (s : State) : Host.Outcome State Fault Refusal :=
  let x := s.tile t
  .next (if x.seq = .clearing then s.setTile t { x.cleared with seq := .idle, kernel := none } else s)

end Sys2Proof.Machine
end

