-- ==== Sys2Proof/Machine/Sequencer.lean ====
section
/-! DEFINITION. The tile sequencer (R132, R136, R146, R160 to R162): fetch, the sequencer instructions, and the end of a tile's
program. A command that names a sequencer instruction has the effect of the sequencer executing it at its PC. -/

namespace Sys2Proof.Machine

/-- Executes a sequencer instruction on a tile: it takes its token, acts, goes to the next PC and signals (R137, R138). -/
def Tile.seqStep (x : Tile) (k : Tok) (next : Nat) (f : Tile → Tile) : Tile :=
  Tile.signal { f (x.takeTok k) with pc := next } k x.pc x.appended

/-- A sequencer instruction that is refused stops the tile at its PC (R136). -/
def Tile.seqFail (x : Tile) (k : Tok) (st : W32) : Tile := (x.takeTok k).fail st x.pc x.appended

/-- A sequencer instruction that is refused with a status or acts: it stalls while it may not start. -/
def State.seqRun (s : State) (t : TileId) (k : Tok) (bad : Option W32) (next : Nat) (f : Tile → Tile) : State :=
  let x := s.tile t
  if x.seqReady k then
    match bad with
    | some st => s.putTile t (x.seqFail k st)
    | none => s.putTile t (x.seqStep k next f)
  else s

/-- A sequencer instruction that ends at the next word. -/
def State.seqPlain (s : State) (t : TileId) (k : Tok) (f : Tile → Tile) : State :=
  s.seqRun t k none ((s.tile t).pc + 8) f

/-- SD = SA op SB (R146). -/
def AluOp.eval (op : AluOp) (a b : W64) : W64 :=
  match op with
  | .add => a + b
  | .sub => a - b
  | .and => a &&& b
  | .or => a ||| b
  | .xor => a ^^^ b
  | .shl => a <<< (b.toNat % 64)
  | .shr => a >>> (b.toNat % 64)
  | .mul => a * b

def State.seqAlu (s : State) (t : TileId) (k : Tok) (op : AluOp) (sd sa sb : Nat) : State :=
  s.seqPlain t k fun x => x.setSreg sd (op.eval (x.sreg sa) (x.sreg sb))

/-- HALT ends the program once its work has drained (R146, R174). -/
def State.seqHalt (s : State) (t : TileId) (k : Tok) : State := s.seqPlain t k fun x => { x with seq := .draining }

/-- SADDI, SLI and SHI (R146). -/
def State.seqAddi (s : State) (t : TileId) (k : Tok) (sd sa : Nat) (imm : W32) : State :=
  s.seqPlain t k fun x => x.setSreg sd (x.sreg sa + imm.signExtend 64)
def State.seqLi (s : State) (t : TileId) (k : Tok) (sd : Nat) (imm : W32) : State :=
  s.seqPlain t k fun x => x.setSreg sd (imm.signExtend 64)
def State.seqHi (s : State) (t : TileId) (k : Tok) (sd : Nat) (imm : W32) : State :=
  s.seqPlain t k fun x => x.setSreg sd (imm ++ (x.sreg sd).truncate 32)

/-- The address SA + IMM of SLD and SST, and the status that refuses it (R142, R146). -/
def Tile.scalarAddr (x : Tile) (sa : Nat) (imm : W32) : Nat := (x.sreg sa + imm.signExtend 64).toNat
def Tile.scalarCheck (x : Tile) (a : Nat) : Option W32 :=
  firstStatus [(a % 8 ≠ 0, stReserved), (!x.within a 8, stBounds)]

def State.seqLd (s : State) (t : TileId) (k : Tok) (sd sa : Nat) (imm : W32) : State :=
  let x := s.tile t
  let a := x.scalarAddr sa imm
  s.seqRun t k (x.scalarCheck a) (x.pc + 8) fun x => x.setSreg sd (BitVec.ofNat 64 (natOfBytes (x.load a 8)))

def State.seqSt (s : State) (t : TileId) (k : Tok) (sa sb : Nat) (imm : W32) : State :=
  let x := s.tile t
  let a := x.scalarAddr sa imm
  s.seqRun t k (x.scalarCheck a) (x.pc + 8) fun x => x.store a (bytesOfNat 8 (x.sreg sb).toNat)

/-- A branch condition (R146). -/
def Cond.holds (c : Cond) (a b : W64) : Bool :=
  match c with
  | .eq => a = b
  | .ne => a ≠ b
  | .lt => a.slt b
  | .ltu => a.ult b

/-- The target of a branch, from its own address (R146). -/
def branchTarget (pc : Nat) (imm : W32) : Int := (pc : Int) + imm.toInt * 8

/-- The status that refuses a taken branch whose target lies outside the declared tile SRAM (R146). -/
def Tile.branchCheck (x : Tile) (imm : W32) : Option W32 :=
  let g := branchTarget x.pc imm
  if g < 0 || g ≥ x.sramBytes then some stBounds else none

def State.seqJmp (s : State) (t : TileId) (k : Tok) (imm : W32) : State :=
  let x := s.tile t
  s.seqRun t k (x.branchCheck imm) (branchTarget x.pc imm).toNat id

def State.seqBranch (s : State) (t : TileId) (k : Tok) (c : Cond) (sa sb : Nat) (imm : W32) : State :=
  let x := s.tile t
  if c.holds (x.sreg sa) (x.sreg sb) then s.seqJmp t k imm else s.seqPlain t k id

/-- The bell that a kernel-local index names (R159). -/
def State.localBell (s : State) (t : TileId) (i : Nat) : Option Nat :=
  match (s.tile t).kernel.bind s.kernel with
  | none => none
  | some kn => kn.bells[i]?

/-- The increment of a RING (R160). -/
def Tile.ringN (x : Tile) (n : RingN) : W64 :=
  match n with
  | .imm v => v.zeroExtend 64
  | .reg r => x.sreg r.val

/-- RING posts a release; the sequencer goes on, and stalls on a seventeenth (R159, R160). Its signal waits for its firing. -/
def State.seqRing (s : State) (t : TileId) (k : Tok) (bell : Nat) (scope : Scope) (qmask : BitVec 3) (n : RingN) : State :=
  let x := s.tile t
  if !x.seqReady k then s
  else
    match s.localBell t bell with
    | none => s.putTile t (x.seqFail k stBounds)
    | some b =>
      if x.rings.length ≥ 16 then s
      else
        let y := x.takeTok k
        s.putTile t { y with
          pc := x.pc + 8
          rings := x.rings ++ [{ bell := b, scope := scope, qmask := qmask, n := x.ringN n, upto := x.appended, pc := x.pc,
                                 tok := k }] }

/-- WAIT stops the sequencer until the count reaches the threshold; it is evaluated at the bell's home at once (R161, R259). -/
def State.seqWait (s : State) (t : TileId) (k : Tok) (bell : Nat) (scope : Scope) (treg : Nat) : State :=
  let x := s.tile t
  if !x.seqReady k then s
  else
    match s.localBell t bell with
    | none => s.putTile t (x.seqFail k stBounds)
    | some b =>
      let w : WaitRec := { bell := b, scope := scope, thresh := x.sreg treg, pc := x.pc, tok := k }
      (s.putTile t { x.takeTok k with seq := .inWait, waiting := some w }).evalWait t

/-- FENCE stops the sequencer until the covered queues have completed (R162). -/
def State.seqFence (s : State) (t : TileId) (k : Tok) (qmask : BitVec 3) : State :=
  let x := s.tile t
  if x.covers qmask x.appended then s else s.seqPlain t k id

/-- FLAGS reads XFLAGS, then clears the selected bits (R146). -/
def State.seqFlags (s : State) (t : TileId) (k : Tok) (sd : Nat) (clear : BitVec 7) : State :=
  s.seqPlain t k fun x => { x.setSreg sd (x.xflags.zeroExtend 64) with xflags := x.xflags &&& ~~~ clear }

/-- TALLY reads the tally of the tile's die, which has run on (R38, R41, R146). -/
def State.seqTally (s : State) (t : TileId) (k : Tok) (sd : Nat) : State :=
  if (s.tile t).seqReady k then
    let q := s.tocsin.tick s.fresh (tileDie t)
    State.seqPlain { s with tocsin := q, fresh := s.fresh + 1 } t k fun x => x.setSreg sd (q.tally (tileDie t))
  else s

/-- Executes a decoded sequencer instruction. -/
def State.seqExec (s : State) (t : TileId) (k : Tok) (o : SeqOp) : State :=
  match o with
  | .nop => s.seqPlain t k id
  | .halt => s.seqHalt t k
  | .alu op sd sa sb => s.seqAlu t k op sd sa sb
  | .addi sd sa imm => s.seqAddi t k sd sa imm
  | .li sd imm => s.seqLi t k sd imm
  | .hi sd imm => s.seqHi t k sd imm
  | .ld sd sa imm => s.seqLd t k sd sa imm
  | .st sa sb imm => s.seqSt t k sa sb imm
  | .branch c sa sb imm => s.seqBranch t k c sa sb imm
  | .jmp imm => s.seqJmp t k imm
  | .ring bell scope qmask n => s.seqRing t k bell scope qmask n
  | .wait bell scope treg => s.seqWait t k bell scope treg
  | .fence _ qmask => s.seqFence t k qmask
  | .flags sd clear => s.seqFlags t k sd clear
  | .tally sd => s.seqTally t k sd

/-- A stop due from another tile or a terminate is taken (R136, R174). -/
def Tile.takeStop (x : Tile) : Tile :=
  match x.stopDue with
  | none => x
  | some st => if x.live then x.halt st x.pc x.appended false else { x with stopDue := none }

/-- The word at the PC. -/
def Tile.word (x : Tile) : W64 := BitVec.ofNat 64 (natOfBytes (x.load x.pc 8))

/-- INSTRUCTION_FETCH (R132, R136, R146): fetches one word at the PC, decodes it, and executes it or appends it to its
engine's queue; the sequencer stalls while that queue holds 32. -/
def execInstructionFetch (t : TileId) (s : State) : Host.Outcome State Fault Refusal :=
  let x := s.tile t
  if x.seq ≠ .running then .next s
  else if x.stopDue.isSome then .next (s.putTile t x.takeStop)
  else if !x.within x.pc 8 then .next (s.putTile t (x.fail stBounds x.pc x.appended))
  else
    match decodeWord x.sreg x.word with
    | .error st => .next (s.putTile t (x.fail st x.pc x.appended))
    | .ok (k, .seq o) => .next (s.seqExec t k o)
    | .ok (k, .eng e o) => .next (if (x.queue e).length ≥ 32 then s else s.setTile t (x.append e k o))

/-- NOP: nothing but its wait and its signal. -/
def execNop (t : TileId) (k : Tok) (s : State) : Host.Outcome State Fault Refusal := .next (s.seqPlain t k id)

def execHalt (t : TileId) (k : Tok) (s : State) : Host.Outcome State Fault Refusal := .next (s.seqHalt t k)

def execSadd (t : TileId) (k : Tok) (sd sa sb : Fin 32) (s : State) : Host.Outcome State Fault Refusal :=
  .next (s.seqAlu t k .add sd sa sb)
def execSsub (t : TileId) (k : Tok) (sd sa sb : Fin 32) (s : State) : Host.Outcome State Fault Refusal :=
  .next (s.seqAlu t k .sub sd sa sb)
def execSand (t : TileId) (k : Tok) (sd sa sb : Fin 32) (s : State) : Host.Outcome State Fault Refusal :=
  .next (s.seqAlu t k .and sd sa sb)
def execSor (t : TileId) (k : Tok) (sd sa sb : Fin 32) (s : State) : Host.Outcome State Fault Refusal :=
  .next (s.seqAlu t k .or sd sa sb)
def execSxor (t : TileId) (k : Tok) (sd sa sb : Fin 32) (s : State) : Host.Outcome State Fault Refusal :=
  .next (s.seqAlu t k .xor sd sa sb)
def execSshl (t : TileId) (k : Tok) (sd sa sb : Fin 32) (s : State) : Host.Outcome State Fault Refusal :=
  .next (s.seqAlu t k .shl sd sa sb)
def execSshr (t : TileId) (k : Tok) (sd sa sb : Fin 32) (s : State) : Host.Outcome State Fault Refusal :=
  .next (s.seqAlu t k .shr sd sa sb)
def execSmul (t : TileId) (k : Tok) (sd sa sb : Fin 32) (s : State) : Host.Outcome State Fault Refusal :=
  .next (s.seqAlu t k .mul sd sa sb)

def execSaddi (t : TileId) (k : Tok) (sd sa : Fin 32) (imm : W32) (s : State) : Host.Outcome State Fault Refusal :=
  .next (s.seqAddi t k sd sa imm)
def execSli (t : TileId) (k : Tok) (sd : Fin 32) (imm : W32) (s : State) : Host.Outcome State Fault Refusal :=
  .next (s.seqLi t k sd imm)
def execShi (t : TileId) (k : Tok) (sd : Fin 32) (imm : W32) (s : State) : Host.Outcome State Fault Refusal :=
  .next (s.seqHi t k sd imm)
def execSld (t : TileId) (k : Tok) (sd sa : Fin 32) (imm : W32) (s : State) : Host.Outcome State Fault Refusal :=
  .next (s.seqLd t k sd sa imm)
def execSst (t : TileId) (k : Tok) (sa sb : Fin 32) (imm : W32) (s : State) : Host.Outcome State Fault Refusal :=
  .next (s.seqSt t k sa sb imm)

def execBeq (t : TileId) (k : Tok) (sa sb : Fin 32) (imm : W32) (s : State) : Host.Outcome State Fault Refusal :=
  .next (s.seqBranch t k .eq sa sb imm)
def execBne (t : TileId) (k : Tok) (sa sb : Fin 32) (imm : W32) (s : State) : Host.Outcome State Fault Refusal :=
  .next (s.seqBranch t k .ne sa sb imm)
def execBlt (t : TileId) (k : Tok) (sa sb : Fin 32) (imm : W32) (s : State) : Host.Outcome State Fault Refusal :=
  .next (s.seqBranch t k .lt sa sb imm)
def execBltu (t : TileId) (k : Tok) (sa sb : Fin 32) (imm : W32) (s : State) : Host.Outcome State Fault Refusal :=
  .next (s.seqBranch t k .ltu sa sb imm)
def execJmp (t : TileId) (k : Tok) (imm : W32) (s : State) : Host.Outcome State Fault Refusal := .next (s.seqJmp t k imm)

def execRing (t : TileId) (k : Tok) (bell : BitVec 12) (scope : Scope) (qmask : BitVec 3) (n : RingN) (s : State) :
    Host.Outcome State Fault Refusal :=
  .next (s.seqRing t k bell.toNat scope qmask n)
def execWait (t : TileId) (k : Tok) (bell : BitVec 12) (scope : Scope) (treg : Fin 32) (s : State) :
    Host.Outcome State Fault Refusal :=
  .next (s.seqWait t k bell.toNat scope treg)
/-- The scope of a FENCE decides who observes it; writes land at their homes when they are made, so they are visible at every
scope by the time the covered instructions have completed (assumption 6). -/
def execFence (t : TileId) (k : Tok) (_scope : Scope) (qmask : BitVec 3) (s : State) : Host.Outcome State Fault Refusal :=
  .next (s.seqFence t k qmask)
def execFlags (t : TileId) (k : Tok) (sd : Fin 32) (clear : BitVec 7) (s : State) : Host.Outcome State Fault Refusal :=
  .next (s.seqFlags t k sd clear)
def execTally (t : TileId) (k : Tok) (sd : Fin 32) (s : State) : Host.Outcome State Fault Refusal := .next (s.seqTally t k sd)

/-- TILE_STOP (R174): the stop that another tile or a terminate sent reaches the tile. -/
def execTileStop (t : TileId) (s : State) : Host.Outcome State Fault Refusal :=
  .next (if (s.tile t).stopDue.isSome then s.putTile t (s.tile t).takeStop else s)

/-- TILE_PROGRAM_END (R174): after HALT, the program ends once queues, RINGs and descriptors are empty. -/
def execTileProgramEnd (t : TileId) (s : State) : Host.Outcome State Fault Refusal :=
  let x := s.tile t
  .next (if x.seq = .draining && x.drained then s.setTile t { x with seq := .idle } else s)

end Sys2Proof.Machine
end

