-- ==== Sys2Proof/Machine/Translate.lean ====
section
/-! DEFINITION. Translation (R217 to R231) and the withdrawal of a mapping (R246 to R248). -/

namespace Sys2Proof.Machine

/-- The fields of a context word (R218). -/
def ctxDevice (ctx : W32) : Nat := bitsOf ctx.toNat 0 8
def ctxProcess (ctx : W32) : Nat := bitsOf ctx.toNat 8 17

/-- A table lies in near or deep memory. -/
def inMem (a n : Nat) : Bool :=
  (regionOf a = .near || regionOf a = .deep) && regionOf a = regionOf (a + (n - 1))

/-- How a step of a translation ends. -/
inductive XErr where
  | fault (cause level : Nat) (last : W64)
  | status (w : W32)
  deriving DecidableEq, Repr

/-- What a translation finds: the virtual base, the size and the physical base of the page, and the leaf's rights. -/
structure Leaf where
  vbase : Nat
  size : Nat
  pbase : Nat
  rd : Bool
  wr : Bool
  deriving DecidableEq, Repr

/-- A context is invalid: cause 0x01 with the word read (R218). -/
def badCtx (w : W64) : XErr := .fault 1 0 w

/-- fsc of a first-stage table: the levels of Sv48 or Sv57 and the root table (R217). -/
def svRoot (fsc : W64) : Option (Nat × Nat) :=
  let root := w64Bits fsc 0 44 * 4096
  if w64Bits fsc 44 20 = 0x90000 && inMem root 4096 then some (4, root)
  else if w64Bits fsc 44 20 = 0xA0000 && inMem root 4096 then some (5, root)
  else none

/-- The device context of R217: tc with V, no unsupported bit; iohgatp Bare; reserved fields zero. -/
def devCtxOk (bs : List Byte) : Bool :=
  let tc := (w64At bs 0).toNat
  let ta := (w64At bs 16).toNat
  bitsOf tc 0 1 = 1 && tc - tc % 2 - bitsOf tc 5 1 * 32 = 0 && w64Bits (w64At bs 8) 60 4 = 0 && bitsOf ta 0 12 = 0
    && bitsOf ta 32 32 = 0

/-- The process context of R217. -/
def procCtxOk (bs : List Byte) : Bool :=
  let ta := (w64At bs 0).toNat
  bitsOf ta 0 12 = 1 && bitsOf ta 32 32 = 0

/-- The process context of a device with tc.PDTV set: one or two directory levels (R217, R218). -/
def State.readProcess (s : State) (die device process : Nat) (tc fsc : W64) : State × (CtxEntry ⊕ XErr) :=
  let mode := w64Bits fsc 60 4
  let table := w64Bits fsc 0 44 * 4096
  let leaf := fun (s : State) (t : Nat) (last : W64) =>
    if !inMem t 4096 then (s, Sum.inr (badCtx last))
    else
      let r := s.readMem (t + 16 * (process % 256)) 16 die
      if r.status ≠ stOk then (r.st, Sum.inr (XErr.status r.status))
      else
        match procCtxOk r.data, svRoot (w64At r.data 8) with
        | true, some lr =>
          (r.st, Sum.inl { die := die, device := device, process := process, pscid := w64Bits (w64At r.data 0) 12 20,
                           root := lr.2, levels := lr.1 : CtxEntry })
        | _, _ => (r.st, Sum.inr (badCtx (w64At r.data 0)))
  if w64Bits fsc 44 16 ≠ 0 then (s, .inr (badCtx tc))
  else if mode = 1 then (if process ≥ 256 then (s, .inr (badCtx tc)) else leaf s table tc)
  else if mode = 2 then
    if !inMem table 4096 then (s, .inr (badCtx tc))
    else
      let r := s.readMem (table + 8 * (process / 256)) 8 die
      let w := w64At r.data 0
      if r.status ≠ stOk then (r.st, .inr (.status r.status))
      else if w64Bits w 0 10 ≠ 1 || w64Bits w 54 10 ≠ 0 then (r.st, .inr (badCtx w))
      else leaf r.st (w64Bits w 10 44 * 4096) w
  else (s, .inr (badCtx tc))

/-- Reads a context afresh at its home (R217, R218, R220). Device IDs 0 to 255 index contiguous 32 B contexts (assumption 13). -/
def State.readCtx (s : State) (die : Nat) (ctx : W32) : State × (CtxEntry ⊕ XErr) :=
  let device := ctxDevice ctx
  let process := ctxProcess ctx
  let a := w64Bits s.xlat.ddtp 10 44 * 4096 + 32 * device
  if bitsOf ctx.toNat 25 7 ≠ 0 || w64Bits s.xlat.ddtp 0 4 ≠ 2 || !inMem a 32 then (s, .inr (badCtx 0#64))
  else
    let r := s.readMem a 32 die
    let tc := w64At r.data 0
    let fsc := w64At r.data 24
    if r.status ≠ stOk then (r.st, .inr (.status r.status))
    else if !devCtxOk r.data then (r.st, .inr (badCtx tc))
    else if w64Bits tc 5 1 = 0 then
      match decide (process = 0), svRoot fsc with
      | true, some lr =>
        (r.st, .inl { die := die, device := device, process := process, pscid := w64Bits (w64At r.data 16) 12 20,
                      root := lr.2, levels := lr.1 })
      | _, _ => (r.st, .inr (badCtx tc))
    else
      r.st.readProcess die device process tc fsc

/-- The context of an access: a cached copy, or read afresh and cached (R220). -/
def State.context (s : State) (die : Nat) (ctx : W32) : State × (CtxEntry ⊕ XErr) :=
  match s.xlat.ctxs.find? fun c => c.die = die && c.device = ctxDevice ctx && c.process = ctxProcess ctx
      && bitsOf ctx.toNat 25 7 = 0 && w64Bits s.xlat.ddtp 0 4 = 2 with
  | some c => (s, .inl c)
  | none =>
    let r := s.readCtx die ctx
    match r.2 with
    | .inr e => (r.1, .inr e)
    | .inl c => ({ r.1 with xlat := { r.1.xlat with ctxs := c :: r.1.xlat.ctxs } }, .inl c)

/-- The malformed leaves of R219 at a level: W without R, reserved bits, N, a page size not supported, a misaligned superpage. -/
def leafMalformed (pte : W64) (level : Nat) : Bool :=
  (w64Bits pte 1 2 = 2) || w64Bits pte 54 7 ≠ 0 || w64Bits pte 63 1 ≠ 0 || level > 2
    || w64Bits pte 10 (9 * level) ≠ 0

/-- The non-leaf entries that end a walk with cause 0x05: at the last level, with a reserved bit, or naming a table outside
near and deep memory (R218, R219). -/
def tableMalformed (pte : W64) (level : Nat) : Bool :=
  level = 0 || w64Bits pte 54 10 ≠ 0 || w64Bits pte 4 1 ≠ 0 || w64Bits pte 6 2 ≠ 0 || !inMem (w64Bits pte 10 44 * 4096) 4096

/-- The page-table walk from a table at a level (R219): the leaf PTE with its level. -/
def State.walk (s : State) (die va table : Nat) (level : Nat) : State × ((W64 × Nat) ⊕ XErr) :=
  let r := s.readMem (table + 8 * bitsOf va (12 + 9 * level) 9) 8 die
  let pte := w64At r.data 0
  if r.status ≠ stOk then (r.st, .inr (.status r.status))
  else if w64Bits pte 0 1 = 0 then (r.st, .inr (.fault (if w64Bits pte 8 1 = 1 then 6 else 2) level pte))
  else if w64Bits pte 1 3 ≠ 0 then
    if leafMalformed pte level then (r.st, .inr (.fault 5 level pte))
    else if w64Bits pte 10 44 ≥ 2 ^ 33 then (r.st, .inr (.status stBounds))
    else (r.st, .inl (pte, level))
  else if tableMalformed pte level then (r.st, .inr (.fault 5 level pte))
  else
    match level with
    | 0 => (r.st, .inr (.fault 5 0 pte))
    | n + 1 => State.walk r.st die va (w64Bits pte 10 44 * 4096) n

/-- The bits above the mode's top bit all equal that bit (R219). -/
def canonical (va levels : Nat) : Bool :=
  let top := va / 2 ^ (11 + 9 * levels)
  top = 0 || top = 2 ^ (53 - 9 * levels) - 1

/-- U, R or W, then A and D of a leaf (R219). -/
def leafFault (pte : W64) (write : Bool) : Option Nat :=
  if w64Bits pte 4 1 = 0 || (if write then w64Bits pte 2 1 = 0 else w64Bits pte 1 1 = 0) then some 3
  else if w64Bits pte 6 1 = 0 || (write && w64Bits pte 7 1 = 0) then some 4
  else none

/-- The size of a leaf's page. -/
def pageSize (level : Nat) : Nat := 4096 * 512 ^ level

/-- What a leaf gives an access, after its rights (R219, R223). -/
def leafResult (va : Nat) (write : Bool) (pte : W64) (size level : Nat) : Leaf ⊕ XErr :=
  match leafFault pte write with
  | some c => .inr (.fault c level pte)
  | none =>
    .inl { vbase := va - va % size, size := size, pbase := w64Bits pte 10 44 * 4096,
           rd := w64Bits pte 1 1 = 1 && w64Bits pte 6 1 = 1,
           wr := w64Bits pte 2 1 = 1 && w64Bits pte 6 1 = 1 && w64Bits pte 7 1 = 1 }

/-- Translates a virtual address for a read or a write in a context (R217 to R220). -/
def State.translate (s : State) (die : Nat) (ctx : W32) (va : W64) (write : Bool) : State × (Leaf ⊕ XErr) :=
  let c := s.context die ctx
  match c.2 with
  | .inr e => (c.1, .inr e)
  | .inl e =>
    let a := va.toNat
    match c.1.xlat.tlb.find? fun t => t.die = die && t.device = e.device && t.pscid = e.pscid && t.vbase = a - a % t.size with
    | some t => (c.1, leafResult a write t.pte t.size (if t.size = 4096 then 0 else if t.size = pageSize 1 then 1 else 2))
    | none =>
      if !canonical a e.levels then (c.1, .inr (.fault 2 (e.levels - 1) 0#64))
      else
        let w := c.1.walk die a e.root (e.levels - 1)
        match w.2 with
        | .inr x => (w.1, .inr x)
        | .inl pl =>
          let size := pageSize pl.2
          let t : TlbEntry :=
            { die := die, device := e.device, process := e.process, pscid := e.pscid, vbase := a - a % size, size := size,
              pte := pl.1 }
          let rest := w.1.xlat.tlb
          let kept := t :: (rest.filter fun u => u.die ≠ die) ++ (rest.filter fun u => u.die = die).take 2047
          ({ w.1 with xlat := { w.1.xlat with tlb := kept } }, leafResult a write pl.1 size pl.2)

/-- True of a context that a launch accepts (R170, R218): read afresh, the root table tested. -/
def State.launchCtx (s : State) (ctx : W32) : State × Bool :=
  let r := s.readCtx 4 ctx
  (r.1, match r.2 with
    | .inl _ => true
    | .inr _ => false)

/-! ### Faults (R227 to R231) -/

/-- A fault register is filled and its record raised, to the Tocsin queue or, host-managed, to the forward queue (R228, R230). -/
def State.placeFault (s : State) (fid die kind unit : Nat) (ctx locator : W32) (va : W64) (write : Bool)
    (cause level : Nat) (last : W64) : State :=
  let a := s.tocsin.assign s.fresh 0 0x01 die kind unit (faultSrc fid)
    (payloadOf [(0x14, 2, fid), (0x16, 1, cause), (0x17, 1, write.toNat), (0x18, 4, ctx.toNat), (0x1C, 4, locator.toNat),
      (0x20, 8, va.toNat), (0x28, 8, last.toNat), (0x30, 1, level)])
  let reg : FaultReg :=
    { seq := a.2.seq, forward := cause = 6, cause := cause, write := write, ctx := ctx, locator := locator, va := va,
      last := last, level := level }
  { s with
    tocsin := if cause = 6 then { a.1 with forward := a.1.forward ++ [a.2] } else a.1.enrol a.2
    xlat := { s.xlat with faults := s.xlat.faults.set none fid (some reg) }
    fresh := s.fresh + 1 }

/-- The mapping generation of a device (R226). -/
def XlatS.gen (x : XlatS) (device : Nat) : BitVec 24 := x.mgen.get 0#24 device

/-- Reuse of cached translations is suspended for a device (R226). -/
def XlatS.reuseSuspended (x : XlatS) (device : Nat) : Bool := !(x.suspended.get [] device).isEmpty

/-- The value of XLAT (R223). -/
def xlatWord (l : Leaf) (mgen : BitVec 24) : W64 :=
  let sz := if l.size = 4096 then 0 else if l.size = pageSize 1 then 1 else 2
  BitVec.ofNat 64 (l.pbase / 4096 + sz * 2 ^ 33 + l.rd.toNat * 2 ^ 35 + l.wr.toNat * 2 ^ 36 + 2 ^ 37 + mgen.toNat * 2 ^ 40)

/-! ### Invalidation and the unmap -/

/-- IOINVAL drops cached contexts and translations within its scope (R221). -/
def XlatS.invalidate (x : XlatS) (kind device process base len : Nat) : XlatS :=
  let mine := fun (d p : Nat) => d = device && p = process
  let hit := fun (t : TlbEntry) => t.vbase < base + len && base < t.vbase + t.size
  match kind with
  | 0 => { x with tlb := [], ctxs := [] }
  | 1 => { x with tlb := x.tlb.filter (fun t => t.device ≠ device), ctxs := x.ctxs.filter fun c => c.device ≠ device }
  | 2 => { x with tlb := x.tlb.filter (fun t => !mine t.device t.process),
                  ctxs := x.ctxs.filter fun c => !mine c.device c.process }
  | _ => { x with tlb := x.tlb.filter fun t => !(mine t.device t.process && hit t) }

/-- IOINVAL (R221, R249): a nonzero reserved bit discards the write (R19). -/
def execIoinval (v : W64) (s : State) : Host.Outcome State Fault Refusal :=
  if w64Bits v 2 6 ≠ 0 || w64Bits v 33 31 ≠ 0 then .next s.discard
  else
    let x := s.xlat.invalidate (w64Bits v 0 2) (w64Bits v 8 8) (w64Bits v 16 17) s.xlat.ioBase.toNat s.xlat.ioLen.toNat
    .next { s with xlat := { x with ioBusy := true } }

/-- Every copy in scope is gone: BUSY clears and source 9 is raised (R221, R382). -/
def execIoinvalComplete (s : State) : Host.Outcome State Fault Refusal :=
  .next (if s.xlat.ioBusy then State.route { s with xlat := { s.xlat with ioBusy := false } } 9 else s)

/-- UNMAP_GO (R246, R248): refused, and counted, where the staged unmap is misaligned, of all ones, or a ninth outstanding. -/
def execUnmapGo (_v : W32) (s : State) : Host.Outcome State Fault Refusal :=
  let x := s.xlat
  if x.unmapLen = BitVec.allOnes 64 || x.unmapBase.toNat % 4096 ≠ 0 || x.unmapLen.toNat % 4096 ≠ 0 || x.unmaps.length ≥ 8 then
    .next s.discard
  else
    let u : Unmap :=
      { device := w64Bits x.unmapCtx 0 8, process := if w64Bits x.unmapCtx 25 1 = 1 then none else some (w64Bits x.unmapCtx 8 17),
        base := x.unmapBase.toNat, len := x.unmapLen.toNat, ticket := none }
    .next { s with xlat := { x with unmaps := x.unmaps ++ [u] } }

/-- An unmap covers a process of a device and a page; one of length zero covers none (R247, R248). -/
def Unmap.coversPage (u : Unmap) (device process vbase size : Nat) : Bool :=
  u.len ≠ 0 && u.device = device && (u.process.isNone || u.process = some process) && vbase < u.base + u.len && u.base < vbase + size

/-- The context word of the kernel that holds a tile. -/
def State.tileCtx (s : State) (x : Tile) : W32 :=
  match x.kernel.bind s.kernel with
  | none => 0#32
  | some k => k.ctx

/-- Phase one marks the accepted, not started descriptors of a tile whose page the unmap covers (R247). -/
def Tile.revoke (x : Tile) (u : Unmap) (ctx : W32) : Tile :=
  { x with descs := x.descs.map fun d =>
      if d.phase = .accepted && d.psize ≠ 0 && u.coversPage (ctxDevice ctx) (ctxProcess ctx) d.vbase d.psize then
        { d with revoked := true }
      else d }

/-- Phase one marks the translated, not started COPY commands of a stream whose pages the unmap covers (R247, R409). -/
def StreamS.revoke (x : StreamS) (u : Unmap) : StreamS :=
  { x with cmds := x.cmds.map fun c =>
      if c.phase = .translated && c.pages.any fun p => u.coversPage (ctxDevice x.ctx) (ctxProcess x.ctx) p.1 p.2 then
        { c with revoked := true }
      else c }

/-- A tile has a started access that the unmap covers (R247). -/
def Tile.startedIn (x : Tile) (u : Unmap) (ctx : W32) : Bool :=
  x.descs.any fun d =>
    d.phase = .transferring && d.psize ≠ 0 && u.coversPage (ctxDevice ctx) (ctxProcess ctx) d.vbase d.psize

/-- The mapping generation of a device goes on; a wrap suspends reuse until the device's kernels have ended (R226). -/
def State.bumpGen (s : State) (device : Nat) : State :=
  let g := s.xlat.gen device + 1#24
  let live := (s.kern.kernels.filterMap fun e => match e.2 with
    | some k => if ctxDevice k.ctx = device then some e.1 else none
    | none => none)
  { s with xlat := { s.xlat with
      mgen := s.xlat.mgen.set 0#24 device g
      suspended := if g = 0#24 then s.xlat.suspended.set [] device (s.xlat.suspended.get [] device ++ live)
        else s.xlat.suspended } }

/-- Phase one is complete everywhere: generation, cached translations, revocation and the ticket (R247, R248). -/
def execUnmapPhaseOneComplete (s : State) : Host.Outcome State Fault Refusal :=
  match s.xlat.unmaps.findIdx? fun u => u.ticket.isNone with
  | none => .next s
  | some i =>
    match s.xlat.unmaps[i]? with
    | none => .next s
    | some u =>
      let s1 := s.when (u.len ≠ 0) fun s => s.bumpGen u.device
      let x := s1.xlat
      let ticket := x.issued + 1#32
      let tlb := x.tlb.filter fun t => !u.coversPage t.device t.process t.vbase t.size
      .next { s1 with
        tiles := s1.tiles.map fun e => (e.1, e.2.revoke u (s1.tileCtx e.2))
        cxl := { s1.cxl with streams := s1.cxl.streams.map fun e => (e.1, e.2.revoke u) }
        xlat := { x with issued := ticket, tlb := tlb, unmaps := x.unmaps.set i { u with ticket := some ticket } } }

/-- UNMAP_DRAINED (R247, R248): the oldest unmap drains once no started access remains in its range, and source 8 is raised. -/
def execUnmapDrained (s : State) : Host.Outcome State Fault Refusal :=
  match s.xlat.unmaps with
  | [] => .next s
  | u :: rest =>
    match u.ticket with
    | none => .next s
    | some k =>
      if u.len ≠ 0 && s.tiles.any fun e => e.2.startedIn u (s.tileCtx e.2) then .next s
      else .next (State.route { s with xlat := { s.xlat with unmaps := rest, drained := k } } 8)

end Sys2Proof.Machine
end

