-- ==== Sys2Proof/Machine/Move.lean ====
section
/-! DEFINITION. The move engine (R153 to R158, R222 to R225): acceptance of descriptors, their transfers within the package and
their completion. -/

namespace Sys2Proof.Machine

/-- The kind of a code (R155); none where it is reserved. -/
def moveKindOf (c : Nat) : Option MoveKind :=
  match c with
  | 0 => some .copy
  | 1 => some .transpose
  | 2 => some .fill
  | 3 => some .inline
  | 4 => some .put
  | 5 => some .get
  | _ => none

/-- Bits of an element of ESIZE (R155). -/
def elemBits (esize : Nat) : Nat := 4 * 2 ^ esize

/-- The fields of a descriptor, for a kind (R155, R296). -/
def MoveDesc.ofBytes (kind : MoveKind) (bs : List Byte) : MoveDesc :=
  let h := w64At bs 0
  let g := w64At bs 0x20
  let c := w64At bs 0x30
  { kind := kind, esize := w64Bits h 8 2, srcSram := w64Bits h 10 1 = 1, dstSram := w64Bits h 11 1 = 1,
    stream := w64Bits h 16 8, src := w64At bs 0x10, dst := w64At bs 0x18, cols := w64Bits g 0 16, rows := w64Bits g 16 16,
    srcStride := w64Bits g 32 32, dstStride := w64Bits (w64At bs 0x28) 0 32, bell := w64Bits c 0 12,
    scope := scopeOf (w64Bits c 12 2), ringEn := w64Bits c 14 1 = 1, n := BitVec.ofNat 16 (w64Bits c 16 16),
    fill := BitVec.ofNat 32 (w64Bits c 32 32), remoteCoord := BitVec.ofNat 19 (w64Bits c 32 19),
    remoteWindow := BitVec.ofNat 8 (w64Bits c 51 8), remoteMulti := w64Bits c 59 5 ≠ 0, data := bs.drop 0x50 }

/-- Bytes of a source row. -/
def MoveDesc.rowBytes (d : MoveDesc) : Nat := d.cols * elemBits d.esize / 8

/-- Bytes of a destination row, and how many there are (R156). -/
def MoveDesc.dstRow (d : MoveDesc) : Nat := (if d.kind = .transpose then d.rows else d.cols) * elemBits d.esize / 8
def MoveDesc.dstRows (d : MoveDesc) : Nat := if d.kind = .transpose then d.cols else d.rows

/-- A descriptor that makes no access (R157). -/
def MoveDesc.empty (d : MoveDesc) : Bool := d.cols = 0 || d.rows = 0

/-- Where the sides of a descriptor lie: remote, in tile SRAM or virtual. -/
inductive Side where
  | none | sram | virt
  deriving DecidableEq, Repr

def MoveDesc.srcSide (d : MoveDesc) : Side :=
  match d.kind with
  | .fill => .none
  | .inline => .none
  | .get => .none
  | _ => if d.srcSram then .sram else .virt

def MoveDesc.dstSide (d : MoveDesc) : Side :=
  match d.kind with
  | .put => .none
  | _ => if d.dstSram then .sram else .virt

/-- The bytes from the first that a side touches to the last (R157). -/
def MoveDesc.srcSpan (d : MoveDesc) : Nat := (d.rows - 1) * d.srcStride + d.rowBytes
def MoveDesc.dstSpan (d : MoveDesc) : Nat := (d.dstRows - 1) * d.dstStride + d.dstRow

/-- A coordinate lies within the frozen shape (R286). -/
def NetS.inShape (n : NetS) (c : BitVec 19) : Bool :=
  bitsOf c.toNat 0 5 ≤ bitsOf n.shape.toNat 0 5 && bitsOf c.toNat 5 5 ≤ bitsOf n.shape.toNat 5 5
    && bitsOf c.toNat 10 5 ≤ bitsOf n.shape.toNat 10 5 && bitsOf c.toNat 15 4 ≤ bitsOf n.shape.toNat 15 4

/-- True of the kinds that reach another module. -/
def MoveDesc.remote (d : MoveDesc) : Bool :=
  match d.kind with
  | .put => true
  | .get => true
  | _ => false

/-- The reserved fields and codes of check 2 (R155 to R157, R297). -/
def MoveDesc.reservedBad (d : MoveDesc) (bs : List Byte) : Bool :=
  let h := w64At bs 0
  w64Bits h 12 4 ≠ 0 || w64Bits h 24 40 ≠ 0 || w64Bits (w64At bs 0x28) 32 32 ≠ 0 || w64Bits (w64At bs 0x30) 15 1 ≠ 0
    || (match d.kind with
        | .inline => (d.data.drop d.cols).any (· ≠ 0#8) || d.src ≠ 0#64 || d.srcSram || d.esize ≠ 1
        | .fill => d.data.any (· ≠ 0#8) || d.src ≠ 0#64 || d.srcSram
        | .put => d.data.any (· ≠ 0#8) || d.dstSram || (d.ringEn && d.scope ≠ .system) || d.remoteMulti
        | .get => d.data.any (· ≠ 0#8) || d.srcSram || d.remoteMulti
        | _ => d.data.any (· ≠ 0#8))
    || (d.srcSide = .virt && d.dstSide = .virt)

/-- The length rules of check 2 (R156, R157). -/
def MoveDesc.lengthBad (d : MoveDesc) : Bool :=
  d.cols = 0xFFFF || d.rows = 0xFFFF || (d.kind = .inline && d.rows ≠ 1)
    || (!d.empty && ((d.esize = 0 && (d.cols % 2 = 1 || (d.kind = .transpose && d.rows % 2 = 1)))
      || d.dstStride < d.dstRow))

/-- The bounds of check 2 that depend on the kernel's declaration (R157, R297). -/
def MoveDesc.boundsBad (d : MoveDesc) (sramBytes streams bells : Nat) : Bool :=
  (d.kind = .inline && d.cols > 48) || d.stream ≥ streams || (d.ringEn && d.kind ≠ .put && d.bell ≥ bells)
    || (!d.empty &&
      ((d.srcSide = .sram && d.src.toNat + d.srcSpan > sramBytes) || (d.dstSide = .sram && d.dst.toNat + d.dstSpan > sramBytes)
        || (d.srcSide = .sram && d.dstSide = .sram && d.src.toNat < d.dst.toNat + d.dstSpan
          && d.dst.toNat < d.src.toNat + d.srcSpan)))

/-- 0x0504 NO_ROUTE (R293, R297). -/
def stNoRoute : W32 := statusWord 0x0504 0

/-- Checks 1 and 2 of R157 on a descriptor's bytes: the status that refuses it, or its fields. -/
def State.descCheck (s : State) (k : Kernel) (sramBytes : Nat) (bs : List Byte) : Except W32 MoveDesc :=
  let h := w64At bs 0
  if !flamOk h (w64At bs 8) then .error stHeader
  else if w64Bits h 0 4 ≠ 1 then .error stVersion
  else
    match moveKindOf (w64Bits h 4 4) with
    | none => .error stReserved
    | some kind =>
      let d := MoveDesc.ofBytes kind bs
      match firstStatus
        [(d.reservedBad bs, stReserved), (d.lengthBad, stLength), (d.boundsBad sramBytes k.streams k.bells.length, stBounds),
         (d.remote && s.net.frozen && !s.net.inShape d.remoteCoord, stBounds)] with
      | some st => .error st
      | none => if d.remote && !s.net.frozen then .error stNoRoute else .ok d

/-- The virtual side of a descriptor: its address, whether it is written, and its span (R222). -/
def MoveDesc.virtSide (d : MoveDesc) : Option (W64 × Bool × Nat) :=
  if d.empty then none
  else if d.srcSide = .virt then some (d.src, false, d.srcSpan)
  else if d.dstSide = .virt then some (d.dst, true, d.dstSpan)
  else none

/-- What R225 says of a descriptor's XLAT: reuse it, discard a mismatched one, or translate afresh. -/
inductive XlatUse where
  | reuse (l : Leaf)
  | mismatch
  | afresh
  deriving DecidableEq, Repr

/-- The page a valid XLAT names for a virtual address (R223). -/
def leafOfXlat (v : W64) (va : Nat) : Leaf :=
  let size := pageSize (w64Bits v 33 2)
  { vbase := va - va % size, size := size, pbase := w64Bits v 0 33 * 4096, rd := w64Bits v 35 1 = 1, wr := w64Bits v 36 1 = 1 }

/-- The conditions of R225, in their order. -/
def State.xlatUse (s : State) (x : Tile) (off device : Nat) (va : W64) (write : Bool) : XlatUse :=
  let v := w64At (x.load (off + 0x40) 16) 0
  let c := w64At (x.load (off + 0x40) 16) 8
  if !(x.xheld.get false (off / 128)) then .afresh
  else if !flamOk v c then .mismatch
  else if w64Bits v 37 1 = 1 && w64Bits v 33 2 ≠ 3 && (if write then w64Bits v 36 1 = 1 else w64Bits v 35 1 = 1)
      && w64Bits v 40 24 = (s.xlat.gen device).toNat && !s.xlat.reuseSuspended device then .reuse (leafOfXlat v va.toNat)
  else .afresh

/-- Stores one in-flight descriptor back at its place. -/
def Tile.setDesc (x : Tile) (i : Nat) (d : InFlight) : Tile := { x with descs := x.descs.set i d }

def State.setDesc (s : State) (t : TileId) (i : Nat) (d : InFlight) : State := s.setTile t ((s.tile t).setDesc i d)

/-- A descriptor refused with a status: it waits for its turn, unless no stream can be trusted (R158). -/
def InFlight.refuse (f : InFlight) (st : W32) (atOnce : Bool) : InFlight :=
  { f with phase := .failed, status := st, atOnce := atOnce }

/-- Check 4 of R157 on the page found; then the descriptor is accepted (R222). -/
def InFlight.accept (f : InFlight) (k : Kernel) (va : W64) (span : Nat) (l : Leaf) : InFlight :=
  let host : Bool := regionOf l.pbase = .host
  if va.toNat - l.vbase + span > l.size || (host && !k.hostWindow) then f.refuse stBounds false
  else { f with phase := .accepted, vbase := l.vbase, pbase := l.pbase, psize := l.size, host := host }

/-- Translates a descriptor's virtual side and accepts it, refuses it, or places a fault (R222, R225, R227). -/
def State.descTranslate (s : State) (t : TileId) (i : Nat) (f : InFlight) (k : Kernel) (va : W64) (write : Bool)
    (span : Nat) : State :=
  let x := s.tile t
  match s.xlatUse x f.off (ctxDevice k.ctx) va write with
  | .reuse l => s.setDesc t i (f.accept k va span l)
  | u =>
    let s0 := if u = .mismatch then s.flamMismatch else s
    let r := s0.translate (tileDie t) k.ctx va write
    match r.2 with
    | .inl l =>
      let y := (r.1.tile t).setDesc i (f.accept k va span l)
      let v := xlatWord l (r.1.xlat.gen (ctxDevice k.ctx))
      let z := y.storeOwn (f.off + 0x40) (bytesOfNat 8 v.toNat ++ bytesOfNat 8 (~~~ v).toNat)
      r.1.setTile t { z with xheld := z.xheld.set false (f.off / 128) true }
    | .inr (.status st) => r.1.setDesc t i (f.refuse st false)
    | .inr (.fault c lvl last) =>
      if c = 6 && r.1.cxl.state = 3 then r.1.setDesc t i (f.refuse stHostLost false)
      else
        (r.1.setDesc t i { f with phase := .faulted }).placeFault t.val (tileDie t) 1 t.val k.ctx
          (BitVec.ofNat 32 (f.off % 2 ^ 23 + (match f.d with
            | some d => d.stream
            | none => 0) * 2 ^ 23)) va write c lvl last

/-- The bell of a completed descriptor is rung, if it asks for it (R158). -/
def State.descRing (s : State) (t : TileId) (d : Option MoveDesc) (st : W32) : State :=
  match d with
  | none => s
  | some d =>
    if st ≠ stOk || !d.ringEn || d.kind = .put then s
    else
      match s.localBell t d.bell with
      | none => s
      | some b => (s.ringBell b (d.n.zeroExtend 64) 1#3 (BitVec.ofNat 8 t.val) d.scope).evalWaits (bellDie b)

/-- A descriptor completes: STATUS, then the ring, then the MSUB signal (R158); it leaves the tile's descriptors in flight. -/
def State.descFinish (s : State) (t : TileId) (i : Nat) (f : InFlight) (st : W32) : State :=
  let x := (s.tile t).storeOwn (f.off + 0x38) (bytesOfNat 4 st.toNat ++ bytesOfNat 4 f.ext.toNat)
  let s1 := s.setTile t x
  let s2 := s1.descRing t f.d st
  let y := s2.tile t
  s2.putTile t (Tile.signal { y with descs := y.descs.eraseIdx i } f.tok f.pc f.idx)

/-- The move engine accepts the first descriptor that MSUB has handed on; none while one is stalled in a fault (R157, R222,
R227). A descriptor whose stream cannot be trusted completes at once (R158). -/
def State.descAccept (s : State) (t : TileId) (i : Nat) (f : InFlight) (k : Kernel) : State :=
  let x := s.tile t
  let known := f.d
  let chk := match known with
    | some d => Except.ok d
    | none => s.descCheck k x.sramBytes (x.load f.off 128)
  match chk with
  | .error st =>
    let strm := w64Bits (w64At (x.load f.off 128) 0) 16 8
    let once := st = stHeader || st = stVersion || strm ≥ k.streams
    let kind := moveKindOf (w64Bits (w64At (x.load f.off 128) 0) 4 4)
    let g := { f.refuse st once with
      d := if once then none else some (MoveDesc.ofBytes (kind.getD .copy) (x.load f.off 128)) }
    let s1 := if st = stHeader then s.flamMismatch else s
    if once then s1.descFinish t i g st else s1.setDesc t i g
  | .ok d =>
    let g := { f with d := some d }
    match d.virtSide with
    | none => s.setDesc t i { g with phase := .accepted }
    | some v => s.descTranslate t i g k v.1 v.2.1 v.2.2

def execDescriptorAccept (t : TileId) (s : State) : Host.Outcome State Fault Refusal :=
  let x := s.tile t
  match x.descs.findIdx? (fun f => f.phase = .submitted), x.kernel.bind s.kernel with
  | some i, some k =>
    match x.descs[i]? with
    | none => .next s
    | some f => .next (if x.descs.any fun f => f.phase = .faulted then s else s.descAccept t i f k)
  | _, _ => .next s

/-- The stream of a descriptor in flight; none while it is unknown or cannot be trusted. A refused descriptor of unknown kind
keeps its stream's place through `d`. -/
def InFlight.stream? (f : InFlight) : Option Nat := f.d.map (·.stream)

/-- A descriptor's turn in its stream: no earlier one of the stream is still in flight (R154). -/
def Tile.turn (x : Tile) (i : Nat) (f : InFlight) : Bool :=
  (x.descs.take i).all fun g => g.stream?.isSome && g.stream? ≠ f.stream?

/-- The source rows of a descriptor, read from tile SRAM or memory, with the status of the reads. -/
def State.readRows (s : State) (t : TileId) (f : InFlight) (d : MoveDesc) : State × W32 × List (List Byte) :=
  (List.range d.rows).foldl (fun (st : State × W32 × List (List Byte)) r =>
    match d.srcSide with
    | .sram => (st.1, st.2.1, st.2.2 ++ [(st.1.tile t).load (d.src.toNat + r * d.srcStride) d.rowBytes])
    | .virt =>
      let a := f.pbase + (d.src.toNat - f.vbase) + r * d.srcStride
      let m := st.1.readMem a d.rowBytes (tileDie t)
      (m.st, if st.2.1 = stOk then m.status else st.2.1, st.2.2 ++ [m.data])
    | .none => st) (s, stOk, [])

/-- Writes destination rows to tile SRAM or memory, with the status of the writes. -/
def State.writeRows (s : State) (t : TileId) (f : InFlight) (d : MoveDesc) (rows : List (List Byte)) : State × W32 :=
  rows.zipIdx.foldl (fun (st : State × W32) r =>
    match d.dstSide with
    | .sram => (st.1.setTile t ((st.1.tile t).store (d.dst.toNat + r.2 * d.dstStride) r.1), st.2)
    | .virt =>
      let m := st.1.writeMem (f.pbase + (d.dst.toNat - f.vbase) + r.2 * d.dstStride) r.1 (tileDie t)
      (m.st, if st.2 = stOk then m.status else st.2)
    | .none => st) (s, stOk)

/-- The destination range of a failed transfer is undefined (R158). -/
def State.undefinedRows (s : State) (t : TileId) (f : InFlight) (d : MoveDesc) : State :=
  (List.range d.dstRows).foldl (fun s r =>
    match d.dstSide with
    | .sram =>
      (s.setTile t ((s.tile t).store (d.dst.toNat + r * d.dstStride)
        ((List.range d.dstRow).map (Config.freeByte s.fresh)))).drawn
    | .virt => s.undefinedSpan (f.pbase + (d.dst.toNat - f.vbase) + r * d.dstStride) d.dstRow
    | .none => s) s

/-- The destination rows that a kind makes of the source rows (R156). -/
def MoveDesc.output (d : MoveDesc) (src : List (List Byte)) : List (List Byte) :=
  let w := elemBits d.esize
  match d.kind with
  | .transpose =>
    let ns := src.map natOfBytes
    (List.range d.cols).map fun c => bytesOfNat d.dstRow (packBits w (ns.map fun n => bitsOf n (w * c) w))
  | .fill =>
    (List.range d.rows).map fun _ => bytesOfNat d.dstRow (packBits w (List.replicate d.cols (d.fill.toNat % 2 ^ w)))
  | .inline => [d.data.take d.cols]
  | _ => src

/-- The transfer of a descriptor within the package: its destination is undefined after a lower-tier failure (R158), and a
lost host ends it without access (R231). -/
def State.transfer (s : State) (t : TileId) (i : Nat) (f : InFlight) (d : MoveDesc) : State :=
  if d.empty then s.setDesc t i { f with phase := .done }
  else
    let r := s.readRows t f d
    if r.2.1 ≠ stOk then
      let s1 := if statusCode r.2.1 / 256 = 3 then r.1.undefinedRows t f d else r.1
      s1.setDesc t i (f.refuse r.2.1 false)
    else
      let w := r.1.writeRows t f d (d.output r.2.2)
      if w.2 ≠ stOk then
        let s1 := if statusCode w.2 / 256 = 3 then w.1.undefinedRows t f d else w.1
        s1.setDesc t i (f.refuse w.2 false)
      else w.1.setDesc t i { f with phase := .done }

/-- A descriptor in flight may start: accepted, not revoked, at its turn, and of the kind commanded (R154). -/
def Tile.mayStart (x : Tile) (i : Nat) (kind : MoveKind) : Option (InFlight × MoveDesc) :=
  match x.descs[i]? with
  | none => none
  | some f =>
    match f.d with
    | none => none
    | some d => if f.phase = .accepted && !f.revoked && d.kind = kind && x.turn i f then some (f, d) else none

/-- Runs a descriptor of a kind; a transfer to the host window waits while the link recovers (R421). -/
def State.runDesc (s : State) (t : TileId) (i : Nat) (kind : MoveKind) : State :=
  match (s.tile t).mayStart i kind with
  | none => s
  | some (f, d) => if f.host && s.cxl.state = 2 then s else s.transfer t i f d

/-- COPY, TRANSPOSE, FILL and INLINE (R156). -/
def execCopy (t : TileId) (i : Nat) (s : State) : Host.Outcome State Fault Refusal := .next (s.runDesc t i .copy)
def execTranspose (t : TileId) (i : Nat) (s : State) : Host.Outcome State Fault Refusal := .next (s.runDesc t i .transpose)
def execFill (t : TileId) (i : Nat) (s : State) : Host.Outcome State Fault Refusal := .next (s.runDesc t i .fill)
def execInline (t : TileId) (i : Nat) (s : State) : Host.Outcome State Fault Refusal := .next (s.runDesc t i .inline)

/-- The status with which a descriptor completes, where it can: done, refused, or revoked (R158, R247). -/
def InFlight.outcome (f : InFlight) : Option W32 :=
  match f.phase with
  | .done => some stOk
  | .failed => some f.status
  | .accepted => if f.revoked then some stRevoked else none
  | _ => none

/-- DESCRIPTOR_COMPLETE (R158): at its turn in its stream. -/
def execDescriptorComplete (t : TileId) (i : Nat) (s : State) : Host.Outcome State Fault Refusal :=
  let x := s.tile t
  match x.descs[i]? with
  | none => .next s
  | some f =>
    match f.outcome with
    | none => .next s
    | some st => .next (if x.turn i f then s.descFinish t i f st else s)

end Sys2Proof.Machine
end

