-- ==== Sys2Proof/Machine/Kernel.lean ====
section
/-! DEFINITION. Kernels (R168 to R176): admission, placement, terminate, the completion record; the launch queue (R389, R390)
and the reservation pools (R211, R212). -/

namespace Sys2Proof.Machine

/-- A launch request (R170). -/
structure LaunchReq where
  image : W64
  arg : W64
  tag : W64
  compl : Nat
  ctx : W32
  src : LaunchSrc
  deriving DecidableEq, Repr

/-- The header of a kernel image (R168). -/
structure Image where
  magic : Nat
  genflags : Nat
  bytes : Nat
  preOff : Nat
  preBytes : Nat
  entry : Nat
  recBase : Nat
  sram : Nat
  tileCount : Nat
  place : Nat
  bellHome : Nat
  bellCount : Nat
  streams : Nat
  nearRes : Nat
  deepRes : Nat
  rsvZero : Bool
  deriving DecidableEq, Repr

def Image.ofBytes (bs : List Byte) : Image :=
  { magic := wordAt bs 0, genflags := wordAt bs 4, bytes := (w64At bs 8).toNat, preOff := wordAt bs 0x10,
    preBytes := wordAt bs 0x14, entry := wordAt bs 0x18, recBase := wordAt bs 0x1C, sram := wordAt bs 0x20,
    tileCount := w16At bs 0x24, place := byteAt bs 0x26, bellHome := byteAt bs 0x27, bellCount := w16At bs 0x28,
    streams := w16At bs 0x2A, nearRes := (w64At bs 0x30).toNat, deepRes := (w64At bs 0x38).toNat,
    rsvZero := wordAt bs 0x2C = 0 && natOfBytes ((bs.drop 0x40).take 64) = 0 && bitsOf (wordAt bs 4) 4 4 = 0
      && bitsOf (wordAt bs 4) 11 21 = 0 && bitsOf (byteAt bs 0x26) 4 4 = 0 && bitsOf (byteAt bs 0x27) 4 4 = 0 }

def Image.acceptFold (m : Image) : Bool := bitsOf m.genflags 8 1 = 1
def Image.dieLocal (m : Image) : Bool := bitsOf m.genflags 9 1 = 1
def Image.hostWindow (m : Image) : Bool := bitsOf m.genflags 10 1 = 1
/-- Placement and bell-home policies with their dies (R168, R169). -/
def Image.placePolicy (m : Image) : Nat := bitsOf m.place 0 2
def Image.placeDie (m : Image) : Nat := bitsOf m.place 2 2
def Image.bellPolicy (m : Image) : Nat := bitsOf m.bellHome 0 2
def Image.bellDie (m : Image) : Nat := bitsOf m.bellHome 2 2

/-- Reads bytes through a context, page by page; a failed translation takes no fault record (R170, R173). -/
def State.readVirt (s : State) (die : Nat) (ctx : W32) (va : Nat) (n fuel : Nat) : State × W32 × List Byte :=
  match fuel with
  | 0 => (s, stOk, [])
  | fuel' + 1 =>
    if n = 0 then (s, stOk, [])
    else
      let k := min n (4096 - va % 4096)
      let r := s.translate die ctx (BitVec.ofNat 64 va) false
      match r.2 with
      | .inr (.fault _ _ _) => (r.1, stUnresolved, [])
      | .inr (.status st) => (r.1, st, [])
      | .inl l =>
        let m := r.1.readMem (l.pbase + (va - l.vbase)) k die
        if m.status ≠ stOk then (m.st, m.status, [])
        else
          let rest := m.st.readVirt die ctx (va + k) (n - k) fuel'
          (rest.1, rest.2.1, m.data ++ rest.2.2)

/-- The six pools (R211): near global, near local of dies 0 to 3, deep. -/
def Pool.empty : Pool := { size := 0, held := 0 }

/-- A pool is healthy while every stack it depends on is in service (R211). -/
def MemS.poolHealthy (m : MemS) (p : Nat) : Bool :=
  match p with
  | 0 => (List.range 16).all m.inService
  | 5 => (List.range 8).all fun k => m.inService (16 + k)
  | d => (List.range 4).all fun j => m.inService (4 * (d - 1) + j)

/-- A pool's free amount (R211). -/
def MemS.poolFree (m : MemS) (p : Nat) : Nat :=
  let x := m.pools.get Pool.empty p
  if m.poolHealthy p then x.size - x.held else 0

/-- What an image draws on each pool, in 2 MiB units (R212). -/
def Image.nearDraws (m : Image) : List (Nat × Nat) :=
  let u := m.nearRes / 2 ^ 21
  if !m.dieLocal then [(0, u)]
  else if m.placePolicy = 2 then [(1 + m.placeDie, u)]
  else (List.range 4).map fun d => (1 + d, (m.nearRes / 4 + 2 ^ 21 - 1) / 2 ^ 21)
def Image.deepDraws (m : Image) : List (Nat × Nat) := [(5, m.deepRes / 2 ^ 21)]

/-- A free tile in service (R172). -/
def Tile.free (x : Tile) (acceptFold : Bool) : Bool :=
  (x.health = .full || (acceptFold && x.health = .foldOnly)) && x.kernel.isNone && x.seq = .idle

/-- A tile that a service action takes out is removed from new use at the action's commit (R519). -/
def State.tileLeaving (s : State) (t : TileId) : Bool := s.svc.leaving.any fun u => u.1 = .tile t

/-- The die that a logical tile must lie on (R169). -/
def Image.tileDie? (m : Image) (logical : Nat) : Option Nat :=
  match m.placePolicy with
  | 1 => some (logical % 4)
  | 2 => some m.placeDie
  | _ => none

/-- The die that a local bell must be homed on (R169). -/
def Image.bellDie? (m : Image) (i : Nat) : Option Nat :=
  match m.bellPolicy with
  | 1 => some (i % 4)
  | 2 => some m.bellDie
  | _ => none

/-- Chooses `n` distinct candidates in order, each meeting the die of its place, from a list of free ones. -/
def choose {α : Type} [DecidableEq α] (dieOf : α → Nat) (want : Nat → Option Nat) (n i : Nat) (free : List α) :
    Option (List α) :=
  match n with
  | 0 => some []
  | n' + 1 =>
    match free.find? fun c => match want i with
      | none => true
      | some d => dieOf c = d with
    | none => none
    | some c => (choose dieOf want n' (i + 1) (free.erase c)).map (c :: ·)

/-- The tiles of a kernel: the command processor's preferences first, then ascending (R169, assumption 7). -/
def State.chooseTiles (s : State) (m : Image) (pref : List TileId) : Option (List TileId) :=
  choose tileDie m.tileDie? m.tileCount 0
    (((pref ++ List.finRange 256).eraseDups).filter fun t => (s.tile t).free m.acceptFold && !s.tileLeaving t)

/-- The bells of a kernel (R169). -/
def State.chooseBells (s : State) (m : Image) (pref : List BellId) : Option (List Nat) :=
  let p := (pref.map (·.val)).eraseDups
  choose bellDie m.bellDie? m.bellCount 0
    ((p ++ (List.range 16384).filter fun b => !p.contains b).filter fun b => !(s.bell b).held)

/-- ADMISSION_REFUSED reasons on the image alone (R171), the first in the order of the table. -/
def Image.permanent (m : Image) : Option Nat :=
  if m.preOff % 128 ≠ 0 || m.entry % 8 ≠ 0 || m.entry ≥ m.preBytes || m.recBase % 32 ≠ 0 || m.sram % 4096 ≠ 0
      || m.preBytes > m.sram || m.nearRes % 2 ^ 21 ≠ 0 || m.deepRes % 2 ^ 21 ≠ 0 then some 1
  else if m.tileCount > 256 || (m.placePolicy = 2 && m.tileCount > 64) || (m.placePolicy = 1 && m.tileCount % 4 ≠ 0) then
    some 2
  else if m.bellCount > 4096 then some 3
  else if m.streams > 256 then some 4
  else if m.nearRes > 2 ^ 39 || m.deepRes > 2 ^ 39 then some 5
  else none

/-- Checks 3 to 6 of R170, in the order of R17. -/
def Image.malformed (m : Image) : Option W32 :=
  firstStatus
    [(m.magic ≠ 0x5A424B49 || bitsOf m.genflags 0 4 ≠ 1, stVersion),
     (!m.rsvZero || m.placePolicy = 3 || m.bellPolicy = 3, stReserved),
     (m.tileCount = 0xFFFF || m.bellCount = 0xFFFF || m.streams = 0xFFFF || m.sram = 0xFFFFFFFF || m.nearRes = 2 ^ 64 - 1
       || m.deepRes = 2 ^ 64 - 1 || m.bytes = 2 ^ 64 - 1, stLength),
     (m.preOff + m.preBytes > m.bytes || m.sram > 2 ^ 23, stBounds)]

/-- An admission check: a refusal with its extended word, or the tiles and bells chosen (R170 to R172, R502). -/
def State.admission (s : State) (m : Image) (prefTiles : List TileId) (prefBells : List BellId) :
    Except (W32 × Nat) (List TileId × List Nat) :=
  match m.malformed with
  | some st => .error (st, 0)
  | none =>
    match m.permanent with
    | some r => .error (stAdmission, r)
    | none =>
      match s.chooseTiles m prefTiles, s.chooseBells m prefBells with
      | none, _ => .error (stAdmission, 0x101)
      | some _, none => .error (stAdmission, 0x102)
      | some ts, some bs =>
        if m.nearDraws.any fun d => s.mem.poolFree d.1 < d.2 then .error (stAdmission, 0x103)
        else if m.deepDraws.any fun d => s.mem.poolFree d.1 < d.2 then .error (stAdmission, 0x104)
        else if m.hostWindow && s.kern.sealedMark then .error (stAdmission, 0x105)
        else .ok (ts, bs)

/-- The completion record (R176). -/
def recordBytes (st : W32) (ext : Nat) (tag : W64) (xflags : Nat) (failTile : Option (TileId × Nat)) (tally : W64)
    (seq : W32) : List Byte :=
  bytesOfNat 4 st.toNat ++ bytesOfNat 4 ext ++ bytesOfNat 8 tag.toNat ++ bytesOfNat 4 xflags
    ++ (match failTile with
        | none => bytesOfNat 8 0
        | some f => bytesOfNat 4 (f.1.val + 256) ++ bytesOfNat 4 f.2)
    ++ bytesOfNat 4 4 ++ bytesOfNat 8 tally.toNat ++ bytesOfNat 4 seq.toNat ++ bytesOfNat 20 0

/-- Writes a completion record, an event record of the C-die (R43, R176), and tells the launch's source. -/
def State.writeRecord (s : State) (compl : Nat) (src : LaunchSrc) (st : W32) (ext : Nat) (tag : W64) (xflags : Nat)
    (failTile : Option (TileId × Nat)) : State :=
  let q := s.tocsin.tick s.fresh 4
  let seq := q.seqs.get 0#32 4
  let s1 := { s with tocsin := { q with seqs := q.seqs.set 0#32 4 (seq + 1#32) }, fresh := s.fresh + 1 }
  let s2 := (s1.writeMem compl (recordBytes st ext tag xflags failTile (q.tally 4) seq) 4).st
  match src with
  | .queue => s2.route 1
  | .stream a i =>
    s2.when ((s2.cxl.streams.get StreamS.reset a.val).cmds.any fun c => c.uid = i) fun s =>
      { s with kern := { s.kern with streamDone := s.kern.streamDone ++ [(a, i, st, BitVec.ofNat 32 ext)] } }

/-- A tile with a kernel placed: cleared program state and XFLAGS, S1 to S3, the preload at offset 0, fetch at ENTRY (R173). -/
def Tile.place (x : Tile) (kid logical : Nat) (r : LaunchReq) (m : Image) (preload : List Byte) : Tile :=
  let y : Tile :=
    { x with sregs := [], vregs := [], mregs := [], tokens := [], xflags := 0#7, vdin := [], drains := [], running := [],
             matrixQ := [], vectorQ := [], moveQ := [], rings := [], waiting := none, descs := [], xheld := [], appended := 0,
             pc := m.entry, seq := .running, kernel := some kid, logical := logical, tag := r.tag, recBase := m.recBase,
             sramBytes := m.sram, stop := 0#32, failPc := 0, ownStop := false, stopDue := none }
  (((y.setSreg 1 (BitVec.ofNat 64 logical)).setSreg 2 (BitVec.ofNat 64 m.tileCount)).setSreg 3 r.arg).storeOwn 0 preload

/-- Places a kernel on one tile; a preload that cannot be read stops the tile at ENTRY (R173). -/
def State.placeTile (s : State) (kid : Nat) (r : LaunchReq) (m : Image) (t : TileId × Nat) : State :=
  let p := s.readVirt 4 r.ctx (r.image.toNat + m.preOff) m.preBytes (m.preBytes / 4096 + 2)
  let x := p.1.tile t.1
  let due := (match p.1.kernel kid with
    | none => []
    | some k => k.tiles).findSome? fun u =>
      let y := p.1.tile u
      if y.kernel = some kid && y.stopped && y.ownStop then some y.stop else none
  if p.2.1 = stOk then p.1.setTile t.1 { x.place kid t.2 r m p.2.2 with stopDue := due }
  else p.1.putTile t.1 ((x.place kid t.2 r m []).fail p.2.1 m.entry 0)

/-- Adds to the units that a pool holds. -/
def MemS.draw (m : MemS) (d : Nat × Nat) : MemS :=
  { m with pools := m.pools.modify Pool.empty d.1 fun p => { p with held := p.held + d.2 } }
def MemS.release (m : MemS) (d : Nat × Nat) : MemS :=
  { m with pools := m.pools.modify Pool.empty d.1 fun p => { p with held := p.held - d.2 } }

/-- A kernel that passed its check takes all it needs at once: pools, bells SET to zero, contexts dropped, tiles placed (R165,
R173, R250). A kernel without tiles completes at once and holds nothing. -/
def State.enrol (s : State) (r : LaunchReq) (m : Image) (ts : List TileId) (bs : List Nat) : State :=
  if m.tileCount = 0 then s.writeRecord r.compl r.src stOk 0 r.tag 0 none
  else
    let kid := s.kern.nextKid
    let draws := m.nearDraws ++ m.deepDraws
    let k : Kernel :=
      { tag := r.tag, compl := r.compl, ctx := r.ctx, src := r.src, tiles := ts, bells := bs, draws := draws,
        hostWindow := m.hostWindow, streams := m.streams, terminated := false, clearing := false }
    let s1 := { s.setKernel kid (some k) with
      mem := draws.foldl MemS.draw s.mem
      bells := bs.foldl (fun b i => b.modify Bell.reset i fun x => { x.set 0#64 with held := true }) s.bells
      xlat := { s.xlat with ctxs := s.xlat.ctxs.filter fun c => !(c.device = ctxDevice r.ctx && c.process = ctxProcess r.ctx) } }
    ts.zipIdx.foldl (fun s t => s.placeTile kid r m t) { s1 with kern := { s1.kern with nextKid := kid + 1 } }

/-- One launch request, checked in the order of R170: context, header, image; refused with a record, or admitted. -/
def State.launchReq (s : State) (r : LaunchReq) (prefTiles : List TileId) (prefBells : List BellId) : State :=
  let refuse := fun (s : State) (st : W32) (ext : Nat) => s.writeRecord r.compl r.src st ext r.tag 0 none
  let c := s.launchCtx r.ctx
  if !c.2 then refuse c.1 stAdmission 6
  else
    let h := c.1.readVirt 4 r.ctx r.image.toNat 128 3
    if h.2.1 ≠ stOk then refuse h.1 h.2.1 0
    else
      let m := Image.ofBytes h.2.2
      match h.1.admission m prefTiles prefBells with
      | .error e => refuse h.1 e.1 e.2
      | .ok c => h.1.enrol r m c.1 c.2

/-- Terminates one running kernel (R174). -/
def State.terminateOne (s : State) (kid : Nat) (k : Kernel) : State :=
  { s.setKernel kid (some { k with terminated := true }) with tiles := k.tiles.foldl (markStop stTerminated) s.tiles }

/-- Terminates the kernels of a kind. -/
def State.terminateWhere (s : State) (which : Kernel → Bool) : State :=
  s.kern.kernels.foldl (fun s e => match e.2 with
    | some k => if which k then s.terminateOne e.1 k else s
    | none => s) s

/-- Terminates every running kernel with a tag (R174, R390): how many there were. -/
def State.terminateTag (s : State) (tag : W64) : State × Nat :=
  let hits := s.kern.kernels.filterMap fun e => match e.2 with
    | some k => if k.tag = tag then some (e.1, k) else none
    | none => none
  (hits.foldl (fun s h => s.terminateOne h.1 h.2) s, hits.length)

/-! ### The sources of launches (R390, R412) -/

/-- How a command of a stream ended, once it has: a LAUNCH when its record has been written, a TERMINATE when every kernel it
matched has written its record (R410). -/
def State.cmdEnd (s : State) (k : StreamId) (c : StreamCmd) : Option (W32 × W32) :=
  match c.phase with
  | .done => some (c.status, c.ext)
  | .started =>
    if c.op = 4 then (s.kern.streamDone.find? fun d => d.1 = k && d.2.1 = c.uid).map fun d => d.2.2
    else if c.op = 5 && c.kids.all (fun n => (s.kernel n).isNone) then some (stOk, BitVec.ofNat 32 c.kids.length)
    else none
  | _ => none

def State.stream (s : State) (k : StreamId) : StreamS := s.cxl.streams.get StreamS.reset k.val

/-- A completion ring holds as many unconsumed entries as it has (R413). -/
def StreamS.cqFull (x : StreamS) : Bool := (x.cqTail + 2 * 2 ^ x.clog2 - x.cqHead) % (2 * 2 ^ x.clog2) ≥ 2 ^ x.clog2

/-- LAUNCH and TERMINATE, which the command processor takes. -/
def StreamCmd.launches (c : StreamCmd) : Bool := c.op = 4 || c.op = 5

/-- A command waits for every earlier one: FENCE, RING, or its FENCE flag (R404, R411, R412). -/
def StreamCmd.fenced (c : StreamCmd) : Bool := c.fence || c.op = 6 || c.op = 8

/-- Command i of a stream may start (R412, R413): those before it have started, LAUNCH and TERMINATE apart, which keep an order of
their own; every earlier FENCE, WAIT, RING and FENCE flag is satisfied; fewer than 64 are in progress; the completion ring has
room. -/
def State.mayStart (s : State) (k : StreamId) (i : Nat) : Bool :=
  let x := s.stream k
  let ended := fun (c : StreamCmd) => (s.cmdEnd k c).isSome
  match x.cmds[i]? with
  | none => false
  | some c =>
    let before := x.cmds.take i
    let lastFence := (before.zipIdx.filter fun p => p.1.fence).map (·.2)
    (x.state = 1 || x.state = 2) && c.phase = .accepted && !x.cqFull
      && (before.all fun b => b.phase ≠ .accepted || (b.launches && !c.launches))
      && (before.all fun b => (b.op ≠ 6 && b.op ≠ 7 && b.op ≠ 8) || ended b)
      && (lastFence.all fun j => (before.take j).all ended) && (!c.fenced || before.all ended)
      && (x.cmds.filter fun b => (b.phase = .translated || b.phase = .started) && !ended b).length < 64

/-- A stream has a LAUNCH or TERMINATE ready for the command processor. -/
def State.streamReady (s : State) (k : StreamId) : Bool :=
  match (s.stream k).cmds.findIdx? fun c => c.launches && c.phase = .accepted with
  | none => false
  | some i => s.mayStart k i

/-- A ring has an entry to take. -/
def Ring.ready (r : Ring) : Bool := r.en && r.head ≠ r.tail

/-- Source 0, the launch queue, or 1 + k, stream k, has a launch or terminate ready. -/
def State.sourceReady (s : State) (n : Nat) : Bool :=
  if n = 0 then s.kern.lq.ready else s.streamReady (Fin.ofNat 256 (n - 1))

/-- The command processor's next visit that finds one ready is to this source (R390). -/
def State.visits (s : State) (n : Nat) : Bool :=
  ((List.range 257).map fun j => (s.kern.nextSource + j) % 257).find? s.sourceReady = some n

/-- The source is served: the round continues from the next (R390). -/
def KernS.served (k : KernS) (n : Nat) : KernS := { k with nextSource := (n + 1) % 257 }

/-! ### The launch queue (R389, R390) -/

/-- The address of the entry at a ring's head, of `size` bytes each. -/
def Ring.entry (r : Ring) (size : Nat) : Nat := r.base + size * (r.head % 2 ^ r.log2)

/-- A ring with its head advanced, modulo twice the ring size. -/
def Ring.advance (r : Ring) : Ring := { r with head := (r.head + 1) % 2 ^ (r.log2 + 1) }

/-- The checks of an entry in the order of R390, for its kind. -/
def lqCheck (bs : List Byte) : Option W32 :=
  let h := w64At bs 0
  let kind := w64Bits h 4 4
  let term : Bool := kind = 1
  let compl := (w64At bs 0x28).toNat
  firstStatus
    [(!flamOk h (w64At bs 8), stHeader), (w64Bits h 0 4 ≠ 1, stVersion),
     (kind > 1 || w64Bits h 8 56 ≠ 0 || natOfBytes ((bs.drop 0x34).take 12) ≠ 0
       || (term && (natOfBytes ((bs.drop 0x10).take 16) ≠ 0 || natOfBytes ((bs.drop 0x28).take 12) ≠ 0)), stReserved),
     (!term && (compl % 64 ≠ 0 || !inMem compl 64), stBounds)]

/-- An entry is skipped: LQ_ERR names it, and no record is written (R390). -/
def KernS.skip (k : KernS) (st : W32) : KernS :=
  { k with lqErrCode := BitVec.ofNat 16 (statusCode st), lqSkip := true, lqErrIndex := k.lq.head, lq := k.lq.advance }

/-- Takes the head entry of the launch queue: skipped with its status, or its bytes with LQ_HEAD advanced (R390). -/
def State.lqTake (s : State) (want : Nat) : State × Option (List Byte) :=
  if !s.visits 0 then (s, none)
  else
    let r := s.readMem (s.kern.lq.entry 64) 64 4
    let st := if r.status ≠ stOk then some r.status else lqCheck r.data
    match st with
    | some st =>
      let s1 := if st = stHeader then r.st.flamMismatch else r.st
      ({ s1 with kern := (s1.kern.skip st).served 0 }, none)
    | none =>
      if w64Bits (w64At r.data 0) 4 4 ≠ want then (s, none)
      else ({ r.st with kern := ({ r.st.kern with lq := r.st.kern.lq.advance } : KernS).served 0 }, some r.data)

/-- LAUNCH (R390): the head entry of the launch queue is checked and its launch admitted or refused. -/
def execLaunch (prefTiles : List TileId) (prefBells : List BellId) (s : State) : Host.Outcome State Fault Refusal :=
  let r := s.lqTake 0
  match r.2 with
  | none => .next r.1
  | some bs =>
    .next (r.1.launchReq
      { image := w64At bs 0x10, arg := w64At bs 0x18, tag := w64At bs 0x20, compl := (w64At bs 0x28).toNat,
        ctx := w32At bs 0x30, src := .queue } prefTiles prefBells)

/-- TERMINATE (R390): the head entry terminates every running kernel of its tag; NOMATCH where there is none. -/
def execTerminate (s : State) : Host.Outcome State Fault Refusal :=
  let i := s.kern.lq.head
  let r := s.lqTake 1
  match r.2 with
  | none => .next r.1
  | some bs =>
    let k := r.1.terminateTag (w64At bs 0x20)
    .next (if k.2 = 0 then { k.1 with kern := { k.1.kern with lqNoMatch := true, lqErrIndex := i } } else k.1)

/-! ### The end of a kernel -/

/-- A tile of a kernel has ended or stopped, with all its work (R174, R175). -/
def Tile.ended (x : Tile) : Bool := x.seq = .idle || (x.stopped && x.drained)

/-- A kernel's status, and the tile it names (R174). -/
def State.kernelStatus (s : State) (k : Kernel) : W32 × Option (TileId × Nat) :=
  match k.tiles.find? fun t => (s.tile t).stopped && (s.tile t).ownStop with
  | some t => ((s.tile t).stop, some (t, (s.tile t).failPc))
  | none => (if k.terminated then stTerminated else stOk, none)

/-- Bells and reservations of an ended kernel are released (R175, R212). -/
def State.releaseKernel (s : State) (kid : Nat) (k : Kernel) : State :=
  { s.setKernel kid none with
    bells := k.bells.foldl (fun b i => b.modify Bell.reset i fun x => { x with held := false }) s.bells
    mem := k.draws.foldl MemS.release s.mem
    xlat := { s.xlat with suspended :=
      s.xlat.suspended.foldl (fun m e => m.set [] e.1 (e.2.filter (· ≠ kid))) s.xlat.suspended } }

/-- COMPLETION_RECORD (R175): once every tile has stopped, bells and reservations are released, the record is written and the
tile clear starts. -/
def execCompletionRecord (kid : Nat) (s : State) : Host.Outcome State Fault Refusal :=
  match s.kernel kid with
  | none => .next s
  | some k =>
    if !(k.tiles.all fun t => (s.tile t).ended) then .next s
    else
      let st := s.kernelStatus k
      let xf := k.tiles.foldl (fun a t => a ||| (s.tile t).xflags) 0#7
      let s1 := (s.releaseKernel kid k).writeRecord k.compl k.src st.1 0 k.tag xf.toNat st.2
      .next { s1 with tiles := k.tiles.foldl (fun m t =>
        m.modify Tile.reset t.val fun x => { x with seq := .clearing, kernel := none }) s1.tiles }

end Sys2Proof.Machine
end

