-- ==== Sys2Proof/Machine/Memory.lean ====
section
/-! DEFINITION. The memory system's own commands (R183, R187, R190, R196 to R199, R212 to R216): requests at a home, scrub, the
correctable counts, timeouts, the interleave registers, the pools, and a stack leaving service. -/

namespace Sys2Proof.Machine

/-- The die of a requester, 4 for the C-die (R199). -/
def agentDie (a : Agent) : Nat :=
  match a with
  | .descriptor t _ => tileDie t
  | .core _ => 4
  | .cache => 4
  | .clapper u => ctrlDie u.val
  | .peal s => s.val / 4
  | .port p => p.val / 2
  | .cxlMem => 4
  | .migration => 4
  | .stream _ _ => 4

/-- MEMORY_READ (R188, R196, R204): one request at the home of an address; the requester gets its status and data. -/
def execMemoryRead (a : Agent) (addr len : Nat) (s : State) : Host.Outcome State Fault Refusal :=
  .next (if s.hostWaits addr then s
    else
      let r := s.readMem addr len (agentDie a)
      r.st.answer r.status r.data)

/-- MEMORY_WRITE (R186, R189, R196, R204). -/
def execMemoryWrite (a : Agent) (addr : Nat) (bytes : List Byte) (s : State) : Host.Outcome State Fault Refusal :=
  .next (if s.hostWaits addr then s
    else
      let r := s.writeMem addr bytes (agentDie a)
      r.st.answer r.status [])

/-- The physical codeword at a local offset is found by its address; the patrol keeps its place as a codeword number of the
stack's tier. It takes the next codeword that its controller homes, at most 24 * 2 steps on (R181, R182, R185). -/
def MemS.patrolNext (m : MemS) (c from_ fuel : Nat) : Nat :=
  match fuel with
  | 0 => from_
  | fuel' + 1 => if m.homeOf (from_ * 64) = c then from_ else m.patrolNext c (from_ + 32 - from_ % 32) fuel'

/-- The codewords of a controller's tier: 512 GiB from the tier's base. -/
def tierBase (c : Nat) : Nat := if c < 16 then 0 else 2 ^ 33
def tierEnd (c : Nat) : Nat := tierBase c + 2 ^ 33

/-- The controller's patrol after a codeword: at the end of the tier a pass is complete (R190, R193). -/
def MemCtrl.patrolled (k : MemCtrl) (c cw : Nat) : MemCtrl :=
  if cw + 1 ≥ tierEnd c then { k with patrol := tierBase c, passes := k.passes + 1#16 } else { k with patrol := cw + 1 }

/-- PATROL_SCRUB (R190): the next codeword of the stack is read; an error found is corrected and written back, or the codeword
is poisoned. A PERIOD of 0 stops the patrol; a stack out of service has none. -/
def execPatrolScrub (c : Ctrl) (s : State) : Host.Outcome State Fault Refusal :=
  let k := s.mem.ctrl c.val
  if k.period = 0#8 || k.state ≠ 0 then .next s
  else
    let cw := s.mem.patrolNext c.val (max k.patrol (tierBase c.val)) 64
    let r := (s.readCodeword cw 1 false).1
    .next { r with mem := r.mem.setCtrl c.val ((r.mem.ctrl c.val).patrolled c.val cw) }

/-- CE_INNER_COLLECT (R187): every second the dies' inner corrections are added. -/
def execCeInnerCollect (c : Ctrl) (n : Nat) (s : State) : Host.Outcome State Fault Refusal := .next (s.countInner c.val n)

/-- A request times out at its limit (R197): its response will be discarded when it comes. -/
def MemS.timeOut (m : MemS) (a : Agent) (addr : Nat) : MemS := { m with timedOut := m.timedOut ++ [(a, addr)] }

/-- A descriptor whose request timed out ends with 0x0302, its destination undefined (R158, R196). -/
def State.descTimeout (s : State) (t : TileId) (i : Nat) : State :=
  match (s.tile t).descs[i]? with
  | none => s
  | some f =>
    match f.d with
    | none => s
    | some d =>
      if f.phase = .accepted && !f.revoked && f.psize ≠ 0 && (s.tile t).turn i f then
        (s.undefinedRows t f d).setDesc t i (f.refuse stTierTimeout false)
      else s

/-- LATE_RESPONSE_DISCARD (R197): a response to a request that has timed out is discarded. -/
def execLateResponseDiscard (a : Agent) (addr : Nat) (s : State) : Host.Outcome State Fault Refusal :=
  .next { s with mem := { s.mem with timedOut := s.mem.timedOut.erase (a, addr) } }

/-- QMODE_LO or QMODE_HI (R183, R214): a write that changes a bit increments MAP_GEN and leaves the contents of the quads
changed undefined: every byte of them reads as a free byte of this draw. -/
def execQmodeWrite (hi : Bool) (v : W64) (s : State) : Host.Outcome State Fault Refusal :=
  let q : BitVec 128 := if hi then v ++ s.mem.qmode.truncate 64 else (s.mem.qmode >>> 64).truncate 64 ++ v
  if q = s.mem.qmode then .next s
  else
    let d := q ^^^ s.mem.qmode
    .next (State.drawn { s with mem := { s.mem with
      qmode := q
      mapGen := s.mem.mapGen + 1#32
      mem := s.mem.mem.filter fun e => !(regionOf e.1 = .near && d.getLsbD (e.1 / 2 ^ 32))
      undef := (List.range 128).foldl (fun u k =>
        if d.getLsbD k then u.setRun 0 (16 * k) (List.replicate 16 (s.fresh + 1)) else u) s.mem.undef } })

/-- The units a pool can have (R214). -/
def poolCapacity (p : Nat) : Nat := if p = 0 || p = 5 then 262144 else 65536

/-- A POOL register (R211, R214): HELD is read-only; a reserved bit or a size above the tier's capacity discards the write. -/
def execPoolWrite (pool : Fin 6) (v : W64) (s : State) : Host.Outcome State Fault Refusal :=
  let n := w64Bits v 0 19
  .next (if w64Bits v 19 13 ≠ 0 || w64Bits v 51 13 ≠ 0 || n > poolCapacity pool.val then s.discard
    else { s with mem := { s.mem with pools := s.mem.pools.modify Pool.empty pool.val fun p => { p with size := n } } })

/-- A stack leaves service: its regions end accesses with 0x0301, its pools are unhealthy, MAP_GEN increments (R198, R215). -/
def State.stackOut (s : State) (c : Nat) : State :=
  let k := s.mem.ctrl c
  if k.state = 2 then s
  else { s with mem := { s.mem.setCtrl c { k with state := 2 } with mapGen := s.mem.mapGen + 1#32 } }

/-- STACK_FAILURE (R215, R519). -/
def execStackFailure (c : Ctrl) (s : State) : Host.Outcome State Fault Refusal :=
  .next (if (s.mem.ctrl c.val).state = 2 then s else (s.stackOut c.val).unitLeft (ctrlKind c.val) (ctrlUnit c.val) 2)

/-- A stack is initialised: zero data, valid check bytes, no poison (R216). -/
def MemS.initStack (m : MemS) (c : Nat) : MemS :=
  let mine := fun (a : Nat) => (regionOf a = .near || regionOf a = .deep) && m.homeOf a = c
  { m with
    mem := m.mem.filter fun e => !mine e.1
    undef := if c < 16 then (List.range 128).foldl (fun u k => u.set 0 (16 * k + c) 0) m.undef else m.undef
    poison := m.poison.filter fun e => !mine (e.1 * 64)
    cwErr := m.cwErr.filter fun e => !mine (e.1 * 64) }

end Sys2Proof.Machine
end

