-- ==== Sys2Proof/Machine/Cache.lean ====
section
/-! DEFINITION. The C-die caches (R200 to R203, R205, R545), the atomics of the cores (R208 to R210), the cache-block and range
operations (R265, R378 to R380). The caches are coherent, so a line has one cached value. -/

namespace Sys2Proof.Machine

/-- The physical address of the line that holds an address (R186). -/
def lineOf (a : Nat) : Nat := a - a % 128

def CacheS.line (k : CacheS) (a : Nat) : Option CacheLine := k.lines.get none (a / 128)
def CacheS.setLine (k : CacheS) (a : Nat) (l : Option CacheLine) : CacheS := { k with lines := k.lines.set none (a / 128) l }
def State.setLine (s : State) (a : Nat) (l : Option CacheLine) : State := { s with cache := s.cache.setLine a l }

/-- A codeword fetched for a cache: its bytes, and whether it is good (R196, R198). -/
def State.fetchCodeword (s : State) (a : Nat) : State × List Byte × Bool :=
  match regionOf a with
  | .host => (s, s.mem.host.getRun 0#8 (hostAddr a) 64, s.hostServes && !s.mem.hostPoisoned (hostAddr a) 64)
  | _ =>
    if !s.serves a 4 then (s, s.mem.load a 64, false)
    else
      let r := s.readCodeword (a / 64) 0 true
      (r.1, s.mem.load a 64, r.2)

/-- A line filled by a miss: one request at its home, both codewords, each poisoned if its read failed (R196, R201). -/
def State.missLine (s : State) (a : Nat) : State × CacheLine :=
  let l := lineOf a
  let x := (s.countAccess l 4 false).fetchCodeword l
  let y := x.1.fetchCodeword (l + 64)
  (y.1, { data := x.2.1 ++ y.2.1, dirty := false, poison0 := !x.2.2, poison1 := !y.2.2, holders := [], excl := false,
          inSystem := false, hint := false, amoBy := none })

/-- A write-back of one codeword of a line: poison travels with it (R189, R196). -/
def State.storeCodeword (s : State) (a : Nat) (bs : List Byte) (poisoned : Bool) : State :=
  match regionOf a with
  | .host =>
    let u := hostAddr a / 64
    { s with mem := { s.mem with host := s.mem.host.setRun 0#8 (hostAddr a) bs, hostPoison := s.mem.hostPoison.set false u poisoned } }
  | _ =>
    let m := s.mem.store a bs
    { s with mem := { m with poison := m.poison.set false (a / 64) poisoned, cwErr := m.cwErr.set CwErr.none (a / 64) CwErr.none } }

/-- What a write-back finds at the home: taken, the host lost (R379), or the stack out of service (R545). -/
def State.homeTakes (s : State) (a : Nat) : W32 :=
  if regionOf a = .host then (if s.hostServes then stOk else stHostLost)
  else if s.serves a 4 then stOk else stTierError

/-- A dirty line is written home and stays, clean; where its home cannot take it the line is discarded and counted (R379,
R545). The status says which. The write-back of a clean is no request that the access counters count (R239). -/
def State.writeBack (s : State) (count : Bool) (a : Nat) : State × W32 :=
  match s.cache.line a with
  | none => (s, stOk)
  | some l =>
    if !l.dirty then (s, stOk)
    else
      let st := s.homeTakes a
      if st ≠ stOk then ((s.setLine a none).discard, st)
      else
        let s1 := (s.when count fun s => s.countAccess (lineOf a) 4 true).storeCodeword (lineOf a) (l.data.take 64) l.poison0
        let s2 := s1.storeCodeword (lineOf a + 64) (l.data.drop 64) l.poison1
        (s2.setLine a (some { l with dirty := false }), stOk)

/-- The write-back of a line waits: it timed out and is to be sent again (R545), or the CXL link recovers (R421). -/
def State.writeBackWaits (s : State) (a : Nat) : Bool :=
  match s.cache.line a with
  | none => false
  | some l => l.dirty && (s.cache.retry.contains (a / 128) || s.hostWaits a)

/-- A core that loses ownership of a line it last touched with an AMO learns it (R210). -/
def CacheS.learn (k : CacheS) (c : CoreId) (line : Nat) : CacheS :=
  let es := k.predictor.get [] c.val
  let n := match es.find? fun e => e.1 = line with
    | none => 1
    | some e => min 3 (e.2 + 1)
  { k with predictor := k.predictor.set [] c.val (((line, n) :: es.filter fun e => e.1 ≠ line).take 64) }

/-- The predictor's count for a line (R210). -/
def CacheS.predicted (k : CacheS) (c : CoreId) (line : Nat) : Nat :=
  match (k.predictor.get [] c.val).find? fun e => e.1 = line with
  | none => 0
  | some e => e.2

/-- A home AMO that finds no other cache holding the line decrements its entry (R210). -/
def CacheS.forget (k : CacheS) (c : CoreId) (line : Nat) : CacheS :=
  { k with predictor := k.predictor.set [] c.val ((k.predictor.get [] c.val).map fun e =>
      if e.1 = line then (e.1, e.2 - 1) else e) }

/-- Another core's access takes ownership of a line away (R205, R210). -/
def CacheS.takeFrom (k : CacheS) (c : CoreId) (a : Nat) : CacheS :=
  match (k.line a).bind CacheLine.amoBy with
  | none => k
  | some d => if d = c then k else k.learn d (a / 128)

/-- A core obtains a line: a copy for a read, or the only copy for a write (R205). -/
def State.obtain (s : State) (c : CoreId) (a : Nat) (excl hint : Bool) : State :=
  let r : State × CacheLine := match s.cache.line a with
    | none => s.missLine a
    | some l => ({ s with cache := s.cache.takeFrom c a }, l)
  let l := r.2
  let others := l.holders.filter (· ≠ c)
  let shared := !excl && !others.isEmpty
  r.1.setLine a (some { l with
    holders := if excl then [c] else c :: others
    excl := !shared
    inSystem := if excl then false else l.inSystem || (shared && l.dirty)
    hint := hint
    amoBy := none })

/-- A victim makes room (R202): a core's copy goes to the system cache where that takes it, a system-cache line home. A line
whose write-back waits stays. -/
def State.evict (s : State) (c : CoreId) (v : Victim) : State :=
  match s.cache.line v.line with
  | none => s
  | some l =>
    if s.writeBackWaits v.line then s
    else if l.holders.contains c then
      let rest := l.holders.filter (· ≠ c)
      let keep := !rest.isEmpty || l.dirty || l.inSystem || (v.keepInSystem && !l.hint)
      s.setLine v.line (if !keep then none
        else some { l with holders := rest, excl := false, inSystem := l.inSystem || rest.isEmpty,
                           amoBy := if l.amoBy = some c then none else l.amoBy })
    else if l.holders.isEmpty then ((s.writeBack true v.line).1).setLine v.line none
    else s

/-- The codeword of a line that holds an address is poisoned. -/
def CacheLine.poisonAt (l : CacheLine) (a : Nat) : Bool := if a % 128 < 64 then l.poison0 else l.poison1

/-- Bytes stored into a line: a codeword wholly overwritten loses its poison (R196). -/
def CacheLine.put (l : CacheLine) (o : Nat) (bs : List Byte) : CacheLine :=
  { l with
    data := l.data.take o ++ (bs ++ l.data.drop (o + bs.length))
    dirty := true
    poison0 := l.poison0 && !(o = 0 && o + bs.length ≥ 64)
    poison1 := l.poison1 && !(o ≤ 64 && o + bs.length ≥ 128) }

/-- The pieces of a core access, cut at lines: the first address and length of each. -/
def corePieces (a n fuel : Nat) : List (Nat × Nat) :=
  match fuel with
  | 0 => []
  | fuel' + 1 =>
    if n = 0 then []
    else
      let k := min n (128 - a % 128)
      (a, k) :: corePieces (a + k) (n - k) fuel'

/-- What bars a piece of a core access: a range that is absent or of devices (R51, R52), or a host window out of reach (R422). -/
def State.pieceBarred (s : State) (a : Nat) : Bool :=
  !(regionOf a).isMem || (regionOf a = .host && !s.hostServes)

/-- A piece waits for the CXL link: it is not cached and the link recovers (R421). -/
def State.pieceWaits (s : State) (a : Nat) : Bool := (s.cache.line a).isNone && s.hostWaits a

/-- The outcome of a core's access: an exception raised, or a value returned. -/
def State.coreTrap (s : State) (c : CoreId) (t : CoreTrap) : State := s.setCore c { s.core c with trap := some t }
def State.coreValue (s : State) (c : CoreId) (bs : List Byte) : State :=
  (s.setCore c { s.core c with trap := none, value := BitVec.ofNat 64 (natOfBytes (bs.take 8)) }).answer stOk bs

/-- The bytes of a cached piece, and whether each codeword touched is good. -/
def CacheS.read (k : CacheS) (p : Nat × Nat) : List Byte × Bool :=
  match k.line p.1 with
  | none => (List.replicate p.2 0#8, true)
  | some l => ((l.data.drop (p.1 % 128)).take p.2, !l.poisonAt p.1 && !l.poisonAt (p.1 + (p.2 - 1)))

/-- A core load or fetch of memory (R51, R196, R374): a barred piece or a poisoned byte raises the fault of its kind. -/
def State.coreLoadMem (s : State) (c : CoreId) (a n : Nat) (fetch hint : Bool) (victims : List Victim) : State :=
  let ps := corePieces a n (n + 1)
  let fault := if fetch then CoreTrap.fetchFault else CoreTrap.loadFault
  if ps.any fun p => s.pieceBarred p.1 then s.coreTrap c fault
  else if ps.any fun p => s.pieceWaits p.1 then s
  else
    let s1 := ps.foldl (fun s p => s.obtain c p.1 false hint) s
    let got := ps.map s1.cache.read
    let s2 := victims.foldl (fun s v => s.evict c v) s1
    if got.all Prod.snd then s2.coreValue c (got.map Prod.fst).flatten else s2.coreTrap c fault

/-- A core store to memory completes into the cache (R196). -/
def State.coreStoreMem (s : State) (c : CoreId) (a : Nat) (bs : List Byte) (hint : Bool) (victims : List Victim) : State :=
  let ps := corePieces a bs.length (bs.length + 1)
  if ps.any fun p => s.pieceBarred p.1 then s.coreTrap c .storeFault
  else if ps.any fun p => s.pieceWaits p.1 then s
  else
    let s1 := ps.foldl (fun s p => s.obtain c p.1 true hint) s
    let s2 := ps.foldl (fun (s : State) p =>
      s.setLine p.1 ((s.cache.line p.1).map fun l => l.put (p.1 % 128) ((bs.drop (p.1 - a)).take p.2))) s1
    let s3 := victims.foldl (fun s v => s.evict c v) s2
    s3.setCore c { s3.core c with trap := none }

/-! ### Atomics of the cores -/

/-- The operations of R209 on operands of one width. -/
def amoBits {n : Nat} (op : AmoOp) (old v cmp : BitVec n) : BitVec n :=
  match op with
  | .swap => v
  | .add => old + v
  | .and => old &&& v
  | .or => old ||| v
  | .xor => old ^^^ v
  | .min => if old.toInt ≤ v.toInt then old else v
  | .max => if v.toInt ≤ old.toInt then old else v
  | .minu => if old.toNat ≤ v.toNat then old else v
  | .maxu => if v.toNat ≤ old.toNat then old else v
  | .cas => if old = cmp then v else old

/-- The new bytes of an atomic's operand. -/
def amoBytes (op : AmoOp) (wide : Bool) (old : List Byte) (v cmp : W64) : List Byte :=
  if wide then bytesOfNat 8 (amoBits op (BitVec.ofNat 64 (natOfBytes old)) v cmp).toNat
  else bytesOfNat 4 (amoBits op (BitVec.ofNat 32 (natOfBytes old)) (v.truncate 32) (cmp.truncate 32)).toNat

/-- The old value as the core receives it: a 4 B operand is sign-extended, as the RISC-V AMO operations do. -/
def amoOld (wide : Bool) (old : List Byte) : W64 :=
  if wide then BitVec.ofNat 64 (natOfBytes old) else (BitVec.ofNat 32 (natOfBytes old)).signExtend 64

/-- An event of R449 counts in every hpm counter of the core that selects it. -/
def Core.event (k : Core) (e : Nat) : Core :=
  { k with hpmCount := (List.range 32).foldl (fun m n =>
      if k.hpmEvent.get 0 n = e then m.set 0#64 n (m.get 0#64 n + 1#64) else m) k.hpmCount }

def State.amoDone (s : State) (c : CoreId) (wide : Bool) (old : List Byte) : State :=
  (s.setCore c { s.core c with trap := none, value := amoOld wide old }).answer stOk old

/-- An AMO in the core's cache, holding the line exclusive (R208). -/
def State.amoCache (s : State) (c : CoreId) (op : AmoOp) (a : Nat) (wide : Bool) (v cmp : W64) : State :=
  let n := if wide then 8 else 4
  let s1 := s.obtain c a true false
  let got := s1.cache.read (a, n)
  if !got.2 then s1.coreTrap c .storeFault
  else
    let s2 := s1.setLine a ((s1.cache.line a).map fun l =>
      { l.put (a % 128) (amoBytes op wide got.1 v cmp) with amoBy := some c })
    s2.amoDone c wide got.1

/-- An AMO at the line's home: the line leaves every core cache, written back if dirty, then the home operates (R208). -/
def State.amoHome (s : State) (c : CoreId) (op : AmoOp) (a : Nat) (wide : Bool) (v cmp : W64) : State :=
  let n := if wide then 8 else 4
  let alone := match s.cache.line a with
    | none => true
    | some l => (l.holders.filter (· ≠ c)).isEmpty
  let k := s.cache.takeFrom c a
  let s1 := (State.writeBack { s with cache := if alone then k.forget c (a / 128) else k } false a).1.setLine a none
  let r := s1.readMem a n 4
  if r.status ≠ stOk then r.st.coreTrap c .storeFault
  else
    let w := r.st.writeMem a (amoBytes op wide r.data v cmp) 4
    if w.status ≠ stOk then w.st.coreTrap c .storeFault
    else (w.st.setCore c ((w.st.core c).event 6)).amoDone c wide r.data

/-- CORE_AMO (R208, R210): misaligned or barred, at the home where the predictor counts 2 or more, else in the cache. -/
def execCoreAmo (c : CoreId) (op : AmoOp) (addr : Nat) (wide : Bool) (v cmp : W64) (s : State) :
    Host.Outcome State Fault Refusal :=
  .next (if (s.core c).state ≠ 1 then s
    else if addr % (if wide then 8 else 4) ≠ 0 then s.coreTrap c .storeMisaligned
    else if s.pieceBarred addr then s.coreTrap c .storeFault
    else if s.pieceWaits addr || s.writeBackWaits addr then s
    else if s.cache.predicted c (addr / 128) ≥ 2 then s.amoHome c op addr wide v cmp
    else s.amoCache c op addr wide v cmp)

/-! ### Cache-block and range operations -/

/-- A clean, or a flush, of one line in every cache by a core (R265); the status says whether a dirty line was lost. -/
def State.cleanLine (s : State) (c : CoreId) (a : Nat) (flush : Bool) : State × W32 :=
  if flush then
    let r := State.writeBack { s with cache := s.cache.takeFrom c a } false a
    (r.1.setLine a none, r.2)
  else s.writeBack false a

/-- A cache-block operation of a core on the line of an address (R265, R374); it waits for a write-back that timed out. -/
def State.cbo (s : State) (c : CoreId) (a : Nat) (flush : Bool) : State :=
  if (s.core c).state ≠ 1 then s
  else if !(regionOf a).isMem then s.coreTrap c .storeFault
  else if s.writeBackWaits a then s
  else
    let s1 := (s.cleanLine c a flush).1
    s1.setCore c { (s1.core c).event 9 with trap := none }

def execCboClean (c : CoreId) (addr : Nat) (s : State) : Host.Outcome State Fault Refusal := .next (s.cbo c addr false)
def execCboFlush (c : CoreId) (addr : Nat) (s : State) : Host.Outcome State Fault Refusal := .next (s.cbo c addr true)

/-- cbo.inval is performed as cbo.flush: dirty data is written home, never discarded (R265). -/
def execCboInval (c : CoreId) (addr : Nat) (s : State) : Host.Outcome State Fault Refusal := .next (s.cbo c addr true)

/-- The checks of R379 on CRBASE, CRLEN and CRCMD, in the order of R17. -/
def rangeCheck (base len : W64) (cmdBad : Bool) : W32 :=
  let b := base.toNat
  let n := len.toNat
  if b % 128 ≠ 0 || (len ≠ BitVec.allOnes 64 && n % 128 ≠ 0) || cmdBad then stReserved
  else if len = BitVec.allOnes 64 then stLength
  else if n ≠ 0 && (engineRange b n).isNone then stBounds
  else stOk

/-- A write to CRCMD (R378, R379): it waits while BUSY is 1; a failed check completes at once. -/
def State.rangeStart (s : State) (c : CoreId) (cmd : Nat) : State :=
  let k := s.core c
  if k.state ≠ 1 || k.crBusy then s
  else
    let st := rangeCheck k.crBase k.crLen (cmd ≠ 1 && cmd ≠ 2)
    if st ≠ stOk then s.setCore c { k.event 9 with crStatus := st, crBusy := false }
    else s.setCore c { k with crBusy := true, crCmd := cmd }

def execCleanByRange (c : CoreId) (s : State) : Host.Outcome State Fault Refusal := .next (s.rangeStart c 1)
def execInvalidateByRange (c : CoreId) (s : State) : Host.Outcome State Fault Refusal := .next (s.rangeStart c 2)

/-- The cached lines of a range. -/
def CacheS.linesIn (k : CacheS) (base len : Nat) : List Nat :=
  (k.lines.map fun e => e.1 * 128).filter fun a => base ≤ a && a < base + len

/-- RANGE_OPERATION_COMPLETE (R379, R380, R545): every line is clean or gone, and CRSTAT has the status; not while a
write-back of the range waits. -/
def execRangeOperationComplete (c : CoreId) (s : State) : Host.Outcome State Fault Refusal :=
  let k := s.core c
  let ls := s.cache.linesIn k.crBase.toNat k.crLen.toNat
  .next (if !k.crBusy || ls.any s.writeBackWaits then s
    else
      let r := ls.foldl (fun (st : State × W32) a =>
        let x := st.1.cleanLine c a (k.crCmd = 2)
        (x.1, if st.2 = stOk then x.2 else st.2)) (s, stOk)
      r.1.setCore c { (r.1.core c).event 9 with crBusy := false, crStatus := r.2 })

/-- A write-back that timed out at its home is kept, to be sent again (R545). -/
def CacheS.keepForRetry (k : CacheS) (a : Nat) : CacheS :=
  match k.line a with
  | none => k
  | some l => if l.dirty && !k.retry.contains (a / 128) then { k with retry := k.retry ++ [a / 128] } else k

/-- WRITEBACK_RETRY (R545): accepted by the home, or the stack has left service or the host is lost and the line is discarded. -/
def execWritebackRetry (line : Nat) (s : State) : Host.Outcome State Fault Refusal :=
  .next (if !s.cache.retry.contains (line / 128) || s.hostWaits line then s
    else (State.writeBack { s with cache := { s.cache with retry := s.cache.retry.erase (line / 128) } } true line).1)

/-- A timed-out core request leaves its codeword poisoned in the core's caches (R196). -/
def State.coreTimeout (s : State) (c : CoreId) (a : Nat) : State :=
  if (s.core c).state ≠ 1 || (s.cache.line a).isSome || !(regionOf a).isMem then s
  else
    let r := s.missLine a
    r.1.setLine a (some { r.2 with
      holders := [c]
      excl := true
      poison0 := r.2.poison0 || a % 128 < 64
      poison1 := r.2.poison1 || a % 128 ≥ 64 })

/-- Host loss takes every host-window line out of the caches; dirty ones are counted (R422). -/
def State.dropHostLines (s : State) : State :=
  let host := fun (e : Nat × Option CacheLine) => regionOf (e.1 * 128) = .host
  let lost := (s.cache.lines.filter fun e => host e && (e.2.map CacheLine.dirty).getD false).length
  { s with
    cache := { s.cache with lines := s.cache.lines.filter fun e => !host e,
                            retry := s.cache.retry.filter fun l => regionOf (l * 128) ≠ .host }
    tele := { s.tele with discards := satAdd64 s.tele.discards lost } }

end Sys2Proof.Machine
end

