-- ==== Sys2Proof/Machine/Migration.lean ====
section
/-! DEFINITION. Access-counter decay and the migration engine (R239 to R242), and the inbound windows (R243, R244). -/

namespace Sys2Proof.Machine

/-- COUNTER_DECAY (R239): every counter is halved; a DECAY of 0 never halves. -/
def execCounterDecay (s : State) : Host.Outcome State Fault Refusal :=
  .next (if s.mig.decay = 0 then s
    else { s with mig := { s.mig with ctrs := s.mig.ctrs.map fun e => (e.1, { e.2 with count := e.2.count / 2 }) } })

/-- The fields of a migration descriptor (R241). -/
structure MigDesc where
  kind : Nat
  advice : Nat
  ringEn : Bool
  unitHost : Bool
  src : Nat
  dst : Nat
  len : Nat
  bell : Nat
  n : W16
  deriving DecidableEq, Repr

def MigDesc.ofBytes (bs : List Byte) : MigDesc :=
  let h := w64At bs 0
  let c := w64At bs 0x28
  { kind := w64Bits h 4 4, advice := w64Bits h 8 2, ringEn := w64Bits h 10 1 = 1, unitHost := w64Bits h 11 1 = 1,
    src := (w64At bs 0x10).toNat, dst := (w64At bs 0x18).toNat, len := (w64At bs 0x20).toNat, bell := w64Bits c 0 14,
    n := BitVec.ofNat 16 (w64Bits c 16 16) }

/-- Reserved fields and codes, and misaligned fields (R241, R242). -/
def MigDesc.reservedBad (d : MigDesc) (bs : List Byte) : Bool :=
  let grain := if d.kind = 2 then 65536 else 4096
  d.kind > 2 || w64Bits (w64At bs 0) 12 52 ≠ 0 || (d.kind = 2 && d.advice = 3) || (d.kind ≠ 2 && (d.advice ≠ 0 || d.unitHost))
    || (d.kind ≠ 0 && d.src ≠ 0) || w64Bits (w64At bs 0x28) 14 2 ≠ 0 || w64Bits (w64At bs 0x28) 32 32 ≠ 0
    || w64At bs 0x38 ≠ 0#64 || (d.len ≠ 2 ^ 64 - 1 && d.len % grain ≠ 0) || d.dst % grain ≠ 0 || d.src % grain ≠ 0

/-- The units whose advice an ADVISE sets (R242). -/
def MigDesc.units (d : MigDesc) : List Nat := if d.unitHost then [8] else List.range 8

/-- Range outside those permitted, overlap, or no free advice slot (R242). -/
def State.migBounds (s : State) (d : MigDesc) : Bool :=
  d.len ≠ 0 && ((engineRange d.dst d.len).isNone
    || (d.kind = 0 && ((engineRange d.src d.len).isNone || (d.src < d.dst + d.len && d.dst < d.src + d.len)))
    || (d.kind = 2 && d.advice ≠ 0 && d.units.any fun u => (s.mig.advice.get [] u).length ≥ 8))

/-- The check of a migration descriptor, in the order of R17. -/
def State.migCheck (s : State) (bs : List Byte) : Option W32 :=
  let d := MigDesc.ofBytes bs
  firstStatus
    [(!flamOk (w64At bs 0) (w64At bs 8), stHeader), (w64Bits (w64At bs 0) 0 4 ≠ 1, stVersion),
     (d.reservedBad bs, stReserved), (d.len = 2 ^ 64 - 1, stLength), (s.migBounds d, stBounds)]

/-- An advice range installed or removed in one unit (R240, R242). -/
def MigS.advise (g : MigS) (d : MigDesc) (u : Nat) : MigS :=
  let rs := g.advice.get [] u
  let new := if d.advice = 0 then rs.filter fun r => !(r.base = d.dst && r.len = d.len)
    else rs ++ [{ base := d.dst, len := d.len, eager := d.advice = 2 }]
  { g with advice := g.advice.set [] u new }

/-- The effect of a checked descriptor, with its status (R242). The engine's traffic is not counted (R239). -/
def State.migRun (s : State) (d : MigDesc) : State × W32 :=
  if d.len = 0 then (s, stOk)
  else
    match d.kind with
    | 2 => ({ s with mig := d.units.foldl (fun g u => g.advise d u) s.mig }, stOk)
    | 1 =>
      let w := s.writeMemBy false d.dst (List.replicate d.len 0#8) 4
      if w.status = stOk then (w.st, stOk) else (w.st.undefinedSpan d.dst d.len, w.status)
    | _ =>
      let r := s.readMemBy false d.src d.len 4
      if r.status ≠ stOk then (r.st.undefinedSpan d.dst d.len, r.status)
      else
        let w := r.st.writeMemBy false d.dst r.data 4
        if w.status = stOk then (w.st, stOk) else (w.st.undefinedSpan d.dst d.len, w.status)

/-- The descriptor that has been executed and awaits completion. -/
def State.migEnd (s : State) (a : Nat) (d : MigDesc) (st : W32) : State :=
  { s with mig := { s.mig with cur := some { addr := a, status := st, ringEn := d.ringEn, bell := d.bell, n := d.n } } }

/-- The host window is among the addresses of a descriptor. -/
def MigDesc.waits (s : State) (d : MigDesc) : Bool := d.kind ≠ 2 && d.len ≠ 0 && (s.hostWaits d.src || s.hostWaits d.dst)

/-- The engine takes the head descriptor of its ring: refused with its status, or run if it is of the kind commanded (R241,
R242). One descriptor at a time. -/
def State.migTake (s : State) (kind : Nat) : State :=
  if !s.mig.mq.ready || s.mig.cur.isSome then s
  else
    let a := s.mig.mq.entry 64
    let r := s.readMemBy false a 64 4
    let d := MigDesc.ofBytes r.data
    if r.status ≠ stOk then r.st.migEnd a (MigDesc.ofBytes []) r.status
    else
      match s.migCheck r.data with
      | some st => (if st = stHeader then r.st.flamMismatch else r.st).migEnd a d st
      | none =>
        if d.kind ≠ kind || d.waits s then s
        else
          let m := r.st.migRun d
          m.1.migEnd a d m.2

def execMigrationCopy (s : State) : Host.Outcome State Fault Refusal := .next (s.migTake 0)
def execMigrationZero (s : State) : Host.Outcome State Fault Refusal := .next (s.migTake 1)
def execMigrationAdvise (s : State) : Host.Outcome State Fault Refusal := .next (s.migTake 2)

/-- MIGRATION_DESCRIPTOR_COMPLETE (R242, R262): STATUS, then the ring of a descriptor that succeeded, then MQ_HEAD and source 2. -/
def execMigrationDescriptorComplete (s : State) : Host.Outcome State Fault Refusal :=
  match s.mig.cur with
  | none => .next s
  | some c =>
    let s1 := (s.writeMemBy false (c.addr + 0x30) (bytesOfNat 4 c.status.toNat ++ bytesOfNat 4 0) 4).st
    let s2 := if c.ringEn && c.status = stOk then
        (s1.ringBell c.bell (c.n.zeroExtend 64) 7#3 0#8 .package).evalWaits (bellDie c.bell)
      else s1
    .next (State.route { s2 with mig := { s2.mig with cur := none, mq := s2.mig.mq.advance } } 2)

/-- A migration request timed out: its descriptor ends with 0x0302, the destination undefined (R242). -/
def State.migTimeout (s : State) : State :=
  if !s.mig.mq.ready || s.mig.cur.isSome then s
  else
    let a := s.mig.mq.entry 64
    let r := s.readMemBy false a 64 4
    let d := MigDesc.ofBytes r.data
    if r.status ≠ stOk || (s.migCheck r.data).isSome || d.kind = 2 || d.len = 0 then s
    else (r.st.undefinedSpan d.dst d.len).migEnd a d stTierTimeout

/-! ### Inbound windows -/

/-- Word j of window w (R243). -/
def WinS.word (x : WinS) (w j : Nat) : W64 := x.words.get 0#64 (8 * w + j)

/-- A staged entry that keeps the rules of R243, R244. -/
def winLegal (w0 w1 w2 w3 : W64) : Bool :=
  w64Bits w0 0 4 = 1 && w64Bits w0 60 4 = 0 && w64Bits w0 47 13 ≤ 4096 && w64Bits w0 33 14 + w64Bits w0 47 13 ≤ 16384
    && w1.toNat % 4096 = 0 && w2.toNat % 4096 = 0 && w64Bits w3 19 13 = 0 && w64Bits w3 51 13 = 0

/-- WIN_COMMIT (R244). -/
def execWinCommit (v : W32) (s : State) : Host.Outcome State Fault Refusal :=
  let x := s.win
  let g := fun j => x.stage.get 0#64 j
  .next (if v.toNat ≥ 256 then s.discard
    else if (List.range 4).all (fun j => flamOk (g j) (g (4 + j))) && winLegal (g 0) (g 1) (g 2) (g 3) then
      { s with win := { x with words := x.words.setRun 0#64 (8 * v.toNat) ((List.range 8).map g),
                               last := BitVec.ofNat 8 v.toNat } }
    else { s with win := { x with err := true } })

end Sys2Proof.Machine
end

