-- ==== Sys2Proof/Machine/Fabric.lean ====
section
/-! DEFINITION. The Carillon fabric: routing (R290 to R293), the link layer (R278 to R280), inbound windows (R245), trackers and
remote transfers (R295 to R301), violations and quarantine (R310, R311). -/

namespace Sys2Proof.Machine

def NetS.port (n : NetS) (p : PortId) : Port := n.ports.get Port.reset p.val
def NetS.setPort (n : NetS) (p : PortId) (v : Port) : NetS := { n with ports := n.ports.set Port.reset p.val v }
def State.port (s : State) (p : PortId) : Port := s.net.port p
def State.setPort (s : State) (p : PortId) (v : Port) : State := { s with net := s.net.setPort p v }

/-- The die of a port (R270). -/
def portDie (p : PortId) : Nat := p.val / 2

/-- A record from a port (R314). -/
def State.raisePort (s : State) (cls type : Nat) (p : PortId) (payload : List Byte) : State :=
  s.raise cls type (portDie p) 5 p.val payload

/-! ### Coordinates and routes -/

/-- The coordinate of an axis, 0 X, 1 Y, 2 Z, 3 TORUS (R286). -/
def axisOf (c a : Nat) : Nat := if a = 3 then bitsOf c 15 4 else bitsOf c (5 * a) 5

/-- This module's coordinate bits, and the length of an axis. -/
def NetS.here (n : NetS) : Nat := n.coord.toNat % 2 ^ 19
def NetS.len (n : NetS) (a : Nat) : Nat := axisOf n.shape.toNat a + 1

/-- A coordinate with one axis replaced. -/
def withAxis (c a v : Nat) : Nat :=
  let sh := if a = 3 then 15 else 5 * a
  c - axisOf c a * 2 ^ sh + v * 2 ^ sh

/-- A port carries HEAD and CONT flits: up, coordinates frozen, and its peer admitted where sealed mode asks for it (R282, R505). -/
def State.carries (s : State) (p : PortId) : Bool :=
  let x := s.port p
  x.state = 3 && s.net.frozen && (!s.cust.sealed || x.attested)

/-- The class of a message (R276): 0 request, 1 response, 2 step data. -/
def msgClass (m : Msg) : Nat := if m.ttype.toNat < 3 then 0 else if m.ttype.toNat < 6 then 1 else 2

/-- The torus port of an axis in a direction. -/
def torusPort (a : Nat) (positive : Bool) : PortId := Fin.ofNat 8 (if positive then 2 * a else 2 * a + 1)

/-- The axis on which a message has to move next (R290). -/
def nextAxis (here dst : Nat) : Option Nat := (List.range 3).find? fun a => axisOf here a ≠ axisOf dst a

/-- The direction of a message on an axis (R290, R293): the shorter way; while DETOUR is set the way it is travelling, or the
other way where the axis is entered. -/
def NetS.goesPositive (n : NetS) (m : Msg) (a : Nat) (arrived : Option PortId) : Bool :=
  let d := (axisOf m.dst.toNat a + n.len a - axisOf n.here a) % n.len a
  let short : Bool := d ≤ n.len a - d
  if m.detour.getLsbD a then
    match arrived with
    | some p => if p.val / 2 = a then p.val % 2 = 1 else !short
    | none => !short
  else short

/-- The channel of a message on a torus link (R291): the class's second channel from the wrap of the axis on. -/
def NetS.channel (n : NetS) (m : Msg) (a : Nat) (positive : Bool) (arrived : Option PortId) : BitVec 3 :=
  let x := axisOf n.here a
  let wraps : Bool := if positive then x + 1 = n.len a else x = 0
  let same := match arrived with
    | some p => p.val / 2 = a
    | none => false
  BitVec.ofNat 3 (2 * msgClass m + (wraps || (same && m.vc.toNat % 2 = 1)).toNat)

/-- The port that a message leaves by, with the message as it leaves; none where every way is down (R290 to R293). -/
def State.routeMsg (s : State) (m : Msg) (arrived : Option PortId) : Option (PortId × Msg) :=
  let n := s.net
  let dst := m.dst.toNat
  if axisOf dst 3 ≠ axisOf n.here 3 then
    let k := ((axisOf dst 0 ^^^ axisOf dst 1) ^^^ axisOf dst 2) % 2
    let first : PortId := Fin.ofNat 8 (6 + k)
    let second : PortId := Fin.ofNat 8 (7 - k)
    let out := { m with vc := BitVec.ofNat 3 (2 * msgClass m) }
    if s.carries first then some (first, out) else if s.carries second then some (second, out) else none
  else
    match nextAxis n.here dst with
    | none => none
    | some a =>
      let pos := n.goesPositive m a arrived
      let p := torusPort a pos
      let q := torusPort a (!pos)
      if s.carries p then some (p, { m with vc := n.channel m a pos arrived })
      else if m.detour.getLsbD a then none
      else if s.carries q then
        some (q, { m with vc := n.channel m a (!pos) arrived, detour := m.detour ||| (1#3 <<< a) })
      else none

/-! ### The link layer -/

/-- The continuation flits of a payload of `len` bytes (R277). -/
def contFlits (len : Nat) : Nat := if len ≤ 192 then 0 else (len - 192 + 223) / 224

/-- The flits of an item: a GET_REQ carries no payload whatever its LEN. -/
def TxItem.flits (i : TxItem) : Nat :=
  match i with
  | .ctrl _ _ => 1
  | .msg m => 1 + m.cont

/-- Flit buffers of a channel (R279). -/
def bufferOf (vc : Nat) : Nat := if vc < 2 then 1024 else if vc < 4 then 768 else if vc = 4 then 512 else 0

/-- Sequenced flits not yet acknowledged (R278). -/
def LinkLayer.inFlight (l : LinkLayer) : Nat := (l.txNext - l.acked - 1#12).toNat

/-- An item may be sent: the window of 2,047 flits and its channel's credits allow it. -/
def LinkLayer.maySend (l : LinkLayer) (carries : Bool) (i : TxItem) : Bool :=
  l.inFlight + i.flits ≤ 2047 &&
    (match i with
      | .ctrl _ _ => true
      | .msg m => carries && l.spent.get 0 m.vc.toNat + i.flits ≤ bufferOf m.vc.toNat)

/-- Sends one item: FSEQ advances, credits are spent, the retry buffer keeps it. -/
def LinkLayer.send (l : LinkLayer) (i : TxItem) : LinkLayer :=
  { l with
    txNext := l.txNext + BitVec.ofNat 12 i.flits
    sent := l.sent ++ [{ first := l.txNext, flits := i.flits, item := i }]
    spent := match i with
      | .ctrl _ _ => l.spent
      | .msg m => l.spent.modify 0 m.vc.toNat fun k => k + i.flits }

/-- The channel of an item; control flits have their own place in the order. -/
def TxItem.lane (i : TxItem) : Nat :=
  match i with
  | .ctrl _ _ => 8
  | .msg m => m.vc.toNat

/-- Sends what the queue holds, in order within each channel. -/
def LinkLayer.flush (l : LinkLayer) (carries : Bool) : LinkLayer :=
  let r := l.queue.foldl (fun (st : LinkLayer × List TxItem) i =>
    if (st.2.any fun j => j.lane = i.lane) || !st.1.maySend carries i then (st.1, st.2 ++ [i]) else (st.1.send i, st.2))
    ({ l with queue := [] }, [])
  { r.1 with queue := r.2 }

/-- The number of sequenced flits sent since a state of the link. -/
def LinkLayer.sentSince (new old : LinkLayer) : W64 := (new.txNext - old.txNext).zeroExtend 64

/-- Sends what a port's queue holds (R278, R279); each flit counts under the current key (R308). -/
def State.flushPort (s : State) (p : PortId) : State :=
  let x := s.port p
  let l := x.link.flush (s.carries p)
  s.setPort p { x with link := l, txCount := x.txCount + l.sentSince x.link }

/-- Queues an item on a port. -/
def State.enqueue (s : State) (p : PortId) (i : TxItem) : State :=
  let x := s.port p
  State.flushPort (s.setPort p { x with link := { x.link with queue := x.link.queue ++ [i] } }) p

/-- An acknowledgement frees the items wholly accepted (R278). -/
def LinkLayer.ack (l : LinkLayer) (a : BitVec 12) : LinkLayer :=
  if (a - l.acked).toNat ≤ l.inFlight then
    { l with acked := a, sent := l.sent.filter fun r => (r.first + BitVec.ofNat 12 r.flits - 1#12 - a - 1#12).toNat < 2048 }
  else l

/-- Credits returned for a channel (R275, R279). -/
def LinkLayer.credit (l : LinkLayer) (vc n : Nat) : LinkLayer := { l with spent := l.spent.modify 0 vc fun k => k - n }

/-! ### Inbound windows -/

/-- By what way a request reached its window: die, unit kind and unit for records, and an attested peer for check 3 (R507). -/
structure Via where
  die : Nat
  kind : Nat
  unit : Nat
  admitted : Bool
  deriving DecidableEq, Repr

/-- Checks 1 to 7 of R245: the NACK code of the first that fails. -/
def State.winCheck (s : State) (via : Via) (w src : Nat) (rd wr ring : Bool) (off len bell : Nat) : Option Nat :=
  let g := fun j => s.win.word w j
  let w0 := g 0
  if (List.range 4).any fun j => !flamOk (g j) (g (4 + j)) then some 2
  else if w64Bits w0 4 1 = 0 then some 1
  else if s.cust.sealed && !via.admitted then some 8
  else if (src &&& w64Bits (g 3) 32 19) ≠ (w64Bits (g 3) 0 19 &&& w64Bits (g 3) 32 19) then some 3
  else if (rd && w64Bits w0 5 1 = 0) || (wr && w64Bits w0 6 1 = 0) || (ring && w64Bits w0 7 1 = 0) then some 4
  else if off + len > (g 2).toNat then some 5
  else if ring && bell ≥ w64Bits w0 47 13 then some 6
  else none

/-- The physical pieces of a virtual span, page by page (R245 check 8). -/
def State.spanPages (s : State) (die : Nat) (ctx : W32) (va n : Nat) (write : Bool) (fuel : Nat) :
    State × Except (XErr × Nat) (List (Nat × Nat)) :=
  match fuel with
  | 0 => (s, .ok [])
  | fuel' + 1 =>
    if n = 0 then (s, .ok [])
    else
      let k := min n (4096 - va % 4096)
      let r := s.translate die ctx (BitVec.ofNat 64 va) write
      match r.2 with
      | .inr e => (r.1, .error (e, va))
      | .inl l =>
        if write && !l.wr then (r.1, .error (.fault 3 0 0#64, va))
        else
          let rest := r.1.spanPages die ctx (va + k) (n - k) write fuel'
          match rest.2 with
          | .error e => (rest.1, .error e)
          | .ok ps => (rest.1, .ok ((l.pbase + (va - l.vbase), k) :: ps))

/-- A translation failure of an inbound access: a record of type 0x03, and NACK 0x07 (R237, R245); a walk that meets a lower-tier
error is a memory error at the receiver (R299). -/
def State.inboundFault (s : State) (via : Via) (ctx : W32) (w va : Nat) (write : Bool) (e : XErr) : State × Nat :=
  match e with
  | .status st => (s, if st = stTierTimeout then 0x25 else if statusCode st / 256 = 3 then 0x24 else 7)
  | .fault c lvl last =>
    (s.raise 2 0x03 via.die via.kind via.unit
      (payloadOf [(0x16, 1, c), (0x17, 1, write.toNat), (0x18, 4, ctx.toNat), (0x1C, 4, w), (0x20, 8, va), (0x28, 8, last.toNat),
        (0x30, 1, lvl)]), 7)

/-- The context word of a window (R218, R243). -/
def WinS.ctx (x : WinS) (w : Nat) : W32 := BitVec.ofNat 32 (w64Bits (x.word w 0) 8 8 + w64Bits (x.word w 0) 16 17 * 256)

/-- Translates a window's span, with the code where it cannot. -/
def State.winSpan (s : State) (via : Via) (w off len : Nat) (write : Bool) : State × Except Nat (List (Nat × Nat)) :=
  let ctx := s.win.ctx w
  let va := (s.win.word w 1).toNat + off
  let r := s.spanPages via.die ctx va len write (len / 4096 + 2)
  match r.2 with
  | .ok ps => (r.1, .ok ps)
  | .error e =>
    let f := r.1.inboundFault via ctx w e.2 write e.1
    (f.1, .error f.2)

/-- The NACK code of a failed access at the receiver (R299). -/
def memNack (st : W32) : Nat := if st = stTierTimeout then 0x25 else 0x24

/-- Counts a mismatched entry (R13). -/
def State.countEntry (s : State) (code : Nat) : State := s.when (code = 2) State.flamMismatch

/-- A PUT message at a window (R245, R299): its NACK code, 0 where every byte is written. A failed write leaves the range
undefined. -/
def State.putAt (s : State) (via : Via) (w src off bell : Nat) (ring : Bool) (bs : List Byte) : State × Nat :=
  match s.winCheck via w src false true ring off bs.length bell with
  | some c => (s.countEntry c, c)
  | none =>
    let t := s.winSpan via w off bs.length true
    match t.2 with
    | .error c => (t.1, c)
    | .ok ps =>
      let r := ps.foldl (fun (st : State × W32 × List Byte) p =>
        let k := st.1.writeMem p.1 (st.2.2.take p.2) via.die
        (k.st, if st.2.1 = stOk then k.status else st.2.1, st.2.2.drop p.2)) (t.1, stOk, bs)
      if r.2.1 = stOk then (r.1, 0)
      else (ps.foldl (fun s p => s.undefinedSpan p.1 p.2) r.1, memNack r.2.1)

/-- A GET request at a window: its NACK code, and the data read at home. -/
def State.getAt (s : State) (via : Via) (w src off len : Nat) : State × Nat × List Byte :=
  match s.winCheck via w src true false false off len 0 with
  | some c => (s.countEntry c, c, [])
  | none =>
    let t := s.winSpan via w off len false
    match t.2 with
    | .error c => (t.1, c, [])
    | .ok ps =>
      let r := ps.foldl (fun (st : State × W32 × List Byte) p =>
        let k := st.1.readMem p.1 p.2 via.die
        (k.st, if st.2.1 = stOk then k.status else st.2.1, st.2.2 ++ k.data)) (t.1, stOk, [])
      if r.2.1 = stOk then (r.1, 0, r.2.2) else (r.1, memNack r.2.1, [])

/-- A remote RING at a window (R166, R245): kind 5, SYSTEM scope. -/
def State.ringAt (s : State) (via : Via) (w src bell : Nat) (n : W16) : State × Nat :=
  match s.winCheck via w src false false true 0 0 bell with
  | some c => (s.countEntry c, c)
  | none =>
    let b := (w64Bits (s.win.word w 0) 33 14 + bell) % 16384
    ((s.ringBell b (n.zeroExtend 64) 5#3 (BitVec.ofNat 8 w) .system).evalWaits (bellDie b), 0)

/-! ### Trackers and remote transfers -/

def trackerKey (p : PortId) (slot : Nat) : Nat := p.val * 2048 + slot
def NetS.tracker (n : NetS) (p : PortId) (slot : Nat) : Tracker := n.trackers.get Tracker.reset (trackerKey p slot)
def NetS.setTracker (n : NetS) (p : PortId) (slot : Nat) (t : Tracker) : NetS :=
  { n with trackers := n.trackers.set Tracker.reset (trackerKey p slot) t }

/-- The lowest free tracker slot of an engine (R301). -/
def NetS.freeSlot (n : NetS) (p : PortId) : Option Nat :=
  (List.range 2048).find? fun i => !(n.tracker p i).busy && !(n.tracker p i).cooling

/-- TAG of R276. -/
def tagOf (p : PortId) (slot : Nat) (epoch : BitVec 2) : W16 := BitVec.ofNat 16 (slot + 2048 * epoch.toNat + 8192 * p.val)

/-- The request message of a transfer. -/
def Xfer.message (x : Xfer) (n : NetS) (q : Pending) : Msg :=
  { vc := 0#3, gen := 1#4, ttype := BitVec.ofNat 4 q.kind, cont := if q.kind = 0 then contFlits q.len else 0,
    ringop := x.d.kind = .put && x.d.ringEn, detour := 0#3, dst := x.d.remoteCoord, src := BitVec.ofNat 19 n.here, tag := 0#16,
    len := q.len, offset := BitVec.ofNat 64 q.offset, window := x.d.remoteWindow, ncode := 0#8,
    bell := BitVec.ofNat 12 x.d.bell, n := x.d.n, rsv := false, contBroken := false, payload := q.payload }

/-- The status that a transfer ends with (R300). -/
def Xfer.status (x : Xfer) : W32 :=
  match x.failed with
  | some st => st
  | none => if x.timedOut then statusWord 0x0502 0 else match x.nack with
    | some n => stRemoteNack n.2
    | none => stOk

/-- A transfer that sends no new message (R300). -/
def Xfer.closed (x : Xfer) : Bool := x.timedOut || x.nack.isSome || x.failed.isSome

def NetS.xfer (n : NetS) (t : TileId) (idx : Nat) : Option Xfer := n.xfers.find? fun x => x.tile = t && x.idx = idx
def NetS.dropXfer (n : NetS) (t : TileId) (idx : Nat) : NetS := { n with xfers := n.xfers.filter fun x => !(x.tile = t && x.idx = idx) }
def NetS.setXfer (n : NetS) (x : Xfer) : NetS := { n with xfers := x :: (n.dropXfer x.tile x.idx).xfers }
def State.setXfer (s : State) (x : Xfer) : State := { s with net := s.net.setXfer x }

/-- An answer recorded in a transfer: a NACK of lowest remote offset is kept (R300). -/
def Xfer.answered (x : Xfer) (offset nack : Nat) : Xfer :=
  { x with out := x.out - 1,
           nack := if nack = 0 then x.nack else match x.nack with
             | none => some (offset, nack)
             | some k => if offset < k.1 then some (offset, nack) else some k }

/-- A place in a transfer's local destination (R298). -/
def Xfer.landing (x : Xfer) (row col : Nat) : Nat := x.d.dst.toNat + row * x.d.dstStride + col

/-- Data of a GET lands in its local destination (R261, R300). -/
def State.land (s : State) (x : Xfer) (row col : Nat) (bs : List Byte) : State × W32 :=
  match x.d.dstSide with
  | .sram => (s.setTile x.tile ((s.tile x.tile).store (x.landing row col) bs), stOk)
  | .virt =>
    let r := s.writeMem (x.pbase + (x.landing row col - x.vbase)) bs (tileDie x.tile)
    (r.st, r.status)
  | .none => (s, stOk)

/-- The window's own module as the way of a request (R295): the tile is the unit, and check 3 passes (R507). -/
def selfVia (t : TileId) : Via := { die := tileDie t, kind := 1, unit := t.val, admitted := true }

/-- One message to this module's own coordinate, checked against its own window at once (R295). -/
def State.ownMessage (s : State) (x : Xfer) (q : Pending) : State × Xfer :=
  let w := x.d.remoteWindow.toNat
  let here := s.net.here
  match q.kind with
  | 0 =>
    let r := s.putAt (selfVia x.tile) w here q.offset x.d.bell x.d.ringEn q.payload
    (r.1, { x with out := x.out + 1 }.answered q.offset r.2)
  | 1 =>
    let r := s.getAt (selfVia x.tile) w here q.offset q.len
    if r.2.1 ≠ 0 then (r.1, { x with out := x.out + 1 }.answered q.offset r.2.1)
    else
      let l := r.1.land x q.row q.col r.2.2
      (l.1, if l.2 = stOk then x else { x with failed := some l.2 })
  | _ =>
    let r := s.ringAt (selfVia x.tile) w here x.d.bell x.d.n
    (r.1, { x with out := x.out + 1 }.answered q.offset r.2)

/-- Sends a request message by its route, with a tracker of the engine it leaves by. -/
def State.sendRequest (s : State) (x : Xfer) (q : Pending) (p : PortId) (m : Msg) (slot : Nat) : State :=
  let t := s.net.tracker p slot
  let t1 : Tracker :=
    { t with busy := true, tile := x.tile, idx := x.idx, kind := q.kind, offset := q.offset, len := q.len, row := q.row,
             col := q.col }
  State.enqueue { s with net := s.net.setTracker p slot t1 } p (.msg { m with tag := tagOf p slot t.epoch })

/-- One step of sending a transfer's messages (R298 to R301), and whether another may follow: the head of the list is sent, or
performed here where it addresses this module; the RING follows once all else is answered. -/
def State.pumpOne (s : State) (x : Xfer) : State × Xfer × Bool :=
  if x.closed then (s, { x with todo := [], ringDue := false }, false)
  else
    match x.todo with
    | [] =>
      if x.ringDue && x.out = 0 then
        (s, { x with ringDue := false, todo := [{ kind := 2, offset := 0, len := 0, row := 0, col := 0, payload := [] }] }, true)
      else (s, x, false)
    | q :: rest =>
      if x.d.remoteCoord.toNat = s.net.here then
        let r := s.ownMessage { x with todo := rest } q
        (r.1, r.2, true)
      else
        match s.routeMsg (x.message s.net q) none with
        | none => (s, { x with failed := some stNoRoute, todo := [], ringDue := false }, false)
        | some (p, m) =>
          match s.net.freeSlot p with
          | none => (s, x, false)
          | some slot => (s.sendRequest x q p m slot, { x with todo := rest, out := x.out + 1 }, true)

/-- A transfer goes on as far as it can (R300): each message leaves while a route and a tracker are there; none after a NACK or
a timeout. -/
def State.pump (s : State) (x : Xfer) (fuel : Nat) : State × Xfer :=
  match fuel with
  | 0 => (s, x)
  | n + 1 =>
    let r := s.pumpOne x
    if r.2.2 then r.1.pump r.2.1 n else (r.1, r.2.1)

/-- A transfer's descriptor ends: done, or failed with its status; a failed GET leaves its local range undefined (R300). -/
def State.xferEnd (s : State) (x : Xfer) : State :=
  let s1 := { s with net := s.net.dropXfer x.tile x.idx }
  match (s1.tile x.tile).descs.findIdx? fun f => f.idx = x.idx with
  | none => s1
  | some i =>
    match (s1.tile x.tile).descs[i]? with
    | none => s1
    | some f =>
      if x.status = stOk then s1.setDesc x.tile i { f with phase := .done }
      else (s1.when (x.d.kind = .get) fun s => s.undefinedRows x.tile f x.d).setDesc x.tile i (f.refuse x.status false)

/-- A transfer after a change: pumped, then ended once nothing is left to send or to wait for. -/
def State.xferStep (s : State) (x : Xfer) : State :=
  let r := s.pump x (x.todo.length + 3)
  if r.2.todo.isEmpty && r.2.out = 0 && !r.2.ringDue then r.1.xferEnd r.2 else r.1.setXfer r.2

/-- The answer to a tracked request: its transfer goes on (R300, R301). -/
def State.answerXfer (s : State) (p : PortId) (slot nack : Nat) (data : Option (List Byte)) : State :=
  let t := s.net.tracker p slot
  let s1 := { s with net := s.net.setTracker p slot { t with busy := false } }
  match s1.net.xfer t.tile t.idx with
  | none => s1
  | some x =>
    match data with
    | none => s1.xferStep (x.answered t.offset nack)
    | some bs =>
      let l := s1.land x t.row t.col bs
      let y := x.answered t.offset 0
      l.1.xferStep (if l.2 = stOk then y else { y with failed := some l.2 })

/-- Every transfer that waits for a tracker goes on (R301). -/
def State.pumpAll (s : State) : State := (s.net.xfers.filter fun x => !x.todo.isEmpty).foldl (fun s x =>
  match s.net.xfer x.tile x.idx with
  | none => s
  | some y => s.xferStep y) s

/-! ### Answers and violations -/

/-- A response to a request message (R276, R299). -/
def responseTo (n : NetS) (m : Msg) (ttype nack : Nat) (payload : List Byte) : Msg :=
  { m with vc := 2#3, gen := 1#4, ttype := BitVec.ofNat 4 ttype, cont := contFlits payload.length, detour := 0#3, dst := m.src,
           src := BitVec.ofNat 19 n.here, len := payload.length, ncode := BitVec.ofNat 8 nack, rsv := false, contBroken := false,
           payload := payload }

/-- Sends a response; where no way is open it is discarded (R293). -/
def State.respond (s : State) (m : Msg) (ttype nack : Nat) (payload : List Byte) : State :=
  let r := responseTo s.net m ttype nack payload
  match s.routeMsg r none with
  | none => s
  | some (p, out) => s.enqueue p (.msg out)

/-- NACKs a request that was queued here; a refusal of this module's own request ends it here (R280, R293). -/
def State.refuseMsg (s : State) (m : Msg) (nack : Nat) : State :=
  if m.src.toNat = s.net.here then
    s.answerXfer (Fin.ofNat 8 (bitsOf m.tag.toNat 13 3)) (bitsOf m.tag.toNat 0 11) nack none
  else s.respond m 5 nack []

/-- One event counted against a source on a port, most recent first; of 64 entries the least recently counted one that is not
quarantined makes room (R310). -/
def violCount (t : List Viol) (src : Nat) : List Viol × Viol :=
  let e := (t.find? fun v => v.src = src).getD { src := src, count := 0, quarantined := false }
  let e1 := { e with count := e.count + 1 }
  let rest := t.filter fun v => v.src ≠ src
  let keep := if rest.length < 64 then rest
    else
      match (rest.reverse.findIdx? fun v => !v.quarantined) with
      | none => rest
      | some i => rest.eraseIdx (rest.length - 1 - i)
  (e1 :: keep, e1)

/-- The first free quarantine entry of a port (R311). -/
def Port.freeQent (x : Port) : Option Nat := (List.range 16).find? fun j => (x.qent.get none j).isNone

/-- A violation by SRC on a port: counted, recorded, and quarantined at the threshold (R310, R311). -/
def State.violate (s : State) (p : PortId) (src nack : Nat) : State :=
  let x := s.port p
  let c := violCount x.table src
  let y := { x with table := c.1 }
  let s1 := (s.setPort p y).raisePort 2 0x36 p (payloadOf [(0x18, 1, p.val), (0x19, 1, nack), (0x1C, 4, src)])
  if s.net.qthresh = 0 || c.2.count < s.net.qthresh || c.2.quarantined then s1
  else
    match y.freeQent with
    | none => s1.raisePort 2 0x35 p (payloadOf [(0x18, 1, p.val), (0x1C, 4, src)])
    | some j =>
      (s1.setPort p { y with
        table := { c.2 with quarantined := true } :: c.1.drop 1
        qent := y.qent.set none j (some { src := src, count := min c.2.count (2 ^ 20 - 1) }) }).raisePort 1 0x34 p
        (payloadOf [(0x18, 1, p.val), (0x1C, 4, src), (0x20, 4, c.2.count)])

/-- A source is quarantined on a port. -/
def Port.quarantines (x : Port) (src : Nat) : Bool := x.qent.any fun e => match e.2 with
  | some q => q.src = src
  | none => false

/-- What is wrong with a message's header as received on a port (R310): its NACK code. -/
def State.headerBad (s : State) (p : PortId) (m : Msg) : Option Nat :=
  let cont := if m.ttype.toNat = 1 then 0 else contFlits m.len
  let own : Bool := axisOf m.src.toNat 3 = axisOf s.net.here 3
  if m.gen ≠ 1#4 then some 0x26
  else if m.rsv || m.contBroken || m.ttype.toNat > 6 || m.len > 3776 || m.cont ≠ cont then some 0x20
  else if (p.val < 6 && !own) || (p.val ≥ 6 && own) then some 0x23
  else none

/-- Flits accepted in order by a receiver (R278): the next FSEQ, a replay no longer awaited, the count under the key. -/
def State.acceptFlits (s : State) (p : PortId) (n : Nat) : State :=
  let x := s.port p
  s.setPort p { x with rxCount := x.rxCount + BitVec.ofNat 64 n,
                       link := { x.link with rxNext := x.link.rxNext + BitVec.ofNat 12 n, awaited := false } }

/-- Forwards a message that is not for this module, or refuses it (R290, R293). -/
def State.forward (s : State) (p : PortId) (m : Msg) : State :=
  let stop := fun (s : State) => s.when (msgClass m = 0) fun s => s.respond m 5 0x21 []
  if p.val ≥ 6 || !s.net.inShape m.dst then stop s
  else
    match s.routeMsg m (some p) with
    | none => stop s
    | some (q, out) => s.enqueue q (.msg out)

/-- A message arrives whole on a port: accepted by the link, checked, forwarded, or delivered here (R290, R299, R310, R311). -/
def State.inbound (s : State) (p : PortId) (m : Msg) (deliver : State → State) : State :=
  if !s.carries p then s
  else
    let s1 := s.acceptFlits p (1 + m.cont)
    let req : Bool := msgClass m = 0
    let src := m.src.toNat
    if (s.port p).quarantines src then s1.when req fun s => s.respond m 5 0x22 []
    else
      match s.headerBad p m with
      | some c => (s1.violate p src c).when req fun s => s.respond m 5 c []
      | none => if m.dst.toNat = s.net.here then deliver s1 else s1.forward p m

/-- The way of a message that came through a port (R507). -/
def State.portVia (s : State) (p : PortId) : Via := { die := portDie p, kind := 5, unit := p.val, admitted := (s.port p).attested }

/-- A refused check of R245 is counted against the source for checks 1 to 7 (R310). -/
def State.countCheck (s : State) (p : PortId) (m : Msg) (code : Nat) : State :=
  s.when (1 ≤ code && code ≤ 8 && code ≠ 7) fun s => s.violate p m.src.toNat code

/-- PUT_DATA (R299). -/
def execPutData (p : PortId) (m : Msg) (s : State) : Host.Outcome State Fault Refusal :=
  .next (s.inbound p { m with ttype := 0#4 } fun s =>
    let r := s.putAt (s.portVia p) m.window.toNat m.src.toNat m.offset.toNat m.bell.toNat m.ringop (m.payload.take m.len)
    if r.2 = 0 then r.1.respond { m with ringop := false } 3 0 [] else (r.1.countCheck p m r.2).respond m 5 r.2 [])

/-- GET_REQ (R299). -/
def execGetReq (p : PortId) (m : Msg) (s : State) : Host.Outcome State Fault Refusal :=
  .next (s.inbound p { m with ttype := 1#4 } fun s =>
    let r := s.getAt (s.portVia p) m.window.toNat m.src.toNat m.offset.toNat m.len
    if r.2.1 = 0 then r.1.respond m 4 0 r.2.2 else (r.1.countCheck p m r.2.1).respond m 5 r.2.1 [])

/-- REMOTE_RING (R166): its acknowledgement carries RINGOP. -/
def execRemoteRing (p : PortId) (m : Msg) (s : State) : Host.Outcome State Fault Refusal :=
  .next (s.inbound p { m with ttype := 2#4 } fun s =>
    let r := s.ringAt (s.portVia p) m.window.toNat m.src.toNat m.bell.toNat m.n
    if r.2 = 0 then r.1.respond { m with ringop := true } 3 0 [] else (r.1.countCheck p m r.2).respond m 5 r.2 [])

/-- The tracker that a response answers; none where its TAG names no outstanding slot of its kind and EPOCH (R301). -/
def NetS.answers (n : NetS) (m : Msg) : Option (PortId × Nat) :=
  let q : PortId := Fin.ofNat 8 (bitsOf m.tag.toNat 13 3)
  let slot := bitsOf m.tag.toNat 0 11
  let t := n.tracker q slot
  let fits : Bool := match m.ttype.toNat with
    | 3 => t.kind = 0 || t.kind = 2
    | 4 => t.kind = 1 && m.len = t.len && m.offset.toNat = t.offset
    | _ => true
  if t.busy && t.epoch.toNat = bitsOf m.tag.toNat 11 2 && fits then some (q, slot) else none

/-- A response for this module: it ends its tracker, or is dropped and counted (R301, R310). -/
def State.response (s : State) (p : PortId) (m : Msg) (nack : Nat) (data : Option (List Byte)) : State :=
  s.inbound p m fun s =>
    match s.net.answers m with
    | none => s.violate p m.src.toNat 0
    | some (q, slot) => (s.answerXfer q slot nack data).pumpAll

/-- PUT_ACK, GET_DATA and NACK (R300). -/
def execPutAck (p : PortId) (m : Msg) (s : State) : Host.Outcome State Fault Refusal :=
  .next (s.response p { m with ttype := 3#4 } 0 none)
def execGetData (p : PortId) (m : Msg) (s : State) : Host.Outcome State Fault Refusal :=
  .next (s.response p { m with ttype := 4#4 } 0 (some (m.payload.take m.len)))
def execNack (p : PortId) (m : Msg) (s : State) : Host.Outcome State Fault Refusal :=
  .next (s.response p { m with ttype := 5#4 } m.ncode.toNat none)

/-- MESSAGE_TIMEOUT (R301): the slot cools down, and the transfer has timed out (R300). -/
def execMessageTimeout (p : PortId) (slot : Fin 2048) (s : State) : Host.Outcome State Fault Refusal :=
  let t := s.net.tracker p slot.val
  .next (if !t.busy then s
    else
      let s1 := { s with net := s.net.setTracker p slot.val { t with busy := false, cooling := true } }
      match s1.net.xfer t.tile t.idx with
      | none => s1
      | some x => s1.xferStep { x with out := x.out - 1, timedOut := true })

/-- SLOT_EPOCH_ADVANCE (R301). -/
def execSlotEpochAdvance (p : PortId) (slot : Fin 2048) (s : State) : Host.Outcome State Fault Refusal :=
  let t := s.net.tracker p slot.val
  .next (if !t.cooling then s
    else State.pumpAll { s with net := s.net.setTracker p slot.val { t with cooling := false, epoch := t.epoch + 1#2 } })

/-! ### PUT and GET descriptors -/

/-- The spans of a row of `len` bytes at a remote offset (R298): each ends at a multiple of 16, or at the end of the row. -/
def rowSpans (off len fuel : Nat) : List (Nat × Nat) :=
  match fuel with
  | 0 => []
  | fuel' + 1 =>
    if len = 0 then []
    else
      let k := if len ≤ 3776 then len else 3776 - (off + 3776) % 16
      (off, k) :: rowSpans (off + k) (len - k) fuel'

/-- The messages of a transfer (R298), with the rows' data for a PUT. -/
def MoveDesc.messages (d : MoveDesc) (rows : List (List Byte)) : List Pending :=
  let put : Bool := d.kind = .put
  let base := if put then d.dst.toNat else d.src.toNat
  let stride := if put then d.dstStride else d.srcStride
  (List.range d.rows).flatMap fun r =>
    (rowSpans (base + r * stride) d.rowBytes (d.rowBytes + 1)).map fun p =>
      let col := p.1 - (base + r * stride)
      { kind := if put then 0 else 1, offset := p.1, len := p.2, row := r, col := col,
        payload := if put then ((rows.getD r []).drop col).take p.2 else [] }

/-- A PUT or GET starts (R296, R300): the local source is read, then its messages leave. A PUT of no elements with RING_EN is a
remote RING alone; any other descriptor of no elements makes no access. -/
def State.remoteStart (s : State) (t : TileId) (i : Nat) (f : InFlight) (d : MoveDesc) : State :=
  let x : Xfer :=
    { tile := t, idx := f.idx, d := d, vbase := f.vbase, pbase := f.pbase, todo := [], out := 0, nack := none, timedOut := false,
      failed := none, ringDue := d.kind = .put && d.ringEn }
  if d.empty then
    if x.ringDue then (s.setDesc t i { f with phase := .transferring }).xferStep x else s.setDesc t i { f with phase := .done }
  else
    let r := if d.kind = .put then s.readRows t f d else (s, stOk, [])
    if r.2.1 ≠ stOk then r.1.setDesc t i (f.refuse r.2.1 false)
    else (r.1.setDesc t i { f with phase := .transferring }).xferStep { x with todo := d.messages r.2.2 }

/-- PUT and GET (R296). -/
def State.runRemote (s : State) (t : TileId) (i : Nat) (kind : MoveKind) : State :=
  match (s.tile t).mayStart i kind with
  | none => s
  | some (f, d) => if f.host && s.cxl.state = 2 then s else s.remoteStart t i f d
def execPut (t : TileId) (i : Nat) (s : State) : Host.Outcome State Fault Refusal := .next (s.runRemote t i .put)
def execGet (t : TileId) (i : Nat) (s : State) : Host.Outcome State Fault Refusal := .next (s.runRemote t i .get)

/-- VIOLATION_HALVING (R310). -/
def execViolationHalving (s : State) : Host.Outcome State Fault Refusal :=
  .next { s with net := { s.net with ports := s.net.ports.map fun e =>
    (e.1, { e.2 with table := e.2.table.map fun v => { v with count := v.count / 2 } }) } }

/-- QCLEAR (R311, R315): one entry, or all. -/
def execQclear (p : PortId) (v : W32) (s : State) : Host.Outcome State Fault Refusal :=
  let x := s.port p
  let all : Bool := bitsOf v.toNat 4 1 = 1
  let gone := fun (src : Nat) => all || (match x.qent.get none (v.toNat % 16) with
    | some q => q.src = src
    | none => false)
  .next (if v.toNat ≥ 32 then s.discard
    else s.setPort p { x with
      qent := if all then [] else x.qent.set none (v.toNat % 16) none
      table := x.table.map fun e => if gone e.src then { e with quarantined := false } else e })

end Sys2Proof.Machine
end

