-- ==== Sys2Proof/Machine/Ports.lean ====
section
/-! DEFINITION. The life of a Carillon port: bring-up, neighbour check, width, keys, link down, retrain (R278 to R287, R308 to
R310), and how a Peal descriptor fails with its ports (R306). -/

namespace Sys2Proof.Machine

/-! ### Peal slots and their ports -/

def NetS.peal (n : NetS) (s : PealSlot) : PealS := n.peals.get PealS.reset s.val
def NetS.setPeal (n : NetS) (s : PealSlot) (v : PealS) : NetS := { n with peals := n.peals.set PealS.reset s.val v }
def State.peal (s : State) (k : PealSlot) : PealS := s.net.peal k
def State.setPeal (s : State) (k : PealSlot) (v : PealS) : State := { s with net := s.net.setPeal k v }

/-- The axis of a slot, the port it uses in a direction, its engine and its ring's length (R302). -/
def pealAxis (k : PealSlot) : Nat := k.val / 4
def pealPort (k : PealSlot) (positive : Bool) : PortId := Fin.ofNat 8 (2 * pealAxis k + (!positive).toNat)
def pealEngine (k : PealSlot) (positive : Bool) : Nat := 4 * (pealPort k positive).val + k.val % 4
def NetS.ringLen (n : NetS) (k : PealSlot) : Nat := n.len (pealAxis k)

/-- Chunks of an operation: L, or 2L under BOTH (R304). -/
def PealDesc.chunks (d : PealDesc) (len : Nat) : Nat := if d.dir = 2 then 2 * len else len

/-- Owned elements of a module: COUNT, or 2 * COUNT under BOTH (R319). -/
def PealDesc.owned (d : PealDesc) : Nat := if d.dir = 2 then 2 * d.count else d.count

/-- Bytes of an element of a Peal format, FP32 or BF16. -/
def pealBytes (fmt : Nat) : Nat := if fmt = 1 then 2 else 4

/-- Bytes of an operation's output (R304). -/
def PealDesc.outLen (d : PealDesc) (len : Nat) : Nat :=
  (if d.op = 0 then d.owned else d.chunks len * d.count) * pealBytes d.outFmt

/-- A virtual span left undefined, as far as it is mapped. -/
def State.undefinedVirt (s : State) (die : Nat) (ctx : W32) (va n : Nat) : State :=
  let r := s.spanPages die ctx va n true (n / 4096 + 2)
  match r.2 with
  | .error _ => s
  | .ok ps => ps.foldl (fun s p => s.undefinedSpan p.1 p.2) r.1

/-- Lots of a job that its feeder has not handed over fail (R322): the lowest decides, if lower than one failed before. -/
def Job.failRest (j : Job) (handed : Map Bool) (st : W32) : Job :=
  let lots := (j.d.n + 255) / 256
  let rest := (List.range lots).filter fun l => !handed.get false l
  match rest with
  | [] => j
  | l :: _ =>
    { j with doneLots := j.doneLots + rest.length, next := lots,
             failed := match j.failed with
               | none => some (l, st)
               | some f => if l < f.1 then some (l, st) else some f }

def CadS.job (c : CadS) (j : JobSlot) : Option Job := c.jobs.get none j.val
def CadS.setJob (c : CadS) (j : JobSlot) (v : Option Job) : CadS := { c with jobs := c.jobs.set none j.val v }
def CadS.modifyJob (c : CadS) (j : JobSlot) (f : Job → Job) : CadS := c.setJob j ((c.job j).map f)

/-- The job that a failed Peal descriptor feeds loses the lots not handed over (R322). -/
def CadS.failBound (c : CadS) (r : PealRun) (st : W32) : CadS :=
  match r.job with
  | none => c
  | some j => c.modifyJob j fun x => x.failRest r.handed st

/-- A Peal descriptor fails (R306): OUT undefined, a record of type 0x37, nothing more sent; its faults are withdrawn. -/
def State.pealFail (s : State) (k : PealSlot) (st : W32) : State :=
  let x := s.peal k
  match x.run with
  | none => s
  | some r =>
    if r.phase = .ended then s
    else
      let e0 := 0x4000 + pealEngine k true
      let e1 := 0x4000 + pealEngine k false
      let s1 := s.setPeal k { x with run := some { r with phase := .ended, status := st, held := [] } }
      let s2 := { s1 with
        net := { s1.net with cad := s1.net.cad.failBound r st }
        xlat := { s1.xlat with faults := (s1.xlat.faults.set none e0 none).set none e1 none }
        tocsin := (s1.tocsin.withdraw (faultSrc e0)).withdraw (faultSrc e1) }
      let s3 := s2.when (!r.d.toClapper) fun s => s.undefinedVirt (pealAxis k) r.d.ctx r.d.out (r.d.outLen (s.net.ringLen k))
      s3.raise 1 0x37 (pealAxis k) 5 (0x100 + pealEngine k true)
        (payloadOf [(0x18, 1, k.val), (0x1A, 2, r.d.opid), (0x1C, 4, st.toNat)])

/-- 0x0503 PEAL_FAULT with its detail (R313). -/
def stPeal (n : Nat) : W32 := statusWord 0x0503 n

/-- Every Peal operation under way that uses a port fails (R280, R306). -/
def State.pealPortDown (s : State) (p : PortId) : State :=
  (List.finRange 16).foldl (fun s k =>
    match (s.peal k).run with
    | none => s
    | some r =>
      if pealAxis k = p.val / 2 && s.net.ringLen k > 1 && r.phase = .running then s.pealFail k (stPeal 1) else s) s

/-! ### Link down and retrain -/

/-- The port has a link to lose: it is past step 2 of R284. -/
def Port.linked (x : Port) : Bool := x.state = 3 || x.state = 2 || (x.state = 1 && x.step ≥ 3)

/-- A port back at step 1: disabled, or in hold-off for 100 ms (R280, R284). -/
def Port.drop (x : Port) : Port :=
  { x with state := if x.en then 4 else 0, step := 1, width := 0, enc := false, attested := false, link := LinkLayer.fresh,
           widthSent := none, widthGot := none, waiting := [], retrains := 0 }

/-- Sends or refuses the requests that a failed port still held in its queue (R280). -/
def State.reroute (s : State) (q : List TxItem) : State :=
  q.foldl (fun s i => match i with
    | .ctrl _ _ => s
    | .msg m =>
      if msgClass m ≠ 0 then s
      else
        match s.routeMsg m none with
        | some (p, out) => s.enqueue p (.msg out)
        | none => s.refuseMsg m 0x21) s

/-- A link goes down with a cause (R280, R314); its SPDM session and its dictionary sessions end with it (R462, R499). -/
def State.linkDown (s : State) (p : PortId) (cause : Nat) : State :=
  let x := s.port p
  if !x.linked then s
  else
    let s1 := s.setPort p { x.drop with downs := satInc32 x.downs }
    let s2 := { s1 with
      cust := { s1.cust with spdm := s1.cust.spdm.set SpdmS.reset (2 + p.val) SpdmS.reset }
      dict := s1.dict.endPath (3 + p.val) }
    let s3 := s2.raisePort 1 0x30 p (payloadOf [(0x18, 1, p.val), (0x19, 1, cause), (0x1A, 1, x.width)])
    (s3.pealPortDown p).reroute x.link.queue

/-- The peer's coordinate bits from CAPS. -/
def Port.peerCoord (x : Port) : Nat :=
  match x.peer with
  | none => 0
  | some c => c.pair.toNat % 2 ^ 19

/-- A link violation (R310): counted against the link peer, and the link retrains from step 3; a third retrain within a second
takes it down. Whether three lie within a second is the draw's (assumption 18). -/
def State.linkViolation (s : State) (p : PortId) : State :=
  let x := s.port p
  let y := { x with violations := satInc32 x.violations, retrains := x.retrains + 1 }
  let s1 := ((s.setPort p y).raisePort 2 0x36 p (payloadOf [(0x18, 1, p.val), (0x1C, 4, x.peerCoord)])).drawn
  if y.retrains ≥ 3 && Config.freeChoice s.fresh 0 then s1.linkDown p 3
  else
    State.enqueue (s1.setPort p { y with state := 1, step := 4, link := { LinkLayer.fresh with queue := x.link.queue },
                                         widthSent := none, widthGot := none }) p (.ctrl 1 0)

/-- LINK_HEARTBEAT_TIMEOUT (R280). -/
def execLinkHeartbeatTimeout (p : PortId) (s : State) : Host.Outcome State Fault Refusal := .next (s.linkDown p 1)

/-- What breaks R275 in a trailer with a good CRC (R310). -/
def Port.trailerBad (x : Port) (f : Trailer) : Bool :=
  f.rsv || f.gen ≠ 1#4 || f.ltype.toNat > 3
    || ((f.ltype = 1#4 || f.ltype = 2#4) && (f.vc.toNat > 4 || (f.vc = 4#3 && (x.waiting.map fun m => 1 + m.cont).sum ≥ 512)))
    || (f.ltype = 3#4 && (f.ctrlCode.toNat = 0 || f.ctrlCode.toNat > 4))

/-- A good flit of a port: CRC, and AUTH on an encrypted link (R278). -/
def Port.goodFlit (x : Port) (f : Trailer) : Bool := f.crcGood && (!x.enc || f.authGood)

/-- FLIT_DISCARD (R278, R308, R310): a violation, a flit that fails CRC or AUTH, or one out of sequence; the first discard asks
for a replay. -/
def execFlitDiscard (p : PortId) (f : Trailer) (s : State) : Host.Outcome State Fault Refusal :=
  let x := s.port p
  .next (if !x.linked then s
    else if x.goodFlit f && x.trailerBad f then s.linkViolation p
    else if x.goodFlit f && (f.ltype = 0#4 || f.fseq = x.link.rxNext) then s
    else
      let auth : Bool := x.enc && f.crcGood && !f.authGood
      let ask : Bool := f.ltype ≠ 0#4 && !x.link.awaited
      s.setPort p { x with
        authFail := if auth then satInc32 x.authFail else x.authFail
        retries := if ask then satInc64 x.retries else x.retries
        link := { x.link with awaited := x.link.awaited || ask } })

/-- A RETRY (R278): what it acknowledges is freed and the rest replayed; the flit replayed 16 times without acceptance takes the
link down. Each replayed flit takes a fresh count (R308). -/
def State.replay (s : State) (p : PortId) (ackseq : BitVec 12) : State :=
  let x := s.port p
  let l := x.link.ack ackseq
  let first := l.acked + 1#12
  let n := if x.link.replays ≠ 0 && x.link.replayed = first then x.link.replays + 1 else 1
  if l.inFlight = 0 then s.setPort p { x with link := { l with replays := 0 } }
  else if n > 16 then s.linkDown p 2
  else
    State.flushPort (s.setPort p { x with link := { l with replayed := first, replays := n },
                                          txCount := x.txCount + BitVec.ofNat 64 l.inFlight }) p

/-- LINK_REPLAY (R278). -/
def execLinkReplay (p : PortId) (ackseq : BitVec 12) (s : State) : Host.Outcome State Fault Refusal :=
  .next (if (s.port p).linked then s.replay p ackseq else s)

/-- IDLE_FLIT (R275, R278, R279): acknowledgement, credits, a replay request. -/
def execIdleFlit (p : PortId) (f : Trailer) (s : State) : Host.Outcome State Fault Refusal :=
  let x := s.port p
  .next (if !x.linked || !x.goodFlit f || f.ltype ≠ 0#4 then s
    else if x.trailerBad f then s.linkViolation p
    else
      let l0 := if f.cv then x.link.credit f.cvc.toNat f.credits.toNat else x.link
      let l1 := if f.ackv then l0.ack f.ackseq else l0
      let s1 := State.flushPort (s.setPort p { x with rxCount := x.rxCount + 1#64, link := l1 }) p
      s1.when (f.retry && f.ackv) fun s => s.replay p f.ackseq)

/-! ### Bring-up -/

/-- The link is to be encrypted (R308, R494). -/
def State.mustEncrypt (s : State) (x : Port) (m : Caps) : Bool :=
  x.encReq || m.encReq || s.cust.sealed || (match s.cust.config with
    | none => false
    | some c => c.requireEnc)

/-- Step 8 of R284: the port is up, with its record, and sends what waits. -/
def State.portUp (s : State) (p : PortId) : State :=
  let x := s.port p
  let pair := match x.peer with
    | none => 0
    | some c => c.pair.toNat
  let s1 := (s.setPort p { x with state := 3, step := 8 }).raisePort 1 0x31 p
    (payloadOf [(0x18, 1, p.val), (0x19, 1, x.width), (0x1A, 1, x.enc.toNat + 2 * x.attested.toNat), (0x20, 8, pair)])
  s1.flushPort p

/-- The neighbour check of R285. -/
def NetS.neighbourOk (n : NetS) (p : PortId) (m : Caps) : Bool :=
  if p.val ≥ 6 then m.isSwitch
  else
    let a := p.val / 2
    let l := n.len a
    let want := withAxis n.here a ((axisOf n.here a + (if p.val % 2 = 0 then 1 else l - 1)) % l)
    !m.isSwitch && m.port = (p.val ^^^ 1) && m.shape = n.shape
      && m.pair.toNat / 2 ^ 32 = 2 ^ 32 - 1 - m.pair.toNat % 2 ^ 32 && m.pair.toNat % 2 ^ 19 = want

/-- Steps 6 and 7 of R284: deferred until coordinates are frozen; then a mismatch, SPDM, or up. -/
def State.neighbour (s : State) (p : PortId) : State :=
  let x := s.port p
  match x.peer with
  | none => s
  | some m =>
    if !((x.state = 1 && x.step = 6) || x.state = 2) || !s.net.frozen then s
    else if !s.net.neighbourOk p m then
      (s.setPort p { x with state := 2 }).raisePort 1 0x33 p (payloadOf [(0x18, 1, p.val), (0x20, 8, m.pair.toNat)])
    else if s.mustEncrypt x m && !x.enc then
      s.setPort p (if m.encCap then { x with state := 1, step := 7 } else x.drop)
    else s.portUp p

/-- NEIGHBOUR_RECHECK (R285). -/
def execNeighbourRecheck (p : PortId) (s : State) : Host.Outcome State Fault Refusal :=
  .next (if (s.port p).state = 2 then s.neighbour p else s)

/-- A half of the lanes is among those given. -/
def halfLocked (lanes : W16) (half : Nat) : Bool := bitsOf lanes.toNat (8 * half) 8 = 0xFF

/-- The width of step 5 of R284: full, else the half that both ends locked; none fails the step. -/
def commonWidth (a b : W16) : Option Nat :=
  let l := a &&& b
  if l = 0xFFFF#16 then some 3 else if halfLocked l 0 then some 1 else if halfLocked l 1 then some 2 else none

/-- A copy of the coordinate pair that an engine checks (R287). -/
def pairGood (v : W64) : Bool := w64Bits v 32 32 = 2 ^ 32 - 1 - w64Bits v 0 32

/-- An engine checks its copy of the coordinate pair, and reloads it from the Belfry's; if that mismatches too every port goes
down until cold reset (R287). -/
def State.coordCheck (s : State) (p : PortId) : State :=
  let x := s.port p
  if !s.net.frozen || pairGood x.coordCopy then s
  else
    let pair : W64 := s.net.coordC ++ s.net.coord
    if pairGood pair then (s.setPort p { x with coordCopy := pair }).raisePort 1 0x38 p (payloadOf [(0x18, 1, 0)])
    else
      let s1 := State.raisePort { s with net := { s.net with coordFault := true } } 1 0x38 p (payloadOf [(0x18, 1, 1)])
      (List.finRange 8).foldl (fun s q => s.linkDown q 5) s1

/-- COORDINATE_CHECK (R287). -/
def execCoordinateCheck (p : PortId) (s : State) : Host.Outcome State Fault Refusal := .next (s.coordCheck p)

/-- The lanes that the light source bays feed (R273): 0 to 7 by LS0, 8 to 15 by LS1. -/
def SvcS.lit (v : SvcS) : W16 :=
  (if v.baysOut.contains 0 then 0#16 else 0x00FF#16) ||| (if v.baysOut.contains 1 then 0#16 else 0xFF00#16)

/-- PORT_BRINGUP (R284 steps 1 to 4): from step 1, on the lanes with light and lock, to the exchange of CAPS. Ports stay closed
while no runtime has started (R493), and after a coordinate fault (R287). -/
def execPortBringup (p : PortId) (probe : PortProbe) (s : State) : Host.Outcome State Fault Refusal :=
  let s1 := s.coordCheck p
  let x := s1.port p
  .next (if x.linked || !x.en || s1.net.coordFault || !s1.cust.verified
      || (p.val < 6 && s1.net.frozen && s1.net.len (p.val / 2) < 2) then s1
    else if probe.lanes &&& s1.svc.lit = 0#16 then s1.setPort p x.drop
    else
      State.enqueue (s1.setPort p { x.drop with state := 1, step := 4, lanes := probe.lanes &&& s1.svc.lit, peer := none }) p (.ctrl 1 0))

/-- CAPS (R284 steps 4 to 6). -/
def execCaps (p : PortId) (m : Caps) (s : State) : Host.Outcome State Fault Refusal :=
  let x := s.port p
  .next (if !(x.state = 1 && x.step = 4) then s
    else
      let s1 := s.acceptFlits p 1
      let y := s1.port p
      match commonWidth x.lanes m.lanes with
      | none => s1.setPort p y.drop
      | some w =>
        if !m.levels.getLsbD 1 then s1.setPort p y.drop
        else (s1.setPort p { y with step := 6, peer := some m, width := w }).neighbour p)

/-- The digest that a peer's owner must have (R505). -/
def State.peerOwnerDigest (s : State) (c : OwnerConfig) : List Byte :=
  if c.peerOwner.all (· = 0#8) then Config.sm3 s.cust.ownerKey else c.peerOwner

/-- Peer admission by R505, on what the SPDM session proved. -/
def State.admits (s : State) (p : PortId) (m : PeerProof) : Bool :=
  match s.cust.config with
  | none => false
  | some c =>
    if p.val ≥ 6 then m.bothSides && m.chainSwitchRoot && !(c.switchRoot.all (· = 0#8))
    else
      m.bothSides && m.chainVendor && (c.digests.any fun d => !(d.all (· = 0#8)) && d = m.runtimeMeas) && m.svn ≥ s.cust.rollback
        && m.sealed && m.ownerDigest = s.peerOwnerDigest c

/-- SPDM (R281, R284 step 7, R505): the session between the link ends gives keys; in sealed mode a peer not admitted fails the
step. -/
def execSpdm (p : PortId) (m : PeerProof) (s : State) : Host.Outcome State Fault Refusal :=
  let x := s.port p
  .next (if !(x.state = 1 && x.step = 7) then s
    else
      let s1 := s.acceptFlits p 1
      let y := s1.port p
      let ok := s1.admits p m
      if !m.bothSides || (s1.cust.sealed && !ok) then s1.setPort p y.drop
      else
        let n := (s1.cust.spdm.get SpdmS.reset (2 + p.val)).begun + 1
        let ses : SpdmS := { level := 3, handshake := none, sessions := [⟨BitVec.ofNat 32 n, Config.exportSecret [] s1.fresh, true, 0⟩], begun := n }
        let s2 := State.drawn { s1 with cust := { s1.cust with spdm := s1.cust.spdm.set SpdmS.reset (2 + p.val) ses } }
        let z := { y with enc := true, attested := ok, txKey := y.txKey + 1, rxKey := y.rxKey + 1, rxNewKey := y.rxKey + 1,
                          txCount := 0#64, rxCount := 0#64 }
        ((s2.setPort p z).enqueue p (.ctrl 3 0)).portUp p)

/-- KEY (R309): the receiver switches to its newest key, with a count from 0. -/
def execKey (p : PortId) (s : State) : Host.Outcome State Fault Refusal :=
  let x := s.port p
  .next (if !x.enc || !x.linked then s
    else
      let s1 := s.acceptFlits p 1
      let y := s1.port p
      s1.setPort p (if y.rxNewKey = y.rxKey then y else { y with rxKey := y.rxNewKey, rxCount := 0#64 }))

/-- A direction of a link is given a new key (R309): the sender says so by KEY, a receiver keeps the old one until KEY comes. -/
def State.rekey (s : State) (p : PortId) (tx : Bool) : State :=
  let x := s.port p
  if !x.enc || !x.linked then s
  else if tx then
    let s1 := s.enqueue p (.ctrl 3 0)
    let y := s1.port p
    s1.setPort p { y with txKey := y.txKey + 1, txCount := 0#64 }
  else s.setPort p { x with rxNewKey := x.rxKey + 1 }

/-- REKEY (R309). -/
def execRekey (p : PortId) (tx : Bool) (s : State) : Host.Outcome State Fault Refusal := .next (s.rekey p tx)

/-! ### Width changes and PORT_CTRL -/

/-- Both ends have sent WIDTH for one half: the link switches (R283). -/
def State.widthSwitch (s : State) (p : PortId) : State :=
  let x := s.port p
  match x.widthSent, x.widthGot with
  | some a, some b =>
    if a = b then
      (s.setPort p { x with width := a.val + 1, widthSent := none, widthGot := none }).raisePort 1 0x32 p
        (payloadOf [(0x18, 1, p.val), (0x19, 1, x.width), (0x1A, 1, a.val + 1), (0x1B, 1, 1)])
    else s
  | _, _ => s

/-- A planned width change begins when WREQ names a half whose lanes are locked at both ends (R283). -/
def State.widthBegin (s : State) (p : PortId) : State :=
  let x := s.port p
  let half : Fin 2 := Fin.ofNat 2 (x.wreq - 1)
  let both := match x.peer with
    | none => false
    | some m => halfLocked x.lanes half.val && halfLocked m.lanes half.val
  if x.state = 3 && x.wreq ≠ 0 && x.wreq ≠ x.width && both then
    ((s.setPort p { x with widthSent := some half }).enqueue p (.ctrl 2 half.val)).widthSwitch p
  else s

/-- A write of PORT_CTRL (R280, R283, R284, R315). -/
def State.writePortCtrl (s : State) (p : PortId) (v : W32) : State :=
  let x := s.port p
  let wreq := bitsOf v.toNat 1 2
  let en : Bool := bitsOf v.toNat 0 1 = 1
  if v.toNat ≥ 16 || wreq = 3 then s.discard
  else
    let y := { x with encReq := bitsOf v.toNat 3 1 = 1, wreq := wreq, en := en }
    let s1 := s.setPort p y
    if !en then
      let s2 := s1.linkDown p 4
      s2.setPort p { (s2.port p).drop with en := false, state := 0 }
    else if !x.en then s1.setPort p { y with state := 1, step := 1 }
    else if wreq ≠ x.wreq then s1.widthBegin p
    else s1

/-- PORT_ENABLE, PORT_DISABLE and WIDTH_REQUEST: the writes of PORT_CTRL that do so (R280, R283, R284). -/
def execPortEnable (p : PortId) (v : W32) (s : State) : Host.Outcome State Fault Refusal := .next (s.writePortCtrl p v)
def execPortDisable (p : PortId) (v : W32) (s : State) : Host.Outcome State Fault Refusal := .next (s.writePortCtrl p v)
def execWidthRequest (p : PortId) (v : W32) (s : State) : Host.Outcome State Fault Refusal := .next (s.writePortCtrl p v)

/-- WIDTH_LAPSE (R283): the request lapses and WREQ reads 0. -/
def execWidthLapse (p : PortId) (s : State) : Host.Outcome State Fault Refusal :=
  let x := s.port p
  .next (if x.wreq ≠ 0 && x.wreq ≠ x.width then s.setPort p { x with wreq := 0, widthSent := none } else s)

/-- WIDTH (R283). -/
def execWidth (p : PortId) (half : Fin 2) (s : State) : Host.Outcome State Fault Refusal :=
  let x := s.port p
  .next (if x.state ≠ 3 then s
    else
      let s1 := s.acceptFlits p 1
      State.widthSwitch (s1.setPort p { (s1.port p) with widthGot := some half }) p)

/-- Coordinates freeze: every engine takes its copy, and every port waiting in step 6 goes on (R286, R287). -/
def State.coordsFrozen (s : State) : State :=
  let pair : W64 := s.net.coordC ++ s.net.coord
  (List.finRange 8).foldl (fun s p => State.neighbour (s.setPort p { (s.port p) with coordCopy := pair }) p)
    { s with net := { s.net with frozen := true } }

end Sys2Proof.Machine
end

