-- ==== Sys2Proof/Machine/Peal.lean ====
section
/-! DEFINITION. The Peal slots (R302 to R307) and their hand-over to the update path (R317 to R322). -/

namespace Sys2Proof.Machine

/-! ### Virtual accesses of the engines that stop in a fault (R227, R228) -/

/-- Why a virtual access of an engine does not go through: a fault, a status, or a host link in recovery (R421). -/
inductive AccErr where
  | fault (cause level : Nat) (last : W64) (va : Nat)
  | status (st : W32)
  | wait
  deriving DecidableEq, Repr

/-- The physical pieces of a virtual span. -/
def State.virtPages (s : State) (die : Nat) (ctx : W32) (va n : Nat) (write : Bool) : State × Except AccErr (List (Nat × Nat)) :=
  let r := s.spanPages die ctx va n write (n / 4096 + 2)
  match r.2 with
  | .error (.fault c l w, a) => (r.1, .error (.fault c l w a))
  | .error (.status st, _) => (r.1, .error (.status st))
  | .ok ps => if ps.any fun p => r.1.hostWaits p.1 then (r.1, .error .wait) else (r.1, .ok ps)

/-- Reads physical pieces in order; the first failure ends it. -/
def State.readPages (s : State) (die : Nat) (ps : List (Nat × Nat)) : State × Except AccErr (List Byte) :=
  ps.foldl (fun st p =>
    match st.2 with
    | .error _ => st
    | .ok bs =>
      let m := st.1.readMem p.1 p.2 die
      (m.st, if m.status = stOk then .ok (bs ++ m.data) else .error (.status m.status))) (s, .ok [])

/-- Writes bytes to physical pieces in order; the first failure ends it. -/
def State.writePages (s : State) (die : Nat) (ps : List (Nat × Nat)) (bs : List Byte) : State × Option AccErr :=
  let r := ps.foldl (fun (st : State × Option AccErr × List Byte) p =>
    match st.2.1 with
    | some _ => st
    | none =>
      let m := st.1.writeMem p.1 (st.2.2.take p.2) die
      (m.st, if m.status = stOk then none else some (.status m.status), st.2.2.drop p.2)) (s, none, bs)
  (r.1, r.2.1)

def State.virtRead (s : State) (die : Nat) (ctx : W32) (va n : Nat) : State × Except AccErr (List Byte) :=
  let r := s.virtPages die ctx va n false
  match r.2 with
  | .error e => (r.1, .error e)
  | .ok ps => r.1.readPages die ps

def State.virtWrite (s : State) (die : Nat) (ctx : W32) (va : Nat) (bs : List Byte) : State × Option AccErr :=
  let r := s.virtPages die ctx va bs.length true
  match r.2 with
  | .error e => (r.1, some e)
  | .ok ps => r.1.writePages die ps bs

/-- A span lies within a virtual address width of `w` bits: in its low half, or sign-extended in its high half. -/
def withinWidth (w va n : Nat) : Bool := n = 0 || va + n ≤ 2 ^ w || (2 ^ 64 - 2 ^ (w - 1) ≤ va && va + n ≤ 2 ^ 64)

/-- The virtual address width that a context gives (R217). -/
def CtxEntry.width (c : CtxEntry) : Nat := 12 + 9 * c.levels

/-! ### Descriptors -/

/-- The fields of a Peal descriptor (R303). -/
def PealDesc.ofBytes (bs : List Byte) : PealDesc :=
  let h := w64At bs 0
  let y := w64At bs 0x30
  { op := w64Bits h 4 2, dir := w64Bits h 6 2, inFmt := w64Bits h 8 4, outFmt := w64Bits h 12 4, toClapper := w64Bits h 16 1 = 1,
    startEn := w64Bits h 17 1 = 1, doneEn := w64Bits h 18 1 = 1, src := (w64At bs 0x10).toNat, out := (w64At bs 0x18).toNat,
    count := (w32At bs 0x20).toNat, ctx := w32At bs 0x24, opid := w16At bs 0x28, startBell := w64Bits y 0 14,
    doneBell := w64Bits y 16 14, startT := w64Bits y 32 32 }

/-- The checks of R307 on a descriptor's bytes alone, in its order. -/
def pealCheck (bs : List Byte) : Option W32 :=
  let h := w64At bs 0
  let y := w64At bs 0x30
  let d := PealDesc.ofBytes bs
  if !flamOk h (w64At bs 8) then some stHeader
  else if w64Bits h 0 4 ≠ 1 then some stVersion
  else if w64Bits h 19 45 ≠ 0 || d.op = 3 || d.dir = 3 || d.inFmt > 1 || d.outFmt > 1 || natOfBytes ((bs.drop 0x2A).take 6) ≠ 0
      || w64Bits y 14 2 ≠ 0 || w64Bits y 30 2 ≠ 0 || (d.op = 1 && d.outFmt ≠ d.inFmt) || (d.toClapper && d.op ≠ 0)
      || (d.toClapper && d.out ≠ 0) then some stReserved
  else if d.count = 0xFFFFFFFF then some stLength
  else none

/-- Bytes of an operation's input (R304). -/
def PealDesc.inLen (d : PealDesc) (len : Nat) : Nat := (if d.op = 1 then d.owned else d.chunks len * d.count) * pealBytes d.inFmt

/-- The format of a Peal code. -/
def pealFmt (f : Nat) : Fmt := if f = 1 then .bf16 else .fp32

/-- The elements of bytes in a Peal format, converted exactly to FP32. -/
def pealWords (f : Nat) (bs : List Byte) : List W32 :=
  (chunks (pealBytes f) bs.length bs).map fun e => (loadLane (pealFmt f) (some 0) (natOfBytes e)).1

/-- FP32 values in a Peal format: bits as they are, or BF16 by RNE (R304). -/
def pealOut (f : Nat) (ws : List W32) : List Byte :=
  ws.flatMap fun w => bytesOfNat (pealBytes f) (if f = 1 then (FloatFmt.bf16.convert .rne (fp32Val w)).1 else w.toNat)

/-! ### Chunks and rings -/

/-- The ring position of this module (R302). -/
def NetS.ringPos (n : NetS) (k : PealSlot) : Nat := axisOf n.here (pealAxis k)

/-- The neighbour's coordinate in a direction. -/
def NetS.neighbourOf (n : NetS) (k : PealSlot) (positive : Bool) : Nat :=
  let l := n.ringLen k
  withAxis n.here (pealAxis k) ((n.ringPos k + (if positive then 1 else l - 1)) % l)

/-- The directions an operation uses: true positive (R303). -/
def PealDesc.dirs (d : PealDesc) : List Bool := if d.dir = 0 then [true] else if d.dir = 1 then [false] else [true, false]

/-- The first chunk of a direction (R304). -/
def PealDesc.base (d : PealDesc) (len : Nat) (positive : Bool) : Nat := if d.dir = 2 && !positive then len else 0

/-- The direction of a chunk. -/
def PealDesc.positive (d : PealDesc) (len c : Nat) : Bool := d.dir = 0 || (d.dir = 2 && c < len)

/-- The chunk whose sum starts at this module in a direction: it is sent at step 1 (R304). -/
def NetS.firstChunk (n : NetS) (k : PealSlot) (d : PealDesc) (positive : Bool) : Nat :=
  let l := n.ringLen k
  d.base l positive + (n.ringPos k + (if positive then l - 1 else 1)) % l

/-- The chunk this module owns in a direction. -/
def NetS.ownChunk (n : NetS) (k : PealSlot) (d : PealDesc) (positive : Bool) : Nat := d.base (n.ringLen k) positive + n.ringPos k

/-- Elements of a chunk that arrive as partial sums, and as gathered results. -/
def NetS.rsNeed (n : NetS) (k : PealSlot) (d : PealDesc) (c : Nat) : Nat :=
  if d.op = 1 || n.ringLen k < 2 || c = n.firstChunk k d (d.positive (n.ringLen k) c) then 0 else d.count
def NetS.agNeed (n : NetS) (k : PealSlot) (d : PealDesc) (c : Nat) : Nat :=
  if d.op = 0 || n.ringLen k < 2 || c = n.ownChunk k d (d.positive (n.ringLen k) c) then 0 else d.count

/-- All step data of a direction has arrived. -/
def NetS.dirDone (n : NetS) (k : PealSlot) (r : PealRun) (positive : Bool) : Bool :=
  let l := n.ringLen k
  (List.range l).all fun j =>
    let c := r.d.base l positive + j
    r.rsGot.get 0 c = n.rsNeed k r.d c && r.agGot.get 0 c = n.agNeed k r.d c

/-- The place of an owned chunk among the owned ones: 0, or 1 for chunk L + r. -/
def ownPlace (len c : Nat) : Nat := if c < len then 0 else 1

/-- Pieces of `count` elements, `per` at a time: offset and number. -/
def pealPieces (off count per fuel : Nat) : List (Nat × Nat) :=
  match fuel with
  | 0 => []
  | fuel' + 1 => if count = 0 then [] else (off, min per count) :: pealPieces (off + min per count) (count - min per count) per fuel'

/-- A PEAL message (R305): its TAG names the engine's number i and the sending port. -/
def NetS.pealMsg (n : NetS) (k : PealSlot) (d : PealDesc) (c off fmt : Nat) (positive : Bool) (bs : List Byte) : Msg :=
  { vc := 4#3, gen := 1#4, ttype := 6#4, cont := contFlits bs.length, ringop := false, detour := 0#3,
    dst := BitVec.ofNat 19 (n.neighbourOf k positive), src := BitVec.ofNat 19 n.here,
    tag := BitVec.ofNat 16 (k.val % 4 + 8192 * (pealPort k positive).val), len := bs.length,
    offset := BitVec.ofNat 64 (off + c * 2 ^ 32 + d.opid * 2 ^ 48), window := BitVec.ofNat 8 (d.op + 4 * d.dir + 16 * fmt),
    ncode := 0#8, bell := 0#12, n := 0#16, rsv := false, contBroken := false, payload := bs }

/-- Sends elements of a chunk onwards, cut into messages of at most 3,776 B. -/
def State.pealSend (s : State) (k : PealSlot) (d : PealDesc) (c off fmt : Nat) (positive : Bool) (bs : List Byte) : State :=
  let w := pealBytes fmt
  (pealPieces 0 (bs.length / w) (3776 / w) bs.length).foldl (fun s p =>
    s.enqueue (pealPort k positive)
      (.msg (s.net.pealMsg k d c (off + p.1) fmt positive ((bs.drop (p.1 * w)).take (p.2 * w))))) s

/-! ### Running a descriptor -/

def State.setRun (s : State) (k : PealSlot) (r : PealRun) : State := s.setPeal k { (s.peal k) with run := some r }

/-- A virtual access of a descriptor did not go through: it fails, or stops in its engine's fault register (R227, R231, R306). -/
def State.pealStop (s : State) (k : PealSlot) (ctx : W32) (positive write : Bool) (e : AccErr) : State :=
  match e with
  | .wait => s
  | .status st => s.pealFail k st
  | .fault c lvl last va =>
    if c = 6 && s.cxl.state = 3 then s.pealFail k stHostLost
    else
      let e := pealEngine k positive
      s.placeFault (0x4000 + e) (pealAxis k) 5 (0x100 + e) ctx 0#32 (BitVec.ofNat 64 va) write c lvl last

/-- An engine of the slot holds a fault. -/
def State.pealFaulted (s : State) (k : PealSlot) : Bool :=
  (s.xlat.faults.get none (0x4000 + pealEngine k true)).isSome || (s.xlat.faults.get none (0x4000 + pealEngine k false)).isSome

/-- Owned sums leave the ring: kept for the Clapper units, or converted and written; an AR gathers them on (R304, R306). -/
def State.pealOwned (s : State) (k : PealSlot) (r : PealRun) (c off : Nat) (zs : List W32) :
    State × Except AccErr PealRun :=
  let l := s.net.ringLen k
  let d := r.d
  if d.toClapper then
    (s, .ok { r with sums := r.sums.setRun none (ownPlace l c * d.count + off) (zs.map some) })
  else
    let bs := pealOut d.outFmt zs
    let at_ := if d.op = 0 then ownPlace l c * d.count + off else c * d.count + off
    let w := s.virtWrite (pealAxis k) d.ctx (d.out + at_ * pealBytes d.outFmt) bs
    match w.2 with
    | some e => (w.1, .error e)
    | none =>
      (if d.op = 2 && l > 1 then w.1.pealSend k d c off d.outFmt (d.positive l c) bs else w.1, .ok r)

/-- Partial sums of a chunk arrive: this module's input is added, and they go on or end here (R304). -/
def State.pealSum (s : State) (k : PealSlot) (r : PealRun) (c off : Nat) (xs : List W32) : State × Bool × Except AccErr PealRun :=
  let l := s.net.ringLen k
  let d := r.d
  let w := pealBytes d.inFmt
  let i := s.virtRead (pealAxis k) d.ctx (d.src + (c * d.count + off) * w) (xs.length * w)
  match i.2 with
  | .error e => (i.1, false, .error e)
  | .ok bs =>
    let zs := List.zipWith fp32Add xs (pealWords d.inFmt bs)
    let r1 := { r with rsGot := r.rsGot.modify 0 c fun g => g + xs.length }
    if c = s.net.ownChunk k d (d.positive l c) then
      let o := i.1.pealOwned k r1 c off zs
      (o.1, true, o.2)
    else (i.1.pealSend k d c off 0 (d.positive l c) (pealOut 0 zs), false, .ok r1)

/-- Gathered results of a chunk arrive: written, and sent on unless the next module owns the chunk (R304). -/
def State.pealGather (s : State) (k : PealSlot) (r : PealRun) (c off : Nat) (bs : List Byte) : State × Except AccErr PealRun :=
  let l := s.net.ringLen k
  let d := r.d
  let w := pealBytes d.outFmt
  let pos := d.positive l c
  let o := s.virtWrite (pealAxis k) d.ctx (d.out + (c * d.count + off) * w) bs
  match o.2 with
  | some e => (o.1, .error e)
  | none =>
    let next := (s.net.ringPos k + (if pos then 1 else l - 1)) % l
    (if c = d.base l pos + next then o.1 else o.1.pealSend k d c off d.outFmt pos bs,
      .ok { r with agGot := r.agGot.modify 0 c fun g => g + bs.length / w })

/-- What a message says of its place: chunk and element offset (R305). -/
def msgChunk (m : Msg) : Nat := w64Bits m.offset 32 16
def msgElement (m : Msg) : Nat := w64Bits m.offset 0 32

/-- A message fits the descriptor as its next step data (R305); `gather` says in which phase its chunk stands. -/
def NetS.pealFits (n : NetS) (k : PealSlot) (r : PealRun) (positive gather : Bool) (m : Msg) : Bool :=
  let d := r.d
  let c := msgChunk m
  let got := if gather then r.agGot.get 0 c else r.rsGot.get 0 c
  let need := if gather then n.agNeed k d c else n.rsNeed k d c
  let fmt := if gather then d.outFmt else 0
  let w := pealBytes fmt
  m.src.toNat = n.neighbourOf k (!positive) && w64Bits m.offset 48 16 = d.opid && m.window.toNat = d.op + 4 * d.dir + 16 * fmt
    && m.bell = 0#12 && m.n = 0#16 && d.dirs.contains positive && d.base (n.ringLen k) positive ≤ c
    && c < d.base (n.ringLen k) positive + n.ringLen k && msgElement m = got && m.len % w = 0 && m.len ≠ 0
    && got + m.len / w ≤ need

/-- Step data for a running descriptor: summed or written; a mismatch fails it, a fault holds it back (R304 to R306, R310). -/
def State.pealTake (s : State) (k : PealSlot) (positive : Bool) (m : Msg) : State :=
  match (s.peal k).run with
  | none => s
  | some r =>
    let c := msgChunk m
    let bs := m.payload.take m.len
    let gather : Bool := r.rsGot.get 0 c = s.net.rsNeed k r.d c
    if !s.net.pealFits k r positive gather m then (s.pealFail k (stPeal 2)).violate (pealPort k !positive) m.src.toNat 0
    else
      let o : State × Bool × Except AccErr PealRun :=
        if gather then
          let g := s.pealGather k r c (msgElement m) bs
          (g.1, true, g.2)
        else s.pealSum k r c (msgElement m) (pealWords 0 bs)
      match o.2.2 with
      | .ok r1 => o.1.setRun k r1
      | .error e => (o.1.setRun k { r with held := r.held ++ [(m, positive)] }).pealStop k r.d.ctx positive o.2.1 e

/-- Step data that arrives on a port: it waits while its descriptor has not started, or behind a fault (R305). -/
def State.pealArrive (s : State) (p : PortId) (m : Msg) : State :=
  let e := bitsOf m.tag.toNat 0 11
  let positive : Bool := p.val % 2 = 1
  if e ≥ 4 then s.violate p m.src.toNat 0
  else
    let k : PealSlot := Fin.ofNat 16 (4 * (p.val / 2) + e)
    let later := s.setPort p { (s.port p) with waiting := (s.port p).waiting ++ [m] }
    match (s.peal k).run with
    | none => later
    | some r =>
      if r.phase ≠ .running || (r.d.dirs.contains positive && s.net.dirDone k r positive) then later
      else if !r.held.isEmpty || s.pealFaulted k then s.setRun k { r with held := r.held ++ [(m, positive)] }
      else s.pealTake k positive m

/-- PEAL (R305). -/
def execPeal (p : PortId) (m : Msg) (s : State) : Host.Outcome State Fault Refusal :=
  .next (s.inbound p { m with ttype := 6#4 } fun s => s.pealArrive p m)

/-- The step data for a slot that waits on a port arrives again, in its order. -/
def State.pealDrain (s : State) (k : PealSlot) (p : PortId) : State :=
  let mine := fun (m : Msg) => bitsOf m.tag.toNat 0 11 = k.val % 4
  let ms := (s.port p).waiting
  (ms.filter mine).foldl (fun s m => s.pealArrive p m)
    (s.setPort p { (s.port p) with waiting := ms.filter fun m => !mine m })

/-- Step data taken in order, held again from the next stop on. -/
def State.pealFeed (s : State) (k : PealSlot) (qs : List (Msg × Bool)) : State :=
  qs.foldl (fun s q =>
    match (s.peal k).run with
    | none => s
    | some r =>
      if r.phase ≠ .running then s
      else if !r.held.isEmpty || s.pealFaulted k then s.setRun k { r with held := r.held ++ [q] }
      else s.pealTake k q.2 q.1) s

/-- Step data held back goes on, once no engine of the slot holds a fault; anew into the hold from the next stop on. -/
def State.pealResume (s : State) (k : PealSlot) : State :=
  match (s.peal k).run with
  | none => s
  | some r =>
    if r.phase ≠ .running || s.pealFaulted k then s
    else
      State.pealFeed (s.setRun k { r with held := [] }) k r.held

/-- A descriptor's own part of step 1 in one direction (R304): what it sends first, with chunk, format and direction. -/
def State.pealFirst (s : State) (k : PealSlot) (r : PealRun) (positive : Bool) :
    State × Bool × Except AccErr (PealRun × List (Nat × Nat × List Byte)) :=
  let l := s.net.ringLen k
  let d := r.d
  let w := pealBytes d.inFmt
  let own := s.net.ownChunk k d positive
  let c := if d.op = 1 || l < 2 then own else s.net.firstChunk k d positive
  let at_ := if d.op = 1 then ownPlace l c * d.count else c * d.count
  let i := s.virtRead (pealAxis k) d.ctx (d.src + at_ * w) (d.count * w)
  match i.2 with
  | .error e => (i.1, false, .error e)
  | .ok bs =>
    if d.op = 1 then
      let o := i.1.virtWrite (pealAxis k) d.ctx (d.out + c * d.count * w) bs
      match o.2 with
      | some e => (o.1, true, .error e)
      | none => (o.1, true, .ok (r, if l < 2 then [] else [(c, d.outFmt, bs)]))
    else if l < 2 then
      let o := i.1.pealOwned k r c 0 (pealWords d.inFmt bs)
      (o.1, true, o.2.map fun r1 => (r1, []))
    else (i.1, false, .ok (r, [(c, 0, pealOut 0 (pealWords d.inFmt bs))]))

/-- The own chunks of every direction; the first failure, with its direction, ends them. -/
def State.pealFirsts (s : State) (k : PealSlot) (r : PealRun) :
    State × Except (Bool × Bool × AccErr) (PealRun × List (Bool × Nat × Nat × List Byte)) :=
  r.d.dirs.foldl (fun st pos =>
    match st.2 with
    | .error _ => st
    | .ok q =>
      let f := st.1.pealFirst k q.1 pos
      (f.1, match f.2.2 with
        | .error e => .error (pos, f.2.1, e)
        | .ok g => .ok (g.1, q.2 ++ g.2.map fun x => (pos, x)))) (s, .ok (r, []))

/-- A descriptor starts: the ports of its ring are up, its own chunks leave, and the step data that waited is taken. -/
def State.pealBegin (s : State) (k : PealSlot) (r : PealRun) : State :=
  let l := s.net.ringLen k
  if l > 1 && !(s.carries (pealPort k true) && s.carries (pealPort k false)) then s.pealFail k (stPeal 1)
  else
    let o := s.pealFirsts k r
    match o.2 with
    | .error e => o.1.pealStop k r.d.ctx e.1 e.2.1 e.2.2
    | .ok q =>
      let s1 := o.1.setRun k { q.1 with phase := .running }
      let s2 := q.2.foldl (fun s x => s.pealSend k r.d x.2.1 0 x.2.2.1 x.1 x.2.2.2) s1
      (s2.pealDrain k (pealPort k false)).pealDrain k (pealPort k true)

/-- Goes on with a descriptor not yet running: its context and bounds (R307), COUNT 0, START_BELL (R306), then the binding to a
job or the start. -/
def State.pealGo (s : State) (k : PealSlot) (r : PealRun) : State :=
  if s.pealFaulted k then s
  else
    let d := r.d
    let l := s.net.ringLen k
    let c := s.context (pealAxis k) d.ctx
    let start := r.d.dirs.headD true
    match c.2 with
    | .inr (.status st) => c.1.pealFail k st
    | .inr (.fault x lvl last) => c.1.pealStop k d.ctx start false (.fault x lvl last d.src)
    | .inl e =>
      if !withinWidth e.width d.src (d.inLen l) || (!d.toClapper && !withinWidth e.width d.out (d.outLen l)) then
        c.1.setRun k { r with phase := .ended, status := stBounds }
      else if d.count = 0 then c.1.setRun k { r with phase := .ended, status := stOk }
      else
        let a : Acquirer := { tile := none, die := pealAxis k, kind := 4, unit := pealEngine k start }
        let b := if d.startEn && r.job.isNone then c.1.acquire d.startBell d.startT a else (c.1, true)
        if !b.2 then b.1
        else if d.toClapper && r.job.isNone then b.1.setRun k { r with phase := .binding }
        else b.1.pealBegin k r

/-- The slot takes the descriptor at the head of its ring, or goes on with the one it has, where it is of the OP commanded. -/
def State.pealNext (s : State) (k : PealSlot) (op : Nat) : State :=
  let x := s.peal k
  match x.run with
  | some r => if r.d.op = op && r.phase = .starting then s.pealGo k r else s
  | none =>
    if !x.ring.ready then s
    else
      let a := x.ring.entry 64
      let m := s.readMem a 64 (pealAxis k)
      let d := PealDesc.ofBytes m.data
      let r : PealRun :=
        { addr := a, d := d, phase := .starting, status := stOk, rsGot := [], agGot := [], held := [], sums := [], handed := [],
          job := none, lotFault := none }
      let bad := if m.status ≠ stOk then some m.status else pealCheck m.data
      match bad with
      | some st =>
        State.setRun (if st = stHeader then m.st.flamMismatch else m.st) k { r with phase := .ended, status := st }
      | none => if d.op = op then (m.st.setRun k r).pealGo k r else s

/-- RS, AG and AR (R303, R304). -/
def execRs (k : PealSlot) (s : State) : Host.Outcome State Fault Refusal := .next (s.pealNext k 0)
def execAg (k : PealSlot) (s : State) : Host.Outcome State Fault Refusal := .next (s.pealNext k 1)
def execAr (k : PealSlot) (s : State) : Host.Outcome State Fault Refusal := .next (s.pealNext k 2)

/-- PEAL_TIMEOUT (R306, R322): a running descriptor without progress fails. -/
def execPealTimeout (k : PealSlot) (s : State) : Host.Outcome State Fault Refusal :=
  match (s.peal k).run with
  | none => .next s
  | some r => .next (if r.phase = .running then s.pealFail k (stPeal 3) else s)

/-- Lots of a job (R316). -/
def JobDesc.lots (d : JobDesc) : Nat := (d.n + 255) / 256

/-- Every lot of the job that a descriptor feeds has been handed over (R321). -/
def PealRun.allHanded (r : PealRun) (c : CadS) : Bool :=
  match r.job.bind c.job with
  | none => true
  | some j => (List.range j.d.lots).all fun l => r.handed.get false l

/-- A descriptor has all its step data, and has handed over every owned sum (R306, R321). -/
def NetS.pealDone (n : NetS) (k : PealSlot) (r : PealRun) : Bool :=
  r.phase = .running && r.d.dirs.all (n.dirDone k r) && (!r.d.toClapper || r.allHanded n.cad)

/-- PEAL_DESCRIPTOR_COMPLETE (R303, R306, R382): STATUS, then DONE_BELL of one that succeeded, then PQ_HEAD and
source 4. -/
def execPealDescriptorComplete (k : PealSlot) (s : State) : Host.Outcome State Fault Refusal :=
  let x := s.peal k
  match x.run with
  | none => .next s
  | some r =>
    let st := if r.phase = .ended then r.status else stOk
    .next (if !(r.phase = .ended || s.net.pealDone k r) then s
      else
        let s1 := (s.writeMem (r.addr + 0x38) (bytesOfNat 4 st.toNat ++ bytesOfNat 4 0) (pealAxis k)).st
        let e := pealEngine k (r.d.dirs.headD true)
        let s2 := if st = stOk && r.d.doneEn then
            (s1.ringBell r.d.doneBell 1#64 4#3 (BitVec.ofNat 8 e) .package).evalWaits (bellDie r.d.doneBell)
          else s1
        State.route (s2.setPeal k { (s2.peal k) with run := none, ring := x.ring.advance }) 4)

/-! ### The hand-over to the update path (R317 to R322) -/

/-- A lot fails with a status (R335): the lowest failed lot decides the job's status (R336). -/
def Job.failLot (j : Job) (lot : Nat) (st : W32) : Job :=
  { j with doneLots := j.doneLots + 1,
           failed := match j.failed with
             | none => some (lot, st)
             | some f => if lot < f.1 then some (lot, st) else some f }

/-- The format code of a stream, and the bytes of its elements (R330). -/
def JobDesc.fmt (d : JobDesc) (k : Nat) : Nat := bitsOf d.sfmt (4 * k) 4
def JobDesc.elem (d : JobDesc) (k : Nat) : Nat := if d.fmt k = 0 then 4 else 2
def JobDesc.sbaseOf (d : JobDesc) (k : Nat) : Nat := d.sbase.getD k 0

/-- The anchor address of a lot (R317). -/
def JobDesc.anchor (d : JobDesc) (lot : Nat) : Nat := d.sbaseOf 1 + 256 * lot * d.elem 1

/-- Active lanes of a lot (R316). -/
def JobDesc.lanes (d : JobDesc) (lot : Nat) : Nat := min 256 (d.n - 256 * lot)

/-- The unit that serves a lot whose anchor translated, or the status with which the lot fails (R317). -/
def State.lotUnit (s : State) (pa : Nat) : Except W32 Ctrl :=
  if !inMem pa 1 then .error stBounds
  else if !s.mem.serves pa then .error stTierError
  else .ok (Fin.ofNat 24 (s.mem.homeOf pa))

def CadS.unit (c : CadS) (u : Ctrl) : ClapUnit := c.units.get ClapUnit.reset u.val
def CadS.setUnit (c : CadS) (u : Ctrl) (v : ClapUnit) : CadS := { c with units := c.units.set ClapUnit.reset u.val v }
def State.setCad (s : State) (c : CadS) : State := { s with net := { s.net with cad := c } }

/-- Lots that a unit's buffers hold (R323). -/
def ClapUnit.held (x : ClapUnit) : Nat := x.buffers.length + x.cur.isSome.toNat

/-- The job that a TO_CLAPPER descriptor binds to: of GSRC ARRIVAL, its OPID and CTX, not yet bound (R319). -/
def CadS.bindable (c : CadS) (d : PealDesc) : Option (JobSlot × Job) :=
  (List.finRange 16).findSome? fun j =>
    match c.job j with
    | some x => if x.d.gsrc = 0 && x.d.opid = d.opid && x.d.ctx = d.ctx && x.bound.isNone then some (j, x) else none
    | none => none

/-- PEAL_BIND (R319): unequal element counts fail both. -/
def execPealBind (k : PealSlot) (s : State) : Host.Outcome State Fault Refusal :=
  match (s.peal k).run with
  | none => .next s
  | some r =>
    .next (if r.phase ≠ .binding then s
      else
        match s.net.cad.bindable r.d with
        | none => s
        | some (j, x) =>
          let s1 := s.setCad (s.net.cad.setJob j (some { x with bound := some k }))
          let r1 := { r with phase := .starting, job := some j }
          let s2 := s1.setRun k r1
          if x.d.n ≠ r.d.owned then s2.pealFail k stBounds else s2.pealBegin k r1)

/-- The summed gradient of a lot, once every active element is there (R320). -/
def PealRun.gradient (r : PealRun) (d : JobDesc) (lot : Nat) : Option (List W32) :=
  (r.sums.getRun none (256 * lot) (d.lanes lot)).mapM id

/-- LOT_HANDOVER (R317, R318, R320, R322): the owning engine translates the anchor and hands the lot to its unit, while the unit's
buffers have room. -/
def execLotHandover (k : PealSlot) (lot : Nat) (s : State) : Host.Outcome State Fault Refusal :=
  match (s.peal k).run with
  | none => .next s
  | some r =>
    match r.job with
    | none => .next s
    | some j =>
      match s.net.cad.job j with
      | none => .next s
      | some x =>
        match r.gradient x.d lot with
        | none => .next s
        | some g =>
          .next (if r.phase ≠ .running || lot ≥ x.d.lots || r.handed.get false lot || s.pealFaulted k then s
            else
              let pos : Bool := r.d.dir = 0 || (r.d.dir = 2 && 256 * lot < r.d.count)
              let va := x.d.anchor lot
              let t := s.translate (pealAxis k) r.d.ctx (BitVec.ofNat 64 va) false
              let given := fun (s : State) (c : CadS) => (s.setCad c).setRun k { r with handed := r.handed.set false lot true }
              let lose := fun (s : State) (st : W32) => given s (s.net.cad.modifyJob j fun x => x.failLot lot st)
              match t.2 with
              | .inr (.status st) => lose t.1 st
              | .inr (.fault c lvl last) =>
                if c = 6 && s.cxl.state = 3 then lose t.1 stHostLost
                else (t.1.setRun k { r with lotFault := some lot }).pealStop k r.d.ctx pos false (.fault c lvl last va)
              | .inl lf =>
                match t.1.lotUnit (lf.pbase + (va - lf.vbase)) with
                | .error st => lose t.1 st
                | .ok u =>
                  let v := t.1.net.cad.unit u
                  if v.held ≥ 24 then t.1
                  else given t.1 (t.1.net.cad.setUnit u { v with buffers := v.buffers ++ [{ job := j, lot := lot, grad := some g }] }))

/-- A Peal engine's fault is answered FAIL (R228, R306, R318): the lot whose anchor it names fails, else the descriptor. -/
def State.pealFaultFail (s : State) (k : PealSlot) (st : W32) : State :=
  match (s.peal k).run with
  | none => s
  | some r =>
    match r.lotFault, r.job with
    | some lot, some j =>
      let s1 := (s.setCad (s.net.cad.modifyJob j fun x => x.failLot lot st)).setRun k
        { r with lotFault := none, handed := r.handed.set false lot true }
      s1.pealResume k
    | _, _ => s.pealFail k st

/-- A Peal engine's fault is answered RETRY (R228): what it held back goes on. -/
def State.pealFaultRetry (s : State) (k : PealSlot) : State :=
  match (s.peal k).run with
  | none => s
  | some r => (s.setRun k { r with lotFault := none }).pealResume k

end Sys2Proof.Machine
end

