-- ==== Sys2Proof/Machine/Cadence.lean ====
section
/-! DEFINITION. The step counter and the Cadence engine (R337 to R343): schedule tables, the outputs in binary64, delivery. -/

namespace Sys2Proof.Machine

/-! ### Binary64 (R340) -/

def FloatFmt.fp64 : FloatFmt := ⟨11, 52, 1023, .ieee⟩

/-- The binary64 pattern of a value, rounded to nearest even. -/
def fp64Bits (x : Num) (sticky : Bool := false) : W64 :=
  match x with
  | .nan => 0x7FF8000000000000#64
  | .inf neg => if neg then 0xFFF0000000000000#64 else 0x7FF0000000000000#64
  | .fin v =>
    BitVec.ofNat 64 (FloatFmt.fp64.signed v.neg (min (FloatFmt.fp64.round .rne v.man v.exp sticky) FloatFmt.fp64.infEnc))

/-- A value rounded once to binary64. -/
def fp64Round (x : Num) (sticky : Bool := false) : Num := FloatFmt.fp64.decode (fp64Bits x sticky).toNat

def d64Add (a b : Num) : Num := fp64Round (a.add b)
def d64Sub (a b : Num) : Num := fp64Round (a.add b.negate)
def d64Mul (a b : Num) : Num := fp64Round (a.mul b)

/-- Division in binary64: 128 quotient bits beyond the divisor's and a sticky remainder. -/
def d64Div (a b : Num) : Num :=
  match a, b with
  | .fin x, .fin y =>
    if y.man = 0 then (if x.man = 0 then .nan else .inf (xor x.neg y.neg))
    else
      let n := x.man * 2 ^ 128
      fp64Round (.fin ⟨xor x.neg y.neg, n / y.man, x.exp - y.exp - 128⟩) (n % y.man ≠ 0)
  | .fin x, .inf s => .fin ⟨xor x.neg s, 0, 0⟩
  | .inf s, .fin y => .inf (xor s y.neg)
  | _, _ => .nan

/-- Square root in binary64, of a value that is not negative. -/
def d64Sqrt (a : Num) : Num :=
  match a with
  | .fin x =>
    if x.man = 0 then a
    else if x.neg then .nan
    else
      let odd := x.exp % 2 ≠ 0
      let n := x.man * 2 ^ (if odd then 141 else 140)
      let e := if odd then x.exp - 141 else x.exp - 140
      let r := isqrtBits n 100 0
      fp64Round (.fin ⟨false, r, e / 2⟩) (r * r ≠ n)
  | .inf neg => if neg then .nan else a
  | .nan => .nan

/-- An integer in binary64. -/
def d64Nat (n : Nat) : Num := fp64Round (.fin ⟨false, n, 0⟩)

/-- The greater of two values that are not NaN. -/
def d64Max (a b : Num) : Num :=
  match a.add b.negate with
  | .fin d => if d.neg && d.man ≠ 0 then b else a
  | .inf neg => if neg then b else a
  | .nan => a

/-- pow and cos(pi x), whose rounding the spec does not state (assumption 8). -/
def d64Pow (b e : Num) : Num := FloatFmt.fp64.decode (Config.cadencePow (fp64Bits b) (fp64Bits e)).toNat
def d64CosPi (x : Num) : Num := FloatFmt.fp64.decode (Config.cadenceCos (fp64Bits x)).toNat

/-! ### The schedule table (R341, R342) -/

/-- The fields of a schedule table. -/
structure Table where
  ctl : Nat
  peak : W32
  init : W32
  min_ : W32
  gamma : W32
  beta1 : W32
  beta2 : W32
  wd : W32
  t0 : Nat
  wsteps : Nat
  period : Nat
  pmult : Nat
  rsvZero : Bool
  deriving DecidableEq, Repr

/-- Reads a table from its sixteen words. -/
def Table.ofWords (m : Map W64) : Table :=
  let lo := fun i => BitVec.ofNat 32 (w64Bits (m.get 0#64 i) 0 32)
  let hi := fun i => BitVec.ofNat 32 (w64Bits (m.get 0#64 i) 32 32)
  { ctl := (lo 0).toNat, peak := hi 0, init := lo 1, min_ := hi 1, gamma := lo 2, beta1 := hi 2, beta2 := lo 3, wd := hi 3,
    t0 := (m.get 0#64 4).toNat, wsteps := (m.get 0#64 5).toNat, period := (m.get 0#64 6).toNat, pmult := (lo 7).toNat,
    rsvZero := hi 7 = 0#32 && (List.range 8).all fun i => m.get 0#64 (8 + i) = 0#64 }

def Table.warm (t : Table) : Nat := bitsOf t.ctl 4 2
def Table.decay (t : Table) : Nat := bitsOf t.ctl 6 3
def Table.restart (t : Table) : Bool := bitsOf t.ctl 9 1 = 1

/-- An FP32 field that is finite and not negative. -/
def fieldOk (w : W32) : Bool :=
  match fp32Val w with
  | .fin v => !v.neg || v.man = 0
  | _ => false

/-- The checks of R342. -/
def Table.valid (t : Table) : Bool :=
  let one : W32 := 0x3F800000#32
  let ones := 2 ^ 64 - 1
  bitsOf t.ctl 0 4 = 1 && t.warm ≠ 3 && t.decay < 5 && bitsOf t.ctl 10 22 = 0 && t.rsvZero
    && [t.peak, t.init, t.min_, t.gamma, t.beta1, t.beta2, t.wd].all fieldOk
    && !fp32Lt t.peak t.min_ && fp32Lt t.beta1 one && fp32Lt t.beta2 one && decide (t.wsteps = 0 ↔ t.warm = 0)
    && (t.warm ≠ 2 || fp32Lt 0#32 t.init) && (t.decay = 0 || t.period ≥ 1)
    && (t.decay ≠ 4 || (fp32Lt 0#32 t.gamma && !fp32Lt one t.gamma)) && (!t.restart || t.pmult ≥ 1)
    && t.t0 ≠ ones && t.wsteps ≠ ones && t.period ≠ ones

/-- The cycle of a restarting schedule: steps into it and its length; at most 64 cycles (R342). -/
def cycle (u len m fuel : Nat) : Nat × Nat :=
  match fuel with
  | 0 => (u, len)
  | fuel' + 1 => if u < len then (u, len) else cycle (u - len) (len * m) m fuel'

/-- The learning rate of step t in binary64 (R342). -/
def Table.rate (t : Table) (step : Nat) : Num :=
  let s := step - t.t0
  let peak := fp32Val t.peak
  let init := fp32Val t.init
  let low := fp32Val t.min_
  if s < t.wsteps then
    let x := d64Div (d64Nat s) (d64Nat t.wsteps)
    if t.warm = 1 then d64Add init (d64Mul (d64Sub peak init) x) else d64Mul init (d64Pow (d64Div peak init) x)
  else
    let u := s - t.wsteps
    let c := if t.restart then (if t.pmult = 1 then (u % t.period, t.period) else cycle u t.period t.pmult 64)
      else (if t.decay = 1 || t.decay = 2 then min u t.period else u, t.period)
    let f := d64Div (d64Nat c.1) (d64Nat c.2)
    match t.decay with
    | 1 => d64Add low (d64Div (d64Mul (d64Sub peak low) (d64Add (d64Nat 1) (d64CosPi f))) (d64Nat 2))
    | 2 => d64Add peak (d64Mul (d64Sub low peak) f)
    | 3 => d64Max low (d64Div peak (d64Sqrt (d64Add (d64Nat 1) f)))
    | 4 => d64Max low (d64Mul peak (d64Pow (fp32Val t.gamma) f))
    | _ => peak

/-- A bias correction (R340). -/
def biasCorrection (beta : W32) (tau : Nat) : Num :=
  d64Div (d64Nat 1) (d64Sub (d64Nat 1) (d64Pow (fp32Val beta) (d64Nat tau)))

/-- The outputs S16 to S23 of a step (R340). -/
def Table.outputs (t : Table) (step : W64) : List W32 :=
  let tau := step.toNat - t.t0 + 1
  let lr := t.rate step.toNat
  let bc1 := biasCorrection t.beta1 tau
  let wd := d64Mul lr (fp32Val t.wd)
  [fp32Round lr, fp32Round bc1, fp32Round (biasCorrection t.beta2 tau), fp32Round (d64Mul lr bc1),
    fp32Round (d64Sub (d64Nat 1) wd), fp32Round wd, BitVec.ofNat 32 (w64Bits step 0 32), BitVec.ofNat 32 (w64Bits step 32 32)]

/-! ### The step counter (R337 to R339) -/

/-- An active job names the current step. -/
def CadS.stepBusy (c : CadS) : Bool :=
  c.jobs.any fun e => match e.2 with
    | some j => j.d.step = c.step
    | none => false

/-- Active jobs (R329). -/
def CadS.active (c : CadS) : Nat := (c.jobs.filter fun e => e.2.isSome).length

/-- The counter has changed: a committed table takes effect; its flam pair is checked, and delivery is due (R339, R341, R343). -/
def CadS.changed (c : CadS) : CadS :=
  let c1 := { c with table := c.next.getD c.table, next := none, valid := false, pend := false }
  if flamOk c1.step c1.stepC then { c1 with due := true, fault := false } else { c1 with due := false, fault := true }

/-- A change of the counter; a flam mismatch is counted and raises source 5 (R13, R343, R382). -/
def State.stepChanged (s : State) (c : CadS) : State :=
  (s.setCad c.changed).when (!flamOk c.step c.stepC) fun s => s.flamMismatch.route 5

/-- The counter advances by 1, both halves of its pair (R337). -/
def State.stepAdvance (s : State) : State :=
  let c := s.net.cad
  s.stepChanged { c with step := c.step + 1#64, stepC := c.stepC - 1#64 }

/-- CAD_ADV (R337). -/
def execCadAdv (_v : W32) (s : State) : Host.Outcome State Fault Refusal :=
  let c := s.net.cad
  .next (if c.pend || c.fault || c.step = BitVec.allOnes 64 then s.discard
    else if c.stepBusy then s.setCad { c with pend := true }
    else s.stepAdvance)

/-- CAD_SET_C (R338): an applied commit clears FAULT. -/
def execCadSetC (v : W64) (s : State) : Host.Outcome State Fault Refusal :=
  let c := s.net.cad
  .next (if flamOk c.setVal v && c.active = 0 && !c.pend then s.stepChanged { c with step := c.setVal, stepC := v }
    else (s.setCad { c with err := true }).discard)

/-- CAD_COMMIT (R341, R342). -/
def execCadCommit (_v : W32) (s : State) : Host.Outcome State Fault Refusal :=
  let c := s.net.cad
  .next (s.setCad (if (Table.ofWords c.stage).valid then { c with next := some c.stage } else { c with err := true }))

/-- Outputs reach a unit as flam pairs for a step (R339). -/
def ClapUnit.deliver (x : ClapUnit) (outs : List W32) (step : W64) : ClapUnit :=
  { x with outs := Map.setRun 0#32 [] 0 outs, outsC := Map.setRun 0#32 [] 0 (outs.map fun w => ~~~ w), valid := some step,
           badStep := none }

/-- CADENCE_DELIVERY (R339, R343, R382): the outputs of the current step reach every unit, VALID is set and source 5
raised. -/
def execCadenceDelivery (s : State) : Host.Outcome State Fault Refusal :=
  let c := s.net.cad
  .next (if !c.due then s
    else if !flamOk c.step c.stepC then (s.setCad { c with due := false, fault := true, valid := false }).flamMismatch.route 5
    else
      let outs := (Table.ofWords c.table).outputs c.step
      let c1 := { c with due := false, valid := true, out := Map.setRun 0#32 [] 0 outs }
      State.route (s.setCad ((List.finRange 24).foldl (fun c u => c.setUnit u ((c.unit u).deliver outs c.step)) c1)) 5)

end Sys2Proof.Machine
end

