-- ==== Sys2Proof/Machine/Clapper.lean ====
section
/-! DEFINITION. Update jobs and the Clapper units (R316 to R336, R343): acceptance, programs, the run of a lot, completion. -/

namespace Sys2Proof.Machine

/-! ### Programs (R325, R326) -/

/-- A decoded instruction of a Clapper program. -/
inductive ClapOp where
  | cnt (msk : Nat)
  | vec (op : VOp) (a : VecArgs)
  deriving DecidableEq, Repr

/-- A register field within V0 to V61. -/
def clapReg (used : Bool) (v : Nat) : Bool := !used || v < 62

/-- VLD of a Clapper program: VD, MSK and IMM12[2:0] only. -/
def clapLoad (n : Nat) (smask : Nat) (a : VecArgs) : Bool :=
  onlyFields n [(0, 6), (24, 3), (36, 3)] && bitsOf smask a.imm 1 = 1

/-- VST of a Clapper program: VC, MSK, RM and IMM12[2:0] only, to a writable stream. -/
def clapStore (n : Nat) (swmask : Nat) (a : VecArgs) : Bool :=
  onlyFields n [(18, 6), (24, 3), (34, 2), (36, 3)] && a.rm < 2 && bitsOf swmask a.imm 1 = 1

/-- Decodes a word of a program for a job's stream masks, in the prologue or the body; none where it is refused (R325, R326). -/
def clapDecode (smask swmask : Nat) (prologue : Bool) (w : W64) : Option ClapOp :=
  let n := w.toNat
  let op := bitsOf n 56 6
  let a : VecArgs :=
    { vd := bitsOf n 0 6, va := bitsOf n 6 6, vb := bitsOf n 12 6, vc := bitsOf n 18 6, msk := bitsOf n 24 3,
      md := bitsOf n 27 3, fmt := bitsOf n 30 4, rm := bitsOf n 34 2, imm := bitsOf n 36 12, sa := 0#64, sb := 0#64 }
  if bitsOf n 62 2 ≠ 2 || bitsOf n 48 8 ≠ 0 then none
  else if op = 0x20 then (if onlyFields n [(24, 3)] && !prologue then some (.cnt a.msk) else none)
  else
    match VOp.ofCode op with
    | none => none
    | some o =>
      let src := o.sources
      let ok := match o with
        | .vld => clapLoad n smask a && !prologue
        | .vst => clapStore n swmask a && !prologue
        | .vbcast => onlyFields n [(0, 6), (6, 6), (24, 3)] && a.va < 24
        | _ => match decodeVector (fun _ => 0#64) n op with
          | .ok _ => true
          | .error _ => false
      let regs := clapReg o.writesVd a.vd && clapReg src.1 a.va && clapReg src.2.1 a.vb && clapReg src.2.2 a.vc
      if ok && regs && (prologue || !o.writesVd || a.vd < 48) then some (.vec o a) else none

/-! ### Registers of a unit -/

def zeroRow256 : Row := List.replicate 256 0#32
def ClapUnit.vreg (x : ClapUnit) (v : Nat) : Row := x.vregs.get zeroRow256 v
def ClapUnit.setVreg (x : ClapUnit) (v : Nat) (r : Row) : ClapUnit := { x with vregs := x.vregs.set zeroRow256 v r }

/-- M0 reads as the active lanes (R323). -/
def ClapUnit.mreg (x : ClapUnit) (lanes m : Nat) : BitVec 256 :=
  if m = 0 then BitVec.ofNat 256 (2 ^ lanes - 1) else x.mregs.get 0#256 m
def ClapUnit.setMreg (x : ClapUnit) (m : Nat) (v : BitVec 256) : ClapUnit := { x with mregs := x.mregs.set 0#256 m v }

/-- A scalar register of a program: S0, the job's constants, the Cadence outputs (R323). -/
def ClapUnit.sreg (x : ClapUnit) (consts : List W32) (n : Nat) : W32 :=
  if n = 0 then 0#32 else if n < 16 then consts.getD n 0#32 else x.outs.get 0#32 (n - 16)

/-- A read of a Cadence output finds its flam pair whole (R343). -/
def ClapUnit.outOk (x : ClapUnit) (n : Nat) : Bool :=
  n < 16 || x.outsC.get 0#32 (n - 16) = ~~~ (x.outs.get 0#32 (n - 16))

/-- A VST: the enabled lanes' elements in the stream's format, over what an earlier store of the lot left (R326, R334). -/
def storeLanes (fmt : Fmt) (rm : Nat) (m : BitVec 256) (single : Bool) (old : List (Option Nat)) (row : Row) :
    List (Option Nat) :=
  row.zipIdx.map fun p =>
    if m.getLsbD p.2 && (!single || p.2 = 0) then some (fmt.convert (vecRound rm) (storeValue fmt p.1)).1
    else (old.getD p.2 none)

/-- The number of active lanes set in a mask (R326). -/
def countLanes (lanes : Nat) (m : BitVec 256) : Nat := ((List.range lanes).filter fun l => m.getLsbD l).length

/-- VCNT: the job counter saturates (R323, R326). -/
def Job.count (j : Job) (n : Nat) : Job := { j with counter := satAdd64 j.counter n }

/-- What an instruction does to a unit, its lot and its job; none where a Cadence output it reads mismatches (R343). -/
def clapExec (o : ClapOp) (lanes : Nat) (x : ClapUnit) (r : LotRun) (j : Job) : Option (ClapUnit × LotRun × Job) :=
  match o with
  | .cnt msk => some (x, r, j.count (countLanes lanes (x.mreg lanes msk)))
  | .vec op a =>
    let m := x.mreg lanes a.msk
    let write := fun (row : Row) => x.setVreg a.vd (maskedRow 256 m (x.vreg a.vd) row)
    match op with
    | .vld => some (write (r.data.get zeroRow256 a.imm), r, j)
    | .vst =>
      let old := r.stores.get [] a.imm
      let fmt := (Fmt.ofCode (j.d.fmt a.imm)).getD .fp32
      let new := storeLanes fmt a.rm (m &&& x.mreg lanes 0) (a.imm = 7) old (x.vreg a.vc)
      some (x, { r with stores := r.stores.set [] a.imm new }, j)
    | .vbcast =>
      if x.outOk a.va then some (write (List.replicate 256 (x.sreg j.consts a.va)), r, j) else none
    | .vsel => some (x.setVreg a.vd (selectRow 256 m (x.vreg a.va) (x.vreg a.vb)), r, j)
    | _ =>
      if op.writesMd then
        let new := maskOf 256 (laneMask op a.imm (x.vreg a.va) (x.vreg a.vb))
        some (x.setMreg a.md ((x.mreg lanes a.md &&& ~~~ m) ||| (new &&& m)), r, j)
      else some (write (laneResult 8 op a.rm a.imm 0#64 (x.vreg a.va) (x.vreg a.vb) (x.vreg a.vc)), r, j)

/-- The instruction at a place of a job's program. -/
def Job.instr (j : Job) (pc : Nat) : Option ClapOp :=
  match j.words[pc]? with
  | none => none
  | some w => clapDecode j.d.smask j.d.swmask (pc < j.d.pro) w

/-- True of the instructions that have commands of their own. -/
def ClapOp.named (o : ClapOp) : Bool :=
  match o with
  | .cnt _ => true
  | .vec op _ => op = .vld || op = .vst || op = .vbcast

/-- Runs the program from the place reached, up to its end, or up to the next instruction of `stop`; none where an output
mismatched. -/
def clapRun (stop : ClapOp → Bool) (lanes fuel : Nat) (x : ClapUnit) (r : LotRun) (j : Job) : Option (ClapUnit × LotRun × Job) :=
  match fuel with
  | 0 => some (x, r, j)
  | fuel' + 1 =>
    match j.instr r.pc with
    | none => some (x, r, j)
    | some o =>
      if stop o then some (x, r, j)
      else
        match clapExec o lanes x r j with
        | none => none
        | some q => clapRun stop lanes fuel' q.1 { q.2.1 with pc := r.pc + 1 } q.2.2

/-- The prologue, run on all lanes, with V48 to V61 cleared first (R325): none where an output mismatched. -/
def ClapUnit.prologue (x : ClapUnit) (j : Job) : Option ClapUnit :=
  let y := { x with vregs := [], mregs := [] }
  let r : LotRun := { lot := { job := 0, lot := 0, grad := none }, data := [], pc := 0, stores := [], written := 0 }
  (clapRun (fun _ => false) 256 j.d.pro y r j).map fun q => q.1

/-- The start of a lot (R323): V0 to V47 and M1 to M7 cleared. -/
def ClapUnit.clearLot (x : ClapUnit) : ClapUnit := { x with vregs := x.vregs.filter fun e => 48 ≤ e.1, mregs := [] }

/-! ### The run of a lot (R333, R334) -/

/-- The fault register of a unit (R227, R237). -/
def clapFid (u : Nat) : Nat := 0x2000 + u

/-- A unit, or the dispatcher as unit 16, stops in a fault (R227, R318). -/
def State.clapFault (s : State) (u : Nat) (ctx : W32) (va : Nat) (write : Bool) (cause level : Nat) (last : W64) : State :=
  s.placeFault (clapFid u) (ctrlDie u) 6 u ctx 0#32 (BitVec.ofNat 64 va) write cause level last

/-- The unit's current lot leaves it, run or failed; it counts in LOTS (R348). -/
def ClapUnit.lotOver (x : ClapUnit) : ClapUnit := { x with cur := none, lots := x.lots + 1#32 }

/-- The lot that a unit runs, or the one at the head of its buffers, fails (R335). -/
def State.lotFail (s : State) (u : Ctrl) (st : W32) : State :=
  let c := s.net.cad
  let x := c.unit u
  match x.cur with
  | some r =>
    s.setCad ((c.modifyJob r.lot.job fun j => { j.failLot r.lot.lot st with lastUnit := some u }).setUnit u x.lotOver)
  | none =>
    match x.buffers with
    | [] => s
    | l :: rest =>
      s.setCad ((c.modifyJob l.job fun j => { j.failLot l.lot st with lastUnit := some u }).setUnit u
        { x.lotOver with buffers := rest })

/-- An access of a unit does not go through: its lot fails, or the unit stops in a fault (R227, R231, R335). -/
def State.clapStop (s : State) (u : Ctrl) (ctx : W32) (write : Bool) (e : AccErr) : State :=
  match e with
  | .wait => s
  | .status st => s.lotFail u st
  | .fault c lvl last va =>
    if c = 6 && s.cxl.state = 3 then s.lotFail u stHostLost else s.clapFault u.val ctx va write c lvl last

/-- The bytes of a stream's active lanes, as FP32 lanes with +0 behind them (R326). -/
def streamRow (fmt : Nat) (bs : List Byte) : Row :=
  let f := (Fmt.ofCode fmt).getD .fp32
  let xs := (chunks (f.width / 8) bs.length bs).map fun e => (loadLane f (some 0) (natOfBytes e)).1
  (xs ++ zeroRow256).take 256

/-- The streams that stage 1 reads for a job (R334); none where the program is empty (R332). -/
def JobDesc.reads (d : JobDesc) : List Nat :=
  if d.plen = 0 then []
  else (List.range 7).filter fun k => bitsOf d.smask k 1 = 1 && !(k = 0 && d.gsrc = 0)

/-- Stage 1: every used stream but stream 7 is read, up to the first failure. -/
def State.readStreams (s : State) (u : Ctrl) (d : JobDesc) (lot : Nat) : State × Except AccErr (Map Row) :=
  d.reads.foldl (fun st k =>
    match st.2 with
    | .error _ => st
    | .ok m =>
      let e := d.elem k
      let i := st.1.virtRead (ctrlDie u.val) d.ctx (d.sbaseOf k + 256 * lot * e) (d.lanes lot * e)
      (i.1, i.2.map fun bs => m.set zeroRow256 k (streamRow (d.fmt k) bs))) (s, .ok [])

/-- What R333 and R343 say of a lot at a unit: it waits, it may run, or it fails. -/
inductive Ready where
  | waits | runs | fails
  deriving DecidableEq, Repr

def CadS.ready (c : CadS) (u : Ctrl) (d : JobDesc) : Ready :=
  let x := c.unit u
  if c.step ≠ d.step then .waits
  else if c.fault || x.badStep = some d.step then .fails
  else if c.valid && !c.due && x.valid = some d.step then .runs
  else .waits

/-- A unit out of service runs nothing (R348). -/
def State.unitServes (s : State) (u : Ctrl) : Bool := s.mem.inService u.val

/-- A unit discards its outputs for a step after a mismatch (R343). -/
def ClapUnit.discardOuts (x : ClapUnit) (step : W64) : ClapUnit := { x with valid := none, badStep := some step }

/-- The flam mismatch of a Cadence output at a unit: its lot fails, its outputs are discarded (R13, R343). -/
def State.outMismatch (s : State) (u : Ctrl) (d : JobDesc) : State :=
  let c := s.net.cad
  State.lotFail ((s.setCad (c.setUnit u ((c.unit u).discardOuts d.step))).flamMismatch) u (statusWord 0x0707 0)

/-- The unit takes the lot at the head of its buffers, where it may run: the prologue on a change of job, then stage 1. -/
def State.lotBegin (s : State) (u : Ctrl) : State :=
  let c := s.net.cad
  let x := c.unit u
  match x.buffers with
  | [] => s
  | l :: rest =>
    match c.job l.job with
    | none => s
    | some j =>
      match c.ready u j.d with
      | .waits => s
      | .fails => s.lotFail u (statusWord 0x0707 0)
      | .runs =>
        match if x.lastJob = some l.job then some x else x.prologue j with
        | none => s.outMismatch u j.d
        | some y =>
          let i := s.readStreams u j.d l.lot
          match i.2 with
          | .error e => i.1.clapStop u j.d.ctx false e
          | .ok m =>
            let m1 := match l.grad with
              | none => m
              | some g => m.set zeroRow256 0 ((g ++ zeroRow256).take 256)
            let r : LotRun := { lot := l, data := m1, pc := j.d.pro, stores := [], written := 0 }
            i.1.setCad (i.1.net.cad.setUnit u { y.clearLot with lastJob := some l.job, buffers := rest, cur := some r })

/-- The dispatcher hands out lots of jobs of GSRC MEMORY or NONE, in increasing order, until this unit has one (R317, R318, R333). -/
def State.dispatch (s : State) (u : Ctrl) (fuel : Nat) : State :=
  match fuel with
  | 0 => s
  | fuel' + 1 =>
    let c := s.net.cad
    let pick := (List.finRange 16).findSome? fun k =>
      match c.job k with
      | some j => if j.d.gsrc ≠ 0 && j.next < j.d.lots && c.ready u j.d ≠ .waits then some (k, j) else none
      | none => none
    match pick with
    | none => s
    | some (k, j) =>
      if !(c.unit u).buffers.isEmpty || c.wait ≠ .none || (s.xlat.faults.get none (clapFid 16)).isSome then s
      else
        let lot := j.next
        let va := j.d.anchor lot
        let step := fun (c : CadS) => c.modifyJob k fun j => { j with next := lot + 1 }
        let lose := fun (s : State) (st : W32) => s.setCad ((step s.net.cad).modifyJob k fun j => j.failLot lot st)
        let t := s.translate 4 j.d.ctx (BitVec.ofNat 64 va) false
        match t.2 with
        | .inr (.status st) => (lose t.1 st).dispatch u fuel'
        | .inr (.fault x lvl last) =>
          if x = 6 && s.cxl.state = 3 then (lose t.1 stHostLost).dispatch u fuel'
          else (t.1.setCad { t.1.net.cad with wait := .lot k }).clapFault 16 j.d.ctx va false x lvl last
        | .inl lf =>
          match t.1.lotUnit (lf.pbase + (va - lf.vbase)) with
          | .error st => (lose t.1 st).dispatch u fuel'
          | .ok w =>
            let y := t.1.net.cad.unit w
            if y.held ≥ 24 then t.1
            else
              (t.1.setCad ((step t.1.net.cad).setUnit w
                { y with buffers := y.buffers ++ [{ job := k, lot := lot, grad := none }] })).dispatch u fuel'

/-- The unit has a lot to run: the one it has begun, else one dispatched and begun, unless it is stopped in a fault. -/
def State.lotReady (s : State) (u : Ctrl) : State :=
  if (s.xlat.faults.get none (clapFid u.val)).isSome || !s.unitServes u then s
  else
    match (s.net.cad.unit u).cur with
    | some _ => s
    | none => (s.dispatch u 600).lotBegin u

/-- The runs of consecutive lanes that a store has elements for: first lane and elements. -/
def laneRuns (xs : List (Option Nat)) (lane : Nat) (acc : List Nat) : List (Nat × List Nat) :=
  match xs with
  | [] => if acc.isEmpty then [] else [(lane - acc.length, acc)]
  | some v :: rest => laneRuns rest (lane + 1) (acc ++ [v])
  | none :: rest =>
    if acc.isEmpty then laneRuns rest (lane + 1) [] else (lane - acc.length, acc) :: laneRuns rest (lane + 1) []

/-- The address of a lane of a stream for a lot, and the bytes of its elements: stream 7 has one element a lot (R330). -/
def JobDesc.laneAt (d : JobDesc) (k lot lane : Nat) : Nat :=
  if k = 7 then d.sbaseOf 7 + 4 * lot else d.sbaseOf k + (256 * lot + lane) * d.elem k

/-- Stage 3 for one stream: its runs written in order; the first failure ends it. -/
def State.writeStream (s : State) (u : Ctrl) (d : JobDesc) (lot k : Nat) (xs : List (Option Nat)) : State × Option AccErr :=
  (laneRuns xs 0 []).foldl (fun st p =>
    match st.2 with
    | some _ => st
    | none => st.1.virtWrite (ctrlDie u.val) d.ctx (d.laneAt k lot p.1) (p.2.flatMap fun v => bytesOfNat (d.elem k) v)) (s, none)

/-- The range of a failed write is undefined (R335). -/
def State.undefinedStream (s : State) (u : Ctrl) (d : JobDesc) (lot k : Nat) (xs : List (Option Nat)) : State :=
  (laneRuns xs 0 []).foldl (fun s p =>
    s.undefinedVirt (ctrlDie u.val) d.ctx (d.laneAt k lot p.1) (p.2.length * d.elem k)) s

/-- Stage 3 (R334, R335): the streams stored to, in increasing number from the first not yet dealt with; then the lot is done. -/
def State.writeLot (s : State) (u : Ctrl) (fuel : Nat) : State :=
  match fuel with
  | 0 => s
  | fuel' + 1 =>
    let c := s.net.cad
    let x := c.unit u
    match x.cur with
    | none => s
    | some r =>
      match c.job r.lot.job with
      | none => s
      | some j =>
        if r.written ≥ 8 then
          s.setCad ((c.modifyJob r.lot.job fun j => { j with doneLots := j.doneLots + 1, lastUnit := some u }).setUnit u x.lotOver)
        else
          let xs := r.stores.get [] r.written
          let w := s.writeStream u j.d r.lot.lot r.written xs
          match w.2 with
          | none =>
            let y := w.1.net.cad.unit u
            (w.1.setCad (w.1.net.cad.setUnit u { y with cur := some { r with written := r.written + 1 } })).writeLot u fuel'
          | some (.status st) =>
            (if statusCode st / 256 = 3 then w.1.undefinedStream u j.d r.lot.lot r.written xs else w.1).lotFail u st
          | some e => w.1.clapStop u j.d.ctx true e

/-- Runs the body of the current lot up to an instruction of `stop`. -/
def State.lotBody (s : State) (u : Ctrl) (stop : ClapOp → Bool) : State :=
  let c := s.net.cad
  let x := c.unit u
  match x.cur with
  | none => s
  | some r =>
    match c.job r.lot.job with
    | none => s
    | some j =>
      match clapRun stop (j.d.lanes r.lot.lot) 257 x r j with
      | none => s.outMismatch u j.d
      | some q => s.setCad ((c.setJob r.lot.job (some q.2.2)).setUnit u { q.1 with cur := some q.2.1 })

/-- LOT_RUN (R333, R334): the rest of the lot begun, or a whole one. -/
def execLotRun (u : Ctrl) (s : State) : Host.Outcome State Fault Refusal :=
  .next (((s.lotReady u).lotBody u fun _ => false).writeLot u 10)

/-- One named instruction of the body, if it is the program's next: the operations without commands of their own that stand
before it run first. -/
def State.clapOne (s : State) (u : Ctrl) (want : ClapOp → Bool) : State :=
  let s1 := (s.lotReady u).lotBody u ClapOp.named
  let c := s1.net.cad
  match (c.unit u).cur with
  | none => s1
  | some r =>
    match c.job r.lot.job with
    | none => s1
    | some j =>
      match j.instr r.pc with
      | none => s1
      | some o =>
        if !want o then s1
        else
          match clapExec o (j.d.lanes r.lot.lot) (c.unit u) r j with
          | none => s1.outMismatch u j.d
          | some q => s1.setCad ((c.setJob r.lot.job (some q.2.2)).setUnit u { q.1 with cur := some { q.2.1 with pc := r.pc + 1 } })

/-- VCNT, VLD, VST and VBCAST of a Clapper program (R326, R343). -/
def execVcnt (u : Ctrl) (msk : Fin 8) (s : State) : Host.Outcome State Fault Refusal :=
  .next (s.clapOne u fun o => o = .cnt msk.val)
def execClapperVld (u : Ctrl) (vd : Fin 64) (msk stream : Fin 8) (s : State) : Host.Outcome State Fault Refusal :=
  .next (s.clapOne u fun o => match o with
    | .vec .vld a => a.vd = vd.val && a.msk = msk.val && a.imm = stream.val
    | _ => false)
def execClapperVst (u : Ctrl) (vc : Fin 64) (msk stream : Fin 8) (rtz : Bool) (s : State) : Host.Outcome State Fault Refusal :=
  .next (s.clapOne u fun o => match o with
    | .vec .vst a => a.vc = vc.val && a.msk = msk.val && a.imm = stream.val && a.rm = rtz.toNat
    | _ => false)
def execClapperVbcast (u : Ctrl) (vd : Fin 64) (msk : Fin 8) (sa : Fin 24) (s : State) : Host.Outcome State Fault Refusal :=
  .next (s.clapOne u fun o => match o with
    | .vec .vbcast a => a.vd = vd.val && a.msk = msk.val && a.va = sa.val
    | _ => false)

/-! ### Acceptance and completion (R329 to R332, R336) -/

/-- The fields of a job descriptor (R330). -/
def JobDesc.ofBytes (bs : List Byte) : JobDesc :=
  let h := w64At bs 0
  { gsrc := w64Bits h 4 2, doneEn := w64Bits h 6 1 = 1, smask := w64Bits h 8 8, swmask := w64Bits h 16 8,
    n := (w64At bs 0x10).toNat, step := w64At bs 0x18, prog := (w64At bs 0x20).toNat, plen := w16At bs 0x28,
    opid := w16At bs 0x2A, ctx := w32At bs 0x2C, sfmt := (w32At bs 0x30).toNat, done := w16At bs 0x34 % 16384,
    pro := byteAt bs 0x36, sbase := (List.range 8).map fun k => (w64At bs (0x40 + 8 * k)).toNat }

/-- The rules of R330 for one stream. -/
def JobDesc.streamOk (d : JobDesc) (k : Nat) : Bool :=
  let used : Bool := bitsOf d.smask k 1 = 1
  let writable : Bool := bitsOf d.swmask k 1 = 1
  let base := d.sbaseOf k
  let arrival : Bool := d.gsrc = 0
  if !used then !writable && d.fmt k = 0 && base = 0 && !(k = 0 && d.gsrc ≠ 2) && k ≠ 1
  else
    match k with
    | 0 => d.gsrc ≠ 2 && !writable && (if arrival then d.fmt 0 = 0 && base = 0 else d.fmt 0 ≤ 1 && base % (256 * d.elem 0) = 0)
    | 7 => writable && d.fmt 7 = 0 && base % 4 = 0
    | _ => d.fmt k ≤ 2 && base % (256 * d.elem k) = 0

/-- Check 3 of R331: reserved fields and codes, and the rules of R330. -/
def JobDesc.rulesOk (d : JobDesc) (bs : List Byte) : Bool :=
  let h := w64At bs 0
  w64Bits h 7 1 = 0 && w64Bits h 24 40 = 0 && d.gsrc ≠ 3 && w16At bs 0x34 < 16384 && byteAt bs 0x37 = 0
    && d.prog % 64 = 0 && d.pro ≤ d.plen && (List.range 8).all d.streamOk

/-- The span of a stream over a whole job (R330). -/
def JobDesc.span (d : JobDesc) (k : Nat) : Nat :=
  if bitsOf d.smask k 1 = 0 || (k = 0 && d.gsrc = 0) then 0 else if k = 7 then 4 * d.lots else d.n * d.elem k

/-- Checks 1 to 7 of R331, in its order; `width` is the context's virtual address width, where the context is valid. -/
def CadS.jobCheck (c : CadS) (bs : List Byte) (width : Option Nat) : Option W32 :=
  let h := w64At bs 0
  let d := JobDesc.ofBytes bs
  let wide := match width with
    | none => false
    | some w => (List.range 8).any fun k => !withinWidth w (d.sbaseOf k) (d.span k)
  if !flamOk h (w64At bs 8) then some stHeader
  else if w64Bits h 0 4 ≠ 1 then some stVersion
  else if !d.rulesOk bs then some stReserved
  else if d.n = 2 ^ 64 - 1 || d.plen = 0xFFFF then some stLength
  else if d.plen > 256 || wide then some stBounds
  else if d.gsrc = 0 && (c.jobs.any fun e => match e.2 with
      | some j => j.d.gsrc = 0 && j.d.opid = d.opid && j.d.ctx = d.ctx
      | none => false) then some (statusWord 0x0708 0)
  else if d.step.toNat < c.step.toNat then some (statusWord 0x0706 0)
  else none

/-- The image of a job is whole: constant 0 zero, every instruction accepted (R325, R331). -/
def JobDesc.imageOk (d : JobDesc) (consts : List W32) (words : List W64) : Bool :=
  consts.headD 0#32 = 0#32 && words.zipIdx.all fun w => (clapDecode d.smask d.swmask (w.2 < d.pro) w.1).isSome

/-- A job's STATUS is written, source 3 raised (R330, R336, R382). -/
def State.jobStatus (s : State) (addr : Nat) (st : W32) (ext : Nat) : State :=
  ((s.writeMem (addr + 0x38) (bytesOfNat 4 st.toNat ++ bytesOfNat 4 ext) 4).st).route 3

/-- A job's DONE ring, naming the unit that ran its last lot; where none ran, the unit is open (R336, assumption 1). -/
def State.jobDone (s : State) (d : JobDesc) (unit : Option Ctrl) : State :=
  if !d.doneEn then s
  else
    let u := match unit with
      | some v => BitVec.ofNat 8 v.val
      | none => BitVec.ofNat 8 ((Config.freeByte s.fresh 0).toNat % 24)
    ((s.drawn.ringBell d.done 1#64 3#3 u .package).evalWaits (bellDie d.done))

/-- The dispatcher goes on to the next entry of the update queue. -/
def State.uqAdvance (s : State) : State := s.setCad { s.net.cad with uq := s.net.cad.uq.advance }

/-- JOB_ACCEPT (R329, R331, R332): the entry at the head of the update queue is refused with its STATUS, or becomes an active
job. -/
def State.jobAccept (s : State) : State :=
  let c := s.net.cad
  if !c.uq.ready || c.active ≥ 16 || c.wait ≠ .none || (s.xlat.faults.get none (clapFid 16)).isSome then s
  else
    let a := c.uq.entry 128
    let m := s.readMem a 128 4
    let d := JobDesc.ofBytes m.data
    let cx := m.st.context 4 d.ctx
    let width := match cx.2 with
      | .inl e => some e.width
      | .inr _ => none
    let refuse := fun (s : State) (st : W32) => (s.when (st = stHeader) State.flamMismatch).jobStatus a st 0 |>.uqAdvance
    let stop := fun (s : State) (va x lvl : Nat) (last : W64) =>
      if x = 6 && s.cxl.state = 3 then refuse s stHostLost
      else (s.setCad { s.net.cad with wait := .accept }).clapFault 16 d.ctx va false x lvl last
    if m.status ≠ stOk then refuse m.st m.status
    else
      match c.jobCheck m.data width with
      | some st => refuse cx.1 st
      | none =>
        match cx.2 with
        | .inr (.status st) => refuse cx.1 st
        | .inr (.fault x lvl last) => stop cx.1 d.prog x lvl last
        | .inl _ =>
          let p := cx.1.virtRead 4 d.ctx d.prog (64 + 8 * d.plen)
          match p.2 with
          | .error .wait => p.1
          | .error (.status st) => refuse p.1 st
          | .error (.fault x lvl last va) => stop p.1 va x lvl last
          | .ok bs =>
            let consts := (List.range 16).map fun i => w32At bs (4 * i)
            let words := (List.range d.plen).map fun i => w64At bs (64 + 8 * i)
            if !d.imageOk consts words then refuse p.1 stReserved
            else if d.n = 0 then (p.1.jobStatus a stOk 0).jobDone d none |>.uqAdvance
            else
              match (List.finRange 16).find? fun k => (c.job k).isNone with
              | none => s
              | some k =>
                let j : Job := { addr := a, d := d, consts := consts, words := words, counter := 0#64, next := 0, doneLots := 0,
                                 failed := none, lastUnit := none, bound := none }
                (p.1.setCad (p.1.net.cad.setJob k (some j))).uqAdvance

def execJobAccept (s : State) : Host.Outcome State Fault Refusal := .next s.jobAccept

/-- The Peal descriptors bound to a job are free of it. -/
def State.unbindJob (s : State) (k : JobSlot) : State :=
  (List.finRange 16).foldl (fun s p =>
    match (s.peal p).run with
    | none => s
    | some r => if r.job = some k then s.setRun p { r with job := none } else s) s

/-- A job's end: no unit takes its registers for a later job in the slot, and a Peal descriptor bound to it is free of it. -/
def State.jobGone (s : State) (k : JobSlot) : State :=
  let c := (List.finRange 24).foldl (fun (c : CadS) u =>
    if (c.unit u).lastJob = some k then c.setUnit u { (c.unit u) with lastJob := none } else c) (s.net.cad.setJob k none)
  (s.setCad c).unbindJob k

/-- The extended word of a job (R336). -/
def Job.ext (j : Job) : Nat :=
  match j.failed with
  | none => min j.counter.toNat 0xFFFFFFFF
  | some f => f.1 % 2 ^ 32

/-- JOB_COMPLETE (R336, R337): STATUS, then DONE; the last job of the current step lets a pending advance take effect. -/
def execJobComplete (k : JobSlot) (s : State) : Host.Outcome State Fault Refusal :=
  match s.net.cad.job k with
  | none => .next s
  | some j =>
    .next (if j.doneLots < j.d.lots then s
      else
        let st := match j.failed with
          | none => stOk
          | some f => f.2
        let s1 := ((s.jobStatus j.addr st j.ext).jobDone j.d j.lastUnit).jobGone k
        if s1.net.cad.pend && !s1.net.cad.stepBusy then s1.stepAdvance else s1)

/-! ### Fault responses (R228, R318, R331) -/

/-- A unit's fault, or the dispatcher's as unit 16, is answered: on RETRY what stopped goes on with its command; on FAIL with a
status the lot fails, or the job is refused. -/
def State.clapAnswered (s : State) (u : Ctrl) (fail : Option W32) : State :=
  let c := s.net.cad
  let w := if u.val = 16 then c.wait else .none
  let free := s.when (u.val = 16) fun s => s.setCad { s.net.cad with wait := .none }
  match fail, w with
  | none, _ => free
  | some st, .none => s.lotFail u st
  | some st, .accept => (free.jobStatus (c.uq.entry 128) st 0).uqAdvance
  | some st, .lot k => free.setCad (free.net.cad.modifyJob k fun j => { j.failLot j.next st with next := j.next + 1 })

end Sys2Proof.Machine
end

