-- ==== Sys2Proof/Machine/Cores.lean ====
section
/-! DEFINITION. The resident cores at their registers (R384, R387, R391): start, timers, the mailbox buffers. -/

namespace Sys2Proof.Machine

/-- A held core starts in M-mode at an address, with its number in a0 (R387). -/
def Core.start (k : Core) (c : CoreId) (entry : W64) : Core :=
  { k with state := 1, pc := entry, a0 := BitVec.ofNat 64 c.val, trap := none }

/-- CORE_START (R387, R203): of a core not held, or of a misaligned address, the write is discarded. -/
def execCoreStart (c : CoreId) (entry : W64) (s : State) : Host.Outcome State Fault Refusal :=
  .next (if (s.core c).state = 0 && entry.toNat % 4 = 0 && s.cache.swept then s.setCore c ((s.core c).start c entry)
    else s.discard)

/-- Time has come to a value: the C-die tally stands there or beyond (R375, R384). -/
def TocsinS.reach (q : TocsinS) (v : W64) : TocsinS :=
  { q with tallies := q.tallies.set 0#64 4 (if (q.tally 4).toNat < v.toNat then v else q.tally 4) }

/-- MACHINE_TIMER_INTERRUPT (R384): time is at or beyond MTIMECMP, and MTIP is pending. -/
def execMachineTimerInterrupt (c : CoreId) (s : State) : Host.Outcome State Fault Refusal :=
  .next (State.setCore { s with tocsin := s.tocsin.reach (s.core c).mtimecmp } c { s.core c with mtip := true })

/-- SUPERVISOR_TIMER_INTERRUPT (R375, R384): time reaches stimecmp, or time + htimedelta reaches vstimecmp. -/
def execSupervisorTimerInterrupt (c : CoreId) (virt : Bool) (s : State) : Host.Outcome State Fault Refusal :=
  let k := s.core c
  .next (if virt then
      State.setCore { s with tocsin := s.tocsin.reach (k.vstimecmp - k.htimedelta) } c { k with vstip := true }
    else State.setCore { s with tocsin := s.tocsin.reach k.stimecmp } c { k with stip := true })

/-- HOST_MSG_FREE (R391, R417): a write of 0 to HOST_MSG_LEN frees the buffer; any other is discarded. -/
def execHostMsgFree (v : W32) (s : State) : Host.Outcome State Fault Refusal :=
  .next (if v = 0#32 then { s with cores := { s.cores with hostMsgLen := 0 } } else s.discard)

/-- RT_MSG_OFFER (R391, R417): a write of RT_MSG_LEN offers the reply; above 256 it is discarded. -/
def execRtMsgOffer (v : W32) (s : State) : Host.Outcome State Fault Refusal :=
  .next (if v.toNat ≤ 256 then { s with cores := { s.cores with rtMsgLen := v.toNat, rtMsgOffered := true } } else s.discard)

end Sys2Proof.Machine
end

