-- ==== Sys2Proof/Machine/Entries.lean ====
section
/-! DEFINITION. The entries of the dictionary (R463, R464, R474 to R482): types, rights, attributes, ranges and defaults; the
values that commits have left, and the Belfry's own commits (R466, R468). -/

namespace Sys2Proof.Machine

/-- What the group tables give an entry: its type code (R463), its rights by principal as ASCII characters (R10), its attributes
(R464), its range, its Default, and whether it is a mirror (R466). -/
structure EntryInfo where
  type : Nat
  rights : List Byte
  persistent : Bool
  freezable : Bool
  rmin : Bool
  rmax : Bool
  pub : Bool
  lo : Int
  hi : Int
  dflt : List Byte
  mirror : Bool
  deriving DecidableEq, Repr

/-- The Rights strings of the tables. -/
def rightChar (n : Nat) : Byte :=
  match n with
  | 0 => 0x2D#8
  | 1 => 0x72#8
  | 2 => 0x63#8
  | _ => 0x77#8
def rAll : List Byte := [1, 1, 1, 1, 1, 1, 1].map rightChar
def rFive : List Byte := [1, 1, 1, 1, 1, 0, 0].map rightChar
def rTray : List Byte := [1, 1, 1, 3, 1, 0, 0].map rightChar
def rPower : List Byte := [1, 3, 3, 3, 1, 0, 0].map rightChar
def rCoarse : List Byte := [2, 1, 2, 2, 1, 0, 0].map rightChar
def rService : List Byte := [1, 3, 0, 3, 1, 0, 0].map rightChar
def rSealed : List Byte := [1, 3, 1, 1, 1, 0, 1].map rightChar
def rOwner : List Byte := [1, 3, 1, 1, 1, 0, 0].map rightChar
def rMeas : List Byte := [1, 1, 1, 1, 1, 0, 1].map rightChar

/-- An entry with no attribute, the whole range of its type's width, and Default zero. -/
def plainEntry (type width : Nat) (rights : List Byte) : EntryInfo :=
  { type := type, rights := rights, persistent := false, freezable := false, rmin := false, rmax := false, pub := false, lo := 0,
    hi := 2 ^ (8 * width) - 1, dflt := bytesOfNat width 0, mirror := false }

/-- A mirror (R466). -/
def mirrorEntry (type width : Nat) (rights : List Byte) : EntryInfo := { plainEntry type width rights with mirror := true }

/-- A persistent, public identity entry (R474). -/
def idEntry (type : Nat) (v : List Byte) : EntryInfo :=
  { plainEntry type 8 rAll with dflt := v, persistent := true, pub := true, mirror := true, lo := 0, hi := 0 }

/-- The Default of the three strings of R474, as UTF-8. -/
def strVendor : List Byte := [0x5A#8, 0x77#8, 0x69#8, 0x61#8, 0x76#8, 0x61#8, 0x69#8, 0x6E#8, 0x61#8]
def strOrder : List Byte := [0x5A#8, 0x42#8, 0x2D#8, 0x45#8, 0x38#8, 0x31#8, 0x30#8, 0x30#8]
def strStepping : List Byte := [0x42#8, 0x30#8]

/-- V_FR in mV (R441). -/
def vfr : Nat := 730 + 5 * Config.vfrStep.val

/-- Identity and inventory (R474). -/
def idInfo (sub : Nat) : Option EntryInfo :=
  match sub with
  | 1 => some (idEntry 0x0B strVendor)
  | 2 => some (idEntry 0x0B strOrder)
  | 3 => some (idEntry 0x0B strStepping)
  | 4 => some { idEntry 2 [1#8] with hi := 255 }
  | 5 => some (idEntry 0x0B Config.serial)
  | 6 => some { idEntry 5 (bytesOfNat 8 Config.pciId.toNat) with hi := 2 ^ 64 - 1 }
  | 7 => some { idEntry 5 (bytesOfNat 8 Config.mac.toNat) with hi := 2 ^ 64 - 1 }
  | 8 => some { mirrorEntry 3 2 rFive with dflt := bytesOfNat 2 vfr, persistent := true }
  | _ => none

/-- Topology and coordinates (R475). -/
def topologyInfo (sub : Nat) : Option EntryInfo :=
  match sub with
  | 1 => some { plainEntry 5 8 rTray with freezable := true, dflt := bytesOfNat 8 0xFFFFFFFF00000000 }
  | 2 => some { plainEntry 4 4 rTray with freezable := true, hi := 2 ^ 19 - 1 }
  | 3 => some { mirrorEntry 2 1 rFive with pub := true }
  | 4 => some (mirrorEntry 1 1 rFive)
  | _ => none

/-- Power and rate (R476): the controls, then the mirrors. -/
def powerInfo (sub : Nat) : Option EntryInfo :=
  let ctl := fun (type width lo hi dflt : Nat) =>
    { plainEntry type width rPower with persistent := true, freezable := true, lo := lo, hi := hi, dflt := bytesOfNat width dflt }
  match sub with
  | 0x01 => some (ctl 2 1 0 2 0)
  | 0x02 => some { ctl 3 2 600 3200 2800 with rmin := true }
  | 0x03 => some { ctl 1 1 0 1 0 with rmin := true }
  | 0x04 => some (ctl 3 2 80 140 135)
  | 0x05 => some (ctl 3 2 120 205 198)
  | 0x10 => some (mirrorEntry 4 4 rCoarse)
  | 0x11 => some (mirrorEntry 4 4 rCoarse)
  | 0x12 => some (mirrorEntry 4 4 rCoarse)
  | 0x13 => some (mirrorEntry 4 4 rFive)
  | _ => none

/-- Thermal (R477). -/
def thermalInfo (sub : Nat) : Option EntryInfo :=
  if sub = 1 then
    some { plainEntry 2 1 rPower with persistent := true, freezable := true, rmin := true, lo := 85, hi := 105,
                                      dflt := bytesOfNat 1 100 }
  else if 0x10 ≤ sub ∧ sub ≤ 0x15 then some (mirrorEntry 4 4 rCoarse)
  else if sub = 0x20 then some { plainEntry 5 8 rFive with persistent := true }
  else none

/-- Custody (R480). -/
def custodyInfo (sub : Nat) : Option EntryInfo :=
  match sub with
  | 1 => some { plainEntry 1 1 rSealed with persistent := true, freezable := true, rmax := true, hi := 1 }
  | 2 => some { plainEntry 0x0C 0 rOwner with persistent := true }
  | 3 => some { mirrorEntry 0x0D 8 rFive with persistent := true }
  | 4 => some { mirrorEntry 0x0C 0 rMeas with dflt := [] }
  | _ => none

/-- Telemetry (R481). -/
def telemetryInfo (sub : Nat) : Option EntryInfo :=
  match sub with
  | 1 => some (mirrorEntry 5 8 rFive)
  | 2 => some (mirrorEntry 5 8 rFive)
  | 3 => some (mirrorEntry 5 8 rFive)
  | 4 => some (mirrorEntry 4 4 rFive)
  | 5 => some (mirrorEntry 4 4 rFive)
  | 6 => some (mirrorEntry 4 4 rFive)
  | _ => none

/-- Service actions (R482). -/
def serviceInfo (sub : Nat) : Option EntryInfo :=
  match sub with
  | 1 => some { plainEntry 0x0D 8 rService with dflt := bytesOfNat 8 0 ++ bytesOfNat 8 (2 ^ 64 - 1) }
  | 2 => some (mirrorEntry 4 4 rFive)
  | 3 => some (plainEntry 5 8 rFive)
  | _ => none

/-- The number of WEIGHT entries: one for each counter of R431 (assumption 24). -/
def weights : Nat := 24

/-- An array entry: one per subindex below n. -/
def arrayOf (n sub : Nat) (e : EntryInfo) : Option EntryInfo := if sub < n then some e else none

/-- The entry at an index and a subindex; none where there is none (R8, R473). -/
def entryInfo (idx sub : Nat) : Option EntryInfo :=
  match idx with
  | 0x1000 => idInfo sub
  | 0x1010 => arrayOf 256 sub (mirrorEntry 4 4 rFive)
  | 0x1011 => arrayOf 256 sub { plainEntry 5 8 rFive with persistent := true }
  | 0x1012 => arrayOf 256 sub { plainEntry 5 8 rFive with persistent := true }
  | 0x1013 => arrayOf 256 sub { plainEntry 2 1 rFive with persistent := true }
  | 0x1014 => arrayOf 96 sub { plainEntry 2 1 rFive with persistent := true }
  | 0x2000 => topologyInfo sub
  | 0x3000 => powerInfo sub
  | 0x3100 => arrayOf weights sub
    { mirrorEntry 0x0A 4 rFive with dflt := bytesOfNat 4 (Config.weight sub).toNat, persistent := true, hi := 0 }
  | 0x4000 => thermalInfo sub
  | 0x5000 => if sub = 1 then some (mirrorEntry 4 4 rFive) else none
  | 0x5010 => arrayOf 24 sub (mirrorEntry 2 1 rFive)
  | 0x5011 => arrayOf 24 sub (mirrorEntry 4 4 rFive)
  | 0x5012 => arrayOf 24 sub (mirrorEntry 5 8 rFive)
  | 0x5020 => arrayOf 6 sub (mirrorEntry 5 8 rFive)
  | 0x6000 => arrayOf 8 sub { plainEntry 4 4 rService with persistent := true, freezable := true, dflt := bytesOfNat 4 0x4410 }
  | 0x6001 => arrayOf 8 sub (mirrorEntry 4 4 rFive)
  | 0x6002 => arrayOf 8 sub (mirrorEntry 4 4 rFive)
  | 0x6003 => arrayOf 1 sub (mirrorEntry 4 4 rFive)
  | 0x6010 => arrayOf 8 sub (mirrorEntry 4 4 rFive)
  | 0x6011 => arrayOf 8 sub (mirrorEntry 5 8 rFive)
  | 0x6012 => arrayOf 8 sub (mirrorEntry 5 8 rFive)
  | 0x6013 => arrayOf 8 sub (mirrorEntry 4 4 rFive)
  | 0x7000 => custodyInfo sub
  | 0x8000 => telemetryInfo sub
  | 0x8010 => arrayOf 16 sub { mirrorEntry 0x0C 0 rFive with dflt := [] }
  | 0x9000 => serviceInfo sub
  | _ => none

/-- The key of an entry in the store. -/
def entryKey (idx sub : Nat) : Nat := 256 * idx + sub

/-- An entry as commits have left it. -/
def DictS.entry (d : DictS) (idx sub : Nat) : EntryS := d.entries.get EntryS.empty (entryKey idx sub)

/-- The Default of an entry (R464). -/
def entryDefault (idx sub : Nat) : List Byte :=
  match entryInfo idx sub with
  | some e => e.dflt
  | none => []

/-- The value of an entry that is no mirror. -/
def DictS.value (d : DictS) (idx sub : Nat) : List Byte := (d.entry idx sub).value.getD (entryDefault idx sub)

/-- The value of a numeric entry. -/
def DictS.num (d : DictS) (idx sub : Nat) : Nat := natOfBytes (d.value idx sub)

/-- The next commit sequence number, stored at every 65,536th (R468). -/
def DictS.commit (d : DictS) : DictS :=
  let n := d.csn + 1#64
  { d with csn := n, stored := if n.toNat % 65536 = 0 then n else d.stored }

/-- Sets a value under the current commit. -/
def DictS.put (d : DictS) (idx sub : Nat) (v : List Byte) : DictS :=
  { d with entries := d.entries.modify EntryS.empty (entryKey idx sub) fun e => { e with value := some v, csn := d.csn } }

/-- A commit by the Belfry itself, of entries that need no rights (R466). -/
def State.belfryCommit (s : State) (vs : List ((Nat × Nat) × List Byte)) : State :=
  { s with dict := vs.foldl (fun d v => d.put v.1.1 v.1.2 v.2) s.dict.commit }

/-- A refused write or release is counted and recorded (R472): the commit number, the entry, the principal by its position of R9,
the abort code, the path (0 segment, 1 CXL mailbox, 2 runtime window, 3 Carillon), the first 8 B of the value. -/
def State.logRefusal (s : State) (idx sub principal ab path : Nat) (v : List Byte) : State :=
  let e := bytesOfNat 8 s.dict.csn.toNat ++ bytesOfNat 2 idx ++ bytesOfNat 1 sub ++ bytesOfNat 1 principal ++ bytesOfNat 2 ab
    ++ bytesOfNat 1 path ++ [0#8] ++ bytesOfNat 8 (natOfBytes (v.take 8))
  { s with tele := { s.tele with refusals := satInc32 s.tele.refusals }
           dict := { s.dict with log := s.dict.log.set [] (s.tele.refusals.toNat % 16) e } }

end Sys2Proof.Machine
end

