-- ==== Sys2Proof/Machine/Faults.lean ====
section
/-! DEFINITION. The answers to translation faults (R228 to R231): RETRY, FAIL and host loss, agent by agent. -/

namespace Sys2Proof.Machine

/-- A move engine's fault is answered (R228): the stalled descriptor walks again, or is refused with a status. -/
def State.tileAnswered (s : State) (t : TileId) (fail : Option W32) : State :=
  let x := s.tile t
  s.setTile t { x with descs := x.descs.map fun d =>
    if d.phase = .faulted then
      match fail with
      | none => { d with phase := .submitted }
      | some st => d.refuse st false
    else d }

/-- A fault register is emptied and its agent goes on: none for RETRY, or the status it fails with (R228, R231). -/
def State.answerFault (s : State) (fid : Nat) (fail : Option W32) : State :=
  let s1 := { s with xlat := { s.xlat with faults := s.xlat.faults.set none fid none } }
  match fid / 8192 with
  | 0 => s1.tileAnswered (Fin.ofNat 256 fid) fail
  | 1 => s1.clapAnswered (Fin.ofNat 24 (fid % 8192)) fail
  | _ =>
    let e := fid % 8192
    let k : PealSlot := Fin.ofNat 16 (4 * (e / 8) + e % 4)
    match fail with
    | none => s1.pealFaultRetry k
    | some st => s1.pealFaultFail k st

/-- The record of a fault register has gone to its queue: no source or unit still holds it. -/
def TocsinS.posted (q : TocsinS) (src : Nat) (seq : W32) : Bool :=
  !((q.held ++ q.accepted ++ q.forward).any fun r => r.src = src && r.seq = seq)

/-- A response by one of the two paths (R229, R230): applied only to a record of that path with that sequence number. -/
def State.faultAnswer (s : State) (forward : Bool) (v : W64) : State :=
  let fid := w64Bits v 0 16
  match s.xlat.faults.get none fid with
  | none => s.discard
  | some r =>
    if w64Bits v 16 16 > 1 || r.seq.toNat ≠ w64Bits v 32 32 || r.forward ≠ forward
        || !s.tocsin.posted (faultSrc fid) r.seq then s.discard
    else s.answerFault fid (if w64Bits v 16 2 = 0 then none else some stUnresolved)

/-- FAULT_RESP (R229) and FQ_RESP (R230). -/
def execFaultResp (v : W64) (s : State) : Host.Outcome State Fault Refusal := .next (s.faultAnswer false v)
def execFqResp (v : W64) (s : State) : Host.Outcome State Fault Refusal := .next (s.faultAnswer true v)

/-- Host loss answers every fault held for or in the forward queue with 0x0401 HOST_LOST (R231). -/
def State.loseForwarded (s : State) : State :=
  let hit := s.xlat.faults.filterMap fun e => match e.2 with
    | some r => if r.forward then some e.1 else none
    | none => none
  hit.foldl (fun s fid => s.answerFault fid (some stHostLost))
    { s with tocsin := { s.tocsin with forward := [] } }

end Sys2Proof.Machine
end

