-- ==== Sys2Proof/Machine/Hoop.lean ====
section
/-! DEFINITION. The Hoop links (R350 to R370): packets, acknowledgements and credits, retrain points, training, masks, fencing
and routes. -/

namespace Sys2Proof.Machine

def NetS.hoop (n : NetS) (l : LinkId) : HoopLink := n.hoops.get HoopLink.reset l.val
def NetS.setHoop (n : NetS) (l : LinkId) (v : HoopLink) : NetS := { n with hoops := n.hoops.set HoopLink.reset l.val v }
def State.hoop (s : State) (l : LinkId) : HoopLink := s.net.hoop l
def State.setHoop (s : State) (l : LinkId) (v : HoopLink) : State := { s with net := s.net.setHoop l v }

/-- The die of end 0 or 1 of a link (R28, R350): ring k joins Ak and A(k+1), hub k joins Ak and the C-die. -/
def hoopDie (l : LinkId) (e : Nat) : Nat := if e = 0 then l.val % 4 else if l.val < 4 then (l.val + 1) % 4 else 4

/-- A record of a link (R369). -/
def State.raiseHoop (s : State) (cls type : Nat) (l : LinkId) (payload : List Byte) : State :=
  s.raise cls type (hoopDie l 0) 8 l.val payload

/-! ### Routes (R366, R370) -/

/-- A link that routes may use: UP or retraining. -/
def HoopLink.open (x : HoopLink) : Bool := x.state = 2 || (x.state = 1 && !x.full)

/-- The routes of a die pair, in their order of choice, as links. -/
def routesOf (k : Nat) : List (List Nat) :=
  let ring := fun (i : Nat) => i % 4
  let hub := fun (i : Nat) => 4 + i % 4
  if k < 4 then [[ring k], [hub k, hub (k + 1)]]
  else if k < 8 then [[hub k], [ring k, hub (k + 1)], [ring (k + 3), hub (k + 3)]]
  else [[hub k, hub (k + 2)], [ring k, ring (k + 1)], [ring (k + 3), ring (k + 2)]]

/-- The route in use between a pair: the first whose links are all open, 3 where there is none. -/
def NetS.routeOf (n : NetS) (k : Nat) : Nat :=
  match (routesOf k).findIdx? fun r => r.all fun l => (n.hoop (Fin.ofNat 8 l)).open with
  | some i => i
  | none => 3

/-- ROUTE_MAP after a link has entered or left FENCED or DOWN. -/
def NetS.reroute (n : NetS) : NetS :=
  { n with routeMap := BitVec.ofNat 20 ((List.range 10).foldl (fun v k => v + n.routeOf k * 4 ^ k) 0) }

/-! ### Retrain points and fencing (R355, R356, R364, R365) -/

/-- A link is fenced with a cause. -/
def State.fence (s : State) (l : LinkId) (cause : Nat) : State :=
  let s1 := s.setHoop l { (s.hoop l) with state := 3, cause := cause }
  let s2 := { s1 with net := s1.net.reroute }
  s2.raiseHoop 1 0x2B l (payloadOf [(0x18, 1, cause), (0x1C, 4, s2.net.routeMap.toNat)])

/-- A retrain point of a link that is UP; a seventeenth within 1 s fences it. Whether the last seventeen lie within 1 s is the
draw's (assumption 18). -/
def State.hoopRetrain (s : State) (l : LinkId) : State :=
  let x := s.hoop l
  if x.state ≠ 2 then s
  else if x.recent ≥ 16 && Config.freeChoice s.fresh 0 then (s.drawn).fence l 3
  else
    State.drawn (s.setHoop l { x with state := 1, full := false, retrains := satInc32 x.retrains, recent := x.recent + 1,
                                      crcFwd := 0, crcRev := 0 })

/-- A packet fails its CRC (R353 to R355): counted; the eighth in one direction within 100 µs is a retrain point. -/
def State.hoopCrc (s : State) (l : LinkId) (rev : Bool) : State :=
  let x := s.hoop l
  let n := (if rev then x.crcRev else x.crcFwd) + 1
  let y := { x with crcErr := satInc64 x.crcErr, crcFwd := if rev then x.crcFwd else n, crcRev := if rev then n else x.crcRev }
  let s1 := s.setHoop l y
  if n ≥ 8 && Config.freeChoice s.fresh 1 then (s1.drawn).hoopRetrain l else s1.drawn

/-- A partner violation (R354). -/
def State.hoopViolation (s : State) (l : LinkId) (rev : Bool) (word : Nat) : State :=
  let x := s.hoop l
  ((s.setHoop l { x with violations := satInc32 x.violations }).raiseHoop 2 0x2D l
    (payloadOf [(0x18, 1, rev.toNat), (0x1C, 4, word)])).hoopRetrain l

/-- RETRAIN (R355): discarded while the link is FENCED or TRAINING. -/
def execRetrain (l : LinkId) (s : State) : Host.Outcome State Fault Refusal :=
  let x := s.hoop l
  .next (if x.state = 1 || x.state = 3 then s.discard else s.hoopRetrain l)

/-! ### Packets (R352 to R354) -/

/-- The key of a class and direction. -/
def laneKey (cls : Nat) (rev : Bool) : Nat := 2 * cls + rev.toNat
def HoopLink.lane (x : HoopLink) (cls : Nat) (rev : Bool) : HoopLane := x.lanes.get HoopLane.fresh (laneKey cls rev)
def HoopLink.setLane (x : HoopLink) (cls : Nat) (rev : Bool) (v : HoopLane) : HoopLink :=
  { x with lanes := x.lanes.set HoopLane.fresh (laneKey cls rev) v }

/-- Packets of a lane sent and not acknowledged. -/
def HoopLane.inFlight (x : HoopLane) : Nat := (x.txNext - x.acked - 1#12).toNat

/-- A packet that arrives new was sent: the sender's next SEQ and its spent credits follow it. -/
def HoopLane.sent (x : HoopLane) (seq : BitVec 12) : HoopLane :=
  let d := (seq - x.txNext).toNat
  if d < 2048 then { x with txNext := seq + 1#12, spent := x.spent + d + 1 } else x

/-- Packets that follow the last one delivered are delivered too. -/
def HoopLane.deliverHeld (x : HoopLane) (fuel : Nat) : HoopLane :=
  match fuel with
  | 0 => x
  | fuel' + 1 =>
    if x.held.contains x.rxNext then
      HoopLane.deliverHeld { x with held := x.held.erase x.rxNext, rxNext := x.rxNext + 1#12, freed := (x.freed + 1) % 1024 } fuel'
    else x

/-- A good packet reaches its receiver: delivered in SEQ order, held out of order, or a duplicate dropped. -/
def HoopLane.take (x : HoopLane) (seq : BitVec 12) : HoopLane :=
  let y := x.sent seq
  let d := (seq - y.rxNext).toNat
  if d = 0 then
    HoopLane.deliverHeld { y with rxNext := y.rxNext + 1#12, freed := (y.freed + 1) % 1024, owed := true } 512
  else if d < 2047 then
    if y.held.contains seq || y.held.length ≥ 511 then y else { y with held := seq :: y.held }
  else { y with owed := true }

/-- HOOP_PACKET (R352 to R354). -/
def execHoopPacket (l : LinkId) (rev : Bool) (p : HoopPkt) (s : State) : Host.Outcome State Fault Refusal :=
  let x := s.hoop l
  let cls := p.cls.toNat
  .next (if x.state ≠ 2 then s
    else if !p.crcGood then
      let y := if cls < 2 then x.setLane cls rev { (x.lane cls rev) with replayOwed := true } else x
      (s.setHoop l y).hoopCrc l rev
    else if p.gen ≠ 1#4 || cls = 3 || p.rsv ≠ 0#14 then
      s.hoopViolation l rev (p.gen.toNat + 16 * cls + 64 * p.seq.toNat + 2 ^ 18 * p.rsv.toNat)
    else if cls = 2 then s
    else s.setHoop l (x.setLane cls rev ((x.lane cls rev).take p.seq)))

/-- What the sender of a lane learns from link control: acknowledgement and credits (R353). -/
def HoopLane.learn (x : HoopLane) (ack : BitVec 12) (av : Bool) (cr : BitVec 10) : HoopLane :=
  let y := if av && (ack - x.acked).toNat ≤ x.inFlight then { x with acked := ack } else x
  { y with spent := y.spent - (cr.toNat + 1024 - y.crSeen) % 1024, crSeen := cr.toNat }

/-- A replay request for a class and direction: one packet replayed 8 times is a retrain point (R353 to R355). -/
def State.hoopReplay (s : State) (l : LinkId) (cls : Nat) (rev : Bool) (seq : BitVec 12) : State :=
  let x := s.hoop l
  let y := x.lane cls rev
  if (seq - y.acked - 1#12).toNat ≥ y.inFlight then s
  else
    let n := if y.replays ≠ 0 && y.replaySeq = seq then y.replays + 1 else 1
    let s1 := s.setHoop l { x.setLane cls rev { y with replaySeq := seq, replays := n } with replayCount := satInc64 x.replayCount }
    if n ≥ 8 then s1.hoopRetrain l else s1

/-- LINK_CONTROL (R353, R354): a packet of one direction gives the state of the other's receiver. -/
def execLinkControl (l : LinkId) (rev : Bool) (p : HoopCtl) (s : State) : Host.Outcome State Fault Refusal :=
  let x := s.hoop l
  .next (if x.state ≠ 2 then s
    else if !p.crcGood then s.hoopCrc l rev
    else if p.rsv then s.hoopViolation l rev 0x21
    else
      let y := (x.setLane 0 (!rev) ((x.lane 0 (!rev)).learn p.ackReq p.avReq p.crReq))
      let z := y.setLane 1 (!rev) ((y.lane 1 (!rev)).learn p.ackRsp p.avRsp p.crRsp)
      let s1 := s.setHoop l z
      if p.rreq then s1.hoopReplay l p.rclass.toNat (!rev) p.rseq else s1)

/-- The 64 B payload of a link control packet (R353), and the lanes once it has been sent. -/
def HoopLink.control (x : HoopLink) (rev : Bool) : HoopLink × List Byte :=
  let a := x.lane 0 (!rev)
  let b := x.lane 1 (!rev)
  let ack := fun (y : HoopLane) => (y.rxNext - 1#12).toNat + 32768 * (y.freed ≠ 0 || y.rxNext ≠ 0#12).toNat
  let req : Nat := if a.replayOwed then a.rxNext.toNat + 32768
    else if b.replayOwed then b.rxNext.toNat + 4096 + 32768
    else 0
  ((x.setLane 0 (!rev) { a with owed := false, replayOwed := false }).setLane 1 (!rev)
      { b with owed := false, replayOwed := a.replayOwed && b.replayOwed },
    bytesOfNat 2 (ack a) ++ bytesOfNat 2 (ack b) ++ bytesOfNat 2 a.freed ++ bytesOfNat 2 b.freed ++ bytesOfNat 2 req
      ++ bytesOfNat 54 0)

/-- LINK_CONTROL_SEND (R353): an end that owes one sends a link control packet, whose payload is answered. -/
def execLinkControlSend (l : LinkId) (rev : Bool) (s : State) : Host.Outcome State Fault Refusal :=
  let x := s.hoop l
  let owes := fun (c : Nat) => (x.lane c (!rev)).owed || (x.lane c (!rev)).replayOwed
  .next (if x.state ≠ 2 || !(owes 0 || owes 1) then s
    else
      let r := x.control rev
      (s.setHoop l r.1).answer 0#32 r.2)

/-! ### Training (R357 to R364) -/

/-- Groups 0 to NF - 1 carry the forward direction (R350, R362). -/
def HoopLink.nf (x : HoopLink) : Nat := 16 * x.split

/-- The end that receives a group: 1 in the forward range, 0 in the reverse. -/
def HoopLink.receiver (x : HoopLink) (g : Nat) : Nat := if g < x.nf then 1 else 0

/-- An end's own retired groups. -/
def HoopLink.retiredAt (x : HoopLink) (e : Nat) : BitVec 512 := if e = 0 then x.retired0 else x.retired1
def HoopLink.retireAt (x : HoopLink) (e : Nat) (m : BitVec 512) : HoopLink :=
  if e = 0 then { x with retired0 := x.retired0 ||| m } else { x with retired1 := x.retired1 ||| m }

/-- One bit of a mask. -/
def groupBit (g : Nat) : BitVec 512 := 1#512 <<< g

/-- The spare that replaces a lane of a group, if any. -/
def HoopLink.spareFor (x : HoopLink) (g lane : Nat) : Option Nat :=
  [33, 34].find? fun sp => x.spares.get 0 (35 * g + sp) = lane + 1

/-- A spare that no lane has and that does not itself fail, 33 before 34 (R358). -/
def HoopLink.freeSpare (x : HoopLink) (g : Nat) (failed : List Nat) : Option Nat :=
  [33, 34].find? fun sp => x.spares.get 0 (35 * g + sp) = 0 && !failed.contains sp

/-- Repairs one lane of a group (R358): the state with a new assignment recorded, and whether the lane works. -/
def State.repairLane (s : State) (l : LinkId) (g : Nat) (failed : List Nat) (lane : Nat) : State × Bool :=
  let x := s.hoop l
  let kept := match x.spareFor g lane with
    | some sp => !failed.contains sp
    | none => false
  if kept then (s, true)
  else
    match x.freeSpare g failed with
    | none => (s, false)
    | some sp =>
      let y := { x with spares := x.spares.set 0 (35 * g + sp) (lane + 1), sparesUsed := satInc32 x.sparesUsed }
      ((s.setHoop l y).raiseHoop 2 0x2A l (payloadOf [(0x18, 2, g), (0x1A, 1, sp), (0x1B, 1, lane)]), true)

/-- Steps 3 and 4 for a group at the end that receives it: its lanes are repaired, clock first, or it is retired there. -/
def State.testGroup (s : State) (l : LinkId) (g : Nat) (failed : List Nat) : State :=
  let x := s.hoop l
  let e := x.receiver g
  if (x.retiredAt e).getLsbD g then s
  else
    let need := (32 :: List.range 32).filter fun lane => failed.contains lane || (x.spareFor g lane).isSome
    let r := need.foldl (fun st lane =>
      let q := st.1.repairLane l g failed lane
      (q.1, st.2 && q.2)) (s, true)
    if r.2 then r.1
    else
      ((r.1.setHoop l ((r.1.hoop l).retireAt e (groupBit g))).raiseHoop 1 0x29 l (payloadOf [(0x18, 2, g), (0x1A, 1, e)])).unitLeft 8
        (512 * l.val + g) 2

/-- An end's own mask (R359). -/
def HoopLink.ownMask (x : HoopLink) (e : Nat) : BitVec 512 := ~~~ (x.retiredAt e ||| x.heldOut)

/-- Groups of a range that a mask has. -/
def countGroups (m : BitVec 512) (lo hi : Nat) : Nat := ((List.range 512).filter fun g => lo ≤ g && g < hi && m.getLsbD g).length

/-- Good groups by direction (R363). -/
def HoopLink.goodFwd (x : HoopLink) : Nat := countGroups x.good 0 x.nf
def HoopLink.goodRev (x : HoopLink) : Nat := countGroups x.good x.nf 512

/-- The floor of a direction of n default groups (R364). -/
def floorOf (n : Nat) : Nat := (3 * n + 3) / 4

/-- The attempt at which the masks agree (R360): none after three damaged ones. -/
def agreedAttempt (damaged : List Bool) : Option Nat := (List.range 3).findSome? fun i => if damaged.getD i false then none else some (i + 1)

/-- Step 6 fails: cause 2, record 0x2C, both own masks captured (R360, R369). -/
def State.maskDisagree (s : State) (l : LinkId) : State :=
  let x := s.hoop l
  let a := x.ownMask 0
  let b := x.ownMask 1
  let s1 := s.setHoop l { x with attempts := 3, dmask0 := a, dmask1 := b }
  let lowest := ((List.range 512).find? fun g => (a ^^^ b).getLsbD g).getD 0xFFFF
  (s1.raiseHoop 1 0x2C l
    (payloadOf [(0x18, 1, 3), (0x1A, 2, countGroups a 0 512), (0x1C, 2, countGroups b 0 512), (0x1E, 2, lowest)])).fence l 2

/-- A lane after training (R353, R357): SEQ from 0 after a full training; after a retrain it goes on, with CR from 0. -/
def HoopLane.resume (x : HoopLane) : HoopLane :=
  { x with spent := x.inFlight, crSeen := 0, freed := 0, replays := 0 }

/-- Steps 7 and 8 on the agreed mask: the floors, then the link is up, with a record where it trained in full or its width
changed. -/
def State.linkTrained (s : State) (l : LinkId) (attempts : Nat) (mask : BitVec 512) : State :=
  let x := s.hoop l
  let gone := ~~~ (mask ||| x.heldOut)
  let y := { x with attempts := attempts, dmask0 := 0#512, dmask1 := 0#512, retired := x.retired ||| gone,
                    retired0 := x.retired0 ||| gone, retired1 := x.retired1 ||| gone, good := mask, trained := true }
  let f := countGroups mask 0 x.nf
  let r := countGroups mask x.nf 512
  if f < floorOf x.nf || r < floorOf (512 - x.nf) then (s.setHoop l y).fence l 1
  else
    let changed : Bool := x.full || f ≠ x.goodFwd || r ≠ x.goodRev
    let z := { y with state := 2, cause := 0, full := false,
                      lanes := if x.full then [] else x.lanes.map fun e => (e.1, e.2.resume) }
    let s1 := s.setHoop l z
    let s2 := if x.full then { s1 with net := s1.net.reroute } else s1
    s2.when changed fun s => s.raiseHoop 1 0x28 l (payloadOf [(0x18, 1, x.full.toNat), (0x1A, 2, f), (0x1C, 2, r)])

/-- TRAINING_COMPLETE (R357 to R364): the findings of the lane tests are repaired, levels and masks agreed, roles assigned. -/
def State.training (s : State) (l : LinkId) (f : TrainFindings) : State :=
  if (s.hoop l).state ≠ 1 then s
  else
    let failedOf := fun (g : Nat) => ((f.failed.filter fun e => e.1.val = g).flatMap fun e => e.2.map (·.val))
    let s1 := (List.range 512).foldl (fun s g => s.testGroup l g (failedOf g)) s
    if !(f.level0.getLsbD 1 && f.level1.getLsbD 1) then s1.fence l 4
    else
      let x := s1.hoop l
      match agreedAttempt f.damaged with
      | none => s1.maskDisagree l
      | some n => s1.linkTrained l n (x.ownMask 0 &&& x.ownMask 1)

def execTrainingComplete (l : LinkId) (f : TrainFindings) (s : State) : Host.Outcome State Fault Refusal := .next (s.training l f)

/-- Roles that LINK_CTRL does not take (R362): outside their ranges, or new ones after the first training. -/
def HoopLink.rolesBad (x : HoopLink) (split reqf reqr : Nat) : Bool :=
  split < 12 || split > 20 || reqf < 2 || reqf > 6 || reqr < 2 || reqr > 6
    || (x.trained && (x.split ≠ split || x.reqf ≠ reqf || x.reqr ≠ reqr))

/-- A write of LINK_CTRL (R355, R362, R370): the roles, and a retrain point where RETRAIN is 1. -/
def State.writeLinkCtrl (s : State) (l : LinkId) (v : W32) : State :=
  let x := s.hoop l
  let split := bitsOf v.toNat 0 5
  let reqf := bitsOf v.toNat 8 4
  let reqr := bitsOf v.toNat 12 4
  if bitsOf v.toNat 5 3 ≠ 0 || bitsOf v.toNat 17 15 ≠ 0 || x.rolesBad split reqf reqr then s.discard
  else
    let s1 := s.setHoop l { x with split := split, reqf := reqf, reqr := reqr }
    if bitsOf v.toNat 16 1 = 0 then s1
    else if x.state = 1 || x.state = 3 then s1.discard
    else s1.hoopRetrain l

end Sys2Proof.Machine
end

