-- ==== Sys2Proof/Machine/Cxl.lean ====
section
/-! DEFINITION. The CXL attachment (R392 to R400, R415 to R425): vectors, the log, the forward queue, the CXL.mem window, the
aperture, the mailbox, host snoops, link recovery, host loss and link-up. -/

namespace Sys2Proof.Machine

def State.setCxl (s : State) (c : CxlS) : State := { s with cxl := c }

/-- The host-window address of a host physical address (R50). -/
def hostWin (h : Nat) : Nat := 0x100000000000 + h

/-! ### Vectors and the log (R419, R424) -/

/-- A vector is raised (R419): a message while the function has MSI-X on and the link serves, pending where masked. -/
def MsixS.raise (m : MsixS) (v : Nat) (serves : Bool) : MsixS :=
  if !m.on || !serves then m
  else if m.mask.get true v then { m with pba := m.pba.set false v true }
  else { m with sent := m.sent.modify 0 v fun n => n + 1 }

def State.vector (s : State) (v : Nat) : State := s.setCxl { s.cxl with msix := s.cxl.msix.raise v s.hostServes }

/-- An entry of LOG (R424): an event record of the C-die (R43); vector 2 announces it. -/
def State.hostLog (s : State) (kind stream requester data detail : Nat) : State :=
  let q := s.tocsin.tick s.fresh 4
  let seq := q.seqs.get 0#32 4
  let e := bytesOfNat 1 kind ++ bytesOfNat 1 stream ++ bytesOfNat 2 requester ++ bytesOfNat 4 seq.toNat
    ++ bytesOfNat 8 (q.tally 4).toNat ++ bytesOfNat 8 data ++ bytesOfNat 4 4 ++ bytesOfNat 4 detail
  let s1 : State :=
    { s with
      tocsin := { q with seqs := q.seqs.set 0#32 4 (seq + 1#32) }
      cxl := { s.cxl with logs := s.cxl.logs.set [] (s.cxl.logTotal % 32) e, logTotal := (s.cxl.logTotal + 1) % 2 ^ 24 }
      fresh := s.fresh + 1 }
  s1.vector 2

/-! ### The forward queue (R230, R420) -/

/-- Records that the forward queue holds. -/
def CxlS.fqHeld (c : CxlS) : Nat := (c.fqProd + 512 - c.fqCons) % 512

/-- FORWARD_QUEUE_POST (R230, R420): a record held for it is written to host memory, FQ_PROD advances, vector 0 is raised; a write
that fails stops the queue. -/
def execForwardQueuePost (i : Nat) (s : State) : Host.Outcome State Fault Refusal :=
  match s.tocsin.forward[i]? with
  | none => .next s
  | some r =>
    .next (if s.cxl.state ≠ 1 || !s.cxl.fqEn || s.cxl.fqHeld = 256 then s
      else
        let w := s.writeMemBy false (hostWin (s.cxl.fqBase + 64 * (s.cxl.fqProd % 256))) r.bytes 4
        if w.status ≠ stOk then w.st.setCxl { w.st.cxl with fqWerr := true, fqEn := false }
        else
          State.vector { w.st with tocsin := { w.st.tocsin with forward := w.st.tocsin.forward.eraseIdx i },
                                   cxl := { w.st.cxl with fqProd := (w.st.cxl.fqProd + 1) % 512 } } 0)

/-- FQ_CONS_WRITE (R420): it only advances, by at most the occupancy. -/
def execFqConsWrite (v : W32) (s : State) : Host.Outcome State Fault Refusal :=
  .next (if v.toNat ≥ 512 || (v.toNat + 512 - s.cxl.fqCons) % 512 > s.cxl.fqHeld then s.discard
    else s.setCxl { s.cxl with fqCons := v.toNat })

/-- A write of FQ_CTRL (R398, R420): setting EN resets both indices; WERR is cleared by a 1. -/
def State.writeFqCtrl (s : State) (v : W32) : State :=
  let c := s.cxl
  let en : Bool := bitsOf v.toNat 0 1 = 1
  if v.toNat ≥ 4 then s.discard
  else
    let d := { c with fqWerr := c.fqWerr && bitsOf v.toNat 1 1 = 0, fqEn := en }
    s.setCxl (if en && !c.fqEn then { d with fqProd := 0, fqCons := 0 } else d)

/-- FQ_ENABLE (R420): the write of FQ_CTRL that sets EN. -/
def execFqEnable (v : W32) (s : State) : Host.Outcome State Fault Refusal := .next (s.writeFqCtrl v)

/-! ### The CXL.mem window (R399, R400) -/

/-- The base of the deep range of a decoder, and its size in bytes (R398, R399). -/
def hdmBase (w : W64) : Nat := w64Bits w 30 18 * 2 ^ 30
def hdmSize (w : W64) : Nat := w64Bits w 0 9 * 2 ^ 30

/-- A write of HDM_MAP[i] by the runtime (R398, R399). -/
def State.writeHdmMap (s : State) (i : Nat) (v : W64) : State :=
  let other := s.cxl.hdmMap.get 0#64 (1 - i)
  let inDeep : Bool := regionOf (hdmBase v) = .deep && hdmBase v + hdmSize v ≤ 0x010000000000
  let apart : Bool := hdmSize other = 0 || hdmBase v + hdmSize v ≤ hdmBase other || hdmBase other + hdmSize other ≤ hdmBase v
  if w64Bits v 48 16 ≠ 0 || w64Bits v 9 21 ≠ 0 || w64Bits v 0 9 > 256 || w64Bits v 0 9 + w64Bits other 0 9 > 256
      || (hdmSize v ≠ 0 && !(inDeep && apart)) || (s.cxl.hdm.get none i).isSome then s.discard
  else s.setCxl { s.cxl with hdmMap := s.cxl.hdmMap.set 0#64 i v }

/-- HDM_COMMIT (R399): answers 0 where the decoder commits, 1 for Error Not Committed. -/
def execHdmCommit (i : Fin 2) (req : HdmReq) (s : State) : Host.Outcome State Fault Refusal :=
  let size := hdmSize (s.cxl.hdmMap.get 0#64 i.val)
  .next (if size ≠ 0 && req.size.toNat = size && req.ways = 1 then
      State.answer (s.setCxl { s.cxl with hdm := s.cxl.hdm.set none i.val (some req), hdmErr := s.cxl.hdmErr.set false i.val false }) 0#32 []
    else State.answer (s.setCxl { s.cxl with hdmErr := s.cxl.hdmErr.set false i.val true }) 1#32 [])

/-- The deep address that a host request of n bytes reaches through a committed decoder (R399). -/
def CxlS.windowOf (c : CxlS) (addr n : Nat) : Option Nat :=
  (List.range 2).findSome? fun i =>
    match c.hdm.get none i with
    | some r =>
      if r.base.toNat ≤ addr && addr + n ≤ r.base.toNat + r.size.toNat then
        some (hdmBase (c.hdmMap.get 0#64 i) + (addr - r.base.toNat))
      else none
    | none => none

/-- Answers of CXL.mem and the aperture: data, poison, or an address or request not supported. -/
def ansOk : W32 := 0#32
def ansPoison : W32 := 1#32
def ansUnsupported : W32 := 2#32

/-- CXL_MEM_READ (R207, R399, R400): served at home; all-zero and poisoned in sealed mode; open data where no decoder answers or
the read fails (assumption 1). -/
def execCxlMemRead (addr len : Nat) (s : State) : Host.Outcome State Fault Refusal :=
  let open_ := (List.range len).map (Config.freeByte s.fresh)
  .next (if s.cxl.state ≠ 1 then s
    else
      match s.cxl.windowOf addr len with
      | none => State.answer (s.drawn.hostLog 7 0 0 addr 0) ansUnsupported open_
      | some a =>
        if s.cust.sealed then (s.hostLog 7 0 0 addr 0).answer ansPoison (List.replicate len 0#8)
        else
          let r := s.readMem a len 4
          if r.status = stOk then r.st.answer ansOk r.data else r.st.drawn.answer ansPoison open_)

/-- CXL_MEM_WRITE (R207, R399, R400): dropped in sealed mode, or where no decoder answers. -/
def execCxlMemWrite (addr : Nat) (bytes : List Byte) (s : State) : Host.Outcome State Fault Refusal :=
  .next (if s.cxl.state ≠ 1 then s
    else
      match s.cxl.windowOf addr bytes.length with
      | none => State.answer (s.hostLog 7 0 0 addr 0) ansUnsupported []
      | some a =>
        if s.cust.sealed then (s.hostLog 7 0 0 addr 0).answer ansOk []
        else State.answer (s.writeMem a bytes 4).st ansOk [])

/-- HOST_SNOOP (R393, R395): a 64 B unit of host memory is answered from the C-die caches: code 0 for no copy, 1 clean, 2 dirty with
its data. SnpData leaves a clean shared copy, SnpInv none, SnpCur what was there. -/
def execHostSnoop (kind : SnoopKind) (addr : Nat) (s : State) : Host.Outcome State Fault Refusal :=
  let a := hostWin addr
  .next (if s.cxl.state ≠ 1 || regionOf a ≠ .host then s
    else
      match s.cache.line a with
      | none => s.answer 0#32 []
      | some l =>
        let bs := (l.data.drop (addr % 128 - addr % 64)).take 64
        let code : W32 := if l.dirty then 2#32 else 1#32
        match kind with
        | .cur => s.answer code bs
        | .data =>
          let w := s.writeBack false a
          let s1 := match w.1.cache.line a with
            | none => w.1
            | some m => w.1.setLine a (some { m with excl := false })
          s1.answer code bs
        | .inv => State.answer ((s.writeBack false a).1.setLine a none) code bs)

/-! ### The aperture (R415, R416) -/

/-- The physical address that a request of n bytes at an aperture offset reaches, where its region allows it (R415, R416). -/
def CxlS.regionAt (c : CxlS) (off n : Nat) (write : Bool) : Option Nat :=
  let r := off / 2 ^ 32
  let w0 := c.region.get 0#64 (2 * r)
  if w64Bits w0 0 1 = 1 && w64Bits w0 (if write then 1 else 2) 1 = 1 && off % 2 ^ 32 + n ≤ w64Bits (c.region.get 0#64 (2 * r + 1)) 0 33
  then some (w64Bits w0 12 36 * 4096 + off % 2 ^ 32)
  else none

/-- APERTURE_WRITE (R416). -/
def execApertureWrite (off : Nat) (bytes : List Byte) (requester : W16) (s : State) : Host.Outcome State Fault Refusal :=
  .next (if s.cxl.state ≠ 1 || off ≥ 2 ^ 40 then s
    else
      match s.cxl.regionAt off bytes.length true with
      | some a => (s.writeMem a bytes 4).st
      | none =>
        State.hostLog (s.setCxl { s.cxl with p2pDrops := satInc32 s.cxl.p2pDrops }) 2 0 requester.toNat off 0)

/-- APERTURE_READ (R416): a read that memory fails is answered as poison. -/
def execApertureRead (off len : Nat) (requester : W16) (s : State) : Host.Outcome State Fault Refusal :=
  .next (if s.cxl.state ≠ 1 || off ≥ 2 ^ 40 then s
    else
      match (if s.cust.sealed then none else s.cxl.regionAt off len false) with
      | none => (s.hostLog 3 0 requester.toNat off 0).answer ansUnsupported []
      | some a =>
        let r := s.readMem a len 4
        if r.status = stOk then r.st.answer ansOk r.data
        else r.st.drawn.answer ansPoison ((List.range len).map (Config.freeByte s.fresh)))

/-- A write of REGION[r] by the runtime (R398, R415): word 1 only while VALID is 0, of pages up to 4 GiB; word 0 names near or deep
memory. -/
def State.writeRegion (s : State) (r word : Nat) (v : W64) : State :=
  let w0 := s.cxl.region.get 0#64 (2 * r)
  let put := s.setCxl { s.cxl with region := s.cxl.region.set 0#64 (2 * r + word) v }
  if word = 0 then
    let base := w64Bits v 12 36 * 4096
    if w64Bits v 48 16 ≠ 0 || w64Bits v 3 9 ≠ 0 || (w64Bits v 0 1 = 1 && !inMem base 1) then s.discard else put
  else if w64Bits w0 0 1 = 1 || v.toNat > 2 ^ 32 || v.toNat % 4096 ≠ 0 then s.discard
  else put

/-! ### Mailbox and DOE (R417, R418) -/

/-- A mailbox command completes: its return code and payload, announced by vector 1. -/
def State.mailbox (s : State) (code : W32) (data : List Byte) : State := (s.answer code data).vector 1

/-- GET_SUPPORTED_LOGS and GET_LOG (R417, assumption 21). -/
def execGetSupportedLogs (s : State) : Host.Outcome State Fault Refusal := .next (s.mailbox 0#32 Config.supportedLogs)
def execGetLog (s : State) : Host.Outcome State Fault Refusal := .next (s.mailbox 0#32 Config.effectsLog)

/-- RUNTIME_SEND (R391, R417): answers 0; 1 for Busy while the previous message is unread; 2 for a length outside 1 to 256. -/
def execRuntimeSend (bytes : List Byte) (s : State) : Host.Outcome State Fault Refusal :=
  .next (if bytes.length = 0 || bytes.length > 256 then s.mailbox 2#32 []
    else if s.cores.hostMsgLen ≠ 0 then s.mailbox 1#32 []
    else
      (State.route { s with cores := { s.cores with hostMsg := bytes, hostMsgLen := bytes.length } } 7).mailbox 0#32 [])

/-- RUNTIME_RECV (R391, R417): the pending reply, which is then taken; empty where there is none. -/
def execRuntimeRecv (s : State) : Host.Outcome State Fault Refusal :=
  .next (if !s.cores.rtMsgOffered then s.mailbox 0#32 []
    else
      State.mailbox { s with cores := { s.cores with rtMsgOffered := false, rtMsgLen := 0 } } 0#32
        (s.cores.rtMsg.getRun 0#8 0 s.cores.rtMsgLen))

/-- DOE_DISCOVERY (R418): the protocol at an index and the next index; the numbers are those of PCI-SIG (assumption 22). -/
def execDoeDiscovery (index : Byte) (s : State) : Host.Outcome State Fault Refusal :=
  let i := index.toNat
  .next (s.answer 0#32 (if i < 3 then [0x01#8, 0x00#8, index, BitVec.ofNat 8 ((i + 1) % 3)] else [0xFF#8, 0xFF#8, 0x00#8, 0x00#8]))

/-! ### Recovery, loss and link-up (R392, R421 to R423) -/

/-- The widths and rates at which the link reaches L0 (R392). -/
def rateOk (r : LinkRate) : Bool := (r.lanes = 16 || r.lanes = 8 || r.lanes = 4) && (r.gts = 32 || r.gts = 16 || r.gts = 8)

/-- LINK_RECOVERY (R421, R382). -/
def execLinkRecovery (s : State) : Host.Outcome State Fault Refusal :=
  .next (if s.cxl.state = 1 then State.route (s.setCxl { s.cxl with state := 2 }) 10 else s)

/-- What Peal engines held back while the link recovered goes on. -/
def State.resumePeals (s : State) : State := (List.finRange 16).foldl State.pealResume s

/-- LINK_RETURN_TO_L0 (R392, R421): at a permitted width and rate the recovery ends. -/
def execLinkReturnToL0 (rate : LinkRate) (s : State) : Host.Outcome State Fault Refusal :=
  .next (if s.cxl.state = 2 && rateOk rate then
      (State.route (s.setCxl { s.cxl with state := 1, lanes := rate.lanes, gts := rate.gts }) 10).resumePeals
    else s)

/-- The number of a loss cause in the order of R421, from 1 (R424). -/
def lossCode (c : LossCause) : Nat :=
  match c with
  | .perst => 1
  | .hotReset => 2
  | .linkDisable => 3
  | .flr => 4
  | .cxlReset => 5
  | .ide => 6
  | .timeout => 7

/-- Cached translations to host-window pages are invalidated, and descriptors accepted for such pages are refused (R231). -/
def State.loseHostPages (s : State) : State :=
  { s with
    xlat := { s.xlat with tlb := s.xlat.tlb.filter fun t => regionOf (w64Bits t.pte 10 44 * 4096) ≠ .host }
    tiles := s.tiles.map fun e => (e.1, { e.2 with descs := e.2.descs.map fun d =>
      if d.phase = .accepted && d.host then d.refuse stHostLost false else d }) }

/-- A stream after host loss (R422): LOST, its commands ended without entries. -/
def StreamS.lose (x : StreamS) : StreamS :=
  { x with state := 4, cmds := [], seen := 0, waits := [] }

def CxlS.stream (c : CxlS) (i : StreamId) : StreamS := c.streams.get StreamS.reset i.val
def CxlS.setStream (c : CxlS) (i : StreamId) (v : StreamS) : CxlS := { c with streams := c.streams.set StreamS.reset i.val v }
def State.setStream (s : State) (i : StreamId) (v : StreamS) : State := s.setCxl (s.cxl.setStream i v)

/-- Every stream changed alike. -/
def CxlS.mapStreams (c : CxlS) (f : StreamS → StreamS) : CxlS :=
  (List.finRange 256).foldl (fun c i => c.setStream i (f (c.stream i))) c

/-- Host loss (R422): HOST_STATE, host-directed requests, translation, caches, streams, mailbox and DOE, the log and source 10. -/
def State.loseHost (s : State) (cause : LossCause) : State :=
  if s.cxl.state ≠ 1 && s.cxl.state ≠ 2 then s
  else
    let c := { s.cxl with state := 3, losses := min (s.cxl.losses + 1) 255, lanes := 0, gts := 0, ideKey := [], ideOn := false }
    let s1 := (((s.setCxl c).loseHostPages).loseForwarded).dropHostLines
    let s2 := s1.setCxl (s1.cxl.mapStreams StreamS.lose)
    let s3 : State := { s2 with cust := { s2.cust with spdm := s2.cust.spdm.set SpdmS.reset 0 SpdmS.reset }, dict := s2.dict.endPath 1 }
    ((s3.hostLog 6 0 0 0 (lossCode cause)).route 10).resumePeals

/-- HOST_LOSS (R421, R422); an IDE failure is logged first (R418). -/
def execHostLoss (cause : LossCause) (s : State) : Host.Outcome State Fault Refusal :=
  .next (State.loseHost (if cause = .ide && s.hostServes then s.hostLog 8 0 0 0 0 else s) cause)

/-- A stream's registers at reset: its slot counter, and the numbers of its commands, go on (R402, R423). -/
def StreamS.relink (x : StreamS) : StreamS := { StreamS.reset with counter := x.counter, nextUid := x.nextUid }

/-- HOST_LINK_UP (R392, R423); the function shows no BARs while no runtime has started (R493). -/
def execHostLinkUp (rate : LinkRate) (s : State) : Host.Outcome State Fault Refusal :=
  let c := s.cxl
  .next (if (c.state = 0 || c.state = 3) && rateOk rate && s.cust.verified then
      let d : CxlS :=
        { c with state := 1, lanes := rate.lanes, gts := rate.gts, fqBase := 0, fqProd := 0, fqCons := 0, fqWerr := false,
                 fqEn := false, hdm := [], hdmErr := [], msix := MsixS.reset }
      State.route (s.setCxl (d.mapStreams StreamS.relink)) 10
    else s)

/-- IDE_KM (R418): over the secured DOE session a key is programmed, or made active; an integrity failure is host loss. -/
def execIdeKm (activate : Bool) (key : List Byte) (integrityFault : Bool) (s : State) : Host.Outcome State Fault Refusal :=
  .next (if s.cxl.state ≠ 1 then s
    else if integrityFault then (s.hostLog 8 0 0 0 0).loseHost .ide
    else if (s.cust.spdm.get SpdmS.reset 0).sessions.isEmpty then s
    else if activate then s.setCxl { s.cxl with ideOn := true }
    else s.setCxl { s.cxl with ideKey := key })

end Sys2Proof.Machine
end

