-- ==== Sys2Proof/Machine/Stream.lean ====
section
/-! DEFINITION. The command streams (R401 to R414, R425): open and close, the doorbell, slots, acceptance, the commands and
their completion entries. -/

namespace Sys2Proof.Machine

/-! ### Open, close and doorbell -/

/-- The slots of a stream's ring, and twice them: the modulus of its indices. -/
def StreamS.slots (x : StreamS) : Nat := 2 ^ x.slog2
def StreamS.span (x : StreamS) : Nat := 2 * 2 ^ x.slog2

/-- The checks of an open in the order of R402. -/
def StreamS.openCheck (x : StreamS) (v : W32) : Option W32 :=
  firstStatus
    [(bitsOf v.toNat 17 1 = 0, stVersion),
     (bitsOf v.toNat 16 1 = 1 || x.slog2 < 6 || x.slog2 > 12 || x.clog2 < 4 || x.clog2 > 12 || x.cvec < 3 || x.evec < 3
       || x.sqBase % (64 * 2 ^ x.slog2) ≠ 0 || x.cqBase % (16 * 2 ^ x.clog2) ≠ 0, stReserved),
     (x.sqBase + 64 * 2 ^ x.slog2 > 2 ^ 44 || x.cqBase + 16 * 2 ^ x.clog2 > 2 ^ 44, stBounds)]

/-- A stream that opens (R402). -/
def StreamS.opened (x : StreamS) : StreamS :=
  let h := x.counter.toNat % x.span
  { x with sqHead := h, tail := h, cqTail := 0, level := 1, status := stOk, state := 1, seen := 0, waits := [], cmds := [] }

/-- A stream with nothing left is CLOSED (R403). -/
def StreamS.closed (x : StreamS) : StreamS := { x with state := 0, level := 0, status := stOk }

/-- An entry is due for a command that has ended: asked for, or with a nonzero status (R413). -/
def StreamCmd.entryDue (c : StreamCmd) (e : W32 × W32) : Bool := c.cmpl || e.1 ≠ stOk

/-- A command that has ended and needs no entry. -/
def State.silent (s : State) (k : StreamId) (c : StreamCmd) : Bool :=
  match s.cmdEnd k c with
  | some e => !c.entryDue e
  | none => false

/-- Commands that have ended and need no entry leave the stream; a CLOSING stream with nothing left becomes CLOSED, which raises
EVEC (R403, R413). -/
def State.tidy (s : State) (k : StreamId) : State :=
  let x := s.stream k
  let y := { x with cmds := x.cmds.filter fun c => !s.silent k c }
  let gone := s.kern.streamDone.filter fun d => d.1 ≠ k || y.cmds.any fun c => c.uid = d.2.1
  let s1 := { s with kern := { s.kern with streamDone := gone } }
  if y.state = 3 && y.cmds.isEmpty then (s1.setStream k y.closed).vector y.evec else s1.setStream k y

/-- A command that a close leaves to complete: started, and neither a WAIT nor a LAUNCH whose kernel runs on (R403). -/
def State.survives (s : State) (k : StreamId) (c : StreamCmd) : Bool :=
  c.phase ≠ .accepted && ((s.cmdEnd k c).isSome || (c.op ≠ 7 && c.op ≠ 4))

/-- A write of CMD (R402, R403). -/
def State.writeCmd (s : State) (k : StreamId) (v : W32) : State :=
  let x := s.stream k
  let op := bitsOf v.toNat 0 2
  if bitsOf v.toNat 2 14 ≠ 0 then s.discard
  else if op = 1 && x.state = 0 then
    match x.openCheck v with
    | some st => (s.setStream k { x with status := st }).vector x.evec
    | none => (s.setStream k x.opened).vector x.evec
  else if op = 2 && (x.state = 1 || x.state = 2) then
    State.tidy (s.setStream k { x with state := 3, waits := [], seen := 0, cmds := x.cmds.filter (s.survives k) }) k
  else s.discard

/-- STREAM_OPEN and STREAM_CLOSE (R402, R403): writes of CMD. -/
def execStreamOpen (k : StreamId) (v : W32) (s : State) : Host.Outcome State Fault Refusal := .next (s.writeCmd k v)
def execStreamClose (k : StreamId) (v : W32) (s : State) : Host.Outcome State Fault Refusal := .next (s.writeCmd k v)

/-- DOORBELL (R405, R406): a valid tail replaces the pending one, and a stalled stream reads again with fresh budgets. -/
def execDoorbell (k : StreamId) (v : W32) (s : State) : Host.Outcome State Fault Refusal :=
  let x := s.stream k
  let t := v.toNat
  .next (if t ≥ 2 ^ 13 then s.discard
    else if (x.state ≠ 1 && x.state ≠ 2) || t ≥ x.span || (t + x.span - x.sqHead) % x.span > x.slots then
      s.hostLog 4 k.val 0 t 0
    else if x.state = 2 then s.setStream k { x with tail := t, state := 1, seen := 0, waits := [] }
    else s.setStream k { x with tail := t })

/-! ### Slots (R404, R405) -/

/-- Slots announced and not yet accepted. -/
def StreamS.announced (x : StreamS) : Nat := (x.tail + x.span - x.sqHead) % x.span

/-- The SEQ of the slot j behind the next to be accepted (R402). -/
def StreamS.seqAt (x : StreamS) (j : Nat) : Nat := (x.counter.toNat + j) % 65536

/-- Reads the slot j behind the next to be accepted: none where the read fails. -/
def State.readSlot (s : State) (k : StreamId) (j : Nat) : State × Option (List Byte) :=
  let x := s.stream k
  let r := s.readMemBy false (hostWin (x.sqBase + 64 * (x.seqAt j % x.slots))) 64 4
  (r.st, if r.status = stOk then some r.data else none)

/-- A slot holds the pair expected at its position: (SEQ, complement) at the head, the reverse in a continuation (R405). -/
def StreamS.tagged (x : StreamS) (j : Nat) (bs : List Byte) : Bool :=
  let q := x.seqAt j
  let c := 65535 - q
  if j = 0 then w16At bs 0 = q && w16At bs 2 = c else w16At bs 0 = c && w16At bs 2 = q

/-- A slot is ready. -/
def State.slotReady (s : State) (k : StreamId) (j : Nat) : State × Bool :=
  let r := s.readSlot k j
  (r.1, match r.2 with
    | some bs => (s.stream k).tagged j bs
    | none => false)

/-- Reads slots of a stream for their tags: those not ready are the answer. -/
def State.notReady (s : State) (k : StreamId) (js : List Nat) : State × List Nat :=
  js.foldl (fun st j =>
    let r := st.1.slotReady k j
    (r.1, if r.2 then st.2 else st.2 ++ [j])) (s, [])

/-! ### Acceptance (R407, R412) -/

/-- The command of a head slot. -/
def StreamCmd.ofHead (uid : Nat) (bs : List Byte) : StreamCmd :=
  let f := byteAt bs 5
  { uid := uid, seq := BitVec.ofNat 16 (w16At bs 0), op := byteAt bs 4, cmpl := bitsOf f 4 1 = 1, irq := bitsOf f 5 1 = 1,
    fence := bitsOf f 6 1 = 1, len := w16At bs 6, operand := w64At bs 8, body := (bs.drop 16).take 48, chain := [],
    phase := .accepted, status := stOk, ext := 0#32, srcPs := [], dstPs := [], pages := [], revoked := false, kids := [] }

/-- A 64-bit word of BODY. -/
def StreamCmd.word (c : StreamCmd) (o : Nat) : Nat := (w64At c.body o).toNat

/-- The bits of OPERAND that an opcode uses (R407, R411, R434). -/
def operandMask (op : Nat) : Nat :=
  match op with
  | 1 => 2 ^ 64 - 1
  | 2 => 2 ^ 64 - 1
  | 6 => 0xFFFF3FFF
  | 7 => 0x3FFF
  | 9 => 0xFFFFFFFF000000F7
  | _ => 0

/-- The bytes of BODY that a command uses. -/
def StreamCmd.used (c : StreamCmd) : Nat :=
  match c.op with
  | 1 => c.len
  | 3 => 0x18
  | 4 => 0x20
  | 5 => 8
  | 7 => 8
  | _ => 0

/-- The fields of a ROLL word (R434). -/
def rollClass (w : W64) : Nat := w64Bits w 0 3
def rollDies (w : W64) : Nat := w64Bits w 4 4
def rollDuration (w : W64) : Nat := w64Bits w 32 32

/-- A reserved opcode, field or combination (R407, R412, R435). -/
def StreamCmd.reservedBad (c : StreamCmd) (flags : Nat) : Bool :=
  c.op > 9 || bitsOf flags 7 1 ≠ 0 || (c.irq && !c.cmpl) || (c.op ≠ 1 && c.op ≠ 2 && c.len ≠ 0)
    || c.operand.toNat &&& operandMask c.op ≠ c.operand.toNat || (c.body.drop c.used).any (· ≠ 0#8)
    || (c.op = 9 && rollClass c.operand = 0 && rollDuration c.operand ≠ 0)
    || (c.op = 2 && (c.chain.drop c.len).any (· ≠ 0#8))

/-- LENGTH, LEN or DURATION of all ones (R412, R435). -/
def StreamCmd.lengthBad (c : StreamCmd) : Bool :=
  ((c.op = 1 || c.op = 2) && c.len = 0xFFFF) || (c.op = 3 && c.word 0x10 = 2 ^ 64 - 1)
    || (c.op = 9 && rollDuration c.operand = 0xFFFFFFFF)

/-- Check 4 of R412, on the width of the stream's context where it has one. -/
def StreamCmd.boundsBad (c : StreamCmd) (width : Option Nat) : Bool :=
  let out := fun (va n : Nat) => match width with
    | some w => !withinWidth w va n
    | none => false
  let src := c.word 0
  let dst := c.word 8
  let n := c.word 0x10
  (c.op = 1 && c.len > 48) || (c.op = 2 && c.len > 960) || ((c.op = 1 || c.op = 2) && out c.operand.toNat c.len)
    || (c.op = 3 && (out src n || out dst n || (n ≠ 0 && src < dst + n && dst < src + n)))
    || (c.op = 4 && (c.word 0x18 % 64 ≠ 0 || (engineRange (c.word 0x18) 64).isNone))

/-- A LAUNCH that sealed mode closes (R425, R502). -/
def State.launchDenied (s : State) (c : StreamCmd) : Bool :=
  c.op = 4 && s.cust.sealed && !(match s.cust.config with
    | some g => g.allowHostLaunch
    | none => false)

/-- The checks at acceptance in the order of R412. -/
def State.cmdCheck (s : State) (c : StreamCmd) (flags : Nat) (width : Option Nat) : Option W32 :=
  firstStatus
    [(bitsOf flags 0 4 ≠ 1, stVersion), (c.reservedBad flags, stReserved), (c.lengthBad, stLength),
     (c.boundsBad width, stBounds), (s.launchDenied c, stSealed)]

/-- The virtual address width of a stream's context, where the context is valid (R217). -/
def State.streamWidth (s : State) (k : StreamId) : State × Option Nat :=
  let r := s.context 4 (s.stream k).ctx
  (r.1, match r.2 with
    | .inl e => some e.width
    | .inr _ => none)

/-- The continuation slots of a command whose head passes the checks so far (R407). -/
def StreamCmd.conts (c : StreamCmd) (failed : Bool) : Nat := if c.op = 2 && !failed then (c.len + 59) / 60 else 0

/-- The continuations ready behind a refused chain head, up to 16 of those announced (R408). -/
def State.readyRun (s : State) (k : StreamId) (j fuel : Nat) : State × Nat :=
  match fuel with
  | 0 => (s, 0)
  | n + 1 =>
    if j ≥ (s.stream k).announced then (s, 0)
    else
      let r := s.slotReady k j
      if !r.2 then (r.1, 0)
      else
        let rest := r.1.readyRun k (j + 1) n
        (rest.1, rest.2 + 1)

/-- A command accepted with n slots: the counter and SQ_HEAD advance; a refused one has ended (R402, R412). -/
def StreamS.accept (x : StreamS) (c : StreamCmd) (n : Nat) (st : Option W32) : StreamS :=
  let d := match st with
    | some w => { c with phase := .done, status := w }
    | none => c
  { x with counter := x.counter + BitVec.ofNat 64 n, sqHead := (x.sqHead + n) % x.span, nextUid := x.nextUid + 1, seen := 0,
           waits := [], cmds := x.cmds ++ [d] }

/-- The data of continuation slots. -/
def State.chainData (s : State) (k : StreamId) (n : Nat) : State × List Byte :=
  (List.range n).foldl (fun st j =>
    let r := st.1.readSlot k (j + 1)
    (r.1, st.2 ++ match r.2 with
      | some bs => bs.drop 4
      | none => [])) (s, [])

/-- A stream stalls on a slot (R405). -/
def State.stall (s : State) (k : StreamId) (j : Nat) : State :=
  let x := s.stream k
  State.vector (State.hostLog (s.setStream k { x with state := 2, status := stSlotNotReady, seen := 0, waits := [] }) 5 k.val 0 0
    (x.seqAt j)) x.evec

/-- A ready head slot: its command is judged, its continuations are awaited, and it is accepted once they are all ready. Those
not yet announced are awaited without a read (R405, R408, R412). -/
def State.takeHead (s : State) (k : StreamId) (bs : List Byte) : State :=
  let x := s.stream k
  let c := StreamCmd.ofHead x.nextUid bs
  let w := s.streamWidth k
  let st := w.1.cmdCheck c (byteAt bs 5) w.2
  let n := c.conts st.isSome
  if st.isSome then
    let run := if c.op = 2 then w.1.readyRun k 1 16 else (w.1, 0)
    (run.1.setStream k (x.accept c (1 + run.2) st)).tidy k
  else
    let upto := min (n + 1) x.announced
    let fresh := (List.range upto).filter fun j => j ≥ max x.seen 1
    let r := w.1.notReady k fresh
    let waits := x.waits ++ r.2.map fun j => (j, 0)
    if waits.isEmpty && upto = n + 1 then
      let d := r.1.chainData k n
      let c1 := { c with chain := d.2 }
      let st1 := if c1.reservedBad (byteAt bs 5) then some stReserved else none
      let run := if st1.isSome && c.op = 2 then d.1.readyRun k (n + 1) (16 - n) else (d.1, 0)
      (run.1.setStream k (x.accept c1 (1 + n + run.2) st1)).tidy k
    else r.1.setStream k { x with seen := max x.seen upto, waits := waits }

/-- Goes on with the next command of a stream whose head may be ready. -/
def State.proceed (s : State) (k : StreamId) : State :=
  let x := s.stream k
  if x.announced = 0 || x.waits.any fun p => p.1 = 0 then s
  else
    let r := s.readSlot k 0
    match r.2 with
    | none => s
    | some bs =>
      if x.tagged 0 bs then r.1.takeHead k bs
      else if x.seen = 0 then r.1.setStream k { x with seen := 1, waits := [(0, 0)] }
      else s

/-- The stream engine reads slots of this stream: it is OPEN, and the link up (R405, R421). -/
def State.streamReads (s : State) (k : StreamId) : Bool := (s.stream k).state = 1 && s.cxl.state = 1

/-- SLOT_READ (R405): the announced slots of the next command that have not been read. -/
def execSlotRead (k : StreamId) (s : State) : Host.Outcome State Fault Refusal :=
  .next (if s.streamReads k then s.proceed k else s)

/-- SLOT_REREAD (R405): the slots found not ready are read again, each up to 8 times; then the stream stalls. -/
def execSlotReread (k : StreamId) (s : State) : Host.Outcome State Fault Refusal :=
  let x := s.stream k
  .next (if !s.streamReads k || x.waits.isEmpty then s
    else
      let r := s.notReady k (x.waits.map (·.1))
      let waits := (x.waits.filter fun p => r.2.contains p.1).map fun p => (p.1, p.2 + 1)
      let s1 := r.1.setStream k { x with waits := waits }
      match waits.find? fun p => p.2 ≥ 8 with
      | some p => s1.stall k p.1
      | none => s1.proceed k)

/-! ### The commands (R407 to R411) -/

/-- Replaces a command of a stream. -/
def State.setCmd (s : State) (k : StreamId) (i : Nat) (c : StreamCmd) : State :=
  let x := s.stream k
  s.setStream k { x with cmds := x.cmds.set i c }

/-- A command ends with a status (R412). -/
def State.cmdDone (s : State) (k : StreamId) (i : Nat) (c : StreamCmd) (st : W32) : State :=
  (s.setCmd k i { c with phase := .done, status := st }).tidy k

/-- The command at a place of a stream, of an opcode, in a phase. -/
def State.cmdAt (s : State) (k : StreamId) (i op : Nat) (ph : CmdPhase) : Option StreamCmd :=
  ((s.stream k).cmds[i]?).bind fun c => if c.op = op && c.phase = ph then some c else none

/-- A command of an opcode that may start now. -/
def State.starting (s : State) (k : StreamId) (i op : Nat) : Option StreamCmd :=
  (s.cmdAt k i op .accepted).bind fun c => if s.mayStart k i then some c else none

/-- NOP and FENCE complete when they start (R407). -/
def State.bare (s : State) (k : StreamId) (i op : Nat) : State :=
  match s.starting k i op with
  | none => s
  | some c => s.cmdDone k i c stOk

def execStreamNop (k : StreamId) (i : Nat) (s : State) : Host.Outcome State Fault Refusal := .next (s.bare k i 0)
def execStreamFence (k : StreamId) (i : Nat) (s : State) : Host.Outcome State Fault Refusal := .next (s.bare k i 8)

/-- INLINE and INLINE_CHAIN write bytes to a destination within one page of near or deep memory (R408). -/
def State.inlineWrite (s : State) (k : StreamId) (i op : Nat) (data : StreamCmd → List Byte) : State :=
  match s.starting k i op with
  | none => s
  | some c =>
    if c.len = 0 then s.cmdDone k i c stOk
    else
      let va := c.operand.toNat
      let r := s.translate 4 (s.stream k).ctx c.operand true
      match r.2 with
      | .inr (.fault _ _ _) => r.1.cmdDone k i c stUnresolved
      | .inr (.status st) => r.1.cmdDone k i c st
      | .inl l =>
        let a := l.pbase + (va - l.vbase)
        if va - l.vbase + c.len > l.size || !inMem a c.len then r.1.cmdDone k i c stBounds
        else
          let w := r.1.writeMem a (data c) 4
          w.st.cmdDone k i c w.status

def execStreamInline (k : StreamId) (i : Nat) (s : State) : Host.Outcome State Fault Refusal :=
  .next (s.inlineWrite k i 1 fun c => c.body.take c.len)
def execInlineChain (k : StreamId) (i : Nat) (s : State) : Host.Outcome State Fault Refusal :=
  .next (s.inlineWrite k i 2 fun c => c.chain.take c.len)

/-- The status with which a stream's access ends where an access of R227 would fault (R408, R409). -/
def AccErr.streamStatus (e : AccErr) : Option W32 :=
  match e with
  | .fault _ _ _ _ => some stUnresolved
  | .status st => some st
  | .wait => none

/-- A COPY into the host window from outside it (R425). -/
def copyExports (src dst : List (Nat × Nat)) : Bool :=
  dst.any (fun p => regionOf p.1 = .host) && src.any fun p => regionOf p.1 ≠ .host

/-- The virtual pages that a translated span lies in: base and size of each (R409). -/
def State.spanLeaves (s : State) (ctx : W32) (va : Nat) (write : Bool) (ps : List (Nat × Nat)) : List (Nat × Nat) :=
  (ps.foldl (fun (acc : Nat × List (Nat × Nat)) p =>
    match (s.translate 4 ctx (BitVec.ofNat 64 acc.1) write).2 with
    | .inl l => (acc.1 + p.2, acc.2 ++ [(l.vbase, l.size)])
    | .inr _ => (acc.1 + p.2, acc.2)) (va, [])).2.eraseDups

/-- A COPY starts: every page of both spans is translated before the first write (R409, R425). -/
def State.copyStart (s : State) (k : StreamId) (i : Nat) (c : StreamCmd) : State :=
  let n := c.word 0x10
  let ctx := (s.stream k).ctx
  if n = 0 then s.cmdDone k i c stOk
  else
    let a := s.virtPages 4 ctx (c.word 0) n false
    match a.2 with
    | .error e =>
      match e.streamStatus with
      | some st => a.1.cmdDone k i c st
      | none => a.1
    | .ok src =>
      let b := a.1.virtPages 4 ctx (c.word 8) n true
      match b.2 with
      | .error e =>
        match e.streamStatus with
        | some st => b.1.cmdDone k i c st
        | none => b.1
      | .ok dst =>
        if s.cust.sealed && copyExports src dst then b.1.cmdDone k i c stSealed
        else
          let pages := b.1.spanLeaves ctx (c.word 0) false src ++ b.1.spanLeaves ctx (c.word 8) true dst
          b.1.setCmd k i { c with phase := .translated, srcPs := src, dstPs := dst, pages := pages }

/-- The destination of a COPY is undefined after a failure once writing began (R409). -/
def State.copySpoil (s : State) (c : StreamCmd) : State := c.dstPs.foldl (fun s p => s.undefinedSpan p.1 p.2) s

/-- A translated COPY makes its transfer, unless an unmap revoked it (R409). -/
def State.copyMove (s : State) (k : StreamId) (i : Nat) (c : StreamCmd) : State :=
  if c.revoked then s.cmdDone k i c stRevoked
  else if (c.srcPs ++ c.dstPs).any fun p => s.hostWaits p.1 then s
  else
    let r := s.readPages 4 c.srcPs
    match r.2 with
    | .error e => r.1.cmdDone k i c (e.streamStatus.getD stTierError)
    | .ok bs =>
      let w := r.1.writePages 4 c.dstPs bs
      match w.2 with
      | none => w.1.cmdDone k i c stOk
      | some e => (w.1.copySpoil c).cmdDone k i c (e.streamStatus.getD stTierError)

/-- STREAM_COPY (R409): the start, or the transfer of a COPY already translated. -/
def execStreamCopy (k : StreamId) (i : Nat) (s : State) : Host.Outcome State Fault Refusal :=
  .next (match s.cmdAt k i 3 .translated with
    | some c => s.copyMove k i c
    | none =>
      match s.starting k i 3 with
      | some c => s.copyStart k i c
      | none => s)

/-- The command processor takes the LAUNCH or TERMINATE that its visit to a stream finds (R390, R412). -/
def State.handed (s : State) (k : StreamId) (i op : Nat) : Option StreamCmd :=
  if s.visits (k.val + 1) then s.starting k i op else none

/-- The command processor has served a stream. -/
def State.served (s : State) (k : StreamId) : State := { s with kern := s.kern.served (k.val + 1) }

/-- STREAM_LAUNCH (R410): the command ends when its completion record has been written; sealed mode is judged again (R425). -/
def execStreamLaunch (k : StreamId) (i : Nat) (prefTiles : List TileId) (prefBells : List BellId) (s : State) :
    Host.Outcome State Fault Refusal :=
  .next (match s.handed k i 4 with
    | none => s
    | some c =>
      if s.launchDenied c then (s.served k).cmdDone k i c stSealed
      else
        let q : LaunchReq :=
          { image := w64At c.body 0, arg := w64At c.body 8, tag := w64At c.body 0x10, compl := c.word 0x18,
            ctx := (s.stream k).ctx, src := .stream k c.uid }
        (((s.served k).setCmd k i { c with phase := .started }).launchReq q prefTiles prefBells).tidy k)

/-- The running kernels with a tag. -/
def KernS.tagged (n : KernS) (tag : W64) : List Nat :=
  n.kernels.filterMap fun e => match e.2 with
    | some k => if k.tag = tag then some e.1 else none
    | none => none

/-- STREAM_TERMINATE (R410). -/
def execStreamTerminate (k : StreamId) (i : Nat) (s : State) : Host.Outcome State Fault Refusal :=
  .next (match s.handed k i 5 with
    | none => s
    | some c =>
      let tag := w64At c.body 0
      let s1 := (s.served k).setCmd k i { c with phase := .started, kids := s.kern.tagged tag }
      (s1.terminateTag tag).1.tidy k)

/-- The bell number of OPERAND (R27, R411). -/
def StreamCmd.bell (c : StreamCmd) : Nat := w64Bits c.operand 0 14

/-- STREAM_RING (R411): a PACKAGE-scope release of kind 6, dropped on a poisoned bell. -/
def execStreamRing (k : StreamId) (i : Nat) (s : State) : Host.Outcome State Fault Refusal :=
  .next (match s.starting k i 6 with
    | none => s
    | some c =>
      let b := c.bell
      let s1 := s.bellCheck b
      let bad := (s1.bell b).poison
      let s2 := (s1.ringBell b (BitVec.ofNat 64 (w64Bits c.operand 16 16)) 6#3 (BitVec.ofNat 8 k.val) .package).evalWaits (bellDie b)
      s2.cmdDone k i c (if bad then stBellFault else stOk))

/-- A stream as an acquirer (R167, R411). -/
def streamAcquirer (k : StreamId) : Acquirer := { tile := none, die := 4, kind := 6, unit := k.val }

/-- A WAIT is evaluated: it ends at its threshold, or on a poisoned bell (R411). -/
def State.streamWaitEval (s : State) (k : StreamId) (i : Nat) (c : StreamCmd) : State :=
  let r := s.acquire c.bell (c.word 0) (streamAcquirer k)
  if r.2 then r.1.cmdDone k i c stOk
  else if (r.1.bell c.bell).poison then r.1.cmdDone k i c stBellFault
  else r.1.setCmd k i { c with phase := .started }

/-- STREAM_WAIT (R411): it starts, or is evaluated again. -/
def execStreamWait (k : StreamId) (i : Nat) (s : State) : Host.Outcome State Fault Refusal :=
  .next (match s.cmdAt k i 7 .started with
    | some c => s.streamWaitEval k i c
    | none =>
      match s.starting k i 7 with
      | some c => s.streamWaitEval k i c
      | none => s)

/-! ### Completion entries (R413) -/

/-- The 16 B of an entry. -/
def StreamS.entryBytes (x : StreamS) (c : StreamCmd) (e : W32 × W32) : List Byte :=
  let phase := if x.cqTail < 2 ^ x.clog2 then 1 else 0
  bytesOfNat 4 e.1.toNat ++ bytesOfNat 4 e.2.toNat ++ bytesOfNat 2 c.seq.toNat ++ bytesOfNat 2 (1 + 16 * phase) ++ bytesOfNat 4 0

/-- Writes the entry of command i and raises CVEC if asked; a write that fails leaves no entry (R413). -/
def State.writeEntry (s : State) (k : StreamId) (i : Nat) (c : StreamCmd) (e : W32 × W32) : State :=
  let x := s.stream k
  let w := s.writeMemBy false (hostWin (x.cqBase + 16 * (x.cqTail % 2 ^ x.clog2))) (x.entryBytes c e) 4
  let y := { x with cmds := x.cmds.eraseIdx i }
  if w.status = stOk then
    let s1 := w.st.setStream k { y with cqTail := (x.cqTail + 1) % (2 * 2 ^ x.clog2) }
    s1.when (c.irq && c.cmpl) fun s => s.vector x.cvec
  else w.st.setStream k y

/-- COMPLETION_ENTRY (R403, R413): the entry of a command that has ended, once the ring has space. -/
def execCompletionEntry (k : StreamId) (i : Nat) (s : State) : Host.Outcome State Fault Refusal :=
  let x := s.stream k
  .next (State.tidy (match x.cmds[i]? with
    | none => s
    | some c =>
      match s.cmdEnd k c with
      | none => s
      | some e => if s.cxl.state ≠ 1 || x.cqFull || !c.entryDue e then s else s.writeEntry k i c e) k)

end Sys2Proof.Machine
end

