-- ==== Sys2Proof/Machine/Kettle.lean ====
section
/-! DEFINITION. Kettle (R426 to R451): its cycle with budget, grants and ROLLs, current limits, operating points, boost, heat, the
thermal trip, the input, and the monitors with their trims. -/

namespace Sys2Proof.Machine

def State.setKettle (s : State) (k : KettleS) : State := { s with kettle := k }
def KettleS.tile (k : KettleS) (t : TileId) : TilePwr := k.tiles.get TilePwr.reset t.val
def KettleS.setTile (k : KettleS) (t : TileId) (p : TilePwr) : KettleS := { k with tiles := k.tiles.set TilePwr.reset t.val p }
def KettleS.roll (k : KettleS) (d : Nat) : RollS := k.rolls.get RollS.idle d
def KettleS.limitOf (k : KettleS) (d : Nat) : IlimS := k.ilim.get IlimS.clear d

/-- A record of Kettle or the Belfry (R236, R450, R525). -/
def State.raiseBelfry (s : State) (cls type : Nat) (payload : List Byte) : State := s.raise cls type 5 10 0 payload

/-- The number that a list gives a key; 0 where it gives none. -/
def numberAt {α : Type} [DecidableEq α] (l : List (α × Nat)) (a : α) : Nat :=
  match l.find? fun p => p.1 = a with
  | some p => p.2
  | none => 0

/-! ### Loss of the rails (R428, R448, R511) -/

/-- Every rail but V_B and V_AUX is removed: what they feed loses its state; the Belfry, its V_B domain and the host keep theirs
(R38, R448, R511). -/
def State.railsOff (s : State) : State :=
  { State.reset with
    mem := { MemS.reset with host := s.mem.host, hostPoison := s.mem.hostPoison }
    tocsin := { TocsinS.reset with seqs := s.tocsin.seqs, tallies := s.tocsin.tallies, tallyFreq := s.tocsin.tallyFreq }
    tele := s.tele
    cust := s.cust
    kettle := { s.kettle with rails := [], targets := [], ramp := false, frReady := false, rolls := [], waiting := [], grants := [] }
    dict := s.dict
    window := s.window
    coarse := s.coarse
    svc := { s.svc with railsOn := false }
    reply := s.reply
    fresh := s.fresh
    pending := s.pending }

/-- The module loses power (R38, R428, R464, R512): the boot store, fuses, persistent entries with their claims and the stored
commit number stay; the host's memory is not the module's. -/
def State.powerLost (s : State) : State :=
  let keep := s.dict.entries.filterMap fun e =>
    match entryInfo (e.1 / 256) (e.1 % 256) with
    | some i => if i.persistent then some (e.1, { e.2 with frozen := false }) else none
    | none => none
  { State.reset with
    mem := { MemS.reset with host := s.mem.host, hostPoison := s.mem.hostPoison }
    cust := { CustS.reset with
      ownerKey := s.cust.ownerKey, topVersion := s.cust.topVersion, rollback := s.cust.rollback,
      store := s.cust.store }
    dict := { DictS.reset with entries := keep, csn := s.dict.stored + 65536#64, stored := s.dict.stored }
    svc := { SvcS.reset with
      enTied := s.svc.enTied, inVolt := s.svc.inVolt, resetLow := s.svc.resetLow, strap := s.svc.strap, baysOut := s.svc.baysOut }
    reply := s.reply
    fresh := s.fresh
    pending := s.pending }

/-- TRIP (R477): the reading, its sensor and the trips so far. -/
def tripWord (old sensor : Nat) (reading : Int) : Nat :=
  (reading % 65536).toNat + sensor * 2 ^ 16 + (old / 2 ^ 32 + 1) % 2 ^ 32 * 2 ^ 32

/-- The thermal trip (R448). -/
def State.thermalTrip (s : State) (sensor : Nat) (reading : Int) : State :=
  let s1 := s.railsOff.belfryCommit [((0x4000, 0x20), bytesOfNat 8 (tripWord (s.dict.num 0x4000 0x20) sensor reading))]
  { s1 with svc := { s1.svc with tripped := true, alert := true } }

/-! ### Heat (R447) -/

/-- A temperature of 1/8 °C as a register field, and back. -/
def tempField (t : Int) : W16 := BitVec.ofInt 16 t

/-- The readings of a cycle in the registers: the hottest junction and the hottest stack of each die. -/
def KettleS.readings (k : KettleS) (r : KettleIn) : KettleS :=
  let logic := r.logic.foldl (fun (m : Map W16) p => m.set 0#16 p.1.val (tempField p.2)) k.logic
  let hottest := fun (d : Nat) => (r.dram.filter fun p => ctrlDie p.1.val = d).foldl (fun (m : Option Int) p =>
    match m with
    | none => some p.2
    | some x => some (max x p.2)) none
  let dram := (List.range 5).foldl (fun (m : Map W16) d => match hottest d with
    | some t => m.set 0#16 d (tempField t)
    | none => m) k.dram
  { k with logic := logic, dram := dram }

/-- The hottest logic junction. -/
def KettleS.hottest (k : KettleS) : Int := (List.range 6).foldl (fun m d => max m (k.logic.get 0#16 d).toInt) (k.logic.get 0#16 0).toInt

/-- The sensor of a reading of 110 °C or more, and the reading (R447, R477). -/
def tripSensor (r : KettleIn) : Option (Nat × Int) :=
  match r.logic.find? fun p => p.2 ≥ 880 with
  | some p => some (p.1.val, p.2)
  | none =>
    (r.dram.find? fun p => p.2 ≥ 880).map fun p => (if p.1.val < 16 then 0x10 + p.1.val else 0x20 + (p.1.val - 16), p.2)

/-- The thermal cap in a cycle (R447): lowered by 2 % at or above THROTTLE_T, raised by 1 % below it less 2 °C, gone at POWER_CAP. -/
def thermalCap (cap : Option Nat) (powerCap : Nat) (hottest throttleT : Int) : Option Nat :=
  if hottest ≥ throttleT then
    let b := cap.getD powerCap
    some (b - b * 2 / 100)
  else
    match cap with
    | none => none
    | some b =>
      if hottest < throttleT - 16 then
        let c := b + b / 100
        if c ≥ powerCap then none else some c
      else some b

/-- The thermal cap enters or leaves force, with its record. -/
def State.throttle (s : State) (powerCap : Nat) : State :=
  let k := s.kettle
  let c := thermalCap k.cap powerCap k.hottest (8 * s.dict.num 0x4000 1)
  let n := if c.isSome then satInc32 k.throttleCycles else k.throttleCycles
  let s1 := s.setKettle { k with cap := c, throttle := c.isSome, throttleCycles := n }
  s1.when (c.isSome ≠ k.throttle) fun s =>
    s.raiseBelfry 2 0x42 (payloadOf [(0x18, 1, c.isSome.toNat), (0x1A, 2, (tempField k.hottest).toNat)])

/-- A die at 105 °C has its tokens cut until it falls below 103 °C (R447). -/
def State.hotDie (s : State) (d : Nat) : State :=
  let k := s.kettle
  let t := (k.logic.get 0#16 d).toInt
  if k.hot.contains d then (if t < 824 then s.setKettle { k with hot := k.hot.erase d } else s)
  else if t ≥ 840 then
    (s.setKettle { k with hot := k.hot ++ [d] }).raiseBelfry 1 0x43
      (payloadOf [(0x18, 1, d), (0x19, 1, 0), (0x1A, 2, (tempField t).toNat)])
  else s

/-- A stack above 95 °C doubles its refresh, above 105 °C halves its rate, each with 2 °C of hysteresis (R447). -/
def State.hotStack (s : State) (p : Ctrl × Int) : State :=
  let c := p.1.val
  let k := s.mem.ctrl c
  let dbl : Bool := if k.dblRefresh then p.2 ≥ 744 else p.2 > 760
  let half : Bool := if k.halfRate then p.2 ≥ 824 else p.2 > 840
  let s1 := { s with mem := s.mem.setCtrl c { k with dblRefresh := dbl, halfRate := half } }
  let s2 := s1.when (dbl ≠ k.dblRefresh) fun s => s.raiseCtrl 2 0x47 c (payloadOf [(0x18, 1, dbl.toNat)])
  s2.when (half && !k.halfRate) fun s =>
    s.raiseBelfry 1 0x43 (payloadOf [(0x18, 1, ctrlDie c), (0x19, 1, 1), (0x1A, 2, (tempField p.2).toNat), (0x1C, 4, ctrlUnit c)])

/-! ### Operating points (R439 to R442) -/

/-- The set point of V_A in mV for a point (R439, R441). -/
def pointVolt (point : Nat) : Nat := if point = 1 then 580 else if point = 2 then vfr else 750

/-- The controls of the dictionary take effect at the cycle boundary (R440, R442, R476). Fixed rate is ready once nothing has
changed and no rail moves. -/
def KettleS.settings (k : KettleS) (d : DictS) : KettleS :=
  let point := d.num 0x3000 1
  let rate := d.num 0x3000 4
  let changed : Bool := point ≠ k.point || rate ≠ k.frRate
  { k with point := point, boostEn := d.num 0x3000 3 = 1, frRate := rate, frClap := d.num 0x3000 5,
           frReady := point = 2 && !changed && !k.ramp }

/-- A rail moves at 5 mV per µs towards its target, 20 mV in a cycle (R440). -/
def railStep (v t : Nat) : Nat := if v < t then min t (v + 20) else max t (v - 20)

/-- The targets of the V_A rails for a cycle, with 860 mV for boosted dies (R444); RAMP while a rail moves. -/
def KettleS.aim (k : KettleS) (boosted : List Nat) : KettleS :=
  let target := fun (d : Nat) => if boosted.contains d then 860 else pointVolt k.point
  let targets := (List.range 4).foldl (fun (m : Map Nat) d => m.set 0 d (target d)) k.targets
  let moving : Bool := (List.range 4).any fun d => k.rails.get 0 d ≠ target d
  let rails := (List.range 4).foldl (fun (m : Map Nat) d => m.set 0 d (railStep (k.rails.get 0 d) (target d))) k.rails
  { k with targets := targets, rails := rails, ramp := k.ramp || moving, frReady := k.frReady && !moving }

/-- RAIL_TARGET_REACHED (R440, R442): every rail holds its target; RAMP clears, fixed rate is ready, a record is posted. -/
def execRailTargetReached (s : State) : Host.Outcome State Fault Refusal :=
  let k := s.kettle
  .next (if !k.ramp then s
    else
      (s.setKettle { k with rails := k.targets, ramp := false, frReady := k.point = 2 }).raiseBelfry 2 0x46
        (payloadOf [(0x18, 1, k.point), (0x1A, 2, k.frRate)]))

/-! ### ROLLs (R434 to R437) -/

/-- The fields of a ROLL word that a write of KETTLE_ROLL must keep (R435). -/
def rollBad (w : W64) : Bool :=
  w.toNat &&& operandMask 9 ≠ w.toNat || (rollClass w = 0 && rollDuration w ≠ 0) || rollDuration w = 0xFFFFFFFF

/-- A ROLL that names no die, or has a class without a duration, is empty (R435). -/
def rollEmpty (w : W64) : Bool := rollDies w = 0 || (rollClass w ≠ 0 && rollDuration w = 0)

/-- Kettle takes a ROLL; it takes effect at the next cycle boundary (R436). -/
def KettleS.take (k : KettleS) (w : W64) : KettleS := if rollEmpty w then k else { k with waiting := k.waiting ++ [w] }

/-- KETTLE_ROLL (R434, R435). -/
def execKettleRoll (v : W64) (s : State) : Host.Outcome State Fault Refusal :=
  .next (if rollBad v then s.discard else s.setKettle (s.kettle.take v))

/-- ROLL (R407, R435): the stream command completes when it is handed to Kettle. -/
def execRoll (k : StreamId) (i : Nat) (s : State) : Host.Outcome State Fault Refusal :=
  .next (match s.starting k i 9 with
    | none => s
    | some c => (s.setKettle (s.kettle.take c.operand)).cmdDone k i c stOk)

/-- The tiles of a die that kernels hold. -/
def State.heldTiles (s : State) (d : Nat) : List TileId :=
  s.tiles.filterMap fun e => if e.2.kernel.isSome && e.1 / 64 = d then some (Fin.ofNat 256 e.1) else none

/-- A ROLL word put in force on the dies it names (R436). -/
def applyRoll (m : Map RollS) (w : W64) : Map RollS :=
  (List.range 4).foldl (fun m d =>
    if (rollDies w).testBit d then
      m.set RollS.idle d (if rollClass w = 0 then RollS.idle else { cls := rollClass w, beats := rollDuration w * 65536 })
    else m) m

/-- The ROLLs at a cycle boundary (R436): durations fall, reserves end, the waiting ROLLs take effect. -/
def State.rollBoundary (s : State) (r : KettleIn) : State :=
  let k := s.kettle
  let fallen := (List.range 4).foldl (fun (m : Map RollS) d =>
    let x := m.get RollS.idle d
    let left := x.beats - numberAt r.made (Fin.ofNat 4 d)
    m.set RollS.idle d (if x.cls = 0 || left = 0 || (s.heldTiles d).isEmpty then RollS.idle else { x with beats := left })) k.rolls
  s.setKettle { k with rolls := k.waiting.foldl applyRoll fallen, waiting := [] }

/-! ### Current limits (R438) -/

/-- The tokens of a die's units. -/
def onDie (d u : Nat) : Bool := if u < 256 then u / 64 = d else ctrlDie (u - 256) = d

/-- Every token of a die is cut to the floor of 64 beats. -/
def KettleS.cutDie (k : KettleS) (d : Nat) : KettleS := { k with grants := k.grants.filter fun g => !onDie d g.1 }

/-- CURRENT_LIMIT_ALERT (R438, R450). -/
def execCurrentLimitAlert (die : ADie) (amps : W32) (s : State) : Host.Outcome State Fault Refusal :=
  let k := s.kettle
  let x := k.limitOf die.val
  let y : IlimS := { alert := true, held := false, base := k.lastEst.get 0 die.val, pct := 85, since := 0 }
  let s1 := s.setKettle { k.cutDie die.val with ilimAlerts := satInc32 k.ilimAlerts, ilim := k.ilim.set IlimS.clear die.val y }
  .next (s1.when (decide (x.since ≥ 250)) fun s =>
    s.raiseBelfry 1 0x40 (payloadOf [(0x18, 1, die.val), (0x1C, 4, amps.toNat)]))

/-- A die's limit at a boundary: 85 % first and while the alert holds, then 5 % more in each cycle that finds it clear. -/
def IlimS.boundary (x : IlimS) (alertNow : Bool) : IlimS :=
  let since := if alertNow then 0 else min 250 (x.since + 1)
  if x.alert && !x.held then { x with alert := alertNow, held := true, pct := 85, since := since }
  else if x.held then { x with alert := alertNow, pct := if alertNow then 85 else x.pct + 5, since := since }
  else { x with alert := alertNow, since := since }

/-- The limit in mW while it holds. -/
def IlimS.watts (x : IlimS) : Option Nat := if x.held then some (x.base * x.pct / 100) else none

/-! ### Budget and grants (R431 to R433) -/

/-- The budget in mW: POWER_CAP and the thermal cap (R431); a die's current limit bounds the die's own share (assumption 25). -/
def KettleS.budget (k : KettleS) (powerCap : Nat) : Nat :=
  match k.cap with
  | none => powerCap
  | some c => min c powerCap

/-- A share of power for a cycle, by unit (tile t, 256 + u for Clapper unit u) in mW. -/
abbrev Shares := List (Nat × Nat)

/-- The reserve of a die before it is fitted into avail: none while its alert lasts, capped by its limit where asked (R434, R437,
R438). -/
def State.reserveOf (s : State) (r : KettleIn) (capped : Bool) (d : Nat) : Nat :=
  let k := s.kettle
  let full := (k.roll d).cls * r.tileFull * (s.heldTiles d).length / 7
  if (k.limitOf d).alert then 0
  else
    match (if capped then (k.limitOf d).watts else none) with
    | none => full
    | some w => min full w

/-- The reserves of the four dies, cut in proportion where they exceed avail (R437). -/
def State.reserves (s : State) (r : KettleIn) (capped : Bool) (avail : Nat) : List Nat :=
  let rs := (List.range 4).map (s.reserveOf r capped)
  let sum := rs.foldl (· + ·) 0
  if sum > avail then rs.map fun x => x * avail / sum else rs

/-- What Kettle can spend at the rails (R432). -/
def railAvail (budget : Nat) (r : KettleIn) : Nat := budget * r.eta / 1000 - r.ungated

/-- The units under a ROLL, each with an equal part of its die's reserve (R433). -/
def State.rollShares (s : State) (reserves : List Nat) : Shares :=
  (List.range 4).flatMap fun d =>
    let ts := s.heldTiles d
    if reserves.getD d 0 = 0 then [] else ts.map fun t => (t.val, reserves.getD d 0 / ts.length)

/-- The demand of every other gated unit: beats issued, and beats it could have issued (R433). -/
def demands (r : KettleIn) (under : Shares) : Shares :=
  let ts := ((r.tileBeats ++ r.tileCould).map fun p => p.1.val).eraseDups
  let cs := ((r.clapBeats ++ r.clapCould).map fun p => p.1.val).eraseDups
  (((ts.map fun t => (t, numberAt r.tileBeats (Fin.ofNat 256 t) + numberAt r.tileCould (Fin.ofNat 256 t))).filter fun p =>
      !(under.any fun u => u.1 = p.1)))
    ++ cs.map fun c => (256 + c, numberAt r.clapBeats (Fin.ofNat 24 c) + numberAt r.clapCould (Fin.ofNat 24 c))

/-- Shares of avail in proportion to demand. -/
def proportion (avail : Nat) (ds : Shares) : Shares :=
  let sum := ds.foldl (fun a d => a + d.2) 0
  ds.map fun d => (d.1, avail * d.2 / sum)

/-- The power that a die's units share. -/
def dieShare (sh : Shares) (d : Nat) : Nat := (sh.filter fun p => onDie d p.1).foldl (fun a p => a + p.2) 0

/-- A die's shares scaled down to a limit. -/
def capDie (sh : Shares) (d : Nat) (limit : Option Nat) : Shares :=
  match limit with
  | none => sh
  | some w => if dieShare sh d > w then sh.map fun p => if onDie d p.1 then (p.1, p.2 * w / dieShare sh d) else p else sh

/-- The tokens of a share: no fewer than 64 beats; on a hot die just those (R432, R433, R447). -/
def KettleS.tokens (k : KettleS) (r : KettleIn) (p : Nat × Nat) : Nat :=
  let e := if p.1 < 256 then numberAt r.tileEnergy (Fin.ofNat 256 p.1) else numberAt r.clapEnergy (Fin.ofNat 24 (p.1 - 256))
  if k.hot.any fun d => onDie d p.1 then 64 else max 64 (p.2 * 4000 / e)

/-- The limit of a die's rail at its voltage, where Kettle has one. -/
def railLimit (r : KettleIn) (d : Nat) : Option Nat := (r.railLimit.find? fun p => p.1.val = d).map (·.2)

/-- The limits of the dies at a boundary, lapsed where they reach what the die would be granted (R438). -/
def KettleS.lapse (k : KettleS) (sh : Shares) : KettleS :=
  { k with ilim := (List.range 4).foldl (fun (m : Map IlimS) d =>
      let x := m.get IlimS.clear d
      match x.watts with
      | some w => if !x.alert && w ≥ dieShare sh d then m.set IlimS.clear d { x with held := false } else m
      | none => m) k.ilim }

/-- The shares of the gated units: reserves first, then avail by demand (R432, R433). -/
def State.shares (s : State) (r : KettleIn) (capped : Bool) (avail : Nat) : Shares :=
  let res := s.reserves r capped avail
  let under := s.rollShares res
  under ++ proportion (avail - res.foldl (· + ·) 0) (demands r under)

/-- The grants of a cycle (R432). -/
def State.grant (s : State) (r : KettleIn) (budget : Nat) : State :=
  let avail := railAvail budget r
  let k := s.kettle.lapse (s.shares r false avail)
  let sh := (s.setKettle k).shares r true avail
  let capped := (List.range 4).foldl (fun sh d => capDie (capDie sh d (railLimit r d)) d (k.limitOf d).watts) sh
  s.setKettle { k with
    limit := min 0xFFFF (budget / 1000)
    est := min 0xFFFF (r.estimate / r.eta)
    grants := capped.foldl (fun (m : Map Nat) p => m.set 64 p.1 (k.tokens r p)) []
    lastEst := r.dieEstimate.foldl (fun (m : Map Nat) p => m.set 0 p.1.val p.2) k.lastEst }

/-! ### Shortfall and boost (R443, R444) -/

/-- A paced unit in shortfall: whether it is a Clapper unit, its number and the beats short. -/
def shortOf (r : KettleIn) : Option (Bool × Nat × Nat) :=
  match r.worked.find? fun t => numberAt r.tileBeats t < r.pacer with
  | some t => some (false, t.val, r.pacer - numberAt r.tileBeats t)
  | none =>
    (r.workedClap.find? fun u => u.val < 16 && numberAt r.clapBeats u < r.pacerClap).map fun u =>
      (true, u.val, r.pacerClap - numberAt r.clapBeats u)

/-- The cause of a shortfall: a rail, a tile in CEILING below FR_RATE, the thermal cap, else tokens (R443, R450). -/
def KettleS.shortCause (k : KettleS) (u : Bool × Nat × Nat) : Nat :=
  let p := k.tile (Fin.ofNat 256 u.2.1)
  if k.ramp || (List.range 4).any fun d => k.rails.get 0 d ≠ k.targets.get 0 d then 4
  else if !u.1 && p.ceiling && p.ceil.toNat < k.frRate then 3
  else if k.throttle then 2
  else 1

/-- A shortfall in the last cycle is counted, and recorded after 1 ms without one (R443). -/
def State.shortfall (s : State) (r : KettleIn) : State :=
  let k := s.kettle
  match (if k.frReady then shortOf r else none) with
  | none => s.setKettle { k with shortfall := false, sinceShort := min 250 (k.sinceShort + 1) }
  | some u =>
    let s1 := s.setKettle { k with shortfall := true, shortfalls := satInc32 k.shortfalls, sinceShort := 0 }
    s1.when (decide (k.sinceShort ≥ 250)) fun s =>
      s.raise 1 0x41 (if u.1 then ctrlDie u.2.1 else u.2.1 / 64) (if u.1 then 6 else 1) u.2.1
        (payloadOf [(0x18, 1, k.shortCause u), (0x1C, 4, u.2.2)])

/-- The tiles that boost on a die: those under a ROLL first, then by demand, the lower number first among equals (R444). -/
def State.boostTiles (s : State) (r : KettleIn) (d n : Nat) : List TileId :=
  let ts := (List.finRange 256).filter fun t => tileDie t = d
  let rolled := fun (t : TileId) => (s.kettle.roll d).cls ≠ 0 && (s.tile t).kernel.isSome
  let demand := fun (t : TileId) => numberAt r.tileBeats t + numberAt r.tileCould t
  (ts.insertionSort fun a b => if rolled a = rolled b then demand a ≥ demand b else rolled a = true).take n

/-- Boost in a cycle (R444): only at POINT 0 with BOOST_EN, on dies with room. -/
def State.boost (s : State) (r : KettleIn) : State :=
  let k := s.kettle
  let dies := if k.point = 0 && k.boostEn then r.boostRoom.filter fun p => p.2 > 0 else []
  let chosen := dies.flatMap fun p => s.boostTiles r p.1.val p.2
  let off := k.tiles.map fun e => (e.1, { e.2 with boost := false })
  let clear : KettleS := { k with tiles := off.filter fun e => e.2 ≠ TilePwr.reset }
  let k1 := chosen.foldl (fun (k : KettleS) t => k.setTile t { k.tile t with boost := true }) clear
  s.setKettle (k1.aim (dies.map fun p => p.1.val))

/-! ### The cycle (R430) -/

/-- KETTLE_STATUS (R451). -/
def KettleS.statusWord (k : KettleS) : W32 :=
  BitVec.ofNat 32 (k.point + 8 * k.boostEn.toNat + 16 * k.frReady.toNat + 32 * k.shortfall.toNat + 64 * k.throttle.toNat
    + 128 * ((List.range 4).any fun d => (k.limitOf d).alert).toNat + 256 * k.ramp.toNat + 512 * k.inputBad.toNat)

/-- The cycle's part in the telemetry window (R508). -/
def State.observe (s : State) : State :=
  let k := s.kettle
  let w := s.window
  { s with window := { w with
      bits := w.bits ||| k.statusWord.toNat, cycles := w.cycles + 1, est := w.est + k.est, limit := min w.limit k.limit
      logic := (List.range 6).foldl (fun (m : Map Int) d => m.modify 0 d (· + (k.logic.get 0#16 d).toInt)) w.logic
      dram := (List.range 6).foldl (fun (m : Map Int) d => m.modify 0 d (· + (k.dram.get 0#16 d).toInt)) w.dram } }

/-- One cycle of Kettle (R430): collect, limit, grant, set. -/
def State.kettleCycle (s : State) (r : KettleIn) : State :=
  if !s.svc.railsOn then s
  else
    match tripSensor r with
    | some t => s.thermalTrip t.1 t.2
    | none =>
      let powerCap := 1000 * s.dict.num 0x3000 2
      let s1 := (s.shortfall r).setKettle (((s.shortfall r).kettle.settings s.dict).readings r)
      let s2 := (s1.throttle powerCap)
      let s3 := (List.range 6).foldl State.hotDie s2
      let s4 := r.dram.foldl State.hotStack s3
      let s5 := s4.rollBoundary r
      let k := s5.kettle
      let limits := (List.range 4).foldl (fun (m : Map IlimS) d =>
        m.modify IlimS.clear d fun x => x.boundary (r.alerts.any fun a => a.val = d)) k.ilim
      let s6 := (s5.setKettle { k with ilim := limits }).grant r (k.budget powerCap)
      (s6.boost r).observe

/-- KETTLE_CYCLE (R430). -/
def execKettleCycle (r : KettleIn) (s : State) : Host.Outcome State Fault Refusal := .next (s.kettleCycle r)

/-! ### The input (R428) -/

/-- INPUT_REPORT (R428): the first stage reports; out of range is recorded once per excursion; below 56 V the module loses
power. -/
def execInputReport (volt10mV : Nat) (watts : Nat) (s : State) : Host.Outcome State Fault Refusal :=
  let s0 := { s with svc := { s.svc with inVolt := volt10mV } }
  let k := s.kettle
  let bad : Bool := volt10mV < 6000 || volt10mV > 8000
  .next (if !s.svc.running then s
    else if volt10mV < 5600 then s0.powerLost
    else
      let k1 := { k with volt := min 0xFFFF volt10mV, watts := min 0xFFFF watts, inputBad := bad }
      let w := s.window
      let s1 : State := { s0 with kettle := k1, window :=
        { w with reports := w.reports + 1, watts := w.watts + k1.watts, volt := w.volt + k1.volt, bits := w.bits ||| 512 * bad.toNat } }
      s1.when (bad && !k.inputBad) fun s => s.raiseBelfry 1 0x48 (payloadOf [(0x18, 2, volt10mV)]))

/-! ### Monitors and trims (R445, R446) -/

/-- TRIM after a margin in thousandths of the beat, and the evaluations above 18 % in a row. -/
def trimAfter (trim streak margin : Nat) : Nat × Nat :=
  if margin < 60 then (0, 0)
  else if margin < 120 then (trim - 5, 0)
  else if margin ≤ 180 then (trim, 0)
  else if streak + 1 ≥ 16 then (min 60 (trim + 5), 0)
  else (trim, streak + 1)

/-- A tile's monitor: its trim is held at zero under POINT 2, and kept while it takes a boost drop (R427, R441). -/
def State.monitorTile (s : State) (t : TileId) (margin : Nat) (inRange : Bool) (reading : W16) : State :=
  let k := s.kettle
  let p := k.tile t
  let dropped : Bool := !p.boost && k.tiles.any fun e => e.1 / 64 = tileDie t && e.2.boost
  if p.ceiling then s
  else if !inRange then
    (s.setKettle (k.setTile t { p with ceiling := true, stuck := true, trim := 0, streak := 0 })).raise 1 0x45 (tileDie t) 1 t.val
      (payloadOf [(0x18, 2, reading.toNat)])
  else if dropped then s
  else
    let a := trimAfter p.trim p.streak margin
    s.setKettle (k.setTile t { p with trim := if k.point = 2 then 0 else a.1, streak := a.2 })

/-- A core's monitor, with the same guard and cycle (R385, R446). -/
def State.monitorCore (s : State) (c : CoreId) (margin : Nat) (inRange : Bool) (reading : W16) : State :=
  let p := s.core c
  if p.ceiling then s
  else if !inRange then
    (s.setCore c { p with ceiling := true, stuckCeiling := true, trim := 0, streak := 0 }).raise 1 0x45 4 2 c.val
      (payloadOf [(0x18, 2, reading.toNat)])
  else
    let a := trimAfter p.trim p.streak margin
    s.setCore c { p with trim := a.1, streak := a.2 }

/-- MONITOR_EVALUATION (R445, R446). -/
def execMonitorEvaluation (u : MonUnit) (margin : Nat) (inRange : Bool) (reading : W16) (s : State) :
    Host.Outcome State Fault Refusal :=
  .next (match u with
    | .tile t => s.monitorTile t margin inRange reading
    | .core c => s.monitorCore c margin inRange reading)

/-- TRIM_SAVE (R445): every hour the Belfry saves each unit's TRIM. -/
def execTrimSave (s : State) : Host.Outcome State Fault Refusal :=
  .next (s.belfryCommit (((List.finRange 256).map fun t => ((0x1013, t.val), bytesOfNat 1 (s.kettle.tile t).trim))
    ++ (List.finRange 96).map fun c => ((0x1014, c.val), bytesOfNat 1 (s.core c).trim)))

/-- A unit enters SERVICE at its saved TRIM less 10 mV, unless a reading out of range keeps it in CEILING (R445, R446). -/
def State.tileService (s : State) (t : TileId) : State :=
  let p := s.kettle.tile t
  if p.stuck then s
  else s.setKettle (s.kettle.setTile t { p with
    ceiling := false, trim := if s.kettle.point = 2 then 0 else s.dict.num 0x1013 t.val - 10, streak := 0 })
def State.coreService (s : State) (c : CoreId) : State :=
  let p := s.core c
  if p.stuckCeiling then s
  else s.setCore c { p with ceiling := false, trim := s.dict.num 0x1014 c.val - 10, streak := 0 }

/-- A unit in CEILING has TRIM 0 (R446). -/
def State.tileCeiling (s : State) (t : TileId) : State :=
  s.setKettle (s.kettle.setTile t { s.kettle.tile t with ceiling := true, trim := 0, boost := false, streak := 0 })

end Sys2Proof.Machine
end

