-- ==== Sys2Proof/Machine/Service.lean ====
section
/-! DEFINITION. Reset, bring-up and service (R491 to R495, R510 to R525, R529, R535 to R541): the boot chain, the resets, self-test
and initialisation, service actions, the boot store, the ROM state, and the module's pins and bays. -/

namespace Sys2Proof.Machine

def State.setSvc (s : State) (v : SvcS) : State := { s with svc := v }
def State.setCust (s : State) (c : CustS) : State := { s with cust := c }

/-! ### The boot store and its images (R491 to R495, R527) -/

/-- The place of a slot (0 F0, 1 F1, 2 K0, 3 K1, 4 T0, 5 T1) in the store, and its capacity. -/
def slotBase (slot : Nat) : Nat := 2 ^ 32 * slot
def slotSize (slot : Nat) : Nat := if slot < 2 then 2 ^ 22 else if slot < 4 then 2 ^ 12 else 2 ^ 28

/-- Bytes of a slot. -/
def CustS.slot (c : CustS) (slot off n : Nat) : List Byte := c.store.getRun 0#8 (slotBase slot + off) n

/-- A slot written, and erased. -/
def CustS.writeSlot (c : CustS) (slot off : Nat) (bs : List Byte) : CustS :=
  { c with store := c.store.setRun 0#8 (slotBase slot + off) bs }
def CustS.eraseSlot (c : CustS) (slot : Nat) : CustS :=
  { c with store := c.store.filter fun e => !(slotBase slot ≤ e.1 && e.1 < slotBase (slot + 1)) }

/-- A firmware image (R491) as the places of assumption 26 lay it out: magic, SVN, COMMIT_SVN, image length, and the signature over
the digest of the header's other bytes and the image. -/
structure Firmware where
  magic : Nat
  svn : Nat
  commitSvn : Bool
  len : Nat
  sig : List Byte
  signed : List Byte
  whole : List Byte
  deriving DecidableEq, Repr

def Firmware.ofBytes (hdr image : List Byte) : Firmware :=
  { magic := wordAt hdr 0, svn := wordAt hdr 4, commitSvn := bitsOf (wordAt hdr 8) 0 1 = 1, len := wordAt hdr 0xC,
    sig := (hdr.drop 0x40).take 64, signed := hdr.take 0x40 ++ image, whole := hdr ++ image }

def CustS.firmware (c : CustS) (slot : Nat) : Firmware :=
  let h := c.slot slot 0 128
  Firmware.ofBytes h (c.slot slot 128 (min (wordAt h 0xC) (slotSize slot - 128)))

/-- Step 3 of R492 with R495: magic, length, signature under the vendor key, SVN from the rollback level to 63. -/
def Firmware.good (f : Firmware) (rollback : Nat) : Bool :=
  f.magic = 0x5A424657 && f.len + 128 ≤ 2 ^ 22 && rollback ≤ f.svn && f.svn ≤ 63 && Config.sm2Verify Config.vendorKey f.sig (Config.sm3 f.signed)

/-- Steps 1 to 3 of R492: the firmware that runs, with its slot. -/
def CustS.bootFirmware (c : CustS) : Option Firmware :=
  [0, 1].findSome? fun k => if (c.firmware k).good c.rollback then some (c.firmware k) else none

/-- An owner configuration (R494). -/
def OwnerConfig.ofBytes (bs : List Byte) : OwnerConfig :=
  { version := (w64At bs 8).toNat, allowHostLaunch := bitsOf (wordAt bs 4) 4 1 = 1, requireEnc := bitsOf (wordAt bs 4) 5 1 = 1,
    digests := (List.range 4).map fun i => (bs.drop (0x10 + 32 * i)).take 32, switchRoot := (bs.drop 0x90).take 32,
    peerOwner := (bs.drop 0xB0).take 32, bytes := bs }

/-- A configuration slot that verifies under OWNER_KEY, at or above the highest VERSION stored (R492 step 4, R494). -/
def CustS.configSlot (c : CustS) (slot : Nat) : Option OwnerConfig :=
  let bs := c.slot slot 0 512
  let g := OwnerConfig.ofBytes bs
  if wordAt bs 0 = 0x5A424F43 && bitsOf (wordAt bs 4) 0 4 = 1 && bitsOf (wordAt bs 4) 6 26 = 0 && ((bs.drop 0xD0).take 240).all (· = 0#8)
      && c.topVersion ≤ g.version && Config.sm2Verify c.ownerKey ((bs.drop 0x1C0).take 64) (bs.take 0x1C0) then some g
  else none

/-- The valid slot of higher VERSION. -/
def CustS.bootConfig (c : CustS) : Option OwnerConfig :=
  match c.configSlot 2, c.configSlot 3 with
  | some a, some b => some (if b.version > a.version then b else a)
  | some a, none => some a
  | none, b => b

/-- A runtime image (R491): its length, entry offset, signature and bytes, at the places of assumption 26. -/
def CustS.runtime (c : CustS) (slot : Nat) : Nat × List Byte × List Byte :=
  let h := c.slot slot 0 96
  let n := min (w64At h 0).toNat (slotSize slot - 96)
  ((w64At h 8).toNat, (h.drop 0x20).take 64, c.slot slot 96 n)

/-- Step 5 of R492: a digest of the configuration (claimed), or the vendor's signature (unclaimed). -/
def CustS.runtimeOk (c : CustS) (sig image : List Byte) : Bool :=
  let d := Config.sm3 image
  match c.config with
  | some g => g.digests.any fun x => !(x.all (· = 0#8)) && x = d
  | none => c.ownerKey.isEmpty && Config.sm2Verify Config.vendorKey sig d

/-- Where the runtime image is copied in deep memory (assumption 26). -/
def runtimeBase : Nat := 0x008000000000

/-! ### Bring-up (R514, R515) -/

/-- A boot failure: alert until the next cold reset (R493, R515). -/
def State.bootFails (s : State) : State := s.setSvc { s.svc with alert := true }

/-- Step 4 of R514: HOOP_CTRL, soft repairs; every link begins its full training (step 6). -/
def State.loadSettings (s : State) : State :=
  let hoops := (List.finRange 8).foldl (fun (n : NetS) l =>
    let v := s.dict.num 0x6000 l.val
    n.setHoop l { HoopLink.reset with state := 1, split := bitsOf v 0 5, reqf := bitsOf v 8 4, reqr := bitsOf v 12 4 }) s.net
  let tiles := (List.finRange 256).foldl (fun (m : Map Tile) t =>
    m.modify Tile.reset t.val fun x => { x with
      repairRow := BitVec.ofNat 64 (s.dict.num 0x1011 t.val), repairCol := BitVec.ofNat 64 (s.dict.num 0x1012 t.val) }) s.tiles
  { s with net := hoops, tiles := tiles }

/-- Step 5 of R514: the rails, each V_A at the target of POINT. -/
def State.raiseRails (s : State) : State :=
  let v := pointVolt (s.dict.num 0x3000 1)
  let m := (List.range 4).foldl (fun (m : Map Nat) d => m.set 0 d v) []
  let k := { s.kettle with point := s.dict.num 0x3000 1, rails := m, targets := m }
  { s with kettle := k, svc := { s.svc with railsOn := true } }

/-- Step 4 of R492: the configuration in use. -/
def CustS.useConfig (c : CustS) : CustS :=
  if c.ownerKey.isEmpty then { c with config := none }
  else
    match c.bootConfig with
    | some g => { c with config := some g, topVersion := max c.topVersion g.version }
    | none => { c with config := none }

/-- Bring-up from step 3 (R492 steps 1 to 4, R514 steps 3 to 5). The strap is sampled (R535); with SEALED at 1 sealed mode is in
effect at once (R500). -/
def State.bringUp (s : State) : State :=
  let c := { s.cust with latched := s.dict.num 0x7000 1 = 1, romMeas := Config.romDigest }
  let s0 := { s with cust := c, svc := { s.svc with node := s.svc.strap.val, phase := 1, rom := false, alert := false } }
  let s1 : State := { s0 with cxl := { s0.cxl with sealedBit := c.latched }, kern := { s0.kern with sealedMark := c.latched } }
  match c.bootFirmware with
  | none => s1.bootFails.setSvc { s1.bootFails.svc with rom := true }
  | some f =>
    let c1 := CustS.useConfig { c with svn := f.svn, fwMeas := Config.sm3 f.whole }
    let s2 := { s1 with cust := c1, svc := { s1.svc with phase := 2 } }
    let s3 := s2.loadSettings.raiseRails
    if !c1.ownerKey.isEmpty && c1.config.isNone then s3.bootFails else s3

/-- Power-on (R514 steps 1 and 2, R529): the first stage starts once EN is tied and the input stands at 58 V or more. -/
def State.powerOn (s : State) : State :=
  if s.svc.running || !s.svc.enTied || s.svc.inVolt < 5800 then s
  else
    let freq := (List.range 6).foldl (fun (m : Map W32) d => m.set 0#32 d ((Config.freeWord s.fresh d).truncate 32)) []
    let s1 := State.drawn { s with tocsin := { s.tocsin with tallyFreq := freq }, svc := { s.svc with running := true } }
    s1.bringUp

/-- A cold reset's clearing (R511, R512): the V_B domain keeps tallies, calibration and event sequence counters; one slot of each
pair stays written for the power-on period (R523). -/
def State.coldClear (s : State) : State :=
  let t := s.powerLost
  { t with
    tocsin := { TocsinS.reset with seqs := s.tocsin.seqs, tallies := s.tocsin.tallies, tallyFreq := s.tocsin.tallyFreq }
    svc := { t.svc with running := true, pairSlot := s.svc.pairSlot } }

/-- A reading at or above 100 °C, at which the Belfry refuses a cold reset (R448, R511). -/
def KettleS.tooHot (k : KettleS) : Bool :=
  (List.range 6).any fun d => (k.logic.get 0#16 d).toInt ≥ 800 || (k.dram.get 0#16 d).toInt ≥ 800

/-- A cold reset (R511). -/
def State.coldReset (s : State) : State := s.coldClear.bringUp

/-- POWER_ON (R428, R514): the input has risen to a voltage (10 mV units). -/
def execPowerOn (volt10mV : Nat) (s : State) : Host.Outcome State Fault Refusal :=
  .next (State.powerOn (s.setSvc { s.svc with inVolt := volt10mV }))

/-- EN_TIED (R529): EN tied to RTN for 50 ms without a break. -/
def execEnTied (millis : Nat) (s : State) : Host.Outcome State Fault Refusal :=
  .next (if millis < 50 then s else State.powerOn (s.setSvc { s.svc with enTied := true }))

/-- EN_BREAK (R529): a break longer than 20 µs stops the first stage, as an input below 56 V does. -/
def execEnBreak (micros : Nat) (s : State) : Host.Outcome State Fault Refusal :=
  .next (if micros ≤ 20 then s
    else
      let s1 := s.setSvc { s.svc with enTied := false }
      if s.svc.running then s1.powerLost else s1)

/-- RESET_N (R510, R511, R536): low for 1 ms or more removes the rails, and the release runs bring-up from step 3; shorter pulses,
and any while a reading is at or above 100 °C, have no effect. -/
def execResetN (low : Bool) (micros : Nat) (s : State) : Host.Outcome State Fault Refusal :=
  .next (if !s.svc.running then s
    else if low then
      if micros < 1000 || s.kettle.tooHot then s
      else
        let t := s.coldClear
        t.setSvc { t.svc with resetLow := true }
    else if !s.svc.resetLow then s
    else
      let t := s.coldClear
      State.bringUp (t.setSvc { t.svc with resetLow := false }))

/-! ### Self-test, initialisation and the start of the runtime -/

/-- Bring-up has reached step 7: rails on, every link trained or fenced (R514). -/
def State.memPhase (s : State) : Bool :=
  s.svc.railsOn && (s.svc.phase = 2 || s.svc.phase = 3) && (List.finRange 8).all fun l => (s.hoop l).state ≠ 1

/-- PHASE becomes 3 with step 7. -/
def State.enterMem (s : State) : State := if s.svc.phase = 2 then s.setSvc { s.svc with phase := 3 } else s

/-- Step 9 of R514: once the runtime is verified and the caches are swept, core 0 starts (R387). -/
def State.startRuntime (s : State) : State :=
  if s.cust.verified && s.cache.swept && s.svc.phase = 3 then
    let s1 := s.setCore 0 ((s.core 0).start 0 (BitVec.ofNat 64 s.cust.entry))
    s1.setSvc { s1.svc with phase := 4 }
  else s

/-- The rollback fuses after step 6 of R492. -/
def CustS.raiseFuses (c : CustS) : CustS :=
  match c.bootFirmware with
  | some f => if f.commitSvn && f.svn > c.rollback then { c with rollback := f.svn } else c
  | none => c

/-- Steps 5 and 6 of R492 (R514 steps 8 and 9): the runtime is copied into deep memory, measured and accepted, from T0 or T1. -/
def State.verifyRuntime (s : State) : State :=
  let c := s.cust
  if !c.ownerKey.isEmpty && c.config.isNone then s
  else
    let a := c.runtime 4
    let b := c.runtime 5
    let pick := if c.runtimeOk a.2.1 a.2.2 then some a else if c.runtimeOk b.2.1 b.2.2 then some b else none
    match pick with
    | none => State.bootFails (s.setCust { c with runtimeMeas := Config.sm3 b.2.2 })
    | some r =>
      let c1 := { c.raiseFuses with runtimeMeas := Config.sm3 r.2.2, verified := true, entry := runtimeBase + r.1 }
      State.startRuntime { s with cust := c1, mem := s.mem.store runtimeBase r.2.2 }

/-- CACHE_SWEEP_COMPLETE (R203). -/
def execCacheSweepComplete (s : State) : Host.Outcome State Fault Refusal :=
  .next (if !s.memPhase then s
    else State.startRuntime { s.enterMem with cache := { s.cache with swept := true, sweepStep := 32768 } })

/-- The deep stacks are all initialised. -/
def MemS.deepReady (m : MemS) : Bool := (List.range 8).all fun k => m.inService (16 + k)

/-- STACK_INIT_COMPLETE (R216, R515, R521): at bring-up the stack enters service, or stays out; the last deep stack lets the runtime
be verified. A returning stack reports STATE 3 with MAP_GEN incremented, and waits for its reintegration. -/
def execStackInitComplete (c : Ctrl) (passed : Bool) (s : State) : Host.Outcome State Fault Refusal :=
  let k := s.mem.ctrl c.val
  .next (if k.state ≠ 1 then s
    else if s.svc.returning.contains (.ctrl c) then
      if !passed then { s with mem := s.mem.setCtrl c.val { k with state := 2 } }
      else
        let m := s.mem.initStack c.val
        { s with mem := { m.setCtrl c.val { k with state := 3 } with mapGen := m.mapGen + 1#32 } }
    else if !s.memPhase then s
    else
      let s1 := s.enterMem
      if passed then
        let m := s1.mem.initStack c.val
        let s2 := { s1 with mem := m.setCtrl c.val { k with state := 0 } }
        if c.val ≥ 16 && s2.mem.deepReady then s2.verifyRuntime else s2
      else
        let s2 := (s1.stackOut c.val).unitLeft (ctrlKind c.val) (ctrlUnit c.val) 2
        if c.val ≥ 16 then s2.bootFails else s2)

/-! ### Array self-test (R95 to R97) -/

/-- A repair slot of 16 bits: valid, and the local index it names. -/
def slotAt (w : W64) (i : Nat) : Nat := w64Bits w (16 * i) 16
def slotValid (w : W64) (i : Nat) : Bool := bitsOf (slotAt w i) 15 1 = 1

/-- A failed row or column of a half takes a free slot as a soft repair; slots 0 and 1 serve half 0, 2 and 3 half 1 (R95, R96). -/
def assignSlot (w : W64) (f : Fin 2 × Fin 66) : W64 :=
  let mine := [2 * f.1.val, 2 * f.1.val + 1]
  if mine.any fun i => slotValid w i && bitsOf (slotAt w i) 0 7 = f.2.val then w
  else
    match mine.find? fun i => !slotValid w i with
    | none => w
    | some i => BitVec.ofNat 64 (w.toNat - slotAt w i * 2 ^ (16 * i) + (0xC000 + f.2.val) * 2 ^ (16 * i))

/-- The failed rows or columns of a half: those its slots hold and those found beside them; 3 for more than 2 (R100). -/
def failedIn (w : W64) (found : List (Fin 2 × Fin 66)) (half : Nat) : Nat :=
  let mine := [2 * half, 2 * half + 1].filter (slotValid w)
  let extra := (found.filter fun f => f.1.val = half && !(mine.any fun i => bitsOf (slotAt w i) 0 7 = f.2.val)).eraseDups
  min 3 (mine.length + extra.length)

/-- What self-test leaves in a tile: repairs, counts, the usable quadrants (R96). -/
def Tile.tested (x : Tile) (f : SelfTest) : Tile :=
  let row := f.rows.foldl assignSlot x.repairRow
  let col := f.cols.foldl assignSlot x.repairCol
  let r := fun h => failedIn row f.rows h
  let c := fun h => failedIn col f.cols h
  let usable := fun (q : Nat) => r (q / 2) ≤ 2 && c (q % 2) ≤ 2
  { x with
    repairRow := row, repairCol := col, failRows0 := BitVec.ofNat 2 (r 0), failRows1 := BitVec.ofNat 2 (r 1),
    failCols0 := BitVec.ofNat 2 (c 0), failCols1 := BitVec.ofNat 2 (c 1)
    qmask := BitVec.ofNat 4 ((List.range 4).foldl (fun a q => if usable q then a + 2 ^ q else a) 0) }

/-- The state that the usable quadrants give (R97). -/
def healthOf (qmask : BitVec 4) (outside : Bool) : TileHealth :=
  let n := ((List.range 4).filter fun q => qmask.getLsbD q).length
  if outside || n < 2 then .retired else if n = 4 then .full else .foldOnly

/-- Soft repairs are recorded (R95), and a change of state, mask or repairs posts a record (R99). -/
def State.selfTested (s : State) (t : TileId) (f : SelfTest) (returning : Bool) : State :=
  let x := s.tile t
  let y := x.tested f
  let h := if returning then .outOfService else healthOf y.qmask f.outside
  let s1 := s.setTile t { y with health := h }
  let s2 := s1.when (y.repairRow ≠ x.repairRow || y.repairCol ≠ x.repairCol) fun s =>
    s.belfryCommit [((0x1011, t.val), bytesOfNat 8 y.repairRow.toNat), ((0x1012, t.val), bytesOfNat 8 y.repairCol.toNat)]
  s2.when (h ≠ x.health || y.qmask ≠ x.qmask || y.repairRow ≠ x.repairRow || y.repairCol ≠ x.repairCol) fun s =>
    s.tileChanged t x.health

/-- ARRAY_SELF_TEST (R96, R97, R521): at bring-up, or of a returning tile, which stays out of service until its reintegration. It
never runs on a tile that a kernel holds (R99). -/
def execArraySelfTest (t : TileId) (found : SelfTest) (s : State) : Host.Outcome State Fault Refusal :=
  .next (if (s.tile t).kernel.isSome then s
    else if s.svc.returning.contains (.tile t) then s.selfTested t found true
    else if s.memPhase then (s.enterMem).selfTested t found false
    else s)

/-! ### Units of service (R516, R519, R521) -/

/-- The UNIT_KIND and UNIT of a unit (R236, R482, R516). -/
def unitKind (u : ServiceUnit) : Nat :=
  match u with
  | .tile _ => 1
  | .core _ => 2
  | .ctrl c => ctrlKind c.val
  | .port _ => 5
  | .group _ _ => 8
  | .link _ => 8
def unitNumber (u : ServiceUnit) : Nat :=
  match u with
  | .tile t => t.val
  | .core c => c.val
  | .ctrl c => ctrlUnit c.val
  | .port p => p.val
  | .group l g => 512 * l.val + g.val
  | .link l => 512 * l.val + 511

/-- The unit that a kind and number name; a fenced link by group 511 of BRING_BACK (R516). -/
def State.unitNamed (s : State) (code kind unit : Nat) : Option ServiceUnit :=
  match kind with
  | 1 => if h : unit < 256 then some (.tile ⟨unit, h⟩) else none
  | 2 => if h : unit < 96 then some (.core ⟨unit, h⟩) else none
  | 3 => if unit < 16 then some (.ctrl (Fin.ofNat 24 unit)) else none
  | 4 => if unit < 8 then some (.ctrl (Fin.ofNat 24 (16 + unit))) else none
  | 5 => if h : unit < 8 then some (.port ⟨unit, h⟩) else none
  | 8 =>
    if unit ≥ 4096 then none
    else
      let l : LinkId := Fin.ofNat 8 (unit / 512)
      if code = 0x11 && unit % 512 = 511 && (s.hoop l).state = 3 then some (.link l) else some (.group l (Fin.ofNat 512 unit))
  | _ => none

/-- A unit is out of service. -/
def State.unitOut (s : State) (u : ServiceUnit) : Bool :=
  match u with
  | .tile t => (s.tile t).health = .outOfService || (s.tile t).health = .retired
  | .core c => (s.core c).state = 2
  | .ctrl c => (s.mem.ctrl c.val).state = 2
  | .port p => (s.port p).state = 0
  | .group l g => ((s.hoop l).retired0 ||| (s.hoop l).retired1).getLsbD g.val
  | .link l => (s.hoop l).state = 3

/-- The Clapper unit of a controller that leaves service fails its lots (R519). -/
def State.failLots (s : State) (c : Ctrl) : State := (List.range 32).foldl (fun s _ => s.lotFail c stTierError) s

/-- A lane group is retired at both ends, and a retrain point follows (R519). -/
def State.retireGroup (s : State) (l : LinkId) (g : Nat) : State :=
  let x := (s.hoop l).retireAt 0 (groupBit g)
  (s.setHoop l (x.retireAt 1 (groupBit g))).hoopRetrain l

/-- What TAKE_OUT does to a unit at its commit (R519). -/
def State.takeOut (s : State) (u : ServiceUnit) (force : Bool) : State :=
  match u with
  | .tile t =>
    if !force then s
    else
      match (s.tile t).kernel with
      | none => s
      | some kid =>
        match s.kernel kid with
        | none => s
        | some k => s.terminateOne kid k
  | .core _ => s
  | .ctrl c => (s.stackOut c.val).failLots c
  | .port p =>
    let s1 := (s.setPort p { s.port p with en := false }).linkDown p 4
    s1.setPort p { (s1.port p).drop with en := false, state := 0 }
  | .group l g => s.retireGroup l g.val
  | .link _ => s

/-- A core's copies leave the caches, dirty ones written back to home (R519). -/
def State.flushCore (s : State) (c : CoreId) : State :=
  let mine := s.cache.lines.filterMap fun e => match e.2 with
    | some l => if l.holders.contains c then some (128 * e.1) else none
    | none => none
  mine.foldl (fun s a =>
    let r := (s.writeBack true a).1
    match r.cache.line a with
    | none => r
    | some l =>
      let rest := l.holders.filter (· ≠ c)
      r.setLine a (if rest.isEmpty && !l.inSystem then none
        else some { l with holders := rest, excl := false, amoBy := if l.amoBy = some c then none else l.amoBy })) s

/-- A unit's accepted work has drained (R519). -/
def State.unitDrained (s : State) (u : ServiceUnit) : Bool :=
  match u with
  | .tile t => (s.tile t).kernel.isNone
  | .group l _ => (s.hoop l).state ≠ 1
  | _ => true

/-- A unit is out of service: its state says so (R97, R519). -/
def State.putOut (s : State) (u : ServiceUnit) : State :=
  match u with
  | .tile t =>
    let x := s.tile t
    if x.health = .outOfService then s else (s.setTile t { x with health := .outOfService }).tileChanged t x.health
  | .core c =>
    let s1 := s.flushCore c
    s1.setCore c { s1.core c with state := 2 }
  | _ => s

/-- The state a unit is in after step 1 of R521: reset, with its state invalidated. -/
def State.resetUnit (s : State) (u : ServiceUnit) : State :=
  match u with
  | .tile t =>
    let x := s.tile t
    let y := { Tile.reset with
      health := .outOfService, qmask := x.qmask, phys := x.phys, repairRow := x.repairRow, repairCol := x.repairCol,
      failRows0 := x.failRows0, failRows1 := x.failRows1, failCols0 := x.failCols0, failCols1 := x.failCols1 }
    let s1 := (s.setTile t y).tileCeiling t
    s1.when (x.health ≠ .outOfService) fun s => s.tileChanged t x.health
  | .core c =>
    let k := s.core c
    State.setCore { s with cache := { s.cache with predictor := s.cache.predictor.set [] c.val [] } } c
      { Core.reset with state := 3, ceil := k.ceil, stuckCeiling := k.stuckCeiling }
  | .ctrl c => { s with mem := s.mem.setCtrl c.val { MemCtrl.reset with
      ceInner := (s.mem.ctrl c.val).ceInner, ceOuter := (s.mem.ctrl c.val).ceOuter, ue := (s.mem.ctrl c.val).ue
      poisonReads := (s.mem.ctrl c.val).poisonReads } }
  | .port p => s.setPort p { s.port p with en := true, state := 1, step := 1 }
  | .group l g =>
    let x := s.hoop l
    (s.setHoop l { x with retired := x.retired &&& ~~~ (groupBit g.val), retired0 := x.retired0 &&& ~~~ (groupBit g.val),
                          retired1 := x.retired1 &&& ~~~ (groupBit g.val), heldOut := x.heldOut ||| groupBit g.val }).hoopRetrain l
  | .link l => s.setHoop l { s.hoop l with state := 1, full := true, cause := 0 }

/-- A returned unit joins (R216, R368, R521 step 4). -/
def State.rejoin (s : State) (u : ServiceUnit) : State :=
  match u with
  | .tile t =>
    let x := s.tile t
    let y := { x with health := healthOf x.qmask false, seq := .clearing }
    ((s.setTile t y).tileChanged t x.health).tileService t
  | .core c => State.coreService (s.setCore c { s.core c with state := 0, routeBlocked := true }) c
  | .ctrl c => { s with mem := s.mem.setCtrl c.val { s.mem.ctrl c.val with state := 0 } }
  | .group l g => s.setHoop l { s.hoop l with heldOut := (s.hoop l).heldOut &&& ~~~ (groupBit g.val) }
  | _ => s

/-- A returned unit stays out (R521 step 3, R522). -/
def State.stayOut (s : State) (u : ServiceUnit) : State :=
  match u with
  | .core c => s.setCore c { s.core c with state := 2 }
  | .ctrl c => { s with mem := s.mem.setCtrl c.val { s.mem.ctrl c.val with state := 2 } }
  | .group l g =>
    let x := s.hoop l
    s.setHoop l (({ x with heldOut := x.heldOut &&& ~~~ (groupBit g.val) }.retireAt 0 (groupBit g.val)).retireAt 1 (groupBit g.val))
  | .port p => s.setPort p { (s.port p).drop with en := false, state := 0 }
  | .link l => s.setHoop l { s.hoop l with state := 3 }
  | .tile _ => s

/-- The unit's own test agrees that it passed (R521): a tile with two usable quadrants, a stack that reports STATE 3, a port or
link that is up. -/
def State.testPassed (s : State) (u : ServiceUnit) : Bool :=
  match u with
  | .tile t => healthOf (s.tile t).qmask false ≠ .retired
  | .ctrl c => (s.mem.ctrl c.val).state = 3
  | .port p => (s.port p).state = 3
  | .group l g => (s.hoop l).state = 2 && !((s.hoop l).retired0 ||| (s.hoop l).retired1).getLsbD g.val
  | .link l => (s.hoop l).state = 2
  | .core _ => true

/-! ### Service actions (R516 to R520) -/

/-- An action ends (R518): RESULT and DETAIL, with a record of type 0x50 (R525). -/
def State.actionEnds (s : State) (result detail : Nat) : State :=
  let v := s.svc
  (s.setSvc { v with result := result, detail := detail }).raiseBelfry 1 0x50
    (payloadOf [(0x18, 8, v.action.toNat), (0x20, 1, result), (0x21, 1, detail), (0x28, 8, v.actionCsn.toNat)])

/-- TAKE_OUT (R517, R519): of a unit already out of service it completes at once. -/
def State.actTakeOut (s : State) (u : ServiceUnit) (force : Bool) : State :=
  if s.unitOut u then s.actionEnds 2 0
  else
    let s1 := s.takeOut u force
    s1.setSvc { s1.svc with leaving := s1.svc.leaving ++ [(u, force)] }

/-- BRING_BACK and RETEST (R521 steps 1 and 2). A unit still in service leaves it. -/
def State.actReturn (s : State) (u : ServiceUnit) : State :=
  let s1 := s.when (!s.unitOut u) fun s => s.unitLeft (unitKind u) (unitNumber u) 1
  let s2 := s1.resetUnit u
  s2.setSvc { s2.svc with returning := s2.svc.returning ++ [u] }

/-- The units of an A-die. -/
def dieUnits (d : Nat) : List ServiceUnit :=
  (((List.finRange 256).filter fun t => tileDie t = d).map ServiceUnit.tile)
    ++ (((List.finRange 24).filter fun c => c.val < 16 && c.val / 4 = d).map ServiceUnit.ctrl)
    ++ ((List.finRange 8).filter fun p => p.val / 2 = d).map ServiceUnit.port

/-- The links of an A-die. -/
def dieLinks (d : Nat) : List LinkId := (List.finRange 8).filter fun l => hoopDie l 0 = d || hoopDie l 1 = d

/-- A link of a die that is reset (R359): the end on the die forgets its retirements and spares; the link trains in full. -/
def HoopLink.partialReset (x : HoopLink) (l : LinkId) (d : Nat) : HoopLink :=
  let e := if hoopDie l 0 = d then 0 else 1
  let kept := x.spares.filter fun p => x.receiver (p.1 / 35) ≠ e
  let y := if e = 0 then { x with retired0 := 0#512 } else { x with retired1 := 0#512 }
  { y with state := 1, full := true, cause := 0, spares := kept, lanes := [] }

/-- A kernel holds a tile or a bell of a die. -/
def Kernel.onDie (k : Kernel) (d : Nat) : Bool := (k.tiles.any fun t => tileDie t = d) || k.bells.any fun b => bellDie b = d

/-- Steps 1 and 2 of R520: kernels of the die are terminated; its lots, Peal descriptors and ports fail. -/
def State.dieLeaves (s : State) (d : Nat) : State :=
  let s1 := s.terminateWhere fun k => k.onDie d
  let s2 := ((List.finRange 24).filter fun c => c.val < 16 && c.val / 4 = d).foldl (fun s c => s.failLots c) s1
  let s3 := ((List.finRange 16).filter fun k => k.val / 4 = d).foldl (fun s k => s.pealFail k stTierError) s2
  ((List.finRange 8).filter fun p => p.val / 2 = d).foldl (fun s p => s.linkDown p 4) s3

/-- Steps 3 and 4 of R520: links DOWN and routes around the die, then the die's units and bells at their reset values. -/
def State.dieClears (s : State) (d : Nat) : State :=
  let s1 := (dieLinks d).foldl (fun s l => s.setHoop l { s.hoop l with state := 0 }) s
  let s2 := { s1 with net := s1.net.reroute }
  let s3 := (dieUnits d).foldl (fun s u => (s.unitLeft (unitKind u) (unitNumber u) 3).resetUnit u) s2
  let units := ((List.finRange 24).filter fun c => c.val < 16 && c.val / 4 = d).foldl
    (fun (c : CadS) u => c.setUnit u ClapUnit.reset) s3.net.cad
  let peals := ((List.range 16).filter fun k => k / 4 = d).foldl (fun (m : Map PealS) k => m.set PealS.reset k PealS.reset) s3.net.peals
  let ports := ((List.finRange 8).filter fun p => p.val / 2 = d).foldl
    (fun (m : Map Port) p => m.set Port.reset p.val { Port.reset with coordCopy := s3.net.coordC ++ s3.net.coord }) s3.net.ports
  { s3 with
    bells := s3.bells.filter fun e => bellDie e.1 ≠ d
    mem := { s3.mem with mapGen := s3.mem.mapGen + 1#32 }
    net := { s3.net with cad := units, peals := peals, ports := ports } }

/-- DIE_RESET (R520). -/
def State.actDieReset (s : State) (d : Nat) : State :=
  let s1 := (s.dieLeaves d).dieClears d
  let s2 := (dieLinks d).foldl (fun s l => s.setHoop l ((s.hoop l).partialReset l d)) s1
  let s3 := s2.raiseBelfry 1 0x54 (payloadOf [(0x18, 1, d)])
  s3.setSvc { s3.svc with returning := s3.svc.returning ++ dieUnits d }

/-- BRINGUP_DONE (R514 step 12): every tile and core moves to SERVICE; a record of type 0x53; PHASE 5. -/
def State.actBringupDone (s : State) : State :=
  if s.svc.phase ≠ 4 then s.actionEnds 2 0
  else
    let s1 := (List.finRange 256).foldl State.tileService s
    let s2 := (List.finRange 96).foldl State.coreService s1
    let tiles := ((List.finRange 256).filter fun t => (s2.tile t).health = .full || (s2.tile t).health = .foldOnly).length
    let cores := ((List.finRange 96).filter fun c => (s2.core c).state ≠ 2).length
    let near := ((List.range 16).filter s2.mem.inService).length
    let deep := ((List.range 8).filter fun k => s2.mem.inService (16 + k)).length
    let s3 := s2.raiseBelfry 1 0x53 (payloadOf [(0x18, 2, tiles), (0x1A, 1, cores), (0x1B, 1, near), (0x1C, 1, deep)])
    State.actionEnds (s3.setSvc { s3.svc with phase := 5 }) 2 0

/-- WRITE_SLOT (R523, R527): chunk 0 erases the slot; a chunk out of order leaves it erased; one beyond the slot fails. -/
def State.actWriteSlot (s : State) (slot chunk n : Nat) : State :=
  let v := s.svc
  let bytes := v.stage.getRun 0#8 0 n
  let next := v.nextChunk.get 0 slot
  let s1 := if chunk = 0 then s.setCust (s.cust.eraseSlot slot) else s
  let off := 65536 * chunk
  let mark := { v with pairSlot := v.pairSlot.set none (slot / 2) (some slot) }
  if chunk ≠ 0 && chunk ≠ next then
    State.actionEnds ((s1.setCust (s1.cust.eraseSlot slot)).setSvc { mark with nextChunk := v.nextChunk.set 0 slot 0 }) 3 5
  else if off + n > slotSize slot then State.actionEnds (s1.setSvc mark) 3 4
  else s1.setSvc { mark with writing := some (slot, chunk, bytes) }

/-- WRITE_SLOT_ENDED (R523): the write of a chunk finishes. -/
def execWriteSlotEnded (ok : Bool) (s : State) : Host.Outcome State Fault Refusal :=
  let v := s.svc
  .next (match v.writing with
    | none => s
    | some w =>
      let v1 := { v with writing := none, nextChunk := v.nextChunk.set 0 w.1 (if ok then w.2.1 + 1 else 0) }
      if ok then State.actionEnds { s with cust := s.cust.writeSlot w.1 (65536 * w.2.1) w.2.2, svc := v1 } 2 0
      else State.actionEnds (s.setSvc v1) 3 4)

/-- The abort codes of R473 that an ACTION write meets, NONE among them. -/
def abNone : Nat := 0
def abNoRight : Nat := 2
def abRange : Nat := 5
def abSealed : Nat := 0xF
def abBusy : Nat := 0x10
def abState : Nat := 0x11

/-- The fields of an ACTION word (R516). -/
def actCode (w : W64) : Nat := w64Bits w 0 8
def actKind (w : W64) : Nat := w64Bits w 8 8
def actUnit (w : W64) : Nat := w64Bits w 16 16
def actArg (w : W64) : Nat := w64Bits w 32 16

/-- The action word that names a code, a unit and an argument. -/
def actionWord (code kind unit arg : Nat) : W64 := BitVec.ofNat 64 (code + 2 ^ 8 * kind + 2 ^ 16 * unit + 2 ^ 32 * arg)

/-- A reserved CODE or bit, or a UNIT or ARG out of range (R516, R517). -/
def State.actionRange (s : State) (w : W64) : Bool :=
  let bare : Bool := actKind w = 0 && actUnit w = 0
  let named := s.unitNamed (actCode w) (actKind w) (actUnit w)
  w64Bits w 48 16 ≠ 0 ||
    (match actCode w with
    | 0x00 => !(bare && actArg w = 0)
    | 0x01 => !(bare && actArg w = 0)
    | 0x02 => !(bare && actArg w = 0)
    | 0x10 => named.isNone || actArg w > 1
    | 0x11 => named.isNone || actArg w ≠ 0
    | 0x12 => actKind w ≠ 1 || named.isNone || actArg w ≠ 0
    | 0x13 => actKind w ≠ 0 || actUnit w > 3 || actArg w ≠ 0
    | 0x20 => actKind w ≠ 0 || actUnit w = 0 || actUnit w > 4096 || actArg w % 16 > 5
    | 0x30 => !bare || actArg w > 7
    | 0x31 => !(bare && actArg w = 0)
    | _ => true)

/-- The principals of each code (R516); an Owner's frame carries its block (R453). -/
def State.actionAllowed (s : State) (who : Principal) (code : Nat) : Bool :=
  match code, who with
  | 0x00, .owner => true
  | 0x00, .tray => true
  | 0x00, .runtime => true
  | 0x02, .runtime => true
  | 0x02, _ => false
  | 0x20, .runtime => true
  | 0x20, _ => false
  | 0x30, .owner => true
  | 0x30, .tray => s.cust.ownerKey.isEmpty
  | 0x30, _ => false
  | _, .owner => true
  | _, .tray => true
  | _, .runtime => true
  | _, _ => false

/-- Another core than c runs. -/
def State.otherCoreRuns (s : State) (c : CoreId) : Bool := s.cores.cores.any fun e => e.1 ≠ c.val && e.2.state = 1

/-- The named unit's state forbids the action (R511, R517, R523). -/
def State.actionForbidden (s : State) (w : W64) : Bool :=
  match actCode w, s.unitNamed (actCode w) (actKind w) (actUnit w) with
  | 0x01, _ => s.kettle.tooHot
  | 0x10, some (.core c) => (s.core c).state = 1 && !s.otherCoreRuns c
  | 0x11, some u => !s.unitOut u
  | 0x12, some (.tile t) => (s.tile t).kernel.isSome
  | 0x13, _ => s.svc.phase ≠ 5
  | 0x20, _ =>
    match s.svc.pairSlot.get none (actArg w % 16 / 2) with
    | some k => k ≠ actArg w % 16
    | none => false
  | _, _ => false

/-- The checks of R517 on an action word, in the order of its table. -/
def State.actionCheck (s : State) (who : Principal) (w : W64) : Nat :=
  if s.actionRange w then abRange
  else if !s.actionAllowed who (actCode w) then abNoRight
  else if s.svc.result = 1 then abBusy
  else if s.cust.sealed && actCode w = 0x30 then abSealed
  else if s.actionForbidden w then abState
  else abNone

/-- What an action that is committed does (R516 to R523). -/
def State.actionRuns (s : State) (w : W64) : State :=
  match actCode w, s.unitNamed (actCode w) (actKind w) (actUnit w) with
  | 0x01, _ => s.coldReset
  | 0x02, _ => s.actBringupDone
  | 0x10, some u => s.actTakeOut u (actArg w = 1)
  | 0x11, some u => s.actReturn u
  | 0x12, some u => s.actReturn u
  | 0x13, _ => s.actDieReset (actUnit w)
  | 0x20, _ => s.actWriteSlot (actArg w % 16) (actArg w / 16) (16 * actUnit w)
  | 0x30, _ => State.actionEnds (s.setCust { s.cust with debug := s.cust.debug ||| BitVec.ofNat 3 (actArg w) }) 2 0
  | 0x31, _ => State.actionEnds (s.setCust { s.cust with debug := 0#3 }) 2 0
  | _, _ => s

/-- An action word committed under the current commit sequence number starts (R516, R518); NONE changes nothing. -/
def State.actionStarts (s : State) (w : W64) : State :=
  if actCode w = 0 then s
  else
    State.actionRuns (s.setSvc { s.svc with code := actCode w, result := 1, detail := 0, action := w, actionCsn := s.dict.csn }) w

/-- The position of a principal (R9), and the path that carries it (R452). -/
def principalNo (p : Principal) : Nat :=
  match p with
  | .vendor => 1
  | .owner => 2
  | .host => 3
  | .tray => 4
  | .runtime => 5
  | .job => 6
  | .peer => 7
def principalPath (p : Principal) : Nat :=
  match p with
  | .host => 1
  | .runtime => 2
  | .job => 2
  | .peer => 3
  | _ => 0

/-- A write of ACTION by a principal reaches the Belfry: checked, committed with its complement, started; the answer is the item's
abort code (R473, R517). The Belfry must run (R492). -/
def State.writeAction (s : State) (who : Principal) (w : W64) : State :=
  if s.svc.phase < 2 || s.svc.tripped && actCode w ≠ 1 then s
  else
    let ab := s.actionCheck who w
    let v := bytesOfNat 8 w.toNat ++ bytesOfNat 8 (~~~ w).toNat
    if ab ≠ abNone then (s.logRefusal 0x9000 1 (principalNo who) ab (principalPath who) v).answer (BitVec.ofNat 32 ab) []
    else
      State.actionStarts ((s.belfryCommit [((0x9000, 1), v)]).answer 0#32 []) w

/-- The actions of R516, each a write of ACTION. -/
def execActNone (who : Principal) (s : State) : Host.Outcome State Fault Refusal := .next (s.writeAction who (actionWord 0x00 0 0 0))
def execColdReset (who : Principal) (s : State) : Host.Outcome State Fault Refusal :=
  .next (s.writeAction who (actionWord 0x01 0 0 0))
def execBringupDone (who : Principal) (s : State) : Host.Outcome State Fault Refusal :=
  .next (s.writeAction who (actionWord 0x02 0 0 0))
def execTakeOut (who : Principal) (u : ServiceUnit) (force : Bool) (s : State) : Host.Outcome State Fault Refusal :=
  .next (s.writeAction who (actionWord 0x10 (unitKind u) (unitNumber u) force.toNat))
def execBringBack (who : Principal) (u : ServiceUnit) (s : State) : Host.Outcome State Fault Refusal :=
  .next (s.writeAction who (actionWord 0x11 (unitKind u) (unitNumber u) 0))
def execRetest (who : Principal) (t : TileId) (s : State) : Host.Outcome State Fault Refusal :=
  .next (s.writeAction who (actionWord 0x12 1 t.val 0))
def execDieReset (who : Principal) (die : ADie) (s : State) : Host.Outcome State Fault Refusal :=
  .next (s.writeAction who (actionWord 0x13 0 die.val 0))
def execWriteSlot (who : Principal) (slot : Fin 6) (chunk : BitVec 12) (len16 : W16) (s : State) : Host.Outcome State Fault Refusal :=
  .next (s.writeAction who (actionWord 0x20 0 len16.toNat (slot.val + 16 * chunk.toNat)))
def execDebugOpen (who : Principal) (set : BitVec 3) (s : State) : Host.Outcome State Fault Refusal :=
  .next (s.writeAction who (actionWord 0x30 0 0 set.toNat))
def execDebugClose (who : Principal) (s : State) : Host.Outcome State Fault Refusal :=
  .next (s.writeAction who (actionWord 0x31 0 0 0))

/-- UNIT_OUT_OF_SERVICE (R519): the unit's accepted work has drained; a record, and the action is complete. -/
def execUnitOutOfService (u : ServiceUnit) (s : State) : Host.Outcome State Fault Refusal :=
  .next (if !(s.svc.leaving.any fun p => p.1 = u) || !s.unitDrained u then s
    else
      let s1 := s.setSvc { s.svc with leaving := s.svc.leaving.filter fun p => p.1 ≠ u }
      ((s1.putOut u).unitLeft (unitKind u) (unitNumber u) 1).actionEnds 2 0)

/-- REINTEGRATED (R482). -/
def reintWord (u : ServiceUnit) (count : Nat) : Nat := unitNumber u + unitKind u * 2 ^ 16 + count % 2 ^ 32 * 2 ^ 32

/-- A unit rejoins: the commit of REINTEGRATED, then the record (R482, R521 step 4). -/
def State.reintegrated (s : State) (u : ServiceUnit) : State :=
  let n := s.svc.reint + 1
  let s1 := State.belfryCommit (s.setSvc { s.svc with reint := n }) [((0x9000, 3), bytesOfNat 8 (reintWord u n))]
  (s1.rejoin u).raiseBelfry 1 0x52
    (payloadOf [(0x18, 2, unitNumber u), (0x1A, 1, unitKind u), (0x20, 8, s1.dict.csn.toNat)])

/-- REINTEGRATION (R521, R522): a returned unit passes its test and rejoins, or stays out; the action ends with its last unit. -/
def execReintegration (u : ServiceUnit) (passed : Bool) (s : State) : Host.Outcome State Fault Refusal :=
  .next (if !(s.svc.returning.contains u) then s
    else
      let rest := s.svc.returning.erase u
      let ok := passed && s.testPassed u
      let s1 := s.setSvc { s.svc with returning := rest, detail := if ok then s.svc.detail else 2 }
      let s2 := if ok then s1.reintegrated u else s1.stayOut u
      if rest.isEmpty && s2.svc.result = 1 then s2.actionEnds (if s2.svc.detail = 2 then 3 else 2) s2.svc.detail else s2)

/-! ### The ROM state (R524) -/

/-- BEGIN: an image for slot 0 or 1 of a length that the slot can hold. -/
def execRomBegin (slot : Byte) (len : W32) (s : State) : Host.Outcome State Fault Refusal :=
  .next (if !s.svc.rom then s
    else if slot.toNat > 1 then s.answer stReserved []
    else if len.toNat > slotSize 0 then s.answer stBounds []
    else State.answer (s.setSvc { s.svc with romImage := some (slot.toNat, len.toNat, []) }) stOk [])

/-- DATA: up to 1,024 B at the next offset. -/
def execRomData (offset : W32) (bytes : List Byte) (s : State) : Host.Outcome State Fault Refusal :=
  .next (if !s.svc.rom then s
    else
      match s.svc.romImage with
      | none => s.answer stReserved []
      | some g =>
        if offset.toNat ≠ g.2.2.length || bytes.length > 1024 then s.answer stReserved []
        else if offset.toNat + bytes.length > g.2.1 then s.answer stBounds []
        else State.answer (s.setSvc { s.svc with romImage := some (g.1, g.2.1, g.2.2 ++ bytes) }) stOk [])

/-- END: signature and SVN as at step 3 of R492; then the slot is written and the module resets. -/
def execRomEnd (s : State) : Host.Outcome State Fault Refusal :=
  .next (if !s.svc.rom then s
    else
      match s.svc.romImage with
      | none => s.answer stReserved []
      | some g =>
        let f := Firmware.ofBytes (g.2.2.take 128) (g.2.2.drop 128)
        if g.2.2.length = g.2.1 && f.good s.cust.rollback then
          State.coldReset ((s.setCust ((s.cust.eraseSlot g.1).writeSlot g.1 0 g.2.2)).answer stOk [])
        else s.answer stTierError [])

/-! ### The light source bays (R273, R541) -/

/-- A port uses lanes that a bay feeds (R273). -/
def Port.usesBay (x : Port) (bay : Fin 2) : Bool := x.width = 3 || x.width = bay.val + 1

/-- LATCH_OPENED: the bay's lasers stop; ports that use its lanes lose light, and with it their links (R280, R541). -/
def execLatchOpened (bay : Fin 2) (s : State) : Host.Outcome State Fault Refusal :=
  .next (if s.svc.baysOut.contains bay then s
    else
      let s1 := s.setSvc { s.svc with baysOut := bay :: s.svc.baysOut }
      (List.finRange 8).foldl (fun s p => if (s.port p).usesBay bay then s.linkDown p 1 else s) s1)

/-- BAY_INSERTED: the bay starts its lasers; ports that are down use them at their next attempt. -/
def execBayInserted (bay : Fin 2) (s : State) : Host.Outcome State Fault Refusal :=
  .next (s.setSvc { s.svc with baysOut := s.svc.baysOut.filter (· ≠ bay) })

end Sys2Proof.Machine
end

