-- ==== Sys2Proof/Machine/Custody.lean ====
section
/-! DEFINITION. Custody and attestation (R484 to R507): sealed mode, debug, and the SPDM responder. -/

namespace Sys2Proof.Machine

/-! ### Sealed mode (R500 to R504) -/

/-- The Belfry firmware runs: the boot chain has passed step 3 (R492, R493). -/
def State.firmwareRuns (s : State) : Bool := 2 ≤ s.svc.phase

/-- Step 3 of R501: the package is marked sealed, and every kernel admitted with HOST_WINDOW is terminated. -/
def State.sealKernels (s : State) : State :=
  State.terminateWhere { s with kern := { s.kern with sealedMark := true } } fun k => k.hostWindow && !k.terminated

/-- Step 6 of R501: every port in UP whose peer is not admitted goes down with CAUSE 6. -/
def State.sealPorts (s : State) : State :=
  (List.finRange 8).foldl (fun s p => if (s.port p).state = 3 && !(s.port p).attested then s.linkDown p 6 else s) s

/-- The value of SEALED has become 1 (R501 steps 3 to 6): sealed mode takes effect, and debug closes. -/
def State.sealBegins (s : State) : State :=
  if s.cust.latched then s
  else State.sealPorts (State.sealKernels (s.setCust { s.cust with latched := true, entering := true, debug := 0#3 }))

/-- A COPY into the host window that had started (R501, R502). -/
def StreamCmd.exporting (c : StreamCmd) : Bool := c.op = 3 && c.phase = .translated && copyExports c.srcPs c.dstPs

/-- What step 7 of R501 waits for: the terminated kernels' writes, and the started commands that the closed list covers. -/
def State.sealDone (s : State) : Bool :=
  s.cust.entering
    && (s.kern.kernels.all fun e => match e.2 with
      | some k => !k.hostWindow
      | none => true)
    && s.cxl.streams.all fun e => !(e.2.cmds.any StreamCmd.exporting)

/-- SEALED_COMPLETE (R501 step 7): HOST_STATE.SEALED is set. -/
def execSealedComplete (s : State) : Host.Outcome State Fault Refusal :=
  .next (if s.sealDone then { s with cust := { s.cust with entering := false }, cxl := { s.cxl with sealedBit := true } } else s)

/-! ### SPDM (R496 to R499) -/

/-- The number of a carrier in the state, and of the dictionary path it keys (R452). -/
def carrier (p : SpdmPath) : Nat :=
  match p with
  | .doe => 0
  | .segment => 1
  | .port q => 2 + q.val
def carrierPath (p : SpdmPath) : Nat :=
  match p with
  | .doe => 1
  | .segment => 0
  | .port q => 3 + q.val

/-- The segment transmits at node IDs 1 to 30 (R454). -/
def SvcS.onSegment (v : SvcS) : Bool := 1 ≤ v.node && v.node ≤ 30

/-- A carrier brings a message and takes its answer: the CXL link is up, the segment transmits, the Carillon link stands. -/
def State.spdmCarries (s : State) (p : SpdmPath) : Bool :=
  match p with
  | .doe => s.cxl.state = 1
  | .segment => s.svc.onSegment
  | .port q => (s.port q).linked

def State.spdm (s : State) (p : SpdmPath) : SpdmS := s.cust.spdm.get SpdmS.reset (carrier p)
def State.setSpdm (s : State) (p : SpdmPath) (x : SpdmS) : State :=
  s.setCust { s.cust with spdm := s.cust.spdm.set SpdmS.reset (carrier p) x }

/-- Answers of the responder: code 0 with the message's content, or 1 for an SPDM error. -/
def spdmOk : W32 := 0#32
def spdmError : W32 := 1#32

/-- One request reaches the responder; it needs negotiation to have come to a level. -/
def State.spdmAt (s : State) (p : SpdmPath) (level : Nat) (act : SpdmS → State) : State :=
  if !s.firmwareRuns || !s.spdmCarries p then s
  else if (s.spdm p).level < level then s.answer spdmError []
  else act (s.spdm p)

/-- GET_VERSION (R496, R524): version 1.2. The ROM answers it on the segment. -/
def execGetVersion (p : SpdmPath) (s : State) : Host.Outcome State Fault Refusal :=
  .next (if s.svc.rom && p = .segment && s.svc.onSegment then s.answer spdmOk [0x12#8]
    else s.spdmAt p 0 fun x => (s.setSpdm p { x with level := 1, handshake := none }).answer spdmOk [0x12#8])

/-- GET_CAPABILITIES (R496): the nine capabilities of the table, bit i the i-th. -/
def execGetCapabilities (p : SpdmPath) (s : State) : Host.Outcome State Fault Refusal :=
  .next (s.spdmAt p 1 fun x => (s.setSpdm p { x with level := max x.level 2 }).answer spdmOk (bytesOfNat 2 0x1FF))

/-- NEGOTIATE_ALGORITHMS (R496): the requester offers the algorithms supported, or the request fails. -/
def execNegotiateAlgorithms (p : SpdmPath) (common : Bool) (s : State) : Host.Outcome State Fault Refusal :=
  .next (s.spdmAt p 2 fun x =>
    if common then (s.setSpdm p { x with level := 3 }).answer spdmOk [] else s.answer spdmError [])

/-- GET_DIGESTS (R497): slot 0 alone holds a chain. -/
def execGetDigests (p : SpdmPath) (s : State) : Host.Outcome State Fault Refusal :=
  .next (s.spdmAt p 3 fun _ => s.answer spdmOk (0x01#8 :: Config.sm3 (Config.certChain s.cust.fwMeas)))

/-- The most bytes of a chain in one message of 1,400 B. -/
def certPortion : Nat := 1392

/-- GET_CERTIFICATE (R496, R497): a portion of slot 0's chain behind its length and what remains. -/
def execGetCertificate (p : SpdmPath) (slot offset len : Nat) (s : State) : Host.Outcome State Fault Refusal :=
  .next (s.spdmAt p 3 fun _ =>
    let c := Config.certChain s.cust.fwMeas
    if slot ≠ 0 || c.length < offset then s.answer spdmError []
    else
      let part := (c.drop offset).take (min len certPortion)
      s.answer spdmOk (bytesOfNat 2 part.length ++ bytesOfNat 2 (c.length - offset - part.length) ++ part))

/-- The device's nonce in a signed response (assumption 1). -/
def State.nonce (s : State) : List Byte := (List.range 32).map (Config.freeByte s.fresh)

/-- Signs a response with the alias key (R497): the device's nonce and the signature follow the content. -/
def State.signed (s : State) (request content : List Byte) : State :=
  let body := content ++ s.nonce
  s.drawn.answer spdmOk (body ++ Config.sm2Sign (Config.aliasKey s.cust.fwMeas) (request ++ body))

/-- CHALLENGE (R497): the digest of slot 0's chain, signed with the alias key. -/
def execChallenge (p : SpdmPath) (nonce : List Byte) (s : State) : Host.Outcome State Fault Refusal :=
  .next (s.spdmAt p 3 fun _ => s.signed nonce (Config.sm3 (Config.certChain s.cust.fwMeas)))

/-- A measurement block: index, DMTF type and value (R498). -/
def measBlock (index type : Nat) (v : List Byte) : List Byte :=
  bytesOfNat 1 index ++ [0x01#8] ++ bytesOfNat 2 (v.length + 3) ++ bytesOfNat 1 type ++ bytesOfNat 2 v.length ++ v

/-- A digest where there is something to measure, else zeros. -/
def digestOr (bs : List Byte) : List Byte := if bs.isEmpty then List.replicate 32 0#8 else Config.sm3 bs

/-- The six measurements of R498, each with its index and DMTF type. -/
def State.measurements (s : State) : List (Nat × Nat × List Byte) :=
  let c := s.cust
  [(1, 0x00, c.romMeas), (2, 0x01, c.fwMeas),
   (3, 0x03, match c.config with
     | none => List.replicate 32 0#8
     | some g => Config.sm3 g.bytes),
   (4, 0x01, c.runtimeMeas), (5, 0x82, bytesOfNat 4 c.rollback ++ bytesOfNat 4 c.svn),
   (6, 0x83, bytesOfNat 8 (c.latched.toNat + 2 * s.dict.num 0x7000 1) ++ digestOr c.ownerKey)]

/-- GET_MEASUREMENTS (R498): every block, signed. -/
def execGetMeasurements (p : SpdmPath) (nonce : List Byte) (s : State) : Host.Outcome State Fault Refusal :=
  .next (s.spdmAt p 3 fun _ => s.signed nonce ((s.measurements.map fun m => measBlock m.1 m.2.1 m.2.2).flatten))

/-- The ID of a session: the requester's half of the exchange below, the device's above. Neither 0 nor all ones (R455). -/
def sessionId (exchange : List Byte) (n : Nat) : W32 := BitVec.ofNat 32 (natOfBytes (exchange.take 2) + (1 + n % 65534) * 2 ^ 16)

/-- KEY_EXCHANGE (R496, R497): the handshake of a session begins, signed with the alias key. -/
def execKeyExchange (p : SpdmPath) (exchange : List Byte) (s : State) : Host.Outcome State Fault Refusal :=
  .next (s.spdmAt p 3 fun x =>
    let h : SpdmSes := { id := sessionId exchange x.begun, secret := Config.exportSecret exchange s.fresh, bothSides := false, updates := 0 }
    (s.setSpdm p { x with handshake := some h, begun := x.begun + 1 }).signed exchange (bytesOfNat 4 h.id.toNat))

/-- FINISH (R496): the handshake completes, with mutual authentication or without, or fails. -/
def execFinish (p : SpdmPath) (valid bothSides : Bool) (s : State) : Host.Outcome State Fault Refusal :=
  .next (s.spdmAt p 3 fun x =>
    match x.handshake with
    | none => s.answer spdmError []
    | some h =>
      if valid then
        (s.setSpdm p { x with handshake := none, sessions := { h with bothSides := bothSides } :: x.sessions }).answer spdmOk []
      else (s.setSpdm p { x with handshake := none }).answer spdmError [])

/-- HEARTBEAT (R496): the newest session of the carrier lives. -/
def execHeartbeat (p : SpdmPath) (s : State) : Host.Outcome State Fault Refusal :=
  .next (s.spdmAt p 3 fun x => s.answer (if x.sessions.isEmpty then spdmError else spdmOk) [])

/-- KEY_UPDATE (R309, R499): the keys of the newest session are refreshed, and on a Carillon port those of both directions. -/
def execKeyUpdate (p : SpdmPath) (s : State) : Host.Outcome State Fault Refusal :=
  .next (s.spdmAt p 3 fun x =>
    match x.sessions with
    | [] => s.answer spdmError []
    | h :: rest =>
      let s1 := (s.setSpdm p { x with sessions := { h with updates := h.updates + 1 } :: rest }).answer spdmOk []
      match p with
      | .port q => (s1.rekey q true).rekey q false
      | _ => s1)

/-- END_SESSION (R462, R499): the newest session ends, and with it the dictionary session it keyed; on a Carillon link the link goes
down, with a CAUSE that R314 does not name (assumption 1). -/
def execEndSession (p : SpdmPath) (s : State) : Host.Outcome State Fault Refusal :=
  .next (s.spdmAt p 3 fun x =>
    match x.sessions with
    | [] => s.answer spdmError []
    | h :: rest =>
      let d := { s.dict with sessions := s.dict.sessions.filter fun y => !(y.path = carrierPath p && y.id = h.id) }
      let s1 := State.answer { s.setSpdm p { x with sessions := rest } with dict := d } spdmOk []
      match p with
      | .port q => s1.drawn.linkDown q ((Config.freeWord s.fresh 0).toNat % 256)
      | _ => s1)

end Sys2Proof.Machine
end

