-- ==== Sys2Proof/Machine/Reads.lean ====
section
/-! DEFINITION. The device registers as reads find them (R40, R52, R53 and the register tables of every chapter): the width in bytes
and the value of the register that begins at an offset of a block. Blocks are numbered as R53 lists them: 0 to 3 the A-dies, 4 the
C-die, 5 the Belfry, 6 the Carillon ports, 7 Hoop, 8 CXL. A field for writing only reads zero (R18). -/

namespace Sys2Proof.Machine

/-- A register's width in bytes and its value. -/
abbrev RegV := Nat × Nat

/-- The element of an array of registers that an offset lies in, with the offset within it. -/
def element (off base stride n : Nat) : Option (Nat × Nat) :=
  if base ≤ off && off < base + stride * n then some ((off - base) / stride, (off - base) % stride) else none

/-- Word i of a wide mask. -/
def maskWord (m : BitVec 512) (i : Nat) : Nat := bitsOf m.toNat (64 * i) 64

/-- The registers of a ring: HEAD, TAIL and CTRL (R241, R303, R329, R389). -/
def Ring.ctrl (r : Ring) : Nat := r.log2 * 2 ^ 8 + r.en.toNat

/-! ### A-die blocks -/

/-- STATE of TILE_HEALTH (R100). -/
def TileHealth.code (h : TileHealth) : Nat :=
  match h with
  | .full => 0
  | .foldOnly => 1
  | .retired => 2
  | .outOfService => 3

/-- A tile holds a soft repair. -/
def Tile.softRepaired (x : Tile) : Bool :=
  [x.repairRow, x.repairCol].any fun w => (List.range 4).any fun i => bitsOf (slotAt w i) 14 2 = 3

/-- TILE_HEALTH (R100). -/
def Tile.healthWord (x : Tile) : Nat :=
  x.health.code + x.qmask.toNat * 2 ^ 4 + x.phys.toNat * 2 ^ 8 + x.failRows0.toNat * 2 ^ 16 + x.failRows1.toNat * 2 ^ 18
    + x.failCols0.toNat * 2 ^ 20 + x.failCols1.toNat * 2 ^ 22 + x.softRepaired.toNat * 2 ^ 24

/-- STATE of SEQ_STATUS (R178). -/
def SeqState.code (q : SeqState) : Nat :=
  match q with
  | .idle => 0
  | .running => 1
  | .inWait => 2
  | .draining => 3
  | .stopped => 4
  | .clearing => 5

/-- TOKENS (R178). -/
def Tile.tokenWord (x : Tile) : Nat := (List.range 8).foldl (fun a c => a + x.tokens.get 0 c % 256 * 2 ^ (8 * c)) 0

/-- The tile register window (R100, R178). -/
def Tile.reg (x : Tile) (o : Nat) : Option RegV :=
  match o with
  | 0x0000 => some (4, x.healthWord)
  | 0x0008 => some (8, x.repairRow.toNat)
  | 0x0010 => some (8, x.repairCol.toNat)
  | 0x0018 => some (4, x.xflags.toNat)
  | 0x0020 => some (8, x.srSeed.toNat)
  | 0x0028 => some (8, x.scaleNan.toNat)
  | 0x1000 => some (8, x.seq.code + x.pc % 2 ^ 23 * 2 ^ 32)
  | 0x1008 => some (8, x.tokenWord)
  | 0x1010 => some (4, x.matrixQ.length + x.vectorQ.length * 2 ^ 8 + x.moveQ.length * 2 ^ 16 + x.rings.length * 2 ^ 24)
  | 0x1018 => some (4, x.stop.toNat)
  | 0x1020 => some (8, x.tag.toNat)
  | 0x1028 => some (8, x.sramBytes + x.recBase * 2 ^ 32)
  | _ =>
    match element o 0x0800 4 64 with
    | some (e, 0) => some (4, (x.scale.get 0#32 e).toNat)
    | _ => none

/-- A bell's register block (R167). -/
def Bell.reg (b : Bell) (o : Nat) : Option RegV :=
  match o with
  | 0x00 => some (8, if b.poison then 2 ^ 64 - 1 else b.count.toNat)
  | 0x08 => some (8, b.compl.toNat)
  | 0x10 => some (8, 0)
  | 0x18 => some (8, 0)
  | 0x20 => some (4, b.held.toNat + 2 * b.poison.toNat + 4 * b.sat.toNat + 8 * b.diag.toNat + scopeCode b.lscope * 2 ^ 4
      + b.lkind.toNat * 2 ^ 8 + b.lrel.toNat * 2 ^ 16)
  | 0x28 => some (4, b.mismatch.toNat)
  | _ => none

/-- A memory controller's registers (R193). -/
def State.ctrlReg (s : State) (c o : Nat) : Option RegV :=
  let k := s.mem.ctrl c
  match o with
  | 0x0000 => some (4, k.state + 8 * k.dblRefresh.toNat
      + min 16 (s.tocsin.heldOf (srcOf (ctrlKind c) (ctrlUnit c))).length * 2 ^ 4)
  | 0x0004 => some (4, k.period.toNat + k.passes.toNat * 2 ^ 8)
  | 0x0008 => some (8, k.ceInner.toNat)
  | 0x0010 => some (8, k.ceOuter.toNat)
  | 0x0018 => some (4, k.ue.toNat)
  | 0x001C => some (4, k.poisonReads.toNat)
  | 0x0020 => some (8, k.lastUe + k.lastUeValid.toNat)
  | 0x0028 => some (4, k.ceThresh.toNat)
  | _ => none

/-- DIE_ID, TALLY and TALLY_FREQ, at the start of the blocks 0 to 5 (R40). -/
def State.dieReg (s : State) (d o : Nat) : Option RegV :=
  match o with
  | 0x0000 => some (4, 0x10 + d)
  | 0x0008 => some (8, (s.tocsin.tally d).toNat)
  | 0x0010 => some (4, (s.tocsin.tallyFreq.get 0#32 d).toNat)
  | _ => none

/-- The block of an A-die. -/
def State.aReg (s : State) (d o : Nat) : Option RegV :=
  match element o 0x00400000 0x1000 4, element o 0x00800000 64 4096, element o 0x01000000 0x100000 64 with
  | some (j, p), _, _ => s.ctrlReg (4 * d + j) p
  | _, some (b, p), _ => (s.bell (4096 * d + b)).reg p
  | _, _, some (t, p) => (s.tile (Fin.ofNat 256 (64 * d + t))).reg p
  | _, _, _ => s.dieReg d o

/-! ### The C-die block -/

/-- A POOL register (R214). -/
def State.poolWord (s : State) (p : Nat) : Nat :=
  let x := s.mem.pools.get Pool.empty p
  x.size + x.held * 2 ^ 32

/-- The memory-system registers (R214). -/
def State.memReg (s : State) (o : Nat) : Option RegV :=
  match o with
  | 0x0000 => some (8, bitsOf s.mem.qmode.toNat 0 64)
  | 0x0008 => some (8, bitsOf s.mem.qmode.toNat 64 64)
  | 0x0010 => some (4, s.mem.mapGen.toNat)
  | 0x0018 => some (4, s.cache.swept.toNat + min s.cache.sweepStep 0x8000 * 2 ^ 16)
  | _ =>
    match element o 0x0020 8 6 with
    | some (p, 0) => some (8, s.poolWord p)
    | _ => none

/-- The translation, Tocsin and migration registers (R249). -/
def State.xlatReg (s : State) (o : Nat) : Option RegV :=
  let x := s.xlat
  let q := s.tocsin
  let g := s.mig
  match o with
  | 0x0000 => some (8, x.ddtp.toNat)
  | 0x0008 => some (8, 0)
  | 0x0010 => some (8, x.ioBase.toNat)
  | 0x0018 => some (8, x.ioLen.toNat)
  | 0x0020 => some (4, x.ioBusy.toNat)
  | 0x0028 => some (8, x.unmapCtx.toNat)
  | 0x0030 => some (8, x.unmapBase.toNat)
  | 0x0038 => some (8, x.unmapLen.toNat)
  | 0x0040 => some (4, 0)
  | 0x0048 => some (8, x.issued.toNat + x.drained.toNat * 2 ^ 32)
  | 0x0058 => some (8, 0)
  | 0x0060 => some (8, q.base)
  | 0x0068 => some (4, q.prod)
  | 0x006C => some (4, q.cons)
  | 0x0070 => some (4, q.en.toNat + 2 * q.ie.toNat + 4 * q.werr.toNat + q.reserve * 2 ^ 16)
  | 0x0078 => some (8, g.mq.base)
  | 0x0080 => some (4, g.mq.head)
  | 0x0084 => some (4, g.mq.tail)
  | 0x0088 => some (4, g.mq.ctrl)
  | 0x0090 => some (4, g.thresh + g.decay * 2 ^ 16)
  | _ =>
    match element o 0x0400 4 256 with
    | some (d, 0) => some (4, (x.gen d).toNat)
    | _ => none

/-- STATE of CLAP_STATUS (R348): out of service with its controller, stopped in a fault, running, idle. -/
def State.clapState (s : State) (u : Ctrl) : Nat :=
  if (s.mem.ctrl u.val).state = 2 then 3
  else if (s.xlat.faults.get none (0x2000 + u.val)).isSome then 2
  else if (s.net.cad.unit u).cur.isSome then 1
  else 0

/-- The Cadence and dispatcher registers (R348). -/
def State.cadReg (s : State) (o : Nat) : Option RegV :=
  let c := s.net.cad
  match o with
  | 0x0000 => some (8, c.step.toNat)
  | 0x0008 => some (8, c.stepC.toNat)
  | 0x0010 => some (8, 0)
  | 0x0018 => some (8, 0)
  | 0x0020 => some (4, 0)
  | 0x0024 => some (4, c.valid.toNat + 2 * c.fault.toNat + 4 * c.pend.toNat + 8 * c.next.isSome.toNat + 16 * c.err.toNat
      + c.active * 2 ^ 16)
  | 0x0028 => some (4, 0)
  | 0x0080 => some (8, c.uq.base)
  | 0x0088 => some (4, c.uq.head)
  | 0x008C => some (4, c.uq.tail)
  | 0x0090 => some (4, c.uq.ctrl)
  | _ =>
    match element o 0x0040 4 8, element o 0x0100 8 16, element o 0x0200 8 16, element o 0x1000 0x40 24 with
    | some (i, 0), _, _, _ => some (4, (c.out.get 0#32 i).toNat)
    | _, some (i, 0), _, _ => some (8, (c.stage.get 0#64 i).toNat)
    | _, _, some (i, 0), _ => some (8, (c.table.get 0#64 i).toNat)
    | _, _, _, some (i, 0) =>
      let u : Ctrl := Fin.ofNat 24 i
      some (8, s.clapState u + (c.unit u).buffers.length % 256 * 2 ^ 16 + (c.unit u).lots.toNat * 2 ^ 32)
    | _, _, _, _ => none

/-- CORE_STATE (R391). -/
def Core.stateWord (k : Core) : Nat := k.state + 8 * k.ceiling.toNat + k.trim % 256 * 2 ^ 24 + k.ceil.toNat * 2 ^ 36

/-- The core registers (R391). -/
def State.coreReg (s : State) (o : Nat) : Option RegV :=
  let c := s.cores
  let n := s.kern
  match o with
  | 0x0000 => some (8, n.lq.base)
  | 0x0008 => some (4, n.lq.head)
  | 0x000C => some (4, n.lq.tail)
  | 0x0010 => some (4, n.lq.ctrl)
  | 0x0014 => some (4, n.lqErrIndex % 2 ^ 11 + n.lqSkip.toNat * 2 ^ 14 + n.lqNoMatch.toNat * 2 ^ 15 + n.lqErrCode.toNat * 2 ^ 16)
  | 0x0300 => some (4, c.routeDrops.toNat)
  | 0x0A00 => some (4, c.hostMsgLen)
  | 0x0A04 => some (4, c.rtMsgLen)
  | _ =>
    match element o 0x0100 8 64, element o 0x0800 8 32, element o 0x0900 8 32, element o 0x1000 0x20 96 with
    | some (i, 0), _, _, _ => some (8, (c.routes.get 0#64 i).toNat)
    | _, some (i, 0), _, _ => some (8, natOfBytes ((c.hostMsg.drop (8 * i)).take 8))
    | _, _, some (i, 0), _ => some (8, natOfBytes (c.rtMsg.getRun 0#8 (8 * i) 8))
    | _, _, _, some (i, p) =>
      let k := s.core (Fin.ofNat 96 i)
      match p with
      | 0x00 => some (8, k.stateWord)
      | 0x08 => some (8, 0)
      | 0x10 => some (8, k.mtimecmp.toNat)
      | _ => none
    | _, _, _, _ => none

/-- The interrupt file that an offset of the C-die block names, as core and file, with the offset in it (R391). -/
def imsicFile (o : Nat) : Option (Nat × Nat × Nat) :=
  match element o 0x00800000 0x1000 96, element o 0x00C00000 0x1000 768 with
  | some (c, p), _ => some (c, 0, p)
  | _, some (f, p) => some (f / 8, f % 8 + 1, p)
  | _, _ => none

/-- The block of the C-die. The two words of an interrupt file read zero (R391). -/
def State.cReg (s : State) (o : Nat) : Option RegV :=
  match element o 0x00410000 0x1000 8, imsicFile o with
  | some (k, p), _ => s.ctrlReg (16 + k) p
  | _, some (_, _, p) => if p = 0 || p = 4 then some (4, 0) else none
  | _, _ =>
    match o / 0x10000 with
    | 0x00 => s.dieReg 4 o
    | 0x40 => s.memReg (o % 0x10000)
    | 0x50 => s.xlatReg (o % 0x10000)
    | 0x60 => s.cadReg (o % 0x10000)
    | 0x70 => s.coreReg (o % 0x10000)
    | _ => none

/-! ### The Belfry block -/

/-- The power registers' words (R451). -/
def KettleS.budgetWord (k : KettleS) : Nat := k.limit % 2 ^ 16 + k.est % 2 ^ 16 * 2 ^ 16
def KettleS.inputWord (k : KettleS) : Nat := k.volt % 2 ^ 16 + k.watts % 2 ^ 16 * 2 ^ 16
def KettleS.tempWord (k : KettleS) (d : Nat) : Nat := (k.logic.get 0#16 d).toNat + (k.dram.get 0#16 d).toNat * 2 ^ 16
def TilePwr.word (p : TilePwr) : Nat :=
  p.ceiling.toNat + 2 * p.boost.toNat + (if p.ceiling then 0 else p.trim % 256) * 2 ^ 8 + p.ceil.toNat * 2 ^ 16

/-- The power registers (R451). -/
def KettleS.reg (k : KettleS) (o : Nat) : Option RegV :=
  match o with
  | 0x0000 => some (4, k.statusWord.toNat)
  | 0x0004 => some (4, k.budgetWord)
  | 0x0008 => some (4, k.inputWord)
  | 0x0010 => some (8, (List.range 4).foldl (fun a d => a + k.targets.get 0 d % 2 ^ 16 * 2 ^ (16 * d)) 0)
  | 0x0018 => some (8, 0)
  | 0x0020 => some (4, k.shortfalls.toNat)
  | 0x0024 => some (4, k.ilimAlerts.toNat)
  | 0x0028 => some (4, k.throttleCycles.toNat)
  | _ =>
    match element o 0x0040 4 6, element o 0x0060 8 4, element o 0x1000 4 256 with
    | some (d, 0), _, _ => some (4, k.tempWord d)
    | _, some (d, 0), _ => some (8, (k.roll d).cls + (k.roll d).beats / 65536 % 2 ^ 32 * 2 ^ 32)
    | _, _, some (t, 0) => some (4, (k.tile (Fin.ofNat 256 t)).word)
    | _, _, _ => none

/-- The runtime window with IMAGE_STAGE (R483, R523). -/
def State.windowReg (s : State) (o : Nat) : Option RegV :=
  let d := s.dict
  match o with
  | 0x1000 => some (4, 0)
  | 0x1004 => some (4, d.busy.toNat + 2 * d.done.toNat + d.resp.length % 2 ^ 16 * 2 ^ 16)
  | _ =>
    match element o 0x0000 8 192, element o 0x0800 8 192, element o 0x10000 8 8192 with
    | some (i, 0), _, _ => some (8, natOfBytes (d.req.getRun 0#8 (8 * i) 8))
    | _, some (i, 0), _ => some (8, natOfBytes ((d.resp.drop (8 * i)).take 8))
    | _, _, some (i, 0) => some (8, natOfBytes (s.svc.stage.getRun 0#8 (8 * i) 8))
    | _, _, _ => none

/-- The block of the Belfry (R53). -/
def State.bReg (s : State) (o : Nat) : Option RegV :=
  match element o 0x00100000 0x100000 1 with
  | some (_, p) => s.windowReg p
  | none => if o < 0x00100000 then s.dieReg 5 o else s.kettle.reg (o - 0x00200000)

/-! ### The Carillon ports block -/

/-- PORT_STATUS (R315). -/
def Port.statusWord (x : Port) : Nat :=
  x.state + x.width * 2 ^ 3 + x.enc.toNat * 2 ^ 5 + x.attested.toNat * 2 ^ 6
    + ((List.range 16).filter fun j => (x.qent.get none j).isSome).length * 2 ^ 8

/-- A port's registers (R315). -/
def Port.reg (x : Port) (o : Nat) : Option RegV :=
  match o with
  | 0x0000 => some (4, x.statusWord)
  | 0x0004 => some (4, x.en.toNat + 2 * x.wreq + 8 * x.encReq.toNat)
  | 0x0008 => some (8, match x.peer with
      | none => 0
      | some m => m.pair.toNat)
  | 0x0010 => some (8, x.retries.toNat)
  | 0x0018 => some (8, x.fecUncorr.toNat)
  | 0x0020 => some (4, x.authFail.toNat)
  | 0x0024 => some (4, x.violations.toNat)
  | 0x0028 => some (4, x.downs.toNat)
  | 0x0180 => some (4, 0)
  | _ =>
    match element o 0x0100 8 16 with
    | some (j, 0) =>
      some (8, match x.qent.get none j with
        | none => 0
        | some q => q.src % 2 ^ 19 + 2 ^ 19 + q.count % 2 ^ 20 * 2 ^ 32)
    | _ => none

/-- A Peal slot's ring registers (R315). -/
def Ring.pealReg (r : Ring) (o : Nat) : Option RegV :=
  match o with
  | 0x00 => some (8, r.base)
  | 0x08 => some (4, r.head)
  | 0x0C => some (4, r.tail)
  | 0x10 => some (4, r.ctrl)
  | _ => none

/-- The block of the Carillon ports (R243, R244, R315). -/
def State.netReg (s : State) (o : Nat) : Option RegV :=
  match o with
  | 0x00110040 => some (4, 0)
  | 0x00110048 => some (4, s.win.last.toNat + s.win.drained.toNat * 2 ^ 8 + s.win.err.toNat * 2 ^ 9)
  | 0x00120000 => some (8, if s.net.frozen then s.net.coord.toNat + s.net.coordC.toNat * 2 ^ 32 else 0)
  | 0x00120008 => some (4, if s.net.frozen then s.net.shape.toNat + 2 ^ 31 else 0)
  | 0x0012000C => some (4, s.net.qthresh)
  | 0x00120010 => some (4, s.net.e2e.toNat)
  | 0x00120014 => some (4, s.net.pealMs.toNat)
  | _ =>
    match element o 0 0x10000 8, element o 0x00080000 0x100 16, element o 0x00100000 8 2048, element o 0x00110000 8 8 with
    | some (p, q), _, _, _ => (s.net.ports.get Port.reset p).reg q
    | _, some (k, q), _, _ => (s.peal (Fin.ofNat 16 k)).ring.pealReg q
    | _, _, some (i, 0), _ => some (8, (s.win.words.get 0#64 i).toNat)
    | _, _, _, some (i, 0) => some (8, (s.win.stage.get 0#64 i).toNat)
    | _, _, _, _ => none

/-! ### The Hoop block -/

/-- LINK_STATUS, the roles of LINK_CTRL and WIDTH (R370). -/
def HoopLink.statusWord (x : HoopLink) : Nat := x.state + x.attempts * 2 ^ 4 + (if x.state = 3 then x.cause else 0) * 2 ^ 8
def HoopLink.ctrlWord (x : HoopLink) : Nat := x.split + x.reqf * 2 ^ 8 + x.reqr * 2 ^ 12
def HoopLink.widthWord (x : HoopLink) : Nat := x.goodFwd + x.goodRev * 2 ^ 16

/-- A link's registers (R370). -/
def HoopLink.reg (x : HoopLink) (o : Nat) : Option RegV :=
  match o with
  | 0x0000 => some (4, x.statusWord)
  | 0x0004 => some (4, x.ctrlWord)
  | 0x0008 => some (4, x.widthWord)
  | 0x0090 => some (8, x.crcErr.toNat)
  | 0x0098 => some (8, x.replayCount.toNat)
  | 0x00A0 => some (4, x.retrains.toNat)
  | 0x00A4 => some (4, x.violations.toNat)
  | 0x00A8 => some (4, x.sparesUsed.toNat)
  | _ =>
    match element o 0x0010 8 8, element o 0x0050 8 8, element o 0x00B0 8 8, element o 0x00F0 8 8 with
    | some (i, 0), _, _, _ => some (8, maskWord x.good i)
    | _, some (i, 0), _, _ => some (8, maskWord x.retired i)
    | _, _, some (i, 0), _ => some (8, maskWord x.dmask0 i)
    | _, _, _, some (i, 0) => some (8, maskWord x.dmask1 i)
    | _, _, _, _ => none

/-- The block of Hoop link control (R370). -/
def State.hoopReg (s : State) (o : Nat) : Option RegV :=
  if o = 0x00080000 then some (4, s.net.routeMap.toNat)
  else
    match element o 0 0x10000 8 with
    | some (l, p) => (s.hoop (Fin.ofNat 8 l)).reg p
    | none => none

/-! ### The CXL block -/

/-- HOST_STATE (R398). -/
def CxlS.hostWord (c : CxlS) : Nat :=
  let speed := if c.lanes = 0 then 0 else if c.gts = 8 then 1 else if c.gts = 16 then 2 else 3
  c.state + 8 * c.sealedBit.toNat + speed * 2 ^ 12 + c.lanes * 2 ^ 16 + c.losses * 2 ^ 24

/-- A stream's registers (R401). -/
def StreamS.reg (x : StreamS) (o : Nat) : Option RegV :=
  match o with
  | 0x00 => some (8, x.sqBase)
  | 0x08 => some (8, x.cqBase)
  | 0x10 => some (4, x.slog2 + x.clog2 * 2 ^ 4 + x.cvec * 2 ^ 8 + x.evec * 2 ^ 19)
  | 0x14 => some (4, x.ctx.toNat)
  | 0x18 => some (4, 0)
  | 0x1C => some (4, 0)
  | 0x20 => some (4, x.sqHead)
  | 0x24 => some (4, x.cqTail)
  | 0x28 => some (4, x.cqHead)
  | 0x30 => some (8, x.state + x.level * 2 ^ 4 + x.counter.toNat % 2 ^ 16 * 2 ^ 16 + x.status.toNat * 2 ^ 32)
  | _ => none

/-- The host registers (R398). -/
def CxlS.hostReg (c : CxlS) (o : Nat) : Option RegV :=
  match o with
  | 0x0000 => some (4, c.hostWord)
  | 0x0008 => some (8, c.fqBase)
  | 0x0010 => some (4, c.fqProd)
  | 0x0014 => some (4, c.fqCons)
  | 0x0018 => some (4, c.fqEn.toNat + 2 * c.fqWerr.toNat)
  | 0x0020 => some (8, 0)
  | 0x0028 => some (4, c.p2pDrops.toNat)
  | 0x002C => some (4, c.logTotal % 32 + c.logTotal % 2 ^ 24 * 2 ^ 8)
  | _ =>
    match element o 0x0030 8 2, element o 0x0400 8 128, element o 0x1000 8 512 with
    | some (i, 0), _, _ => some (8, (c.hdmMap.get 0#64 i).toNat)
    | _, some (i, 0), _ => some (8, natOfBytes (((c.logs.get [] (i / 4)).drop (8 * (i % 4))).take 8))
    | _, _, some (i, 0) => some (8, (c.region.get 0#64 i).toNat)
    | _, _, _ => none

/-- The block of the CXL controller and the command streams (R397). -/
def State.xReg (s : State) (o : Nat) : Option RegV :=
  match element o 0x20000 0x2000 1, element o 0x40000 0x40 256 with
  | some (_, p), _ => s.cxl.hostReg p
  | _, some (k, p) => (s.stream (Fin.ofNat 256 k)).reg p
  | _, _ => none

/-! ### Any device register -/

/-- The register that begins at an offset of a block; none at a reserved offset (R52, R53). -/
def State.reg (s : State) (b o : Nat) : Option RegV :=
  match b with
  | 4 => s.cReg o
  | 5 => s.bReg o
  | 6 => s.netReg o
  | 7 => s.hoopReg o
  | 8 => s.xReg o
  | _ => s.aReg b o

/-- The block of a device-register address, and the offset in it; none for a reserved block (R53). -/
def blockOf (a : Nat) : Option (Nat × Nat) :=
  match element a 0x3F0000000000 0x100000000 9 with
  | some (b, o) => some (b, o)
  | none => none

/-- The 4 B at an aligned offset: a register, a half of one, or a reserved offset, which reads zero (R52). -/
def State.regWord (s : State) (b o : Nat) : Nat :=
  match s.reg b o with
  | some (_, v) => v % 2 ^ 32
  | none =>
    if o % 8 = 4 then
      match s.reg b (o - 4) with
      | some (8, v) => v / 2 ^ 32 % 2 ^ 32
      | _ => 0
    else 0

/-- An aligned access of 8 B: one register, or two halves (R52). -/
def State.regRead (s : State) (b o size : Nat) : Nat :=
  if size = 4 then s.regWord b o
  else
    match s.reg b o with
    | some (8, v) => v
    | _ => s.regWord b o + s.regWord b (o + 4) * 2 ^ 32

/-- A read of TALLY finds the counter as it then stands (R41, assumption 2). -/
def State.beforeRead (s : State) (b o : Nat) : State :=
  if b < 6 && (o = 8 || o = 12) then { s with tocsin := s.tocsin.tick s.fresh b, fresh := s.fresh + 1 } else s

end Sys2Proof.Machine
end

