-- ==== Sys2Proof/Machine/Dict.lean ====
section
/-! DEFINITION. The dictionary's frames (R452 to R473, R488 to R490, R503, R508): their checks, sessions, operations and answers,
and the Belfry's side of its paths. -/

namespace Sys2Proof.Machine

/-! ### Values of entries (R465, R466) -/

/-- ACTION_STATE (R518). -/
def SvcS.stateWord (v : SvcS) : Nat := v.code + v.result * 2 ^ 8 + v.phase * 2 ^ 16 + v.detail * 2 ^ 24

/-- A register sampled for a mirror (R474 to R482). -/
def State.mirror (s : State) (idx sub : Nat) : List Byte :=
  let port := s.net.ports.get Port.reset sub
  let link := s.hoop (Fin.ofNat 8 sub)
  match idx, sub with
  | 0x1010, _ => bytesOfNat 4 (s.tile (Fin.ofNat 256 sub)).healthWord
  | 0x2000, 3 => bytesOfNat 1 s.svc.node
  | 0x2000, _ => bytesOfNat 1 s.net.frozen.toNat
  | 0x3000, 0x10 => bytesOfNat 4 s.kettle.statusWord.toNat
  | 0x3000, 0x11 => bytesOfNat 4 s.kettle.budgetWord
  | 0x3000, 0x12 => bytesOfNat 4 s.kettle.inputWord
  | 0x3000, _ => bytesOfNat 4 s.kettle.shortfalls.toNat
  | 0x4000, _ => bytesOfNat 4 (s.kettle.tempWord (sub - 0x10))
  | 0x5000, _ => bytesOfNat 4 s.mem.mapGen.toNat
  | 0x5010, _ => bytesOfNat 1 (s.mem.ctrl sub).state
  | 0x5011, _ => bytesOfNat 4 (s.mem.ctrl sub).ue.toNat
  | 0x5012, _ => bytesOfNat 8 (s.mem.ctrl sub).ceOuter.toNat
  | 0x5020, _ => bytesOfNat 8 (s.poolWord sub)
  | 0x6001, _ => bytesOfNat 4 link.statusWord
  | 0x6002, _ => bytesOfNat 4 link.widthWord
  | 0x6003, _ => bytesOfNat 4 s.net.routeMap.toNat
  | 0x6010, _ => bytesOfNat 4 port.statusWord
  | 0x6011, _ => bytesOfNat 8 port.retries.toNat
  | 0x6012, _ => bytesOfNat 8 port.fecUncorr.toNat
  | 0x6013, _ => bytesOfNat 4 port.violations.toNat
  | 0x7000, 3 => bytesOfNat 8 s.cust.rollback ++ bytesOfNat 8 (2 ^ 64 - 1 - s.cust.rollback)
  | 0x7000, _ => s.cust.runtimeMeas
  | 0x8000, 1 => bytesOfNat 8 s.dict.csn.toNat
  | 0x8000, 2 => bytesOfNat 8 s.tele.flam.toNat
  | 0x8000, 3 => bytesOfNat 8 s.tele.discards.toNat
  | 0x8000, 4 => bytesOfNat 4 s.tele.authFails.toNat
  | 0x8000, 5 => bytesOfNat 4 s.tele.frameDrops.toNat
  | 0x8000, _ => bytesOfNat 4 s.tele.refusals.toNat
  | 0x8010, _ => s.dict.log.get [] sub
  | 0x9000, _ => bytesOfNat 4 s.svc.stateWord
  | _, _ => entryDefault idx sub

/-- The value of an entry. OWNER_KEY is custody's (R487). -/
def State.entryValue (s : State) (e : EntryInfo) (idx sub : Nat) : List Byte :=
  if e.mirror then s.mirror idx sub
  else if idx = 0x7000 && sub = 2 then s.cust.ownerKey
  else s.dict.value idx sub

/-- The commit that produced the value (R457, R466): of a mirror the current one; none for what was fused. -/
def State.entryCsn (s : State) (e : EntryInfo) (idx sub : Nat) : W64 :=
  if e.mirror && idx ≠ 0x1000 && idx ≠ 0x3100 then s.dict.csn else (s.dict.entry idx sub).csn

/-- The coarse value of an entry (R508). -/
def CoarseS.value (c : CoarseS) (idx sub : Nat) : List Byte :=
  bytesOfNat 4 (match idx, sub with
    | 0x3000, 0x10 => c.status.toNat
    | 0x3000, 0x11 => c.budget.toNat
    | 0x3000, _ => c.input.toNat
    | _, _ => (c.temps.get 0#32 (sub - 0x10)).toNat)

/-! ### Rights (R10, R465) -/

/-- A principal's character for an entry. -/
def EntryInfo.right (e : EntryInfo) (principal : Nat) : Byte := if principal = 0 then 0x2D#8 else e.rights.getD (principal - 1) 0x2D#8

/-- READ and DESCRIBE need r, c or w. -/
def EntryInfo.mayRead (e : EntryInfo) (principal : Nat) : Bool := e.right principal ≠ 0x2D#8

/-- WRITE, FREEZE and RELEASE need w. The resident runtime may write ACTION besides (R514, R516). -/
def EntryInfo.mayWrite (e : EntryInfo) (idx sub principal : Nat) : Bool :=
  e.right principal = 0x77#8 || (idx = 0x9000 && sub = 1 && principal = 5)

/-- Some principal may write the entry. -/
def EntryInfo.writable (e : EntryInfo) : Bool := e.rights.contains 0x77#8

/-- The remaining abort codes of R473. -/
def abNoEntry : Nat := 1
def abReadOnly : Nat := 3
def abType : Nat := 4
def abFrozen : Nat := 6
def abFlam : Nat := 7
def abSession : Nat := 8
def abAuth : Nat := 9
def abSequence : Nat := 0xA
def abNotFreezable : Nat := 0xB
def abNoClaim : Nat := 0xC
def abGroup : Nat := 0xD

/-- The first failure of a list of checks, NONE among them. -/
def firstAbort (cs : List (Bool × Nat)) : Nat :=
  match cs.find? fun c => c.1 with
  | some c => c.2
  | none => abNone

/-- A read under c in sealed mode returns the coarse value (R465, R508). -/
def State.readsCoarse (s : State) (e : EntryInfo) (principal : Nat) : Bool := s.cust.sealed && e.right principal = 0x63#8

/-- What sealed mode refuses (R488, R503): a write, freeze or release by the Vendor, and a write of OWNER_KEY. -/
def State.sealDenies (s : State) (write : Bool) (idx sub principal : Nat) : Bool :=
  s.cust.sealed && (principal = 1 || (write && idx = 0x7000 && sub = 2))

/-! ### The checks of one item -/

/-- The entry that an item names. -/
def itemEntry (i : Item) : Option EntryInfo := entryInfo i.index.toNat i.sub.toNat

/-- READ (R463, R465). -/
def State.readAbort (s : State) (principal : Nat) (i : Item) : Nat :=
  match itemEntry i with
  | none => abNoEntry
  | some e =>
    let v := s.entryValue e i.index.toNat i.sub.toNat
    firstAbort
      [(!e.mayRead principal, abNoRight), (i.type ≠ 0#8 && i.type.toNat ≠ e.type, abType),
       (e.type = 0x0D && !flamOk (w64At v 0) (w64At v 8), abFlam)]

/-- The lengths that a value of an entry may have (R463); OWNER_KEY is empty or 64 B (R487). -/
def EntryInfo.lengthOk (e : EntryInfo) (n : Nat) : Bool :=
  match e.type with
  | 0x0C => n = 0 || n = 64
  | 0x0D => n = 16
  | _ => n = e.dflt.length

/-- COORD's word is legal in a shape (R286, R475). -/
def coordLegal (pair : W64) (shape : Nat) : Bool :=
  w64Bits pair 31 1 = 1 && w64Bits pair 19 12 = 0 && w64Bits pair 0 5 ≤ bitsOf shape 0 5 && w64Bits pair 5 5 ≤ bitsOf shape 5 5
    && w64Bits pair 10 5 ≤ bitsOf shape 10 5 && w64Bits pair 15 4 ≤ bitsOf shape 15 4

/-- HOOP_CTRL's ranges (R362, R479). -/
def hoopLegal (v : Nat) : Bool :=
  bitsOf v 5 3 = 0 && bitsOf v 16 16 = 0 && 12 ≤ bitsOf v 0 5 && bitsOf v 0 5 ≤ 20 && 2 ≤ bitsOf v 8 4 && bitsOf v 8 4 ≤ 6
    && 2 ≤ bitsOf v 12 4 && bitsOf v 12 4 ≤ 6

/-- SHAPE once a whole request is committed (R475). -/
def State.shapeAfter (s : State) (items : List Item) : Nat :=
  match items.reverse.find? fun i => i.index = 0x2000#16 && i.sub = 2#8 with
  | some i => natOfBytes i.value
  | none => s.dict.num 0x2000 2

/-- The principal at a position of R9. -/
def principalAt (n : Nat) : Principal :=
  match n with
  | 1 => .vendor
  | 2 => .owner
  | 3 => .host
  | 4 => .tray
  | 5 => .runtime
  | 6 => .job
  | _ => .peer

/-- The checks that an entry's row adds to a written value. -/
def State.rowAbort (s : State) (items : List Item) (principal idx sub : Nat) (v : List Byte) : Nat :=
  match idx, sub with
  | 0x2000, 1 =>
    firstAbort [(w64Bits (w64At v 0) 32 32 ≠ 2 ^ 32 - 1 - w64Bits (w64At v 0) 0 32, abFlam),
      (!coordLegal (w64At v 0) (s.shapeAfter items), abRange)]
  | 0x6000, _ => if hoopLegal (natOfBytes v) then abNone else abRange
  | 0x7000, 1 => if natOfBytes v = 1 && s.cust.ownerKey.isEmpty then abState else abNone
  | 0x9000, 1 => if flamOk (w64At v 0) (w64At v 8) then s.actionCheck (principalAt principal) (w64At v 0) else abFlam
  | _, _ => abNone

/-- The value lies in the entry's range (R463). -/
def EntryInfo.inRange (e : EntryInfo) (v : List Byte) : Bool :=
  e.type ≥ 0x0A || (e.lo ≤ natOfBytes v && (natOfBytes v : Int) ≤ e.hi)

/-- WRITE of one item (R463, R465, R471, R503). -/
def State.writeAbort (s : State) (items : List Item) (principal : Nat) (i : Item) : Nat :=
  let idx := i.index.toNat
  let sub := i.sub.toNat
  match itemEntry i with
  | none => abNoEntry
  | some e =>
    let a := firstAbort
      [(s.sealDenies true idx sub principal, abSealed), (!e.writable, abReadOnly), (!e.mayWrite idx sub principal, abNoRight),
       ((s.dict.entry idx sub).frozen, abFrozen), (i.type.toNat ≠ e.type || !e.lengthOk i.value.length, abType),
       (!e.inRange i.value, abRange)]
    if a ≠ abNone then a else s.rowAbort items principal idx sub i.value

/-- FREEZE of one item (R465, R467, R471). -/
def State.freezeAbort (s : State) (principal : Nat) (i : Item) : Nat :=
  let idx := i.index.toNat
  let sub := i.sub.toNat
  match itemEntry i with
  | none => abNoEntry
  | some e =>
    firstAbort
      [(s.sealDenies false idx sub principal, abSealed), (!e.writable, abReadOnly), (!e.mayWrite idx sub principal, abNoRight),
       (i.type ≠ 0#8 && i.type.toNat ≠ e.type, abType), (!e.freezable, abNotFreezable)]

/-- An entry is restrictive-wins (R464). -/
def EntryInfo.restrictive (e : EntryInfo) : Bool := e.rmin || e.rmax

/-- RELEASE of one item (R465, R467, R469, R471). -/
def State.releaseAbort (s : State) (principal : Nat) (i : Item) : Nat :=
  let idx := i.index.toNat
  let sub := i.sub.toNat
  match itemEntry i with
  | none => abNoEntry
  | some e =>
    let x := s.dict.entry idx sub
    firstAbort
      [(s.sealDenies false idx sub principal, abSealed), (!e.writable, abReadOnly), (!e.mayWrite idx sub principal, abNoRight),
       (x.frozen, abFrozen), (i.type ≠ 0#8 && i.type.toNat ≠ e.type, abType),
       (!e.restrictive || !(x.claims.any fun c => c.1 = principal), abNoClaim)]

/-! ### Commits (R468 to R471) -/

/-- The most restrictive of the claims, or Default (R469). -/
def EntryInfo.claimed (e : EntryInfo) (claims : List (Nat × List Byte)) : List Byte :=
  match claims with
  | [] => e.dflt
  | c :: rest =>
    rest.foldl (fun v d =>
      if e.rmin then (if natOfBytes d.2 < natOfBytes v then d.2 else v) else (if natOfBytes v < natOfBytes d.2 then d.2 else v)) c.2

/-- An entry whose claims have changed: its commit number changes with its value. -/
def EntryS.reclaim (x : EntryS) (e : EntryInfo) (claims : List (Nat × List Byte)) (csn : W64) : EntryS :=
  let v := e.claimed claims
  { x with claims := claims, value := some v, csn := if x.value.getD e.dflt = v then x.csn else csn }

/-- One written item in the dictionary. -/
def DictS.write (d : DictS) (principal : Nat) (i : Item) : DictS :=
  match itemEntry i with
  | none => d
  | some e =>
    let k := entryKey i.index.toNat i.sub.toNat
    { d with entries := d.entries.modify EntryS.empty k fun x =>
        if e.restrictive then
          x.reclaim e (x.claims.filter (fun c => c.1 ≠ principal) ++ [(principal, i.value)]) d.csn
        else { x with value := some i.value, csn := d.csn } }

def DictS.freeze (d : DictS) (i : Item) : DictS :=
  { d with entries := d.entries.modify EntryS.empty (entryKey i.index.toNat i.sub.toNat) fun x => { x with frozen := true } }

def DictS.release (d : DictS) (principal : Nat) (i : Item) : DictS :=
  match itemEntry i with
  | none => d
  | some e =>
    { d with entries := d.entries.modify EntryS.empty (entryKey i.index.toNat i.sub.toNat) fun x =>
        x.reclaim e (x.claims.filter fun c => c.1 ≠ principal) d.csn }

/-- OWNER_KEY after a write (R488): a release erases the owner configuration. -/
def State.ownerWrites (s : State) (i : Item) : State :=
  if i.index = 0x7000#16 && i.sub = 2#8 then
    let c := { s.cust with ownerKey := i.value }
    s.setCust (if i.value.isEmpty then { (c.eraseSlot 2).eraseSlot 3 with config := none } else c)
  else s

/-- COORD and SHAPE are both frozen: the Carillon engines take the pair (R286, R475). -/
def State.coordsTaken (s : State) : State :=
  if !s.net.frozen && (s.dict.entry 0x2000 1).frozen && (s.dict.entry 0x2000 2).frozen then
    let pair := s.dict.num 0x2000 1
    State.coordsFrozen { s with net := { s.net with
      coord := BitVec.ofNat 32 pair, coordC := BitVec.ofNat 32 (pair / 2 ^ 32), shape := BitVec.ofNat 19 (s.dict.num 0x2000 2) } }
  else s

/-- What a committed request does in the device once it is answered (R470): sealed mode, coordinates, a service action. -/
def State.takesEffect (s : State) (write : Bool) (items : List Item) : State :=
  let s1 := s.when (s.dict.num 0x7000 1 = 1) State.sealBegins
  let s2 := s1.coordsTaken
  match items.find? fun i => write && i.index = 0x9000#16 && i.sub = 1#8 with
  | some i => s2.actionStarts (w64At i.value 0)
  | none => s2

/-! ### Answers (R457) -/

/-- Zero padding to a multiple of 8. -/
def padded (v : List Byte) : List Byte := v ++ List.replicate ((8 - v.length % 8) % 8) 0#8

/-- Bytes 0x00 to 0x0F of a PDU, of a kind and a length. -/
def pduHeader (f : Pdu) (kind len : Nat) : List Byte :=
  bytesOfNat 1 (f.gen.toNat + 16 * kind) ++ [f.rsv1] ++ bytesOfNat 2 len ++ bytesOfNat 4 f.session.toNat ++ bytesOfNat 4 f.seq.toNat
    ++ [f.op] ++ bytesOfNat 1 f.count ++ bytesOfNat 1 f.principal ++ [f.rsv2]

/-- A response PDU with its body, tagged under a key where there is one. -/
def pduResponse (f : Pdu) (st : W32) (ab : Nat) (body key : List Byte) : List Byte :=
  let n := 0x18 + body.length + (if key.isEmpty then 0 else 32)
  let p := pduHeader f 1 n ++ bytesOfNat 4 st.toNat ++ bytesOfNat 2 ab ++ bytesOfNat 2 0 ++ body
  if key.isEmpty then p else p ++ Config.hmacSm3 key p

/-- One item of a response. -/
def answerItem (i : Item) (type ab : Nat) (csn : W64) (flags : Nat) (v : List Byte) : List Byte :=
  bytesOfNat 2 i.index.toNat ++ [i.sub] ++ bytesOfNat 1 type ++ bytesOfNat 2 v.length ++ bytesOfNat 2 ab ++ bytesOfNat 8 csn.toNat
    ++ bytesOfNat 1 flags ++ bytesOfNat 7 0 ++ padded v

/-- An item that aborts returns no value. -/
def abortItem (i : Item) (ab : Nat) : List Byte :=
  answerItem i (match itemEntry i with
    | some e => e.type
    | none => i.type.toNat) ab 0#64 0 []

/-- FLAGS (R457). -/
def State.entryFlags (s : State) (coarse : Bool) (principal idx sub : Nat) : Nat :=
  let x := s.dict.entry idx sub
  coarse.toNat + 2 * x.frozen.toNat + 4 * (x.claims.any fun c => c.1 = principal).toNat

/-- An item with the entry's value, coarse where sealed mode has it so. `csn` replaces the entry's own for a commit (R468). -/
def State.valueItem (s : State) (principal : Nat) (i : Item) (csn : Option W64) : List Byte :=
  match itemEntry i with
  | none => abortItem i abNoEntry
  | some e =>
    let idx := i.index.toNat
    let sub := i.sub.toNat
    let c := csn.isNone && s.readsCoarse e principal
    answerItem i e.type abNone (csn.getD (if c then s.coarse.csn else s.entryCsn e idx sub)) (s.entryFlags c principal idx sub)
      (if c then s.coarse.value idx sub else s.entryValue e idx sub)

/-- The BLOB of DESCRIBE (R467). -/
def State.description (s : State) (e : EntryInfo) (idx sub : Nat) : List Byte :=
  let top := fun (n : Int) => if e.type ≥ 0x0A then bytesOfNat 8 0 else bytesOfNat 8 (n % 2 ^ 64).toNat
  bytesOfNat 1 e.type ++ e.rights
    ++ bytesOfNat 8 (e.persistent.toNat + 2 * e.freezable.toNat + 4 * e.rmin.toNat + 8 * e.rmax.toNat + 16 * e.pub.toNat
        + 32 * (s.dict.entry idx sub).frozen.toNat)
    ++ top e.lo ++ top (if e.type = 1 then 1 else e.hi)

/-- DESCRIBE of one item. -/
def State.describeItem (s : State) (principal : Nat) (i : Item) : List Byte :=
  match itemEntry i with
  | none => abortItem i abNoEntry
  | some e =>
    if !e.mayRead principal then abortItem i abNoRight
    else if i.type ≠ 0#8 && i.type.toNat ≠ e.type then abortItem i abType
    else
      let idx := i.index.toNat
      let sub := i.sub.toNat
      answerItem i e.type abNone (s.entryCsn e idx sub) (s.entryFlags false principal idx sub) (s.description e idx sub)

/-! ### The checks of a frame (R458) -/

/-- Bytes of a padded value. -/
def padLen (n : Nat) : Nat := n + (8 - n % 8) % 8

/-- A field that must be zero, a reserved OP, or a nonzero VLEN outside WRITE (R455, R456, R460). -/
def pduReserved (f : Pdu) : Bool :=
  f.rsv1 ≠ 0#8 || f.rsv2 ≠ 0#8 || f.kind.toNat > 2 || f.op = 0#8 || f.op.toNat > 8
    || (f.items.any fun i => i.rsv ≠ 0#16 || !i.padZero || (f.op ≠ 2#8 && i.vlen ≠ 0))
    || (f.op = 7#8 && (w64Bits f.body 0 1 ≠ 0 || w64Bits f.body 16 48 ≠ 0)) || (f.op.toNat ≥ 6 && f.op.toNat ≤ 8 && f.count ≠ 0)

/-- The bytes that the parts of a PDU take. -/
def pduExtent (f : Pdu) : Nat :=
  16 + (f.items.map fun i => 8 + padLen i.vlen).sum + (if f.op = 7#8 then 8 else 0) + (if f.auth.isSome then 104 else 0)
    + (if f.session = 0#32 || f.session = BitVec.allOnes 32 then 0 else 32)

/-- The bytes of the response to a PDU (R457). -/
def State.responseExtent (s : State) (f : Pdu) : Nat :=
  let value := fun (i : Item) => match itemEntry i with
    | none => 0
    | some e => if f.op = 5#8 then 32 else if f.op = 2#8 then i.vlen else (s.entryValue e i.index.toNat i.sub.toNat).length
  24 + (f.items.map fun i => 24 + padLen (value i)).sum
    + (if f.session = 0#32 || f.session = BitVec.allOnes 32 then 0 else 32)

/-- Steps 1 to 4 of R458. -/
def State.pduCheck (s : State) (f : Pdu) : Option W32 :=
  firstStatus
    [(f.gen ≠ 1#4, stVersion), (pduReserved f, stReserved),
     (f.count = 0xFF || f.items.any (fun i => i.vlen = 0xFFFF) || f.len > f.received, stLength),
     (f.count > 32 || f.items.length < f.count || pduExtent f > f.len || f.len > 1500 || s.responseExtent f > 1500, stBounds)]

/-- The number of a path: 0 segment, 1 CXL mailbox, 2 runtime window, 3 + p Carillon port p; and as R472 logs it. -/
def pathNo (p : Path) : Nat :=
  match p with
  | .segment => 0
  | .mailbox => 1
  | .window => 2
  | .carillon q => 3 + q.val
def pathCode (p : Path) : Nat := min 3 (pathNo p)

/-- The SPDM carrier of a path (R452). -/
def pathCarrier (p : Path) : Nat :=
  match p with
  | .segment => 1
  | .mailbox => 0
  | .window => 0
  | .carillon q => 2 + q.val

/-- A path carries a principal (R452, R453): the Job only while a kernel runs. -/
def State.pathCarries (s : State) (p : Path) (n : Nat) : Bool :=
  match p, n with
  | .segment, 4 => true
  | .segment, 1 => true
  | .segment, 2 => true
  | .mailbox, 3 => true
  | .mailbox, 1 => true
  | .mailbox, 2 => true
  | .window, 5 => true
  | .window, 6 => s.kern.kernels.any fun e => e.2.isSome
  | .carillon _, 7 => true
  | _, _ => false

/-- A frame outside a session that is acted on (R459). -/
def openFrame (p : Path) (f : Pdu) : Bool :=
  ((p = .segment && f.principal = 4) || (p = .mailbox && f.principal = 3)) && (f.op = 1#8 || f.op = 5#8 || f.op = 6#8)
    && f.items.all fun i => match itemEntry i with
      | some e => e.pub
      | none => false

/-- The key that an Owner frame is to be signed by: OWNER_KEY, or for a first claim the key being written (R488, R490). -/
def State.ownerSigner (s : State) (f : Pdu) : List Byte :=
  if !s.cust.ownerKey.isEmpty then s.cust.ownerKey
  else
    match f.items.find? fun i => f.op = 2#8 && i.index = 0x7000#16 && i.sub = 2#8 with
    | some i => i.value
    | none => []

/-- A frame that names Vendor or Owner carries a valid block (R453, R489, R490). -/
def State.authorised (s : State) (f : Pdu) : Bool :=
  if f.principal > 2 then true
  else
    let key := if f.principal = 1 then Config.vendorKey else s.ownerSigner f
    match f.auth with
    | none => false
    | some b =>
      b.gen = 1#4 && b.signer.toNat = f.principal && b.rsvZero && (f.principal = 1 || !key.isEmpty) && b.keyId = Config.sm3 key
        && Config.sm2Verify key b.sig (f.bytes.take (f.bytes.length - 64))

/-- What step 5 of R458 finds: a frame abort (answered under a key), the stored response, a session to open under a key, or a
request to act on in a session or outside one. -/
inductive Verdict where
  | abort (code : Nat) (key : List Byte)
  | again (resp : List Byte)
  | opens (key : List Byte)
  | acts (ses : Option SessionS)
  deriving DecidableEq, Repr

/-- The session of a path with an ID. -/
def DictS.session (d : DictS) (path : Nat) (id : W32) : Option SessionS := d.sessions.find? fun x => x.path = path && x.id = id

/-- The HMAC key of the session that an OPEN names: of the SPDM session with that ID on the path's carrier (R460); the runtime
window has none. -/
def State.openKey (s : State) (p : Path) (id : W32) : Option (List Byte) :=
  if p = .window then (if id = BitVec.allOnes 32 then some [] else none)
  else
    ((s.cust.spdm.get SpdmS.reset (pathCarrier p)).sessions.find? fun x => x.id = id).map fun x => Config.deriveKey x.secret 0

/-- The tag of a frame under a key (R460). -/
def tagGood (f : Pdu) (key : List Byte) : Bool := key.isEmpty || f.tag = Config.hmacSm3 key f.bytes

/-- Principal and block (R452, R453). -/
def State.principalAbort (s : State) (p : Path) (f : Pdu) : Nat :=
  firstAbort [(!s.pathCarries p f.principal, abNoRight), (!s.authorised f, abAuth)]

/-- Step 5 of R458 (R459 to R461). -/
def State.verdict (s : State) (p : Path) (f : Pdu) : Verdict :=
  if f.session = 0#32 then (if openFrame p f then .acts none else .abort abSession [])
  else
    match s.dict.session (pathNo p) f.session with
    | some x =>
      if !tagGood f x.key then .abort abAuth []
      else if f.seq = x.last && f.tag = x.lastTag then .again x.lastResp
      else if f.seq ≠ x.last + 1#32 || f.op = 7#8 then .abort abSequence x.key
      else
        let a := s.principalAbort p f
        if a ≠ abNone then .abort a x.key else .acts (some x)
    | none =>
      match s.openKey p f.session with
      | none => .abort abSession []
      | some key =>
        if f.op ≠ 7#8 then .abort abSession []
        else if !tagGood f key then .abort abAuth []
        else if f.seq ≠ 0#32 then .abort abSequence key
        else
          let a := s.principalAbort p f
          if a ≠ abNone then .abort a key else .opens key

/-! ### Sessions (R460 to R462) -/

/-- The sessions that a path may hold. -/
def pathLimit (path : Nat) : Nat := if path = 0 then 4 else if path = 1 then 2 else 1

/-- Replaces the session of the same path and ID. -/
def DictS.setSession (d : DictS) (x : SessionS) : DictS :=
  { d with sessions := d.sessions.map fun y => if y.path = x.path && y.id = x.id then x else y }

/-- A session ends. -/
def DictS.endSession (d : DictS) (path : Nat) (id : W32) : DictS :=
  { d with sessions := d.sessions.filter fun y => !(y.path = path && y.id = id) }

/-- A failed tag is counted; the sixteenth within a second, which is the draw's to say (assumption 18), closes the session. -/
def State.authFailed (s : State) (p : Path) (id : W32) : State :=
  let s1 := { s with tele := { s.tele with authFails := satInc32 s.tele.authFails } }
  match s.dict.session (pathNo p) id with
  | none => s1
  | some x =>
    if x.fails + 1 ≥ 16 && Config.freeChoice s.fresh 0 then
      State.drawn { s1 with dict := s1.dict.endSession (pathNo p) id }
    else State.drawn { s1 with dict := s1.dict.setSession { x with fails := x.fails + 1 } }

/-- A request accepted in a session: its SEQ, tag and response are stored; after the last SEQ the session closes (R461). -/
def State.requestDone (s : State) (ses : Option SessionS) (f : Pdu) (resp : List Byte) : State :=
  match ses with
  | none => s
  | some x =>
    if f.seq = BitVec.allOnes 32 then { s with dict := s.dict.endSession x.path x.id }
    else { s with dict := s.dict.setSession { x with last := f.seq, lastTag := f.tag, lastResp := resp } }

/-! ### The paths -/

/-- The Belfry is reached by a path: its firmware runs and the path carries frames. The window is read while BUSY. -/
def State.reached (s : State) (p : Path) : Bool :=
  s.firmwareRuns && (match p with
    | .segment => s.svc.onSegment
    | .mailbox => s.cxl.state = 1
    | .window => s.dict.busy
    | .carillon q => (s.port q).linked)

/-- A response goes out on its path (R417, R483): the reply's code is STATUS, else the frame's ABORT. -/
def State.sendBack (s : State) (p : Path) (code : W32) (resp : List Byte) : State :=
  match p with
  | .mailbox => s.mailbox code resp
  | .window => ({ s with dict := { s.dict with resp := resp, done := true, busy := false } }).route 6 |>.answer code resp
  | _ => s.answer code resp

/-- The ROM's answer: DISCOVER, and reads of the public identity entries, on the segment without a session (R493). -/
def State.romAnswers (s : State) (p : Path) (f : Pdu) : Bool :=
  s.svc.rom && s.svc.onSegment && p = .segment && f.session = 0#32 && openFrame p f && f.items.all fun i => i.index = 0x1000#16

/-- A request PDU reaches the Belfry with the operation that its row names (R458). A response that arrives, a broadcast of any other
operation than DISCOVER, and what no path brings change nothing (R454). -/
def State.frame (s : State) (p : Path) (f : Pdu) (op : Nat) (act : Option SessionS → List Byte → State) : State :=
  let rom := s.romAnswers p f
  if !(s.reached p || rom) || f.kind = 1#4 || f.kind = 2#4 || (f.op.toNat ≠ op && 1 ≤ f.op.toNat && f.op.toNat ≤ 8)
      || (f.broadcast && (f.op ≠ 6#8 || p ≠ .segment)) then s
  else
    let key := match s.dict.session (pathNo p) f.session with
      | some x => x.key
      | none => []
    match s.pduCheck f with
    | some st => s.sendBack p st (pduResponse f st 0 [] key)
    | none =>
      match s.verdict p f with
      | .abort c k => (s.when (c = abAuth && k.isEmpty && p ≠ .window) fun s => s.authFailed p f.session).sendBack p (BitVec.ofNat 32 c) (pduResponse f stOk c [] k)
      | .again r => s.sendBack p stOk r
      | .opens k => act none k
      | .acts ses => act ses key

/-- Answers a request that has been acted on, then stores the answer. -/
def State.finish (s : State) (p : Path) (f : Pdu) (ses : Option SessionS) (key body : List Byte) : State :=
  let r := pduResponse f stOk 0 body key
  (s.requestDone ses f r).sendBack p stOk r

/-! ### The operations (R467) -/

/-- READ: each item succeeds or aborts on its own. A stored flam mismatch found is counted (R13, R463). -/
def State.dictRead (s : State) (p : Path) (f : Pdu) : State :=
  s.frame p f 1 fun ses key =>
    let n := f.principal
    let body := (f.items.map fun i => if s.readAbort n i = abNone then s.valueItem n i none else abortItem i (s.readAbort n i)).flatten
    let s1 := f.items.foldl (fun t i => if s.readAbort n i = abFlam then t.flamMismatch else t) s
    s1.finish p f ses key body

/-- A request that commits all of its items or none (R470): with one failure the rest answer GROUP_FAILED, and refused writes and
releases are logged (R472); else one commit, the answers, then the effects. -/
def State.dictCommit (s : State) (p : Path) (f : Pdu) (ses : Option SessionS) (key : List Byte) (logged : Bool)
    (check : Item → Nat) (apply : State → Item → State) : State :=
  let n := f.principal
  if f.items.isEmpty then s.finish p f ses key []
  else
    let abs := f.items.map fun i => (i, check i)
    if abs.any fun a => a.2 ≠ abNone then
      let each := abs.map fun a => (a.1, if a.2 = abNone then abGroup else a.2)
      let s1 := each.foldl (fun s a =>
        if logged then s.logRefusal a.1.index.toNat a.1.sub.toNat n a.2 (pathCode p) a.1.value else s) s
      s1.finish p f ses key (each.map fun a => abortItem a.1 a.2).flatten
    else
      let s1 := f.items.foldl apply { s with dict := s.dict.commit }
      let body := (f.items.map fun i => s1.valueItem n i (some s1.dict.csn)).flatten
      State.takesEffect (s1.finish p f ses key body) logged f.items

/-- WRITE (R463, R469, R470, R488). -/
def State.dictWrite (s : State) (p : Path) (f : Pdu) : State :=
  s.frame p f 2 fun ses key =>
    s.dictCommit p f ses key true (s.writeAbort f.items f.principal)
      fun s i => State.ownerWrites { s with dict := s.dict.write f.principal i } i

/-- FREEZE (R471). -/
def State.dictFreeze (s : State) (p : Path) (f : Pdu) : State :=
  s.frame p f 3 fun ses key =>
    s.dictCommit p f ses key false (s.freezeAbort f.principal) fun s i => { s with dict := s.dict.freeze i }

/-- RELEASE (R469). -/
def State.dictRelease (s : State) (p : Path) (f : Pdu) : State :=
  s.frame p f 4 fun ses key =>
    s.dictCommit p f ses key true (s.releaseAbort f.principal) fun s i => { s with dict := s.dict.release f.principal i }

/-- DESCRIBE. -/
def State.dictDescribe (s : State) (p : Path) (f : Pdu) : State :=
  s.frame p f 5 fun ses key => s.finish p f ses key (f.items.map (s.describeItem f.principal)).flatten

/-- DISCOVER: the entries 0x1000:0x01 to 0x1000:0x07. -/
def State.dictDiscover (s : State) (p : Path) (f : Pdu) : State :=
  s.frame p f 6 fun ses key =>
    let at_ := fun (k : Nat) => ({ index := 0x1000#16, sub := BitVec.ofNat 8 k, type := 0#8, vlen := 0, rsv := 0#16, value := [],
                                   padZero := true } : Item)
    s.finish p f ses key ((List.range 7).map fun k => s.valueItem f.principal (at_ (k + 1)) none).flatten

/-- OPEN (R460, R462): level 1 is the only one; a path holds no more than its sessions. -/
def State.dictOpen (s : State) (p : Path) (f : Pdu) : State :=
  s.frame p f 7 fun _ key =>
    let n := pathNo p
    if (s.dict.sessions.filter fun x => x.path = n).length ≥ pathLimit n then
      s.sendBack p (BitVec.ofNat 32 abBusy) (pduResponse f stOk abBusy [] key)
    else if w64Bits f.body 1 1 = 0 then s.sendBack p stVersion (pduResponse f stVersion 0 [] key)
    else
      let r := pduResponse f stOk 0 (bytesOfNat 8 1) key
      let x : SessionS := { path := n, id := f.session, key := key, last := 0#32, lastTag := f.tag, lastResp := r, fails := 0 }
      State.sendBack { s with dict := { s.dict with sessions := s.dict.sessions ++ [x] } } p stOk r

/-- CLOSE (R462). -/
def State.dictClose (s : State) (p : Path) (f : Pdu) : State :=
  s.frame p f 8 fun ses key =>
    let s1 := s.finish p f ses key []
    match ses with
    | none => s1
    | some x => { s1 with dict := s1.dict.endSession x.path x.id }

def execDictRead (p : Path) (f : Pdu) (s : State) : Host.Outcome State Fault Refusal := .next (s.dictRead p f)
def execDictWrite (p : Path) (f : Pdu) (s : State) : Host.Outcome State Fault Refusal := .next (s.dictWrite p f)
def execDictFreeze (p : Path) (f : Pdu) (s : State) : Host.Outcome State Fault Refusal := .next (s.dictFreeze p f)
def execDictRelease (p : Path) (f : Pdu) (s : State) : Host.Outcome State Fault Refusal := .next (s.dictRelease p f)
def execDictDescribe (p : Path) (f : Pdu) (s : State) : Host.Outcome State Fault Refusal := .next (s.dictDescribe p f)
def execDictDiscover (p : Path) (f : Pdu) (s : State) : Host.Outcome State Fault Refusal := .next (s.dictDiscover p f)
def execDictOpen (p : Path) (f : Pdu) (s : State) : Host.Outcome State Fault Refusal := .next (s.dictOpen p f)
def execDictClose (p : Path) (f : Pdu) (s : State) : Host.Outcome State Fault Refusal := .next (s.dictClose p f)

/-- MYDAR_REQUEST (R417): one request frame on the CXL mailbox. -/
def execMydarRequest (f : Pdu) (s : State) : Host.Outcome State Fault Refusal :=
  .next (match f.op.toNat with
    | 2 => s.dictWrite .mailbox f
    | 3 => s.dictFreeze .mailbox f
    | 4 => s.dictRelease .mailbox f
    | 5 => s.dictDescribe .mailbox f
    | 6 => s.dictDiscover .mailbox f
    | 7 => s.dictOpen .mailbox f
    | 8 => s.dictClose .mailbox f
    | _ => s.dictRead .mailbox f)

/-- SESSION_IDLE_TIMEOUT (R462). -/
def execSessionIdleTimeout (p : Path) (session : W32) (s : State) : Host.Outcome State Fault Refusal :=
  .next { s with dict := s.dict.endSession (pathNo p) session }

/-- FRAME_DROP (R454): a frame with another EtherType, a VLAN tag or a bad frame check sequence is dropped and counted. -/
def execFrameDrop (_why : FrameFault) (s : State) : Host.Outcome State Fault Refusal :=
  .next (if s.firmwareRuns || s.svc.rom then { s with tele := { s.tele with frameDrops := satInc32 s.tele.frameDrops } } else s)

/-! ### Telemetry coarsening (R508) -/

/-- A mean rounded down, 0 over an empty window; and rounded down to a multiple. -/
def meanOf (sum n : Nat) : Nat := if n = 0 then 0 else sum / n
def downTo (n m : Nat) : Nat := n / m * m

/-- A temperature field: the mean rounded down to a whole °C, in units of 1/8 °C. -/
def meanTemp (sum : Int) (n : Nat) : Nat := (tempField (if n = 0 then 0 else Int.fdiv (Int.fdiv sum n) 8 * 8)).toNat

/-- The coarse values of a window that closes (R508): POINT and BOOST_EN as they stand, the other status bits as met; means and the
lowest limit to 10 W, 0.1 V and whole °C. -/
def State.coarseOf (s : State) : CoarseS :=
  let w := s.window
  let now := s.kettle.statusWord.toNat
  { status := BitVec.ofNat 32 (now % 16 + w.bits / 16 * 16)
    budget := BitVec.ofNat 32 (downTo w.limit 10 % 2 ^ 16 + downTo (meanOf w.est w.cycles) 10 % 2 ^ 16 * 2 ^ 16)
    input := BitVec.ofNat 32 (downTo (meanOf w.volt w.reports) 10 % 2 ^ 16 + downTo (meanOf w.watts w.reports) 10 % 2 ^ 16 * 2 ^ 16)
    temps := (List.range 6).foldl (fun (m : Map W32) d =>
      m.set 0#32 d (BitVec.ofNat 32 (meanTemp (w.logic.get 0 d) w.cycles + meanTemp (w.dram.get 0 d) w.cycles * 2 ^ 16))) []
    csn := s.dict.csn }

/-- TELEMETRY_WINDOW (R508): the window closes and the next begins. -/
def execTelemetryWindow (s : State) : Host.Outcome State Fault Refusal :=
  .next (if s.firmwareRuns then { s with coarse := s.coarseOf, window := WindowS.empty } else s)

end Sys2Proof.Machine
end

