-- ==== Sys2Proof/Machine/Tocsin.lean ====
section
/-! DEFINITION. The Tocsin queue (R232 to R235, R238): posting, the consumer index, enabling, the overflow marker. -/

namespace Sys2Proof.Machine

/-- The queue stops: accepted fault and error records are held again, ahead of newer ones; informational ones are dropped
(R235). -/
def TocsinS.disable (q : TocsinS) : TocsinS :=
  (q.accepted.filter fun r => r.cls = 2).foldl TocsinS.drop
    { q with en := false, accepted := [], held := (q.accepted.filter fun r => r.cls ≠ 2) ++ q.held }

/-- A write of an entry or of the marker failed (R235). -/
def TocsinS.writeFailed (q : TocsinS) : TocsinS := { q.disable with werr := true, needBase := true }

/-- The overflow marker (R238): its header is that of the latest dropped record, zero until there is one. -/
def TocsinS.marker (q : TocsinS) : List Byte :=
  (match q.lastDrop with
    | none => bytesOfNat 4 0x31 ++ bytesOfNat 16 0
    | some r => bytesOfNat 4 0x31 ++ bytesOfNat 4 r.seq.toNat ++ bytesOfNat 8 r.tally.toNat
        ++ bytesOfNat 4 (r.die + 256 * r.kind + 65536 * r.unit))
    ++ bytesOfNat 4 q.dropAll.toNat ++ bytesOfNat 4 q.dropHint.toNat ++ bytesOfNat 4 q.dropCe.toNat
    ++ bytesOfNat 4 q.dropScope.toNat ++ bytesOfNat 4 q.dropInbound.toNat ++ bytesOfNat 4 q.dropOther.toNat ++ bytesOfNat 20 0

/-- The address of entry 4,095, where the overflow marker stands (R232). -/
def TocsinS.markerAddr (q : TocsinS) : Nat := 0x3FFC0 + q.base

/-- The unit writes the marker (R235, R238). -/
def State.writeMarker (s : State) : State :=
  let r := s.writeMem s.tocsin.markerAddr s.tocsin.marker 4
  { r.st with tocsin := if r.status = stOk then { r.st.tocsin with markerDue := false } else r.st.tocsin.writeFailed }

/-- Held records enter the queue as entries free (R234). -/
def TocsinS.refill (q : TocsinS) : TocsinS := q.admitHeld q.held.length

/-- EN goes from 0 to 1 (R235). -/
def State.tqStart (s : State) : State :=
  let s1 := State.writeMarker { s with tocsin := { s.tocsin with en := true, prod := 0, cons := 0 } }
  { s1 with tocsin := s1.tocsin.refill }

/-- A write of TQ_CTRL (R234, R235, R249): reserved bits and a RESERVE above 4,094 discard it. -/
def State.writeTqCtrl (s : State) (v : W32) : State :=
  let n := v.toNat
  if bitsOf n 28 4 ≠ 0 || bitsOf n 3 13 ≠ 0 || bitsOf n 16 12 > 4094 then s.discard
  else
    let en : Bool := bitsOf n 0 1 = 1
    let q := { s.tocsin with reserve := bitsOf n 16 12, ie := bitsOf n 1 1 = 1, werr := s.tocsin.werr && bitsOf n 2 1 = 0 }
    if en && !q.en then State.tqStart { s with tocsin := q }
    else if !en && q.en then { s with tocsin := q.disable }
    else { s with tocsin := q }

/-- TQ_ENABLE (R235): the write of TQ_CTRL that sets EN. -/
def execTqEnable (v : W32) (s : State) : Host.Outcome State Fault Refusal := .next (s.writeTqCtrl v)

/-- TQ_CONS (R233): it only advances, by at most the occupancy. -/
def execTqConsWrite (v : W32) (s : State) : Host.Outcome State Fault Refusal :=
  let q := s.tocsin
  .next (if v.toNat ≥ 8190 || (v.toNat + 8190 - q.cons) % 8190 > q.occupancy then s.discard
    else { s with tocsin := TocsinS.refill { q with cons := v.toNat } })

/-- TQ_BASE (R232, R235): near memory, aligned to 256 KiB, written while EN is 0. -/
def State.writeTqBase (s : State) (v : W64) : State :=
  if s.tocsin.en || v.toNat % 2 ^ 18 ≠ 0 || v.toNat ≥ 2 ^ 48 || regionOf v.toNat ≠ .near then s.discard
  else { s with tocsin := { s.tocsin with base := v.toNat, needBase := false } }

/-- TOCSIN_POST (R233 to R236): accepted record `i`, the first of its source, is written and TQ_PROD advances. -/
def execTocsinPost (i : Nat) (s : State) : Host.Outcome State Fault Refusal :=
  let q := s.tocsin
  match q.accepted[i]? with
  | none => .next s
  | some r =>
    .next (if q.needBase || (q.accepted.take i).any fun e => e.src = r.src then s
      else
        let w := s.writeMem (q.base + 64 * (q.prod % 4095)) r.bytes 4
        if w.status ≠ stOk then { w.st with tocsin := w.st.tocsin.writeFailed }
        else
          State.when { w.st with tocsin := { w.st.tocsin with prod := (q.prod + 1) % 8190,
                                                              accepted := w.st.tocsin.accepted.eraseIdx i } }
            q.ie fun s => s.route 0)

/-- OVERFLOW_MARKER_REWRITE (R238): after a drop the marker is written again. -/
def execOverflowMarkerRewrite (s : State) : Host.Outcome State Fault Refusal :=
  .next (if s.tocsin.markerDue && s.tocsin.en && !s.tocsin.needBase then s.writeMarker else s)

end Sys2Proof.Machine
end

