-- ==== Sys2Proof/Machine/Regs.lean ====
section
/-! DEFINITION. Writes of the device registers (R18, R19, R52 and the register tables of every chapter), the cores' loads and stores,
and requests that time out (R196, R197). Blocks are numbered as in Machine/Reads.lean. -/

namespace Sys2Proof.Machine

/-- The state that a meaning of another command leaves. -/
def State.after (s : State) (f : State → Host.Outcome State Fault Refusal) : State :=
  match f s with
  | .next t => t
  | .fault _ => s
  | .refused _ => s

/-! ### Reserved fields (R19) -/

/-- The reserved bits of the A-die registers (R40, R100, R167, R178, R193). -/
def tileRsv (o : Nat) : Nat :=
  match o with
  | 0x0000 => 0xFE008008
  | 0x0008 => 0x3F803F803F803F80
  | 0x0010 => 0x3F803F803F803F80
  | 0x0018 => 0xFFFFFF80
  | 0x1000 => 0xFF800000FFFFFFF8
  | 0x1010 => 0xE0C0C0C0
  | 0x1028 => 0xFF800000FF000000
  | _ => 0
def ctrlRsv (o : Nat) : Nat :=
  match o with
  | 0x0000 => 0xFFFFF000
  | 0x0004 => 0xFF000000
  | 0x0020 => 0xFFFF00000000003E
  | _ => 0
def dieRsv (o : Nat) : Nat := if o = 0 then 0xFFFFFF08 else 0
def aRsv (o : Nat) : Nat :=
  match element o 0x00400000 0x1000 4, element o 0x00800000 64 4096, element o 0x01000000 0x100000 64 with
  | some (_, p), _, _ => ctrlRsv p
  | _, some (_, p), _ => if p = 0x20 then 0xFF00F8C0 else 0
  | _, _, some (_, p) => tileRsv p
  | _, _, _ => dieRsv o

/-- The reserved bits of the memory-system, translation, Cadence and core registers (R214, R249, R348, R391). -/
def memRsv (o : Nat) : Nat := if o = 0x0018 then 0xFFFE else if 0x0020 ≤ o && o < 0x0050 then 0xFFF80000FFF80000 else 0
def xlatRsv (o : Nat) : Nat :=
  match o with
  | 0x0000 => 0xFFC00000000003F0
  | 0x0008 => 0xFFFFFFFE000000FC
  | 0x0020 => 0xFFFFFFFE
  | 0x0028 => 0xFFFFFFFFFC000000
  | 0x0060 => 0xFFFF000000000000
  | 0x0068 => 0xFFFFE000
  | 0x006C => 0xFFFFE000
  | 0x0070 => 0xF000FFF8
  | 0x0078 => 0xFFFF000000000000
  | 0x0080 => 0xFFFFE000
  | 0x0084 => 0xFFFFE000
  | 0x0088 => 0xFFFFF0FE
  | 0x0090 => 0xFF000000
  | _ => if 0x0400 ≤ o && o < 0x0800 then 0xFF000000 else 0
def cadRsv (o : Nat) : Nat :=
  match o with
  | 0x0024 => 0xFF00FFE0
  | 0x0080 => 0xFFFF000000000000
  | 0x0088 => 0xFFFFF800
  | 0x008C => 0xFFFFF800
  | 0x0090 => 0xFFFFF0FE
  | _ => if 0x1000 ≤ o && o < 0x1600 then 0xFF00FFF8 else 0
def coreRsv (o : Nat) : Nat :=
  match o with
  | 0x0000 => 0xFFFF000000000000
  | 0x0008 => 0xFFFFF800
  | 0x000C => 0xFFFFF800
  | 0x0010 => 0xFFFFF0FE
  | 0x0014 => 0x3800
  | 0x0A00 => 0xFFFFFE00
  | 0x0A04 => 0xFFFFFE00
  | _ =>
    if 0x0100 ≤ o && o < 0x0300 then 0x7FFFFFFFFF00F080
    else
      match element o 0x1000 0x20 96 with
      | some (_, 0) => 0xFFFF000F00FFFFF0
      | _ => 0
def cRsv (o : Nat) : Nat :=
  match element o 0x00410000 0x1000 8 with
  | some (_, p) => ctrlRsv p
  | none =>
    match o / 0x10000 with
    | 0x00 => dieRsv o
    | 0x40 => memRsv (o % 0x10000)
    | 0x50 => xlatRsv (o % 0x10000)
    | 0x60 => cadRsv (o % 0x10000)
    | 0x70 => coreRsv (o % 0x10000)
    | _ => 0

/-- The reserved bits of the Belfry's registers (R451, R483). -/
def bRsv (o : Nat) : Nat :=
  if o = 0x00101004 then 0xFFFC
  else if o = 0x00200000 then 0xFFFFFC00
  else if 0x00200060 ≤ o && o < 0x00200080 then 0xFFFFFFF8
  else if 0x00201000 ≤ o && o < 0x00201400 then 0xF00000FC
  else if o < 0x00100000 then dieRsv o
  else 0

/-- The reserved bits of the Carillon, Hoop and CXL registers (R243, R244, R315, R370, R398, R401). -/
def portRsv (o : Nat) : Nat :=
  match o with
  | 0x0000 => 0xFFFFE080
  | 0x0004 => 0xFFFFFFF0
  | 0x0180 => 0xFFFFFFE0
  | _ => if 0x0100 ≤ o && o < 0x0180 then 0xFFF00000FFF00000 else 0
def pealRsv (o : Nat) : Nat :=
  match o with
  | 0x00 => 0xFFFF000000000000
  | 0x08 => 0xFFFFF800
  | 0x0C => 0xFFFFF800
  | 0x10 => 0xFFFFF0FE
  | _ => 0
def netRsv (o : Nat) : Nat :=
  match o with
  | 0x00110040 => 0xFFFFFF00
  | 0x00110048 => 0xFFFFFC00
  | 0x00120008 => 0x7FF80000
  | 0x0012000C => 0xFFFFFF00
  | _ =>
    match element o 0 0x10000 8, element o 0x00080000 0x100 16 with
    | some (_, p), _ => portRsv p
    | _, some (_, p) => pealRsv p
    | _, _ => 0
def hoopRsv (o : Nat) : Nat :=
  if o = 0x00080000 then 0xFFF00000
  else
    match element o 0 0x10000 8 with
    | some (_, 0x0000) => 0xFFFFF8C8
    | some (_, 0x0004) => 0xFFFE00E0
    | some (_, 0x0008) => 0xFE00FE00
    | _ => 0
def streamRsv (o : Nat) : Nat :=
  match o with
  | 0x00 => 0xFFFFF00000000000
  | 0x08 => 0xFFFFF00000000000
  | 0x10 => 0xC0000000
  | 0x18 => 0xFFFC
  | 0x1C => 0xFFFFE000
  | 0x20 => 0xFFFFE000
  | 0x24 => 0xFFFFE000
  | 0x28 => 0xFFFFE000
  | 0x30 => 0xFF08
  | _ => 0
def hostRsv (o : Nat) : Nat :=
  match o with
  | 0x0000 => 0x00E0CFF0
  | 0x0008 => 0xFFFFF00000000000
  | 0x0010 => 0xFFFFFE00
  | 0x0014 => 0xFFFFFE00
  | 0x0018 => 0xFFFFFFFC
  | 0x002C => 0xE0
  | 0x0030 => 0xFFFF00003FFFFE00
  | 0x0038 => 0xFFFF00003FFFFE00
  | _ => if o < 0x1000 then 0 else if o % 16 = 0 then 0xFFFF000000000FF8 else 0xFFFFFFFE00000000
def xRsv (o : Nat) : Nat :=
  match element o 0x20000 0x2000 1, element o 0x40000 0x40 256 with
  | some (_, p), _ => hostRsv p
  | _, some (_, p) => streamRsv p
  | _, _ => 0

/-- The reserved bits of the register at an offset of a block (R18). -/
def rsvMask (b o : Nat) : Nat :=
  match b with
  | 4 => cRsv o
  | 5 => bRsv o
  | 6 => netRsv o
  | 7 => hoopRsv o
  | 8 => xRsv o
  | _ => aRsv o

/-! ### Rings (R241, R303, R329, R389) -/

/-- A ring base: in near or deep memory, aligned, written while the ring is disabled. -/
def Ring.putBase (r : Ring) (grain v : Nat) : Option Ring :=
  if r.en || v % grain ≠ 0 || !inMem v 1 then none else some { r with base := v }

/-- A tail index, modulo twice the ring. -/
def Ring.putTail (r : Ring) (v : Nat) : Option Ring := if v < 2 * 2 ^ r.log2 then some { r with tail := v } else none

/-- A ring's CTRL: LOG2 in range and kept while the ring is enabled; EN going to 1 resets both indices. -/
def Ring.putCtrl (r : Ring) (top v : Nat) : Option Ring :=
  let n := bitsOf v 8 4
  let en : Bool := bitsOf v 0 1 = 1
  if n < 4 || n > top || (r.en && n ≠ r.log2) then none
  else if en && !r.en then some { r with log2 := n, en := true, head := 0, tail := 0 }
  else some { r with log2 := n, en := en }

/-- A write of a ring's registers at their places: base, tail, control; HEAD is read-only. A broken rule discards it. -/
def State.putRing (s : State) (r : Ring) (what grain top v : Nat) (put : Ring → State) : State :=
  let x := match what with
    | 0 => r.putBase grain v
    | 1 => r.putTail v
    | _ => r.putCtrl top v
  match x with
  | none => s.discard
  | some y => put y

/-! ### Writes by block -/

/-- A write of a bell's registers (R165, R167): RING is a release of the core that writes it. -/
def State.putBell (s : State) (who : Option CoreId) (b o v : Nat) : State :=
  let id : BellId := Fin.ofNat 16384 b
  match o with
  | 0x10 => s.batch (bellDie id.val) [.set id (BitVec.ofNat 64 v)]
  | 0x18 =>
    match who with
    | none => s
    | some c => s.batch (bellDie id.val) [.coreRing c id (BitVec.ofNat 64 v)]
  | 0x20 => s.setBell id.val { s.bell id.val with diag := bitsOf v 3 1 = 1 }
  | _ => s

/-- A write of a tile's registers (R84, R100). -/
def State.putTileReg (s : State) (t : TileId) (o v : Nat) : State :=
  match o with
  | 0x0018 => s.setTile t { s.tile t with xflags := (s.tile t).xflags &&& ~~~ (BitVec.ofNat 7 v) }
  | 0x0020 => s.after (execSrSeedWrite t (BitVec.ofNat 64 v))
  | _ => s

/-- A write of a controller's registers (R190, R192, R193). -/
def State.putCtrlReg (s : State) (c o v : Nat) : State :=
  let k := s.mem.ctrl c
  match o with
  | 0x0004 => { s with mem := s.mem.setCtrl c { k with period := BitVec.ofNat 8 v } }
  | 0x0028 => { s with mem := s.mem.setCtrl c { k with ceThresh := BitVec.ofNat 32 v } }
  | _ => s

def State.putA (s : State) (who : Option CoreId) (d o v : Nat) : State :=
  match element o 0x00400000 0x1000 4, element o 0x00800000 64 4096, element o 0x01000000 0x100000 64 with
  | some (j, p), _, _ => s.putCtrlReg (4 * d + j) p v
  | _, some (b, p), _ => s.putBell who (4096 * d + b) p v
  | _, _, some (t, p) => s.putTileReg (Fin.ofNat 256 (64 * d + t)) p v
  | _, _, _ => s

/-- A write of the memory-system registers (R183, R214). -/
def State.putMemReg (s : State) (o v : Nat) : State :=
  match o with
  | 0x0000 => s.after (execQmodeWrite false (BitVec.ofNat 64 v))
  | 0x0008 => s.after (execQmodeWrite true (BitVec.ofNat 64 v))
  | _ =>
    match element o 0x0020 8 6 with
    | some (p, 0) => s.after (execPoolWrite (Fin.ofNat 6 p) (BitVec.ofNat 64 v))
    | _ => s

/-- A write of the translation, Tocsin and migration registers (R229, R235, R241, R247, R249). -/
def State.putXlatReg (s : State) (o v : Nat) : State :=
  let x := s.xlat
  let w := BitVec.ofNat 64 v
  let h := BitVec.ofNat 32 v
  let mq := fun (r : Ring) => { s with mig := { s.mig with mq := r } }
  match o with
  | 0x0000 => if v % 16 = 0 || v % 16 = 2 then { s with xlat := { x with ddtp := w } } else s.discard
  | 0x0008 => s.after (execIoinval w)
  | 0x0010 => { s with xlat := { x with ioBase := w } }
  | 0x0018 => { s with xlat := { x with ioLen := w } }
  | 0x0028 => { s with xlat := { x with unmapCtx := w } }
  | 0x0030 => { s with xlat := { x with unmapBase := w } }
  | 0x0038 => { s with xlat := { x with unmapLen := w } }
  | 0x0040 => s.after (execUnmapGo h)
  | 0x0058 => s.after (execFaultResp w)
  | 0x0060 => s.writeTqBase w
  | 0x006C => s.after (execTqConsWrite h)
  | 0x0070 => s.writeTqCtrl h
  | 0x0078 => s.putRing s.mig.mq 0 64 12 v mq
  | 0x0084 => s.putRing s.mig.mq 1 64 12 v mq
  | 0x0088 => s.putRing s.mig.mq 2 64 12 v mq
  | 0x0090 => { s with mig := { s.mig with thresh := bitsOf v 0 16, decay := bitsOf v 16 8 } }
  | _ => s

/-- A write of the Cadence and dispatcher registers (R329, R337, R338, R341, R348). -/
def State.putCadReg (s : State) (o v : Nat) : State :=
  let c := s.net.cad
  let w := BitVec.ofNat 64 v
  let uq := fun (r : Ring) => s.setCad { c with uq := r }
  match o with
  | 0x0010 => s.setCad { c with setVal := w }
  | 0x0018 => s.after (execCadSetC w)
  | 0x0020 => s.after (execCadAdv (BitVec.ofNat 32 v))
  | 0x0024 => s.setCad { c with err := c.err && bitsOf v 4 1 = 0 }
  | 0x0028 => s.after (execCadCommit (BitVec.ofNat 32 v))
  | 0x0080 => s.putRing c.uq 0 128 10 v uq
  | 0x008C => s.putRing c.uq 1 128 10 v uq
  | 0x0090 => s.putRing c.uq 2 128 10 v uq
  | _ =>
    match element o 0x0100 8 16 with
    | some (i, 0) => s.setCad { c with stage := c.stage.set 0#64 i w }
    | _ => s

/-- A write of MSI_ROUTE[i] (R382, R391): a route that is enabled names its core again after the core's return (R383). -/
def State.putRoute (s : State) (i v : Nat) : State :=
  let core := bitsOf v 0 7
  if i ≥ 11 || bitsOf v 8 4 > 8 || core > 95 then s.discard
  else
    let s1 := { s with cores := { s.cores with routes := s.cores.routes.set 0#64 i (BitVec.ofNat 64 v) } }
    s1.when (bitsOf v 63 1 = 1) fun s =>
      let c : CoreId := Fin.ofNat 96 core
      s.setCore c { s.core c with routeBlocked := false }

/-- Time as a core reads it (R375): the C-die tally, which has run on (assumption 2). -/
def State.readTime (s : State) : State × Nat :=
  let q := s.tocsin.tick s.fresh 4
  ({ s with tocsin := q, fresh := s.fresh + 1 }, (q.tally 4).toNat)

/-- MTIMECMP, with MTIP as the comparison then stands (R384). -/
def State.putMtimecmp (s : State) (c : CoreId) (v : Nat) : State :=
  let r := s.readTime
  r.1.setCore c { r.1.core c with mtimecmp := BitVec.ofNat 64 v, mtip := v ≤ r.2 }

/-- A write of the core registers (R387, R389, R391). -/
def State.putCoreReg (s : State) (o v : Nat) : State :=
  let n := s.kern
  let lq := fun (r : Ring) => { s with kern := { n with lq := r } }
  match o with
  | 0x0000 => s.putRing n.lq 0 64 10 v lq
  | 0x000C => s.putRing n.lq 1 64 10 v lq
  | 0x0010 => s.putRing n.lq 2 64 10 v lq
  | 0x0014 => { s with kern := { n with lqNoMatch := n.lqNoMatch && bitsOf v 15 1 = 0, lqSkip := n.lqSkip && bitsOf v 14 1 = 0 } }
  | 0x0A00 => s.after (execHostMsgFree (BitVec.ofNat 32 v))
  | 0x0A04 => s.after (execRtMsgOffer (BitVec.ofNat 32 v))
  | _ =>
    match element o 0x0100 8 64, element o 0x0900 8 32, element o 0x1000 0x20 96 with
    | some (i, 0), _, _ => s.putRoute i v
    | _, some (i, 0), _ => { s with cores := { s.cores with rtMsg := s.cores.rtMsg.setRun 0#8 (8 * i) (bytesOfNat 8 v) } }
    | _, _, some (c, 0x08) => s.after (execCoreStart (Fin.ofNat 96 c) (BitVec.ofNat 64 v))
    | _, _, some (c, 0x10) => s.putMtimecmp (Fin.ofNat 96 c) v
    | _, _, _ => s

/-- A write to an interrupt file sets an identity pending (R381, R391): little-endian at offset 0, big-endian at offset 4, as AIA
lays the file out. -/
def State.putImsic (s : State) (core file o v : Nat) : State :=
  let id := if o = 0 then v else natOfBytes (bytesOfNat 4 v).reverse
  if id < 256 then { s with cores := s.cores.deliver core file id } else s

def State.putC (s : State) (o v : Nat) : State :=
  match element o 0x00410000 0x1000 8, imsicFile o with
  | some (k, p), _ => s.putCtrlReg (16 + k) p v
  | _, some (c, f, p) => s.putImsic c f p v
  | _, _ =>
    match o / 0x10000 with
    | 0x40 => s.putMemReg (o % 0x10000) v
    | 0x50 => s.putXlatReg (o % 0x10000) v
    | 0x60 => s.putCadReg (o % 0x10000) v
    | 0x70 => s.putCoreReg (o % 0x10000) v
    | _ => s

/-- A write of the Belfry's registers (R434, R483, R523). -/
def State.putB (s : State) (o v : Nat) : State :=
  let d := s.dict
  match o with
  | 0x00101000 => if d.busy then s.discard else { s with dict := { d with busy := true } }
  | 0x00101004 => { s with dict := { d with done := d.done && bitsOf v 1 1 = 0 } }
  | 0x00200018 => s.after (execKettleRoll (BitVec.ofNat 64 v))
  | _ =>
    match element o 0x00100000 8 192, element o 0x00110000 8 8192 with
    | some (i, 0), _ => { s with dict := { d with req := d.req.setRun 0#8 (8 * i) (bytesOfNat 8 v) } }
    | _, some (i, 0) => s.setSvc { s.svc with stage := s.svc.stage.setRun 0#8 (8 * i) (bytesOfNat 8 v) }
    | _, _ => s

/-- A write of a Peal slot's ring (R303, R315). -/
def State.putPealReg (s : State) (k : PealSlot) (o v : Nat) : State :=
  let x := s.peal k
  let put := fun (r : Ring) => s.setPeal k { x with ring := r }
  match o with
  | 0x00 => s.putRing x.ring 0 64 10 v put
  | 0x0C => s.putRing x.ring 1 64 10 v put
  | 0x10 => s.putRing x.ring 2 64 10 v put
  | _ => s

/-- A write of the Carillon ports block (R244, R311, R315). -/
def State.putNet (s : State) (o v : Nat) : State :=
  let h := BitVec.ofNat 32 v
  match o with
  | 0x00110040 => s.after (execWinCommit h)
  | 0x00110048 => { s with win := { s.win with err := s.win.err && bitsOf v 9 1 = 0 } }
  | 0x0012000C => { s with net := { s.net with qthresh := v % 256 } }
  | 0x00120010 => if v < 100 || v > 100000 then s.discard else { s with net := { s.net with e2e := h } }
  | 0x00120014 => { s with net := { s.net with pealMs := h } }
  | _ =>
    match element o 0 0x10000 8, element o 0x00080000 0x100 16, element o 0x00110000 8 8 with
    | some (p, 0x0004), _, _ => s.writePortCtrl (Fin.ofNat 8 p) h
    | some (p, 0x0180), _, _ => s.after (execQclear (Fin.ofNat 8 p) h)
    | _, some (k, q), _ => s.putPealReg (Fin.ofNat 16 k) q v
    | _, _, some (i, 0) => { s with win := { s.win with stage := s.win.stage.set 0#64 i (BitVec.ofNat 64 v) } }
    | _, _, _ => s

/-- A write of the Hoop block (R370). -/
def State.putHoop (s : State) (o v : Nat) : State :=
  match element o 0 0x10000 8 with
  | some (l, 0x0004) => s.writeLinkCtrl (Fin.ofNat 8 l) (BitVec.ofNat 32 v)
  | _ => s

/-- FQ_BASE (R398): a multiple of 16 KiB, written while EN is 0. -/
def State.writeFqBase (s : State) (v : Nat) : State :=
  if s.cxl.fqEn || v % 2 ^ 14 ≠ 0 then s.discard else s.setCxl { s.cxl with fqBase := v }

/-- A write of the host registers (R398, R399, R415, R420). -/
def State.putHostReg (s : State) (o v : Nat) : State :=
  let w := BitVec.ofNat 64 v
  match o with
  | 0x0008 => s.writeFqBase v
  | 0x0014 => s.after (execFqConsWrite (BitVec.ofNat 32 v))
  | 0x0018 => s.writeFqCtrl (BitVec.ofNat 32 v)
  | 0x0020 => s.after (execFqResp w)
  | 0x0030 => s.writeHdmMap 0 w
  | 0x0038 => s.writeHdmMap 1 w
  | _ =>
    match element o 0x1000 8 512 with
    | some (i, 0) => s.writeRegion (i / 2) (i % 2) w
    | _ => s

/-- CTRL of a stream: the ring sizes change only while CLOSED (R401). -/
def State.writeStreamCtrl (s : State) (k : StreamId) (v : Nat) : State :=
  let x := s.stream k
  let slog2 := bitsOf v 0 4
  let clog2 := bitsOf v 4 4
  if x.state ≠ 0 && (x.slog2 ≠ slog2 || x.clog2 ≠ clog2) then s.discard
  else s.setStream k { x with slog2 := slog2, clog2 := clog2, cvec := bitsOf v 8 11, evec := bitsOf v 19 11 }

/-- A register written only while its stream is CLOSED (R401). -/
def State.whileClosed (s : State) (k : StreamId) (f : StreamS → StreamS) : State :=
  if (s.stream k).state = 0 then s.setStream k (f (s.stream k)) else s.discard

/-- A write of a stream's registers (R401 to R406). -/
def State.putStreamReg (s : State) (k : StreamId) (o v : Nat) : State :=
  let x := s.stream k
  match o with
  | 0x00 => s.whileClosed k fun x => { x with sqBase := v }
  | 0x08 => s.whileClosed k fun x => { x with cqBase := v }
  | 0x10 => s.writeStreamCtrl k v
  | 0x14 => s.whileClosed k fun x => { x with ctx := BitVec.ofNat 32 v }
  | 0x18 => s.writeCmd k (BitVec.ofNat 32 v)
  | 0x1C => s.after (execDoorbell k (BitVec.ofNat 32 v))
  | 0x28 => if v < 2 * 2 ^ x.clog2 then s.setStream k { x with cqHead := v } else s.discard
  | _ => s

def State.putX (s : State) (o v : Nat) : State :=
  match element o 0x20000 0x2000 1, element o 0x40000 0x40 256 with
  | some (_, p), _ => s.putHostReg p v
  | _, some (k, p) => s.putStreamReg (Fin.ofNat 256 k) p v
  | _, _ => s

/-! ### Any device register -/

/-- A write of the whole register that begins at an offset: a nonzero reserved field discards it whole (R19). -/
def State.putReg (s : State) (who : Option CoreId) (b o v : Nat) : State :=
  if v &&& rsvMask b o ≠ 0 then s.discard
  else
    match b with
    | 4 => s.putC o v
    | 5 => s.putB o v
    | 6 => s.putNet o v
    | 7 => s.putHoop o v
    | 8 => s.putX o v
    | _ => s.putA who b o v

/-- A write of 4 B (R52): a register, a half of one with its other half kept, or a reserved offset, where a nonzero value is
counted. -/
def State.putWord (s : State) (who : Option CoreId) (b o v : Nat) : State :=
  match s.reg b o with
  | some (8, old) => s.putReg who b o (v + old / 2 ^ 32 * 2 ^ 32)
  | some _ => s.putReg who b o v
  | none =>
    let low := if o % 8 = 4 then s.reg b (o - 4) else none
    match low with
    | some (8, old) => s.putReg who b (o - 4) (old % 2 ^ 32 + v * 2 ^ 32)
    | _ => if v = 0 then s else s.discard

/-- An aligned write of 4 B or 8 B: 8 B over two registers act as two writes, the lower first (R52). -/
def State.regWrite (s : State) (who : Option CoreId) (b o size v : Nat) : State :=
  if size = 4 then s.putWord who b o (v % 2 ^ 32)
  else
    match s.reg b o with
    | some (8, _) => s.putReg who b o v
    | _ => (s.putWord who b o (v % 2 ^ 32)).putWord who b (o + 4) (v / 2 ^ 32)

/-! ### Registers outside the device range -/

/-- The custom and timer CSRs of a core (R375, R378, R384), its hpm counters with their events, where a value not in the table reads
back as 0 (R376, R449), and the claims of its machine and supervisor files, which clear the lowest
pending identity (R383). -/
def State.writeCsr (s : State) (c : CoreId) (csr : Nat) (v : W64) : State :=
  let k := s.core c
  let claim := fun (file : Nat) =>
    match (List.range 256).find? fun id => s.cores.imsic.get false (imsicKey c.val file id) with
    | none => s
    | some id => { s with cores := { s.cores with imsic := s.cores.imsic.set false (imsicKey c.val file id) false } }
  match csr with
  | 0x5C0 => s.setCore c { k with crBase := v }
  | 0x5C1 => s.setCore c { k with crLen := v }
  | 0x5C2 => s.rangeStart c v.toNat
  | 0x14D =>
    let r := s.readTime
    r.1.setCore c { k with stimecmp := v, stip := v.toNat ≤ r.2 }
  | 0x24D =>
    let r := s.readTime
    r.1.setCore c { k with vstimecmp := v, vstip := v.toNat ≤ (r.2 + k.htimedelta.toNat) % 2 ^ 64 }
  | 0x605 =>
    let r := s.readTime
    r.1.setCore c { k with htimedelta := v, vstip := k.vstimecmp.toNat ≤ (r.2 + v.toNat) % 2 ^ 64 }
  | 0x35C => claim 0
  | 0x15C => claim 1
  | _ =>
    let n := csr % 32
    if 0x323 ≤ csr && csr < 0x340 then s.setCore c { k with hpmEvent := k.hpmEvent.set 0 n (if v.toNat < 10 then v.toNat else 0) }
    else if 0xB03 ≤ csr && csr < 0xB20 then s.setCore c { k with hpmCount := k.hpmCount.set 0#64 n v }
    else s

/-- A word of the MSI-X table (R396, R419): an entry that is unmasked sends what it holds pending. -/
def State.writeMsix (s : State) (o : Nat) (v : W32) : State :=
  let m := s.cxl.msix
  let e := o / 16
  if o ≥ 0x8000 || o % 4 ≠ 0 then s
  else if o % 16 = 12 then
    let masked : Bool := v.getLsbD 0
    let y := { m with words := m.words.set 0#32 (4 * e + 3) v, mask := m.mask.set true e masked }
    if !masked && m.pba.get false e then
      (s.setCxl { s.cxl with msix := { y with pba := m.pba.set false e false } }).vector e
    else s.setCxl { s.cxl with msix := y }
  else s.setCxl { s.cxl with msix := { m with words := m.words.set 0#32 (4 * e + o % 16 / 4) v } }

/-- A write through BAR0 (R397): as the device register of the same name, but that the runtime's fields ignore it. -/
def State.writeBar0 (s : State) (o size v : Nat) : State :=
  let runtimes : Bool := (0x20030 ≤ o && o < 0x20040) || (0x21000 ≤ o && o < 0x22000)
  if runtimes || o ≥ 2 ^ 20 || o < 0x20000 || o % size ≠ 0 then s else s.regWrite none 8 o size v

/-! ### The commands -/

/-- Where REGISTER_WRITE finds registers that have no address in the device range: the CSRs of core c at 2^48 + 4096c, the MSI-X
table at 2^49 with the function's enable behind it, BAR0 at 3 * 2^48. -/
def csrSpace : Nat := 2 ^ 48
def bar2Space : Nat := 2 ^ 49
def bar0Space : Nat := 3 * 2 ^ 48

/-- REGISTER_WRITE (R18, R19, R52): of the Belfry or the runtime, or of the host through its BARs. -/
def execRegisterWrite (addr : Nat) (wide : Bool) (v : W64) (s : State) : Host.Outcome State Fault Refusal :=
  let size := if wide then 8 else 4
  let n := if wide then v.toNat else v.toNat % 2 ^ 32
  .next (match element addr csrSpace 4096 96, element addr bar2Space 0x20000 1, element addr bar0Space (2 ^ 20) 1 with
    | some (c, csr), _, _ => s.writeCsr (Fin.ofNat 96 c) csr v
    | _, some (_, o), _ =>
      if o = 0x10000 then s.setCxl { s.cxl with msix := { s.cxl.msix with on := v.getLsbD 0 } }
      else s.writeMsix o (BitVec.ofNat 32 n)
    | _, _, some (_, o) => s.writeBar0 o size n
    | _, _, _ =>
      match blockOf addr with
      | some (b, o) => if o % size = 0 then s.regWrite none b o size n else s
      | none => s)

/-- A core access to the device range that may be made: naturally aligned, 4 B or 8 B, in a block that is not reserved (R51, R52). -/
def deviceAccess (a n : Nat) : Option (Nat × Nat) := if (n = 4 || n = 8) && a % n = 0 then blockOf a else none

/-- CORE_LOAD (R51, R52, R196, R374): a load or fetch of a running core, of memory or of a device register. -/
def execCoreLoad (c : CoreId) (addr size : Nat) (fetch hint : Bool) (victims : List Victim) (s : State) :
    Host.Outcome State Fault Refusal :=
  .next (if (s.core c).state ≠ 1 || size = 0 then s
    else if regionOf addr = .device then
      match if fetch then none else deviceAccess addr size with
      | none => s.coreTrap c (if fetch then .fetchFault else .loadFault)
      | some (b, o) =>
        let s1 := s.beforeRead b o
        s1.coreValue c (bytesOfNat size (s1.regRead b o size))
    else s.coreLoadMem c addr size fetch hint victims)

/-- CORE_STORE (R51, R52, R196, R374): a store of a running core, to memory or to a device register. -/
def execCoreStore (c : CoreId) (addr : Nat) (bytes : List Byte) (hint : Bool) (victims : List Victim) (s : State) :
    Host.Outcome State Fault Refusal :=
  .next (if (s.core c).state ≠ 1 || bytes.isEmpty then s
    else if regionOf addr = .device then
      match deviceAccess addr bytes.length with
      | none => s.coreTrap c .storeFault
      | some (b, o) =>
        let s1 := s.setCore c { s.core c with trap := none }
        s1.regWrite (some c) b o bytes.length (natOfBytes bytes)
    else s.coreStoreMem c addr bytes hint victims)

/-! ### Timeouts (R196, R197, R545) -/

/-- The lot of a unit whose access timed out fails; where its program has ended, a stream write had begun, and the range of that
write is undefined (R335). -/
def State.lotTimeout (s : State) (u : Ctrl) : State :=
  let c := s.net.cad
  match (c.unit u).cur with
  | none => s.lotFail u stTierTimeout
  | some r =>
    match c.job r.lot.job with
    | none => s.lotFail u stTierTimeout
    | some j =>
      let k := ((List.range 8).find? fun k => r.written ≤ k && !(r.stores.get [] k).isEmpty).getD 0
      (if r.pc < j.words.length then s else s.undefinedStream u j.d r.lot.lot k (r.stores.get [] k)).lotFail u stTierTimeout

/-- A stream command whose access timed out ends with 0x0302, the destination of its write undefined (R197, R408, R409). -/
def State.cmdTimeout (s : State) (k : StreamId) (i : Nat) : State :=
  match (s.stream k).cmds[i]? with
  | none => s
  | some c =>
    if c.op = 3 && c.phase = .translated then (s.copySpoil c).cmdDone k i c stTierTimeout
    else if (c.op = 1 || c.op = 2) && c.phase = .accepted && s.mayStart k i && c.len ≠ 0 then
      (s.undefinedVirt 4 (s.stream k).ctx c.operand.toNat c.len).cmdDone k i c stTierTimeout
    else s

/-- LOWER_TIER_TIMEOUT (R196, R197, R545): the request ends, and its requester learns of it as R196 lays down. -/
def execLowerTierTimeout (a : Agent) (addr : Nat) (s : State) : Host.Outcome State Fault Refusal :=
  let s1 := { s with mem := s.mem.timeOut a addr }
  .next (match a with
    | .descriptor t i => s1.descTimeout t i
    | .core c => s1.coreTimeout c addr
    | .cache => { s1 with cache := s1.cache.keepForRetry addr }
    | .clapper u => s1.lotTimeout u
    | .peal p => s1.pealFail p stTierTimeout
    | .port _ => s1.answer stTierTimeout []
    | .cxlMem => s1.answer stTierTimeout []
    | .migration => s1.migTimeout
    | .stream k i => s1.cmdTimeout k i)

end Sys2Proof.Machine
end

