-- ==== Sys2Proof/Machine/Dispatch.lean ====
section
/-! DEFINITION. The dispatcher: one arm per command, each one call of its meaning. -/

namespace Sys2Proof.Machine

def exec (i : Instr) (s : State) : Host.Outcome State Fault Refusal :=
  match i with
  | .instructionFetch t => Sys2Proof.Machine.execInstructionFetch t s
  | .nop t k => Sys2Proof.Machine.execNop t k s
  | .halt t k => Sys2Proof.Machine.execHalt t k s
  | .sadd t k sd sa sb => Sys2Proof.Machine.execSadd t k sd sa sb s
  | .ssub t k sd sa sb => Sys2Proof.Machine.execSsub t k sd sa sb s
  | .sand t k sd sa sb => Sys2Proof.Machine.execSand t k sd sa sb s
  | .sor t k sd sa sb => Sys2Proof.Machine.execSor t k sd sa sb s
  | .sxor t k sd sa sb => Sys2Proof.Machine.execSxor t k sd sa sb s
  | .sshl t k sd sa sb => Sys2Proof.Machine.execSshl t k sd sa sb s
  | .sshr t k sd sa sb => Sys2Proof.Machine.execSshr t k sd sa sb s
  | .smul t k sd sa sb => Sys2Proof.Machine.execSmul t k sd sa sb s
  | .saddi t k sd sa imm => Sys2Proof.Machine.execSaddi t k sd sa imm s
  | .sli t k sd imm => Sys2Proof.Machine.execSli t k sd imm s
  | .shi t k sd imm => Sys2Proof.Machine.execShi t k sd imm s
  | .sld t k sd sa imm => Sys2Proof.Machine.execSld t k sd sa imm s
  | .sst t k sa sb imm => Sys2Proof.Machine.execSst t k sa sb imm s
  | .beq t k sa sb imm => Sys2Proof.Machine.execBeq t k sa sb imm s
  | .bne t k sa sb imm => Sys2Proof.Machine.execBne t k sa sb imm s
  | .blt t k sa sb imm => Sys2Proof.Machine.execBlt t k sa sb imm s
  | .bltu t k sa sb imm => Sys2Proof.Machine.execBltu t k sa sb imm s
  | .jmp t k imm => Sys2Proof.Machine.execJmp t k imm s
  | .ring t k bell scope qmask n => Sys2Proof.Machine.execRing t k bell scope qmask n s
  | .ringFire t => Sys2Proof.Machine.execRingFire t s
  | .wait t k bell scope treg => Sys2Proof.Machine.execWait t k bell scope treg s
  | .fence t k scope qmask => Sys2Proof.Machine.execFence t k scope qmask s
  | .flags t k sd clear => Sys2Proof.Machine.execFlags t k sd clear s
  | .tally t k sd => Sys2Proof.Machine.execTally t k sd s
  | .mma t parity => Sys2Proof.Machine.execMma t parity s
  | .drain t parity => Sys2Proof.Machine.execDrain t parity s
  | .sclr t => Sys2Proof.Machine.execSclr t s
  | .ssto t => Sys2Proof.Machine.execSsto t s
  | .seed t => Sys2Proof.Machine.execSeed t s
  | .vadd t => Sys2Proof.Machine.execVadd t s
  | .vsub t => Sys2Proof.Machine.execVsub t s
  | .vmul t => Sys2Proof.Machine.execVmul t s
  | .vfma t => Sys2Proof.Machine.execVfma t s
  | .vfnma t => Sys2Proof.Machine.execVfnma t s
  | .vmin t => Sys2Proof.Machine.execVmin t s
  | .vmax t => Sys2Proof.Machine.execVmax t s
  | .vabs t => Sys2Proof.Machine.execVabs t s
  | .vneg t => Sys2Proof.Machine.execVneg t s
  | .vdiv t => Sys2Proof.Machine.execVdiv t s
  | .vsqrt t => Sys2Proof.Machine.execVsqrt t s
  | .vcmplt t => Sys2Proof.Machine.execVcmplt t s
  | .vcmpeq t => Sys2Proof.Machine.execVcmpeq t s
  | .vclass t => Sys2Proof.Machine.execVclass t s
  | .vsel t => Sys2Proof.Machine.execVsel t s
  | .vbcast t => Sys2Proof.Machine.execVbcast t s
  | .vld t => Sys2Proof.Machine.execVld t s
  | .vst t => Sys2Proof.Machine.execVst t s
  | .vrsum t => Sys2Proof.Machine.execVrsum t s
  | .vrmax t => Sys2Proof.Machine.execVrmax t s
  | .viadd t => Sys2Proof.Machine.execViadd t s
  | .visub t => Sys2Proof.Machine.execVisub t s
  | .vimul t => Sys2Proof.Machine.execVimul t s
  | .vand t => Sys2Proof.Machine.execVand t s
  | .vor t => Sys2Proof.Machine.execVor t s
  | .vxor t => Sys2Proof.Machine.execVxor t s
  | .vshl t => Sys2Proof.Machine.execVshl t s
  | .vshr t => Sys2Proof.Machine.execVshr t s
  | .vshra t => Sys2Proof.Machine.execVshra t s
  | .vcvtif t => Sys2Proof.Machine.execVcvtif t s
  | .vcvtfi t => Sys2Proof.Machine.execVcvtfi t s
  | .vmov t => Sys2Proof.Machine.execVmov t s
  | .vcnt u msk => Sys2Proof.Machine.execVcnt u msk s
  | .clapperVld u vd msk stream => Sys2Proof.Machine.execClapperVld u vd msk stream s
  | .clapperVst u vc msk stream rtz => Sys2Proof.Machine.execClapperVst u vc msk stream rtz s
  | .clapperVbcast u vd msk sa => Sys2Proof.Machine.execClapperVbcast u vd msk sa s
  | .instructionCompletion t e idx => Sys2Proof.Machine.execInstructionCompletion t e idx s
  | .msub t => Sys2Proof.Machine.execMsub t s
  | .descriptorAccept t => Sys2Proof.Machine.execDescriptorAccept t s
  | .copy t d => Sys2Proof.Machine.execCopy t d s
  | .transpose t d => Sys2Proof.Machine.execTranspose t d s
  | .fill t d => Sys2Proof.Machine.execFill t d s
  | .inline t d => Sys2Proof.Machine.execInline t d s
  | .put t d => Sys2Proof.Machine.execPut t d s
  | .get t d => Sys2Proof.Machine.execGet t d s
  | .descriptorComplete t d => Sys2Proof.Machine.execDescriptorComplete t d s
  | .set b v => Sys2Proof.Machine.execSet b v s
  | .ringRegisterWrite c b n => Sys2Proof.Machine.execRingRegisterWrite c b n s
  | .bellBatch die ops => Sys2Proof.Machine.execBellBatch die ops s
  | .launch prefTiles prefBells => Sys2Proof.Machine.execLaunch prefTiles prefBells s
  | .terminate => Sys2Proof.Machine.execTerminate s
  | .tileStop t => Sys2Proof.Machine.execTileStop t s
  | .tileProgramEnd t => Sys2Proof.Machine.execTileProgramEnd t s
  | .completionRecord kid => Sys2Proof.Machine.execCompletionRecord kid s
  | .tileClearEnd t => Sys2Proof.Machine.execTileClearEnd t s
  | .arraySelfTest t found => Sys2Proof.Machine.execArraySelfTest t found s
  | .srSeedWrite t v => Sys2Proof.Machine.execSrSeedWrite t v s
  | .memoryRead a addr len => Sys2Proof.Machine.execMemoryRead a addr len s
  | .memoryWrite a addr bytes => Sys2Proof.Machine.execMemoryWrite a addr bytes s
  | .patrolScrub c => Sys2Proof.Machine.execPatrolScrub c s
  | .ceInnerCollect c n => Sys2Proof.Machine.execCeInnerCollect c n s
  | .lowerTierTimeout a addr => Sys2Proof.Machine.execLowerTierTimeout a addr s
  | .lateResponseDiscard a addr => Sys2Proof.Machine.execLateResponseDiscard a addr s
  | .writebackRetry line => Sys2Proof.Machine.execWritebackRetry line s
  | .coreLoad c addr size fetch hint victims => Sys2Proof.Machine.execCoreLoad c addr size fetch hint victims s
  | .coreStore c addr bytes hint victims => Sys2Proof.Machine.execCoreStore c addr bytes hint victims s
  | .coreAmo c op addr wide v cmp => Sys2Proof.Machine.execCoreAmo c op addr wide v cmp s
  | .cacheSweepComplete => Sys2Proof.Machine.execCacheSweepComplete s
  | .qmodeWrite hi v => Sys2Proof.Machine.execQmodeWrite hi v s
  | .poolWrite pool v => Sys2Proof.Machine.execPoolWrite pool v s
  | .stackFailure c => Sys2Proof.Machine.execStackFailure c s
  | .stackInitComplete c passed => Sys2Proof.Machine.execStackInitComplete c passed s
  | .faultResp v => Sys2Proof.Machine.execFaultResp v s
  | .fqResp v => Sys2Proof.Machine.execFqResp v s
  | .ioinval v => Sys2Proof.Machine.execIoinval v s
  | .ioinvalComplete => Sys2Proof.Machine.execIoinvalComplete s
  | .tocsinPost d => Sys2Proof.Machine.execTocsinPost d s
  | .tqConsWrite v => Sys2Proof.Machine.execTqConsWrite v s
  | .tqEnable v => Sys2Proof.Machine.execTqEnable v s
  | .overflowMarkerRewrite => Sys2Proof.Machine.execOverflowMarkerRewrite s
  | .forwardQueuePost d => Sys2Proof.Machine.execForwardQueuePost d s
  | .counterDecay => Sys2Proof.Machine.execCounterDecay s
  | .migrationCopy => Sys2Proof.Machine.execMigrationCopy s
  | .migrationZero => Sys2Proof.Machine.execMigrationZero s
  | .migrationAdvise => Sys2Proof.Machine.execMigrationAdvise s
  | .winCommit v => Sys2Proof.Machine.execWinCommit v s
  | .unmapGo v => Sys2Proof.Machine.execUnmapGo v s
  | .unmapPhaseOneComplete => Sys2Proof.Machine.execUnmapPhaseOneComplete s
  | .unmapDrained => Sys2Proof.Machine.execUnmapDrained s
  | .coreStart c entry => Sys2Proof.Machine.execCoreStart c entry s
  | .cboClean c addr => Sys2Proof.Machine.execCboClean c addr s
  | .cboFlush c addr => Sys2Proof.Machine.execCboFlush c addr s
  | .cboInval c addr => Sys2Proof.Machine.execCboInval c addr s
  | .cleanByRange c => Sys2Proof.Machine.execCleanByRange c s
  | .invalidateByRange c => Sys2Proof.Machine.execInvalidateByRange c s
  | .rangeOperationComplete c => Sys2Proof.Machine.execRangeOperationComplete c s
  | .machineTimerInterrupt c => Sys2Proof.Machine.execMachineTimerInterrupt c s
  | .hostMsgFree v => Sys2Proof.Machine.execHostMsgFree v s
  | .rtMsgOffer v => Sys2Proof.Machine.execRtMsgOffer v s
  | .monitorEvaluation u margin inRange reading => Sys2Proof.Machine.execMonitorEvaluation u margin inRange reading s
  | .trimSave => Sys2Proof.Machine.execTrimSave s
  | .streamOpen u0 v => Sys2Proof.Machine.execStreamOpen u0 v s
  | .streamClose u0 v => Sys2Proof.Machine.execStreamClose u0 v s
  | .doorbell u0 v => Sys2Proof.Machine.execDoorbell u0 v s
  | .slotRead u0 => Sys2Proof.Machine.execSlotRead u0 s
  | .slotReread u0 => Sys2Proof.Machine.execSlotReread u0 s
  | .streamNop u0 d => Sys2Proof.Machine.execStreamNop u0 d s
  | .streamInline u0 d => Sys2Proof.Machine.execStreamInline u0 d s
  | .inlineChain u0 d => Sys2Proof.Machine.execInlineChain u0 d s
  | .streamCopy u0 d => Sys2Proof.Machine.execStreamCopy u0 d s
  | .streamLaunch u0 d prefTiles prefBells => Sys2Proof.Machine.execStreamLaunch u0 d prefTiles prefBells s
  | .streamTerminate u0 d => Sys2Proof.Machine.execStreamTerminate u0 d s
  | .streamRing u0 d => Sys2Proof.Machine.execStreamRing u0 d s
  | .streamWait u0 d => Sys2Proof.Machine.execStreamWait u0 d s
  | .streamFence u0 d => Sys2Proof.Machine.execStreamFence u0 d s
  | .roll u0 d => Sys2Proof.Machine.execRoll u0 d s
  | .completionEntry u0 d => Sys2Proof.Machine.execCompletionEntry u0 d s
  | .apertureWrite off bytes requester => Sys2Proof.Machine.execApertureWrite off bytes requester s
  | .apertureRead off len requester => Sys2Proof.Machine.execApertureRead off len requester s
  | .cxlMemRead addr len => Sys2Proof.Machine.execCxlMemRead addr len s
  | .cxlMemWrite addr bytes => Sys2Proof.Machine.execCxlMemWrite addr bytes s
  | .hdmCommit d req => Sys2Proof.Machine.execHdmCommit d req s
  | .hostSnoop kind addr => Sys2Proof.Machine.execHostSnoop kind addr s
  | .getSupportedLogs => Sys2Proof.Machine.execGetSupportedLogs s
  | .getLog => Sys2Proof.Machine.execGetLog s
  | .mydarRequest f => Sys2Proof.Machine.execMydarRequest f s
  | .runtimeSend bytes => Sys2Proof.Machine.execRuntimeSend bytes s
  | .runtimeRecv => Sys2Proof.Machine.execRuntimeRecv s
  | .linkRecovery => Sys2Proof.Machine.execLinkRecovery s
  | .hostLoss cause => Sys2Proof.Machine.execHostLoss cause s
  | .hostLinkUp rate => Sys2Proof.Machine.execHostLinkUp rate s
  | .kettleCycle r => Sys2Proof.Machine.execKettleCycle r s
  | .kettleRoll v => Sys2Proof.Machine.execKettleRoll v s
  | .currentLimitAlert die amps => Sys2Proof.Machine.execCurrentLimitAlert die amps s
  | .inputReport volt10mV watts => Sys2Proof.Machine.execInputReport volt10mV watts s
  | .railTargetReached => Sys2Proof.Machine.execRailTargetReached s
  | .dictRead p f => Sys2Proof.Machine.execDictRead p f s
  | .dictWrite p f => Sys2Proof.Machine.execDictWrite p f s
  | .dictFreeze p f => Sys2Proof.Machine.execDictFreeze p f s
  | .dictRelease p f => Sys2Proof.Machine.execDictRelease p f s
  | .dictDescribe p f => Sys2Proof.Machine.execDictDescribe p f s
  | .dictDiscover p f => Sys2Proof.Machine.execDictDiscover p f s
  | .dictOpen p f => Sys2Proof.Machine.execDictOpen p f s
  | .dictClose p f => Sys2Proof.Machine.execDictClose p f s
  | .sessionIdleTimeout p session => Sys2Proof.Machine.execSessionIdleTimeout p session s
  | .frameDrop why => Sys2Proof.Machine.execFrameDrop why s
  | .sealedComplete => Sys2Proof.Machine.execSealedComplete s
  | .telemetryWindow => Sys2Proof.Machine.execTelemetryWindow s
  | .getVersion p => Sys2Proof.Machine.execGetVersion p s
  | .getCapabilities p => Sys2Proof.Machine.execGetCapabilities p s
  | .negotiateAlgorithms p common => Sys2Proof.Machine.execNegotiateAlgorithms p common s
  | .getDigests p => Sys2Proof.Machine.execGetDigests p s
  | .getCertificate p slot offset len => Sys2Proof.Machine.execGetCertificate p slot offset len s
  | .challenge p nonce => Sys2Proof.Machine.execChallenge p nonce s
  | .getMeasurements p nonce => Sys2Proof.Machine.execGetMeasurements p nonce s
  | .keyExchange p exchange => Sys2Proof.Machine.execKeyExchange p exchange s
  | .finish p valid bothSides => Sys2Proof.Machine.execFinish p valid bothSides s
  | .heartbeat p => Sys2Proof.Machine.execHeartbeat p s
  | .keyUpdate p => Sys2Proof.Machine.execKeyUpdate p s
  | .endSession p => Sys2Proof.Machine.execEndSession p s
  | .romBegin slot len => Sys2Proof.Machine.execRomBegin slot len s
  | .romData offset bytes => Sys2Proof.Machine.execRomData offset bytes s
  | .romEnd => Sys2Proof.Machine.execRomEnd s
  | .powerOn volt10mV => Sys2Proof.Machine.execPowerOn volt10mV s
  | .resetN low micros => Sys2Proof.Machine.execResetN low micros s
  | .enBreak micros => Sys2Proof.Machine.execEnBreak micros s
  | .latchOpened bay => Sys2Proof.Machine.execLatchOpened bay s
  | .bayInserted bay => Sys2Proof.Machine.execBayInserted bay s
  | .actNone who => Sys2Proof.Machine.execActNone who s
  | .coldReset who => Sys2Proof.Machine.execColdReset who s
  | .bringupDone who => Sys2Proof.Machine.execBringupDone who s
  | .takeOut who u force => Sys2Proof.Machine.execTakeOut who u force s
  | .bringBack who u => Sys2Proof.Machine.execBringBack who u s
  | .retest who t => Sys2Proof.Machine.execRetest who t s
  | .dieReset who die => Sys2Proof.Machine.execDieReset who die s
  | .writeSlot who slot chunk len16 => Sys2Proof.Machine.execWriteSlot who slot chunk len16 s
  | .debugOpen who set => Sys2Proof.Machine.execDebugOpen who set s
  | .debugClose who => Sys2Proof.Machine.execDebugClose who s
  | .unitOutOfService u => Sys2Proof.Machine.execUnitOutOfService u s
  | .reintegration u passed => Sys2Proof.Machine.execReintegration u passed s
  | .portEnable p v => Sys2Proof.Machine.execPortEnable p v s
  | .portDisable p v => Sys2Proof.Machine.execPortDisable p v s
  | .widthRequest p v => Sys2Proof.Machine.execWidthRequest p v s
  | .widthLapse p => Sys2Proof.Machine.execWidthLapse p s
  | .portBringup p probe => Sys2Proof.Machine.execPortBringup p probe s
  | .neighbourRecheck p => Sys2Proof.Machine.execNeighbourRecheck p s
  | .coordinateCheck p => Sys2Proof.Machine.execCoordinateCheck p s
  | .linkHeartbeatTimeout p => Sys2Proof.Machine.execLinkHeartbeatTimeout p s
  | .flitDiscard p f => Sys2Proof.Machine.execFlitDiscard p f s
  | .linkReplay p ackseq => Sys2Proof.Machine.execLinkReplay p ackseq s
  | .caps p m => Sys2Proof.Machine.execCaps p m s
  | .width p half => Sys2Proof.Machine.execWidth p half s
  | .key p => Sys2Proof.Machine.execKey p s
  | .spdm p m => Sys2Proof.Machine.execSpdm p m s
  | .rekey p tx => Sys2Proof.Machine.execRekey p tx s
  | .putData p m => Sys2Proof.Machine.execPutData p m s
  | .getReq p m => Sys2Proof.Machine.execGetReq p m s
  | .remoteRing p m => Sys2Proof.Machine.execRemoteRing p m s
  | .putAck p m => Sys2Proof.Machine.execPutAck p m s
  | .getData p m => Sys2Proof.Machine.execGetData p m s
  | .nack p m => Sys2Proof.Machine.execNack p m s
  | .peal p m => Sys2Proof.Machine.execPeal p m s
  | .messageTimeout p slot => Sys2Proof.Machine.execMessageTimeout p slot s
  | .slotEpochAdvance p slot => Sys2Proof.Machine.execSlotEpochAdvance p slot s
  | .violationHalving => Sys2Proof.Machine.execViolationHalving s
  | .qclear p v => Sys2Proof.Machine.execQclear p v s
  | .rs u0 => Sys2Proof.Machine.execRs u0 s
  | .ag u0 => Sys2Proof.Machine.execAg u0 s
  | .ar u0 => Sys2Proof.Machine.execAr u0 s
  | .pealTimeout u0 => Sys2Proof.Machine.execPealTimeout u0 s
  | .pealDescriptorComplete u0 => Sys2Proof.Machine.execPealDescriptorComplete u0 s
  | .pealBind u0 => Sys2Proof.Machine.execPealBind u0 s
  | .lotHandover u0 lot => Sys2Proof.Machine.execLotHandover u0 lot s
  | .jobAccept => Sys2Proof.Machine.execJobAccept s
  | .lotRun u => Sys2Proof.Machine.execLotRun u s
  | .jobComplete j => Sys2Proof.Machine.execJobComplete j s
  | .cadAdv v => Sys2Proof.Machine.execCadAdv v s
  | .cadSetC v => Sys2Proof.Machine.execCadSetC v s
  | .cadCommit v => Sys2Proof.Machine.execCadCommit v s
  | .cadenceDelivery => Sys2Proof.Machine.execCadenceDelivery s
  | .hoopPacket l rev p => Sys2Proof.Machine.execHoopPacket l rev p s
  | .linkControl l rev p => Sys2Proof.Machine.execLinkControl l rev p s
  | .linkControlSend l rev => Sys2Proof.Machine.execLinkControlSend l rev s
  | .retrain l => Sys2Proof.Machine.execRetrain l s
  | .trainingComplete l f => Sys2Proof.Machine.execTrainingComplete l f s
  | .registerWrite addr wide v => Sys2Proof.Machine.execRegisterWrite addr wide v s
  | .linkReturnToL0 rate => Sys2Proof.Machine.execLinkReturnToL0 rate s
  | .supervisorTimerInterrupt c virt => Sys2Proof.Machine.execSupervisorTimerInterrupt c virt s
  | .idleFlit p f => Sys2Proof.Machine.execIdleFlit p f s
  | .fqConsWrite v => Sys2Proof.Machine.execFqConsWrite v s
  | .fqEnable v => Sys2Proof.Machine.execFqEnable v s
  | .migrationDescriptorComplete => Sys2Proof.Machine.execMigrationDescriptorComplete s
  | .writeSlotEnded ok => Sys2Proof.Machine.execWriteSlotEnded ok s
  | .doeDiscovery index => Sys2Proof.Machine.execDoeDiscovery index s
  | .ideKm activate key integrityFault => Sys2Proof.Machine.execIdeKm activate key integrityFault s
  | .enTied millis => Sys2Proof.Machine.execEnTied millis s

end Sys2Proof.Machine
end

