-- ==== Sys2Proof/WellFormed.lean ====
section
/-! DEFINITION. Well-formed commands: what a sender's interface lets through before the block sees it. An operand outside
these bounds cannot be carried by the bus, register or frame that carries the command. -/

namespace Sys2Proof

/-- One request at a home reads or writes bytes of one 128 B line (R196, R198). -/
def memSpan (addr len : Nat) : Bool := 0 < len && len ≤ 128 && addr / 128 = (addr + len - 1) / 128

/-- A core access of 1, 2, 4, 8 or 16 B at any alignment (R256, R374). -/
def coreSpan (addr size : Nat) : Bool :=
  (size = 1 || size = 2 || size = 4 || size = 8 || size = 16) && addr < 2 ^ 56

/-- The lines evicted by one access are different lines (R202). -/
def victimsOk (vs : List Victim) : Bool := (vs.map Victim.line).Nodup

/-- The bell is one of a die's own 4,096 (R27). -/
def bellOfDie (die : ADie) (b : BellId) : Bool := b.val / 4096 = die.val

/-- A batch holds the operations of one home (R259); the bell of a posted RING is the tile's own to name. -/
def BellOp.onDie (die : ADie) (o : BellOp) : Bool :=
  match o with
  | .set b _ => bellOfDie die b
  | .coreRing _ b _ => bellOfDie die b
  | .tileRing _ => true

/-- The widths and rates at which the CXL link comes to L0 (R392). -/
def LinkRate.ok (r : LinkRate) : Bool :=
  (r.lanes = 16 || r.lanes = 8 || r.lanes = 4) && (r.gts = 32 || r.gts = 16 || r.gts = 8)

/-- A message's fields fit their places (R276), and its payload fits its flits (R277). -/
def Msg.ok (m : Msg) : Bool := m.cont < 32 && m.len < 2 ^ 16 && m.payload.length ≤ 192 + 224 * m.cont

/-- The fields of a frame fit their places (R455, R456): its tag is there whole or not at all, and its bytes with the tag are what
was received. -/
def Item.ok (i : Item) : Bool := i.vlen < 2 ^ 16 && i.value.length = i.vlen
def Pdu.ok (f : Pdu) : Bool :=
  f.len < 2 ^ 16 && f.count < 2 ^ 8 && f.principal < 2 ^ 8 && (f.tag.length = 0 || f.tag.length = 32) && f.items.all Item.ok
    && f.bytes.length + f.tag.length = f.received

/-- What Kettle reads names each unit once, and the ratio of rail to input power lies above 0 and at most at 1 (R430). -/
def KettleIn.ok (r : KettleIn) : Bool :=
  0 < r.eta && r.eta ≤ 1000 && (r.tileBeats.map Prod.fst).Nodup && (r.clapBeats.map Prod.fst).Nodup
    && (r.dieEstimate.map Prod.fst).Nodup && r.alerts.Nodup && (r.logic.map Prod.fst).Nodup && (r.dram.map Prod.fst).Nodup

/-- The operands of a command fit the places that carry them. -/
def Instr.wf (i : Instr) : Bool :=
  match i with
  | .instructionFetch _ => true
  | .nop _ _ => true
  | .halt _ _ => true
  | .sadd _ _ _ _ _ => true
  | .ssub _ _ _ _ _ => true
  | .sand _ _ _ _ _ => true
  | .sor _ _ _ _ _ => true
  | .sxor _ _ _ _ _ => true
  | .sshl _ _ _ _ _ => true
  | .sshr _ _ _ _ _ => true
  | .smul _ _ _ _ _ => true
  | .saddi _ _ _ _ _ => true
  | .sli _ _ _ _ => true
  | .shi _ _ _ _ => true
  | .sld _ _ _ _ _ => true
  | .sst _ _ _ _ _ => true
  | .beq _ _ _ _ _ => true
  | .bne _ _ _ _ _ => true
  | .blt _ _ _ _ _ => true
  | .bltu _ _ _ _ _ => true
  | .jmp _ _ _ => true
  | .ring _ _ _ _ _ _ => true
  | .ringFire _ => true
  | .wait _ _ _ _ _ => true
  | .fence _ _ _ _ => true
  | .flags _ _ _ _ => true
  | .tally _ _ _ => true
  | .mma _ _ => true
  | .drain _ _ => true
  | .sclr _ => true
  | .ssto _ => true
  | .seed _ => true
  | .vadd _ => true
  | .vsub _ => true
  | .vmul _ => true
  | .vfma _ => true
  | .vfnma _ => true
  | .vmin _ => true
  | .vmax _ => true
  | .vabs _ => true
  | .vneg _ => true
  | .vdiv _ => true
  | .vsqrt _ => true
  | .vcmplt _ => true
  | .vcmpeq _ => true
  | .vclass _ => true
  | .vsel _ => true
  | .vbcast _ => true
  | .vld _ => true
  | .vst _ => true
  | .vrsum _ => true
  | .vrmax _ => true
  | .viadd _ => true
  | .visub _ => true
  | .vimul _ => true
  | .vand _ => true
  | .vor _ => true
  | .vxor _ => true
  | .vshl _ => true
  | .vshr _ => true
  | .vshra _ => true
  | .vcvtif _ => true
  | .vcvtfi _ => true
  | .vmov _ => true
  | .vcnt _ _ => true
  | .clapperVld _ _ _ _ => true
  | .clapperVst _ _ _ _ _ => true
  | .clapperVbcast _ _ _ _ => true
  | .instructionCompletion _ _ _ => true
  | .msub _ => true
  | .descriptorAccept _ => true
  | .copy _ _ => true
  | .transpose _ _ => true
  | .fill _ _ => true
  | .inline _ _ => true
  | .put _ _ => true
  | .get _ _ => true
  | .descriptorComplete _ _ => true
  | .set _ _ => true
  | .ringRegisterWrite _ _ _ => true
  | .bellBatch die ops => ops.all fun o => o.onDie die
  | .launch pt pb => pt.Nodup && pb.Nodup
  | .terminate => true
  | .tileStop _ => true
  | .tileProgramEnd _ => true
  | .completionRecord _ => true
  | .tileClearEnd _ => true
  | .arraySelfTest _ f => f.rows.Nodup && f.cols.Nodup
  | .srSeedWrite _ _ => true
  | .memoryRead _ addr len => memSpan addr len
  | .memoryWrite _ addr bytes => memSpan addr bytes.length
  | .patrolScrub _ => true
  | .ceInnerCollect _ _ => true
  | .lowerTierTimeout _ _ => true
  | .lateResponseDiscard _ _ => true
  | .writebackRetry _ => true
  | .coreLoad _ addr size _ _ vs => coreSpan addr size && victimsOk vs
  | .coreStore _ addr bytes _ vs => coreSpan addr bytes.length && victimsOk vs
  | .coreAmo _ _ addr wide v cmp => addr < 2 ^ 56 && (wide || (v.toNat < 2 ^ 32 && cmp.toNat < 2 ^ 32))
  | .cacheSweepComplete => true
  | .qmodeWrite _ _ => true
  | .poolWrite _ _ => true
  | .stackFailure _ => true
  | .stackInitComplete _ _ => true
  | .faultResp _ => true
  | .fqResp _ => true
  | .ioinval _ => true
  | .ioinvalComplete => true
  | .tocsinPost _ => true
  | .tqConsWrite _ => true
  | .tqEnable _ => true
  | .overflowMarkerRewrite => true
  | .forwardQueuePost _ => true
  | .counterDecay => true
  | .migrationCopy => true
  | .migrationZero => true
  | .migrationAdvise => true
  | .winCommit _ => true
  | .unmapGo _ => true
  | .unmapPhaseOneComplete => true
  | .unmapDrained => true
  | .coreStart _ _ => true
  | .cboClean _ addr => addr < 2 ^ 56
  | .cboFlush _ addr => addr < 2 ^ 56
  | .cboInval _ addr => addr < 2 ^ 56
  | .cleanByRange _ => true
  | .invalidateByRange _ => true
  | .rangeOperationComplete _ => true
  | .machineTimerInterrupt _ => true
  | .hostMsgFree _ => true
  | .rtMsgOffer _ => true
  | .monitorEvaluation _ _ _ _ => true
  | .trimSave => true
  | .streamOpen _ _ => true
  | .streamClose _ _ => true
  | .doorbell _ _ => true
  | .slotRead _ => true
  | .slotReread _ => true
  | .streamNop _ _ => true
  | .streamInline _ _ => true
  | .inlineChain _ _ => true
  | .streamCopy _ _ => true
  | .streamLaunch _ _ pt pb => pt.Nodup && pb.Nodup
  | .streamTerminate _ _ => true
  | .streamRing _ _ => true
  | .streamWait _ _ => true
  | .streamFence _ _ => true
  | .roll _ _ => true
  | .completionEntry _ _ => true
  | .apertureWrite off bytes _ => memSpan off bytes.length
  | .apertureRead off len _ => memSpan off len
  | .cxlMemRead addr len => addr % 64 = 0 && len = 64
  | .cxlMemWrite addr bytes => addr % 64 = 0 && bytes.length = 64
  | .hdmCommit _ _ => true
  | .hostSnoop _ addr => addr % 64 = 0
  | .getSupportedLogs => true
  | .getLog => true
  | .mydarRequest f => f.ok
  | .runtimeSend bytes => bytes.length ≤ 4096
  | .runtimeRecv => true
  | .linkRecovery => true
  | .hostLoss _ => true
  | .hostLinkUp r => r.ok
  | .kettleCycle r => r.ok
  | .kettleRoll _ => true
  | .currentLimitAlert _ _ => true
  | .inputReport _ _ => true
  | .railTargetReached => true
  | .dictRead _ f => f.ok && f.op = 1#8
  | .dictWrite _ f => f.ok && f.op = 2#8
  | .dictFreeze _ f => f.ok && f.op = 3#8
  | .dictRelease _ f => f.ok && f.op = 4#8
  | .dictDescribe _ f => f.ok && f.op = 5#8
  | .dictDiscover _ f => f.ok && f.op = 6#8
  | .dictOpen _ f => f.ok && f.op = 7#8
  | .dictClose _ f => f.ok && f.op = 8#8
  | .sessionIdleTimeout _ n => n ≠ 0#32
  | .frameDrop _ => true
  | .sealedComplete => true
  | .telemetryWindow => true
  | .getVersion _ => true
  | .getCapabilities _ => true
  | .negotiateAlgorithms _ _ => true
  | .getDigests _ => true
  | .getCertificate _ _ _ _ => true
  | .challenge _ n => n.length = 32
  | .getMeasurements _ n => n.length = 32
  | .keyExchange _ _ => true
  | .finish _ _ _ => true
  | .heartbeat _ => true
  | .keyUpdate _ => true
  | .endSession _ => true
  | .romBegin _ _ => true
  | .romData _ bytes => bytes.length ≤ 1472
  | .romEnd => true
  | .powerOn _ => true
  | .resetN _ _ => true
  | .enBreak us => 0 < us
  | .latchOpened _ => true
  | .bayInserted _ => true
  | .actNone _ => true
  | .coldReset _ => true
  | .bringupDone _ => true
  | .takeOut _ _ _ => true
  | .bringBack _ _ => true
  | .retest _ _ => true
  | .dieReset _ _ => true
  | .writeSlot _ _ _ _ => true
  | .debugOpen _ _ => true
  | .debugClose _ => true
  | .unitOutOfService _ => true
  | .reintegration _ _ => true
  | .portEnable _ _ => true
  | .portDisable _ _ => true
  | .widthRequest _ _ => true
  | .widthLapse _ => true
  | .portBringup _ _ => true
  | .neighbourRecheck _ => true
  | .coordinateCheck _ => true
  | .linkHeartbeatTimeout _ => true
  | .flitDiscard _ _ => true
  | .linkReplay _ _ => true
  | .caps _ m => m.port < 8
  | .width _ _ => true
  | .key _ => true
  | .spdm _ m => m.svn < 2 ^ 32
  | .rekey _ _ => true
  | .putData _ m => m.ok
  | .getReq _ m => m.ok
  | .remoteRing _ m => m.ok
  | .putAck _ m => m.ok
  | .getData _ m => m.ok
  | .nack _ m => m.ok
  | .peal _ m => m.ok
  | .messageTimeout _ _ => true
  | .slotEpochAdvance _ _ => true
  | .violationHalving => true
  | .qclear _ _ => true
  | .rs _ => true
  | .ag _ => true
  | .ar _ => true
  | .pealTimeout _ => true
  | .pealDescriptorComplete _ => true
  | .pealBind _ => true
  | .lotHandover _ _ => true
  | .jobAccept => true
  | .lotRun _ => true
  | .jobComplete _ => true
  | .cadAdv _ => true
  | .cadSetC _ => true
  | .cadCommit _ => true
  | .cadenceDelivery => true
  | .hoopPacket _ _ p => !p.crcGood || !p.payload.isEmpty
  | .linkControl _ _ _ => true
  | .linkControlSend _ _ => true
  | .retrain _ => true
  | .trainingComplete _ f => f.damaged.length = 3 && (f.failed.map Prod.fst).Nodup
  | .registerWrite addr wide v => addr % (if wide then 8 else 4) = 0 && (wide || v.toNat < 2 ^ 32)
  | .linkReturnToL0 r => r.ok
  | .supervisorTimerInterrupt _ _ => true
  | .idleFlit _ _ => true
  | .fqConsWrite _ => true
  | .fqEnable _ => true
  | .migrationDescriptorComplete => true
  | .writeSlotEnded _ => true
  | .doeDiscovery _ => true
  | .ideKm _ kb _ => kb.length = 32
  | .enTied _ => true

end Sys2Proof
end

