-- ==== Sys2Proof/Safety.lean ====
section
/-! DEFINITION. What the statements are made of: the parts of the state with the parts that each command may change, the outcome
of a command, the invariants of the memory and of the window table, and a safe run. -/

namespace Sys2Proof.Machine

/-- What the memories hold byte by byte, and what their unlisted bytes depend on. -/
def MemS.bytes (m : MemS) : Map Byte × Map Nat × Map Byte × BitVec 128 := (m.mem, m.undef, m.host, m.qmode)

/-- Everything else of the memory system. -/
def MemS.ctl (m : MemS) : Map Bool × Map Bool × Map CwErr × Map MemCtrl × W32 × Map Pool × List (Agent × Nat) :=
  (m.poison, m.hostPoison, m.cwErr, m.ctrls, m.mapGen, m.pools, m.timedOut)

/-- The parts of the state, but for the queue of commands. -/
inductive Part where
  /-- the matrix tiles -/
  | tiles
  /-- the bells -/
  | bells
  /-- kernels and the launch queue -/
  | kern
  /-- every byte of near, deep and host memory, with the interleave modes that place them -/
  | memory
  /-- the memory controllers, poison marks, pools and timed-out requests -/
  | memCtl
  /-- the C-die caches -/
  | cache
  /-- the resident cores with their interrupts and messages -/
  | cores
  /-- translation, faults and unmaps -/
  | xlat
  /-- the Tocsin queue and the tally counters -/
  | tocsin
  /-- access counters and the migration engine -/
  | mig
  /-- inbound windows -/
  | win
  /-- the telemetry counters -/
  | tele
  /-- Hoop links, Carillon ports, Peal, Clapper and Cadence -/
  | net
  /-- the host side and its command streams -/
  | cxl
  /-- custody, sealed mode and SPDM -/
  | cust
  /-- Kettle -/
  | kettle
  /-- the dictionary -/
  | dict
  /-- the telemetry window being counted -/
  | window
  /-- the telemetry window last closed -/
  | coarse
  /-- bring-up, service and actions -/
  | svc
  /-- the answer to the last command that gives one -/
  | reply
  /-- the number of free values drawn -/
  | fresh
  deriving DecidableEq, Repr

/-- A part holds the same in two states. -/
def Part.same (p : Part) (s t : State) : Prop :=
  match p with
  | .tiles => t.tiles = s.tiles
  | .bells => t.bells = s.bells
  | .kern => t.kern = s.kern
  | .memory => t.mem.bytes = s.mem.bytes
  | .memCtl => t.mem.ctl = s.mem.ctl
  | .cache => t.cache = s.cache
  | .cores => t.cores = s.cores
  | .xlat => t.xlat = s.xlat
  | .tocsin => t.tocsin = s.tocsin
  | .mig => t.mig = s.mig
  | .win => t.win = s.win
  | .tele => t.tele = s.tele
  | .net => t.net = s.net
  | .cxl => t.cxl = s.cxl
  | .cust => t.cust = s.cust
  | .kettle => t.kettle = s.kettle
  | .dict => t.dict = s.dict
  | .window => t.window = s.window
  | .coarse => t.coarse = s.coarse
  | .svc => t.svc = s.svc
  | .reply => t.reply = s.reply
  | .fresh => t.fresh = s.fresh

/-- From `s` to `t` nothing changed but the parts listed; the queue of commands is the same. -/
def ChangesOnly (ps : List Part) (s t : State) : Prop := t.pending = s.pending ∧ ∀ p, p ∉ ps → p.same s t

def allParts : List Part :=
  [.tiles, .bells, .kern, .memory, .memCtl, .cache, .cores, .xlat, .tocsin, .mig, .win, .tele, .net, .cxl, .cust, .kettle, .dict, .window, .coarse, .svc, .reply, .fresh]

/-- The parts that a command may change. A command that can start a cold reset may change them all. -/
def partsOf (i : Instr) : List Part :=
  match i with
  | .instructionFetch _ => [.tiles, .bells, .xlat, .tocsin, .tele, .fresh]
  | .nop _ _ => [.tiles, .xlat, .tocsin, .fresh]
  | .halt _ _ => [.tiles, .xlat, .tocsin, .fresh]
  | .sadd _ _ _ _ _ => [.tiles, .xlat, .tocsin, .fresh]
  | .ssub _ _ _ _ _ => [.tiles, .xlat, .tocsin, .fresh]
  | .sand _ _ _ _ _ => [.tiles, .xlat, .tocsin, .fresh]
  | .sor _ _ _ _ _ => [.tiles, .xlat, .tocsin, .fresh]
  | .sxor _ _ _ _ _ => [.tiles, .xlat, .tocsin, .fresh]
  | .sshl _ _ _ _ _ => [.tiles, .xlat, .tocsin, .fresh]
  | .sshr _ _ _ _ _ => [.tiles, .xlat, .tocsin, .fresh]
  | .smul _ _ _ _ _ => [.tiles, .xlat, .tocsin, .fresh]
  | .saddi _ _ _ _ _ => [.tiles, .xlat, .tocsin, .fresh]
  | .sli _ _ _ _ => [.tiles, .xlat, .tocsin, .fresh]
  | .shi _ _ _ _ => [.tiles, .xlat, .tocsin, .fresh]
  | .sld _ _ _ _ _ => [.tiles, .xlat, .tocsin, .fresh]
  | .sst _ _ _ _ _ => [.tiles, .xlat, .tocsin, .fresh]
  | .beq _ _ _ _ _ => [.tiles, .xlat, .tocsin, .fresh]
  | .bne _ _ _ _ _ => [.tiles, .xlat, .tocsin, .fresh]
  | .blt _ _ _ _ _ => [.tiles, .xlat, .tocsin, .fresh]
  | .bltu _ _ _ _ _ => [.tiles, .xlat, .tocsin, .fresh]
  | .jmp _ _ _ => [.tiles, .xlat, .tocsin, .fresh]
  | .ring _ _ _ _ _ _ => [.tiles, .xlat, .tocsin, .fresh]
  | .ringFire _ => [.tiles, .bells, .xlat, .tocsin, .tele, .fresh]
  | .wait _ _ _ _ _ => [.tiles, .bells, .xlat, .tocsin, .tele, .fresh]
  | .fence _ _ _ _ => [.tiles, .xlat, .tocsin, .fresh]
  | .flags _ _ _ _ => [.tiles, .xlat, .tocsin, .fresh]
  | .tally _ _ _ => [.tiles, .xlat, .tocsin, .fresh]
  | .mma _ _ => [.tiles, .xlat, .tocsin, .fresh]
  | .drain _ _ => [.tiles, .xlat, .tocsin, .fresh]
  | .sclr _ => [.tiles, .xlat, .tocsin, .fresh]
  | .ssto _ => [.tiles, .xlat, .tocsin, .fresh]
  | .seed _ => [.tiles, .xlat, .tocsin, .fresh]
  | .vadd _ => [.tiles, .xlat, .tocsin, .fresh]
  | .vsub _ => [.tiles, .xlat, .tocsin, .fresh]
  | .vmul _ => [.tiles, .xlat, .tocsin, .fresh]
  | .vfma _ => [.tiles, .xlat, .tocsin, .fresh]
  | .vfnma _ => [.tiles, .xlat, .tocsin, .fresh]
  | .vmin _ => [.tiles, .xlat, .tocsin, .fresh]
  | .vmax _ => [.tiles, .xlat, .tocsin, .fresh]
  | .vabs _ => [.tiles, .xlat, .tocsin, .fresh]
  | .vneg _ => [.tiles, .xlat, .tocsin, .fresh]
  | .vdiv _ => [.tiles, .xlat, .tocsin, .fresh]
  | .vsqrt _ => [.tiles, .xlat, .tocsin, .fresh]
  | .vcmplt _ => [.tiles, .xlat, .tocsin, .fresh]
  | .vcmpeq _ => [.tiles, .xlat, .tocsin, .fresh]
  | .vclass _ => [.tiles, .xlat, .tocsin, .fresh]
  | .vsel _ => [.tiles, .xlat, .tocsin, .fresh]
  | .vbcast _ => [.tiles, .xlat, .tocsin, .fresh]
  | .vld _ => [.tiles, .xlat, .tocsin, .fresh]
  | .vst _ => [.tiles, .xlat, .tocsin, .fresh]
  | .vrsum _ => [.tiles, .xlat, .tocsin, .fresh]
  | .vrmax _ => [.tiles, .xlat, .tocsin, .fresh]
  | .viadd _ => [.tiles, .xlat, .tocsin, .fresh]
  | .visub _ => [.tiles, .xlat, .tocsin, .fresh]
  | .vimul _ => [.tiles, .xlat, .tocsin, .fresh]
  | .vand _ => [.tiles, .xlat, .tocsin, .fresh]
  | .vor _ => [.tiles, .xlat, .tocsin, .fresh]
  | .vxor _ => [.tiles, .xlat, .tocsin, .fresh]
  | .vshl _ => [.tiles, .xlat, .tocsin, .fresh]
  | .vshr _ => [.tiles, .xlat, .tocsin, .fresh]
  | .vshra _ => [.tiles, .xlat, .tocsin, .fresh]
  | .vcvtif _ => [.tiles, .xlat, .tocsin, .fresh]
  | .vcvtfi _ => [.tiles, .xlat, .tocsin, .fresh]
  | .vmov _ => [.tiles, .xlat, .tocsin, .fresh]
  | .vcnt _ _ => [.memCtl, .xlat, .tocsin, .mig, .tele, .net, .fresh]
  | .clapperVld _ _ _ _ => [.memCtl, .xlat, .tocsin, .mig, .tele, .net, .fresh]
  | .clapperVst _ _ _ _ _ => [.memCtl, .xlat, .tocsin, .mig, .tele, .net, .fresh]
  | .clapperVbcast _ _ _ _ => [.memCtl, .xlat, .tocsin, .mig, .tele, .net, .fresh]
  | .instructionCompletion _ _ _ => [.tiles, .xlat, .tocsin, .fresh]
  | .msub _ => [.tiles, .xlat, .tocsin, .fresh]
  | .descriptorAccept _ => [.tiles, .bells, .memCtl, .xlat, .tocsin, .mig, .tele, .fresh]
  | .copy _ _ => [.tiles, .memory, .memCtl, .tocsin, .mig, .fresh]
  | .transpose _ _ => [.tiles, .memory, .memCtl, .tocsin, .mig, .fresh]
  | .fill _ _ => [.tiles, .memory, .memCtl, .tocsin, .mig, .fresh]
  | .inline _ _ => [.tiles, .memory, .memCtl, .tocsin, .mig, .fresh]
  | .put _ _ => [.tiles, .bells, .memory, .memCtl, .xlat, .tocsin, .mig, .tele, .net, .fresh]
  | .get _ _ => [.tiles, .bells, .memory, .memCtl, .xlat, .tocsin, .mig, .tele, .net, .fresh]
  | .descriptorComplete _ _ => [.tiles, .bells, .xlat, .tocsin, .tele, .fresh]
  | .set _ _ => [.tiles, .bells, .xlat, .tocsin, .tele, .fresh]
  | .ringRegisterWrite _ _ _ => [.tiles, .bells, .xlat, .tocsin, .tele, .fresh]
  | .bellBatch _ _ => [.tiles, .bells, .xlat, .tocsin, .tele, .fresh]
  | .launch _ _ => [.tiles, .bells, .kern, .memory, .memCtl, .cores, .xlat, .tocsin, .mig, .tele, .fresh]
  | .terminate => [.tiles, .kern, .memCtl, .tocsin, .mig, .tele, .fresh]
  | .tileStop _ => [.tiles, .xlat, .tocsin, .fresh]
  | .tileProgramEnd _ => [.tiles]
  | .completionRecord _ => [.tiles, .bells, .kern, .memory, .memCtl, .cores, .xlat, .tocsin, .mig, .fresh]
  | .tileClearEnd _ => [.tiles]
  | .arraySelfTest _ _ => [.tiles, .tocsin, .dict, .svc, .fresh]
  | .srSeedWrite _ _ => [.tiles, .tele]
  | .memoryRead _ _ _ => [.memCtl, .tocsin, .mig, .reply, .fresh]
  | .memoryWrite _ _ _ => [.memory, .memCtl, .tocsin, .mig, .reply, .fresh]
  | .patrolScrub _ => [.memCtl, .tocsin, .fresh]
  | .ceInnerCollect _ _ => [.memCtl, .tocsin, .fresh]
  | .lowerTierTimeout _ _ => [.tiles, .kern, .memory, .memCtl, .cache, .xlat, .tocsin, .mig, .net, .cxl, .reply, .fresh]
  | .lateResponseDiscard _ _ => [.memCtl]
  | .writebackRetry _ => [.memory, .memCtl, .cache, .tocsin, .mig, .tele, .fresh]
  | .coreLoad _ _ _ _ _ _ => [.memory, .memCtl, .cache, .cores, .tocsin, .mig, .tele, .reply, .fresh]
  | .coreStore _ _ _ _ _ => [.tiles, .bells, .kern, .memory, .memCtl, .cache, .cores, .xlat, .tocsin, .mig, .win, .tele, .net, .cxl, .cust, .kettle, .dict, .svc, .fresh]
  | .coreAmo _ _ _ _ _ _ => [.memory, .memCtl, .cache, .cores, .tocsin, .mig, .tele, .reply, .fresh]
  | .cacheSweepComplete => [.tiles, .cache, .cores, .xlat, .tocsin, .svc, .fresh]
  | .qmodeWrite _ _ => [.memory, .memCtl, .fresh]
  | .poolWrite _ _ => [.memCtl, .tele]
  | .stackFailure _ => [.memCtl, .tocsin, .fresh]
  | .stackInitComplete _ _ => [.tiles, .memory, .memCtl, .cores, .xlat, .tocsin, .cust, .svc, .fresh]
  | .faultResp _ => [.tiles, .memory, .memCtl, .cores, .xlat, .tocsin, .mig, .tele, .net, .fresh]
  | .fqResp _ => [.tiles, .memory, .memCtl, .cores, .xlat, .tocsin, .mig, .tele, .net, .fresh]
  | .ioinval _ => [.xlat, .tele]
  | .ioinvalComplete => [.cores, .xlat]
  | .tocsinPost _ => [.memory, .memCtl, .cores, .tocsin, .mig, .fresh]
  | .tqConsWrite _ => [.tocsin, .tele]
  | .tqEnable _ => [.memory, .memCtl, .tocsin, .mig, .tele, .fresh]
  | .overflowMarkerRewrite => [.memory, .memCtl, .tocsin, .mig, .fresh]
  | .forwardQueuePost _ => [.memory, .memCtl, .tocsin, .mig, .net, .cxl, .fresh]
  | .counterDecay => [.mig]
  | .migrationCopy => [.memory, .memCtl, .tocsin, .mig, .tele, .fresh]
  | .migrationZero => [.memory, .memCtl, .tocsin, .mig, .tele, .fresh]
  | .migrationAdvise => [.memory, .memCtl, .tocsin, .mig, .tele, .fresh]
  | .winCommit _ => [.win, .tele]
  | .unmapGo _ => [.xlat, .tele]
  | .unmapPhaseOneComplete => [.tiles, .xlat, .cxl]
  | .unmapDrained => [.cores, .xlat]
  | .coreStart _ _ => [.tiles, .cores, .xlat, .tocsin, .tele, .fresh]
  | .cboClean _ _ => [.memory, .memCtl, .cache, .cores, .tocsin, .mig, .tele, .fresh]
  | .cboFlush _ _ => [.memory, .memCtl, .cache, .cores, .tocsin, .mig, .tele, .fresh]
  | .cboInval _ _ => [.memory, .memCtl, .cache, .cores, .tocsin, .mig, .tele, .fresh]
  | .cleanByRange _ => [.cores]
  | .invalidateByRange _ => [.cores]
  | .rangeOperationComplete _ => [.memory, .memCtl, .cache, .cores, .tocsin, .mig, .tele, .fresh]
  | .machineTimerInterrupt _ => [.cores, .tocsin]
  | .hostMsgFree _ => [.cores, .tele]
  | .rtMsgOffer _ => [.cores, .tele]
  | .monitorEvaluation _ _ _ _ => [.tiles, .cores, .tocsin, .kettle, .fresh]
  | .trimSave => [.dict]
  | .streamOpen _ _ => [.kern, .tocsin, .tele, .cxl, .fresh]
  | .streamClose _ _ => [.kern, .tocsin, .tele, .cxl, .fresh]
  | .doorbell _ _ => [.tocsin, .tele, .cxl, .fresh]
  | .slotRead _ => [.kern, .memCtl, .xlat, .tocsin, .mig, .cxl, .fresh]
  | .slotReread _ => [.kern, .memCtl, .xlat, .tocsin, .mig, .cxl, .fresh]
  | .streamNop _ _ => [.kern, .tocsin, .cxl, .fresh]
  | .streamInline _ _ => [.kern, .memory, .memCtl, .xlat, .tocsin, .mig, .cxl, .fresh]
  | .inlineChain _ _ => [.kern, .memory, .memCtl, .xlat, .tocsin, .mig, .cxl, .fresh]
  | .streamCopy _ _ => [.kern, .memory, .memCtl, .xlat, .tocsin, .mig, .cxl, .fresh]
  | .streamLaunch _ _ _ _ => [.tiles, .bells, .kern, .memory, .memCtl, .cores, .xlat, .tocsin, .mig, .cxl, .fresh]
  | .streamTerminate _ _ => [.tiles, .kern, .tocsin, .cxl, .fresh]
  | .streamRing _ _ => [.tiles, .bells, .kern, .xlat, .tocsin, .tele, .cxl, .fresh]
  | .streamWait _ _ => [.bells, .kern, .tocsin, .tele, .cxl, .fresh]
  | .streamFence _ _ => [.kern, .tocsin, .cxl, .fresh]
  | .roll _ _ => [.kern, .tocsin, .cxl, .kettle, .fresh]
  | .completionEntry _ _ => [.kern, .memory, .memCtl, .tocsin, .mig, .cxl, .fresh]
  | .apertureWrite _ _ _ => [.memory, .memCtl, .tocsin, .mig, .cxl, .fresh]
  | .apertureRead _ _ _ => [.memCtl, .tocsin, .mig, .cxl, .reply, .fresh]
  | .cxlMemRead _ _ => [.memCtl, .tocsin, .mig, .cxl, .reply, .fresh]
  | .cxlMemWrite _ _ => [.memory, .memCtl, .tocsin, .mig, .cxl, .reply, .fresh]
  | .hdmCommit _ _ => [.cxl, .reply]
  | .hostSnoop _ _ => [.memory, .memCtl, .cache, .tocsin, .mig, .tele, .reply, .fresh]
  | .getSupportedLogs => [.tocsin, .cxl, .reply, .fresh]
  | .getLog => [.tocsin, .cxl, .reply, .fresh]
  | .mydarRequest _ => allParts
  | .runtimeSend _ => [.cores, .tocsin, .cxl, .reply, .fresh]
  | .runtimeRecv => [.cores, .tocsin, .cxl, .reply, .fresh]
  | .linkRecovery => [.cores, .cxl]
  | .hostLoss _ => [.tiles, .memory, .memCtl, .cache, .cores, .xlat, .tocsin, .mig, .tele, .net, .cxl, .cust, .dict, .fresh]
  | .hostLinkUp _ => [.cores, .cxl]
  | .kettleCycle _ => allParts
  | .kettleRoll _ => [.tele, .kettle]
  | .currentLimitAlert _ _ => [.tocsin, .kettle, .fresh]
  | .inputReport _ _ => allParts
  | .railTargetReached => [.tocsin, .kettle, .fresh]
  | .dictRead _ _ => [.cores, .tocsin, .tele, .cxl, .dict, .reply, .fresh]
  | .dictWrite _ _ => allParts
  | .dictFreeze _ _ => allParts
  | .dictRelease _ _ => allParts
  | .dictDescribe _ _ => [.cores, .tocsin, .tele, .cxl, .dict, .reply, .fresh]
  | .dictDiscover _ _ => [.cores, .tocsin, .tele, .cxl, .dict, .reply, .fresh]
  | .dictOpen _ _ => [.cores, .tocsin, .tele, .cxl, .dict, .reply, .fresh]
  | .dictClose _ _ => [.cores, .tocsin, .tele, .cxl, .dict, .reply, .fresh]
  | .sessionIdleTimeout _ _ => [.dict]
  | .frameDrop _ => [.tele]
  | .sealedComplete => [.cxl, .cust]
  | .telemetryWindow => [.window, .coarse]
  | .getVersion _ => [.cust, .reply]
  | .getCapabilities _ => [.cust, .reply]
  | .negotiateAlgorithms _ _ => [.cust, .reply]
  | .getDigests _ => [.reply]
  | .getCertificate _ _ _ _ => [.reply]
  | .challenge _ _ => [.reply, .fresh]
  | .getMeasurements _ _ => [.reply, .fresh]
  | .keyExchange _ _ => [.cust, .reply, .fresh]
  | .finish _ _ _ => [.cust, .reply]
  | .heartbeat _ => [.reply]
  | .keyUpdate _ => [.net, .cust, .reply]
  | .endSession _ => [.tiles, .bells, .memory, .memCtl, .xlat, .tocsin, .mig, .tele, .net, .cust, .dict, .reply, .fresh]
  | .romBegin _ _ => [.svc, .reply]
  | .romData _ _ => [.svc, .reply]
  | .romEnd => allParts
  | .powerOn _ => [.tiles, .kern, .tocsin, .net, .cxl, .cust, .kettle, .svc, .fresh]
  | .resetN _ _ => allParts
  | .enBreak _ => allParts
  | .latchOpened _ => [.tiles, .bells, .memory, .memCtl, .xlat, .tocsin, .mig, .tele, .net, .cust, .dict, .svc, .fresh]
  | .bayInserted _ => [.svc]
  | .actNone _ => allParts
  | .coldReset _ => allParts
  | .bringupDone _ => allParts
  | .takeOut _ _ _ => allParts
  | .bringBack _ _ => allParts
  | .retest _ _ => allParts
  | .dieReset _ _ => allParts
  | .writeSlot _ _ _ _ => allParts
  | .debugOpen _ _ => allParts
  | .debugClose _ => allParts
  | .unitOutOfService _ => [.tiles, .memory, .memCtl, .cache, .cores, .tocsin, .mig, .tele, .svc, .fresh]
  | .reintegration _ _ => [.tiles, .memCtl, .cores, .tocsin, .net, .kettle, .dict, .svc, .fresh]
  | .portEnable _ _ => [.tiles, .bells, .memory, .memCtl, .xlat, .tocsin, .mig, .tele, .net, .cust, .dict, .fresh]
  | .portDisable _ _ => [.tiles, .bells, .memory, .memCtl, .xlat, .tocsin, .mig, .tele, .net, .cust, .dict, .fresh]
  | .widthRequest _ _ => [.tiles, .bells, .memory, .memCtl, .xlat, .tocsin, .mig, .tele, .net, .cust, .dict, .fresh]
  | .widthLapse _ => [.net]
  | .portBringup _ _ => [.tiles, .bells, .memory, .memCtl, .xlat, .tocsin, .mig, .tele, .net, .cust, .dict, .fresh]
  | .neighbourRecheck _ => [.tocsin, .net, .fresh]
  | .coordinateCheck _ => [.tiles, .bells, .memory, .memCtl, .xlat, .tocsin, .mig, .tele, .net, .cust, .dict, .fresh]
  | .linkHeartbeatTimeout _ => [.tiles, .bells, .memory, .memCtl, .xlat, .tocsin, .mig, .tele, .net, .cust, .dict, .fresh]
  | .flitDiscard _ _ => [.tiles, .bells, .memory, .memCtl, .xlat, .tocsin, .mig, .tele, .net, .cust, .dict, .fresh]
  | .linkReplay _ _ => [.tiles, .bells, .memory, .memCtl, .xlat, .tocsin, .mig, .tele, .net, .cust, .dict, .fresh]
  | .caps _ _ => [.tocsin, .net, .fresh]
  | .width _ _ => [.tocsin, .net, .fresh]
  | .key _ => [.net]
  | .spdm _ _ => [.tocsin, .net, .cust, .fresh]
  | .rekey _ _ => [.net]
  | .putData _ _ => [.memory, .memCtl, .xlat, .tocsin, .mig, .tele, .net, .fresh]
  | .getReq _ _ => [.memCtl, .xlat, .tocsin, .mig, .tele, .net, .fresh]
  | .remoteRing _ _ => [.tiles, .bells, .xlat, .tocsin, .tele, .net, .fresh]
  | .putAck _ _ => [.tiles, .bells, .memory, .memCtl, .xlat, .tocsin, .mig, .tele, .net, .fresh]
  | .getData _ _ => [.tiles, .bells, .memory, .memCtl, .xlat, .tocsin, .mig, .tele, .net, .fresh]
  | .nack _ _ => [.tiles, .bells, .memory, .memCtl, .xlat, .tocsin, .mig, .tele, .net, .fresh]
  | .peal _ _ => [.memory, .memCtl, .xlat, .tocsin, .mig, .net, .fresh]
  | .messageTimeout _ _ => [.tiles, .bells, .memory, .memCtl, .xlat, .tocsin, .mig, .tele, .net, .fresh]
  | .slotEpochAdvance _ _ => [.tiles, .bells, .memory, .memCtl, .xlat, .tocsin, .mig, .tele, .net, .fresh]
  | .violationHalving => [.net]
  | .qclear _ _ => [.tele, .net]
  | .rs _ => [.tiles, .bells, .memory, .memCtl, .xlat, .tocsin, .mig, .tele, .net, .fresh]
  | .ag _ => [.tiles, .bells, .memory, .memCtl, .xlat, .tocsin, .mig, .tele, .net, .fresh]
  | .ar _ => [.tiles, .bells, .memory, .memCtl, .xlat, .tocsin, .mig, .tele, .net, .fresh]
  | .pealTimeout _ => [.memory, .memCtl, .xlat, .tocsin, .mig, .net, .fresh]
  | .pealDescriptorComplete _ => [.tiles, .bells, .memory, .memCtl, .cores, .xlat, .tocsin, .mig, .tele, .net, .fresh]
  | .pealBind _ => [.memory, .memCtl, .xlat, .tocsin, .mig, .net, .fresh]
  | .lotHandover _ _ => [.memory, .memCtl, .xlat, .tocsin, .mig, .net, .fresh]
  | .jobAccept => [.tiles, .bells, .memory, .memCtl, .cores, .xlat, .tocsin, .mig, .tele, .net, .fresh]
  | .lotRun _ => [.memory, .memCtl, .xlat, .tocsin, .mig, .tele, .net, .fresh]
  | .jobComplete _ => [.tiles, .bells, .memory, .memCtl, .cores, .xlat, .tocsin, .mig, .tele, .net, .fresh]
  | .cadAdv _ => [.cores, .tele, .net]
  | .cadSetC _ => [.cores, .tele, .net]
  | .cadCommit _ => [.net]
  | .cadenceDelivery => [.cores, .tele, .net]
  | .hoopPacket _ _ _ => [.tiles, .bells, .memory, .memCtl, .xlat, .tocsin, .mig, .tele, .net, .fresh]
  | .linkControl _ _ _ => [.tiles, .bells, .memory, .memCtl, .xlat, .tocsin, .mig, .tele, .net, .fresh]
  | .linkControlSend _ _ => [.net, .reply]
  | .retrain _ => [.tiles, .bells, .memory, .memCtl, .xlat, .tocsin, .mig, .tele, .net, .fresh]
  | .trainingComplete _ _ => [.tiles, .bells, .memory, .memCtl, .xlat, .tocsin, .mig, .tele, .net, .fresh]
  | .registerWrite _ _ _ => [.tiles, .bells, .kern, .memory, .memCtl, .cores, .xlat, .tocsin, .mig, .win, .tele, .net, .cxl, .cust, .kettle, .dict, .svc, .fresh]
  | .linkReturnToL0 _ => [.memory, .memCtl, .cores, .xlat, .tocsin, .mig, .net, .cxl, .fresh]
  | .supervisorTimerInterrupt _ _ => [.cores, .tocsin]
  | .idleFlit _ _ => [.tiles, .bells, .memory, .memCtl, .xlat, .tocsin, .mig, .tele, .net, .cust, .dict, .fresh]
  | .fqConsWrite _ => [.tele, .cxl]
  | .fqEnable _ => [.tele, .cxl]
  | .migrationDescriptorComplete => [.tiles, .bells, .memory, .memCtl, .cores, .xlat, .tocsin, .mig, .tele, .fresh]
  | .writeSlotEnded _ => [.tocsin, .cust, .svc, .fresh]
  | .doeDiscovery _ => [.reply]
  | .ideKm _ _ _ => [.tiles, .memory, .memCtl, .cache, .cores, .xlat, .tocsin, .mig, .tele, .net, .cxl, .cust, .dict, .fresh]
  | .enTied _ => [.tiles, .kern, .tocsin, .net, .cxl, .cust, .kettle, .svc, .fresh]

/-- A command answers a next state of which something holds. -/
def Gives (c : Instr) (s : State) (P : State → Prop) : Prop := ∃ t, exec c s = .next t ∧ P t

/-! ### Tiles -/

/-- The tile may execute a sequencer instruction with these token fields: the sequencer runs, no stop is due, its token is there, and
the channel it signals has room (R136, R137, R139). -/
def Tile.goes (x : Tile) (k : Tok) : Prop :=
  x.seqReady k = true ∧ ∀ c, k.signal = some c → (x.takeTok k).tokens.get 0 c.val < 255

/-- The token counts after an instruction that takes and signals its channels (R137). -/
def Tile.tokensMove (x y : Tile) (k : Tok) : Prop :=
  ∀ c : Fin 8, y.tokens.get 0 c.val
    = x.tokens.get 0 c.val - (if k.wait = some c then 1 else 0) + (if k.signal = some c then 1 else 0)

/-- The tile alone changed. -/
def TileOnly (t : TileId) (s u : State) : Prop := u = s.setTile t (u.tile t)

/-- The frame of a sequencer instruction: of the whole state it changed the tile alone, and of the tile the PC, the scalar
registers and the tokens that its fields move. -/
def SeqOnly (t : TileId) (k : Tok) (s u : State) : Prop :=
  TileOnly t s u ∧ (s.tile t).tokensMove (u.tile t) k
    ∧ { u.tile t with pc := (s.tile t).pc, sregs := (s.tile t).sregs, tokens := (s.tile t).tokens } = s.tile t

/-- The scalar registers after a write of one of them: S0 reads as zero and takes no write (R140). -/
def Tile.wrote (x y : Tile) (r : Nat) (v : W64) : Prop :=
  ∀ q, y.sreg q = if q = 0 then 0#64 else if q = r then v else x.sreg q

/-- The tile stopped at a PC with a status on its own account (R136, R174). -/
def Tile.stoppedWith (x : Tile) (st : W32) (pc : Nat) : Prop :=
  x.seq = .stopped ∧ x.stop = st ∧ x.failPc = pc ∧ x.ownStop = true

/-- The head of an engine's queue may start (R133, R137). -/
def Tile.headIs (x : Tile) (e : Engine) (h : QEntry) (rest : List QEntry) : Prop :=
  x.queue e = h :: rest ∧ x.live = true ∧ x.tokAvail h.tok = true ∧ x.unblocked h.op = true

/-- The tile with the head of a queue taken, its token with it (R133, R137), before its checks. -/
def Tile.taken (x : Tile) (e : Engine) (h : QEntry) (rest : List QEntry) : Tile := (x.setQueue e rest).takeTok h.tok

/-- The tile with that instruction in its engine. -/
def Tile.begun (x : Tile) (e : Engine) (h : QEntry) (rest : List QEntry) : Tile :=
  { x.taken e h rest with running := x.running ++ [(e, h)] }

/-- The command of a vector operation (R152). -/
def vecCommand (t : TileId) (op : VOp) : Instr :=
  match op with
  | .vadd => .vadd t
  | .vsub => .vsub t
  | .vmul => .vmul t
  | .vfma => .vfma t
  | .vfnma => .vfnma t
  | .vmin => .vmin t
  | .vmax => .vmax t
  | .vabs => .vabs t
  | .vneg => .vneg t
  | .vdiv => .vdiv t
  | .vsqrt => .vsqrt t
  | .vcmplt => .vcmplt t
  | .vcmpeq => .vcmpeq t
  | .vclass => .vclass t
  | .vsel => .vsel t
  | .vbcast => .vbcast t
  | .vld => .vld t
  | .vst => .vst t
  | .vrsum => .vrsum t
  | .vrmax => .vrmax t
  | .viadd => .viadd t
  | .visub => .visub t
  | .vimul => .vimul t
  | .vand => .vand t
  | .vor => .vor t
  | .vxor => .vxor t
  | .vshl => .vshl t
  | .vshr => .vshr t
  | .vshra => .vshra t
  | .vcvtif => .vcvtif t
  | .vcvtfi => .vcvtfi t
  | .vmov => .vmov t

/-! ### Invariants -/

/-- An entry of the inbound window table as its commit leaves it (R243, R244): empty, or four words that keep the rules with their
complements beside them. -/
def WinS.entryOk (x : WinS) (w : Nat) : Prop :=
  (∀ j, j < 8 → x.word w j = 0#64)
    ∨ ((∀ j, j < 4 → flamOk (x.word w j) (x.word w (4 + j)) = true) ∧ winLegal (x.word w 0) (x.word w 1) (x.word w 2) (x.word w 3) = true)

/-- Every entry of the window table is empty or legal (R244). -/
def WinS.ok (x : WinS) : Prop := ∀ w, w < 256 → x.entryOk w
def WindowsOk (s : State) : Prop := s.win.ok

/-- Memory is in its canonical form. -/
def MemoryOk (s : State) : Prop := s.mem.wf = true

/-- A safe run: every command that waits is well formed, memory is in its canonical form and every window is legal. -/
def Safe (s : State) : Prop := (∀ c ∈ s.pending, c.wf = true) ∧ MemoryOk s ∧ WindowsOk s

/-! ### Terms of the statements: Bells (spec/04) -/

/-- A bell whose flam pair agrees and that is not poisoned (R164). -/
def Bell.sound (b : Bell) : Prop := b.poison = false ∧ b.compl = ~~~ b.count

/-! ### Terms of the statements: The move engine (spec/04) -/

/-- The commands of the kinds that move within the package (R156). -/
def moveCommand (t : TileId) (i : Nat) (k : MoveKind) : Option Instr :=
  match k with
  | .copy => some (.copy t i)
  | .transpose => some (.transpose t i)
  | .fill => some (.fill t i)
  | .inline => some (.inline t i)
  | .put => none
  | .get => none

/-! ### Terms of the statements: Memory (spec/05) -/

/-- Every codeword of a span of near or deep memory reads well: neither poisoned nor in error (R188, R189). -/
def MemS.clean (m : MemS) (a n : Nat) : Prop :=
  ∀ p ∈ codewordPieces a n (n + 1), m.poison.get false (p.1 / 64) = false ∧ m.cwErr.get CwErr.none (p.1 / 64) = CwErr.none

/-! ### Terms of the statements: Cores and their caches (spec/05, spec/10) -/

/-- Bytes at their home: host memory for the host window, else near or deep memory (R50). -/
def State.homeBytes (s : State) (a n : Nat) : List Byte :=
  if regionOf a = .host then s.mem.host.getRun 0#8 (hostAddr a) n else s.mem.load a n

/-- A codeword that its home serves and that is sound. -/
def State.homeGood (s : State) (a : Nat) : Prop :=
  if regionOf a = .host then s.hostServes = true ∧ s.mem.hostPoisoned (hostAddr a) 64 = false
  else s.serves a 4 = true ∧ s.mem.poison.get false (a / 64) = false ∧ s.mem.cwErr.get CwErr.none (a / 64) = .none

/-- The line of an address as the cores see it: as the caches hold it, else as its home does (R205). -/
def State.seenLine (s : State) (a : Nat) : List Byte :=
  match s.cache.line a with
  | some l => l.data
  | none => s.homeBytes (lineOf a) 64 ++ s.homeBytes (lineOf a + 64) 64

/-- The line of an address is sound: no codeword of it is poisoned or out of reach. -/
def State.goodLine (s : State) (a : Nat) : Prop :=
  match s.cache.line a with
  | some l => l.poison0 = false ∧ l.poison1 = false
  | none => s.homeGood (lineOf a) ∧ s.homeGood (lineOf a + 64)

/-- A running core may access `n` bytes of one line of memory, which is not out of reach and does not wait (R51, R421, R422). -/
def State.coreMay (s : State) (c : CoreId) (a n : Nat) : Prop :=
  (s.core c).state = 1 ∧ 0 < n ∧ a % 128 + n ≤ 128 ∧ s.pieceBarred a = false ∧ s.pieceWaits a = false

/-- A clean or a flush of a line that its home can take: its dirty bytes stand at home, and the line is clean, or gone. -/
def cleaned (s u : State) (a : Nat) (gone : Bool) : Prop :=
  (∀ l, s.cache.line a = some l → l.dirty = true → ∀ k b, k < 128 → l.data[k]? = some b → u.homeBytes (lineOf a + k) 1 = [b])
    ∧ (gone = true → u.cache.line a = none)
    ∧ (gone = false → ∀ l, s.cache.line a = some l → u.cache.line a = some { l with dirty := false })

/-! ### Terms of the statements: Translation (spec/06) -/

/-- The cached translations that an IOINVAL of a kind names (R221). -/
def TlbEntry.inScope (t : TlbEntry) (kind device process base len : Nat) : Prop :=
  kind = 0 ∨ (kind = 1 ∧ t.device = device) ∨ (kind = 2 ∧ t.device = device ∧ t.process = process)
    ∨ (kind = 3 ∧ t.device = device ∧ t.process = process ∧ t.vbase < base + len ∧ base < t.vbase + t.size)

/-! ### Terms of the statements: Faults and the Tocsin queue (spec/06) -/

/-- A span of near memory that is served and sound. -/
def State.nearSpan (s : State) (a n : Nat) : Prop := engineRange a n = some .near ∧ s.serves a 4 = true ∧ s.mem.clean a n

/-! ### Terms of the statements: Counters, migration, inbound windows (spec/06) -/

/-- A span of near or deep memory that is served and sound. -/
def State.memSpan (s : State) (a n : Nat) : Prop :=
  ∃ r, engineRange a n = some r ∧ r ≠ .host ∧ s.serves a 4 = true ∧ s.mem.clean a n

/-- The descriptor at the head of the migration ring is to be run: the ring is ready, no other awaits completion, its bytes can be read
and pass the checks, and nothing it reaches waits for the link (R241, R242). -/
def State.migHead (s : State) (d : MigDesc) : Prop :=
  s.mig.mq.ready = true ∧ s.mig.cur = none ∧ s.memSpan (s.mig.mq.entry 64) 64
    ∧ s.migCheck (s.mem.load (s.mig.mq.entry 64) 64) = none ∧ d = MigDesc.ofBytes (s.mem.load (s.mig.mq.entry 64) 64)
    ∧ d.waits s = false

/-! ### Terms of the statements: Command streams (spec/12) -/

/-- A command of a stream has ended with a status: its entry is due where it asks for one or the status is not 0, and otherwise it has
left the stream (R413). -/
def State.ended (u : State) (k : StreamId) (c : StreamCmd) (st : W32) : Prop :=
  (c.cmpl = true ∨ st ≠ 0#32) ↔ { c with phase := .done, status := st } ∈ (u.stream k).cmds

/-- The slot `j` behind the next to be accepted lies in sound host memory and holds these bytes. -/
def State.slotHolds (s : State) (k : StreamId) (j : Nat) (bs : List Byte) : Prop :=
  engineRange (hostWin ((s.stream k).sqBase + 64 * ((s.stream k).seqAt j % (s.stream k).slots))) 64 = some .host
    ∧ s.mem.hostPoisoned (hostAddr (hostWin ((s.stream k).sqBase + 64 * ((s.stream k).seqAt j % (s.stream k).slots)))) 64 = false
    ∧ s.mem.host.getRun 0#8 (hostAddr (hostWin ((s.stream k).sqBase + 64 * ((s.stream k).seqAt j % (s.stream k).slots)))) 64 = bs

/-- The command of a head slot passes the checks of R412, and has no continuation slots. `s1` is the state once the width of the
stream's context is known. -/
def State.admitsHead (s : State) (k : StreamId) (bs : List Byte) (c : StreamCmd) (s1 : State) : Prop :=
  c = StreamCmd.ofHead (s.stream k).nextUid bs ∧ c.conts false = 0
    ∧ ∃ w, s.streamWidth k = (s1, w) ∧ s1.cmdCheck c (byteAt bs 5) w = none

/-- The stream has accepted a command in one slot. -/
def accepted (s u : State) (k : StreamId) (c : StreamCmd) : Prop :=
  c ∈ (u.stream k).cmds ∧ (u.stream k).counter = (s.stream k).counter + 1#64
    ∧ (u.stream k).sqHead = ((s.stream k).sqHead + 1) % (s.stream k).span ∧ (u.stream k).waits = []

/-! ### Terms of the statements: Power, reset, bring-up and service (spec/14, spec/16, spec/17) -/

/-- Bring-up has run from step 3 with this boot store (R492, R493, R514): with no good firmware the module is in the ROM state, and
otherwise the firmware runs, the V_A rails stand at the target of POINT, and every Hoop link trains. -/
def State.booted (u : State) (c : CustS) : Prop :=
  u.svc.running = true ∧ u.cust.latched = decide (u.dict.num 0x7000 1 = 1) ∧ u.svc.node = u.svc.strap.val
    ∧ match c.bootFirmware with
      | none => u.svc.rom = true ∧ u.svc.alert = true ∧ u.svc.phase = 1
      | some f => u.svc.rom = false ∧ u.svc.phase = 2 ∧ u.svc.railsOn = true ∧ u.cust.svn = f.svn
          ∧ (∀ d, d < 4 → u.kettle.rails.get 0 d = pointVolt (u.dict.num 0x3000 1))
          ∧ (∀ l : LinkId, (u.hoop l).state = 1)

/-- The Belfry takes a write of ACTION: its checks pass (R517). -/
def State.actionGoes (s : State) (who : Principal) (w : W64) : Prop :=
  2 ≤ s.svc.phase ∧ (s.svc.tripped = false ∨ actCode w = 1) ∧ s.actionCheck who w = abNone

/-- The responder takes a message of this level on a carrier (R496). -/
def State.responds (s : State) (p : SpdmPath) (level : Nat) : Prop :=
  s.firmwareRuns = true ∧ s.spdmCarries p = true ∧ level ≤ (s.spdm p).level

/-- A signed response: the content, the device's nonce and the alias key's signature over the request and both (R497). -/
def State.signedReply (u s : State) (request content : List Byte) : Prop :=
  ∃ nonce, nonce.length = 32 ∧ u.reply.code = 0#32
    ∧ u.reply.data = content ++ nonce ++ Config.sm2Sign (Config.aliasKey s.cust.fwMeas) (request ++ (content ++ nonce))

/-! ### Terms of the statements: The dictionary (spec/14) -/

/-- A request of an operation passes the checks of its frame and is acted on, in its session or outside one (R458 to R461). -/
def State.accepts (s : State) (p : Path) (f : Pdu) (op : Nat) (ses : Option SessionS) : Prop :=
  s.reached p = true ∧ f.kind = 0#4 ∧ f.op.toNat = op ∧ f.broadcast = false ∧ s.pduCheck f = none ∧ s.verdict p f = .acts ses

/-- The key that tags the answers to a frame: its session's. -/
def State.frameKey (s : State) (p : Path) (f : Pdu) : List Byte :=
  match s.dict.session (pathNo p) f.session with
  | some x => x.key
  | none => []

/-- A request is answered with STATUS 0, ABORT 0 and these items. -/
def State.answered (s u : State) (p : Path) (f : Pdu) (items : List (List Byte)) : Prop :=
  u.reply.code = 0#32 ∧ u.reply.data = pduResponse f 0#32 0 items.flatten (s.frameKey p f)

/-! ### Terms of the statements: The CXL attachment (spec/12) -/

/-- A decoder answers for `n` bytes at a host address. -/
def hdmCovers (r : HdmReq) (a n : Nat) : Prop := r.base.toNat ≤ a ∧ a + n ≤ r.base.toNat + r.size.toNat

/-! ### Terms of the statements: Carillon ports (spec/08) -/

/-- The word of PORT_CTRL with these fields (R315). -/
def portCtrlWord (en : Bool) (wreq : Nat) (encReq : Bool) : W32 := BitVec.ofNat 32 (en.toNat + 2 * wreq + 8 * encReq.toNat)

/-- Both ends of a port have locked every lane of a half. -/
def Port.halfReady (x : Port) (half : Fin 2) : Prop :=
  halfLocked x.lanes half.val = true ∧ ∃ m, x.peer = some m ∧ halfLocked m.lanes half.val = true

/-! ### Terms of the statements: Carillon messages (spec/08) -/

/-- A message arrives on a port that carries, from a source not quarantined, with a sound header, for this module. -/
def State.forHere (s : State) (p : PortId) (m : Msg) : Prop :=
  s.carries p = true ∧ (s.port p).quarantines m.src.toNat = false ∧ s.headerBad p m = none ∧ m.dst.toNat = s.net.here

/-- The response answers the last message of a transfer, and no transfer waits for a tracker. -/
def State.lastAnswer (s : State) (m : Msg) (q : PortId) (slot : Nat) (x : Xfer) : Prop :=
  s.net.answers m = some (q, slot) ∧ s.net.xfer (s.net.tracker q slot).tile (s.net.tracker q slot).idx = some x ∧ x.tile = (s.net.tracker q slot).tile
    ∧ x.idx = (s.net.tracker q slot).idx ∧ x.todo = [] ∧ x.out = 1 ∧ x.nack = none ∧ x.timedOut = false ∧ x.failed = none ∧ x.ringDue = false
    ∧ ∀ y ∈ s.net.xfers, y.todo = []

/-! ### Terms of the statements: Peal (spec/09) -/

/-- The run of a descriptor just taken from its ring. -/
def PealRun.taken (a : Nat) (d : PealDesc) : PealRun :=
  { addr := a, d := d, phase := .starting, status := 0#32, rsGot := [], agGot := [], held := [], sums := [], handed := [], job := none,
    lotFault := none }

/-- The commands that take a descriptor of a slot, by their OP (R303). -/
def pealCommand (k : PealSlot) (op : Nat) : Instr := if op = 0 then .rs k else if op = 1 then .ag k else .ar k

/-- The slot takes the descriptor `d` of this OP from its ring in state `v`, with no fault held, its context cached and within the
width, and nothing to wait for. -/
def State.pealTakes (s v : State) (k : PealSlot) (op : Nat) (d : PealDesc) : Prop :=
  op < 3 ∧ (s.peal k).run = none ∧ (s.peal k).ring.ready = true
    ∧ (∃ t bs, s.readMem ((s.peal k).ring.entry 64) 64 (pealAxis k) = ⟨t, 0#32, bs⟩ ∧ pealCheck bs = none ∧ PealDesc.ofBytes bs = d
        ∧ v = t.setRun k (PealRun.taken ((s.peal k).ring.entry 64) d))
    ∧ d.op = op ∧ v.pealFaulted k = false ∧ d.startEn = false ∧ d.toClapper = false
    ∧ ∃ e, v.context (pealAxis k) d.ctx = (v, .inl e) ∧ withinWidth e.width d.src (d.inLen (v.net.ringLen k)) = true
        ∧ withinWidth e.width d.out (d.outLen (v.net.ringLen k)) = true

/-! ### Terms of the statements: Clapper (spec/10) -/

/-- A unit in service, with no fault held, runs a lot of an active job. -/
def State.lotAt (s : State) (u : Ctrl) (r : LotRun) (j : Job) : Prop :=
  s.xlat.faults.get none (clapFid u.val) = none ∧ s.unitServes u = true ∧ (s.net.cad.unit u).cur = some r
    ∧ s.net.cad.job r.lot.job = some j

/-- The lot at a unit fails with a status and leaves the unit, which counts it. -/
def State.lotLost (s : State) (u : Ctrl) (k : JobSlot) (j : Job) (lot : Nat) (st : W32) (v : State) : Prop :=
  v.net.cad.job k = some { j.failLot lot st with lastUnit := some u } ∧ (v.net.cad.unit u).cur = none
    ∧ (v.net.cad.unit u).lots = (s.net.cad.unit u).lots + 1#32

/-- The dispatcher may take the entry at the head of the update queue, which it reads as `bs`, its job's context being `e`. -/
def State.jobTaken (s : State) (v : State) (bs : List Byte) (e : CtxEntry) : Prop :=
  s.net.cad.uq.ready = true ∧ s.net.cad.active < 16 ∧ s.net.cad.wait = .none ∧ s.xlat.faults.get none (clapFid 16) = none
    ∧ ∃ t, s.readMem (s.net.cad.uq.entry 128) 128 4 = ⟨t, 0#32, bs⟩ ∧ t.context 4 (JobDesc.ofBytes bs).ctx = (v, .inl e) ∧ v.net = s.net

/-! ### Terms of the statements: Device registers (spec/00, spec/02) -/

/-- The address of the register at an offset of a block (R53). -/
def devAddr (b o : Nat) : Nat := 0x3F0000000000 + b * 2 ^ 32 + o

end Sys2Proof.Machine
end

