-- ==== Sys2Proof/Certificates/Slice0/Obligations.lean ====
section
/-! DEFINITION. The statements about the machine: what each command does where it completes, what it leaves, what stops or refuses
it, what reset leaves, and the invariants that a step keeps. `Gives c s P` says that `exec c s` answers a next state of which `P`
holds. -/

open Sys2Proof Sys2Proof.Machine

/-! ### The queue, reset, frames and the invariant -/

/-- One step takes the command at the front of the queue and runs it with the queue's rest; on an empty queue it answers the same
state. The queue and the idle step are the model's choices (assumptions 10 and 3). -/
def Obligations.StepRunsTheFrontCommand : Prop :=
  (∀ (c : Instr) (rest : List Instr) (s : State),
    step { s with pending := c :: rest } = exec c { s with pending := rest })
  ∧ (∀ s : State, s.pending = [] → step s = .next s)

/-- R18: the values after cold reset that the register tables give, block by block, with the registers of every bell (R167), tile
(R178), stream (R401), link (R370) and port (R315). -/
def Obligations.ResetValues : Prop :=
  (∀ e ∈ ([(4, 0x400000, 8, 0), (4, 0x400008, 8, 0), (4, 0x400010, 4, 0), (4, 0x400018, 4, 0), (4, 0x500000, 8, 0), (4, 0x500010, 8, 0),
      (4, 0x500018, 8, 0), (4, 0x500020, 4, 0), (4, 0x500030, 8, 0), (4, 0x500038, 8, 0), (4, 0x600000, 8, 0),
      (4, 0x600008, 8, 0xFFFFFFFFFFFFFFFF), (4, 0x600024, 4, 0), (4, 0x600040, 4, 0), (4, 0x60005C, 4, 0), (4, 0x600100, 8, 0),
      (4, 0x600178, 8, 0), (4, 0x600200, 8, 0), (4, 0x600278, 8, 0), (4, 0x700000, 8, 0), (4, 0x700008, 4, 0), (4, 0x70000C, 4, 0),
      (4, 0x700010, 4, 0x400), (4, 0x700014, 4, 0), (5, 0x101004, 4, 0), (5, 0x100000, 8, 0), (5, 0x200000, 4, 0), (5, 0x200004, 4, 0x0AF0),
      (5, 0x200008, 4, 0), (5, 0x200010, 8, 0), (5, 0x200020, 4, 0), (5, 0x200024, 4, 0), (5, 0x200028, 4, 0), (8, 0x20000, 4, 0),
      (8, 0x20008, 8, 0), (8, 0x20010, 4, 0), (8, 0x20014, 4, 0), (8, 0x20018, 4, 0), (8, 0x20028, 4, 0), (8, 0x2002C, 4, 0)] :
        List (Nat × Nat × Nat × Nat)), State.reset.reg e.1 e.2.1 = some e.2.2)
  ∧ (∀ b : BellId, ∃ x, x = State.reset.bell b ∧ x.count = 0#64 ∧ x.compl = 0xFFFFFFFFFFFFFFFF#64 ∧ x.mismatch = 0#32 ∧ x.lrel = 0#8
      ∧ x.lkind = 0#3 ∧ x.diag = false ∧ x.sat = false ∧ x.poison = false ∧ x.held = false)
  ∧ (∀ t : TileId, (State.reset.tile t).reg 0x1000 = some (8, 0) ∧ (State.reset.tile t).reg 0x1008 = some (8, 0)
      ∧ (State.reset.tile t).reg 0x1010 = some (4, 0))
  ∧ (∀ k : StreamId, ∀ e ∈ ([(0x00, 8, 0), (0x08, 8, 0), (0x10, 4, 0x46), (0x14, 4, 0), (0x20, 4, 0), (0x24, 4, 0), (0x28, 4, 0),
      (0x30, 8, 0)] : List (Nat × Nat × Nat)), (State.reset.stream k).reg e.1 = some e.2)
  ∧ (∀ l : LinkId, ∀ e ∈ ([(0x0000, 4, 0), (0x0004, 4, 0x4410), (0x0008, 4, 0), (0x0010, 8, 0), (0x0048, 8, 0), (0x0050, 8, 0), (0x0090, 8, 0),
      (0x0098, 8, 0), (0x00A0, 4, 0), (0x00A4, 4, 0), (0x00A8, 4, 0), (0x00B0, 8, 0), (0x00F0, 8, 0)] : List (Nat × Nat × Nat)),
      (State.reset.hoop l).reg e.1 = some e.2)
  ∧ (∀ p : PortId, ∀ e ∈ ([(0x0000, 4, 0), (0x0004, 4, 1), (0x0008, 8, 0), (0x0010, 8, 0), (0x0018, 8, 0), (0x0020, 4, 0), (0x0024, 4, 0),
      (0x0028, 4, 0), (0x0180, 4, 0)] : List (Nat × Nat × Nat)), (State.reset.port p).reg e.1 = some e.2)

/-- The invariant holds after reset: no command waits, memory lists nothing and no window is in use. -/
def Obligations.ResetIsSafe : Prop :=
  Safe State.reset

/-- A step keeps the invariant: the commands that wait stay well formed, memory stays in its canonical form (no entry reads as its
byte would unlisted, and addresses rise), and every window stays empty or legal (R244). -/
def Obligations.StepKeepsSafe : Prop :=
  ∀ s t : State, Safe s → step s = .next t → Safe t

/-- The frame of every command: it answers a next state, in which the queue and every part of the state are as before but the parts
that `partsOf` lists for the command. No command faults or is refused. -/
def Obligations.CommandFrames : Prop :=
  ∀ (c : Instr) (s : State), Gives c s fun t => ChangesOnly (partsOf c) s t

/-! ### Tiles -/

/-- R146, R140: the eight scalar operations of two registers, and their frame. R146: SADDI, SLI and SHI. -/
def Obligations.ScalarArithmetic : Prop :=
  (∀ (t : TileId) (k : Tok) (sd sa sb : Fin 32) (s : State), (s.tile t).goes k →
    ∀ e ∈ ([(.sadd t k sd sa sb, fun a b => a + b), (.ssub t k sd sa sb, fun a b => a - b),
        (.sand t k sd sa sb, fun a b => a &&& b), (.sor t k sd sa sb, fun a b => a ||| b),
        (.sxor t k sd sa sb, fun a b => a ^^^ b), (.sshl t k sd sa sb, fun a b => a <<< (b.toNat % 64)),
        (.sshr t k sd sa sb, fun a b => a >>> (b.toNat % 64)), (.smul t k sd sa sb, fun a b => a * b)] :
          List (Instr × (W64 → W64 → W64))),
      Gives e.1 s fun u => SeqOnly t k s u ∧ (u.tile t).pc = (s.tile t).pc + 8
        ∧ (s.tile t).wrote (u.tile t) sd (e.2 ((s.tile t).sreg sa) ((s.tile t).sreg sb)))
  ∧ (∀ (t : TileId) (k : Tok) (sd sa : Fin 32) (imm : W32) (s : State), (s.tile t).goes k →
    ∀ e ∈ ([(.saddi t k sd sa imm, (s.tile t).sreg sa + imm.signExtend 64), (.sli t k sd imm, imm.signExtend 64),
        (.shi t k sd imm, imm ++ ((s.tile t).sreg sd).truncate 32)] : List (Instr × W64)),
      Gives e.1 s fun u => SeqOnly t k s u ∧ (u.tile t).pc = (s.tile t).pc + 8 ∧ (s.tile t).wrote (u.tile t) sd e.2)

/-- R146, R142: SLD reads eight bytes of tile SRAM below SRAM_BYTES at an aligned address; nothing is stored. R146, R142, R224: SST
stores SB as eight bytes at SA + IMM and clears the held translations of the line it touches; every other byte of tile SRAM, and
everything else but the PC and the tokens, is as before. R136, R142, R146: SLD and SST at a misaligned address stop the tile
with 0x0101, at an aligned address beyond SRAM_BYTES with 0x0103, at the instruction's own PC; nothing is loaded or stored. -/
def Obligations.ScalarMemory : Prop :=
  (∀ (t : TileId) (k : Tok) (sd sa : Fin 32) (imm : W32) (s : State) (a : Nat), (s.tile t).goes k →
    a = ((s.tile t).sreg sa + imm.signExtend 64).toNat → a % 8 = 0 → a + 8 ≤ (s.tile t).sramBytes →
      Gives (.sld t k sd sa imm) s fun u => SeqOnly t k s u ∧ (u.tile t).pc = (s.tile t).pc + 8
        ∧ (s.tile t).wrote (u.tile t) sd (BitVec.ofNat 64 (natOfBytes ((s.tile t).load a 8))))
  ∧ (∀ (t : TileId) (k : Tok) (sa sb : Fin 32) (imm : W32) (s : State) (a : Nat), (s.tile t).goes k →
    a = ((s.tile t).sreg sa + imm.signExtend 64).toNat → a % 8 = 0 → a + 8 ≤ (s.tile t).sramBytes →
      Gives (.sst t k sa sb imm) s fun u =>
        TileOnly t s u ∧ (s.tile t).tokensMove (u.tile t) k ∧ (u.tile t).pc = (s.tile t).pc + 8
          ∧ (u.tile t).load a 8 = bytesOfNat 8 ((s.tile t).sreg sb).toNat
          ∧ (∀ b, b < a ∨ a + 8 ≤ b → (u.tile t).load b 1 = (s.tile t).load b 1)
          ∧ (u.tile t).xheld.get false (a / 128) = false
          ∧ { u.tile t with pc := (s.tile t).pc, tokens := (s.tile t).tokens, sram := (s.tile t).sram,
                            xheld := (s.tile t).xheld } = s.tile t)
  ∧ (∀ (t : TileId) (k : Tok) (sd sa sb : Fin 32) (imm : W32) (s : State) (a : Nat), (s.tile t).seqReady k = true →
    a = ((s.tile t).sreg sa + imm.signExtend 64).toNat →
      ∀ c ∈ ([.sld t k sd sa imm, .sst t k sa sb imm] : List Instr),
        (a % 8 ≠ 0 → Gives c s fun u => (u.tile t).stoppedWith 0x01010000#32 (s.tile t).pc
          ∧ (u.tile t).sregs = (s.tile t).sregs)
        ∧ (a % 8 = 0 → (s.tile t).sramBytes < a + 8 → Gives c s fun u =>
          (u.tile t).stoppedWith 0x01030000#32 (s.tile t).pc ∧ (u.tile t).sregs = (s.tile t).sregs))

/-- R146: a branch whose condition holds, and a jump, go to the PC plus IMM times 8, where that lies in the declared tile SRAM; a
branch whose condition fails goes to the next word. No register changes. R146, R136: a taken branch or a jump whose target lies
outside the declared tile SRAM stops the tile with 0x0103 at its PC. -/
def Obligations.BranchAndJump : Prop :=
  (∀ (t : TileId) (k : Tok) (sa sb : Fin 32) (imm : W32) (s : State), (s.tile t).goes k →
    (∀ e ∈ ([(.beq t k sa sb imm, (s.tile t).sreg sa = (s.tile t).sreg sb),
        (.bne t k sa sb imm, (s.tile t).sreg sa ≠ (s.tile t).sreg sb),
        (.blt t k sa sb imm, ((s.tile t).sreg sa).toInt < ((s.tile t).sreg sb).toInt),
        (.bltu t k sa sb imm, ((s.tile t).sreg sa).toNat < ((s.tile t).sreg sb).toNat),
        (.jmp t k imm, True)] : List (Instr × Prop)),
      (e.2 → ∀ g : Nat, (g : Int) = (s.tile t).pc + imm.toInt * 8 → g < (s.tile t).sramBytes →
        Gives e.1 s fun u => SeqOnly t k s u ∧ (u.tile t).sregs = (s.tile t).sregs ∧ (u.tile t).pc = g)
      ∧ (¬ e.2 → Gives e.1 s fun u =>
        SeqOnly t k s u ∧ (u.tile t).sregs = (s.tile t).sregs ∧ (u.tile t).pc = (s.tile t).pc + 8)))
  ∧ (∀ (t : TileId) (k : Tok) (sa sb : Fin 32) (imm : W32) (s : State), (s.tile t).seqReady k = true →
    ((s.tile t).pc + imm.toInt * 8 < 0 ∨ (s.tile t).sramBytes ≤ (s.tile t).pc + imm.toInt * 8) →
      ∀ e ∈ ([(.beq t k sa sb imm, (s.tile t).sreg sa = (s.tile t).sreg sb),
          (.bne t k sa sb imm, (s.tile t).sreg sa ≠ (s.tile t).sreg sb),
          (.blt t k sa sb imm, ((s.tile t).sreg sa).toInt < ((s.tile t).sreg sb).toInt),
          (.bltu t k sa sb imm, ((s.tile t).sreg sa).toNat < ((s.tile t).sreg sb).toNat),
          (.jmp t k imm, True)] : List (Instr × Prop)),
        e.2 → Gives e.1 s fun u => (u.tile t).stoppedWith 0x01030000#32 (s.tile t).pc)

/-- R146, R162, R174: NOP moves its tokens alone; HALT begins the end of the program; FENCE goes on once the queues it names have
completed, and until then changes nothing; FLAGS reads XFLAGS and then clears the flags that its immediate selects. R146, R41:
TALLY reads a value of the die's tally counter that is not below any value read of it before, and leaves the counter there. By
how much it has advanced is a free value (assumption 2). -/
def Obligations.SequencerControl : Prop :=
  (∀ (t : TileId) (k : Tok) (s : State), (s.tile t).goes k →
    (Gives (.nop t k) s fun u => SeqOnly t k s u ∧ (u.tile t).sregs = (s.tile t).sregs ∧ (u.tile t).pc = (s.tile t).pc + 8)
    ∧ (Gives (.halt t k) s fun u => TileOnly t s u ∧ (s.tile t).tokensMove (u.tile t) k ∧ (u.tile t).seq = .draining
        ∧ (u.tile t).pc = (s.tile t).pc + 8
        ∧ { u.tile t with seq := (s.tile t).seq, pc := (s.tile t).pc, tokens := (s.tile t).tokens } = s.tile t)
    ∧ (∀ (scope : Scope) (qmask : BitVec 3),
        ((s.tile t).covers qmask (s.tile t).appended = false → Gives (.fence t k scope qmask) s fun u =>
          SeqOnly t k s u ∧ (u.tile t).sregs = (s.tile t).sregs ∧ (u.tile t).pc = (s.tile t).pc + 8)
        ∧ ((s.tile t).covers qmask (s.tile t).appended = true → exec (.fence t k scope qmask) s = .next s))
    ∧ (∀ (sd : Fin 32) (clear : BitVec 7), Gives (.flags t k sd clear) s fun u =>
        TileOnly t s u ∧ (s.tile t).tokensMove (u.tile t) k ∧ (u.tile t).pc = (s.tile t).pc + 8
          ∧ (s.tile t).wrote (u.tile t) sd ((s.tile t).xflags.zeroExtend 64)
          ∧ (u.tile t).xflags = (s.tile t).xflags &&& ~~~ clear
          ∧ { u.tile t with pc := (s.tile t).pc, sregs := (s.tile t).sregs, tokens := (s.tile t).tokens,
                            xflags := (s.tile t).xflags } = s.tile t))
  ∧ (∀ (t : TileId) (k : Tok) (sd : Fin 32) (s : State), (s.tile t).goes k →
    Gives (.tally t k sd) s fun u =>
      (s.tile t).wrote (u.tile t) sd (u.tocsin.tally (t.val / 64)) ∧ (u.tile t).pc = (s.tile t).pc + 8
        ∧ (s.tile t).tokensMove (u.tile t) k
        ∧ ((s.tocsin.tally (t.val / 64)).toNat + Config.tallyStep s.fresh < 2 ^ 64 →
          (s.tocsin.tally (t.val / 64)).toNat ≤ (u.tocsin.tally (t.val / 64)).toNat)
        ∧ (∀ t', t' ≠ t → u.tile t' = s.tile t')
        ∧ { u.tile t with pc := (s.tile t).pc, sregs := (s.tile t).sregs, tokens := (s.tile t).tokens } = s.tile t)

/-- R147, R148, R150: the head of the matrix queue that passes its checks starts. An MMA changes the cells and the tag of its own
bank and the flags alone, and nothing with K = 0 or no problem enabled; a DRAIN to tile SRAM changes tile SRAM, the scale table
and the flags alone; SCLR clears its entries and their NaN bits; SSTO stores the 264 bytes of the scale table; SEED sets
SR_SEED. -/
def Obligations.MatrixStarts : Prop :=
  ∀ (t : TileId) (s : State) (h : QEntry) (rest : List QEntry), (s.tile t).headIs .matrix h rest →
    let x := (s.tile t).taken .matrix h rest
    let y := (s.tile t).begun .matrix h rest
    (∀ o, h.op = .mma o → x.mmaCheck o = none →
      Gives (.mma t false) s fun u => u = (s.putTile t (y.mmaRun o)).drawn
        ∧ (∃ c i f, y.mmaRun o = (y.setBank o.bank { y.bank o.bank with cells := c, int := i }).raise f)
        ∧ (o.k = 0 ∨ enabledProblems o.shape o.pmask = [] → u = (s.putTile t y).drawn))
    ∧ (∀ o, h.op = .drain o → x.drainCheck o = none →
      (o.viaVector = false → Gives (.drain t false) s fun u => ∃ z, u = (s.putTile t z).drawn ∧ z = y.drainRun o s.fresh
        ∧ { z with sram := y.sram, xheld := y.xheld, scale := y.scale, scaleNan := y.scaleNan, xflags := y.xflags } = y)
      ∧ (o.viaVector = true → Gives (.drain t false) s fun u => u = (s.putTile t (y.drainStart h o)).drawn))
    ∧ (∀ first count, h.op = .sclr first count → count ≤ 64 →
      Gives (.sclr t) s fun u => ∃ z, u = (s.putTile t z).drawn
        ∧ (∀ e, z.scale.get 0#32 e = if first ≤ e ∧ e < first + count then 0#32 else y.scale.get 0#32 e)
        ∧ (∀ e, e < 64 → z.scaleNan.getLsbD e = (!(decide (first ≤ e) && decide (e < first + count)) && y.scaleNan.getLsbD e))
        ∧ { z with scale := y.scale, scaleNan := y.scaleNan } = y)
    ∧ (∀ a, h.op = .ssto a → a.toNat % 32 = 0 → a.toNat + 264 ≤ x.sramBytes →
      Gives (.ssto t) s fun u => ∃ z, u = (s.putTile t z).drawn ∧ z.load a.toNat 264 = x.scaleImage
        ∧ (∀ b, b < a.toNat ∨ a.toNat + 264 ≤ b → z.load b 1 = y.load b 1)
        ∧ { z with sram := y.sram, xheld := y.xheld } = y)
    ∧ (∀ v, h.op = .seed v → Gives (.seed t) s fun u => u = (s.putTile t { y with srSeed := v }).drawn)

/-- R151, R152: a vector instruction that passes its checks starts. Where its sources are registers and its destination is a
register, it writes the lanes that its mask enables and nothing else; the compares and VCLASS write the enabled bits of their
mask register. -/
def Obligations.VectorStarts : Prop :=
  ∀ (t : TileId) (s : State) (h : QEntry) (rest : List QEntry) (op : VOp) (a : VecArgs), (s.tile t).headIs .vector h rest →
    h.op = .vec op a → ((s.tile t).taken .vector h rest).vecCheck op a = none →
    let y := (s.tile t).begun .vector h rest
    let va := y.vreg a.va
    let vb := y.vreg a.vb
    let vc := y.vreg a.vc
    (Gives (vecCommand t op) s fun u => u = (s.putTile t (y.vecRun op a)).drawn)
    ∧ (a.readsVdin op = false → a.vd ≠ 63 →
      ∀ e ∈ ([(.vadd, List.zipWith fp32Add va vb), (.vsub, List.zipWith fp32Sub va vb), (.vmul, List.zipWith fp32Mul va vb),
          (.vfma, List.zipWith (fun p z => fp32Fma p.1 p.2 z) (List.zip va vb) vc),
          (.vfnma, List.zipWith (fun p z => fp32Fnma p.1 p.2 z) (List.zip va vb) vc),
          (.vmin, List.zipWith fp32Min va vb), (.vmax, List.zipWith fp32Max va vb), (.vabs, va.map fp32Abs),
          (.vneg, va.map fp32Negate), (.vdiv, List.zipWith fp32Div va vb), (.vsqrt, va.map fp32Sqrt),
          (.vbcast, List.replicate 128 (a.sa.truncate 32)), (.vrsum, sumTree 7 va :: List.replicate 127 0#32),
          (.vrmax, maxLane va :: List.replicate 127 0#32), (.viadd, List.zipWith (· + ·) va vb),
          (.visub, List.zipWith (· - ·) va vb), (.vimul, List.zipWith (· * ·) va vb), (.vand, List.zipWith (· &&& ·) va vb),
          (.vor, List.zipWith (· ||| ·) va vb), (.vxor, List.zipWith (· ^^^ ·) va vb),
          (.vshl, va.map fun v : W32 => v <<< (a.imm % 32)), (.vshr, va.map fun v : W32 => v >>> (a.imm % 32)),
          (.vshra, va.map fun v : W32 => v.sshiftRight (a.imm % 32)), (.vcvtif, va.map cvtFromInt), (.vmov, va)] :
            List (VOp × Row)),
        op = e.1 → { y.vecRun op a with vregs := y.vregs } = y
          ∧ ∀ v, (y.vecRun op a).vreg v = if v = a.vd then maskedRow 128 (y.mreg a.msk) (y.vreg v) e.2 else y.vreg v)
    ∧ (a.readsVdin op = false → ∀ e ∈ ([(.vcmplt, List.zipWith fp32Lt va vb), (.vcmpeq, List.zipWith fp32Eq va vb),
          (.vclass, va.map (laneClass a.imm))] : List (VOp × List Bool)),
        op = e.1 → { y.vecRun op a with mregs := y.mregs } = y
          ∧ ∀ m, (y.vecRun op a).mreg m = if m = a.md ∧ m ≠ 0 then
              (y.mreg m &&& ~~~ y.mreg a.msk) ||| (maskOf 128 e.2 &&& y.mreg a.msk) else y.mreg m)
    ∧ (a.readsVdin op = false → a.vd ≠ 63 →
        (op = .vsel → ∀ v, (y.vecRun op a).vreg v = if v = a.vd then selectRow 128 (y.mreg a.msk) va vb else y.vreg v)
        ∧ (op = .vcvtfi → ∀ v, (y.vecRun op a).vreg v
            = if v = a.vd then maskedRow 128 (y.mreg a.msk) (y.vreg v) (va.map fun x => (cvtToInt a.rm x).1) else y.vreg v))

/-- R136: an engine instruction refused at its start stops the tile with its status at its own PC, and nothing of its effect
happens. R92: an MMA in which a parity error is found poisons its bank, sets PAR, empties the matrix queue, stops the tile with
TILE_FAULT detail 1 at its PC and takes it out of service. -/
def Obligations.EngineRefusal : Prop :=
  (∀ (t : TileId) (s : State) (h : QEntry) (rest : List QEntry) (st : W32),
    (∀ o, h.op = .mma o → (s.tile t).headIs .matrix h rest → ((s.tile t).taken .matrix h rest).mmaCheck o = some st →
      ∀ p, exec (.mma t p) s = .next (s.putTile t (((s.tile t).taken .matrix h rest).fail st h.pc h.idx)))
    ∧ (∀ o, h.op = .drain o → (s.tile t).headIs .matrix h rest → ((s.tile t).taken .matrix h rest).drainCheck o = some st →
      ∀ p, exec (.drain t p) s = .next (s.putTile t (((s.tile t).taken .matrix h rest).fail st h.pc h.idx)))
    ∧ (∀ op a, h.op = .vec op a → (s.tile t).headIs .vector h rest → ((s.tile t).taken .vector h rest).vecCheck op a = some st →
      exec (vecCommand t op) s = .next (s.putTile t (((s.tile t).taken .vector h rest).fail st h.pc h.idx)))
    ∧ (∀ x : Tile, x.stopped = false → (x.fail st h.pc h.idx).stoppedWith st h.pc))
  ∧ (∀ (t : TileId) (s : State) (h : QEntry) (rest : List QEntry) (o : MmaOp), (s.tile t).headIs .matrix h rest →
    (s.tile t).stopped = false → h.op = .mma o → ((s.tile t).taken .matrix h rest).mmaCheck o = none →
      Gives (.mma t true) s fun u =>
        ((u.tile t).bank o.bank).poisoned = true ∧ (u.tile t).xflags = (s.tile t).xflags ||| 0x40#7
          ∧ (u.tile t).matrixQ = [] ∧ (u.tile t).stoppedWith 0x07020001#32 h.pc ∧ (u.tile t).health = .outOfService
          ∧ (u.tile t).bank (!o.bank) = (s.tile t).bank (!o.bank) ∧ (u.tile t).sregs = (s.tile t).sregs)

/-- R132: a fetched engine word is appended to its queue while that holds fewer than 32; R153: MSUB hands its descriptor on; R138: a
running instruction that may complete leaves its engine. -/
def Obligations.FetchSubmitComplete : Prop :=
  ∀ (t : TileId) (s : State),
    ((s.tile t).seq = .running → (s.tile t).stopDue = none → (s.tile t).pc + 8 ≤ (s.tile t).sramBytes →
      (∀ k e o, decodeWord (s.tile t).sreg (s.tile t).word = .ok (k, .eng e o) → ((s.tile t).queue e).length < 32 →
        Gives (.instructionFetch t) s fun u => u = s.setTile t ((s.tile t).append e k o)
          ∧ (u.tile t).queue e = (s.tile t).queue e ++ [{ idx := (s.tile t).appended, pc := (s.tile t).pc, tok := k, op := o }]
          ∧ (u.tile t).pc = (s.tile t).pc + 8)
      ∧ (∀ k o, decodeWord (s.tile t).sreg (s.tile t).word = .ok (k, .seq o) →
        Gives (.instructionFetch t) s fun u => u = s.seqExec t k o))
    ∧ (∀ h rest a, (s.tile t).headIs .move h rest → h.op = .msub a → a.toNat % 128 = 0 → a.toNat + 128 ≤ (s.tile t).sramBytes →
      Gives (.msub t) s fun u => u = (s.putTile t { (s.tile t).taken .move h rest with
        descs := (s.tile t).descs ++ [InFlight.submitted h a.toNat] }).drawn)
    ∧ (∀ e r, (s.tile t).running.find? (fun q => q.2.idx = r.idx) = some (e, r) → (s.tile t).canComplete e r.idx = true →
      Gives (.instructionCompletion t e r.idx) s fun u => u = s.putTile t ((s.tile t).complete r.idx)
        ∧ ∀ q ∈ ((s.tile t).complete r.idx).running, q.2.idx ≠ r.idx)

/-- R174, R175: a stop that is due is taken; a program ends once its work has drained; a tile clear empties what R175 names, keeps
SR_SEED and frees the tile. -/
def Obligations.TileLifeCycle : Prop :=
  ∀ (t : TileId) (s : State),
    (∀ st, (s.tile t).stopDue = some st → (s.tile t).live = true → (s.tile t).stopped = false →
      Gives (.tileStop t) s fun u => (u.tile t).seq = .stopped ∧ (u.tile t).stop = st ∧ (u.tile t).failPc = (s.tile t).pc
        ∧ (u.tile t).ownStop = false)
    ∧ ((s.tile t).seq = .draining → (s.tile t).drained = true →
      Gives (.tileProgramEnd t) s fun u => u = s.setTile t { s.tile t with seq := .idle })
    ∧ ((s.tile t).seq = .clearing → Gives (.tileClearEnd t) s fun u => TileOnly t s u ∧ (u.tile t).seq = .idle
        ∧ (u.tile t).kernel = none ∧ (∀ a, (u.tile t).load a 1 = [0#8]) ∧ (∀ r, (u.tile t).sreg r = 0#64)
        ∧ (∀ r, (u.tile t).vreg r = zeroRow) ∧ (∀ r, r ≠ 0 → (u.tile t).mreg r = 0#128) ∧ (u.tile t).pc = 0
        ∧ (∀ c, (u.tile t).tokens.get 0 c = 0) ∧ (u.tile t).bank0 = Bank.reset ∧ (u.tile t).bank1 = Bank.reset
        ∧ (∀ e, (u.tile t).scale.get 0#32 e = 0#32) ∧ (u.tile t).scaleNan = 0#64 ∧ (u.tile t).srSeed = (s.tile t).srSeed
        ∧ (u.tile t).health = (s.tile t).health ∧ (u.tile t).qmask = (s.tile t).qmask)

/-- R84: SR_SEED is set by SEED; a core's write of it takes effect while no kernel holds the tile and is discarded and counted while
one does; a reset of the tile clears it; admission and completion leave it. -/
def Obligations.SeedRegister : Prop :=
  ∀ (t : TileId) (s : State),
    (∀ h rest v, (s.tile t).headIs .matrix h rest → h.op = .seed v → Gives (.seed t) s fun u => (u.tile t).srSeed = v)
    ∧ (∀ v, (s.tile t).kernel = none → Gives (.srSeedWrite t v) s fun u => (u.tile t).srSeed = v)
    ∧ (∀ v, (s.tile t).kernel ≠ none → Gives (.srSeedWrite t v) s fun u =>
        u = { s with tele := { s.tele with discards := satInc64 s.tele.discards } })
    ∧ (State.reset.tile t).srSeed = 0#64
    ∧ (∀ who, s.actionGoes who (actionWord 1 0 0 0) → Gives (.coldReset who) s fun u => (u.tile t).srSeed = 0#64)
    ∧ (∀ who, s.actionGoes who (actionWord 0x11 1 t.val 0) → s.unitNamed 0x11 1 t.val = some (.tile t) →
        Gives (.bringBack who (.tile t)) s fun u => (u.tile t).srSeed = 0#64)
    ∧ (∀ who, s.actionGoes who (actionWord 0x12 1 t.val 0) → Gives (.retest who t) s fun u => (u.tile t).srSeed = 0#64)
    ∧ (∀ who d, s.actionGoes who (actionWord 0x13 0 (d : ADie).val 0) → tileDie t = d.val →
        Gives (.dieReset who d) s fun u => (u.tile t).srSeed = 0#64)
    ∧ (∀ pt pb, Gives (.launch pt pb) s fun u => (u.tile t).srSeed = (s.tile t).srSeed)
    ∧ (∀ kid, Gives (.completionRecord kid) s fun u => (u.tile t).srSeed = (s.tile t).srSeed)
    ∧ Gives (.tileClearEnd t) s fun u => (u.tile t).srSeed = (s.tile t).srSeed

/-! ### Bells, kernels and moves -/

/-- R165, R164, R167, R259: SET of a bell that no kernel holds writes its count and clears POISON and SAT; of a held bell it changes
no count. A core's RING adds, as a PACKAGE release by that core, up to all ones, where SAT is set; a poisoned bell takes none.
In one batch the SETs come before the RINGs, however the operations stand. R160, R161: RING posts a release of a bell of the
kernel and goes on; a posted RING that its instructions no longer hold back adds its increment at the bell's home, as a release
by its tile; WAIT goes on at once where the count has reached its threshold, and otherwise the sequencer waits. -/
def Obligations.BellOperations : Prop :=
  (∀ (b : BellId) (s : State),
    (∀ v, ((s.bell b).held = false → Gives (.set b v) s fun u =>
        (u.bell b).count = v ∧ (u.bell b).sat = false ∧ (u.bell b).sound)
      ∧ ((s.bell b).held = true → Gives (.set b v) s fun u => (u.bell b).count = (s.bell b).count))
    ∧ (∀ c n, (s.bell b).sound → (s.bell b).count.toNat + n.toNat < 2 ^ 64 →
        Gives (.ringRegisterWrite c b n) s fun u => (u.bell b).count = (s.bell b).count + n ∧ (u.bell b).sound
          ∧ (u.bell b).sat = (s.bell b).sat ∧ (u.bell b).lkind = 2#3 ∧ (u.bell b).lrel = BitVec.ofNat 8 c.val
          ∧ (u.bell b).lscope = .package)
    ∧ (∀ c n, (s.bell b).sound → 2 ^ 64 ≤ (s.bell b).count.toNat + n.toNat →
        Gives (.ringRegisterWrite c b n) s fun u => (u.bell b).count = BitVec.allOnes 64 ∧ (u.bell b).sat = true)
    ∧ (∀ c n, (s.bell b).poison = true → Gives (.ringRegisterWrite c b n) s fun u => (u.bell b).count = (s.bell b).count)
    ∧ (∀ (die : ADie) c n v, (b.val / 4096 = die.val) → (s.bell b).held = false → v.toNat + n.toNat < 2 ^ 64 →
        ∀ ops, ops = [.set b v, .coreRing c b n] ∨ ops = [.coreRing c b n, .set b v] →
          Gives (.bellBatch die ops) s fun u => (u.bell b).count = v + n ∧ (u.bell b).sound))
  ∧ (∀ (t : TileId) (s : State),
    (∀ k bell scope qmask n b, (s.tile t).seqReady k = true → s.localBell t bell.toNat = some b → (s.tile t).rings.length < 16 →
      Gives (.ring t k bell scope qmask n) s fun u => TileOnly t s u ∧ (u.tile t).pc = (s.tile t).pc + 8
        ∧ (u.tile t).rings = (s.tile t).rings ++
            [{ bell := b, scope := scope, qmask := qmask, n := (s.tile t).ringN n, upto := (s.tile t).appended,
               pc := (s.tile t).pc, tok := k }]
        ∧ (u.tile t).sregs = (s.tile t).sregs ∧ (u.tile t).sram = (s.tile t).sram)
    ∧ (∀ r, (s.tile t).dueRing = some r → (s.bell r.bell).sound → (s.bell r.bell).count.toNat + r.n.toNat < 2 ^ 64 →
      Gives (.ringFire t) s fun u => (u.bell r.bell).count = (s.bell r.bell).count + r.n ∧ (u.bell r.bell).lkind = 1#3
        ∧ (u.bell r.bell).lrel = BitVec.ofNat 8 t.val ∧ (u.bell r.bell).lscope = r.scope)
    ∧ (∀ k bell scope (treg : Fin 32) b, (s.tile t).goes k → s.localBell t bell.toNat = some b → (s.bell b).sound →
      (((s.tile t).sreg treg).toNat ≤ (s.bell b).count.toNat →
        Gives (.wait t k bell scope treg) s fun u => (u.tile t).seq = .running ∧ (u.tile t).pc = (s.tile t).pc + 8
          ∧ (u.tile t).sregs = (s.tile t).sregs ∧ (u.bell b).count = (s.bell b).count)
      ∧ ((s.bell b).count.toNat < ((s.tile t).sreg treg).toNat →
        Gives (.wait t k bell scope treg) s fun u => (u.tile t).seq = .inWait ∧ (u.tile t).pc = (s.tile t).pc
          ∧ (u.tile t).sregs = (s.tile t).sregs ∧ (u.bell b).count = (s.bell b).count)))

/-- R170, R173, R390: a launch entry whose checks pass is admitted: the kernel has its number, every tile chosen holds it and every
bell chosen is held and set to zero by it. R390, R174: a terminate entry marks every kernel with its tag terminated, and where
there is none sets NOMATCH; R175: once every tile of a kernel has ended, its completion record releases its bells and its
number, and its tiles are being cleared. -/
def Obligations.KernelLifeCycle : Prop :=
  (∀ (s : State) (pt : List TileId) (pb : List BellId) (s1 : State) (bs : List Byte) (s2 : State) (ctx : W32) (s3 : State)
    (hdr : List Byte) (ts : List TileId) (bells : List Nat),
    s.lqTake 0 = (s1, some bs) → ctx = w32At bs 0x30 → s1.launchCtx ctx = (s2, true) →
    s2.readVirt 4 ctx (w64At bs 0x10).toNat 128 3 = (s3, stOk, hdr) →
    s3.admission (Image.ofBytes hdr) pt pb = .ok (ts, bells) → (Image.ofBytes hdr).tileCount ≠ 0 →
      Gives (.launch pt pb) s fun u =>
        (∃ k, u.kernel s3.kern.nextKid = some k ∧ k.tag = w64At bs 0x20 ∧ k.tiles = ts ∧ k.bells = bells ∧ k.ctx = ctx
          ∧ k.terminated = false)
        ∧ u.kern.nextKid = s3.kern.nextKid + 1
        ∧ (∀ t ∈ ts, (u.tile t).kernel = some s3.kern.nextKid)
        ∧ (∀ t, t ∉ ts → (u.tile t).kernel = (s3.tile t).kernel)
        ∧ (∀ b ∈ bells, (u.bell b).held = true ∧ (u.bell b).count = 0#64))
  ∧ ((∀ (s s1 : State) (bs : List Byte), s.lqTake 1 = (s1, some bs) →
    (∃ kid k, (kid, some k) ∈ s1.kern.kernels ∧ k.tag = w64At bs 0x20) →
    (s1.kern.kernels.map Prod.fst).Nodup →
      Gives .terminate s fun u => ∀ kid k, (kid, some k) ∈ s1.kern.kernels → k.tag = w64At bs 0x20 →
        u.kernel kid = some { k with terminated := true })
  ∧ (∀ (s s1 : State) (bs : List Byte), s.lqTake 1 = (s1, some bs) →
    (∀ kid k, (kid, some k) ∈ s1.kern.kernels → k.tag ≠ w64At bs 0x20) →
      Gives .terminate s fun u => u.kern.lqNoMatch = true ∧ u.kern.lqErrIndex = s.kern.lq.head ∧ u.tiles = s1.tiles)
  ∧ (∀ (s : State) (kid : Nat) (k : Kernel), s.kernel kid = some k → (k.tiles.all fun t => (s.tile t).ended) = true →
        Gives (.completionRecord kid) s fun u => u.kernel kid = none
          ∧ (∀ t ∈ k.tiles, (u.tile t).seq = .clearing ∧ (u.tile t).kernel = none)
          ∧ (∀ b ∈ k.bells, (u.bell b).held = false)))

/-- R154, R156: COPY, TRANSPOSE, FILL and INLINE, at their turn, read their source rows and write the rows that their kind makes of
them, and are done. R157: a submitted descriptor whose checks pass and that has no virtual side is accepted. R158, R138: a
descriptor that is done, refused or revoked completes at its turn: its STATUS word stands at offset 0x38, it leaves the tile's
descriptors in flight, its MSUB signal is given, and where it succeeded and asks for a ring its bell gains N. -/
def Obligations.MoveDescriptors : Prop :=
  ((∀ (t : TileId) (i : Nat) (s : State) (f : InFlight) (d : MoveDesc) (c : Instr), moveCommand t i d.kind = some c →
    (s.tile t).mayStart i d.kind = some (f, d) → ¬ (f.host = true ∧ s.cxl.state = 2) →
      ((d.cols = 0 ∨ d.rows = 0) → Gives c s fun u => u = s.setDesc t i { f with phase := .done })
      ∧ (d.cols ≠ 0 → d.rows ≠ 0 → (s.readRows t f d).2.1 = stOk →
        ((s.readRows t f d).1.writeRows t f d (d.output (s.readRows t f d).2.2)).2 = stOk →
          Gives c s fun u => u = ((s.readRows t f d).1.writeRows t f d (d.output (s.readRows t f d).2.2)).1.setDesc t i
            { f with phase := .done }))
  ∧ (∀ (t : TileId) (i : Nat) (s : State) (f : InFlight) (d : MoveDesc), (s.tile t).mayStart i .inline = some (f, d) →
      f.host = false → d.dstSram = true → d.cols ≠ 0 → d.rows = 1 → d.cols ≤ d.data.length → d.kind = .inline →
        Gives (.inline t i) s fun u => (u.tile t).load d.dst.toNat d.cols = d.data.take d.cols
          ∧ ∀ b, b < d.dst.toNat ∨ d.dst.toNat + d.cols ≤ b → (u.tile t).load b 1 = (s.tile t).load b 1)
  ∧ (∀ (t : TileId) (i : Nat) (s : State) (f : InFlight) (d : MoveDesc), (s.tile t).mayStart i .copy = some (f, d) →
      f.host = false → d.kind = .copy → d.srcSram = true → d.dstSram = true → d.cols ≠ 0 → d.rows = 1 →
        Gives (.copy t i) s fun u => (u.tile t).load d.dst.toNat d.rowBytes = (s.tile t).load d.src.toNat d.rowBytes
          ∧ ∀ b, b < d.dst.toNat ∨ d.dst.toNat + d.rowBytes ≤ b → (u.tile t).load b 1 = (s.tile t).load b 1)
  ∧ (∀ (t : TileId) (s : State) (i : Nat) (f : InFlight) (k : Kernel) (d : MoveDesc),
      (s.tile t).descs.findIdx? (fun f => f.phase = .submitted) = some i → (s.tile t).descs[i]? = some f →
      (s.tile t).kernel.bind s.kernel = some k → ((s.tile t).descs.any fun f => f.phase = .faulted) = false → f.d = none →
      s.descCheck k (s.tile t).sramBytes ((s.tile t).load f.off 128) = .ok d → d.virtSide = none →
        Gives (.descriptorAccept t) s fun u => u = s.setDesc t i { f with d := some d, phase := .accepted }))
  ∧ (∀ (t : TileId) (i : Nat) (s : State) (f : InFlight) (st : W32), (s.tile t).descs[i]? = some f → f.outcome = some st →
    (s.tile t).turn i f = true →
      ((s.tile t).stopped = false → (∀ d, f.d = some d → d.ringEn = false ∨ st ≠ 0#32) →
        (∀ c, f.tok.signal = some c → (s.tile t).tokens.get 0 c.val < 255) →
        Gives (.descriptorComplete t i) s fun u => TileOnly t s u
          ∧ (u.tile t).load (f.off + 0x38) 8 = bytesOfNat 4 st.toNat ++ bytesOfNat 4 f.ext.toNat
          ∧ (u.tile t).descs = (s.tile t).descs.eraseIdx i
          ∧ (∀ b, b < f.off + 0x38 ∨ f.off + 0x40 ≤ b → (u.tile t).load b 1 = (s.tile t).load b 1)
          ∧ (∀ c : Fin 8, (u.tile t).tokens.get 0 c.val
              = (s.tile t).tokens.get 0 c.val + (if f.tok.signal = some c then 1 else 0)))
      ∧ (∀ d b, f.d = some d → d.ringEn = true → d.kind ≠ .put → st = 0#32 → s.localBell t d.bell = some b → (s.bell b).sound →
        (s.bell b).count.toNat + d.n.toNat < 2 ^ 64 →
        Gives (.descriptorComplete t i) s fun u => (u.bell b).count = (s.bell b).count + d.n.zeroExtend 64
          ∧ (u.bell b).lkind = 1#3 ∧ (u.bell b).lrel = BitVec.ofNat 8 t.val ∧ (u.bell b).lscope = d.scope))

/-! ### Memory and the cores -/

/-- R51, R188, R196, R198, R206: one request at the home of an address. A read of a sound span answers status 0 and the bytes that
the memory holds, and changes no byte; a write answers 0, its bytes stand there and every other byte is as it was; an address
outside the memories answers 0x0103, a stack out of service 0x0301, and nothing is stored. The host window is host memory. -/
def Obligations.MemoryReadWrite : Prop :=
  ∀ (ag : Agent) (a : Nat) (s : State),
    (∀ n, engineRange a n = none → s.hostWaits a = false → Gives (.memoryRead ag a n) s fun u => u = s.answer 0x01030000#32 [])
    ∧ (∀ bs, engineRange a bs.length = none → s.hostWaits a = false →
        Gives (.memoryWrite ag a bs) s fun u => u = s.answer 0x01030000#32 [])
    ∧ (∀ n r, engineRange a n = some r → r ≠ .host →
        (s.serves a (agentDie ag) = true → s.mem.clean a n →
          Gives (.memoryRead ag a n) s fun u => u.reply = ⟨0#32, s.mem.load a n⟩ ∧ u.mem = s.mem)
        ∧ (s.serves a (agentDie ag) = false →
          Gives (.memoryRead ag a n) s fun u => u.reply.code = 0x03010000#32 ∧ u.mem = s.mem))
    ∧ (∀ bs r, engineRange a bs.length = some r → r ≠ .host →
        (s.serves a (agentDie ag) = true → s.mem.clean a bs.length →
          Gives (.memoryWrite ag a bs) s fun u => u.reply = ⟨0#32, []⟩ ∧ u.mem.load a bs.length = bs
            ∧ ∀ b, b < a ∨ a + bs.length ≤ b → u.mem.load b 1 = s.mem.load b 1)
        ∧ (s.serves a (agentDie ag) = false →
          Gives (.memoryWrite ag a bs) s fun u => u.reply.code = 0x03010000#32 ∧ u.mem = s.mem))
    ∧ (∀ n, engineRange a n = some .host → s.routed a (agentDie ag) = true → s.cxl.state = 1 →
        s.mem.hostPoisoned (hostAddr a) n = false →
          Gives (.memoryRead ag a n) s fun u => u.reply = ⟨0#32, s.mem.host.getRun 0#8 (hostAddr a) n⟩ ∧ u.mem = s.mem)
    ∧ (∀ bs, engineRange a bs.length = some .host → s.routed a (agentDie ag) = true → s.cxl.state = 1 →
        Gives (.memoryWrite ag a bs) s fun u => u.reply = ⟨0#32, []⟩ ∧ u.mem.host.getRun 0#8 (hostAddr a) bs.length = bs
          ∧ u.mem.mem = s.mem.mem)

/-- R50: device physical address 0x1000_0000_0000 + h is host address h for h below 16 TiB, and no device physical address reaches a
host address beyond. A served request there reads and writes the host's bytes at h. -/
def Obligations.HostWindowMap : Prop :=
  (∀ a, regionOf a = .host ↔ ∃ h, h < 2 ^ 44 ∧ a = 0x100000000000 + h)
  ∧ ∀ (ag : Agent) (h : Nat) (s : State), s.routed (0x100000000000 + h) (agentDie ag) = true → s.cxl.state = 1 →
      (∀ n, 0 < n → h + n ≤ 2 ^ 44 → s.mem.hostPoisoned h n = false →
        Gives (.memoryRead ag (0x100000000000 + h) n) s fun u => u.reply = ⟨0#32, s.mem.host.getRun 0#8 h n⟩ ∧ u.mem = s.mem)
      ∧ ∀ bs : List Byte, bs ≠ [] → h + bs.length ≤ 2 ^ 44 →
        Gives (.memoryWrite ag (0x100000000000 + h) bs) s fun u => u.reply = ⟨0#32, []⟩
          ∧ u.mem.host.getRun 0#8 h bs.length = bs ∧ u.mem.mem = s.mem.mem

/-- R198: a request for near or deep memory is refused at once with 0x0301 where a stack of its region is out of service, its home
stack among them, and no byte of memory is read or written, no error counted and no poison set. -/
def Obligations.StackOutOfService : Prop :=
  ∀ (ag : Agent) (a : Nat) (s : State),
    ((s.mem.ctrl (s.mem.homeOf a)).state ≠ 0 → s.mem.serves a = false)
    ∧ (s.mem.serves a = false →
        (∀ n r, engineRange a n = some r → r ≠ .host → Gives (.memoryRead ag a n) s fun u =>
          u.reply = ⟨0x03010000#32, []⟩ ∧ u.mem = s.mem)
        ∧ ∀ bs r, engineRange a bs.length = some r → r ≠ .host →
            Gives (.memoryWrite ag a bs) s fun u => u.reply = ⟨0x03010000#32, []⟩ ∧ u.mem = s.mem)

/-- R183, R187, R190, R197, R211, R214, R215, R545: what the memory system's own commands write. QMODE takes the word written into
its half, and MAP_GEN counts a change and no other write; a POOL register takes a size within the tier and keeps HELD; the
patrol reads the next codeword, corrects what it can and moves on; inner corrections are added; a late response changes nothing
else; a timed-out write-back is kept; a failed stack is out of service. -/
def Obligations.MemoryUpkeep : Prop :=
  ∀ s : State,
    (∀ v, Gives (.qmodeWrite true v) s fun u => u.mem.qmode = v ++ s.mem.qmode.truncate 64
        ∧ u.mem.mapGen = s.mem.mapGen + (if u.mem.qmode = s.mem.qmode then 0#32 else 1#32))
    ∧ (∀ v, Gives (.qmodeWrite false v) s fun u => u.mem.qmode = (s.mem.qmode >>> 64).truncate 64 ++ v
        ∧ u.mem.mapGen = s.mem.mapGen + (if u.mem.qmode = s.mem.qmode then 0#32 else 1#32))
    ∧ (∀ (p : Fin 6) v, v.toNat ≤ poolCapacity p.val →
        Gives (.poolWrite p v) s fun u => u.mem.pools.get Pool.empty p.val
          = { size := v.toNat, held := (s.mem.pools.get Pool.empty p.val).held })
    ∧ (∀ (p : Fin 6) v, poolCapacity p.val < w64Bits v 0 19 →
        Gives (.poolWrite p v) s fun u => u.mem = s.mem ∧ u.tele.discards = satInc64 s.tele.discards)
    ∧ (∀ (c : Ctrl) cw, (s.mem.ctrl c.val).period ≠ 0#8 → (s.mem.ctrl c.val).state = 0 →
        cw = s.mem.patrolNext c.val (max (s.mem.ctrl c.val).patrol (tierBase c.val)) 64 → cw + 1 < tierEnd c.val →
        s.mem.poison.get false cw = false → s.mem.homeOf (cw * 64) = c.val →
          (s.mem.cwErr.get CwErr.none cw ≠ .uncorrectable →
            Gives (.patrolScrub c) s fun u => (u.mem.ctrl c.val).patrol = cw + 1 ∧ u.mem.cwErr.get CwErr.none cw = .none
              ∧ u.mem.poison.get false cw = false ∧ u.mem.bytes = s.mem.bytes)
          ∧ (s.mem.cwErr.get CwErr.none cw = .uncorrectable →
            Gives (.patrolScrub c) s fun u => (u.mem.ctrl c.val).patrol = cw + 1 ∧ u.mem.poison.get false cw = true
              ∧ (u.mem.ctrl c.val).lastUe = cw * 64 ∧ (u.mem.ctrl c.val).ue = satInc32 (s.mem.ctrl c.val).ue
              ∧ u.mem.bytes = s.mem.bytes))
    ∧ (∀ (c : Ctrl) n, Gives (.ceInnerCollect c n) s fun u => (u.mem.ctrl c.val).ceInner = satAdd64 (s.mem.ctrl c.val).ceInner n
        ∧ u.mem.bytes = s.mem.bytes)
    ∧ (∀ (ag : Agent) a, (ag, a) ∈ s.mem.timedOut →
        Gives (.lateResponseDiscard ag a) s fun u => u.mem.timedOut = s.mem.timedOut.erase (ag, a) ∧ u.mem.bytes = s.mem.bytes
          ∧ u.reply = s.reply)
    ∧ (∀ a l, s.cache.line a = some l → l.dirty = true → s.cache.retry.contains (a / 128) = false →
        Gives (.lowerTierTimeout .cache a) s fun u => u.cache.retry = s.cache.retry ++ [a / 128] ∧ u.cache.line a = some l
          ∧ (Agent.cache, a) ∈ u.mem.timedOut)
    ∧ (∀ p a, Gives (.lowerTierTimeout (.port p) a) s fun u => u.reply.code = 0x03020000#32 ∧ (Agent.port p, a) ∈ u.mem.timedOut)
    ∧ (∀ c : Ctrl, (s.mem.ctrl c.val).state ≠ 2 →
        Gives (.stackFailure c) s fun u => (u.mem.ctrl c.val).state = 2 ∧ u.mem.mapGen = s.mem.mapGen + 1#32
          ∧ u.mem.bytes = s.mem.bytes)

/-- R196, R205, R208: a load answers the bytes of the line as the cores see it, a store changes just the bytes it names and leaves
the line dirty in the caches, an atomic answers the old operand and leaves the new one; a poisoned byte raises the access fault
of the access, and a misaligned atomic the misaligned fault. R208, R210: where the predictor counts two or more for a line that
no cache holds, the home operates: memory holds the new operand, and the core receives the old one. -/
def Obligations.CoreAccess : Prop :=
  (∀ (c : CoreId) (s : State) (a : Nat),
    (∀ n fetch hint victims, s.coreMay c a n → s.goodLine a →
      Gives (.coreLoad c a n fetch hint victims) s fun u => u.reply = ⟨0#32, ((s.seenLine a).drop (a % 128)).take n⟩
        ∧ (u.core c).trap = none
        ∧ (u.core c).value = BitVec.ofNat 64 (natOfBytes (((s.seenLine a).drop (a % 128)).take n |>.take 8)))
    ∧ (∀ n fetch hint victims l, s.coreMay c a n → s.cache.line a = some l → l.poisonAt a = true →
      Gives (.coreLoad c a n fetch hint victims) s fun u =>
        (u.core c).trap = some (if fetch then .fetchFault else .loadFault) ∧ u.reply = s.reply)
    ∧ (∀ bs hint, s.coreMay c a bs.length →
      Gives (.coreStore c a bs hint []) s fun u => (u.core c).trap = none
        ∧ ∃ l, u.cache.line a = some l ∧ l.dirty = true ∧ l.holders = [c] ∧ l.data
            = (s.seenLine a).take (a % 128) ++ (bs ++ (s.seenLine a).drop (a % 128 + bs.length)))
    ∧ (∀ op wide v cmp n old, n = (if wide then 8 else 4) → s.coreMay c a n → a % n = 0 → s.goodLine a →
        s.writeBackWaits a = false → s.cache.predicted c (a / 128) < 2 → old = ((s.seenLine a).drop (a % 128)).take n →
      Gives (.coreAmo c op a wide v cmp) s fun u => u.reply = ⟨0#32, old⟩ ∧ (u.core c).value = amoOld wide old
        ∧ (u.core c).trap = none
        ∧ ∃ l, u.cache.line a = some l ∧ l.dirty = true ∧ l.amoBy = some c ∧ l.data
            = (s.seenLine a).take (a % 128) ++ (amoBytes op wide old v cmp ++ (s.seenLine a).drop (a % 128 + n)))
    ∧ (∀ op wide v cmp, (s.core c).state = 1 → a % (if wide then 8 else 4) ≠ 0 →
      Gives (.coreAmo c op a wide v cmp) s fun u => (u.core c).trap = some .storeMisaligned ∧ u.cache = s.cache))
  ∧ (∀ (c : CoreId) (op : AmoOp) (a : Nat) (wide : Bool) (v cmp : W64) (s : State) (n : Nat), n = (if wide then 8 else 4) →
    s.coreMay c a n → a % n = 0 → s.cache.line a = none → regionOf a = .near ∨ regionOf a = .deep →
    s.serves a 4 = true → s.mem.clean a n → 2 ≤ s.cache.predicted c (a / 128) →
      Gives (.coreAmo c op a wide v cmp) s fun u => u.reply = ⟨0#32, s.mem.load a n⟩
        ∧ (u.core c).value = amoOld wide (s.mem.load a n) ∧ u.mem.load a n = amoBytes op wide (s.mem.load a n) v cmp
        ∧ u.cache.line a = none ∧ ∀ b, b < a ∨ a + n ≤ b → u.mem.load b 1 = s.mem.load b 1)

/-- R265, R379, R545: cbo.clean writes a dirty line home and keeps it clean; cbo.flush, and cbo.inval as it, also take it out of the
caches; a line whose home cannot take it is discarded and counted. A retried write-back that its home accepts ends its retry. -/
def Obligations.CacheBlocks : Prop :=
  ∀ (c : CoreId) (a : Nat) (s : State),
    ((s.core c).state = 1 → (regionOf a).isMem = true → s.writeBackWaits a = false → s.homeTakes a = 0#32 →
      (Gives (.cboClean c a) s fun u => cleaned s u a false ∧ (u.core c).trap = none)
      ∧ (Gives (.cboFlush c a) s fun u => cleaned s u a true ∧ (u.core c).trap = none)
      ∧ (Gives (.cboInval c a) s fun u => cleaned s u a true ∧ (u.core c).trap = none))
    ∧ (∀ l, (s.core c).state = 1 → (regionOf a).isMem = true → s.writeBackWaits a = false → s.homeTakes a ≠ 0#32 →
      s.cache.line a = some l → l.dirty = true →
        ∀ i ∈ ([.cboClean c a, .cboFlush c a, .cboInval c a] : List Instr),
          Gives i s fun u => u.cache.line a = none ∧ u.tele.discards = satInc64 s.tele.discards ∧ u.mem.bytes = s.mem.bytes)
    ∧ (s.cache.retry.contains (a / 128) = true → s.hostWaits a = false → (regionOf a).isMem = true → s.homeTakes a = 0#32 →
        Gives (.writebackRetry a) s fun u => cleaned s u a false ∧ u.cache.retry = s.cache.retry.erase (a / 128))

/-- R378, R379, R380: CLEAN_BY_RANGE and INVALIDATE_BY_RANGE start an operation whose range passes the checks, and report the failed
check of one that does not; at the operation's completion no line of the range is dirty, after INVALIDATE none is cached. R203,
R384, R387, R391, R375: a held core starts at a word address with its number in a0 once the caches are swept, and any other
start is discarded; a timer interrupt is pending with time at or beyond its compare value; the mailbox buffers of the runtime
are freed and offered. -/
def Obligations.RangesAndCoreRegisters : Prop :=
  (∀ (c : CoreId) (s : State),
    (∀ i cmd, (i, cmd) ∈ ([(.cleanByRange c, 1), (.invalidateByRange c, 2)] : List (Instr × Nat)) →
      (s.core c).state = 1 → (s.core c).crBusy = false →
        (rangeCheck (s.core c).crBase (s.core c).crLen false = 0#32 →
          Gives i s fun u => (u.core c).crBusy = true ∧ (u.core c).crCmd = cmd ∧ u.cache = s.cache)
        ∧ (rangeCheck (s.core c).crBase (s.core c).crLen false ≠ 0#32 →
          Gives i s fun u => (u.core c).crBusy = false ∧ u.cache = s.cache
            ∧ (u.core c).crStatus = rangeCheck (s.core c).crBase (s.core c).crLen false))
    ∧ ((s.core c).crBusy = true →
        (∀ a ∈ s.cache.linesIn (s.core c).crBase.toNat (s.core c).crLen.toNat, s.writeBackWaits a = false) →
          Gives (.rangeOperationComplete c) s fun u => (u.core c).crBusy = false
            ∧ ∀ a l, (s.core c).crBase.toNat ≤ a → a < (s.core c).crBase.toNat + (s.core c).crLen.toNat → a % 128 = 0 →
                u.cache.line a = some l → (s.core c).crCmd ≠ 2 ∧ l.dirty = false))
  ∧ (∀ (c : CoreId) (s : State),
    (∀ e, (s.core c).state = 0 → e.toNat % 4 = 0 → s.cache.swept = true →
      Gives (.coreStart c e) s fun u => (u.core c).state = 1 ∧ (u.core c).pc = e ∧ (u.core c).a0 = BitVec.ofNat 64 c.val)
    ∧ (∀ e, (s.core c).state ≠ 0 ∨ e.toNat % 4 ≠ 0 →
      Gives (.coreStart c e) s fun u => u.cores = s.cores ∧ u.tele.discards = satInc64 s.tele.discards)
    ∧ (Gives (.machineTimerInterrupt c) s fun u => (u.core c).mtip = true
        ∧ (s.core c).mtimecmp.toNat ≤ (u.tocsin.tally 4).toNat ∧ (s.tocsin.tally 4).toNat ≤ (u.tocsin.tally 4).toNat)
    ∧ (Gives (.supervisorTimerInterrupt c false) s fun u => (u.core c).stip = true ∧ (u.core c).vstip = (s.core c).vstip
        ∧ (s.core c).stimecmp.toNat ≤ (u.tocsin.tally 4).toNat)
    ∧ (Gives (.supervisorTimerInterrupt c true) s fun u => (u.core c).vstip = true ∧ (u.core c).stip = (s.core c).stip)
    ∧ (Gives (.hostMsgFree 0#32) s fun u => u.cores.hostMsgLen = 0)
    ∧ (∀ v, v ≠ 0#32 → Gives (.hostMsgFree v) s fun u => u.cores = s.cores ∧ u.tele.discards = satInc64 s.tele.discards)
    ∧ (∀ v, v.toNat ≤ 256 → Gives (.rtMsgOffer v) s fun u => u.cores.rtMsgLen = v.toNat ∧ u.cores.rtMsgOffered = true)
    ∧ (∀ v, 256 < v.toNat → Gives (.rtMsgOffer v) s fun u => u.cores = s.cores ∧ u.tele.discards = satInc64 s.tele.discards))

/-! ### Translation, the Tocsin queue, migration and windows -/

/-- R221: IOINVAL drops the cached translations of its scope and no others, and is BUSY until it completes; a reserved bit discards
the write. R246 to R248: a legal UNMAP_GO adds an unmap, any other is discarded; the completion of phase one gives the next
ticket, leaves no cached translation of the range and moves the device's mapping generation on; the oldest unmap drains once no
access is under way. -/
def Obligations.InvalidateAndUnmap : Prop :=
  ∀ s : State,
    (∀ v, w64Bits v 2 6 = 0 → w64Bits v 33 31 = 0 →
      Gives (.ioinval v) s fun u => u.xlat.ioBusy = true ∧ ∀ t, t ∈ u.xlat.tlb ↔ t ∈ s.xlat.tlb
        ∧ ¬ t.inScope (w64Bits v 0 2) (w64Bits v 8 8) (w64Bits v 16 17) s.xlat.ioBase.toNat s.xlat.ioLen.toNat)
    ∧ (∀ v, w64Bits v 2 6 ≠ 0 ∨ w64Bits v 33 31 ≠ 0 →
      Gives (.ioinval v) s fun u => u.xlat = s.xlat ∧ u.tele.discards = satInc64 s.tele.discards)
    ∧ (s.xlat.ioBusy = true → Gives .ioinvalComplete s fun u => u.xlat = { s.xlat with ioBusy := false })
    ∧ (∀ v, s.xlat.unmapLen ≠ BitVec.allOnes 64 → s.xlat.unmapBase.toNat % 4096 = 0 → s.xlat.unmapLen.toNat % 4096 = 0 →
        s.xlat.unmaps.length < 8 →
          Gives (.unmapGo v) s fun u => ∃ m, u.xlat = { s.xlat with unmaps := s.xlat.unmaps ++ [m] } ∧ m.ticket = none
            ∧ m.device = w64Bits s.xlat.unmapCtx 0 8 ∧ m.base = s.xlat.unmapBase.toNat ∧ m.len = s.xlat.unmapLen.toNat)
    ∧ (∀ v, s.xlat.unmapLen = BitVec.allOnes 64 ∨ s.xlat.unmapBase.toNat % 4096 ≠ 0 ∨ s.xlat.unmapLen.toNat % 4096 ≠ 0
          ∨ 8 ≤ s.xlat.unmaps.length →
        Gives (.unmapGo v) s fun u => u.xlat = s.xlat ∧ u.tele.discards = satInc64 s.tele.discards)
    ∧ (∀ i m, s.xlat.unmaps.findIdx? (fun u => u.ticket.isNone) = some i → s.xlat.unmaps[i]? = some m →
        Gives .unmapPhaseOneComplete s fun u => u.xlat.issued = s.xlat.issued + 1#32
          ∧ u.xlat.unmaps = s.xlat.unmaps.set i { m with ticket := some (s.xlat.issued + 1#32) }
          ∧ (∀ t ∈ u.xlat.tlb, t ∈ s.xlat.tlb ∧ m.coversPage t.device t.process t.vbase t.size = false)
          ∧ u.xlat.gen m.device = s.xlat.gen m.device + (if m.len = 0 then 0#24 else 1#24))
    ∧ (∀ m rest k, s.xlat.unmaps = m :: rest → m.ticket = some k →
        (m.len = 0 ∨ (s.tiles.any fun e => e.2.startedIn m (s.tileCtx e.2)) = false) →
          Gives .unmapDrained s fun u => u.xlat = { s.xlat with unmaps := rest, drained := k })

/-- R248: an unmap of length zero revokes no cached translation, no descriptor and no stream command, and leaves the device's
mapping generation; it takes the next ticket, and drains only as the oldest unmap. UNMAP_GO with a length of all ones is
discarded and counted. -/
def Obligations.EmptyUnmap : Prop :=
  ∀ s : State,
    (∀ i m, s.xlat.unmaps.findIdx? (fun u => u.ticket.isNone) = some i → s.xlat.unmaps[i]? = some m → m.len = 0 →
      Gives .unmapPhaseOneComplete s fun u =>
        u.xlat = { s.xlat with
          issued := s.xlat.issued + 1#32
          unmaps := s.xlat.unmaps.set i { m with ticket := some (s.xlat.issued + 1#32) } }
        ∧ u.tiles = s.tiles ∧ u.cxl = s.cxl)
    ∧ (∀ m n rest, s.xlat.unmaps = m :: n :: rest → n.len = 0 → Gives .unmapDrained s fun u => n ∈ u.xlat.unmaps)
    ∧ (∀ n k rest, s.xlat.unmaps = n :: rest → n.len = 0 → n.ticket = some k →
        Gives .unmapDrained s fun u => u.xlat = { s.xlat with unmaps := rest, drained := k })
    ∧ ∀ v, s.xlat.unmapLen = BitVec.allOnes 64 → Gives (.unmapGo v) s fun u =>
        u = { s with tele := { s.tele with discards := satInc64 s.tele.discards } }

/-- R228, R229: a response to a tile's fault that names the record of its queue empties the fault register; RETRY hands the stalled
descriptors on again, FAIL ends them with 0x0201. A response that matches no held fault is discarded and counted. FAULT_RESP
answers the Tocsin queue's faults, FQ_RESP the forward queue's (R230). -/
def Obligations.FaultAnswers : Prop :=
  ∀ (s : State) (forward : Bool) (c : W64 → Instr), c = (if forward then .fqResp else .faultResp) →
    ∀ v : W64,
      (∀ (t : TileId) r, w64Bits v 0 16 = t.val → s.xlat.faults.get none t.val = some r → r.forward = forward →
        r.seq.toNat = w64Bits v 32 32 → s.tocsin.posted (faultSrc t.val) r.seq = true →
          (w64Bits v 16 16 = 0 → Gives (c v) s fun u => u.xlat.faults.get none t.val = none ∧ TileOnly t { s with xlat := u.xlat } u
            ∧ (u.tile t).descs = (s.tile t).descs.map fun d => if d.phase = .faulted then { d with phase := .submitted } else d)
          ∧ (w64Bits v 16 16 = 1 → Gives (c v) s fun u => u.xlat.faults.get none t.val = none
            ∧ (u.tile t).descs = (s.tile t).descs.map fun d => if d.phase = .faulted then d.refuse 0x02010000#32 false else d))
      ∧ (s.xlat.faults.get none (w64Bits v 0 16) = none →
          Gives (c v) s fun u => u.xlat = s.xlat ∧ u.tiles = s.tiles ∧ u.tele.discards = satInc64 s.tele.discards)
      ∧ (∀ r, s.xlat.faults.get none (w64Bits v 0 16) = some r → (r.forward ≠ forward ∨ r.seq.toNat ≠ w64Bits v 32 32) →
          Gives (c v) s fun u => u.xlat = s.xlat ∧ u.tiles = s.tiles ∧ u.tele.discards = satInc64 s.tele.discards)

/-- R233, R235, R236, R238: the first accepted record of its source is written at TQ_PROD modulo 4,095 and TQ_PROD goes on modulo
8,190; TQ_CONS advances by at most what the queue holds, and any other write of it is discarded; setting EN resets both indices
and writes the overflow marker at entry 4,095; clearing EN drops what was accepted and not posted; the marker is rewritten after
a drop. R230, R420: a record held for the forward queue is written to host memory at FQ_PROD modulo 256, and FQ_PROD goes on
modulo 512; FQ_CONS advances by at most what the queue holds; setting EN resets both indices. -/
def Obligations.EventQueues : Prop :=
  (∀ s : State,
    (∀ i r a, s.tocsin.accepted[i]? = some r → s.tocsin.needBase = false → (∀ e ∈ s.tocsin.accepted.take i, e.src ≠ r.src) →
        a = s.tocsin.base + 64 * (s.tocsin.prod % 4095) → s.nearSpan a r.bytes.length →
          Gives (.tocsinPost i) s fun u => u.mem.load a r.bytes.length = r.bytes
            ∧ u.tocsin.prod = (s.tocsin.prod + 1) % 8190 ∧ u.tocsin.accepted = s.tocsin.accepted.eraseIdx i
            ∧ ∀ b, b < a ∨ a + r.bytes.length ≤ b → u.mem.load b 1 = s.mem.load b 1)
    ∧ (∀ v, v.toNat < 8190 → (v.toNat + 8190 - s.tocsin.cons) % 8190 ≤ s.tocsin.occupancy →
        Gives (.tqConsWrite v) s fun u => u.tocsin.cons = v.toNat ∧ u.tocsin.prod = s.tocsin.prod)
    ∧ (∀ v, 8190 ≤ v.toNat ∨ s.tocsin.occupancy < (v.toNat + 8190 - s.tocsin.cons) % 8190 →
        Gives (.tqConsWrite v) s fun u => u.tocsin = s.tocsin ∧ u.tele.discards = satInc64 s.tele.discards)
    ∧ (∀ v, v.toNat % 2 ^ 16 < 8 → v.toNat / 2 ^ 16 ≤ 4094 → v.toNat % 2 = 1 → s.tocsin.en = false →
        s.nearSpan s.tocsin.markerAddr 64 →
          Gives (.tqEnable v) s fun u => u.tocsin.en = true ∧ u.tocsin.prod = 0 ∧ u.tocsin.cons = 0
            ∧ u.tocsin.reserve = v.toNat / 2 ^ 16 ∧ u.mem.load s.tocsin.markerAddr 64 = s.tocsin.marker)
    ∧ (∀ v, v.toNat % 2 ^ 16 < 8 → v.toNat / 2 ^ 16 ≤ 4094 → v.toNat % 2 = 0 → s.tocsin.en = true →
        Gives (.tqEnable v) s fun u => u.tocsin.en = false ∧ u.tocsin.accepted = [])
    ∧ (s.tocsin.markerDue = true → s.tocsin.en = true → s.tocsin.needBase = false → s.nearSpan s.tocsin.markerAddr 64 →
        Gives .overflowMarkerRewrite s fun u => u.tocsin.markerDue = false
          ∧ u.mem.load s.tocsin.markerAddr 64 = s.tocsin.marker))
  ∧ (∀ s : State,
    (∀ i r a, s.tocsin.forward[i]? = some r → s.cxl.state = 1 → s.cxl.fqEn = true → s.cxl.fqHeld ≠ 256 →
        a = hostWin (s.cxl.fqBase + 64 * (s.cxl.fqProd % 256)) → engineRange a r.bytes.length = some .host →
          Gives (.forwardQueuePost i) s fun u => u.mem.host.getRun 0#8 (hostAddr a) r.bytes.length = r.bytes
            ∧ u.cxl.fqProd = (s.cxl.fqProd + 1) % 512 ∧ u.tocsin.forward = s.tocsin.forward.eraseIdx i ∧ u.mem.mem = s.mem.mem)
    ∧ (∀ v, v.toNat < 512 → (v.toNat + 512 - s.cxl.fqCons) % 512 ≤ s.cxl.fqHeld →
        Gives (.fqConsWrite v) s fun u => u.cxl.fqCons = v.toNat ∧ u.cxl.fqProd = s.cxl.fqProd)
    ∧ (∀ v, 512 ≤ v.toNat ∨ s.cxl.fqHeld < (v.toNat + 512 - s.cxl.fqCons) % 512 →
        Gives (.fqConsWrite v) s fun u => u.cxl = s.cxl ∧ u.tele.discards = satInc64 s.tele.discards)
    ∧ (∀ v, v = 1#32 ∨ v = 3#32 → s.cxl.fqEn = false →
        Gives (.fqEnable v) s fun u => u.cxl.fqEn = true ∧ u.cxl.fqProd = 0 ∧ u.cxl.fqCons = 0)
    ∧ (∀ v : W32, 4 ≤ v.toNat → Gives (.fqEnable v) s fun u => u.cxl = s.cxl ∧ u.tele.discards = satInc64 s.tele.discards))

/-- R239: every period each access counter is halved. R242: COPY leaves the source's bytes at the destination, ZERO zeros, ADVISE
its range in each unit it names; each then awaits its completion, which writes its status, rings its bell and advances MQ_HEAD. -/
def Obligations.Migration : Prop :=
  ∀ s : State,
    (s.mig.decay ≠ 0 → Gives .counterDecay s fun u =>
      ∀ k, u.mig.ctrs.get AccCtr.empty k
        = { s.mig.ctrs.get AccCtr.empty k with count := (s.mig.ctrs.get AccCtr.empty k).count / 2 })
    ∧ (∀ d, s.migHead d → d.kind = 0 → d.len ≠ 0 → s.memSpan d.src d.len → s.memSpan d.dst d.len →
        Gives .migrationCopy s fun u => u.mem.load d.dst d.len = s.mem.load d.src d.len
          ∧ (∀ b, b < d.dst ∨ d.dst + d.len ≤ b → u.mem.load b 1 = s.mem.load b 1)
          ∧ ∃ c, u.mig.cur = some c ∧ c.addr = s.mig.mq.entry 64 ∧ c.status = 0#32)
    ∧ (∀ d, s.migHead d → d.kind = 1 → d.len ≠ 0 → s.memSpan d.dst d.len →
        Gives .migrationZero s fun u => u.mem.load d.dst d.len = List.replicate d.len 0#8
          ∧ (∀ b, b < d.dst ∨ d.dst + d.len ≤ b → u.mem.load b 1 = s.mem.load b 1)
          ∧ ∃ c, u.mig.cur = some c ∧ c.addr = s.mig.mq.entry 64 ∧ c.status = 0#32)
    ∧ (∀ d, s.migHead d → d.kind = 2 → d.len ≠ 0 →
        Gives .migrationAdvise s fun u => u.mem = s.mem ∧ (∃ c, u.mig.cur = some c ∧ c.status = 0#32)
          ∧ (d.unitHost = true → u.mig.advice.get [] 8 = if d.advice = 0 then
                (s.mig.advice.get [] 8).filter fun r => !(r.base = d.dst && r.len = d.len)
              else s.mig.advice.get [] 8 ++ [{ base := d.dst, len := d.len, eager := d.advice = 2 }])
          ∧ (d.unitHost = false → ∀ k < 8, u.mig.advice.get [] k = if d.advice = 0 then
                (s.mig.advice.get [] k).filter fun r => !(r.base = d.dst && r.len = d.len)
              else s.mig.advice.get [] k ++ [{ base := d.dst, len := d.len, eager := d.advice = 2 }]))
    ∧ (∀ c, s.mig.cur = some c → s.memSpan (c.addr + 0x30) 8 →
        Gives .migrationDescriptorComplete s fun u => u.mig.cur = none ∧ u.mig.mq = s.mig.mq.advance
          ∧ u.mem.load (c.addr + 0x30) 8 = bytesOfNat 4 c.status.toNat ++ bytesOfNat 4 0
          ∧ (c.ringEn = true → c.status = 0#32 → (s.bell c.bell).sound →
              (s.bell c.bell).count.toNat + c.n.toNat < 2 ^ 64 →
                (u.bell c.bell).count = (s.bell c.bell).count + c.n.zeroExtend 64))

/-- R243, R244: WIN_COMMIT of a staged entry whose words agree with their complements and keep the rules installs it, word by word,
and names it in LAST; a staged entry that does not leaves the table as it was and sets ERR. -/
def Obligations.WindowCommit : Prop :=
  ∀ (s : State) (v : W32),
    (v.toNat < 256 → (∀ j < 4, s.win.stage.get 0#64 (4 + j) = ~~~ s.win.stage.get 0#64 j) →
      winLegal (s.win.stage.get 0#64 0) (s.win.stage.get 0#64 1) (s.win.stage.get 0#64 2) (s.win.stage.get 0#64 3) = true →
        Gives (.winCommit v) s fun u => (∀ j < 8, u.win.word v.toNat j = s.win.stage.get 0#64 j)
          ∧ (∀ w j, w ≠ v.toNat → j < 8 → u.win.word w j = s.win.word w j) ∧ u.win.last = v.truncate 8)
    ∧ (v.toNat < 256 → ((∃ j < 4, s.win.stage.get 0#64 (4 + j) ≠ ~~~ s.win.stage.get 0#64 j)
          ∨ winLegal (s.win.stage.get 0#64 0) (s.win.stage.get 0#64 1) (s.win.stage.get 0#64 2) (s.win.stage.get 0#64 3) = false) →
        Gives (.winCommit v) s fun u => u.win.words = s.win.words ∧ u.win.err = true)
    ∧ (256 ≤ v.toNat → Gives (.winCommit v) s fun u => u.win = s.win ∧ u.tele.discards = satInc64 s.tele.discards)

/-! ### Command streams and the CXL attachment -/

/-- R402, R403, R405: an open whose checks pass leaves the stream OPEN at level 1 with its ring's head where the command counter
stands, one that fails a check leaves it CLOSED with that status; a close of a stream with nothing to complete closes it, and
one with a transfer under way leaves it CLOSING. -/
def Obligations.StreamLifeCycle : Prop :=
  ∀ (k : StreamId) (s : State),
    (∀ v : W32, v.toNat % 4 = 1 → v.toNat % 2 ^ 16 < 4 → (s.stream k).state = 0 →
      ((s.stream k).openCheck v = none → Gives (.streamOpen k v) s fun u => (u.stream k).state = 1 ∧ (u.stream k).level = 1
          ∧ (u.stream k).status = 0#32 ∧ (u.stream k).cqTail = 0 ∧ (u.stream k).cmds = []
          ∧ (u.stream k).sqHead = (s.stream k).counter.toNat % (2 * 2 ^ (s.stream k).slog2)
          ∧ (u.stream k).counter = (s.stream k).counter)
      ∧ (∀ st, (s.stream k).openCheck v = some st →
          Gives (.streamOpen k v) s fun u => (u.stream k) = { s.stream k with status := st }))
    ∧ (∀ v : W32, v.toNat % 4 = 2 → v.toNat % 2 ^ 16 < 4 → ((s.stream k).state = 1 ∨ (s.stream k).state = 2) →
      ((∀ c ∈ (s.stream k).cmds, c.phase = .accepted) →
        Gives (.streamClose k v) s fun u => (u.stream k).state = 0 ∧ (u.stream k).level = 0 ∧ (u.stream k).cmds = [])
      ∧ (∀ c ∈ (s.stream k).cmds, c.phase = .translated → c.op ≠ 4 → c.op ≠ 7 →
        Gives (.streamClose k v) s fun u => (u.stream k).state = 3 ∧ c ∈ (u.stream k).cmds))

/-- R406: a doorbell of an OPEN or STALLED stream whose tail lies within the ring's slots replaces the pending tail; any other, and
any doorbell of a stream in another state, is logged with kind 4 and the stream keeps its tail. -/
def Obligations.Doorbell : Prop :=
  ∀ (k : StreamId) (v : W32) (s : State), v.toNat < 2 ^ 13 →
    (((s.stream k).state = 1 ∨ (s.stream k).state = 2) → v.toNat < (s.stream k).span →
      (v.toNat + (s.stream k).span - (s.stream k).sqHead) % (s.stream k).span ≤ (s.stream k).slots →
        Gives (.doorbell k v) s fun u => (u.stream k).tail = v.toNat ∧ (u.stream k).state = 1
          ∧ (u.stream k).sqHead = (s.stream k).sqHead ∧ (u.stream k).cmds = (s.stream k).cmds ∧ u.cxl.logTotal = s.cxl.logTotal)
    ∧ ((¬ ((s.stream k).state = 1 ∨ (s.stream k).state = 2) ∨ (s.stream k).span ≤ v.toNat
        ∨ (s.stream k).slots < (v.toNat + (s.stream k).span - (s.stream k).sqHead) % (s.stream k).span) →
          Gives (.doorbell k v) s fun u => u = s.hostLog 4 k.val 0 v.toNat 0 ∧ u.cxl.logTotal = (s.cxl.logTotal + 1) % 2 ^ 24
            ∧ u.stream k = s.stream k)

/-- R405, R412: a head slot that is ready is accepted, and the counter and SQ_HEAD advance past it; one that is not is read again;
the eighth re-read that finds it not ready stalls the stream with 0x0601 and a log entry. R407 to R411, R435: what the commands
of a stream do when they start. NOP and FENCE end; INLINE and INLINE_CHAIN write their bytes; RING adds to its bell as a release
of kind 6; WAIT ends at its threshold and otherwise waits; ROLL is handed to Kettle; COPY is translated whole and then moves its
bytes; TERMINATE marks the kernels of its tag. -/
def Obligations.StreamSlotsAndCommands : Prop :=
  (∀ (k : StreamId) (s : State) (bs : List Byte), s.streamReads k = true → (s.stream k).announced ≠ 0 → s.slotHolds k 0 bs →
    (∀ c s1, (s.stream k).waits = [] → (s.stream k).tagged 0 bs = true → s.admitsHead k bs c s1 →
      Gives (.slotRead k) s fun u => accepted s u k c)
    ∧ ((s.stream k).waits = [] → (s.stream k).seen = 0 → (s.stream k).tagged 0 bs = false →
      Gives (.slotRead k) s fun u => u.stream k = { s.stream k with seen := 1, waits := [(0, 0)] })
    ∧ (∀ m c s1, (s.stream k).waits = [(0, m)] → (s.stream k).tagged 0 bs = true →
        (s.setStream k { s.stream k with waits := [] }).admitsHead k bs c s1 →
          Gives (.slotReread k) s fun u => accepted s u k c)
    ∧ (∀ m, (s.stream k).waits = [(0, m)] → (s.stream k).tagged 0 bs = false →
        (m + 1 < 8 → Gives (.slotReread k) s fun u => u.stream k = { s.stream k with waits := [(0, m + 1)] })
        ∧ (8 ≤ m + 1 → Gives (.slotReread k) s fun u => (u.stream k).state = 2 ∧ (u.stream k).status = stSlotNotReady
            ∧ (u.stream k).counter = (s.stream k).counter ∧ u.cxl.logTotal = (s.cxl.logTotal + 1) % 2 ^ 24)))
  ∧ (∀ (k : StreamId) (i : Nat) (s : State) (c : StreamCmd),
    (s.starting k i 0 = some c → Gives (.streamNop k i) s fun u => u.ended k c 0#32 ∧ u.mem = s.mem ∧ u.bells = s.bells)
    ∧ (s.starting k i 8 = some c → Gives (.streamFence k i) s fun u => u.ended k c 0#32 ∧ u.mem = s.mem ∧ u.bells = s.bells)
    ∧ (∀ e ∈ ([(1, .streamInline k i, c.body.take c.len), (2, .inlineChain k i, c.chain.take c.len)] :
          List (Nat × Instr × List Byte)),
        ∀ s1 l a, s.starting k i e.1 = some c → c.len ≠ 0 → s.translate 4 (s.stream k).ctx c.operand true = (s1, .inl l) →
          a = l.pbase + (c.operand.toNat - l.vbase) → c.operand.toNat - l.vbase + c.len ≤ l.size → inMem a c.len = true →
          s1.memSpan a e.2.2.length →
            Gives e.2.1 s fun u => u.ended k c 0#32 ∧ u.mem.load a e.2.2.length = e.2.2
              ∧ ∀ b, b < a ∨ a + e.2.2.length ≤ b → u.mem.load b 1 = s1.mem.load b 1)
    ∧ (s.starting k i 6 = some c →
        ((s.bell c.bell).sound → (s.bell c.bell).count.toNat + w64Bits c.operand 16 16 < 2 ^ 64 →
          Gives (.streamRing k i) s fun u => u.ended k c 0#32
            ∧ (u.bell c.bell).count = (s.bell c.bell).count + BitVec.ofNat 64 (w64Bits c.operand 16 16)
            ∧ (u.bell c.bell).lkind = 6#3 ∧ (u.bell c.bell).lrel = BitVec.ofNat 8 k.val ∧ (u.bell c.bell).lscope = .package)
        ∧ ((s.bell c.bell).poison = true → Gives (.streamRing k i) s fun u => u.ended k c stBellFault
            ∧ (u.bell c.bell).count = (s.bell c.bell).count))
    ∧ (s.cmdAt k i 7 .started = some c ∨ s.starting k i 7 = some c → (s.bell c.bell).sound →
        (c.word 0 ≤ (s.bell c.bell).count.toNat → Gives (.streamWait k i) s fun u => u.ended k c 0#32)
        ∧ ((s.bell c.bell).count.toNat < c.word 0 → Gives (.streamWait k i) s fun u =>
            { c with phase := .started } ∈ (u.stream k).cmds ∧ (u.bell c.bell).count = (s.bell c.bell).count))
    ∧ (s.starting k i 9 = some c → Gives (.roll k i) s fun u => u.ended k c 0#32
        ∧ u.kettle.waiting = s.kettle.waiting ++ (if rollEmpty c.operand then [] else [c.operand]))
    ∧ (∀ s1 src s2 dst, s.starting k i 3 = some c → c.word 0x10 ≠ 0 →
        s.virtPages 4 (s.stream k).ctx (c.word 0) (c.word 0x10) false = (s1, .ok src) →
        s1.virtPages 4 (s.stream k).ctx (c.word 8) (c.word 0x10) true = (s2, .ok dst) →
        (s.cust.sealed = true → copyExports src dst = false) →
          Gives (.streamCopy k i) s fun u => u.mem = s2.mem
            ∧ ∃ ps, { c with phase := .translated, srcPs := src, dstPs := dst, pages := ps } ∈ (u.stream k).cmds)
    ∧ (∀ a b n, s.cmdAt k i 3 .translated = some c → c.revoked = false → c.srcPs = [(a, n)] → c.dstPs = [(b, n)] →
        s.memSpan a n → s.memSpan b n →
          Gives (.streamCopy k i) s fun u => u.ended k c 0#32 ∧ u.mem.load b n = s.mem.load a n
            ∧ ∀ x, x < b ∨ b + n ≤ x → u.mem.load x 1 = s.mem.load x 1)
    ∧ (s.handed k i 5 = some c → (s.kern.kernels.map Prod.fst).Nodup →
        Gives (.streamTerminate k i) s fun u => ∀ kid kn, (kid, some kn) ∈ s.kern.kernels → kn.tag = w64At c.body 0 →
          u.kernel kid = some { kn with terminated := true }))

/-- R410: a LAUNCH of a stream whose checks pass is admitted, and its kernel's record will end the command; R413: a command that has
ended gets its entry at the completion ring's tail, which advances past it, and leaves the stream. -/
def Obligations.StreamLaunchAndEntry : Prop :=
  ∀ (k : StreamId) (i : Nat) (s : State) (c : StreamCmd),
    (∀ pt pb s0 s2 s3 hdr ts bells, s.handed k i 4 = some c → s.launchDenied c = false →
        s0 = (s.served k).setCmd k i { c with phase := .started } →
        s0.launchCtx (s.stream k).ctx = (s2, true) →
        s2.readVirt 4 (s.stream k).ctx (w64At c.body 0).toNat 128 3 = (s3, stOk, hdr) →
        s3.admission (Image.ofBytes hdr) pt pb = .ok (ts, bells) → (Image.ofBytes hdr).tileCount ≠ 0 →
          Gives (.streamLaunch k i pt pb) s fun u =>
            (∃ kn, u.kernel s3.kern.nextKid = some kn ∧ kn.tag = w64At c.body 0x10 ∧ kn.src = .stream k c.uid ∧ kn.tiles = ts
              ∧ kn.bells = bells)
            ∧ (∀ t ∈ ts, (u.tile t).kernel = some s3.kern.nextKid)
            ∧ (∀ b ∈ bells, (u.bell b).held = true ∧ (u.bell b).count = 0#64))
    ∧ (∀ e a, (s.stream k).cmds[i]? = some c → s.cmdEnd k c = some e → c.entryDue e = true → s.cxl.state = 1 →
        (s.stream k).cqFull = false →
        a = hostWin ((s.stream k).cqBase + 16 * ((s.stream k).cqTail % 2 ^ (s.stream k).clog2)) →
        engineRange a 16 = some .host → (s.stream k).state = 1 →
          Gives (.completionEntry k i) s fun u => (u.stream k).cqTail = ((s.stream k).cqTail + 1) % (2 * 2 ^ (s.stream k).clog2)
            ∧ u.mem.host.getRun 0#8 (hostAddr a) 16 = (s.stream k).entryBytes c e
            ∧ (u.stream k).cmds = ((s.stream k).cmds.eraseIdx i).filter fun d => !s.silent k d)

/-- R399, R400, R416: a decoder commits only with the size that HDM_MAP gives and one way; CXL.mem reads and writes reach deep
memory through it, answer unsupported where no decoder covers them, and in sealed mode read zeros with poison and write nothing;
a request through the aperture reaches memory where its region allows the whole of it, and is dropped or refused whole where it
does not. -/
def Obligations.HostMemoryAccess : Prop :=
  ∀ s : State,
    (∀ (i : Fin 2) (r : HdmReq), r.ways = 1 → r.size.toNat = hdmSize (s.cxl.hdmMap.get 0#64 i.val) → r.size.toNat ≠ 0 →
      Gives (.hdmCommit i r) s fun u => u.reply.code = 0#32 ∧ u.cxl.hdm.get none i.val = some r ∧ u.cxl.hdmErr.get false i.val = false
        ∧ ∀ a n, hdmCovers r a n → (∀ q, u.cxl.hdm.get none (1 - i.val) = some q → ¬ hdmCovers q a n) →
            u.cxl.windowOf a n = some (hdmBase (s.cxl.hdmMap.get 0#64 i.val) + (a - r.base.toNat)))
    ∧ (∀ (i : Fin 2) (r : HdmReq), ¬ (r.ways = 1 ∧ r.size.toNat = hdmSize (s.cxl.hdmMap.get 0#64 i.val) ∧ r.size.toNat ≠ 0) →
      Gives (.hdmCommit i r) s fun u => u.reply.code = 1#32 ∧ u.cxl.hdm = s.cxl.hdm ∧ u.cxl.hdmErr.get false i.val = true)
    ∧ (s.cxl.state = 1 → ∀ a n d, s.cxl.windowOf a n = some d → s.memSpan d n →
        (s.cust.sealed = false → Gives (.cxlMemRead a n) s fun u => u.reply = ⟨0#32, s.mem.load d n⟩ ∧ u.mem = s.mem)
        ∧ (s.cust.sealed = true → Gives (.cxlMemRead a n) s fun u => u.reply = ⟨1#32, List.replicate n 0#8⟩ ∧ u.mem = s.mem
            ∧ u.cxl.logTotal = (s.cxl.logTotal + 1) % 2 ^ 24))
    ∧ (s.cxl.state = 1 → ∀ a (bs : List Byte) d, s.cxl.windowOf a bs.length = some d → s.memSpan d bs.length →
        (s.cust.sealed = false → Gives (.cxlMemWrite a bs) s fun u => u.reply.code = 0#32 ∧ u.mem.load d bs.length = bs
            ∧ ∀ b, b < d ∨ d + bs.length ≤ b → u.mem.load b 1 = s.mem.load b 1)
        ∧ (s.cust.sealed = true → Gives (.cxlMemWrite a bs) s fun u => u.mem = s.mem
            ∧ u.cxl.logTotal = (s.cxl.logTotal + 1) % 2 ^ 24))
    ∧ (s.cxl.state = 1 → ∀ a n (bs : List Byte), s.cxl.windowOf a n = none → bs.length = n →
        (Gives (.cxlMemRead a n) s fun u => u.reply.code = 2#32 ∧ u.mem = s.mem ∧ u.cxl.logTotal = (s.cxl.logTotal + 1) % 2 ^ 24)
        ∧ (Gives (.cxlMemWrite a bs) s fun u => u.reply.code = 2#32 ∧ u.mem = s.mem
            ∧ u.cxl.logTotal = (s.cxl.logTotal + 1) % 2 ^ 24))
    ∧ (s.cxl.state = 1 → ∀ off n a req, off < 2 ^ 40 → s.cxl.regionAt off n false = some a → s.memSpan a n →
        (s.cust.sealed = false → Gives (.apertureRead off n req) s fun u => u.reply = ⟨0#32, s.mem.load a n⟩ ∧ u.mem = s.mem)
        ∧ (s.cust.sealed = true → Gives (.apertureRead off n req) s fun u => u.reply = ⟨2#32, []⟩ ∧ u.mem = s.mem
            ∧ u.cxl.logTotal = (s.cxl.logTotal + 1) % 2 ^ 24))
    ∧ (s.cxl.state = 1 → ∀ off n req, off < 2 ^ 40 → s.cxl.regionAt off n false = none →
        Gives (.apertureRead off n req) s fun u => u.reply = ⟨2#32, []⟩ ∧ u.mem = s.mem ∧ u.cxl.logTotal = (s.cxl.logTotal + 1) % 2 ^ 24)
    ∧ (s.cxl.state = 1 → ∀ off (bs : List Byte) a req, off < 2 ^ 40 → s.cxl.regionAt off bs.length true = some a → s.memSpan a bs.length →
        Gives (.apertureWrite off bs req) s fun u => u.mem.load a bs.length = bs
          ∧ ∀ b, b < a ∨ a + bs.length ≤ b → u.mem.load b 1 = s.mem.load b 1)
    ∧ (s.cxl.state = 1 → ∀ off (bs : List Byte) req, off < 2 ^ 40 → s.cxl.regionAt off bs.length true = none →
        Gives (.apertureWrite off bs req) s fun u => u.mem = s.mem ∧ u.cxl.p2pDrops = satInc32 s.cxl.p2pDrops
          ∧ u.cxl.logTotal = (s.cxl.logTotal + 1) % 2 ^ 24)

/-- R392, R393, R395, R421, R422, R423: the host's snoops and its link. A snoop is answered from the caches, an invalidating one
leaves no copy and a data one no exclusive and no dirty one; recovery and the return from it change HOST_STATE and raise source
10; a loss ends in state 3 with the streams LOST and no host line cached; at the next link-up the function's registers are at
reset, the streams CLOSED, and REGION, HDM_MAP, the log and the counters of losses and drops are kept. -/
def Obligations.HostLink : Prop :=
  ∀ s : State,
    (∀ a l, s.cxl.state = 1 → regionOf (hostWin a) = .host → s.cache.line (hostWin a) = some l → ∀ r : Reply,
        r = ⟨if l.dirty then 2#32 else 1#32, (l.data.drop (a % 128 - a % 64)).take 64⟩ →
        (Gives (.hostSnoop .cur a) s fun u => u.reply = r ∧ u.cache = s.cache)
        ∧ (Gives (.hostSnoop .data a) s fun u => u.reply = r
            ∧ ∀ m, u.cache.line (hostWin a) = some m → m.excl = false ∧ m.dirty = false)
        ∧ (Gives (.hostSnoop .inv a) s fun u => u.reply = r ∧ u.cache.line (hostWin a) = none))
    ∧ (∀ a k, s.cxl.state = 1 → regionOf (hostWin a) = .host → s.cache.line (hostWin a) = none →
        Gives (.hostSnoop k a) s fun u => u = s.answer 0#32 [])
    ∧ (s.cxl.state = 1 → Gives .linkRecovery s fun u => u = { s with cxl := { s.cxl with state := 2 }, cores := s.cores.route 10 })
    ∧ (∀ r : LinkRate, s.cxl.state = 2 → rateOk r = true → Gives (.linkReturnToL0 r) s fun u =>
        u.cxl = { s.cxl with state := 1, lanes := r.lanes, gts := r.gts } ∧ u.cores = s.cores.route 10)
    ∧ (∀ c, s.cxl.state = 1 ∨ s.cxl.state = 2 → Gives (.hostLoss c) s fun u =>
        u.cxl.state = 3 ∧ u.cxl.losses = min (s.cxl.losses + 1) 255 ∧ u.cxl.ideKey = [] ∧ u.cxl.ideOn = false
          ∧ (∀ i, (u.cxl.stream i).state = 4 ∧ (u.cxl.stream i).cmds = [])
          ∧ (∀ a, regionOf (a * 128) = .host → u.cache.line (a * 128) = none)
          ∧ u.cust.spdm.get SpdmS.reset 0 = SpdmS.reset ∧ u.cxl.region = s.cxl.region ∧ u.cxl.hdmMap = s.cxl.hdmMap)
    ∧ (∀ c, s.cxl.state ≠ 1 → s.cxl.state ≠ 2 → Gives (.hostLoss c) s fun u => u = s)
    ∧ (∀ r : LinkRate, s.cxl.state = 0 ∨ s.cxl.state = 3 → rateOk r = true → s.cust.verified = true →
        Gives (.hostLinkUp r) s fun u => u.cxl.state = 1 ∧ u.cxl.lanes = r.lanes ∧ u.cxl.gts = r.gts ∧ u.cores = s.cores.route 10
          ∧ u.cxl.fqEn = false ∧ u.cxl.fqProd = 0 ∧ u.cxl.fqCons = 0 ∧ u.cxl.hdm = [] ∧ u.cxl.msix = MsixS.reset
          ∧ (∀ i, u.cxl.stream i = { StreamS.reset with counter := (s.cxl.stream i).counter, nextUid := (s.cxl.stream i).nextUid })
          ∧ u.cxl.region = s.cxl.region ∧ u.cxl.hdmMap = s.cxl.hdmMap ∧ u.cxl.logs = s.cxl.logs ∧ u.cxl.logTotal = s.cxl.logTotal
          ∧ u.cxl.losses = s.cxl.losses ∧ u.cxl.p2pDrops = s.cxl.p2pDrops)

/-- R391, R417, R418: the host's mailbox and data object exchange. The log commands answer the logs; a message for the runtime is
placed where the previous one has been read, else Busy; a pending reply is returned once; DOE discovery lists the three
protocols (their numbers are those of assumption 22); IDE keys are taken over the secured session, and an integrity failure is
host loss. -/
def Obligations.MailboxCommands : Prop :=
  ∀ s : State,
    (Gives .getSupportedLogs s fun u => u = { s with reply := ⟨0#32, Config.supportedLogs⟩, cxl := u.cxl }
      ∧ u.cxl = { s.cxl with msix := s.cxl.msix.raise 1 s.hostServes })
    ∧ (Gives .getLog s fun u => u = { s with reply := ⟨0#32, Config.effectsLog⟩, cxl := u.cxl }
      ∧ u.cxl = { s.cxl with msix := s.cxl.msix.raise 1 s.hostServes })
    ∧ (∀ bs : List Byte, bs.length ≠ 0 → bs.length ≤ 256 →
        (s.cores.hostMsgLen = 0 → Gives (.runtimeSend bs) s fun u => u.reply = ⟨0#32, []⟩ ∧ u.cores.hostMsg = bs
          ∧ u.cores.hostMsgLen = bs.length ∧ u.cxl.msix = s.cxl.msix.raise 1 s.hostServes ∧ u.mem = s.mem)
        ∧ (s.cores.hostMsgLen ≠ 0 → Gives (.runtimeSend bs) s fun u => u.reply = ⟨1#32, []⟩ ∧ u.cores = s.cores))
    ∧ (∀ bs : List Byte, bs.length = 0 ∨ 256 < bs.length →
        Gives (.runtimeSend bs) s fun u => u.reply = ⟨2#32, []⟩ ∧ u.cores = s.cores)
    ∧ (s.cores.rtMsgOffered = true → Gives .runtimeRecv s fun u =>
        u.reply = ⟨0#32, (List.range s.cores.rtMsgLen).map fun k => s.cores.rtMsg.get 0#8 k⟩ ∧ u.cores.rtMsgOffered = false
          ∧ u.cores.rtMsgLen = 0)
    ∧ (s.cores.rtMsgOffered = false → Gives .runtimeRecv s fun u => u.reply = ⟨0#32, []⟩ ∧ u.cores = s.cores)
    ∧ (∀ i : Byte, i.toNat < 3 → Gives (.doeDiscovery i) s fun u =>
        u = s.answer 0#32 [0x01#8, 0x00#8, i, BitVec.ofNat 8 ((i.toNat + 1) % 3)])
    ∧ (∀ i : Byte, 3 ≤ i.toNat → Gives (.doeDiscovery i) s fun u => u.cxl = s.cxl ∧ u.reply.code = 0#32)
    ∧ (∀ key, s.cxl.state = 1 →
        ((s.cust.spdm.get SpdmS.reset 0).sessions ≠ [] →
          (Gives (.ideKm false key false) s fun u => u.cxl = { s.cxl with ideKey := key } ∧ u.cust = s.cust)
          ∧ (Gives (.ideKm true key false) s fun u => u.cxl = { s.cxl with ideOn := true } ∧ u.cust = s.cust))
        ∧ ((s.cust.spdm.get SpdmS.reset 0).sessions = [] → ∀ act, Gives (.ideKm act key false) s fun u => u = s)
        ∧ ∀ act, Gives (.ideKm act key true) s fun u => u.cxl.state = 3 ∧ u.cxl.ideKey = [] ∧ u.cxl.ideOn = false)

/-! ### Carillon, Peal and Clapper -/

/-- R280, R283, R284, R315: PORT_CTRL enables a disabled port at step 1, disables it in DISABLED, and asks for a width; a width
request is announced by WIDTH and takes effect when both ends have sent it, and lapses; a word with a reserved bit or WREQ 3 is
discarded. R281, R284 to R287, R308, R309, R505: bring-up. A port with light goes from step 1 to the exchange of CAPS, and into
hold-off without; CAPS gives the common width and, once coordinates are frozen, the neighbour check, which ends in UP, MISMATCH
or SPDM; SPDM gives keys to a peer that sealed mode admits; KEY and REKEY change them; an engine whose copy of the coordinate
pair is bad reloads it, or every port goes down. -/
def Obligations.PortControlAndBringUp : Prop :=
  (∀ (p : PortId) (s : State),
    (∀ wreq enc, wreq < 3 → (s.port p).en = false → Gives (.portEnable p (portCtrlWord true wreq enc)) s fun u =>
      u.port p = { s.port p with en := true, wreq := wreq, encReq := enc, state := 1, step := 1 })
    ∧ (∀ wreq enc, wreq < 3 → Gives (.portDisable p (portCtrlWord false wreq enc)) s fun u =>
        (u.port p).en = false ∧ (u.port p).state = 0 ∧ (u.port p).step = 1 ∧ (u.port p).linked = false
          ∧ (u.port p).downs = (if (s.port p).linked then satInc32 (s.port p).downs else (s.port p).downs))
    ∧ (∀ (half : Fin 2) enc, (s.port p).en = true → (s.port p).state = 3 → (s.port p).wreq ≠ half.val + 1 → (s.port p).width ≠ half.val + 1 →
        (s.port p).halfReady half →
          ((s.port p).widthGot ≠ some half → Gives (.widthRequest p (portCtrlWord true (half.val + 1) enc)) s fun u =>
            (u.port p).wreq = half.val + 1 ∧ (u.port p).widthSent = some half ∧ (u.port p).width = (s.port p).width
              ∧ (u.port p).state = 3)
          ∧ ((s.port p).widthGot = some half → Gives (.widthRequest p (portCtrlWord true (half.val + 1) enc)) s fun u =>
            (u.port p).wreq = half.val + 1 ∧ (u.port p).width = half.val + 1 ∧ (u.port p).widthSent = none ∧ (u.port p).state = 3))
    ∧ (∀ v : W32, 16 ≤ v.toNat ∨ bitsOf v.toNat 1 2 = 3 →
        ∀ c ∈ ([.portEnable p v, .portDisable p v, .widthRequest p v] : List Instr), Gives c s fun u => u = s.discard)
    ∧ ((s.port p).wreq ≠ 0 → (s.port p).wreq ≠ (s.port p).width → Gives (.widthLapse p) s fun u =>
        u.port p = { s.port p with wreq := 0, widthSent := none })
    ∧ (∀ half, (s.port p).state = 3 →
        ((s.port p).widthSent ≠ some half → Gives (.width p half) s fun u => (u.port p).widthGot = some half
            ∧ (u.port p).width = (s.port p).width ∧ (u.port p).state = 3)
        ∧ ((s.port p).widthSent = some half → Gives (.width p half) s fun u => (u.port p).width = half.val + 1
            ∧ (u.port p).widthSent = none ∧ (u.port p).widthGot = none ∧ (u.port p).state = 3)))
  ∧ (∀ (p : PortId) (s : State),
    (∀ probe : PortProbe, (s.port p).linked = false → (s.port p).en = true → s.net.coordFault = false → s.cust.verified = true →
      (s.net.frozen = false ∨ pairGood (s.port p).coordCopy = true ∧ (6 ≤ p.val ∨ 2 ≤ s.net.len (p.val / 2))) →
        (probe.lanes &&& s.svc.lit ≠ 0#16 → Gives (.portBringup p probe) s fun u => (u.port p).state = 1 ∧ (u.port p).step = 4
          ∧ (u.port p).lanes = probe.lanes &&& s.svc.lit ∧ (u.port p).peer = none ∧ (u.port p).enc = false)
        ∧ (probe.lanes &&& s.svc.lit = 0#16 → Gives (.portBringup p probe) s fun u => (u.port p).state = 4 ∧ (u.port p).step = 1))
    ∧ (∀ m : Caps, (s.port p).state = 1 → (s.port p).step = 4 → (s.port p).enc = false → (s.port p).en = true →
        (∀ w, commonWidth (s.port p).lanes m.lanes = some w → m.levels.getLsbD 1 = true →
          (s.net.frozen = false → Gives (.caps p m) s fun u => (u.port p).state = 1 ∧ (u.port p).step = 6 ∧ (u.port p).width = w
            ∧ (u.port p).peer = some m)
          ∧ (s.net.frozen = true → s.net.neighbourOk p m = false → Gives (.caps p m) s fun u => (u.port p).state = 2 ∧ (u.port p).width = w)
          ∧ (s.net.frozen = true → s.net.neighbourOk p m = true → s.mustEncrypt (s.port p) m = false →
              Gives (.caps p m) s fun u => (u.port p).state = 3 ∧ (u.port p).step = 8 ∧ (u.port p).width = w ∧ (u.port p).enc = false)
          ∧ (s.net.frozen = true → s.net.neighbourOk p m = true → s.mustEncrypt (s.port p) m = true → m.encCap = true →
              Gives (.caps p m) s fun u => (u.port p).state = 1 ∧ (u.port p).step = 7 ∧ (u.port p).width = w))
        ∧ (commonWidth (s.port p).lanes m.lanes = none ∨ m.levels.getLsbD 1 = false →
            Gives (.caps p m) s fun u => (u.port p).state = 4 ∧ (u.port p).step = 1))
    ∧ (∀ m, (s.port p).state = 2 → (s.port p).peer = some m → s.net.frozen = true →
        (s.net.neighbourOk p m = true → s.mustEncrypt (s.port p) m = false ∨ (s.port p).enc = true →
          Gives (.neighbourRecheck p) s fun u => (u.port p).state = 3 ∧ (u.port p).step = 8)
        ∧ (s.net.neighbourOk p m = false → Gives (.neighbourRecheck p) s fun u => (u.port p).state = 2))
    ∧ (∀ m : PeerProof, (s.port p).state = 1 → (s.port p).step = 7 → (s.port p).en = true →
        (m.bothSides = true → s.cust.sealed = false ∨ s.admits p m = true → Gives (.spdm p m) s fun u =>
          (u.port p).state = 3 ∧ (u.port p).enc = true ∧ (u.port p).attested = s.admits p m ∧ (u.port p).txKey = (s.port p).txKey + 1
            ∧ (u.port p).rxKey = (s.port p).rxKey + 1 ∧ (u.port p).rxCount = 0#64)
        ∧ (m.bothSides = false ∨ s.cust.sealed = true ∧ s.admits p m = false → Gives (.spdm p m) s fun u =>
            (u.port p).state = 4 ∧ (u.port p).enc = false ∧ (u.port p).attested = false))
    ∧ ((s.port p).enc = true → (s.port p).linked = true →
        ((s.port p).rxNewKey ≠ (s.port p).rxKey → Gives (.key p) s fun u => (u.port p).rxKey = (s.port p).rxNewKey ∧ (u.port p).rxCount = 0#64)
        ∧ (Gives (.rekey p true) s fun u => (u.port p).txKey = (s.port p).txKey + 1 ∧ (u.port p).txCount = 0#64
            ∧ (u.port p).rxKey = (s.port p).rxKey)
        ∧ (Gives (.rekey p false) s fun u => (u.port p).rxNewKey = (s.port p).rxKey + 1 ∧ (u.port p).rxKey = (s.port p).rxKey
            ∧ (u.port p).txKey = (s.port p).txKey))
    ∧ (s.net.frozen = true → pairGood (s.port p).coordCopy = false →
        (pairGood (s.net.coordC ++ s.net.coord) = true → Gives (.coordinateCheck p) s fun u =>
          (u.port p).coordCopy = s.net.coordC ++ s.net.coord ∧ u.net.coordFault = s.net.coordFault)
        ∧ (pairGood (s.net.coordC ++ s.net.coord) = false → Gives (.coordinateCheck p) s fun u =>
          u.net.coordFault = true ∧ ∀ q, (u.port q).linked = false)))

/-- R275, R278 to R280, R308, R310: the link layer. A flit that fails its checks is discarded and the first discard asks for a
replay; a good flit that breaks R275 is a violation; a replay resends what is not acknowledged and after 16 replays of one flit
the link goes down; an idle flit counts under the key and returns what it carries; no flit within the heartbeat takes the link
down. -/
def Obligations.PortFlits : Prop :=
  ∀ (p : PortId) (s : State), (s.port p).linked = true →
    (∀ f : Trailer, (s.port p).goodFlit f = false → Gives (.flitDiscard p f) s fun u => u.port p = { s.port p with
        authFail := if (s.port p).enc && f.crcGood && !f.authGood then satInc32 (s.port p).authFail else (s.port p).authFail
        retries := if f.ltype ≠ 0#4 ∧ (s.port p).link.awaited = false then satInc64 (s.port p).retries else (s.port p).retries
        link := { (s.port p).link with awaited := (s.port p).link.awaited || decide (f.ltype ≠ 0#4) } })
    ∧ (∀ f : Trailer, (s.port p).goodFlit f = true → (s.port p).trailerBad f = true → Gives (.flitDiscard p f) s fun u =>
        (u.port p).violations = satInc32 (s.port p).violations
          ∧ (2 ≤ (s.port p).retrains ∨ (u.port p).state = 1 ∧ (u.port p).step = 4))
    ∧ (∀ a l, l = (s.port p).link.ack a →
        (l.inFlight = 0 → Gives (.linkReplay p a) s fun u => (u.port p).link = { l with replays := 0 } ∧ (u.port p).linked = true)
        ∧ (l.inFlight ≠ 0 → (s.port p).link.replays = 16 → (s.port p).link.replayed = l.acked + 1#12 →
            Gives (.linkReplay p a) s fun u => (u.port p).linked = false ∧ (u.port p).downs = satInc32 (s.port p).downs)
        ∧ (l.inFlight ≠ 0 → (s.port p).link.replays = 0 ∨ (s.port p).link.replayed ≠ l.acked + 1#12 →
            Gives (.linkReplay p a) s fun u => (u.port p).link.replays = 1 ∧ (u.port p).link.replayed = l.acked + 1#12
              ∧ (u.port p).linked = true))
    ∧ (∀ f : Trailer, f.ltype = 0#4 → (s.port p).goodFlit f = true → (s.port p).trailerBad f = false → f.retry = false →
        Gives (.idleFlit p f) s fun u => (u.port p).rxCount = (s.port p).rxCount + 1#64 ∧ (u.port p).link.rxNext = (s.port p).link.rxNext
          ∧ (f.ackv = true → (f.ackseq - (s.port p).link.acked).toNat ≤ (s.port p).link.inFlight → (u.port p).link.acked = f.ackseq)
          ∧ (f.ackv = false → (u.port p).link.acked = (s.port p).link.acked))
    ∧ (Gives (.linkHeartbeatTimeout p) s fun u => (u.port p).linked = false ∧ (u.port p).downs = satInc32 (s.port p).downs
        ∧ (u.port p).state = (if (s.port p).en then 4 else 0) ∧ ∀ q, q ≠ p → (u.port q).state = (s.port q).state)

/-- R166, R245, R276, R299, R310, R311: a request that arrives. PUT_DATA writes the memory under its window and is answered by
PUT_ACK, GET_REQ reads it and is answered by GET_DATA, a RING rings its bell and is answered by PUT_ACK; a check that fails is
answered by NACK with its code and has no effect; a bad header is a violation of the source, a quarantined source is refused. -/
def Obligations.CarillonRequests : Prop :=
  ∀ (p : PortId) (m : Msg) (s : State) (s1 : State), s1 = s.acceptFlits p (1 + m.cont) →
    (∀ (t : State) a, s.forHere p { m with ttype := 0#4 } →
      s1.winCheck (s1.portVia p) m.window.toNat m.src.toNat false true m.ringop m.offset.toNat (m.payload.take m.len).length m.bell.toNat = none →
      s1.winSpan (s1.portVia p) m.window.toNat m.offset.toNat (m.payload.take m.len).length true = (t, .ok [(a, (m.payload.take m.len).length)]) →
      engineRange a (m.payload.take m.len).length = some .near → t.serves a (portDie p) = true → t.mem.clean a (m.payload.take m.len).length →
        Gives (.putData p m) s fun u => ∃ r, u = State.respond r { m with ttype := 0#4, ringop := false } 3 0 []
          ∧ r.mem.load a (m.payload.take m.len).length = m.payload.take m.len
          ∧ ∀ b, b < a ∨ a + (m.payload.take m.len).length ≤ b → r.mem.load b 1 = t.mem.load b 1)
    ∧ (∀ (t : State) a, s.forHere p { m with ttype := 1#4 } →
      s1.winCheck (s1.portVia p) m.window.toNat m.src.toNat true false false m.offset.toNat m.len 0 = none →
      s1.winSpan (s1.portVia p) m.window.toNat m.offset.toNat m.len false = (t, .ok [(a, m.len)]) →
      engineRange a m.len = some .near → t.serves a (portDie p) = true → t.mem.clean a m.len →
        Gives (.getReq p m) s fun u => ∃ r, u = State.respond r { m with ttype := 1#4 } 4 0 (t.mem.load a m.len) ∧ r.mem = t.mem)
    ∧ (∀ b, s.forHere p { m with ttype := 2#4 } →
      s1.winCheck (s1.portVia p) m.window.toNat m.src.toNat false false true 0 0 m.bell.toNat = none →
      b = (w64Bits (s1.win.word m.window.toNat 0) 33 14 + m.bell.toNat) % 16384 → (s.bell b).sound →
      (s.bell b).count.toNat + m.n.toNat < 2 ^ 64 →
        Gives (.remoteRing p m) s fun u => ∃ r, u = State.respond r { m with ttype := 2#4, ringop := true } 3 0 [] ∧ r.mem = s.mem
          ∧ (r.bell b).count = (s.bell b).count + m.n.zeroExtend 64)
    ∧ (∀ c, s.forHere p { m with ttype := 0#4 } →
      s1.winCheck (s1.portVia p) m.window.toNat m.src.toNat false true m.ringop m.offset.toNat (m.payload.take m.len).length m.bell.toNat = some c →
        Gives (.putData p m) s fun u => ∃ r, u = State.respond r { m with ttype := 0#4 } 5 c [] ∧ r.mem = s.mem ∧ r.bells = s.bells)
    ∧ (∀ c, s.forHere p { m with ttype := 1#4 } →
      s1.winCheck (s1.portVia p) m.window.toNat m.src.toNat true false false m.offset.toNat m.len 0 = some c →
        Gives (.getReq p m) s fun u => ∃ r, u = State.respond r { m with ttype := 1#4 } 5 c [] ∧ r.mem = s.mem ∧ r.bells = s.bells)
    ∧ (∀ c, s.forHere p { m with ttype := 2#4 } →
      s1.winCheck (s1.portVia p) m.window.toNat m.src.toNat false false true 0 0 m.bell.toNat = some c →
        Gives (.remoteRing p m) s fun u => ∃ r, u = State.respond r { m with ttype := 2#4 } 5 c [] ∧ r.mem = s.mem ∧ r.bells = s.bells)
    ∧ (∀ k i, (k, i) ∈ ([(0#4, .putData p m), (1#4, .getReq p m), (2#4, .remoteRing p m)] : List (BitVec 4 × Instr)) → s.carries p = true →
        ((s.port p).quarantines m.src.toNat = true → Gives i s fun u => u = s1.respond { m with ttype := k } 5 0x22 [])
        ∧ (∀ c, (s.port p).quarantines m.src.toNat = false → s.headerBad p { m with ttype := k } = some c →
            Gives i s fun u => u = (s1.violate p m.src.toNat c).respond { m with ttype := k } 5 c []))
    ∧ (∀ i ∈ ([.putData p m, .getReq p m, .remoteRing p m, .putAck p m, .getData p m, .nack p m] : List Instr), s.carries p = false →
        Gives i s fun u => u = s)

/-- R296, R298 to R301: PUT and GET. A descriptor of one message leaves by its route with a tracker; the answer to the last message
ends it, done for PUT_ACK, failed with the code of a NACK, done with its data in the local destination for GET_DATA; a response
that answers nothing is a violation; a timeout cools the slot, and its epoch advances when it is used again. -/
def Obligations.CarillonTransfers : Prop :=
  (∀ (t : TileId) (i : Nat) (s : State) (f : InFlight) (d : MoveDesc) (k : MoveKind), k = .put ∨ k = .get →
    (s.tile t).mayStart i k = some (f, d) → s.cxl.state ≠ 2 → d.empty = true → d.ringEn = false →
      Gives (if k = .put then .put t i else .get t i) s fun u => u = s.setDesc t i { f with phase := .done })
  ∧ (∀ (t : TileId) (i : Nat) (s v : State) (f : InFlight) (d : MoveDesc) (k : MoveKind) (rows : List (List Byte)) (q : Pending) (p : PortId)
    (m : Msg) (slot : Nat) (x : Xfer), (s.tile t).mayStart i k = some (f, d) → s.cxl.state ≠ 2 → d.empty = false → d.ringEn = false →
    (k = .put ∧ s.readRows t f d = (v, 0#32, rows) ∨ k = .get ∧ v = s ∧ rows = []) → d.messages rows = [q] →
    d.remoteCoord.toNat ≠ v.net.here →
    x = { tile := t, idx := f.idx, d := d, vbase := f.vbase, pbase := f.pbase, todo := [q], out := 0, nack := none, timedOut := false,
          failed := none, ringDue := false } →
    v.routeMsg (x.message v.net q) none = some (p, m) → v.net.freeSlot p = some slot →
      Gives (if k = .put then .put t i else .get t i) s fun u => u.net.xfer t f.idx = some { x with todo := [], out := 1 }
        ∧ (u.net.tracker p slot).busy = true ∧ (u.net.tracker p slot).tile = t ∧ (u.net.tracker p slot).idx = f.idx
        ∧ (u.net.tracker p slot).offset = q.offset ∧ (u.net.tracker p slot).epoch = (v.net.tracker p slot).epoch)
  ∧ (∀ (p : PortId) (m : Msg) (s : State) (q : PortId) (slot : Nat) (x : Xfer) (i : Nat) (f : InFlight) (s1 : State),
    s1 = s.acceptFlits p (1 + m.cont) → (s.tile x.tile).descs.findIdx? (fun g => g.idx = x.idx) = some i → (s.tile x.tile).descs[i]? = some f →
      (s.forHere p { m with ttype := 3#4 } → s1.lastAnswer { m with ttype := 3#4 } q slot x →
        Gives (.putAck p m) s fun u => (u.net.tracker q slot).busy = false ∧ u.net.xfer x.tile x.idx = none
          ∧ (u.tile x.tile).descs[i]? = some { f with phase := .done })
      ∧ (s.forHere p { m with ttype := 5#4 } → s1.lastAnswer { m with ttype := 5#4 } q slot x → x.d.kind = .put → m.ncode.toNat ≠ 0 →
        Gives (.nack p m) s fun u => (u.net.tracker q slot).busy = false ∧ u.net.xfer x.tile x.idx = none
          ∧ (u.tile x.tile).descs[i]? = some (f.refuse (stRemoteNack m.ncode.toNat) false))
      ∧ (s.forHere p { m with ttype := 4#4 } → s1.lastAnswer { m with ttype := 4#4 } q slot x → x.d.dstSide = .sram →
        Gives (.getData p m) s fun u => (u.net.tracker q slot).busy = false ∧ u.net.xfer x.tile x.idx = none
          ∧ (u.tile x.tile).descs[i]? = some { f with phase := .done }
          ∧ (u.tile x.tile).sram = ((s.tile x.tile).store
              (x.landing (s.net.tracker q slot).row (s.net.tracker q slot).col) (m.payload.take m.len)).sram))
  ∧ (∀ (p : PortId) (m : Msg) (s s1 : State) (k : BitVec 4) (i : Instr), s1 = s.acceptFlits p (1 + m.cont) →
    (k, i) ∈ ([(3#4, .putAck p m), (4#4, .getData p m), (5#4, .nack p m)] : List (BitVec 4 × Instr)) →
    s.forHere p { m with ttype := k } → s1.net.answers { m with ttype := k } = none →
      Gives i s fun u => u = s1.violate p m.src.toNat 0)
  ∧ (∀ (p : PortId) (slot : Fin 2048) (s : State), (s.net.tracker p slot.val).busy = true →
      Gives (.messageTimeout p slot) s fun u => (u.net.tracker p slot.val).busy = false ∧ (u.net.tracker p slot.val).cooling = true)
  ∧ (∀ (p : PortId) (slot : Fin 2048) (s : State), (s.net.tracker p slot.val).cooling = true →
      Gives (.slotEpochAdvance p slot) s fun u => (u.net.tracker p slot.val).cooling = false
        ∧ (u.net.tracker p slot.val).epoch = (s.net.tracker p slot.val).epoch + 1#2)
  ∧ (∀ s : State, Gives .violationHalving s fun u => ∀ q, u.port q = { s.port q with
        table := (s.port q).table.map fun v => { v with count := v.count / 2 } })
  ∧ (∀ (p : PortId) (s : State) (j : Fin 16),
      (Gives (.qclear p (BitVec.ofNat 32 j.val)) s fun u => (u.port p).qent = (s.port p).qent.set none j.val none)
      ∧ (Gives (.qclear p (BitVec.ofNat 32 (16 + j.val))) s fun u => (u.port p).qent = [] ∧ ∀ e ∈ (u.port p).table, e.quarantined = false)
      ∧ ∀ v : W32, 32 ≤ v.toNat → Gives (.qclear p v) s fun u => u = s.discard)

/-- R303 to R307: RS, AG and AR. A descriptor that fails a check ends at once with its status and no effect, one of COUNT 0 ends
with 0; one whose ring has a port that does not carry fails. Otherwise RS and AR send the sum of the first chunk's elements
onwards, which so far are this module's own, AG writes its own chunk and sends it; on a ring of one module the result is
written. -/
def Obligations.PealStarts : Prop :=
  ∀ (k : PealSlot) (s v : State) (op : Nat) (d : PealDesc),
    (∀ t bs st, op < 3 → (s.peal k).run = none → (s.peal k).ring.ready = true →
      s.readMem ((s.peal k).ring.entry 64) 64 (pealAxis k) = ⟨t, 0#32, bs⟩ → pealCheck bs = some st →
        Gives (pealCommand k op) s fun u => u.mem = t.mem ∧ (u.peal k).ring = (s.peal k).ring
          ∧ ∃ r, (u.peal k).run = some r ∧ r.phase = .ended ∧ r.status = st)
    ∧ (s.pealTakes v k op d → d.count = 0 → Gives (pealCommand k op) s fun u =>
        u = v.setRun k { PealRun.taken ((s.peal k).ring.entry 64) d with phase := .ended })
    ∧ (s.pealTakes v k op d → d.count ≠ 0 →
        1 < v.net.ringLen k → (v.carries (pealPort k true) = false ∨ v.carries (pealPort k false) = false) →
        Gives (pealCommand k op) s fun u => ∃ r, (u.peal k).run = some r ∧ r.phase = .ended ∧ r.status = 0x05030001#32)
    ∧ (∀ pos t bs, s.pealTakes v k op d → d.count ≠ 0 → d.dirs = [pos] → op ≠ 1 → 1 < v.net.ringLen k →
        v.carries (pealPort k true) = true → v.carries (pealPort k false) = true →
        (∀ q, (v.port q).waiting = []) → t.net = v.net →
        v.virtRead (pealAxis k) d.ctx (d.src + v.net.firstChunk k d pos * d.count * pealBytes d.inFmt) (d.count * pealBytes d.inFmt) = (t, .ok bs) →
        Gives (pealCommand k op) s fun u => u.mem = t.mem
          ∧ (∀ q, u.port q = (v.pealSend k d (v.net.firstChunk k d pos) 0 0 pos (pealOut 0 (pealWords d.inFmt bs))).port q)
          ∧ ∃ r, (u.peal k).run = some r ∧ r.phase = .running ∧ r.d = d)
    ∧ (∀ pos t t1 bs, s.pealTakes v k op d → d.count ≠ 0 → d.dirs = [pos] → op = 1 → 1 < v.net.ringLen k →
        v.carries (pealPort k true) = true → v.carries (pealPort k false) = true → (∀ q, (v.port q).waiting = []) →
        t.net = v.net → t1.net = v.net →
        v.virtRead (pealAxis k) d.ctx (d.src + ownPlace (v.net.ringLen k) (v.net.ownChunk k d pos) * d.count * pealBytes d.inFmt)
          (d.count * pealBytes d.inFmt) = (t, .ok bs) →
        t.virtWrite (pealAxis k) d.ctx (d.out + v.net.ownChunk k d pos * d.count * pealBytes d.inFmt) bs = (t1, none) →
        Gives (pealCommand k op) s fun u => u.mem = t1.mem
          ∧ (∀ q, u.port q = (v.pealSend k d (v.net.ownChunk k d pos) 0 d.outFmt pos bs).port q)
          ∧ ∃ r, (u.peal k).run = some r ∧ r.phase = .running ∧ r.d = d)
    ∧ (∀ pos t t1 bs, s.pealTakes v k op d → d.count ≠ 0 → d.dirs = [pos] → op = 0 → v.net.ringLen k < 2 →
        (∀ q, (v.port q).waiting = []) → t.net = v.net → t1.net = v.net →
        v.virtRead (pealAxis k) d.ctx (d.src + v.net.ownChunk k d pos * d.count * pealBytes d.inFmt) (d.count * pealBytes d.inFmt) = (t, .ok bs) →
        t.virtWrite (pealAxis k) d.ctx (d.out + ownPlace (v.net.ringLen k) (v.net.ownChunk k d pos) * d.count * pealBytes d.outFmt)
          (pealOut d.outFmt (pealWords d.inFmt bs)) = (t1, none) →
        Gives (pealCommand k op) s fun u => u.mem = t1.mem ∧ ∃ r, (u.peal k).run = some r ∧ r.phase = .running ∧ r.d = d)

/-- R304 to R306, R310, R313, R317 to R322, R382: what a running descriptor does. Step data is added to this module's elements and
sent on, and data out of place fails the descriptor; no progress fails it; its end writes its status and advances its ring; a
descriptor for the update path binds to its job, and its owned sums are handed over lot by lot to the unit that serves the
anchor. -/
def Obligations.PealRuns : Prop :=
  (∀ (p : PortId) (m : Msg) (s s1 : State) (k : PealSlot) (r : PealRun), s1 = s.acceptFlits p (1 + m.cont) →
    s.forHere p { m with ttype := 6#4 } → bitsOf m.tag.toNat 0 11 = k.val % 4 → pealAxis k = p.val / 2 →
    (s.peal k).run = some r → r.phase = .running → r.held = [] → s.pealFaulted k = false →
    s.net.dirDone k r (decide (p.val % 2 = 1)) = false →
      (∀ t bs c xs, c = msgChunk m → r.rsGot.get 0 c ≠ s.net.rsNeed k r.d c → c ≠ s.net.ownChunk k r.d (r.d.positive (s.net.ringLen k) c) →
        s1.net.pealFits k r (decide (p.val % 2 = 1)) false m = true → xs = pealWords 0 (m.payload.take m.len) →
        s1.virtRead (pealAxis k) r.d.ctx (r.d.src + (c * r.d.count + msgElement m) * pealBytes r.d.inFmt) (xs.length * pealBytes r.d.inFmt) = (t, .ok bs) →
        t.net = s1.net →
          Gives (.peal p m) s fun u => (u.peal k).run = some { r with rsGot := r.rsGot.modify 0 c fun g => g + xs.length }
            ∧ u.mem = t.mem ∧ ∀ q, u.port q = (t.pealSend k r.d c (msgElement m) 0 (r.d.positive (s.net.ringLen k) c)
                (pealOut 0 (List.zipWith fp32Add xs (pealWords r.d.inFmt bs)))).port q)
      ∧ (r.d.dirs.contains (decide (p.val % 2 = 1)) = true → s1.net.pealFits k r (decide (p.val % 2 = 1))
          (decide (r.rsGot.get 0 (msgChunk m) = s.net.rsNeed k r.d (msgChunk m))) m = false →
          Gives (.peal p m) s fun u => ∃ r', (u.peal k).run = some r' ∧ r'.phase = .ended ∧ r'.status = 0x05030002#32))
  ∧ (∀ (p : PortId) (m : Msg) (s s1 : State) (k : PealSlot), s1 = s.acceptFlits p (1 + m.cont) → s.forHere p { m with ttype := 6#4 } →
      bitsOf m.tag.toNat 0 11 = k.val % 4 → pealAxis k = p.val / 2 → (s.peal k).run = none →
        Gives (.peal p m) s fun u => (u.port p).waiting = (s.port p).waiting ++ [m])
  ∧ (∀ (k : PealSlot) (s : State) (r : PealRun), (s.peal k).run = some r → r.phase = .running →
      Gives (.pealTimeout k) s fun u => ∃ r', (u.peal k).run = some r' ∧ r'.phase = .ended ∧ r'.status = 0x05030003#32)
  ∧ (∀ (k : PealSlot) (s : State) (r : PealRun), (s.peal k).run = some r → (r.phase = .ended ∨ s.net.pealDone k r = true) → r.d.doneEn = false →
      engineRange (r.addr + 0x38) 8 = some .near → s.serves (r.addr + 0x38) (pealAxis k) = true → s.mem.clean (r.addr + 0x38) 8 →
      Gives (.pealDescriptorComplete k) s fun u => (u.peal k).run = none ∧ (u.peal k).ring = (s.peal k).ring.advance
        ∧ u.mem.load (r.addr + 0x38) 8 = bytesOfNat 4 (if r.phase = .ended then r.status else 0#32).toNat ++ bytesOfNat 4 0)
  ∧ (∀ (k : PealSlot) (s : State) (r : PealRun) (j : JobSlot) (x : Job), (s.peal k).run = some r → r.phase = .binding →
      s.net.cad.bindable r.d = some (j, x) →
        (x.d.n ≠ r.d.owned → Gives (.pealBind k) s fun u => (∃ y, u.net.cad.job j = some y ∧ y.bound = some k)
          ∧ ∃ r', (u.peal k).run = some r' ∧ r'.phase = .ended ∧ r'.status = 0x01030000#32)
        ∧ (x.d.n = r.d.owned → Gives (.pealBind k) s fun u => u = State.pealBegin
            ((s.setCad (s.net.cad.setJob j (some { x with bound := some k }))).setRun k { r with phase := .starting, job := some j })
            k { r with phase := .starting, job := some j }))
  ∧ (∀ (k : PealSlot) (lot : Nat) (s t : State) (r : PealRun) (j : JobSlot) (x : Job) (g : List W32) (lf : Leaf) (c : Ctrl),
      (s.peal k).run = some r → r.phase = .running → r.job = some j → s.net.cad.job j = some x → r.gradient x.d lot = some g →
      lot < x.d.lots → r.handed.get false lot = false → s.pealFaulted k = false → t.net = s.net →
      s.translate (pealAxis k) r.d.ctx (BitVec.ofNat 64 (x.d.anchor lot)) false = (t, .inl lf) →
      t.lotUnit (lf.pbase + (x.d.anchor lot - lf.vbase)) = .ok c →
        ((s.net.cad.unit c).held < 24 → Gives (.lotHandover k lot) s fun u =>
          (u.net.cad.unit c).buffers = (s.net.cad.unit c).buffers ++ [{ job := j, lot := lot, grad := some g }]
            ∧ (u.peal k).run = some { r with handed := r.handed.set false lot true })
        ∧ (24 ≤ (s.net.cad.unit c).held → Gives (.lotHandover k lot) s fun u => u = t))

/-- R323, R326, R343: where the body has reached a VCNT, VLD, VST or VBCAST, the command does what the instruction does and the lot
goes on behind it. VCNT adds the active lanes of its mask to the job's counter; VLD and VBCAST write the enabled lanes of VD;
VST keeps the enabled active lanes' elements for stage 3, on stream 7 lane 0 only. A VBCAST of a Cadence output whose pair
mismatches fails the lot with 0x0707 and the unit discards its outputs. Memory is untouched. -/
def Obligations.ClapperPrograms : Prop :=
  ∀ (u : Ctrl) (s : State) (r : LotRun) (j : Job) (lanes : Nat) (x : ClapUnit), s.lotAt u r j → lanes = j.d.lanes r.lot.lot →
    x = s.net.cad.unit u →
    (∀ msk : Fin 8, j.instr r.pc = some (.cnt msk.val) → Gives (.vcnt u msk) s fun v =>
        v.net.cad.job r.lot.job = some { j with counter := satAdd64 j.counter (countLanes lanes (x.mreg lanes msk)) }
          ∧ v.net.cad.unit u = { x with cur := some { r with pc := r.pc + 1 } } ∧ v.mem = s.mem)
    ∧ (∀ (vd : Fin 64) (msk stream : Fin 8) a, j.instr r.pc = some (.vec .vld a) → a.vd = vd.val → a.msk = msk.val → a.imm = stream.val →
        Gives (.clapperVld u vd msk stream) s fun v =>
          (∀ q, (v.net.cad.unit u).vreg q = if q = vd.val then maskedRow 256 (x.mreg lanes msk) (x.vreg vd) (r.data.get zeroRow256 stream)
            else x.vreg q)
          ∧ (v.net.cad.unit u).mregs = x.mregs ∧ (v.net.cad.unit u).cur = some { r with pc := r.pc + 1 }
          ∧ v.net.cad.job r.lot.job = some j ∧ v.mem = s.mem)
    ∧ (∀ (vc : Fin 64) (msk stream : Fin 8) rtz a fmt, j.instr r.pc = some (.vec .vst a) → a.vc = vc.val → a.msk = msk.val →
        a.imm = stream.val → a.rm = rtz.toNat → Fmt.ofCode (j.d.fmt stream) = some fmt →
        Gives (.clapperVst u vc msk stream rtz) s fun v => v.mem = s.mem ∧ v.net.cad.job r.lot.job = some j
          ∧ ∃ m, v.net.cad.unit u = { x with cur := some { r with pc := r.pc + 1, stores := m } }
            ∧ (∀ k, k ≠ stream.val → m.get [] k = r.stores.get [] k)
            ∧ ∀ l e, l < 256 → (x.vreg vc)[l]? = some e → (m.get [] stream)[l]? =
                some (if (x.mreg lanes msk).getLsbD l = true ∧ l < lanes ∧ (stream.val = 7 → l = 0)
                  then some (fmt.convert (vecRound rtz.toNat) (storeValue fmt e)).1 else (r.stores.get [] stream).getD l none))
    ∧ (∀ (vd : Fin 64) (msk : Fin 8) (sa : Fin 24) a, j.instr r.pc = some (.vec .vbcast a) → a.vd = vd.val → a.msk = msk.val →
        a.va = sa.val →
        ((sa.val < 16 ∨ x.outsC.get 0#32 (sa.val - 16) = ~~~ (x.outs.get 0#32 (sa.val - 16))) → Gives (.clapperVbcast u vd msk sa) s fun v =>
          (∀ q, (v.net.cad.unit u).vreg q = if q = vd.val then maskedRow 256 (x.mreg lanes msk) (x.vreg vd)
              (List.replicate 256 (if sa.val = 0 then 0#32 else if sa.val < 16 then j.consts.getD sa 0#32 else x.outs.get 0#32 (sa.val - 16)))
            else x.vreg q)
          ∧ (v.net.cad.unit u).mregs = x.mregs ∧ (v.net.cad.unit u).cur = some { r with pc := r.pc + 1 }
          ∧ v.net.cad.job r.lot.job = some j ∧ v.mem = s.mem)
        ∧ (16 ≤ sa.val → x.outsC.get 0#32 (sa.val - 16) ≠ ~~~ (x.outs.get 0#32 (sa.val - 16)) → Gives (.clapperVbcast u vd msk sa) s fun v =>
          s.lotLost u r.lot.job j r.lot.lot 0x07070000#32 v ∧ (v.net.cad.unit u).valid = none
            ∧ (v.net.cad.unit u).badStep = some j.d.step ∧ v.mem = s.mem))

/-- R332 to R335, R343: LOT_RUN. A lot waits while the counter is not at its job's step, and fails with 0x0707 where FAULT is set at
that step. A lot of an empty program reads and writes no stream and counts as run. Otherwise the rest of the body runs, the
streams it stored to are written, and the lot counts as run; a write that fails ends the lot with its status. -/
def Obligations.ClapperLots : Prop :=
  (∀ (u : Ctrl) (s : State) (l : Lot) (rest : List Lot) (j : Job), s.xlat.faults.get none (clapFid u.val) = none →
    s.unitServes u = true → (s.net.cad.unit u).cur = none → (s.net.cad.unit u).buffers = l :: rest → s.net.cad.job l.job = some j →
      (s.net.cad.step ≠ j.d.step → Gives (.lotRun u) s fun v => v = s)
      ∧ (s.net.cad.step = j.d.step → (s.net.cad.fault = true ∨ (s.net.cad.unit u).badStep = some j.d.step) → Gives (.lotRun u) s fun v =>
          s.lotLost u l.job j l.lot 0x07070000#32 v ∧ v.mem = s.mem ∧ (v.net.cad.unit u).buffers = rest)
      ∧ (s.net.cad.step = j.d.step → s.net.cad.fault = false → s.net.cad.valid = true → s.net.cad.due = false →
          (s.net.cad.unit u).valid = some j.d.step → (s.net.cad.unit u).badStep = none → j.d.plen = 0 → j.d.pro = 0 → j.words = [] →
          Gives (.lotRun u) s fun v => v.mem = s.mem ∧ v.net.cad.job l.job = some { j with doneLots := j.doneLots + 1, lastUnit := some u }
            ∧ (v.net.cad.unit u).cur = none ∧ (v.net.cad.unit u).buffers = rest
            ∧ (v.net.cad.unit u).lots = (s.net.cad.unit u).lots + 1#32)
      ∧ (∀ t st, s.net.cad.ready u j.d = .runs → (s.net.cad.unit u).lastJob = some l.job → t.net = s.net →
          s.readStreams u j.d l.lot = (t, .error (.status st)) → Gives (.lotRun u) s fun v =>
            s.lotLost u l.job j l.lot st v ∧ v.mem = t.mem ∧ (v.net.cad.unit u).buffers = rest))
  ∧ (∀ (u : Ctrl) (s : State) (r : LotRun) (j : Job) (x' : ClapUnit) (r' : LotRun) (j' : Job), s.lotAt u r j →
      clapRun (fun _ => false) (j.d.lanes r.lot.lot) 257 (s.net.cad.unit u) r j = some (x', r', j') →
        ((∀ k, r'.written ≤ k → r'.stores.get [] k = []) → Gives (.lotRun u) s fun v => v.mem = s.mem
          ∧ v.net.cad.job r.lot.job = some { j' with doneLots := j'.doneLots + 1, lastUnit := some u }
          ∧ (v.net.cad.unit u).cur = none ∧ (v.net.cad.unit u).lots = (s.net.cad.unit u).lots + 1#32)
        ∧ (∀ t, r'.written < 8 → (∀ k, r'.written < k → r'.stores.get [] k = []) → t.net.cad = (s.lotBody u fun _ => false).net.cad →
            (s.lotBody u fun _ => false).writeStream u j'.d r.lot.lot r'.written (r'.stores.get [] r'.written) = (t, none) →
            Gives (.lotRun u) s fun v => v.mem = t.mem
              ∧ v.net.cad.job r.lot.job = some { j' with doneLots := j'.doneLots + 1, lastUnit := some u }
              ∧ (v.net.cad.unit u).cur = none ∧ (v.net.cad.unit u).lots = (s.net.cad.unit u).lots + 1#32)
        ∧ (∀ t st, r'.written < 8 → t.net.cad = (s.lotBody u fun _ => false).net.cad →
            (s.lotBody u fun _ => false).writeStream u j'.d r.lot.lot r'.written (r'.stores.get [] r'.written) = (t, some (.status st)) →
            Gives (.lotRun u) s fun v => s.lotLost u r.lot.job j' r.lot.lot st v ∧ (statusCode st / 256 ≠ 3 → v.mem = t.mem)))

/-- R329 to R332, R336, R337: a descriptor that fails a check is refused with its status at once and no job becomes active; one of N
zero completes at once; any other becomes an active job with its image loaded, nothing counted. A job all of whose lots have run
or failed writes its status and leaves, and the last one of a step lets a pending advance take effect. -/
def Obligations.ClapperJobs : Prop :=
  (∀ (s v : State) (bs : List Byte) (e : CtxEntry) (a : Nat), s.jobTaken v bs e → a = s.net.cad.uq.entry 128 →
    (∀ st, s.net.cad.jobCheck bs (some e.width) = some st → st ≠ 0x07050000#32 → engineRange (a + 0x38) 8 = some .near →
        v.serves (a + 0x38) 4 = true → v.mem.clean (a + 0x38) 8 →
        Gives .jobAccept s fun u => u.mem.load (a + 0x38) 8 = bytesOfNat 4 st.toNat ++ bytesOfNat 4 0
          ∧ (∀ k, u.net.cad.job k = s.net.cad.job k) ∧ u.net.cad.uq = s.net.cad.uq.advance ∧ u.bells = v.bells)
    ∧ (∀ t im d cs ws, s.net.cad.jobCheck bs (some e.width) = none → d = JobDesc.ofBytes bs →
        v.virtRead 4 d.ctx d.prog (64 + 8 * d.plen) = (t, .ok im) → t.net = s.net →
        cs = ((List.range 16).map fun i => w32At im (4 * i)) → ws = ((List.range d.plen).map fun i => w64At im (64 + 8 * i)) →
        (d.imageOk cs ws = true → d.n ≠ 0 → Gives .jobAccept s fun u => u.mem = t.mem ∧ u.net.cad.uq = s.net.cad.uq.advance
          ∧ ∃ k, s.net.cad.job k = none ∧ (∀ q, q ≠ k → u.net.cad.job q = s.net.cad.job q)
            ∧ u.net.cad.job k = some { addr := a, d := d, consts := cs, words := ws, counter := 0#64, next := 0, doneLots := 0,
                                       failed := none, lastUnit := none, bound := none })
        ∧ (d.imageOk cs ws = true → d.n = 0 → d.doneEn = false → engineRange (a + 0x38) 8 = some .near → t.serves (a + 0x38) 4 = true →
          t.mem.clean (a + 0x38) 8 → Gives .jobAccept s fun u => u.mem.load (a + 0x38) 8 = bytesOfNat 8 0
            ∧ (∀ k, u.net.cad.job k = s.net.cad.job k) ∧ u.net.cad.uq = s.net.cad.uq.advance)
        ∧ (d.imageOk cs ws = false → engineRange (a + 0x38) 8 = some .near → t.serves (a + 0x38) 4 = true →
          t.mem.clean (a + 0x38) 8 → Gives .jobAccept s fun u => u.mem.load (a + 0x38) 8 = bytesOfNat 4 0x01010000 ++ bytesOfNat 4 0
            ∧ (∀ k, u.net.cad.job k = s.net.cad.job k) ∧ u.net.cad.uq = s.net.cad.uq.advance)))
  ∧ (∀ (k : JobSlot) (s : State) (j : Job), s.net.cad.job k = some j → j.d.lots ≤ j.doneLots → j.d.doneEn = false →
      engineRange (j.addr + 0x38) 8 = some .near → s.serves (j.addr + 0x38) 4 = true → s.mem.clean (j.addr + 0x38) 8 →
      Gives (.jobComplete k) s fun u => u.net.cad.job k = none ∧ (∀ q, q ≠ k → u.net.cad.job q = s.net.cad.job q)
        ∧ (∀ b, b < j.addr + 0x38 ∨ j.addr + 0x40 ≤ b → u.mem.load b 1 = s.mem.load b 1)
        ∧ u.mem.load (j.addr + 0x38) 8 = bytesOfNat 4 (match j.failed with | none => 0 | some f => f.2.toNat)
            ++ bytesOfNat 4 (match j.failed with | none => min j.counter.toNat 0xFFFFFFFF | some f => f.1 % 2 ^ 32)
        ∧ (s.net.cad.pend = true → (∀ e ∈ s.net.cad.jobs, e.1 ≠ k.val → ∀ y, e.2 = some y → y.d.step ≠ s.net.cad.step) →
            u.net.cad.step = s.net.cad.step + 1#64 ∧ u.net.cad.pend = false)
        ∧ (s.net.cad.pend = false → u.net.cad.step = s.net.cad.step))
  ∧ (∀ (k : JobSlot) (s : State) (j : Job) (b : BellId), s.net.cad.job k = some j → j.d.lots ≤ j.doneLots → j.d.doneEn = true →
      j.d.done = b.val → (s.bell b).sound → (s.bell b).count.toNat + 1 < 2 ^ 64 →
      engineRange (j.addr + 0x38) 8 = some .near → s.serves (j.addr + 0x38) 4 = true → s.mem.clean (j.addr + 0x38) 8 →
      Gives (.jobComplete k) s fun u => u.net.cad.job k = none ∧ (u.bell b).count = (s.bell b).count + 1#64 ∧ (u.bell b).lkind = 3#3
        ∧ u.mem.load (j.addr + 0x38) 8 = bytesOfNat 4 (match j.failed with | none => 0 | some f => f.2.toNat)
            ++ bytesOfNat 4 (match j.failed with | none => min j.counter.toNat 0xFFFFFFFF | some f => f.1 % 2 ^ 32))
  ∧ (∀ (k : JobSlot) (s : State) (j : Job), s.net.cad.job k = some j → j.doneLots < j.d.lots → Gives (.jobComplete k) s fun u => u = s)

/-- R337 to R343, R382: the step counter. CAD_ADV is discarded and counted while an advance is pending, at all ones or under FAULT;
while an active job names the step it is pending; otherwise the counter and its complement advance, and a committed table takes
effect. CAD_SET_C applies the pair where it is whole, no job is active and no advance is pending, and clears FAULT; otherwise
ERR is set and the write counted. CAD_COMMIT takes a valid table and sets ERR for another. A delivery gives every unit the
outputs of the step with their complements, unless the counter's pair mismatches, which sets FAULT. S22 and S23 hold the step's
halves, and S16 is LR_PEAK where there is neither warm-up nor decay. -/
def Obligations.CadenceCommands : Prop :=
  ∀ (s : State) (c : CadS), c = s.net.cad →
    (∀ v, (c.pend = true ∨ c.fault = true ∨ c.step = BitVec.allOnes 64) → Gives (.cadAdv v) s fun u => u = s.discard)
    ∧ (∀ v, c.pend = false → c.fault = false → c.step ≠ BitVec.allOnes 64 → c.stepBusy = true →
        Gives (.cadAdv v) s fun u => u = s.setCad { c with pend := true })
    ∧ (∀ v, c.pend = false → c.fault = false → c.step ≠ BitVec.allOnes 64 → c.stepBusy = false → c.stepC = ~~~ c.step →
        Gives (.cadAdv v) s fun u => u = s.setCad { c with step := c.step + 1#64, stepC := c.stepC - 1#64, valid := false, due := true,
                                                           pend := false, table := c.next.getD c.table, next := none }
          ∧ u.net.cad.stepC = ~~~ u.net.cad.step)
    ∧ (∀ v, v = ~~~ c.setVal → c.active = 0 → c.pend = false →
        Gives (.cadSetC v) s fun u => u = s.setCad { c with step := c.setVal, stepC := v, valid := false, due := true, fault := false,
                                                            pend := false, table := c.next.getD c.table, next := none })
    ∧ (∀ v, (v ≠ ~~~ c.setVal ∨ c.active ≠ 0 ∨ c.pend = true) →
        Gives (.cadSetC v) s fun u => u = (s.setCad { c with err := true }).discard)
    ∧ (∀ v, ((Table.ofWords c.stage).valid = true → Gives (.cadCommit v) s fun u => u = s.setCad { c with next := some c.stage })
        ∧ ((Table.ofWords c.stage).valid = false → Gives (.cadCommit v) s fun u => u = s.setCad { c with err := true }))
    ∧ (c.due = true → c.stepC = ~~~ c.step → Gives .cadenceDelivery s fun u => u.net.cad.valid = true ∧ u.net.cad.due = false
        ∧ u.net.cad.step = c.step ∧ u.mem = s.mem
        ∧ ∀ (n : Ctrl), (u.net.cad.unit n).valid = some c.step ∧ (u.net.cad.unit n).badStep = none
          ∧ (u.net.cad.unit n).vregs = (c.unit n).vregs ∧ (u.net.cad.unit n).cur = (c.unit n).cur
          ∧ ∀ i, i < 8 → (u.net.cad.unit n).outs.get 0#32 i = ((Table.ofWords c.table).outputs c.step).getD i 0#32
            ∧ (u.net.cad.unit n).outsC.get 0#32 i = ~~~ ((u.net.cad.unit n).outs.get 0#32 i)
            ∧ u.net.cad.out.get 0#32 i = (u.net.cad.unit n).outs.get 0#32 i)
    ∧ (c.due = true → c.stepC ≠ ~~~ c.step → Gives .cadenceDelivery s fun u => u.net.cad.fault = true ∧ u.net.cad.valid = false
        ∧ u.net.cad.due = false ∧ u.net.cad.units = c.units)
    ∧ (c.due = false → Gives .cadenceDelivery s fun u => u = s)
    ∧ (∀ (t : Table) (step : W64), (t.outputs step).length = 8 ∧ (t.outputs step).getD 6 0#32 = step.setWidth 32
        ∧ (t.outputs step).getD 7 0#32 = (step >>> 32).setWidth 32
        ∧ (t.wsteps = 0 → t.decay = 0 → (t.outputs step).getD 0 0#32 = fp32Round (fp32Val t.peak)))

/-! ### Hoop links -/

/-- R352 to R356: packets of a link that is UP. A good packet is delivered in SEQ order, held where one is missing before it, and
dropped where it has been delivered; a bad one is counted and a replay asked for, a violation counted and retrained upon. Link
control acknowledges, returns credits and asks for replays; it is sent where the receiver owes it. RETRAIN starts a retrain of
an UP link, which keeps every packet outstanding, and is discarded on one TRAINING or FENCED. -/
def Obligations.HoopPackets : Prop :=
  ∀ (l : LinkId) (rev : Bool) (s : State) (x : HoopLink), x = s.hoop l →
    (∀ p q, x.state ≠ 2 → ∀ i ∈ ([.hoopPacket l rev p, .linkControl l rev q, .linkControlSend l rev] : List Instr), Gives i s fun u => u = s)
    ∧ (∀ p y, x.state = 2 → p.crcGood = true → p.gen = 1#4 → p.rsv = 0#14 → p.cls.toNat < 2 → y = x.lane p.cls.toNat rev →
        Gives (.hoopPacket l rev p) s fun u => (∀ c r, laneKey c r ≠ laneKey p.cls.toNat rev → (u.hoop l).lane c r = x.lane c r)
          ∧ (u.hoop l).state = 2 ∧ ∃ z, (u.hoop l).lane p.cls.toNat rev = z ∧ z.acked = y.acked ∧ z.replayOwed = y.replayOwed
          ∧ (p.seq = y.rxNext → y.held = [] → z.rxNext = y.rxNext + 1#12 ∧ z.freed = (y.freed + 1) % 1024 ∧ z.owed = true ∧ z.held = [])
          ∧ (p.seq = y.rxNext → y.held = [p.seq + 1#12] → z.rxNext = y.rxNext + 2#12 ∧ z.owed = true ∧ z.held = [])
          ∧ (0 < (p.seq - y.rxNext).toNat → (p.seq - y.rxNext).toNat < 2047 → p.seq ∉ y.held → y.held.length < 511 →
              z.rxNext = y.rxNext ∧ z.held = p.seq :: y.held ∧ z.freed = y.freed)
          ∧ (2047 ≤ (p.seq - y.rxNext).toNat → z.rxNext = y.rxNext ∧ z.held = y.held ∧ z.freed = y.freed ∧ z.owed = true))
    ∧ (∀ p, x.state = 2 → p.crcGood = false → p.cls.toNat < 2 → (if rev then x.crcRev else x.crcFwd) < 7 →
        Gives (.hoopPacket l rev p) s fun u => (u.hoop l).crcErr = satInc64 x.crcErr ∧ (u.hoop l).state = 2
          ∧ (u.hoop l).lane p.cls.toNat rev = { x.lane p.cls.toNat rev with replayOwed := true })
    ∧ (∀ p, x.state = 2 → p.crcGood = true → (p.gen ≠ 1#4 ∨ p.cls = 3#2 ∨ p.rsv ≠ 0#14) → x.recent < 16 →
        Gives (.hoopPacket l rev p) s fun u => (u.hoop l).violations = satInc32 x.violations ∧ (u.hoop l).state = 1
          ∧ (u.hoop l).full = false ∧ (u.hoop l).lanes = x.lanes ∧ (u.hoop l).retrains = satInc32 x.retrains)
    ∧ (∀ p, x.state = 2 → p.crcGood = false → (if rev then x.crcRev else x.crcFwd) < 7 →
        Gives (.linkControl l rev p) s fun u => (u.hoop l).crcErr = satInc64 x.crcErr ∧ (u.hoop l).state = 2 ∧ (u.hoop l).lanes = x.lanes)
    ∧ (∀ p, x.state = 2 → p.crcGood = true → p.rsv = false → p.rreq = false → Gives (.linkControl l rev p) s fun u =>
        ∀ e ∈ ([(0, p.ackReq, p.avReq, p.crReq), (1, p.ackRsp, p.avRsp, p.crRsp)] : List (Nat × BitVec 12 × Bool × BitVec 10)),
          ∃ y z, y = x.lane e.1 (!rev) ∧ z = (u.hoop l).lane e.1 (!rev)
            ∧ z.acked = (if e.2.2.1 = true ∧ (e.2.1 - y.acked).toNat ≤ y.inFlight then e.2.1 else y.acked)
            ∧ z.spent = y.spent - (e.2.2.2.toNat + 1024 - y.crSeen) % 1024 ∧ z.crSeen = e.2.2.2.toNat ∧ z.txNext = y.txNext)
    ∧ (∀ p y, x.state = 2 → p.crcGood = true → p.rsv = false → p.rreq = true → p.avReq = false → p.avRsp = false →
        y = x.lane p.rclass.toNat (!rev) → (p.rseq - y.acked - 1#12).toNat < y.inFlight →
        (y.replays < 7 ∨ y.replaySeq ≠ p.rseq) → Gives (.linkControl l rev p) s fun u =>
          (u.hoop l).state = 2 ∧ (u.hoop l).replayCount = satInc64 x.replayCount
            ∧ ((u.hoop l).lane p.rclass.toNat (!rev)).replaySeq = p.rseq)
    ∧ (x.state = 2 → ∀ a b, a = x.lane 0 (!rev) → b = x.lane 1 (!rev) → a.owed = true ∨ b.owed = true → a.replayOwed = false → b.replayOwed = false →
        a.rxNext ≠ 0#12 → b.rxNext ≠ 0#12 → Gives (.linkControlSend l rev) s fun u =>
          u.reply.data = bytesOfNat 2 ((a.rxNext - 1#12).toNat + 2 ^ 15) ++ bytesOfNat 2 ((b.rxNext - 1#12).toNat + 2 ^ 15)
            ++ bytesOfNat 2 a.freed ++ bytesOfNat 2 b.freed ++ bytesOfNat 56 0
          ∧ ((u.hoop l).lane 0 (!rev)).owed = false ∧ ((u.hoop l).lane 1 (!rev)).owed = false)
    ∧ (x.state = 2 → (∀ c, c < 2 → (x.lane c (!rev)).owed = false ∧ (x.lane c (!rev)).replayOwed = false) →
        Gives (.linkControlSend l rev) s fun u => u = s)
    ∧ (x.state = 1 ∨ x.state = 3 → Gives (.retrain l) s fun u => u = s.discard)
    ∧ (x.state = 2 → (x.recent < 16 ∨ Config.freeChoice s.fresh 0 = false) → Gives (.retrain l) s fun u => (u.hoop l).state = 1 ∧ (u.hoop l).full = false
        ∧ (u.hoop l).retrains = satInc32 x.retrains ∧ (u.hoop l).lanes = x.lanes ∧ (u.hoop l).good = x.good)
    ∧ (x.state = 2 → 16 ≤ x.recent → Config.freeChoice s.fresh 0 = true → Gives (.retrain l) s fun u =>
        (u.hoop l).state = 3 ∧ (u.hoop l).cause = 3)

/-- R357 to R364: a training. It changes nothing outside TRAINING; no common level fences the link with cause 4, three damaged
attempts with cause 2, a direction below three quarters of its default groups with cause 1. Otherwise the link is UP on the
agreed mask, SEQ anew after a full training and going on after a retrain. A failed clock or data lane takes spare 33 where it is
free; a group with no working spare for it is retired and leaves the mask. -/
def Obligations.HoopTraining : Prop :=
  ∀ (l : LinkId) (f : TrainFindings) (s : State) (x : HoopLink), x = s.hoop l →
    (x.state ≠ 1 → Gives (.trainingComplete l f) s fun u => u = s)
    ∧ (x.state = 1 → f.failed = [] →
        ((f.level0.getLsbD 1 = false ∨ f.level1.getLsbD 1 = false) → Gives (.trainingComplete l f) s fun u =>
          (u.hoop l).state = 3 ∧ (u.hoop l).cause = 4)
        ∧ (f.level0.getLsbD 1 = true → f.level1.getLsbD 1 = true → f.damaged = [true, true, true] → Gives (.trainingComplete l f) s fun u =>
          (u.hoop l).state = 3 ∧ (u.hoop l).cause = 2 ∧ (u.hoop l).dmask0 = x.ownMask 0 ∧ (u.hoop l).dmask1 = x.ownMask 1
            ∧ (u.hoop l).attempts = 3)
        ∧ (∀ m, f.level0.getLsbD 1 = true → f.level1.getLsbD 1 = true → f.damaged.getD 0 false = false → m = x.ownMask 0 &&& x.ownMask 1 →
          (floorOf x.nf ≤ countGroups m 0 x.nf → floorOf (512 - x.nf) ≤ countGroups m x.nf 512 →
            Gives (.trainingComplete l f) s fun u => (u.hoop l).state = 2 ∧ (u.hoop l).good = m ∧ (u.hoop l).attempts = 1
              ∧ (u.hoop l).trained = true ∧ (x.full = true → (u.hoop l).lanes = [])
              ∧ (x.full = false → ∀ c r, ((u.hoop l).lane c r).txNext = (x.lane c r).txNext ∧ ((u.hoop l).lane c r).rxNext = (x.lane c r).rxNext
                  ∧ ((u.hoop l).lane c r).acked = (x.lane c r).acked ∧ ((u.hoop l).lane c r).held = (x.lane c r).held))
          ∧ ((countGroups m 0 x.nf < floorOf x.nf ∨ countGroups m x.nf 512 < floorOf (512 - x.nf)) →
            Gives (.trainingComplete l f) s fun u => (u.hoop l).state = 3 ∧ (u.hoop l).cause = 1)))
    ∧ (∀ (g : Fin 512) (lane : Fin 33) lanes, x.state = 1 → f.failed = [(g, lanes)] → f.level0.getLsbD 1 = true → f.level1.getLsbD 1 = true →
        (x.retiredAt (x.receiver g)).getLsbD g = false → (∀ sp, sp < 35 → x.spares.get 0 (35 * g.val + sp) = 0) →
        (lanes = [lane.castLE (by decide)] → Gives (.trainingComplete l f) s fun u =>
          (u.hoop l).spares.get 0 (35 * g.val + 33) = lane.val + 1 ∧ (u.hoop l).sparesUsed = satInc32 x.sparesUsed)
        ∧ (lanes = [lane.castLE (by decide), 33, 34] → Gives (.trainingComplete l f) s fun u =>
          (u.hoop l).sparesUsed = x.sparesUsed ∧ ((u.hoop l).retiredAt (x.receiver g)).getLsbD g = true
            ∧ ((u.hoop l).state = 2 → (u.hoop l).good.getLsbD g = false)))

/-! ### Power, service, the dictionary and custody -/

/-- R428, R430 to R448, R508: what Kettle does with a ROLL, a current limit alert, an input report, a rail that reaches its target,
a monitor's evaluation, the hourly save of the trims, a cycle, and the close of a telemetry window. -/
def Obligations.KettleCommands : Prop :=
  ∀ s : State,
    (∀ w, (rollBad w = false → Gives (.kettleRoll w) s fun u =>
            u.kettle = { s.kettle with waiting := s.kettle.waiting ++ if rollEmpty w then [] else [w] })
        ∧ (rollBad w = true → Gives (.kettleRoll w) s fun u => u.kettle = s.kettle ∧ u = s.discard))
    ∧ (∀ d a, Gives (.currentLimitAlert d a) s fun u => (u.kettle.limitOf d.val).alert = true ∧ (u.kettle.limitOf d.val).pct = 85
        ∧ u.kettle.ilimAlerts = satInc32 s.kettle.ilimAlerts
        ∧ ∀ n, u.kettle.grants.get 64 n = if onDie d.val n then 64 else s.kettle.grants.get 64 n)
    ∧ (∀ v w, s.svc.running = true →
        (5600 ≤ v → Gives (.inputReport v w) s fun u => u.kettle.volt = min 0xFFFF v ∧ u.kettle.watts = min 0xFFFF w
            ∧ u.kettle.inputBad = decide (v < 6000 ∨ 8000 < v) ∧ u.svc.running = true)
        ∧ (v < 5600 → Gives (.inputReport v w) s fun u => u.svc.running = false ∧ u.mem.mem = [] ∧ u.tiles = []))
    ∧ (s.kettle.ramp = true → Gives .railTargetReached s fun u => u.kettle.rails = s.kettle.targets ∧ u.kettle.ramp = false
        ∧ u.kettle.frReady = decide (s.kettle.point = 2))
    ∧ (∀ t m x, (s.kettle.tile t).ceiling = false →
        (Gives (.monitorEvaluation (.tile t) m false x) s fun u => (u.kettle.tile t).ceiling = true ∧ (u.kettle.tile t).trim = 0)
        ∧ (s.kettle.point ≠ 2 → s.kettle.tiles.all (fun e => !e.2.boost) = true →
          Gives (.monitorEvaluation (.tile t) m true x) s fun u =>
            (m < 60 → (u.kettle.tile t).trim = 0)
            ∧ (60 ≤ m → m < 120 → (u.kettle.tile t).trim = (s.kettle.tile t).trim - 5)
            ∧ (120 ≤ m → m ≤ 180 → (u.kettle.tile t).trim = (s.kettle.tile t).trim)
            ∧ (180 < m → (s.kettle.tile t).streak < 15 → (u.kettle.tile t).trim = (s.kettle.tile t).trim
                ∧ (u.kettle.tile t).streak = (s.kettle.tile t).streak + 1)
            ∧ (180 < m → 15 ≤ (s.kettle.tile t).streak → (u.kettle.tile t).trim = min 60 ((s.kettle.tile t).trim + 5))))
    ∧ (∀ c m x, (s.core c).ceiling = false →
        (Gives (.monitorEvaluation (.core c) m false x) s fun u => (u.core c).ceiling = true ∧ (u.core c).trim = 0)
        ∧ (Gives (.monitorEvaluation (.core c) m true x) s fun u => (u.core c).trim = (trimAfter (s.core c).trim (s.core c).streak m).1))
    ∧ (Gives .trimSave s fun u => u.dict.csn = s.dict.csn + 1#64
        ∧ (∀ t : TileId, (s.kettle.tile t).trim < 256 → u.dict.num 0x1013 t.val = (s.kettle.tile t).trim)
        ∧ ∀ c : CoreId, (s.core c).trim < 256 → u.dict.num 0x1014 c.val = (s.core c).trim)
    ∧ (∀ r, s.svc.railsOn = true →
        (∀ k x, tripSensor r = some (k, x) → Gives (.kettleCycle r) s fun u => u.svc.tripped = true ∧ u.svc.alert = true
            ∧ u.svc.railsOn = false ∧ u.mem.mem = [] ∧ u.tocsin.tallies = s.tocsin.tallies)
        ∧ (tripSensor r = none → Gives (.kettleCycle r) s fun u =>
            u.kettle.point = s.dict.num 0x3000 1 ∧ u.kettle.boostEn = decide (s.dict.num 0x3000 3 = 1)
            ∧ u.kettle.cap = thermalCap s.kettle.cap (1000 * s.dict.num 0x3000 2) u.kettle.hottest (8 * s.dict.num 0x4000 1)
            ∧ u.kettle.throttle = u.kettle.cap.isSome ∧ u.kettle.limit ≤ s.dict.num 0x3000 2
            ∧ (∀ n, 64 ≤ u.kettle.grants.get 64 n) ∧ u.kettle.waiting = []
            ∧ (∀ d, d < 4 → u.kettle.rails.get 0 d ≤ s.kettle.rails.get 0 d + 20 ∧ s.kettle.rails.get 0 d ≤ u.kettle.rails.get 0 d + 20)
            ∧ u.window.cycles = s.window.cycles + 1))
    ∧ (s.firmwareRuns = true → Gives .telemetryWindow s fun u => u.window = WindowS.empty ∧ u.coarse.csn = s.dict.csn
        ∧ (s.window.limit < 2 ^ 16 → u.coarse.budget.toNat % 2 ^ 16 = s.window.limit / 10 * 10)
        ∧ u.coarse.status.toNat % 16 = s.kettle.statusWord.toNat % 16)

/-- R428, R510, R511, R524, R529, R541: what the power, reset, ROM and latch events do. -/
def Obligations.PowerAndReset : Prop :=
  ∀ s : State,
    (∀ v, s.svc.running = false → s.svc.enTied = true →
      (5800 ≤ v → Gives (.powerOn v) s fun u => u.booted s.cust ∧ u.svc.inVolt = v)
      ∧ (v < 5800 → Gives (.powerOn v) s fun u => u = s.setSvc { s.svc with inVolt := v }))
    ∧ (∀ ms, 50 ≤ ms → s.svc.running = false →
        (5800 ≤ s.svc.inVolt → Gives (.enTied ms) s fun u => u.booted s.cust)
        ∧ (s.svc.inVolt < 5800 → Gives (.enTied ms) s fun u => u = s.setSvc { s.svc with enTied := true }))
    ∧ (∀ us, (us ≤ 20 → Gives (.enBreak us) s fun u => u = s)
        ∧ (20 < us → s.svc.running = true → Gives (.enBreak us) s fun u => u.svc.running = false ∧ u.svc.enTied = false
            ∧ u.tiles = [] ∧ u.bells = [] ∧ u.mem.mem = [] ∧ u.tocsin.tallies = [] ∧ u.cust.store = s.cust.store
            ∧ u.cust.ownerKey = s.cust.ownerKey ∧ u.cust.rollback = s.cust.rollback ∧ u.dict.csn = s.dict.stored + 65536#64))
    ∧ (s.svc.running = true →
        (∀ us, 1000 ≤ us → s.kettle.tooHot = false → Gives (.resetN true us) s fun u => u.svc.resetLow = true ∧ u.svc.railsOn = false
            ∧ u.mem.mem = [] ∧ u.tocsin.tallies = s.tocsin.tallies ∧ u.tocsin.seqs = s.tocsin.seqs)
        ∧ (∀ us, us < 1000 ∨ s.kettle.tooHot = true → Gives (.resetN true us) s fun u => u = s)
        ∧ (∀ us, s.svc.resetLow = true → Gives (.resetN false us) s fun u => u.booted s.cust ∧ u.svc.resetLow = false
            ∧ u.tocsin.tallies = s.tocsin.tallies ∧ u.tocsin.seqs = s.tocsin.seqs))
    ∧ (s.svc.rom = true →
        (∀ k n, k.toNat ≤ 1 → n.toNat ≤ 2 ^ 22 → Gives (.romBegin k n) s fun u => u.svc.romImage = some (k.toNat, n.toNat, [])
            ∧ u.reply.code = stOk)
        ∧ (∀ g o bs, s.svc.romImage = some g → o.toNat = g.2.2.length → bs.length ≤ 1024 →
            (o.toNat + bs.length ≤ g.2.1 → Gives (.romData o bs) s fun u => u.svc.romImage = some (g.1, g.2.1, g.2.2 ++ bs)
                ∧ u.reply.code = stOk)
            ∧ (g.2.1 < o.toNat + bs.length → Gives (.romData o bs) s fun u => u.svc.romImage = s.svc.romImage
                ∧ u.reply.code = stBounds))
        ∧ (∀ g f, s.svc.romImage = some g → g.2.2.length = g.2.1 → f = Firmware.ofBytes (g.2.2.take 128) (g.2.2.drop 128) →
            (f.good s.cust.rollback = true → Gives .romEnd s fun u =>
                u.booted ((s.cust.eraseSlot g.1).writeSlot g.1 0 g.2.2) ∧ u.cust.slot g.1 0 g.2.2.length = g.2.2)
            ∧ (f.good s.cust.rollback = false → Gives .romEnd s fun u => u.reply.code = stTierError ∧ u.cust.store = s.cust.store)))
    ∧ (∀ bay, bay ∉ s.svc.baysOut → Gives (.latchOpened bay) s fun u => bay ∈ u.svc.baysOut
        ∧ ∀ p, ((s.port p).usesBay bay = true → (s.port p).linked = true → (u.port p).linked = false)
          ∧ ((s.port p).usesBay bay = false → (u.port p).width = (s.port p).width))
    ∧ ∀ bay, Gives (.bayInserted bay) s fun u => bay ∉ u.svc.baysOut ∧ u.net = s.net

/-- R96, R97, R203, R216, R387, R514, R515: what self-test leaves in a tile; a stack that passes its initialisation enters service
and one that fails stays out, a deep one ending bring-up with the alert; the sweep's end, after which core 0 starts once the
runtime is verified. -/
def Obligations.MemoryBringUp : Prop :=
  ∀ s : State, s.memPhase = true →
    (∀ t f, (s.tile t).kernel = none → ServiceUnit.tile t ∉ s.svc.returning → Gives (.arraySelfTest t f) s fun u =>
      (∀ q : Fin 4, (u.tile t).qmask.getLsbD q.val =
          (decide ((if q.val < 2 then (u.tile t).failRows0 else (u.tile t).failRows1) ≠ 3#2)
            && decide ((if q.val % 2 = 0 then (u.tile t).failCols0 else (u.tile t).failCols1) ≠ 3#2)))
      ∧ (u.tile t).health = healthOf (u.tile t).qmask f.outside
      ∧ (∀ v, v ≠ t → u.tile v = s.tile v) ∧ u.svc.phase = 3)
    ∧ (∀ c, (s.mem.ctrl c.val).state = 1 → ServiceUnit.ctrl c ∉ s.svc.returning →
        (Gives (.stackInitComplete c true) s fun u => (u.mem.ctrl c.val).state = 0)
        ∧ (Gives (.stackInitComplete c false) s fun u => (u.mem.ctrl c.val).state = 2 ∧ u.mem.mapGen = s.mem.mapGen + 1#32
            ∧ (16 ≤ c.val → u.svc.alert = true)))
    ∧ Gives .cacheSweepComplete s fun u => u.cache.swept = true ∧ u.cache.sweepStep = 32768
        ∧ (s.cust.verified = false → u.svc.phase = 3 ∧ u.cores = s.cores)
        ∧ (s.cust.verified = true → u.svc.phase = 4 ∧ (u.core 0).state = 1 ∧ (u.core 0).pc = BitVec.ofNat 64 s.cust.entry)

/-- R516 to R523: each service action that passes its checks does what its row says, with RESULT 1 until it is complete; one that a
check refuses commits nothing. R518, R519, R521, R523: a drained unit leaves service and its action completes; a returned unit
whose test passes rejoins with REINTEGRATED committed, and one whose test fails stays out with RESULT 3, DETAIL 2; a chunk's
write ends with its bytes in the slot, or with RESULT 3, DETAIL 4. -/
def Obligations.ServiceActions : Prop :=
  (∀ (who : Principal) (s : State),
    (∀ w ab, 2 ≤ s.svc.phase → s.svc.tripped = false → s.actionCheck who w = ab → ab ≠ abNone →
      ∀ c ∈ ([(.actNone who, actionWord 0 0 0 0), (.coldReset who, actionWord 1 0 0 0), (.bringupDone who, actionWord 2 0 0 0),
          (.debugClose who, actionWord 0x31 0 0 0)] : List (Instr × W64)), w = c.2 →
        Gives c.1 s fun u => u.reply.code = BitVec.ofNat 32 ab ∧ u.svc = s.svc ∧ u.dict.csn = s.dict.csn)
    ∧ (s.actionGoes who (actionWord 0 0 0 0) → Gives (.actNone who) s fun u => u.svc = s.svc ∧ u.reply.code = 0#32)
    ∧ (s.actionGoes who (actionWord 1 0 0 0) → Gives (.coldReset who) s fun u => u.booted s.cust
        ∧ u.tocsin.tallies = s.tocsin.tallies ∧ u.mem.mem = [])
    ∧ (s.actionGoes who (actionWord 2 0 0 0) → s.svc.phase = 4 → Gives (.bringupDone who) s fun u => u.svc.phase = 5 ∧ u.svc.result = 2
        ∧ (∀ t, (s.kettle.tile t).stuck = false → (u.kettle.tile t).ceiling = false)
        ∧ ∀ c, (s.core c).stuckCeiling = false → (u.core c).ceiling = false)
    ∧ (∀ v f, s.actionGoes who (actionWord 0x10 (unitKind v) (unitNumber v) (f : Bool).toNat) →
        (s.unitOut v = false → s.unitNamed 0x10 (unitKind v) (unitNumber v) = some v → Gives (.takeOut who v f) s fun u =>
            (v, f) ∈ u.svc.leaving ∧ u.svc.result = 1 ∧ u.svc.code = 0x10
            ∧ (∀ c, v = .ctrl c → (u.mem.ctrl c.val).state = 2)
            ∧ ∀ q, v = .port q → (u.port q).state = 0 ∧ (u.port q).en = false)
        ∧ (s.unitOut v = true → s.unitNamed 0x10 (unitKind v) (unitNumber v) = some v → Gives (.takeOut who v f) s fun u =>
            u.svc.leaving = s.svc.leaving ∧ u.svc.result = 2))
    ∧ (∀ v, s.actionGoes who (actionWord 0x11 (unitKind v) (unitNumber v) 0) →
        s.unitNamed 0x11 (unitKind v) (unitNumber v) = some v → Gives (.bringBack who v) s fun u => v ∈ u.svc.returning
          ∧ u.svc.result = 1 ∧ u.svc.code = 0x11 ∧ (∀ t, v = .tile t → (u.tile t).health = .outOfService ∧ (u.tile t).sregs = [])
          ∧ ∀ c, v = .core c → (u.core c).state = 3)
    ∧ (∀ t, s.actionGoes who (actionWord 0x12 1 t.val 0) → Gives (.retest who t) s fun u => .tile t ∈ u.svc.returning
        ∧ u.svc.result = 1 ∧ (u.tile t).health = .outOfService)
    ∧ (∀ d, s.actionGoes who (actionWord 0x13 0 d.val 0) → Gives (.dieReset who d) s fun u =>
        (∀ v ∈ dieUnits d.val, v ∈ u.svc.returning) ∧ (∀ b, bellDie b = d.val → u.bell b = Bell.reset)
        ∧ (∀ t, tileDie t = d.val → (u.tile t).health = .outOfService) ∧ u.svc.result = 1)
    ∧ (∀ k ch n, s.actionGoes who (actionWord 0x20 0 (n : W16).toNat ((k : Fin 6).val + 16 * (ch : BitVec 12).toNat)) →
        (ch.toNat = 0 ∨ ch.toNat = s.svc.nextChunk.get 0 k.val →
            65536 * ch.toNat + 16 * n.toNat ≤ slotSize k.val → Gives (.writeSlot who k ch n) s fun u =>
              u.svc.writing = some (k.val, ch.toNat, s.svc.stage.getRun 0#8 0 (16 * n.toNat)) ∧ u.svc.result = 1)
        ∧ (ch.toNat ≠ 0 → ch.toNat ≠ s.svc.nextChunk.get 0 k.val → Gives (.writeSlot who k ch n) s fun u =>
              u.svc.result = 3 ∧ u.svc.detail = 5 ∧ ∀ o m, u.cust.slot k.val o m = List.replicate m 0#8 ∨ slotSize k.val < o + m))
    ∧ (∀ v : BitVec 3, s.actionGoes who (actionWord 0x30 0 0 v.toNat) → Gives (.debugOpen who v) s fun u =>
        u.cust.debug = s.cust.debug ||| v ∧ u.svc.result = 2)
    ∧ (s.actionGoes who (actionWord 0x31 0 0 0) → Gives (.debugClose who) s fun u => u.cust.debug = 0#3 ∧ u.svc.result = 2))
  ∧ (∀ s : State,
    (∀ v f, (v, f) ∈ s.svc.leaving → s.unitDrained v = true → Gives (.unitOutOfService v) s fun u =>
      u.svc.result = 2 ∧ u.svc.detail = 0 ∧ (∀ g, (v, g) ∉ u.svc.leaving)
      ∧ (∀ t, v = .tile t → (u.tile t).health = .outOfService) ∧ ∀ c, v = .core c → (u.core c).state = 2)
    ∧ (∀ v, s.svc.returning = [v] → s.svc.result = 1 →
        (s.testPassed v = true → s.svc.detail = 0 → Gives (.reintegration v true) s fun u =>
            u.svc.result = 2 ∧ u.svc.reint = s.svc.reint + 1 ∧ u.svc.returning = []
            ∧ (∀ t, v = .tile t → (u.tile t).health = healthOf (s.tile t).qmask false ∧ (u.tile t).seq = .clearing)
            ∧ (∀ c, v = .core c → (u.core c).state = 0)
            ∧ ∀ c, v = .ctrl c → (u.mem.ctrl c.val).state = 0)
        ∧ (Gives (.reintegration v false) s fun u => u.svc.result = 3 ∧ u.svc.detail = 2 ∧ u.svc.reint = s.svc.reint
            ∧ u.svc.returning = [] ∧ (∀ c, v = .core c → (u.core c).state = 2)
            ∧ ∀ c, v = .ctrl c → (u.mem.ctrl c.val).state = 2))
    ∧ ∀ k ch bs, s.svc.writing = some (k, ch, bs) →
        (Gives (.writeSlotEnded true) s fun u => u.cust.slot k (65536 * ch) bs.length = bs ∧ u.svc.writing = none ∧ u.svc.result = 2
            ∧ u.svc.nextChunk.get 0 k = ch + 1)
        ∧ (Gives (.writeSlotEnded false) s fun u => u.cust.store = s.cust.store ∧ u.svc.result = 3 ∧ u.svc.detail = 4))

/-- R458, R459, R463, R467 to R471: what each operation does to the dictionary. READ and DESCRIBE change no entry; a WRITE, FREEZE
or RELEASE whose items all pass takes the next commit number and changes the entry named, and one with an item that fails
commits nothing; OPEN and CLOSE begin and end a session. A frame that its checks refuse changes no entry. -/
def Obligations.DictionaryRequests : Prop :=
  ∀ (p : Path) (f : Pdu) (s : State),
    (∀ ses, s.accepts p f 1 ses → Gives (.dictRead p f) s fun u => u.dict.entries = s.dict.entries ∧ u.dict.csn = s.dict.csn
      ∧ s.answered u p f (f.items.map fun i =>
          if s.readAbort f.principal i = abNone then s.valueItem f.principal i none else abortItem i (s.readAbort f.principal i)))
    ∧ (∀ ses i, s.accepts p f 2 ses → f.items = [i] → s.writeAbort [i] f.principal i = abNone →
        i.index ≠ 0x9000#16 → i.index ≠ 0x7000#16 → Gives (.dictWrite p f) s fun u => u.dict.csn = s.dict.csn + 1#64
          ∧ (∀ e, itemEntry i = some e → e.restrictive = false → u.dict.value i.index.toNat i.sub.toNat = i.value
              ∧ (u.dict.entry i.index.toNat i.sub.toNat).csn = s.dict.csn + 1#64)
          ∧ (∀ e, itemEntry i = some e → e.restrictive = true →
              (u.dict.entry i.index.toNat i.sub.toNat).claims =
                ((s.dict.entry i.index.toNat i.sub.toNat).claims.filter fun c => c.1 ≠ f.principal) ++ [(f.principal, i.value)]
              ∧ u.dict.value i.index.toNat i.sub.toNat = e.claimed (u.dict.entry i.index.toNat i.sub.toNat).claims)
          ∧ ∀ x y, entryKey x y ≠ entryKey i.index.toNat i.sub.toNat → u.dict.entry x y = s.dict.entry x y)
    ∧ (∀ ses, s.accepts p f 2 ses → (∃ i ∈ f.items, s.writeAbort f.items f.principal i ≠ abNone) →
        Gives (.dictWrite p f) s fun u => u.dict.entries = s.dict.entries ∧ u.dict.csn = s.dict.csn ∧ u.cust = s.cust
          ∧ s.answered u p f (f.items.map fun i => abortItem i
              (if s.writeAbort f.items f.principal i = abNone then abGroup else s.writeAbort f.items f.principal i)))
    ∧ (∀ ses i, s.accepts p f 2 ses → f.items = [i] → i.index = 0x7000#16 → i.sub = 1#8 → i.value = [1#8] →
        (∀ c ∈ (s.dict.entry 0x7000 1).claims, c.2 = [0#8] ∨ c.2 = [1#8]) →
        s.writeAbort [i] f.principal i = abNone → s.cust.latched = false → Gives (.dictWrite p f) s fun u =>
          u.cust.latched = true ∧ u.cust.entering = true ∧ u.cust.debug = 0#3 ∧ u.kern.sealedMark = true
            ∧ ∀ q, (s.port q).state = 3 → (s.port q).attested = false → (u.port q).linked = false)
    ∧ (∀ ses i, s.accepts p f 2 ses → f.items = [i] → i.index = 0x7000#16 → i.sub = 2#8 → s.writeAbort [i] f.principal i = abNone →
        Gives (.dictWrite p f) s fun u => u.dict.csn = s.dict.csn + 1#64 ∧ u.cust.ownerKey = i.value
          ∧ (i.value = [] → u.cust.config = none))
    ∧ (∀ ses i, s.accepts p f 2 ses → f.items = [i] → i.index = 0x9000#16 → i.sub = 1#8 → s.writeAbort [i] f.principal i = abNone →
        Gives (.dictWrite p f) s fun u => ∃ t : State, t.dict.csn = s.dict.csn + 1#64 ∧ t.svc = s.svc ∧ u = t.actionStarts (w64At i.value 0))
    ∧ (∀ ses i, s.accepts p f 3 ses → f.items = [i] → s.freezeAbort f.principal i = abNone →
        Gives (.dictFreeze p f) s fun u => u.dict.csn = s.dict.csn + 1#64
          ∧ u.dict.entry i.index.toNat i.sub.toNat = { s.dict.entry i.index.toNat i.sub.toNat with frozen := true }
          ∧ ((s.dict.entry 0x2000 1).frozen = true → i.index = 0x2000#16 → i.sub = 2#8 → u.net.frozen = true))
    ∧ (∀ ses i, s.accepts p f 4 ses → f.items = [i] → s.releaseAbort f.principal i = abNone →
        Gives (.dictRelease p f) s fun u => u.dict.csn = s.dict.csn + 1#64
          ∧ (u.dict.entry i.index.toNat i.sub.toNat).claims =
              (s.dict.entry i.index.toNat i.sub.toNat).claims.filter fun c => c.1 ≠ f.principal)
    ∧ (∀ ses, s.accepts p f 5 ses → Gives (.dictDescribe p f) s fun u => u.dict.entries = s.dict.entries
        ∧ s.answered u p f (f.items.map (s.describeItem f.principal)))
    ∧ (∀ ses, s.accepts p f 6 ses → Gives (.dictDiscover p f) s fun u => u.dict.entries = s.dict.entries
        ∧ s.answered u p f ((List.range 7).map fun k => s.valueItem f.principal
            { index := 0x1000#16, sub := BitVec.ofNat 8 (k + 1), type := 0#8, vlen := 0, rsv := 0#16, value := [], padZero := true } none))
    ∧ (∀ key, s.reached p = true → f.kind = 0#4 → f.op.toNat = 7 → f.broadcast = false → s.pduCheck f = none → s.verdict p f = .opens key →
        ((s.dict.sessions.filter fun x => x.path = pathNo p).length < pathLimit (pathNo p) → w64Bits f.body 1 1 = 1 →
          Gives (.dictOpen p f) s fun u => u.reply.code = 0#32 ∧ ∃ x, x ∈ u.dict.sessions ∧ x.path = pathNo p ∧ x.id = f.session
            ∧ x.last = 0#32 ∧ x.key = key)
        ∧ (pathLimit (pathNo p) ≤ (s.dict.sessions.filter fun x => x.path = pathNo p).length →
          Gives (.dictOpen p f) s fun u => u.dict.sessions = s.dict.sessions ∧ u.reply.code = 0x10#32))
    ∧ (∀ x, s.accepts p f 8 (some x) → Gives (.dictClose p f) s fun u => u.dict.entries = s.dict.entries
        ∧ ∀ y ∈ u.dict.sessions, ¬ (y.path = x.path ∧ y.id = x.id))
    ∧ (∀ e ∈ ([(1, .dictRead .mailbox f), (2, .dictWrite .mailbox f), (3, .dictFreeze .mailbox f), (4, .dictRelease .mailbox f),
          (5, .dictDescribe .mailbox f), (6, .dictDiscover .mailbox f), (7, .dictOpen .mailbox f), (8, .dictClose .mailbox f)] :
          List (Nat × Instr)), f.op.toNat = e.1 → ∃ u, exec (.mydarRequest f) s = .next u ∧ exec e.2 s = .next u)
    ∧ (∀ st, s.reached p = true → f.kind = 0#4 → f.broadcast = false → s.pduCheck f = some st →
        ∀ e ∈ ([(1, .dictRead p f), (2, .dictWrite p f), (3, .dictFreeze p f), (4, .dictRelease p f), (5, .dictDescribe p f),
          (6, .dictDiscover p f), (7, .dictOpen p f), (8, .dictClose p f)] : List (Nat × Instr)), f.op.toNat = e.1 →
            Gives e.2 s fun u => u.reply.code = st ∧ u.dict.entries = s.dict.entries ∧ u.dict.csn = s.dict.csn)
    ∧ (∀ id, Gives (.sessionIdleTimeout p id) s fun u => u.dict.entries = s.dict.entries
        ∧ (∀ y ∈ u.dict.sessions, ¬ (y.path = pathNo p ∧ y.id = id))
        ∧ ∀ y ∈ s.dict.sessions, ¬ (y.path = pathNo p ∧ y.id = id) → y ∈ u.dict.sessions)
    ∧ (∀ why, s.firmwareRuns = true → Gives (.frameDrop why) s fun u => u.tele.frameDrops = satInc32 s.tele.frameDrops
        ∧ u.dict = s.dict)

/-- R496 to R499, R501: each SPDM request reaches its level and answers as its row says; sealed mode completes once what it waits
for is done. -/
def Obligations.CustodyCommands : Prop :=
  ∀ (p : SpdmPath) (s : State),
    (s.responds p 0 → s.svc.rom = false → Gives (.getVersion p) s fun u => u.reply.code = 0#32 ∧ u.reply.data = [0x12#8]
        ∧ (u.spdm p).level = 1 ∧ (u.spdm p).sessions = (s.spdm p).sessions)
    ∧ (s.responds p 1 → Gives (.getCapabilities p) s fun u => u.reply.code = 0#32 ∧ 2 ≤ (u.spdm p).level)
    ∧ (s.responds p 2 → (Gives (.negotiateAlgorithms p true) s fun u => u.reply.code = 0#32 ∧ (u.spdm p).level = 3)
        ∧ Gives (.negotiateAlgorithms p false) s fun u => u.reply.code = 1#32 ∧ (u.spdm p).level = (s.spdm p).level)
    ∧ (s.responds p 3 →
        (Gives (.getDigests p) s fun u => u.reply.data = 0x01#8 :: Config.sm3 (Config.certChain s.cust.fwMeas))
        ∧ (∀ o n, o ≤ (Config.certChain s.cust.fwMeas).length → Gives (.getCertificate p 0 o n) s fun u =>
            u.reply.code = 0#32 ∧ u.reply.data.drop 4 = ((Config.certChain s.cust.fwMeas).drop o).take (min n 1392))
        ∧ (∀ k o n, k ≠ 0 → Gives (.getCertificate p k o n) s fun u => u.reply.code = 1#32)
        ∧ (∀ q, Gives (.challenge p q) s fun u => u.signedReply s q (Config.sm3 (Config.certChain s.cust.fwMeas)))
        ∧ (∀ q, Gives (.getMeasurements p q) s fun u =>
            u.signedReply s q ((s.measurements.map fun m => measBlock m.1 m.2.1 m.2.2).flatten))
        ∧ (∀ x, Gives (.keyExchange p x) s fun u => ∃ h, (u.spdm p).handshake = some h
            ∧ h.id = sessionId x (s.spdm p).begun ∧ h.id ≠ 0#32 ∧ h.id ≠ 0xFFFFFFFF#32 ∧ u.signedReply s x (bytesOfNat 4 h.id.toNat))
        ∧ (∀ b h, (s.spdm p).handshake = some h →
            (Gives (.finish p true b) s fun u => u.reply.code = 0#32 ∧ (u.spdm p).handshake = none
                ∧ (u.spdm p).sessions = { h with bothSides := b } :: (s.spdm p).sessions)
            ∧ (Gives (.finish p false b) s fun u => u.reply.code = 1#32 ∧ (u.spdm p).handshake = none
                ∧ (u.spdm p).sessions = (s.spdm p).sessions))
        ∧ (∀ h rest, (s.spdm p).sessions = h :: rest →
            (Gives (.heartbeat p) s fun u => u.reply.code = 0#32 ∧ u.spdm p = s.spdm p)
            ∧ (Gives (.keyUpdate p) s fun u => u.reply.code = 0#32
                ∧ (u.spdm p).sessions = { h with updates := h.updates + 1 } :: rest)
            ∧ ((∀ q, p ≠ .port q) → Gives (.endSession p) s fun u => u.reply.code = 0#32 ∧ (u.spdm p).sessions = rest
                ∧ ∀ d ∈ u.dict.sessions, ¬ (d.path = carrierPath p ∧ d.id = h.id))
            ∧ ∀ q, p = .port q → Gives (.endSession p) s fun u => u.reply.code = 0#32 ∧ (u.port q).linked = false)
        ∧ ((s.spdm p).sessions = [] → ∀ c ∈ [Instr.heartbeat p, .keyUpdate p, .endSession p],
            Gives c s fun u => u.reply.code = 1#32 ∧ u.spdm p = s.spdm p))
    ∧ (s.sealDone = true → Gives .sealedComplete s fun u => u.cxl.sealedBit = true ∧ u.cust.entering = false)

/-! ### Device registers -/

/-- R19: a register write that puts a nonzero value in a reserved field is discarded whole, which changes nothing but the count of
discarded writes. It holds of every device register of 8 B or 4 B, and of a 4 B write of a half of an 8 B register. -/
def Obligations.ReservedFieldWrite : Prop :=
  ∀ (s : State) (a b o : Nat) (v : W64), blockOf a = some (b, o) →
    let gone := { s with tele := { s.tele with discards := satInc64 s.tele.discards } }
    (∀ old, o % 8 = 0 → s.reg b o = some (8, old) → v.toNat &&& rsvMask b o ≠ 0 → exec (.registerWrite a true v) s = .next gone)
    ∧ (∀ old, o % 4 = 0 → s.reg b o = some (4, old) → (v.toNat % 2 ^ 32) &&& rsvMask b o ≠ 0 →
        exec (.registerWrite a false v) s = .next gone)
    ∧ (∀ old, o % 8 = 0 → s.reg b o = some (8, old) → old < 2 ^ 64 → (v.toNat % 2 ^ 32) &&& (rsvMask b o % 2 ^ 32) ≠ 0 →
        exec (.registerWrite a false v) s = .next gone)
    ∧ (∀ old, o % 8 = 4 → s.reg b o = none → s.reg b (o - 4) = some (8, old) → old < 2 ^ 64 →
        (v.toNat % 2 ^ 32) &&& (rsvMask b (o - 4) / 2 ^ 32) ≠ 0 → exec (.registerWrite a false v) s = .next gone)

/-- R18, R52: a write to the device registers. A nonzero write of a reserved offset is discarded and counted, and a zero write there
has no effect. A 4 B write of a half of an 8 B register keeps the other half; an 8 B write over two registers is two writes, the
lower first. -/
def Obligations.RegisterWrites : Prop :=
  ∀ (s : State) (a b o : Nat) (v : W64), blockOf a = some (b, o) →
    (o % 4 = 0 → s.reg b o = none → (o % 8 = 4 → ∀ w, s.reg b (o - 4) ≠ some (8, w)) →
        Gives (.registerWrite a false v) s fun u => u = if v.toNat % 2 ^ 32 = 0 then s else s.discard)
    ∧ (∀ old, o % 8 = 0 → s.reg b o = some (8, old) → old < 2 ^ 64 →
        exec (.registerWrite a false v) s = exec (.registerWrite a true (BitVec.ofNat 64 (v.toNat % 2 ^ 32 + old / 2 ^ 32 * 2 ^ 32))) s)
    ∧ (∀ old, o % 8 = 4 → s.reg b o = none → s.reg b (o - 4) = some (8, old) → old < 2 ^ 64 →
        exec (.registerWrite a false v) s
          = exec (.registerWrite (a - 4) true (BitVec.ofNat 64 (old % 2 ^ 32 + v.toNat % 2 ^ 32 * 2 ^ 32))) s)
    ∧ (o % 8 = 0 → (∀ w, s.reg b o ≠ some (8, w)) → ∃ t, exec (.registerWrite a false v) s = .next t
        ∧ exec (.registerWrite a true v) s = exec (.registerWrite (a + 4) false (v >>> 32)) t)

/-- R18, R52, R165, R329: the registers that stand for a command do it when written; registers that read back hold what was written;
the ring of update jobs starts with both indices 0 where it is enabled, and its base does not change while it is. -/
def Obligations.RegisterEffects : Prop :=
  ∀ (s : State) (v : W64) (w : W32),
    (∀ e ∈ ([(4, 0x400000, .qmodeWrite false v), (4, 0x400008, .qmodeWrite true v), (4, 0x500008, .ioinval v), (4, 0x500058, .faultResp v),
        (4, 0x600018, .cadSetC v), (5, 0x200018, .kettleRoll v)] : List (Nat × Nat × Instr)),
      v.toNat &&& rsvMask e.1 e.2.1 = 0 → Gives (.registerWrite (devAddr e.1 e.2.1) true v) s fun u => exec e.2.2 s = .next u)
    ∧ (∀ e ∈ ([(4, 0x500040, .unmapGo w), (4, 0x50006C, .tqConsWrite w), (4, 0x600020, .cadAdv w), (4, 0x600028, .cadCommit w),
        (4, 0x700A00, .hostMsgFree w), (6, 0x110040, .winCommit w)] : List (Nat × Nat × Instr)),
      w.toNat &&& rsvMask e.1 e.2.1 = 0 →
        Gives (.registerWrite (devAddr e.1 e.2.1) false (w.setWidth 64)) s fun u => exec e.2.2 s = .next u)
    ∧ (∀ e ∈ ([(4, 0x500010), (4, 0x500018), (4, 0x500028), (4, 0x500030), (4, 0x500038), (4, 0x600100), (6, 0x110000)] : List (Nat × Nat)),
      v.toNat &&& rsvMask e.1 e.2 = 0 → Gives (.registerWrite (devAddr e.1 e.2) true v) s fun u => u.regRead e.1 e.2 8 = v.toNat
        ∧ u.mem = s.mem ∧ u.tiles = s.tiles ∧ u.bells = s.bells)
    ∧ (4 ≤ bitsOf w.toNat 8 4 → bitsOf w.toNat 8 4 ≤ 10 → w.toNat &&& rsvMask 4 0x600090 = 0 → s.net.cad.uq.en = false →
        bitsOf w.toNat 0 1 = 1 → Gives (.registerWrite (devAddr 4 0x600090) false (w.setWidth 64)) s fun u =>
          u.net.cad.uq = { s.net.cad.uq with log2 := bitsOf w.toNat 8 4, en := true, head := 0, tail := 0 })
    ∧ (s.net.cad.uq.en = true → v.toNat &&& rsvMask 4 0x600080 = 0 →
        Gives (.registerWrite (devAddr 4 0x600080) true v) s fun u => u = s.discard)

/-- R51, R52: a core's access to a device register. A naturally aligned one of 4 B or 8 B reads the register, or writes it as
REGISTER_WRITE does; any other, and one to a reserved block, raises the access fault and has no effect. -/
def Obligations.CoreRegisterAccess : Prop :=
  ∀ (c : CoreId) (a : Nat) (hint : Bool) (vs : List Victim) (s : State), (s.core c).state = 1 → regionOf a = .device →
    (∀ n b o, (n = 4 ∨ n = 8) → a % n = 0 → blockOf a = some (b, o) → ¬ (b < 6 ∧ (o = 8 ∨ o = 12)) →
      Gives (.coreLoad c a n false hint vs) s fun u => u.reply = ⟨0#32, bytesOfNat n (s.regRead b o n)⟩ ∧ (u.core c).trap = none)
    ∧ (∀ n fetch, n ≠ 0 → (fetch = true ∨ ¬ (n = 4 ∨ n = 8) ∨ a % n ≠ 0 ∨ blockOf a = none) → Gives (.coreLoad c a n fetch hint vs) s fun u =>
        u = s.setCore c { s.core c with trap := some (if fetch then .fetchFault else .loadFault) })
    ∧ (∀ bs b o, (bs.length = 4 ∨ bs.length = 8) → a % bs.length = 0 → blockOf a = some (b, o) → 4 ≤ b →
        exec (.coreStore c a bs hint vs) s = exec (.registerWrite a (bs.length = 8) (BitVec.ofNat 64 (natOfBytes bs)))
          (s.setCore c { s.core c with trap := none }))
    ∧ (∀ bs, bs ≠ [] → (¬ (bs.length = 4 ∨ bs.length = 8) ∨ a % bs.length ≠ 0 ∨ blockOf a = none) → Gives (.coreStore c a bs hint vs) s fun u =>
        u = s.setCore c { s.core c with trap := some .storeFault })
end

