-- ==== Sys2Proof/Laws/Touch.lean ====
section
/-! SUPPORT. The words of the frame lemmas: `Touch.t<letters> t s` says that `t` and `s` agree in every component of the state but
those of its letters (T tiles, B bells, K kern, M mem, H cache, C cores, X xlat, Q tocsin, G mig, W win, E tele, N net, L cxl,
U cust, P kettle, D dict, I window, J coarse, S svc, R reply, F fresh, Z pending); and what folds and choices keep. -/

namespace Sys2Proof.Machine

abbrev Touch.tB (t s : State) : Prop :=
  t.tiles = s.tiles ∧ t.kern = s.kern ∧ t.mem = s.mem ∧ t.cache = s.cache ∧ t.cores = s.cores ∧ t.xlat = s.xlat ∧ t.tocsin = s.tocsin ∧ t.mig = s.mig ∧ t.win = s.win ∧ t.tele = s.tele ∧ t.net = s.net ∧ t.cxl = s.cxl ∧ t.cust = s.cust ∧ t.kettle = s.kettle ∧ t.dict = s.dict ∧ t.window = s.window ∧ t.coarse = s.coarse ∧ t.svc = s.svc ∧ t.reply = s.reply ∧ t.fresh = s.fresh ∧ t.pending = s.pending
abbrev Touch.tBE (t s : State) : Prop :=
  t.tiles = s.tiles ∧ t.kern = s.kern ∧ t.mem = s.mem ∧ t.cache = s.cache ∧ t.cores = s.cores ∧ t.xlat = s.xlat ∧ t.tocsin = s.tocsin ∧ t.mig = s.mig ∧ t.win = s.win ∧ t.net = s.net ∧ t.cxl = s.cxl ∧ t.cust = s.cust ∧ t.kettle = s.kettle ∧ t.dict = s.dict ∧ t.window = s.window ∧ t.coarse = s.coarse ∧ t.svc = s.svc ∧ t.reply = s.reply ∧ t.fresh = s.fresh ∧ t.pending = s.pending
abbrev Touch.tBKMX (t s : State) : Prop :=
  t.tiles = s.tiles ∧ t.cache = s.cache ∧ t.cores = s.cores ∧ t.tocsin = s.tocsin ∧ t.mig = s.mig ∧ t.win = s.win ∧ t.tele = s.tele ∧ t.net = s.net ∧ t.cxl = s.cxl ∧ t.cust = s.cust ∧ t.kettle = s.kettle ∧ t.dict = s.dict ∧ t.window = s.window ∧ t.coarse = s.coarse ∧ t.svc = s.svc ∧ t.reply = s.reply ∧ t.fresh = s.fresh ∧ t.pending = s.pending
abbrev Touch.tBKQELF (t s : State) : Prop :=
  t.tiles = s.tiles ∧ t.mem = s.mem ∧ t.cache = s.cache ∧ t.cores = s.cores ∧ t.xlat = s.xlat ∧ t.mig = s.mig ∧ t.win = s.win ∧ t.net = s.net ∧ t.cust = s.cust ∧ t.kettle = s.kettle ∧ t.dict = s.dict ∧ t.window = s.window ∧ t.coarse = s.coarse ∧ t.svc = s.svc ∧ t.reply = s.reply ∧ t.pending = s.pending
abbrev Touch.tBQEF (t s : State) : Prop :=
  t.tiles = s.tiles ∧ t.kern = s.kern ∧ t.mem = s.mem ∧ t.cache = s.cache ∧ t.cores = s.cores ∧ t.xlat = s.xlat ∧ t.mig = s.mig ∧ t.win = s.win ∧ t.net = s.net ∧ t.cxl = s.cxl ∧ t.cust = s.cust ∧ t.kettle = s.kettle ∧ t.dict = s.dict ∧ t.window = s.window ∧ t.coarse = s.coarse ∧ t.svc = s.svc ∧ t.reply = s.reply ∧ t.pending = s.pending
abbrev Touch.tBQF (t s : State) : Prop :=
  t.tiles = s.tiles ∧ t.kern = s.kern ∧ t.mem = s.mem ∧ t.cache = s.cache ∧ t.cores = s.cores ∧ t.xlat = s.xlat ∧ t.mig = s.mig ∧ t.win = s.win ∧ t.tele = s.tele ∧ t.net = s.net ∧ t.cxl = s.cxl ∧ t.cust = s.cust ∧ t.kettle = s.kettle ∧ t.dict = s.dict ∧ t.window = s.window ∧ t.coarse = s.coarse ∧ t.svc = s.svc ∧ t.reply = s.reply ∧ t.pending = s.pending
abbrev Touch.tC (t s : State) : Prop :=
  t.tiles = s.tiles ∧ t.bells = s.bells ∧ t.kern = s.kern ∧ t.mem = s.mem ∧ t.cache = s.cache ∧ t.xlat = s.xlat ∧ t.tocsin = s.tocsin ∧ t.mig = s.mig ∧ t.win = s.win ∧ t.tele = s.tele ∧ t.net = s.net ∧ t.cxl = s.cxl ∧ t.cust = s.cust ∧ t.kettle = s.kettle ∧ t.dict = s.dict ∧ t.window = s.window ∧ t.coarse = s.coarse ∧ t.svc = s.svc ∧ t.reply = s.reply ∧ t.fresh = s.fresh ∧ t.pending = s.pending
abbrev Touch.tCE (t s : State) : Prop :=
  t.tiles = s.tiles ∧ t.bells = s.bells ∧ t.kern = s.kern ∧ t.mem = s.mem ∧ t.cache = s.cache ∧ t.xlat = s.xlat ∧ t.tocsin = s.tocsin ∧ t.mig = s.mig ∧ t.win = s.win ∧ t.net = s.net ∧ t.cxl = s.cxl ∧ t.cust = s.cust ∧ t.kettle = s.kettle ∧ t.dict = s.dict ∧ t.window = s.window ∧ t.coarse = s.coarse ∧ t.svc = s.svc ∧ t.reply = s.reply ∧ t.fresh = s.fresh ∧ t.pending = s.pending
abbrev Touch.tCEN (t s : State) : Prop :=
  t.tiles = s.tiles ∧ t.bells = s.bells ∧ t.kern = s.kern ∧ t.mem = s.mem ∧ t.cache = s.cache ∧ t.xlat = s.xlat ∧ t.tocsin = s.tocsin ∧ t.mig = s.mig ∧ t.win = s.win ∧ t.cxl = s.cxl ∧ t.cust = s.cust ∧ t.kettle = s.kettle ∧ t.dict = s.dict ∧ t.window = s.window ∧ t.coarse = s.coarse ∧ t.svc = s.svc ∧ t.reply = s.reply ∧ t.fresh = s.fresh ∧ t.pending = s.pending
abbrev Touch.tCL (t s : State) : Prop :=
  t.tiles = s.tiles ∧ t.bells = s.bells ∧ t.kern = s.kern ∧ t.mem = s.mem ∧ t.cache = s.cache ∧ t.xlat = s.xlat ∧ t.tocsin = s.tocsin ∧ t.mig = s.mig ∧ t.win = s.win ∧ t.tele = s.tele ∧ t.net = s.net ∧ t.cust = s.cust ∧ t.kettle = s.kettle ∧ t.dict = s.dict ∧ t.window = s.window ∧ t.coarse = s.coarse ∧ t.svc = s.svc ∧ t.reply = s.reply ∧ t.fresh = s.fresh ∧ t.pending = s.pending
abbrev Touch.tCQ (t s : State) : Prop :=
  t.tiles = s.tiles ∧ t.bells = s.bells ∧ t.kern = s.kern ∧ t.mem = s.mem ∧ t.cache = s.cache ∧ t.xlat = s.xlat ∧ t.mig = s.mig ∧ t.win = s.win ∧ t.tele = s.tele ∧ t.net = s.net ∧ t.cxl = s.cxl ∧ t.cust = s.cust ∧ t.kettle = s.kettle ∧ t.dict = s.dict ∧ t.window = s.window ∧ t.coarse = s.coarse ∧ t.svc = s.svc ∧ t.reply = s.reply ∧ t.fresh = s.fresh ∧ t.pending = s.pending
abbrev Touch.tCQELDRF (t s : State) : Prop :=
  t.tiles = s.tiles ∧ t.bells = s.bells ∧ t.kern = s.kern ∧ t.mem = s.mem ∧ t.cache = s.cache ∧ t.xlat = s.xlat ∧ t.mig = s.mig ∧ t.win = s.win ∧ t.net = s.net ∧ t.cust = s.cust ∧ t.kettle = s.kettle ∧ t.window = s.window ∧ t.coarse = s.coarse ∧ t.svc = s.svc ∧ t.pending = s.pending
abbrev Touch.tCQF (t s : State) : Prop :=
  t.tiles = s.tiles ∧ t.bells = s.bells ∧ t.kern = s.kern ∧ t.mem = s.mem ∧ t.cache = s.cache ∧ t.xlat = s.xlat ∧ t.mig = s.mig ∧ t.win = s.win ∧ t.tele = s.tele ∧ t.net = s.net ∧ t.cxl = s.cxl ∧ t.cust = s.cust ∧ t.kettle = s.kettle ∧ t.dict = s.dict ∧ t.window = s.window ∧ t.coarse = s.coarse ∧ t.svc = s.svc ∧ t.reply = s.reply ∧ t.pending = s.pending
abbrev Touch.tCQLDRF (t s : State) : Prop :=
  t.tiles = s.tiles ∧ t.bells = s.bells ∧ t.kern = s.kern ∧ t.mem = s.mem ∧ t.cache = s.cache ∧ t.xlat = s.xlat ∧ t.mig = s.mig ∧ t.win = s.win ∧ t.tele = s.tele ∧ t.net = s.net ∧ t.cust = s.cust ∧ t.kettle = s.kettle ∧ t.window = s.window ∧ t.coarse = s.coarse ∧ t.svc = s.svc ∧ t.pending = s.pending
abbrev Touch.tCQLRF (t s : State) : Prop :=
  t.tiles = s.tiles ∧ t.bells = s.bells ∧ t.kern = s.kern ∧ t.mem = s.mem ∧ t.cache = s.cache ∧ t.xlat = s.xlat ∧ t.mig = s.mig ∧ t.win = s.win ∧ t.tele = s.tele ∧ t.net = s.net ∧ t.cust = s.cust ∧ t.kettle = s.kettle ∧ t.dict = s.dict ∧ t.window = s.window ∧ t.coarse = s.coarse ∧ t.svc = s.svc ∧ t.pending = s.pending
abbrev Touch.tCR (t s : State) : Prop :=
  t.tiles = s.tiles ∧ t.bells = s.bells ∧ t.kern = s.kern ∧ t.mem = s.mem ∧ t.cache = s.cache ∧ t.xlat = s.xlat ∧ t.tocsin = s.tocsin ∧ t.mig = s.mig ∧ t.win = s.win ∧ t.tele = s.tele ∧ t.net = s.net ∧ t.cxl = s.cxl ∧ t.cust = s.cust ∧ t.kettle = s.kettle ∧ t.dict = s.dict ∧ t.window = s.window ∧ t.coarse = s.coarse ∧ t.svc = s.svc ∧ t.fresh = s.fresh ∧ t.pending = s.pending
abbrev Touch.tCX (t s : State) : Prop :=
  t.tiles = s.tiles ∧ t.bells = s.bells ∧ t.kern = s.kern ∧ t.mem = s.mem ∧ t.cache = s.cache ∧ t.tocsin = s.tocsin ∧ t.mig = s.mig ∧ t.win = s.win ∧ t.tele = s.tele ∧ t.net = s.net ∧ t.cxl = s.cxl ∧ t.cust = s.cust ∧ t.kettle = s.kettle ∧ t.dict = s.dict ∧ t.window = s.window ∧ t.coarse = s.coarse ∧ t.svc = s.svc ∧ t.reply = s.reply ∧ t.fresh = s.fresh ∧ t.pending = s.pending
abbrev Touch.tD (t s : State) : Prop :=
  t.tiles = s.tiles ∧ t.bells = s.bells ∧ t.kern = s.kern ∧ t.mem = s.mem ∧ t.cache = s.cache ∧ t.cores = s.cores ∧ t.xlat = s.xlat ∧ t.tocsin = s.tocsin ∧ t.mig = s.mig ∧ t.win = s.win ∧ t.tele = s.tele ∧ t.net = s.net ∧ t.cxl = s.cxl ∧ t.cust = s.cust ∧ t.kettle = s.kettle ∧ t.window = s.window ∧ t.coarse = s.coarse ∧ t.svc = s.svc ∧ t.reply = s.reply ∧ t.fresh = s.fresh ∧ t.pending = s.pending
abbrev Touch.tE (t s : State) : Prop :=
  t.tiles = s.tiles ∧ t.bells = s.bells ∧ t.kern = s.kern ∧ t.mem = s.mem ∧ t.cache = s.cache ∧ t.cores = s.cores ∧ t.xlat = s.xlat ∧ t.tocsin = s.tocsin ∧ t.mig = s.mig ∧ t.win = s.win ∧ t.net = s.net ∧ t.cxl = s.cxl ∧ t.cust = s.cust ∧ t.kettle = s.kettle ∧ t.dict = s.dict ∧ t.window = s.window ∧ t.coarse = s.coarse ∧ t.svc = s.svc ∧ t.reply = s.reply ∧ t.fresh = s.fresh ∧ t.pending = s.pending
abbrev Touch.tED (t s : State) : Prop :=
  t.tiles = s.tiles ∧ t.bells = s.bells ∧ t.kern = s.kern ∧ t.mem = s.mem ∧ t.cache = s.cache ∧ t.cores = s.cores ∧ t.xlat = s.xlat ∧ t.tocsin = s.tocsin ∧ t.mig = s.mig ∧ t.win = s.win ∧ t.net = s.net ∧ t.cxl = s.cxl ∧ t.cust = s.cust ∧ t.kettle = s.kettle ∧ t.window = s.window ∧ t.coarse = s.coarse ∧ t.svc = s.svc ∧ t.reply = s.reply ∧ t.fresh = s.fresh ∧ t.pending = s.pending
abbrev Touch.tEDF (t s : State) : Prop :=
  t.tiles = s.tiles ∧ t.bells = s.bells ∧ t.kern = s.kern ∧ t.mem = s.mem ∧ t.cache = s.cache ∧ t.cores = s.cores ∧ t.xlat = s.xlat ∧ t.tocsin = s.tocsin ∧ t.mig = s.mig ∧ t.win = s.win ∧ t.net = s.net ∧ t.cxl = s.cxl ∧ t.cust = s.cust ∧ t.kettle = s.kettle ∧ t.window = s.window ∧ t.coarse = s.coarse ∧ t.svc = s.svc ∧ t.reply = s.reply ∧ t.pending = s.pending
abbrev Touch.tEL (t s : State) : Prop :=
  t.tiles = s.tiles ∧ t.bells = s.bells ∧ t.kern = s.kern ∧ t.mem = s.mem ∧ t.cache = s.cache ∧ t.cores = s.cores ∧ t.xlat = s.xlat ∧ t.tocsin = s.tocsin ∧ t.mig = s.mig ∧ t.win = s.win ∧ t.net = s.net ∧ t.cust = s.cust ∧ t.kettle = s.kettle ∧ t.dict = s.dict ∧ t.window = s.window ∧ t.coarse = s.coarse ∧ t.svc = s.svc ∧ t.reply = s.reply ∧ t.fresh = s.fresh ∧ t.pending = s.pending
abbrev Touch.tEN (t s : State) : Prop :=
  t.tiles = s.tiles ∧ t.bells = s.bells ∧ t.kern = s.kern ∧ t.mem = s.mem ∧ t.cache = s.cache ∧ t.cores = s.cores ∧ t.xlat = s.xlat ∧ t.tocsin = s.tocsin ∧ t.mig = s.mig ∧ t.win = s.win ∧ t.cxl = s.cxl ∧ t.cust = s.cust ∧ t.kettle = s.kettle ∧ t.dict = s.dict ∧ t.window = s.window ∧ t.coarse = s.coarse ∧ t.svc = s.svc ∧ t.reply = s.reply ∧ t.fresh = s.fresh ∧ t.pending = s.pending
abbrev Touch.tENPDS (t s : State) : Prop :=
  t.tiles = s.tiles ∧ t.bells = s.bells ∧ t.kern = s.kern ∧ t.mem = s.mem ∧ t.cache = s.cache ∧ t.cores = s.cores ∧ t.xlat = s.xlat ∧ t.tocsin = s.tocsin ∧ t.mig = s.mig ∧ t.win = s.win ∧ t.cxl = s.cxl ∧ t.cust = s.cust ∧ t.window = s.window ∧ t.coarse = s.coarse ∧ t.reply = s.reply ∧ t.fresh = s.fresh ∧ t.pending = s.pending
abbrev Touch.tEP (t s : State) : Prop :=
  t.tiles = s.tiles ∧ t.bells = s.bells ∧ t.kern = s.kern ∧ t.mem = s.mem ∧ t.cache = s.cache ∧ t.cores = s.cores ∧ t.xlat = s.xlat ∧ t.tocsin = s.tocsin ∧ t.mig = s.mig ∧ t.win = s.win ∧ t.net = s.net ∧ t.cxl = s.cxl ∧ t.cust = s.cust ∧ t.dict = s.dict ∧ t.window = s.window ∧ t.coarse = s.coarse ∧ t.svc = s.svc ∧ t.reply = s.reply ∧ t.fresh = s.fresh ∧ t.pending = s.pending
abbrev Touch.tF (t s : State) : Prop :=
  t.tiles = s.tiles ∧ t.bells = s.bells ∧ t.kern = s.kern ∧ t.mem = s.mem ∧ t.cache = s.cache ∧ t.cores = s.cores ∧ t.xlat = s.xlat ∧ t.tocsin = s.tocsin ∧ t.mig = s.mig ∧ t.win = s.win ∧ t.tele = s.tele ∧ t.net = s.net ∧ t.cxl = s.cxl ∧ t.cust = s.cust ∧ t.kettle = s.kettle ∧ t.dict = s.dict ∧ t.window = s.window ∧ t.coarse = s.coarse ∧ t.svc = s.svc ∧ t.reply = s.reply ∧ t.pending = s.pending
abbrev Touch.tG (t s : State) : Prop :=
  t.tiles = s.tiles ∧ t.bells = s.bells ∧ t.kern = s.kern ∧ t.mem = s.mem ∧ t.cache = s.cache ∧ t.cores = s.cores ∧ t.xlat = s.xlat ∧ t.tocsin = s.tocsin ∧ t.win = s.win ∧ t.tele = s.tele ∧ t.net = s.net ∧ t.cxl = s.cxl ∧ t.cust = s.cust ∧ t.kettle = s.kettle ∧ t.dict = s.dict ∧ t.window = s.window ∧ t.coarse = s.coarse ∧ t.svc = s.svc ∧ t.reply = s.reply ∧ t.fresh = s.fresh ∧ t.pending = s.pending
abbrev Touch.tH (t s : State) : Prop :=
  t.tiles = s.tiles ∧ t.bells = s.bells ∧ t.kern = s.kern ∧ t.mem = s.mem ∧ t.cores = s.cores ∧ t.xlat = s.xlat ∧ t.tocsin = s.tocsin ∧ t.mig = s.mig ∧ t.win = s.win ∧ t.tele = s.tele ∧ t.net = s.net ∧ t.cxl = s.cxl ∧ t.cust = s.cust ∧ t.kettle = s.kettle ∧ t.dict = s.dict ∧ t.window = s.window ∧ t.coarse = s.coarse ∧ t.svc = s.svc ∧ t.reply = s.reply ∧ t.fresh = s.fresh ∧ t.pending = s.pending
abbrev Touch.tHE (t s : State) : Prop :=
  t.tiles = s.tiles ∧ t.bells = s.bells ∧ t.kern = s.kern ∧ t.mem = s.mem ∧ t.cores = s.cores ∧ t.xlat = s.xlat ∧ t.tocsin = s.tocsin ∧ t.mig = s.mig ∧ t.win = s.win ∧ t.net = s.net ∧ t.cxl = s.cxl ∧ t.cust = s.cust ∧ t.kettle = s.kettle ∧ t.dict = s.dict ∧ t.window = s.window ∧ t.coarse = s.coarse ∧ t.svc = s.svc ∧ t.reply = s.reply ∧ t.fresh = s.fresh ∧ t.pending = s.pending
abbrev Touch.tI (t s : State) : Prop :=
  t.tiles = s.tiles ∧ t.bells = s.bells ∧ t.kern = s.kern ∧ t.mem = s.mem ∧ t.cache = s.cache ∧ t.cores = s.cores ∧ t.xlat = s.xlat ∧ t.tocsin = s.tocsin ∧ t.mig = s.mig ∧ t.win = s.win ∧ t.tele = s.tele ∧ t.net = s.net ∧ t.cxl = s.cxl ∧ t.cust = s.cust ∧ t.kettle = s.kettle ∧ t.dict = s.dict ∧ t.coarse = s.coarse ∧ t.svc = s.svc ∧ t.reply = s.reply ∧ t.fresh = s.fresh ∧ t.pending = s.pending
abbrev Touch.tIJ (t s : State) : Prop :=
  t.tiles = s.tiles ∧ t.bells = s.bells ∧ t.kern = s.kern ∧ t.mem = s.mem ∧ t.cache = s.cache ∧ t.cores = s.cores ∧ t.xlat = s.xlat ∧ t.tocsin = s.tocsin ∧ t.mig = s.mig ∧ t.win = s.win ∧ t.tele = s.tele ∧ t.net = s.net ∧ t.cxl = s.cxl ∧ t.cust = s.cust ∧ t.kettle = s.kettle ∧ t.dict = s.dict ∧ t.svc = s.svc ∧ t.reply = s.reply ∧ t.fresh = s.fresh ∧ t.pending = s.pending
abbrev Touch.tK (t s : State) : Prop :=
  t.tiles = s.tiles ∧ t.bells = s.bells ∧ t.mem = s.mem ∧ t.cache = s.cache ∧ t.cores = s.cores ∧ t.xlat = s.xlat ∧ t.tocsin = s.tocsin ∧ t.mig = s.mig ∧ t.win = s.win ∧ t.tele = s.tele ∧ t.net = s.net ∧ t.cxl = s.cxl ∧ t.cust = s.cust ∧ t.kettle = s.kettle ∧ t.dict = s.dict ∧ t.window = s.window ∧ t.coarse = s.coarse ∧ t.svc = s.svc ∧ t.reply = s.reply ∧ t.fresh = s.fresh ∧ t.pending = s.pending
abbrev Touch.tKMCQGF (t s : State) : Prop :=
  t.tiles = s.tiles ∧ t.bells = s.bells ∧ t.cache = s.cache ∧ t.xlat = s.xlat ∧ t.win = s.win ∧ t.tele = s.tele ∧ t.net = s.net ∧ t.cxl = s.cxl ∧ t.cust = s.cust ∧ t.kettle = s.kettle ∧ t.dict = s.dict ∧ t.window = s.window ∧ t.coarse = s.coarse ∧ t.svc = s.svc ∧ t.reply = s.reply ∧ t.pending = s.pending
abbrev Touch.tKMQGEF (t s : State) : Prop :=
  t.tiles = s.tiles ∧ t.bells = s.bells ∧ t.cache = s.cache ∧ t.cores = s.cores ∧ t.xlat = s.xlat ∧ t.win = s.win ∧ t.net = s.net ∧ t.cxl = s.cxl ∧ t.cust = s.cust ∧ t.kettle = s.kettle ∧ t.dict = s.dict ∧ t.window = s.window ∧ t.coarse = s.coarse ∧ t.svc = s.svc ∧ t.reply = s.reply ∧ t.pending = s.pending
abbrev Touch.tKMQGLF (t s : State) : Prop :=
  t.tiles = s.tiles ∧ t.bells = s.bells ∧ t.cache = s.cache ∧ t.cores = s.cores ∧ t.xlat = s.xlat ∧ t.win = s.win ∧ t.tele = s.tele ∧ t.net = s.net ∧ t.cust = s.cust ∧ t.kettle = s.kettle ∧ t.dict = s.dict ∧ t.window = s.window ∧ t.coarse = s.coarse ∧ t.svc = s.svc ∧ t.reply = s.reply ∧ t.pending = s.pending
abbrev Touch.tKMXQGLF (t s : State) : Prop :=
  t.tiles = s.tiles ∧ t.bells = s.bells ∧ t.cache = s.cache ∧ t.cores = s.cores ∧ t.win = s.win ∧ t.tele = s.tele ∧ t.net = s.net ∧ t.cust = s.cust ∧ t.kettle = s.kettle ∧ t.dict = s.dict ∧ t.window = s.window ∧ t.coarse = s.coarse ∧ t.svc = s.svc ∧ t.reply = s.reply ∧ t.pending = s.pending
abbrev Touch.tKQELF (t s : State) : Prop :=
  t.tiles = s.tiles ∧ t.bells = s.bells ∧ t.mem = s.mem ∧ t.cache = s.cache ∧ t.cores = s.cores ∧ t.xlat = s.xlat ∧ t.mig = s.mig ∧ t.win = s.win ∧ t.net = s.net ∧ t.cust = s.cust ∧ t.kettle = s.kettle ∧ t.dict = s.dict ∧ t.window = s.window ∧ t.coarse = s.coarse ∧ t.svc = s.svc ∧ t.reply = s.reply ∧ t.pending = s.pending
abbrev Touch.tKQLF (t s : State) : Prop :=
  t.tiles = s.tiles ∧ t.bells = s.bells ∧ t.mem = s.mem ∧ t.cache = s.cache ∧ t.cores = s.cores ∧ t.xlat = s.xlat ∧ t.mig = s.mig ∧ t.win = s.win ∧ t.tele = s.tele ∧ t.net = s.net ∧ t.cust = s.cust ∧ t.kettle = s.kettle ∧ t.dict = s.dict ∧ t.window = s.window ∧ t.coarse = s.coarse ∧ t.svc = s.svc ∧ t.reply = s.reply ∧ t.pending = s.pending
abbrev Touch.tKQLPF (t s : State) : Prop :=
  t.tiles = s.tiles ∧ t.bells = s.bells ∧ t.mem = s.mem ∧ t.cache = s.cache ∧ t.cores = s.cores ∧ t.xlat = s.xlat ∧ t.mig = s.mig ∧ t.win = s.win ∧ t.tele = s.tele ∧ t.net = s.net ∧ t.cust = s.cust ∧ t.dict = s.dict ∧ t.window = s.window ∧ t.coarse = s.coarse ∧ t.svc = s.svc ∧ t.reply = s.reply ∧ t.pending = s.pending
abbrev Touch.tL (t s : State) : Prop :=
  t.tiles = s.tiles ∧ t.bells = s.bells ∧ t.kern = s.kern ∧ t.mem = s.mem ∧ t.cache = s.cache ∧ t.cores = s.cores ∧ t.xlat = s.xlat ∧ t.tocsin = s.tocsin ∧ t.mig = s.mig ∧ t.win = s.win ∧ t.tele = s.tele ∧ t.net = s.net ∧ t.cust = s.cust ∧ t.kettle = s.kettle ∧ t.dict = s.dict ∧ t.window = s.window ∧ t.coarse = s.coarse ∧ t.svc = s.svc ∧ t.reply = s.reply ∧ t.fresh = s.fresh ∧ t.pending = s.pending
abbrev Touch.tLR (t s : State) : Prop :=
  t.tiles = s.tiles ∧ t.bells = s.bells ∧ t.kern = s.kern ∧ t.mem = s.mem ∧ t.cache = s.cache ∧ t.cores = s.cores ∧ t.xlat = s.xlat ∧ t.tocsin = s.tocsin ∧ t.mig = s.mig ∧ t.win = s.win ∧ t.tele = s.tele ∧ t.net = s.net ∧ t.cust = s.cust ∧ t.kettle = s.kettle ∧ t.dict = s.dict ∧ t.window = s.window ∧ t.coarse = s.coarse ∧ t.svc = s.svc ∧ t.fresh = s.fresh ∧ t.pending = s.pending
abbrev Touch.tLU (t s : State) : Prop :=
  t.tiles = s.tiles ∧ t.bells = s.bells ∧ t.kern = s.kern ∧ t.mem = s.mem ∧ t.cache = s.cache ∧ t.cores = s.cores ∧ t.xlat = s.xlat ∧ t.tocsin = s.tocsin ∧ t.mig = s.mig ∧ t.win = s.win ∧ t.tele = s.tele ∧ t.net = s.net ∧ t.kettle = s.kettle ∧ t.dict = s.dict ∧ t.window = s.window ∧ t.coarse = s.coarse ∧ t.svc = s.svc ∧ t.reply = s.reply ∧ t.fresh = s.fresh ∧ t.pending = s.pending
abbrev Touch.tM (t s : State) : Prop :=
  t.tiles = s.tiles ∧ t.bells = s.bells ∧ t.kern = s.kern ∧ t.cache = s.cache ∧ t.cores = s.cores ∧ t.xlat = s.xlat ∧ t.tocsin = s.tocsin ∧ t.mig = s.mig ∧ t.win = s.win ∧ t.tele = s.tele ∧ t.net = s.net ∧ t.cxl = s.cxl ∧ t.cust = s.cust ∧ t.kettle = s.kettle ∧ t.dict = s.dict ∧ t.window = s.window ∧ t.coarse = s.coarse ∧ t.svc = s.svc ∧ t.reply = s.reply ∧ t.fresh = s.fresh ∧ t.pending = s.pending
abbrev Touch.tMCN (t s : State) : Prop :=
  t.tiles = s.tiles ∧ t.bells = s.bells ∧ t.kern = s.kern ∧ t.cache = s.cache ∧ t.xlat = s.xlat ∧ t.tocsin = s.tocsin ∧ t.mig = s.mig ∧ t.win = s.win ∧ t.tele = s.tele ∧ t.cxl = s.cxl ∧ t.cust = s.cust ∧ t.kettle = s.kettle ∧ t.dict = s.dict ∧ t.window = s.window ∧ t.coarse = s.coarse ∧ t.svc = s.svc ∧ t.reply = s.reply ∧ t.fresh = s.fresh ∧ t.pending = s.pending
abbrev Touch.tMCQGF (t s : State) : Prop :=
  t.tiles = s.tiles ∧ t.bells = s.bells ∧ t.kern = s.kern ∧ t.cache = s.cache ∧ t.xlat = s.xlat ∧ t.win = s.win ∧ t.tele = s.tele ∧ t.net = s.net ∧ t.cxl = s.cxl ∧ t.cust = s.cust ∧ t.kettle = s.kettle ∧ t.dict = s.dict ∧ t.window = s.window ∧ t.coarse = s.coarse ∧ t.svc = s.svc ∧ t.reply = s.reply ∧ t.pending = s.pending
abbrev Touch.tMCQGNF (t s : State) : Prop :=
  t.tiles = s.tiles ∧ t.bells = s.bells ∧ t.kern = s.kern ∧ t.cache = s.cache ∧ t.xlat = s.xlat ∧ t.win = s.win ∧ t.tele = s.tele ∧ t.cxl = s.cxl ∧ t.cust = s.cust ∧ t.kettle = s.kettle ∧ t.dict = s.dict ∧ t.window = s.window ∧ t.coarse = s.coarse ∧ t.svc = s.svc ∧ t.reply = s.reply ∧ t.pending = s.pending
abbrev Touch.tMCXQGNLF (t s : State) : Prop :=
  t.tiles = s.tiles ∧ t.bells = s.bells ∧ t.kern = s.kern ∧ t.cache = s.cache ∧ t.win = s.win ∧ t.tele = s.tele ∧ t.cust = s.cust ∧ t.kettle = s.kettle ∧ t.dict = s.dict ∧ t.window = s.window ∧ t.coarse = s.coarse ∧ t.svc = s.svc ∧ t.reply = s.reply ∧ t.pending = s.pending
abbrev Touch.tME (t s : State) : Prop :=
  t.tiles = s.tiles ∧ t.bells = s.bells ∧ t.kern = s.kern ∧ t.cache = s.cache ∧ t.cores = s.cores ∧ t.xlat = s.xlat ∧ t.tocsin = s.tocsin ∧ t.mig = s.mig ∧ t.win = s.win ∧ t.net = s.net ∧ t.cxl = s.cxl ∧ t.cust = s.cust ∧ t.kettle = s.kettle ∧ t.dict = s.dict ∧ t.window = s.window ∧ t.coarse = s.coarse ∧ t.svc = s.svc ∧ t.reply = s.reply ∧ t.fresh = s.fresh ∧ t.pending = s.pending
abbrev Touch.tMEF (t s : State) : Prop :=
  t.tiles = s.tiles ∧ t.bells = s.bells ∧ t.kern = s.kern ∧ t.cache = s.cache ∧ t.cores = s.cores ∧ t.xlat = s.xlat ∧ t.tocsin = s.tocsin ∧ t.mig = s.mig ∧ t.win = s.win ∧ t.net = s.net ∧ t.cxl = s.cxl ∧ t.cust = s.cust ∧ t.kettle = s.kettle ∧ t.dict = s.dict ∧ t.window = s.window ∧ t.coarse = s.coarse ∧ t.svc = s.svc ∧ t.reply = s.reply ∧ t.pending = s.pending
abbrev Touch.tMF (t s : State) : Prop :=
  t.tiles = s.tiles ∧ t.bells = s.bells ∧ t.kern = s.kern ∧ t.cache = s.cache ∧ t.cores = s.cores ∧ t.xlat = s.xlat ∧ t.tocsin = s.tocsin ∧ t.mig = s.mig ∧ t.win = s.win ∧ t.tele = s.tele ∧ t.net = s.net ∧ t.cxl = s.cxl ∧ t.cust = s.cust ∧ t.kettle = s.kettle ∧ t.dict = s.dict ∧ t.window = s.window ∧ t.coarse = s.coarse ∧ t.svc = s.svc ∧ t.reply = s.reply ∧ t.pending = s.pending
abbrev Touch.tMHCQGEF (t s : State) : Prop :=
  t.tiles = s.tiles ∧ t.bells = s.bells ∧ t.kern = s.kern ∧ t.xlat = s.xlat ∧ t.win = s.win ∧ t.net = s.net ∧ t.cxl = s.cxl ∧ t.cust = s.cust ∧ t.kettle = s.kettle ∧ t.dict = s.dict ∧ t.window = s.window ∧ t.coarse = s.coarse ∧ t.svc = s.svc ∧ t.reply = s.reply ∧ t.pending = s.pending
abbrev Touch.tMHCQGERF (t s : State) : Prop :=
  t.tiles = s.tiles ∧ t.bells = s.bells ∧ t.kern = s.kern ∧ t.xlat = s.xlat ∧ t.win = s.win ∧ t.net = s.net ∧ t.cxl = s.cxl ∧ t.cust = s.cust ∧ t.kettle = s.kettle ∧ t.dict = s.dict ∧ t.window = s.window ∧ t.coarse = s.coarse ∧ t.svc = s.svc ∧ t.pending = s.pending
abbrev Touch.tMHCQGRF (t s : State) : Prop :=
  t.tiles = s.tiles ∧ t.bells = s.bells ∧ t.kern = s.kern ∧ t.xlat = s.xlat ∧ t.win = s.win ∧ t.tele = s.tele ∧ t.net = s.net ∧ t.cxl = s.cxl ∧ t.cust = s.cust ∧ t.kettle = s.kettle ∧ t.dict = s.dict ∧ t.window = s.window ∧ t.coarse = s.coarse ∧ t.svc = s.svc ∧ t.pending = s.pending
abbrev Touch.tMHQGEF (t s : State) : Prop :=
  t.tiles = s.tiles ∧ t.bells = s.bells ∧ t.kern = s.kern ∧ t.cores = s.cores ∧ t.xlat = s.xlat ∧ t.win = s.win ∧ t.net = s.net ∧ t.cxl = s.cxl ∧ t.cust = s.cust ∧ t.kettle = s.kettle ∧ t.dict = s.dict ∧ t.window = s.window ∧ t.coarse = s.coarse ∧ t.svc = s.svc ∧ t.reply = s.reply ∧ t.pending = s.pending
abbrev Touch.tMHQGERF (t s : State) : Prop :=
  t.tiles = s.tiles ∧ t.bells = s.bells ∧ t.kern = s.kern ∧ t.cores = s.cores ∧ t.xlat = s.xlat ∧ t.win = s.win ∧ t.net = s.net ∧ t.cxl = s.cxl ∧ t.cust = s.cust ∧ t.kettle = s.kettle ∧ t.dict = s.dict ∧ t.window = s.window ∧ t.coarse = s.coarse ∧ t.svc = s.svc ∧ t.pending = s.pending
abbrev Touch.tMHQGF (t s : State) : Prop :=
  t.tiles = s.tiles ∧ t.bells = s.bells ∧ t.kern = s.kern ∧ t.cores = s.cores ∧ t.xlat = s.xlat ∧ t.win = s.win ∧ t.tele = s.tele ∧ t.net = s.net ∧ t.cxl = s.cxl ∧ t.cust = s.cust ∧ t.kettle = s.kettle ∧ t.dict = s.dict ∧ t.window = s.window ∧ t.coarse = s.coarse ∧ t.svc = s.svc ∧ t.reply = s.reply ∧ t.pending = s.pending
abbrev Touch.tMQF (t s : State) : Prop :=
  t.tiles = s.tiles ∧ t.bells = s.bells ∧ t.kern = s.kern ∧ t.cache = s.cache ∧ t.cores = s.cores ∧ t.xlat = s.xlat ∧ t.mig = s.mig ∧ t.win = s.win ∧ t.tele = s.tele ∧ t.net = s.net ∧ t.cxl = s.cxl ∧ t.cust = s.cust ∧ t.kettle = s.kettle ∧ t.dict = s.dict ∧ t.window = s.window ∧ t.coarse = s.coarse ∧ t.svc = s.svc ∧ t.reply = s.reply ∧ t.pending = s.pending
abbrev Touch.tMQGEF (t s : State) : Prop :=
  t.tiles = s.tiles ∧ t.bells = s.bells ∧ t.kern = s.kern ∧ t.cache = s.cache ∧ t.cores = s.cores ∧ t.xlat = s.xlat ∧ t.win = s.win ∧ t.net = s.net ∧ t.cxl = s.cxl ∧ t.cust = s.cust ∧ t.kettle = s.kettle ∧ t.dict = s.dict ∧ t.window = s.window ∧ t.coarse = s.coarse ∧ t.svc = s.svc ∧ t.reply = s.reply ∧ t.pending = s.pending
abbrev Touch.tMQGF (t s : State) : Prop :=
  t.tiles = s.tiles ∧ t.bells = s.bells ∧ t.kern = s.kern ∧ t.cache = s.cache ∧ t.cores = s.cores ∧ t.xlat = s.xlat ∧ t.win = s.win ∧ t.tele = s.tele ∧ t.net = s.net ∧ t.cxl = s.cxl ∧ t.cust = s.cust ∧ t.kettle = s.kettle ∧ t.dict = s.dict ∧ t.window = s.window ∧ t.coarse = s.coarse ∧ t.svc = s.svc ∧ t.reply = s.reply ∧ t.pending = s.pending
abbrev Touch.tMQGLF (t s : State) : Prop :=
  t.tiles = s.tiles ∧ t.bells = s.bells ∧ t.kern = s.kern ∧ t.cache = s.cache ∧ t.cores = s.cores ∧ t.xlat = s.xlat ∧ t.win = s.win ∧ t.tele = s.tele ∧ t.net = s.net ∧ t.cust = s.cust ∧ t.kettle = s.kettle ∧ t.dict = s.dict ∧ t.window = s.window ∧ t.coarse = s.coarse ∧ t.svc = s.svc ∧ t.reply = s.reply ∧ t.pending = s.pending
abbrev Touch.tMQGLRF (t s : State) : Prop :=
  t.tiles = s.tiles ∧ t.bells = s.bells ∧ t.kern = s.kern ∧ t.cache = s.cache ∧ t.cores = s.cores ∧ t.xlat = s.xlat ∧ t.win = s.win ∧ t.tele = s.tele ∧ t.net = s.net ∧ t.cust = s.cust ∧ t.kettle = s.kettle ∧ t.dict = s.dict ∧ t.window = s.window ∧ t.coarse = s.coarse ∧ t.svc = s.svc ∧ t.pending = s.pending
abbrev Touch.tMQGNLF (t s : State) : Prop :=
  t.tiles = s.tiles ∧ t.bells = s.bells ∧ t.kern = s.kern ∧ t.cache = s.cache ∧ t.cores = s.cores ∧ t.xlat = s.xlat ∧ t.win = s.win ∧ t.tele = s.tele ∧ t.cust = s.cust ∧ t.kettle = s.kettle ∧ t.dict = s.dict ∧ t.window = s.window ∧ t.coarse = s.coarse ∧ t.svc = s.svc ∧ t.reply = s.reply ∧ t.pending = s.pending
abbrev Touch.tMQGRF (t s : State) : Prop :=
  t.tiles = s.tiles ∧ t.bells = s.bells ∧ t.kern = s.kern ∧ t.cache = s.cache ∧ t.cores = s.cores ∧ t.xlat = s.xlat ∧ t.win = s.win ∧ t.tele = s.tele ∧ t.net = s.net ∧ t.cxl = s.cxl ∧ t.cust = s.cust ∧ t.kettle = s.kettle ∧ t.dict = s.dict ∧ t.window = s.window ∧ t.coarse = s.coarse ∧ t.svc = s.svc ∧ t.pending = s.pending
abbrev Touch.tMXQGEF (t s : State) : Prop :=
  t.tiles = s.tiles ∧ t.bells = s.bells ∧ t.kern = s.kern ∧ t.cache = s.cache ∧ t.cores = s.cores ∧ t.win = s.win ∧ t.net = s.net ∧ t.cxl = s.cxl ∧ t.cust = s.cust ∧ t.kettle = s.kettle ∧ t.dict = s.dict ∧ t.window = s.window ∧ t.coarse = s.coarse ∧ t.svc = s.svc ∧ t.reply = s.reply ∧ t.pending = s.pending
abbrev Touch.tMXQGENF (t s : State) : Prop :=
  t.tiles = s.tiles ∧ t.bells = s.bells ∧ t.kern = s.kern ∧ t.cache = s.cache ∧ t.cores = s.cores ∧ t.win = s.win ∧ t.cxl = s.cxl ∧ t.cust = s.cust ∧ t.kettle = s.kettle ∧ t.dict = s.dict ∧ t.window = s.window ∧ t.coarse = s.coarse ∧ t.svc = s.svc ∧ t.reply = s.reply ∧ t.pending = s.pending
abbrev Touch.tMXQGF (t s : State) : Prop :=
  t.tiles = s.tiles ∧ t.bells = s.bells ∧ t.kern = s.kern ∧ t.cache = s.cache ∧ t.cores = s.cores ∧ t.win = s.win ∧ t.tele = s.tele ∧ t.net = s.net ∧ t.cxl = s.cxl ∧ t.cust = s.cust ∧ t.kettle = s.kettle ∧ t.dict = s.dict ∧ t.window = s.window ∧ t.coarse = s.coarse ∧ t.svc = s.svc ∧ t.reply = s.reply ∧ t.pending = s.pending
abbrev Touch.tMXQGNF (t s : State) : Prop :=
  t.tiles = s.tiles ∧ t.bells = s.bells ∧ t.kern = s.kern ∧ t.cache = s.cache ∧ t.cores = s.cores ∧ t.win = s.win ∧ t.tele = s.tele ∧ t.cxl = s.cxl ∧ t.cust = s.cust ∧ t.kettle = s.kettle ∧ t.dict = s.dict ∧ t.window = s.window ∧ t.coarse = s.coarse ∧ t.svc = s.svc ∧ t.reply = s.reply ∧ t.pending = s.pending
abbrev Touch.tN (t s : State) : Prop :=
  t.tiles = s.tiles ∧ t.bells = s.bells ∧ t.kern = s.kern ∧ t.mem = s.mem ∧ t.cache = s.cache ∧ t.cores = s.cores ∧ t.xlat = s.xlat ∧ t.tocsin = s.tocsin ∧ t.mig = s.mig ∧ t.win = s.win ∧ t.tele = s.tele ∧ t.cxl = s.cxl ∧ t.cust = s.cust ∧ t.kettle = s.kettle ∧ t.dict = s.dict ∧ t.window = s.window ∧ t.coarse = s.coarse ∧ t.svc = s.svc ∧ t.reply = s.reply ∧ t.fresh = s.fresh ∧ t.pending = s.pending
abbrev Touch.tNR (t s : State) : Prop :=
  t.tiles = s.tiles ∧ t.bells = s.bells ∧ t.kern = s.kern ∧ t.mem = s.mem ∧ t.cache = s.cache ∧ t.cores = s.cores ∧ t.xlat = s.xlat ∧ t.tocsin = s.tocsin ∧ t.mig = s.mig ∧ t.win = s.win ∧ t.tele = s.tele ∧ t.cxl = s.cxl ∧ t.cust = s.cust ∧ t.kettle = s.kettle ∧ t.dict = s.dict ∧ t.window = s.window ∧ t.coarse = s.coarse ∧ t.svc = s.svc ∧ t.fresh = s.fresh ∧ t.pending = s.pending
abbrev Touch.tNUR (t s : State) : Prop :=
  t.tiles = s.tiles ∧ t.bells = s.bells ∧ t.kern = s.kern ∧ t.mem = s.mem ∧ t.cache = s.cache ∧ t.cores = s.cores ∧ t.xlat = s.xlat ∧ t.tocsin = s.tocsin ∧ t.mig = s.mig ∧ t.win = s.win ∧ t.tele = s.tele ∧ t.cxl = s.cxl ∧ t.kettle = s.kettle ∧ t.dict = s.dict ∧ t.window = s.window ∧ t.coarse = s.coarse ∧ t.svc = s.svc ∧ t.fresh = s.fresh ∧ t.pending = s.pending
abbrev Touch.tP (t s : State) : Prop :=
  t.tiles = s.tiles ∧ t.bells = s.bells ∧ t.kern = s.kern ∧ t.mem = s.mem ∧ t.cache = s.cache ∧ t.cores = s.cores ∧ t.xlat = s.xlat ∧ t.tocsin = s.tocsin ∧ t.mig = s.mig ∧ t.win = s.win ∧ t.tele = s.tele ∧ t.net = s.net ∧ t.cxl = s.cxl ∧ t.cust = s.cust ∧ t.dict = s.dict ∧ t.window = s.window ∧ t.coarse = s.coarse ∧ t.svc = s.svc ∧ t.reply = s.reply ∧ t.fresh = s.fresh ∧ t.pending = s.pending
abbrev Touch.tPS (t s : State) : Prop :=
  t.tiles = s.tiles ∧ t.bells = s.bells ∧ t.kern = s.kern ∧ t.mem = s.mem ∧ t.cache = s.cache ∧ t.cores = s.cores ∧ t.xlat = s.xlat ∧ t.tocsin = s.tocsin ∧ t.mig = s.mig ∧ t.win = s.win ∧ t.tele = s.tele ∧ t.net = s.net ∧ t.cxl = s.cxl ∧ t.cust = s.cust ∧ t.dict = s.dict ∧ t.window = s.window ∧ t.coarse = s.coarse ∧ t.reply = s.reply ∧ t.fresh = s.fresh ∧ t.pending = s.pending
abbrev Touch.tQE (t s : State) : Prop :=
  t.tiles = s.tiles ∧ t.bells = s.bells ∧ t.kern = s.kern ∧ t.mem = s.mem ∧ t.cache = s.cache ∧ t.cores = s.cores ∧ t.xlat = s.xlat ∧ t.mig = s.mig ∧ t.win = s.win ∧ t.net = s.net ∧ t.cxl = s.cxl ∧ t.cust = s.cust ∧ t.kettle = s.kettle ∧ t.dict = s.dict ∧ t.window = s.window ∧ t.coarse = s.coarse ∧ t.svc = s.svc ∧ t.reply = s.reply ∧ t.fresh = s.fresh ∧ t.pending = s.pending
abbrev Touch.tQELF (t s : State) : Prop :=
  t.tiles = s.tiles ∧ t.bells = s.bells ∧ t.kern = s.kern ∧ t.mem = s.mem ∧ t.cache = s.cache ∧ t.cores = s.cores ∧ t.xlat = s.xlat ∧ t.mig = s.mig ∧ t.win = s.win ∧ t.net = s.net ∧ t.cust = s.cust ∧ t.kettle = s.kettle ∧ t.dict = s.dict ∧ t.window = s.window ∧ t.coarse = s.coarse ∧ t.svc = s.svc ∧ t.reply = s.reply ∧ t.pending = s.pending
abbrev Touch.tQF (t s : State) : Prop :=
  t.tiles = s.tiles ∧ t.bells = s.bells ∧ t.kern = s.kern ∧ t.mem = s.mem ∧ t.cache = s.cache ∧ t.cores = s.cores ∧ t.xlat = s.xlat ∧ t.mig = s.mig ∧ t.win = s.win ∧ t.tele = s.tele ∧ t.net = s.net ∧ t.cxl = s.cxl ∧ t.cust = s.cust ∧ t.kettle = s.kettle ∧ t.dict = s.dict ∧ t.window = s.window ∧ t.coarse = s.coarse ∧ t.svc = s.svc ∧ t.reply = s.reply ∧ t.pending = s.pending
abbrev Touch.tQGF (t s : State) : Prop :=
  t.tiles = s.tiles ∧ t.bells = s.bells ∧ t.kern = s.kern ∧ t.mem = s.mem ∧ t.cache = s.cache ∧ t.cores = s.cores ∧ t.xlat = s.xlat ∧ t.win = s.win ∧ t.tele = s.tele ∧ t.net = s.net ∧ t.cxl = s.cxl ∧ t.cust = s.cust ∧ t.kettle = s.kettle ∧ t.dict = s.dict ∧ t.window = s.window ∧ t.coarse = s.coarse ∧ t.svc = s.svc ∧ t.reply = s.reply ∧ t.pending = s.pending
abbrev Touch.tQLF (t s : State) : Prop :=
  t.tiles = s.tiles ∧ t.bells = s.bells ∧ t.kern = s.kern ∧ t.mem = s.mem ∧ t.cache = s.cache ∧ t.cores = s.cores ∧ t.xlat = s.xlat ∧ t.mig = s.mig ∧ t.win = s.win ∧ t.tele = s.tele ∧ t.net = s.net ∧ t.cust = s.cust ∧ t.kettle = s.kettle ∧ t.dict = s.dict ∧ t.window = s.window ∧ t.coarse = s.coarse ∧ t.svc = s.svc ∧ t.reply = s.reply ∧ t.pending = s.pending
abbrev Touch.tQLRF (t s : State) : Prop :=
  t.tiles = s.tiles ∧ t.bells = s.bells ∧ t.kern = s.kern ∧ t.mem = s.mem ∧ t.cache = s.cache ∧ t.cores = s.cores ∧ t.xlat = s.xlat ∧ t.mig = s.mig ∧ t.win = s.win ∧ t.tele = s.tele ∧ t.net = s.net ∧ t.cust = s.cust ∧ t.kettle = s.kettle ∧ t.dict = s.dict ∧ t.window = s.window ∧ t.coarse = s.coarse ∧ t.svc = s.svc ∧ t.pending = s.pending
abbrev Touch.tQNF (t s : State) : Prop :=
  t.tiles = s.tiles ∧ t.bells = s.bells ∧ t.kern = s.kern ∧ t.mem = s.mem ∧ t.cache = s.cache ∧ t.cores = s.cores ∧ t.xlat = s.xlat ∧ t.mig = s.mig ∧ t.win = s.win ∧ t.tele = s.tele ∧ t.cxl = s.cxl ∧ t.cust = s.cust ∧ t.kettle = s.kettle ∧ t.dict = s.dict ∧ t.window = s.window ∧ t.coarse = s.coarse ∧ t.svc = s.svc ∧ t.reply = s.reply ∧ t.pending = s.pending
abbrev Touch.tQNUF (t s : State) : Prop :=
  t.tiles = s.tiles ∧ t.bells = s.bells ∧ t.kern = s.kern ∧ t.mem = s.mem ∧ t.cache = s.cache ∧ t.cores = s.cores ∧ t.xlat = s.xlat ∧ t.mig = s.mig ∧ t.win = s.win ∧ t.tele = s.tele ∧ t.cxl = s.cxl ∧ t.kettle = s.kettle ∧ t.dict = s.dict ∧ t.window = s.window ∧ t.coarse = s.coarse ∧ t.svc = s.svc ∧ t.reply = s.reply ∧ t.pending = s.pending
abbrev Touch.tQPF (t s : State) : Prop :=
  t.tiles = s.tiles ∧ t.bells = s.bells ∧ t.kern = s.kern ∧ t.mem = s.mem ∧ t.cache = s.cache ∧ t.cores = s.cores ∧ t.xlat = s.xlat ∧ t.mig = s.mig ∧ t.win = s.win ∧ t.tele = s.tele ∧ t.net = s.net ∧ t.cxl = s.cxl ∧ t.cust = s.cust ∧ t.dict = s.dict ∧ t.window = s.window ∧ t.coarse = s.coarse ∧ t.svc = s.svc ∧ t.reply = s.reply ∧ t.pending = s.pending
abbrev Touch.tQSF (t s : State) : Prop :=
  t.tiles = s.tiles ∧ t.bells = s.bells ∧ t.kern = s.kern ∧ t.mem = s.mem ∧ t.cache = s.cache ∧ t.cores = s.cores ∧ t.xlat = s.xlat ∧ t.mig = s.mig ∧ t.win = s.win ∧ t.tele = s.tele ∧ t.net = s.net ∧ t.cxl = s.cxl ∧ t.cust = s.cust ∧ t.kettle = s.kettle ∧ t.dict = s.dict ∧ t.window = s.window ∧ t.coarse = s.coarse ∧ t.reply = s.reply ∧ t.pending = s.pending
abbrev Touch.tQUSF (t s : State) : Prop :=
  t.tiles = s.tiles ∧ t.bells = s.bells ∧ t.kern = s.kern ∧ t.mem = s.mem ∧ t.cache = s.cache ∧ t.cores = s.cores ∧ t.xlat = s.xlat ∧ t.mig = s.mig ∧ t.win = s.win ∧ t.tele = s.tele ∧ t.net = s.net ∧ t.cxl = s.cxl ∧ t.kettle = s.kettle ∧ t.dict = s.dict ∧ t.window = s.window ∧ t.coarse = s.coarse ∧ t.reply = s.reply ∧ t.pending = s.pending
abbrev Touch.tR (t s : State) : Prop :=
  t.tiles = s.tiles ∧ t.bells = s.bells ∧ t.kern = s.kern ∧ t.mem = s.mem ∧ t.cache = s.cache ∧ t.cores = s.cores ∧ t.xlat = s.xlat ∧ t.tocsin = s.tocsin ∧ t.mig = s.mig ∧ t.win = s.win ∧ t.tele = s.tele ∧ t.net = s.net ∧ t.cxl = s.cxl ∧ t.cust = s.cust ∧ t.kettle = s.kettle ∧ t.dict = s.dict ∧ t.window = s.window ∧ t.coarse = s.coarse ∧ t.svc = s.svc ∧ t.fresh = s.fresh ∧ t.pending = s.pending
abbrev Touch.tRF (t s : State) : Prop :=
  t.tiles = s.tiles ∧ t.bells = s.bells ∧ t.kern = s.kern ∧ t.mem = s.mem ∧ t.cache = s.cache ∧ t.cores = s.cores ∧ t.xlat = s.xlat ∧ t.tocsin = s.tocsin ∧ t.mig = s.mig ∧ t.win = s.win ∧ t.tele = s.tele ∧ t.net = s.net ∧ t.cxl = s.cxl ∧ t.cust = s.cust ∧ t.kettle = s.kettle ∧ t.dict = s.dict ∧ t.window = s.window ∧ t.coarse = s.coarse ∧ t.svc = s.svc ∧ t.pending = s.pending
abbrev Touch.tS (t s : State) : Prop :=
  t.tiles = s.tiles ∧ t.bells = s.bells ∧ t.kern = s.kern ∧ t.mem = s.mem ∧ t.cache = s.cache ∧ t.cores = s.cores ∧ t.xlat = s.xlat ∧ t.tocsin = s.tocsin ∧ t.mig = s.mig ∧ t.win = s.win ∧ t.tele = s.tele ∧ t.net = s.net ∧ t.cxl = s.cxl ∧ t.cust = s.cust ∧ t.kettle = s.kettle ∧ t.dict = s.dict ∧ t.window = s.window ∧ t.coarse = s.coarse ∧ t.reply = s.reply ∧ t.fresh = s.fresh ∧ t.pending = s.pending
abbrev Touch.tSR (t s : State) : Prop :=
  t.tiles = s.tiles ∧ t.bells = s.bells ∧ t.kern = s.kern ∧ t.mem = s.mem ∧ t.cache = s.cache ∧ t.cores = s.cores ∧ t.xlat = s.xlat ∧ t.tocsin = s.tocsin ∧ t.mig = s.mig ∧ t.win = s.win ∧ t.tele = s.tele ∧ t.net = s.net ∧ t.cxl = s.cxl ∧ t.cust = s.cust ∧ t.kettle = s.kettle ∧ t.dict = s.dict ∧ t.window = s.window ∧ t.coarse = s.coarse ∧ t.fresh = s.fresh ∧ t.pending = s.pending
abbrev Touch.tT (t s : State) : Prop :=
  t.bells = s.bells ∧ t.kern = s.kern ∧ t.mem = s.mem ∧ t.cache = s.cache ∧ t.cores = s.cores ∧ t.xlat = s.xlat ∧ t.tocsin = s.tocsin ∧ t.mig = s.mig ∧ t.win = s.win ∧ t.tele = s.tele ∧ t.net = s.net ∧ t.cxl = s.cxl ∧ t.cust = s.cust ∧ t.kettle = s.kettle ∧ t.dict = s.dict ∧ t.window = s.window ∧ t.coarse = s.coarse ∧ t.svc = s.svc ∧ t.reply = s.reply ∧ t.fresh = s.fresh ∧ t.pending = s.pending
abbrev Touch.tTBKMCXQGEF (t s : State) : Prop :=
  t.cache = s.cache ∧ t.win = s.win ∧ t.net = s.net ∧ t.cxl = s.cxl ∧ t.cust = s.cust ∧ t.kettle = s.kettle ∧ t.dict = s.dict ∧ t.window = s.window ∧ t.coarse = s.coarse ∧ t.svc = s.svc ∧ t.reply = s.reply ∧ t.pending = s.pending
abbrev Touch.tTBKMCXQGF (t s : State) : Prop :=
  t.cache = s.cache ∧ t.win = s.win ∧ t.tele = s.tele ∧ t.net = s.net ∧ t.cxl = s.cxl ∧ t.cust = s.cust ∧ t.kettle = s.kettle ∧ t.dict = s.dict ∧ t.window = s.window ∧ t.coarse = s.coarse ∧ t.svc = s.svc ∧ t.reply = s.reply ∧ t.pending = s.pending
abbrev Touch.tTBKMCXQGLF (t s : State) : Prop :=
  t.cache = s.cache ∧ t.win = s.win ∧ t.tele = s.tele ∧ t.net = s.net ∧ t.cust = s.cust ∧ t.kettle = s.kettle ∧ t.dict = s.dict ∧ t.window = s.window ∧ t.coarse = s.coarse ∧ t.svc = s.svc ∧ t.reply = s.reply ∧ t.pending = s.pending
abbrev Touch.tTBKMCXQGWENLUPDSF (t s : State) : Prop :=
  t.cache = s.cache ∧ t.window = s.window ∧ t.coarse = s.coarse ∧ t.reply = s.reply ∧ t.pending = s.pending
abbrev Touch.tTBKMHCXQGENUPDSF (t s : State) : Prop :=
  t.win = s.win ∧ t.cxl = s.cxl ∧ t.window = s.window ∧ t.coarse = s.coarse ∧ t.reply = s.reply ∧ t.pending = s.pending
abbrev Touch.tTBKMHCXQGWENLUPDIJS (t s : State) : Prop :=
  t.reply = s.reply ∧ t.fresh = s.fresh ∧ t.pending = s.pending
abbrev Touch.tTBKMHCXQGWENLUPDIJSRF (t s : State) : Prop :=
  t.pending = s.pending
abbrev Touch.tTBKMHCXQGWENLUPDSF (t s : State) : Prop :=
  t.window = s.window ∧ t.coarse = s.coarse ∧ t.reply = s.reply ∧ t.pending = s.pending
abbrev Touch.tTBKMHCXQGWNLPS (t s : State) : Prop :=
  t.tele = s.tele ∧ t.cust = s.cust ∧ t.dict = s.dict ∧ t.window = s.window ∧ t.coarse = s.coarse ∧ t.reply = s.reply ∧ t.fresh = s.fresh ∧ t.pending = s.pending
abbrev Touch.tTBKMXQGENUDF (t s : State) : Prop :=
  t.cache = s.cache ∧ t.cores = s.cores ∧ t.win = s.win ∧ t.cxl = s.cxl ∧ t.kettle = s.kettle ∧ t.window = s.window ∧ t.coarse = s.coarse ∧ t.svc = s.svc ∧ t.reply = s.reply ∧ t.pending = s.pending
abbrev Touch.tTBKMXQGENUDSF (t s : State) : Prop :=
  t.cache = s.cache ∧ t.cores = s.cores ∧ t.win = s.win ∧ t.cxl = s.cxl ∧ t.kettle = s.kettle ∧ t.window = s.window ∧ t.coarse = s.coarse ∧ t.reply = s.reply ∧ t.pending = s.pending
abbrev Touch.tTBKXQELF (t s : State) : Prop :=
  t.mem = s.mem ∧ t.cache = s.cache ∧ t.cores = s.cores ∧ t.mig = s.mig ∧ t.win = s.win ∧ t.net = s.net ∧ t.cust = s.cust ∧ t.kettle = s.kettle ∧ t.dict = s.dict ∧ t.window = s.window ∧ t.coarse = s.coarse ∧ t.svc = s.svc ∧ t.reply = s.reply ∧ t.pending = s.pending
abbrev Touch.tTBMCXQGEF (t s : State) : Prop :=
  t.kern = s.kern ∧ t.cache = s.cache ∧ t.win = s.win ∧ t.net = s.net ∧ t.cxl = s.cxl ∧ t.cust = s.cust ∧ t.kettle = s.kettle ∧ t.dict = s.dict ∧ t.window = s.window ∧ t.coarse = s.coarse ∧ t.svc = s.svc ∧ t.reply = s.reply ∧ t.pending = s.pending
abbrev Touch.tTBMCXQGENF (t s : State) : Prop :=
  t.kern = s.kern ∧ t.cache = s.cache ∧ t.win = s.win ∧ t.cxl = s.cxl ∧ t.cust = s.cust ∧ t.kettle = s.kettle ∧ t.dict = s.dict ∧ t.window = s.window ∧ t.coarse = s.coarse ∧ t.svc = s.svc ∧ t.reply = s.reply ∧ t.pending = s.pending
abbrev Touch.tTBMHCXQGENPF (t s : State) : Prop :=
  t.kern = s.kern ∧ t.win = s.win ∧ t.cxl = s.cxl ∧ t.cust = s.cust ∧ t.dict = s.dict ∧ t.window = s.window ∧ t.coarse = s.coarse ∧ t.svc = s.svc ∧ t.reply = s.reply ∧ t.pending = s.pending
abbrev Touch.tTBMHCXQGENPSF (t s : State) : Prop :=
  t.kern = s.kern ∧ t.win = s.win ∧ t.cxl = s.cxl ∧ t.cust = s.cust ∧ t.dict = s.dict ∧ t.window = s.window ∧ t.coarse = s.coarse ∧ t.reply = s.reply ∧ t.pending = s.pending
abbrev Touch.tTBMXQEF (t s : State) : Prop :=
  t.kern = s.kern ∧ t.cache = s.cache ∧ t.cores = s.cores ∧ t.mig = s.mig ∧ t.win = s.win ∧ t.net = s.net ∧ t.cxl = s.cxl ∧ t.cust = s.cust ∧ t.kettle = s.kettle ∧ t.dict = s.dict ∧ t.window = s.window ∧ t.coarse = s.coarse ∧ t.svc = s.svc ∧ t.reply = s.reply ∧ t.pending = s.pending
abbrev Touch.tTBMXQGEF (t s : State) : Prop :=
  t.kern = s.kern ∧ t.cache = s.cache ∧ t.cores = s.cores ∧ t.win = s.win ∧ t.net = s.net ∧ t.cxl = s.cxl ∧ t.cust = s.cust ∧ t.kettle = s.kettle ∧ t.dict = s.dict ∧ t.window = s.window ∧ t.coarse = s.coarse ∧ t.svc = s.svc ∧ t.reply = s.reply ∧ t.pending = s.pending
abbrev Touch.tTBMXQGENF (t s : State) : Prop :=
  t.kern = s.kern ∧ t.cache = s.cache ∧ t.cores = s.cores ∧ t.win = s.win ∧ t.cxl = s.cxl ∧ t.cust = s.cust ∧ t.kettle = s.kettle ∧ t.dict = s.dict ∧ t.window = s.window ∧ t.coarse = s.coarse ∧ t.svc = s.svc ∧ t.reply = s.reply ∧ t.pending = s.pending
abbrev Touch.tTBMXQGENUDF (t s : State) : Prop :=
  t.kern = s.kern ∧ t.cache = s.cache ∧ t.cores = s.cores ∧ t.win = s.win ∧ t.cxl = s.cxl ∧ t.kettle = s.kettle ∧ t.window = s.window ∧ t.coarse = s.coarse ∧ t.svc = s.svc ∧ t.reply = s.reply ∧ t.pending = s.pending
abbrev Touch.tTBMXQGENUDRF (t s : State) : Prop :=
  t.kern = s.kern ∧ t.cache = s.cache ∧ t.cores = s.cores ∧ t.win = s.win ∧ t.cxl = s.cxl ∧ t.kettle = s.kettle ∧ t.window = s.window ∧ t.coarse = s.coarse ∧ t.svc = s.svc ∧ t.pending = s.pending
abbrev Touch.tTBMXQGENUDSF (t s : State) : Prop :=
  t.kern = s.kern ∧ t.cache = s.cache ∧ t.cores = s.cores ∧ t.win = s.win ∧ t.cxl = s.cxl ∧ t.kettle = s.kettle ∧ t.window = s.window ∧ t.coarse = s.coarse ∧ t.reply = s.reply ∧ t.pending = s.pending
abbrev Touch.tTBMXQGWENUDF (t s : State) : Prop :=
  t.kern = s.kern ∧ t.cache = s.cache ∧ t.cores = s.cores ∧ t.cxl = s.cxl ∧ t.kettle = s.kettle ∧ t.window = s.window ∧ t.coarse = s.coarse ∧ t.svc = s.svc ∧ t.reply = s.reply ∧ t.pending = s.pending
abbrev Touch.tTBXQEF (t s : State) : Prop :=
  t.kern = s.kern ∧ t.mem = s.mem ∧ t.cache = s.cache ∧ t.cores = s.cores ∧ t.mig = s.mig ∧ t.win = s.win ∧ t.net = s.net ∧ t.cxl = s.cxl ∧ t.cust = s.cust ∧ t.kettle = s.kettle ∧ t.dict = s.dict ∧ t.window = s.window ∧ t.coarse = s.coarse ∧ t.svc = s.svc ∧ t.reply = s.reply ∧ t.pending = s.pending
abbrev Touch.tTBXQENF (t s : State) : Prop :=
  t.kern = s.kern ∧ t.mem = s.mem ∧ t.cache = s.cache ∧ t.cores = s.cores ∧ t.mig = s.mig ∧ t.win = s.win ∧ t.cxl = s.cxl ∧ t.cust = s.cust ∧ t.kettle = s.kettle ∧ t.dict = s.dict ∧ t.window = s.window ∧ t.coarse = s.coarse ∧ t.svc = s.svc ∧ t.reply = s.reply ∧ t.pending = s.pending
abbrev Touch.tTCQPF (t s : State) : Prop :=
  t.bells = s.bells ∧ t.kern = s.kern ∧ t.mem = s.mem ∧ t.cache = s.cache ∧ t.xlat = s.xlat ∧ t.mig = s.mig ∧ t.win = s.win ∧ t.tele = s.tele ∧ t.net = s.net ∧ t.cxl = s.cxl ∧ t.cust = s.cust ∧ t.dict = s.dict ∧ t.window = s.window ∧ t.coarse = s.coarse ∧ t.svc = s.svc ∧ t.reply = s.reply ∧ t.pending = s.pending
abbrev Touch.tTCQPSF (t s : State) : Prop :=
  t.bells = s.bells ∧ t.kern = s.kern ∧ t.mem = s.mem ∧ t.cache = s.cache ∧ t.xlat = s.xlat ∧ t.mig = s.mig ∧ t.win = s.win ∧ t.tele = s.tele ∧ t.net = s.net ∧ t.cxl = s.cxl ∧ t.cust = s.cust ∧ t.dict = s.dict ∧ t.window = s.window ∧ t.coarse = s.coarse ∧ t.reply = s.reply ∧ t.pending = s.pending
abbrev Touch.tTCXQEF (t s : State) : Prop :=
  t.bells = s.bells ∧ t.kern = s.kern ∧ t.mem = s.mem ∧ t.cache = s.cache ∧ t.mig = s.mig ∧ t.win = s.win ∧ t.net = s.net ∧ t.cxl = s.cxl ∧ t.cust = s.cust ∧ t.kettle = s.kettle ∧ t.dict = s.dict ∧ t.window = s.window ∧ t.coarse = s.coarse ∧ t.svc = s.svc ∧ t.reply = s.reply ∧ t.pending = s.pending
abbrev Touch.tTCXQSF (t s : State) : Prop :=
  t.bells = s.bells ∧ t.kern = s.kern ∧ t.mem = s.mem ∧ t.cache = s.cache ∧ t.mig = s.mig ∧ t.win = s.win ∧ t.tele = s.tele ∧ t.net = s.net ∧ t.cxl = s.cxl ∧ t.cust = s.cust ∧ t.kettle = s.kettle ∧ t.dict = s.dict ∧ t.window = s.window ∧ t.coarse = s.coarse ∧ t.reply = s.reply ∧ t.pending = s.pending
abbrev Touch.tTE (t s : State) : Prop :=
  t.bells = s.bells ∧ t.kern = s.kern ∧ t.mem = s.mem ∧ t.cache = s.cache ∧ t.cores = s.cores ∧ t.xlat = s.xlat ∧ t.tocsin = s.tocsin ∧ t.mig = s.mig ∧ t.win = s.win ∧ t.net = s.net ∧ t.cxl = s.cxl ∧ t.cust = s.cust ∧ t.kettle = s.kettle ∧ t.dict = s.dict ∧ t.window = s.window ∧ t.coarse = s.coarse ∧ t.svc = s.svc ∧ t.reply = s.reply ∧ t.fresh = s.fresh ∧ t.pending = s.pending
abbrev Touch.tTHCXQSF (t s : State) : Prop :=
  t.bells = s.bells ∧ t.kern = s.kern ∧ t.mem = s.mem ∧ t.mig = s.mig ∧ t.win = s.win ∧ t.tele = s.tele ∧ t.net = s.net ∧ t.cxl = s.cxl ∧ t.cust = s.cust ∧ t.kettle = s.kettle ∧ t.dict = s.dict ∧ t.window = s.window ∧ t.coarse = s.coarse ∧ t.reply = s.reply ∧ t.pending = s.pending
abbrev Touch.tTK (t s : State) : Prop :=
  t.bells = s.bells ∧ t.mem = s.mem ∧ t.cache = s.cache ∧ t.cores = s.cores ∧ t.xlat = s.xlat ∧ t.tocsin = s.tocsin ∧ t.mig = s.mig ∧ t.win = s.win ∧ t.tele = s.tele ∧ t.net = s.net ∧ t.cxl = s.cxl ∧ t.cust = s.cust ∧ t.kettle = s.kettle ∧ t.dict = s.dict ∧ t.window = s.window ∧ t.coarse = s.coarse ∧ t.svc = s.svc ∧ t.reply = s.reply ∧ t.fresh = s.fresh ∧ t.pending = s.pending
abbrev Touch.tTKCXQENF (t s : State) : Prop :=
  t.bells = s.bells ∧ t.mem = s.mem ∧ t.cache = s.cache ∧ t.mig = s.mig ∧ t.win = s.win ∧ t.cxl = s.cxl ∧ t.cust = s.cust ∧ t.kettle = s.kettle ∧ t.dict = s.dict ∧ t.window = s.window ∧ t.coarse = s.coarse ∧ t.svc = s.svc ∧ t.reply = s.reply ∧ t.pending = s.pending
abbrev Touch.tTKMCXQGENF (t s : State) : Prop :=
  t.bells = s.bells ∧ t.cache = s.cache ∧ t.win = s.win ∧ t.cxl = s.cxl ∧ t.cust = s.cust ∧ t.kettle = s.kettle ∧ t.dict = s.dict ∧ t.window = s.window ∧ t.coarse = s.coarse ∧ t.svc = s.svc ∧ t.reply = s.reply ∧ t.pending = s.pending
abbrev Touch.tTKMCXQGENLF (t s : State) : Prop :=
  t.bells = s.bells ∧ t.cache = s.cache ∧ t.win = s.win ∧ t.cust = s.cust ∧ t.kettle = s.kettle ∧ t.dict = s.dict ∧ t.window = s.window ∧ t.coarse = s.coarse ∧ t.svc = s.svc ∧ t.reply = s.reply ∧ t.pending = s.pending
abbrev Touch.tTKMHXQGNLRF (t s : State) : Prop :=
  t.bells = s.bells ∧ t.cores = s.cores ∧ t.win = s.win ∧ t.tele = s.tele ∧ t.cust = s.cust ∧ t.kettle = s.kettle ∧ t.dict = s.dict ∧ t.window = s.window ∧ t.coarse = s.coarse ∧ t.svc = s.svc ∧ t.pending = s.pending
abbrev Touch.tTKMQGEF (t s : State) : Prop :=
  t.bells = s.bells ∧ t.cache = s.cache ∧ t.cores = s.cores ∧ t.xlat = s.xlat ∧ t.win = s.win ∧ t.net = s.net ∧ t.cxl = s.cxl ∧ t.cust = s.cust ∧ t.kettle = s.kettle ∧ t.dict = s.dict ∧ t.window = s.window ∧ t.coarse = s.coarse ∧ t.svc = s.svc ∧ t.reply = s.reply ∧ t.pending = s.pending
abbrev Touch.tTKNLUPS (t s : State) : Prop :=
  t.bells = s.bells ∧ t.mem = s.mem ∧ t.cache = s.cache ∧ t.cores = s.cores ∧ t.xlat = s.xlat ∧ t.tocsin = s.tocsin ∧ t.mig = s.mig ∧ t.win = s.win ∧ t.tele = s.tele ∧ t.dict = s.dict ∧ t.window = s.window ∧ t.coarse = s.coarse ∧ t.reply = s.reply ∧ t.fresh = s.fresh ∧ t.pending = s.pending
abbrev Touch.tTKQLF (t s : State) : Prop :=
  t.bells = s.bells ∧ t.mem = s.mem ∧ t.cache = s.cache ∧ t.cores = s.cores ∧ t.xlat = s.xlat ∧ t.mig = s.mig ∧ t.win = s.win ∧ t.tele = s.tele ∧ t.net = s.net ∧ t.cust = s.cust ∧ t.kettle = s.kettle ∧ t.dict = s.dict ∧ t.window = s.window ∧ t.coarse = s.coarse ∧ t.svc = s.svc ∧ t.reply = s.reply ∧ t.pending = s.pending
abbrev Touch.tTKQNLUPSF (t s : State) : Prop :=
  t.bells = s.bells ∧ t.mem = s.mem ∧ t.cache = s.cache ∧ t.cores = s.cores ∧ t.xlat = s.xlat ∧ t.mig = s.mig ∧ t.win = s.win ∧ t.tele = s.tele ∧ t.dict = s.dict ∧ t.window = s.window ∧ t.coarse = s.coarse ∧ t.reply = s.reply ∧ t.pending = s.pending
abbrev Touch.tTMCQNPDSF (t s : State) : Prop :=
  t.bells = s.bells ∧ t.kern = s.kern ∧ t.cache = s.cache ∧ t.xlat = s.xlat ∧ t.mig = s.mig ∧ t.win = s.win ∧ t.tele = s.tele ∧ t.cxl = s.cxl ∧ t.cust = s.cust ∧ t.window = s.window ∧ t.coarse = s.coarse ∧ t.reply = s.reply ∧ t.pending = s.pending
abbrev Touch.tTMCQNPF (t s : State) : Prop :=
  t.bells = s.bells ∧ t.kern = s.kern ∧ t.cache = s.cache ∧ t.xlat = s.xlat ∧ t.mig = s.mig ∧ t.win = s.win ∧ t.tele = s.tele ∧ t.cxl = s.cxl ∧ t.cust = s.cust ∧ t.dict = s.dict ∧ t.window = s.window ∧ t.coarse = s.coarse ∧ t.svc = s.svc ∧ t.reply = s.reply ∧ t.pending = s.pending
abbrev Touch.tTMCXQGENF (t s : State) : Prop :=
  t.bells = s.bells ∧ t.kern = s.kern ∧ t.cache = s.cache ∧ t.win = s.win ∧ t.cxl = s.cxl ∧ t.cust = s.cust ∧ t.kettle = s.kettle ∧ t.dict = s.dict ∧ t.window = s.window ∧ t.coarse = s.coarse ∧ t.svc = s.svc ∧ t.reply = s.reply ∧ t.pending = s.pending
abbrev Touch.tTMCXQGENLF (t s : State) : Prop :=
  t.bells = s.bells ∧ t.kern = s.kern ∧ t.cache = s.cache ∧ t.win = s.win ∧ t.cust = s.cust ∧ t.kettle = s.kettle ∧ t.dict = s.dict ∧ t.window = s.window ∧ t.coarse = s.coarse ∧ t.svc = s.svc ∧ t.reply = s.reply ∧ t.pending = s.pending
abbrev Touch.tTMCXQGNF (t s : State) : Prop :=
  t.bells = s.bells ∧ t.kern = s.kern ∧ t.cache = s.cache ∧ t.win = s.win ∧ t.tele = s.tele ∧ t.cxl = s.cxl ∧ t.cust = s.cust ∧ t.kettle = s.kettle ∧ t.dict = s.dict ∧ t.window = s.window ∧ t.coarse = s.coarse ∧ t.svc = s.svc ∧ t.reply = s.reply ∧ t.pending = s.pending
abbrev Touch.tTMCXQUSF (t s : State) : Prop :=
  t.bells = s.bells ∧ t.kern = s.kern ∧ t.cache = s.cache ∧ t.mig = s.mig ∧ t.win = s.win ∧ t.tele = s.tele ∧ t.net = s.net ∧ t.cxl = s.cxl ∧ t.kettle = s.kettle ∧ t.dict = s.dict ∧ t.window = s.window ∧ t.coarse = s.coarse ∧ t.reply = s.reply ∧ t.pending = s.pending
abbrev Touch.tTMF (t s : State) : Prop :=
  t.bells = s.bells ∧ t.kern = s.kern ∧ t.cache = s.cache ∧ t.cores = s.cores ∧ t.xlat = s.xlat ∧ t.tocsin = s.tocsin ∧ t.mig = s.mig ∧ t.win = s.win ∧ t.tele = s.tele ∧ t.net = s.net ∧ t.cxl = s.cxl ∧ t.cust = s.cust ∧ t.kettle = s.kettle ∧ t.dict = s.dict ∧ t.window = s.window ∧ t.coarse = s.coarse ∧ t.svc = s.svc ∧ t.reply = s.reply ∧ t.pending = s.pending
abbrev Touch.tTMHCQGEF (t s : State) : Prop :=
  t.bells = s.bells ∧ t.kern = s.kern ∧ t.xlat = s.xlat ∧ t.win = s.win ∧ t.net = s.net ∧ t.cxl = s.cxl ∧ t.cust = s.cust ∧ t.kettle = s.kettle ∧ t.dict = s.dict ∧ t.window = s.window ∧ t.coarse = s.coarse ∧ t.svc = s.svc ∧ t.reply = s.reply ∧ t.pending = s.pending
abbrev Touch.tTMHCQGESF (t s : State) : Prop :=
  t.bells = s.bells ∧ t.kern = s.kern ∧ t.xlat = s.xlat ∧ t.win = s.win ∧ t.net = s.net ∧ t.cxl = s.cxl ∧ t.cust = s.cust ∧ t.kettle = s.kettle ∧ t.dict = s.dict ∧ t.window = s.window ∧ t.coarse = s.coarse ∧ t.reply = s.reply ∧ t.pending = s.pending
abbrev Touch.tTMHCXQGENLUDF (t s : State) : Prop :=
  t.bells = s.bells ∧ t.kern = s.kern ∧ t.win = s.win ∧ t.kettle = s.kettle ∧ t.window = s.window ∧ t.coarse = s.coarse ∧ t.svc = s.svc ∧ t.reply = s.reply ∧ t.pending = s.pending
abbrev Touch.tTMNF (t s : State) : Prop :=
  t.bells = s.bells ∧ t.kern = s.kern ∧ t.cache = s.cache ∧ t.cores = s.cores ∧ t.xlat = s.xlat ∧ t.tocsin = s.tocsin ∧ t.mig = s.mig ∧ t.win = s.win ∧ t.tele = s.tele ∧ t.cxl = s.cxl ∧ t.cust = s.cust ∧ t.kettle = s.kettle ∧ t.dict = s.dict ∧ t.window = s.window ∧ t.coarse = s.coarse ∧ t.svc = s.svc ∧ t.reply = s.reply ∧ t.pending = s.pending
abbrev Touch.tTMQGF (t s : State) : Prop :=
  t.bells = s.bells ∧ t.kern = s.kern ∧ t.cache = s.cache ∧ t.cores = s.cores ∧ t.xlat = s.xlat ∧ t.win = s.win ∧ t.tele = s.tele ∧ t.net = s.net ∧ t.cxl = s.cxl ∧ t.cust = s.cust ∧ t.kettle = s.kettle ∧ t.dict = s.dict ∧ t.window = s.window ∧ t.coarse = s.coarse ∧ t.svc = s.svc ∧ t.reply = s.reply ∧ t.pending = s.pending
abbrev Touch.tTMXQGEF (t s : State) : Prop :=
  t.bells = s.bells ∧ t.kern = s.kern ∧ t.cache = s.cache ∧ t.cores = s.cores ∧ t.win = s.win ∧ t.net = s.net ∧ t.cxl = s.cxl ∧ t.cust = s.cust ∧ t.kettle = s.kettle ∧ t.dict = s.dict ∧ t.window = s.window ∧ t.coarse = s.coarse ∧ t.svc = s.svc ∧ t.reply = s.reply ∧ t.pending = s.pending
abbrev Touch.tTMXQGF (t s : State) : Prop :=
  t.bells = s.bells ∧ t.kern = s.kern ∧ t.cache = s.cache ∧ t.cores = s.cores ∧ t.win = s.win ∧ t.tele = s.tele ∧ t.net = s.net ∧ t.cxl = s.cxl ∧ t.cust = s.cust ∧ t.kettle = s.kettle ∧ t.dict = s.dict ∧ t.window = s.window ∧ t.coarse = s.coarse ∧ t.svc = s.svc ∧ t.reply = s.reply ∧ t.pending = s.pending
abbrev Touch.tTN (t s : State) : Prop :=
  t.bells = s.bells ∧ t.kern = s.kern ∧ t.mem = s.mem ∧ t.cache = s.cache ∧ t.cores = s.cores ∧ t.xlat = s.xlat ∧ t.tocsin = s.tocsin ∧ t.mig = s.mig ∧ t.win = s.win ∧ t.tele = s.tele ∧ t.cxl = s.cxl ∧ t.cust = s.cust ∧ t.kettle = s.kettle ∧ t.dict = s.dict ∧ t.window = s.window ∧ t.coarse = s.coarse ∧ t.svc = s.svc ∧ t.reply = s.reply ∧ t.fresh = s.fresh ∧ t.pending = s.pending
abbrev Touch.tTP (t s : State) : Prop :=
  t.bells = s.bells ∧ t.kern = s.kern ∧ t.mem = s.mem ∧ t.cache = s.cache ∧ t.cores = s.cores ∧ t.xlat = s.xlat ∧ t.tocsin = s.tocsin ∧ t.mig = s.mig ∧ t.win = s.win ∧ t.tele = s.tele ∧ t.net = s.net ∧ t.cxl = s.cxl ∧ t.cust = s.cust ∧ t.dict = s.dict ∧ t.window = s.window ∧ t.coarse = s.coarse ∧ t.svc = s.svc ∧ t.reply = s.reply ∧ t.fresh = s.fresh ∧ t.pending = s.pending
abbrev Touch.tTQDF (t s : State) : Prop :=
  t.bells = s.bells ∧ t.kern = s.kern ∧ t.mem = s.mem ∧ t.cache = s.cache ∧ t.cores = s.cores ∧ t.xlat = s.xlat ∧ t.mig = s.mig ∧ t.win = s.win ∧ t.tele = s.tele ∧ t.net = s.net ∧ t.cxl = s.cxl ∧ t.cust = s.cust ∧ t.kettle = s.kettle ∧ t.window = s.window ∧ t.coarse = s.coarse ∧ t.svc = s.svc ∧ t.reply = s.reply ∧ t.pending = s.pending
abbrev Touch.tTQDSF (t s : State) : Prop :=
  t.bells = s.bells ∧ t.kern = s.kern ∧ t.mem = s.mem ∧ t.cache = s.cache ∧ t.cores = s.cores ∧ t.xlat = s.xlat ∧ t.mig = s.mig ∧ t.win = s.win ∧ t.tele = s.tele ∧ t.net = s.net ∧ t.cxl = s.cxl ∧ t.cust = s.cust ∧ t.kettle = s.kettle ∧ t.window = s.window ∧ t.coarse = s.coarse ∧ t.reply = s.reply ∧ t.pending = s.pending
abbrev Touch.tTQPF (t s : State) : Prop :=
  t.bells = s.bells ∧ t.kern = s.kern ∧ t.mem = s.mem ∧ t.cache = s.cache ∧ t.cores = s.cores ∧ t.xlat = s.xlat ∧ t.mig = s.mig ∧ t.win = s.win ∧ t.tele = s.tele ∧ t.net = s.net ∧ t.cxl = s.cxl ∧ t.cust = s.cust ∧ t.dict = s.dict ∧ t.window = s.window ∧ t.coarse = s.coarse ∧ t.svc = s.svc ∧ t.reply = s.reply ∧ t.pending = s.pending
abbrev Touch.tTX (t s : State) : Prop :=
  t.bells = s.bells ∧ t.kern = s.kern ∧ t.mem = s.mem ∧ t.cache = s.cache ∧ t.cores = s.cores ∧ t.tocsin = s.tocsin ∧ t.mig = s.mig ∧ t.win = s.win ∧ t.tele = s.tele ∧ t.net = s.net ∧ t.cxl = s.cxl ∧ t.cust = s.cust ∧ t.kettle = s.kettle ∧ t.dict = s.dict ∧ t.window = s.window ∧ t.coarse = s.coarse ∧ t.svc = s.svc ∧ t.reply = s.reply ∧ t.fresh = s.fresh ∧ t.pending = s.pending
abbrev Touch.tTXL (t s : State) : Prop :=
  t.bells = s.bells ∧ t.kern = s.kern ∧ t.mem = s.mem ∧ t.cache = s.cache ∧ t.cores = s.cores ∧ t.tocsin = s.tocsin ∧ t.mig = s.mig ∧ t.win = s.win ∧ t.tele = s.tele ∧ t.net = s.net ∧ t.cust = s.cust ∧ t.kettle = s.kettle ∧ t.dict = s.dict ∧ t.window = s.window ∧ t.coarse = s.coarse ∧ t.svc = s.svc ∧ t.reply = s.reply ∧ t.fresh = s.fresh ∧ t.pending = s.pending
abbrev Touch.tTXQF (t s : State) : Prop :=
  t.bells = s.bells ∧ t.kern = s.kern ∧ t.mem = s.mem ∧ t.cache = s.cache ∧ t.cores = s.cores ∧ t.mig = s.mig ∧ t.win = s.win ∧ t.tele = s.tele ∧ t.net = s.net ∧ t.cxl = s.cxl ∧ t.cust = s.cust ∧ t.kettle = s.kettle ∧ t.dict = s.dict ∧ t.window = s.window ∧ t.coarse = s.coarse ∧ t.svc = s.svc ∧ t.reply = s.reply ∧ t.pending = s.pending
abbrev Touch.tU (t s : State) : Prop :=
  t.tiles = s.tiles ∧ t.bells = s.bells ∧ t.kern = s.kern ∧ t.mem = s.mem ∧ t.cache = s.cache ∧ t.cores = s.cores ∧ t.xlat = s.xlat ∧ t.tocsin = s.tocsin ∧ t.mig = s.mig ∧ t.win = s.win ∧ t.tele = s.tele ∧ t.net = s.net ∧ t.cxl = s.cxl ∧ t.kettle = s.kettle ∧ t.dict = s.dict ∧ t.window = s.window ∧ t.coarse = s.coarse ∧ t.svc = s.svc ∧ t.reply = s.reply ∧ t.fresh = s.fresh ∧ t.pending = s.pending
abbrev Touch.tUR (t s : State) : Prop :=
  t.tiles = s.tiles ∧ t.bells = s.bells ∧ t.kern = s.kern ∧ t.mem = s.mem ∧ t.cache = s.cache ∧ t.cores = s.cores ∧ t.xlat = s.xlat ∧ t.tocsin = s.tocsin ∧ t.mig = s.mig ∧ t.win = s.win ∧ t.tele = s.tele ∧ t.net = s.net ∧ t.cxl = s.cxl ∧ t.kettle = s.kettle ∧ t.dict = s.dict ∧ t.window = s.window ∧ t.coarse = s.coarse ∧ t.svc = s.svc ∧ t.fresh = s.fresh ∧ t.pending = s.pending
abbrev Touch.tURF (t s : State) : Prop :=
  t.tiles = s.tiles ∧ t.bells = s.bells ∧ t.kern = s.kern ∧ t.mem = s.mem ∧ t.cache = s.cache ∧ t.cores = s.cores ∧ t.xlat = s.xlat ∧ t.tocsin = s.tocsin ∧ t.mig = s.mig ∧ t.win = s.win ∧ t.tele = s.tele ∧ t.net = s.net ∧ t.cxl = s.cxl ∧ t.kettle = s.kettle ∧ t.dict = s.dict ∧ t.window = s.window ∧ t.coarse = s.coarse ∧ t.svc = s.svc ∧ t.pending = s.pending
abbrev Touch.tWE (t s : State) : Prop :=
  t.tiles = s.tiles ∧ t.bells = s.bells ∧ t.kern = s.kern ∧ t.mem = s.mem ∧ t.cache = s.cache ∧ t.cores = s.cores ∧ t.xlat = s.xlat ∧ t.tocsin = s.tocsin ∧ t.mig = s.mig ∧ t.net = s.net ∧ t.cxl = s.cxl ∧ t.cust = s.cust ∧ t.kettle = s.kettle ∧ t.dict = s.dict ∧ t.window = s.window ∧ t.coarse = s.coarse ∧ t.svc = s.svc ∧ t.reply = s.reply ∧ t.fresh = s.fresh ∧ t.pending = s.pending
abbrev Touch.tX (t s : State) : Prop :=
  t.tiles = s.tiles ∧ t.bells = s.bells ∧ t.kern = s.kern ∧ t.mem = s.mem ∧ t.cache = s.cache ∧ t.cores = s.cores ∧ t.tocsin = s.tocsin ∧ t.mig = s.mig ∧ t.win = s.win ∧ t.tele = s.tele ∧ t.net = s.net ∧ t.cxl = s.cxl ∧ t.cust = s.cust ∧ t.kettle = s.kettle ∧ t.dict = s.dict ∧ t.window = s.window ∧ t.coarse = s.coarse ∧ t.svc = s.svc ∧ t.reply = s.reply ∧ t.fresh = s.fresh ∧ t.pending = s.pending
abbrev Touch.tXE (t s : State) : Prop :=
  t.tiles = s.tiles ∧ t.bells = s.bells ∧ t.kern = s.kern ∧ t.mem = s.mem ∧ t.cache = s.cache ∧ t.cores = s.cores ∧ t.tocsin = s.tocsin ∧ t.mig = s.mig ∧ t.win = s.win ∧ t.net = s.net ∧ t.cxl = s.cxl ∧ t.cust = s.cust ∧ t.kettle = s.kettle ∧ t.dict = s.dict ∧ t.window = s.window ∧ t.coarse = s.coarse ∧ t.svc = s.svc ∧ t.reply = s.reply ∧ t.fresh = s.fresh ∧ t.pending = s.pending
abbrev Touch.tXQF (t s : State) : Prop :=
  t.tiles = s.tiles ∧ t.bells = s.bells ∧ t.kern = s.kern ∧ t.mem = s.mem ∧ t.cache = s.cache ∧ t.cores = s.cores ∧ t.mig = s.mig ∧ t.win = s.win ∧ t.tele = s.tele ∧ t.net = s.net ∧ t.cxl = s.cxl ∧ t.cust = s.cust ∧ t.kettle = s.kettle ∧ t.dict = s.dict ∧ t.window = s.window ∧ t.coarse = s.coarse ∧ t.svc = s.svc ∧ t.reply = s.reply ∧ t.pending = s.pending
abbrev Touch.tXQNF (t s : State) : Prop :=
  t.tiles = s.tiles ∧ t.bells = s.bells ∧ t.kern = s.kern ∧ t.mem = s.mem ∧ t.cache = s.cache ∧ t.cores = s.cores ∧ t.mig = s.mig ∧ t.win = s.win ∧ t.tele = s.tele ∧ t.cxl = s.cxl ∧ t.cust = s.cust ∧ t.kettle = s.kettle ∧ t.dict = s.dict ∧ t.window = s.window ∧ t.coarse = s.coarse ∧ t.svc = s.svc ∧ t.reply = s.reply ∧ t.pending = s.pending

theorem foldl_keep {σ α β : Type} (g : σ → α) (f : σ → β → σ) (h : ∀ s x, g (f s x) = g s) (l : List β) (s : σ) :
    g (l.foldl f s) = g s := by
  induction l generalizing s with
  | nil => rfl
  | cons x l ih => rw [List.foldl_cons, ih, h]
@[simp] theorem foldl_tiles {β : Type} (f : State → β → State) (h : ∀ s x, (f s x).tiles = s.tiles) (l : List β) (s : State) :
    (l.foldl f s).tiles = s.tiles := foldl_keep State.tiles f h l s
@[simp] theorem foldl_fst_tiles {α β : Type} (f : State × α → β → State × α) (h : ∀ p x, (f p x).1.tiles = p.1.tiles) (l : List β) (p : State × α) :
    (l.foldl f p).1.tiles = p.1.tiles := foldl_keep (fun q : State × α => q.1.tiles) f h l p
@[simp] theorem foldl_bells {β : Type} (f : State → β → State) (h : ∀ s x, (f s x).bells = s.bells) (l : List β) (s : State) :
    (l.foldl f s).bells = s.bells := foldl_keep State.bells f h l s
@[simp] theorem foldl_fst_bells {α β : Type} (f : State × α → β → State × α) (h : ∀ p x, (f p x).1.bells = p.1.bells) (l : List β) (p : State × α) :
    (l.foldl f p).1.bells = p.1.bells := foldl_keep (fun q : State × α => q.1.bells) f h l p
@[simp] theorem foldl_kern {β : Type} (f : State → β → State) (h : ∀ s x, (f s x).kern = s.kern) (l : List β) (s : State) :
    (l.foldl f s).kern = s.kern := foldl_keep State.kern f h l s
@[simp] theorem foldl_fst_kern {α β : Type} (f : State × α → β → State × α) (h : ∀ p x, (f p x).1.kern = p.1.kern) (l : List β) (p : State × α) :
    (l.foldl f p).1.kern = p.1.kern := foldl_keep (fun q : State × α => q.1.kern) f h l p
@[simp] theorem foldl_mem {β : Type} (f : State → β → State) (h : ∀ s x, (f s x).mem = s.mem) (l : List β) (s : State) :
    (l.foldl f s).mem = s.mem := foldl_keep State.mem f h l s
@[simp] theorem foldl_fst_mem {α β : Type} (f : State × α → β → State × α) (h : ∀ p x, (f p x).1.mem = p.1.mem) (l : List β) (p : State × α) :
    (l.foldl f p).1.mem = p.1.mem := foldl_keep (fun q : State × α => q.1.mem) f h l p
@[simp] theorem foldl_cache {β : Type} (f : State → β → State) (h : ∀ s x, (f s x).cache = s.cache) (l : List β) (s : State) :
    (l.foldl f s).cache = s.cache := foldl_keep State.cache f h l s
@[simp] theorem foldl_fst_cache {α β : Type} (f : State × α → β → State × α) (h : ∀ p x, (f p x).1.cache = p.1.cache) (l : List β) (p : State × α) :
    (l.foldl f p).1.cache = p.1.cache := foldl_keep (fun q : State × α => q.1.cache) f h l p
@[simp] theorem foldl_cores {β : Type} (f : State → β → State) (h : ∀ s x, (f s x).cores = s.cores) (l : List β) (s : State) :
    (l.foldl f s).cores = s.cores := foldl_keep State.cores f h l s
@[simp] theorem foldl_fst_cores {α β : Type} (f : State × α → β → State × α) (h : ∀ p x, (f p x).1.cores = p.1.cores) (l : List β) (p : State × α) :
    (l.foldl f p).1.cores = p.1.cores := foldl_keep (fun q : State × α => q.1.cores) f h l p
@[simp] theorem foldl_xlat {β : Type} (f : State → β → State) (h : ∀ s x, (f s x).xlat = s.xlat) (l : List β) (s : State) :
    (l.foldl f s).xlat = s.xlat := foldl_keep State.xlat f h l s
@[simp] theorem foldl_fst_xlat {α β : Type} (f : State × α → β → State × α) (h : ∀ p x, (f p x).1.xlat = p.1.xlat) (l : List β) (p : State × α) :
    (l.foldl f p).1.xlat = p.1.xlat := foldl_keep (fun q : State × α => q.1.xlat) f h l p
@[simp] theorem foldl_tocsin {β : Type} (f : State → β → State) (h : ∀ s x, (f s x).tocsin = s.tocsin) (l : List β) (s : State) :
    (l.foldl f s).tocsin = s.tocsin := foldl_keep State.tocsin f h l s
@[simp] theorem foldl_fst_tocsin {α β : Type} (f : State × α → β → State × α) (h : ∀ p x, (f p x).1.tocsin = p.1.tocsin) (l : List β) (p : State × α) :
    (l.foldl f p).1.tocsin = p.1.tocsin := foldl_keep (fun q : State × α => q.1.tocsin) f h l p
@[simp] theorem foldl_mig {β : Type} (f : State → β → State) (h : ∀ s x, (f s x).mig = s.mig) (l : List β) (s : State) :
    (l.foldl f s).mig = s.mig := foldl_keep State.mig f h l s
@[simp] theorem foldl_fst_mig {α β : Type} (f : State × α → β → State × α) (h : ∀ p x, (f p x).1.mig = p.1.mig) (l : List β) (p : State × α) :
    (l.foldl f p).1.mig = p.1.mig := foldl_keep (fun q : State × α => q.1.mig) f h l p
@[simp] theorem foldl_win {β : Type} (f : State → β → State) (h : ∀ s x, (f s x).win = s.win) (l : List β) (s : State) :
    (l.foldl f s).win = s.win := foldl_keep State.win f h l s
@[simp] theorem foldl_fst_win {α β : Type} (f : State × α → β → State × α) (h : ∀ p x, (f p x).1.win = p.1.win) (l : List β) (p : State × α) :
    (l.foldl f p).1.win = p.1.win := foldl_keep (fun q : State × α => q.1.win) f h l p
@[simp] theorem foldl_tele {β : Type} (f : State → β → State) (h : ∀ s x, (f s x).tele = s.tele) (l : List β) (s : State) :
    (l.foldl f s).tele = s.tele := foldl_keep State.tele f h l s
@[simp] theorem foldl_fst_tele {α β : Type} (f : State × α → β → State × α) (h : ∀ p x, (f p x).1.tele = p.1.tele) (l : List β) (p : State × α) :
    (l.foldl f p).1.tele = p.1.tele := foldl_keep (fun q : State × α => q.1.tele) f h l p
@[simp] theorem foldl_net {β : Type} (f : State → β → State) (h : ∀ s x, (f s x).net = s.net) (l : List β) (s : State) :
    (l.foldl f s).net = s.net := foldl_keep State.net f h l s
@[simp] theorem foldl_fst_net {α β : Type} (f : State × α → β → State × α) (h : ∀ p x, (f p x).1.net = p.1.net) (l : List β) (p : State × α) :
    (l.foldl f p).1.net = p.1.net := foldl_keep (fun q : State × α => q.1.net) f h l p
@[simp] theorem foldl_cxl {β : Type} (f : State → β → State) (h : ∀ s x, (f s x).cxl = s.cxl) (l : List β) (s : State) :
    (l.foldl f s).cxl = s.cxl := foldl_keep State.cxl f h l s
@[simp] theorem foldl_fst_cxl {α β : Type} (f : State × α → β → State × α) (h : ∀ p x, (f p x).1.cxl = p.1.cxl) (l : List β) (p : State × α) :
    (l.foldl f p).1.cxl = p.1.cxl := foldl_keep (fun q : State × α => q.1.cxl) f h l p
@[simp] theorem foldl_cust {β : Type} (f : State → β → State) (h : ∀ s x, (f s x).cust = s.cust) (l : List β) (s : State) :
    (l.foldl f s).cust = s.cust := foldl_keep State.cust f h l s
@[simp] theorem foldl_fst_cust {α β : Type} (f : State × α → β → State × α) (h : ∀ p x, (f p x).1.cust = p.1.cust) (l : List β) (p : State × α) :
    (l.foldl f p).1.cust = p.1.cust := foldl_keep (fun q : State × α => q.1.cust) f h l p
@[simp] theorem foldl_kettle {β : Type} (f : State → β → State) (h : ∀ s x, (f s x).kettle = s.kettle) (l : List β) (s : State) :
    (l.foldl f s).kettle = s.kettle := foldl_keep State.kettle f h l s
@[simp] theorem foldl_fst_kettle {α β : Type} (f : State × α → β → State × α) (h : ∀ p x, (f p x).1.kettle = p.1.kettle) (l : List β) (p : State × α) :
    (l.foldl f p).1.kettle = p.1.kettle := foldl_keep (fun q : State × α => q.1.kettle) f h l p
@[simp] theorem foldl_dict {β : Type} (f : State → β → State) (h : ∀ s x, (f s x).dict = s.dict) (l : List β) (s : State) :
    (l.foldl f s).dict = s.dict := foldl_keep State.dict f h l s
@[simp] theorem foldl_fst_dict {α β : Type} (f : State × α → β → State × α) (h : ∀ p x, (f p x).1.dict = p.1.dict) (l : List β) (p : State × α) :
    (l.foldl f p).1.dict = p.1.dict := foldl_keep (fun q : State × α => q.1.dict) f h l p
@[simp] theorem foldl_window {β : Type} (f : State → β → State) (h : ∀ s x, (f s x).window = s.window) (l : List β) (s : State) :
    (l.foldl f s).window = s.window := foldl_keep State.window f h l s
@[simp] theorem foldl_fst_window {α β : Type} (f : State × α → β → State × α) (h : ∀ p x, (f p x).1.window = p.1.window) (l : List β) (p : State × α) :
    (l.foldl f p).1.window = p.1.window := foldl_keep (fun q : State × α => q.1.window) f h l p
@[simp] theorem foldl_coarse {β : Type} (f : State → β → State) (h : ∀ s x, (f s x).coarse = s.coarse) (l : List β) (s : State) :
    (l.foldl f s).coarse = s.coarse := foldl_keep State.coarse f h l s
@[simp] theorem foldl_fst_coarse {α β : Type} (f : State × α → β → State × α) (h : ∀ p x, (f p x).1.coarse = p.1.coarse) (l : List β) (p : State × α) :
    (l.foldl f p).1.coarse = p.1.coarse := foldl_keep (fun q : State × α => q.1.coarse) f h l p
@[simp] theorem foldl_svc {β : Type} (f : State → β → State) (h : ∀ s x, (f s x).svc = s.svc) (l : List β) (s : State) :
    (l.foldl f s).svc = s.svc := foldl_keep State.svc f h l s
@[simp] theorem foldl_fst_svc {α β : Type} (f : State × α → β → State × α) (h : ∀ p x, (f p x).1.svc = p.1.svc) (l : List β) (p : State × α) :
    (l.foldl f p).1.svc = p.1.svc := foldl_keep (fun q : State × α => q.1.svc) f h l p
@[simp] theorem foldl_reply {β : Type} (f : State → β → State) (h : ∀ s x, (f s x).reply = s.reply) (l : List β) (s : State) :
    (l.foldl f s).reply = s.reply := foldl_keep State.reply f h l s
@[simp] theorem foldl_fst_reply {α β : Type} (f : State × α → β → State × α) (h : ∀ p x, (f p x).1.reply = p.1.reply) (l : List β) (p : State × α) :
    (l.foldl f p).1.reply = p.1.reply := foldl_keep (fun q : State × α => q.1.reply) f h l p
@[simp] theorem foldl_fresh {β : Type} (f : State → β → State) (h : ∀ s x, (f s x).fresh = s.fresh) (l : List β) (s : State) :
    (l.foldl f s).fresh = s.fresh := foldl_keep State.fresh f h l s
@[simp] theorem foldl_fst_fresh {α β : Type} (f : State × α → β → State × α) (h : ∀ p x, (f p x).1.fresh = p.1.fresh) (l : List β) (p : State × α) :
    (l.foldl f p).1.fresh = p.1.fresh := foldl_keep (fun q : State × α => q.1.fresh) f h l p
@[simp] theorem foldl_pending {β : Type} (f : State → β → State) (h : ∀ s x, (f s x).pending = s.pending) (l : List β) (s : State) :
    (l.foldl f s).pending = s.pending := foldl_keep State.pending f h l s
@[simp] theorem foldl_fst_pending {α β : Type} (f : State × α → β → State × α) (h : ∀ p x, (f p x).1.pending = p.1.pending) (l : List β) (p : State × α) :
    (l.foldl f p).1.pending = p.1.pending := foldl_keep (fun q : State × α => q.1.pending) f h l p
@[simp] theorem when_tiles (s : State) (b : Bool) (f : State → State) : (s.when b f).tiles = if b then (f s).tiles else s.tiles := by
  unfold State.when; split <;> rfl
@[simp] theorem when_bells (s : State) (b : Bool) (f : State → State) : (s.when b f).bells = if b then (f s).bells else s.bells := by
  unfold State.when; split <;> rfl
@[simp] theorem when_kern (s : State) (b : Bool) (f : State → State) : (s.when b f).kern = if b then (f s).kern else s.kern := by
  unfold State.when; split <;> rfl
@[simp] theorem when_mem (s : State) (b : Bool) (f : State → State) : (s.when b f).mem = if b then (f s).mem else s.mem := by
  unfold State.when; split <;> rfl
@[simp] theorem when_cache (s : State) (b : Bool) (f : State → State) : (s.when b f).cache = if b then (f s).cache else s.cache := by
  unfold State.when; split <;> rfl
@[simp] theorem when_cores (s : State) (b : Bool) (f : State → State) : (s.when b f).cores = if b then (f s).cores else s.cores := by
  unfold State.when; split <;> rfl
@[simp] theorem when_xlat (s : State) (b : Bool) (f : State → State) : (s.when b f).xlat = if b then (f s).xlat else s.xlat := by
  unfold State.when; split <;> rfl
@[simp] theorem when_tocsin (s : State) (b : Bool) (f : State → State) : (s.when b f).tocsin = if b then (f s).tocsin else s.tocsin := by
  unfold State.when; split <;> rfl
@[simp] theorem when_mig (s : State) (b : Bool) (f : State → State) : (s.when b f).mig = if b then (f s).mig else s.mig := by
  unfold State.when; split <;> rfl
@[simp] theorem when_win (s : State) (b : Bool) (f : State → State) : (s.when b f).win = if b then (f s).win else s.win := by
  unfold State.when; split <;> rfl
@[simp] theorem when_tele (s : State) (b : Bool) (f : State → State) : (s.when b f).tele = if b then (f s).tele else s.tele := by
  unfold State.when; split <;> rfl
@[simp] theorem when_net (s : State) (b : Bool) (f : State → State) : (s.when b f).net = if b then (f s).net else s.net := by
  unfold State.when; split <;> rfl
@[simp] theorem when_cxl (s : State) (b : Bool) (f : State → State) : (s.when b f).cxl = if b then (f s).cxl else s.cxl := by
  unfold State.when; split <;> rfl
@[simp] theorem when_cust (s : State) (b : Bool) (f : State → State) : (s.when b f).cust = if b then (f s).cust else s.cust := by
  unfold State.when; split <;> rfl
@[simp] theorem when_kettle (s : State) (b : Bool) (f : State → State) : (s.when b f).kettle = if b then (f s).kettle else s.kettle := by
  unfold State.when; split <;> rfl
@[simp] theorem when_dict (s : State) (b : Bool) (f : State → State) : (s.when b f).dict = if b then (f s).dict else s.dict := by
  unfold State.when; split <;> rfl
@[simp] theorem when_window (s : State) (b : Bool) (f : State → State) : (s.when b f).window = if b then (f s).window else s.window := by
  unfold State.when; split <;> rfl
@[simp] theorem when_coarse (s : State) (b : Bool) (f : State → State) : (s.when b f).coarse = if b then (f s).coarse else s.coarse := by
  unfold State.when; split <;> rfl
@[simp] theorem when_svc (s : State) (b : Bool) (f : State → State) : (s.when b f).svc = if b then (f s).svc else s.svc := by
  unfold State.when; split <;> rfl
@[simp] theorem when_reply (s : State) (b : Bool) (f : State → State) : (s.when b f).reply = if b then (f s).reply else s.reply := by
  unfold State.when; split <;> rfl
@[simp] theorem when_fresh (s : State) (b : Bool) (f : State → State) : (s.when b f).fresh = if b then (f s).fresh else s.fresh := by
  unfold State.when; split <;> rfl
@[simp] theorem when_pending (s : State) (b : Bool) (f : State → State) : (s.when b f).pending = if b then (f s).pending else s.pending := by
  unfold State.when; split <;> rfl
theorem foldl_touch {σ β : Type} (R : σ → σ → Prop) (hr : ∀ s, R s s) (ht : ∀ a b c, R a b → R b c → R a c)
    (f : σ → β → σ) (h : ∀ s x, R (f s x) s) (l : List β) (s : σ) : R (l.foldl f s) s := by
  induction l generalizing s with
  | nil => exact hr s
  | cons x l ih => exact ht _ _ _ (ih _) (h s x)
@[simp] theorem ite_tiles (b : Prop) [Decidable b] (s t : State) : (if b then s else t).tiles = if b then s.tiles else t.tiles := by split <;> rfl
@[simp] theorem ite_bells (b : Prop) [Decidable b] (s t : State) : (if b then s else t).bells = if b then s.bells else t.bells := by split <;> rfl
@[simp] theorem ite_kern (b : Prop) [Decidable b] (s t : State) : (if b then s else t).kern = if b then s.kern else t.kern := by split <;> rfl
@[simp] theorem ite_mem (b : Prop) [Decidable b] (s t : State) : (if b then s else t).mem = if b then s.mem else t.mem := by split <;> rfl
@[simp] theorem ite_cache (b : Prop) [Decidable b] (s t : State) : (if b then s else t).cache = if b then s.cache else t.cache := by split <;> rfl
@[simp] theorem ite_cores (b : Prop) [Decidable b] (s t : State) : (if b then s else t).cores = if b then s.cores else t.cores := by split <;> rfl
@[simp] theorem ite_xlat (b : Prop) [Decidable b] (s t : State) : (if b then s else t).xlat = if b then s.xlat else t.xlat := by split <;> rfl
@[simp] theorem ite_tocsin (b : Prop) [Decidable b] (s t : State) : (if b then s else t).tocsin = if b then s.tocsin else t.tocsin := by split <;> rfl
@[simp] theorem ite_mig (b : Prop) [Decidable b] (s t : State) : (if b then s else t).mig = if b then s.mig else t.mig := by split <;> rfl
@[simp] theorem ite_win (b : Prop) [Decidable b] (s t : State) : (if b then s else t).win = if b then s.win else t.win := by split <;> rfl
@[simp] theorem ite_tele (b : Prop) [Decidable b] (s t : State) : (if b then s else t).tele = if b then s.tele else t.tele := by split <;> rfl
@[simp] theorem ite_net (b : Prop) [Decidable b] (s t : State) : (if b then s else t).net = if b then s.net else t.net := by split <;> rfl
@[simp] theorem ite_cxl (b : Prop) [Decidable b] (s t : State) : (if b then s else t).cxl = if b then s.cxl else t.cxl := by split <;> rfl
@[simp] theorem ite_cust (b : Prop) [Decidable b] (s t : State) : (if b then s else t).cust = if b then s.cust else t.cust := by split <;> rfl
@[simp] theorem ite_kettle (b : Prop) [Decidable b] (s t : State) : (if b then s else t).kettle = if b then s.kettle else t.kettle := by split <;> rfl
@[simp] theorem ite_dict (b : Prop) [Decidable b] (s t : State) : (if b then s else t).dict = if b then s.dict else t.dict := by split <;> rfl
@[simp] theorem ite_window (b : Prop) [Decidable b] (s t : State) : (if b then s else t).window = if b then s.window else t.window := by split <;> rfl
@[simp] theorem ite_coarse (b : Prop) [Decidable b] (s t : State) : (if b then s else t).coarse = if b then s.coarse else t.coarse := by split <;> rfl
@[simp] theorem ite_svc (b : Prop) [Decidable b] (s t : State) : (if b then s else t).svc = if b then s.svc else t.svc := by split <;> rfl
@[simp] theorem ite_reply (b : Prop) [Decidable b] (s t : State) : (if b then s else t).reply = if b then s.reply else t.reply := by split <;> rfl
@[simp] theorem ite_fresh (b : Prop) [Decidable b] (s t : State) : (if b then s else t).fresh = if b then s.fresh else t.fresh := by split <;> rfl
@[simp] theorem ite_pending (b : Prop) [Decidable b] (s t : State) : (if b then s else t).pending = if b then s.pending else t.pending := by split <;> rfl
theorem foldl_touch' {σ β : Type} (R : σ → σ → Prop) (hr : ∀ s, R s s) (ht : ∀ a b c, R a b → R b c → R a c)
    (f : σ → β → σ) (h : ∀ s x, R (f s x) s) (l : List β) (s t : σ) (h0 : R s t) : R (l.foldl f s) t :=
  ht _ _ _ (foldl_touch R hr ht f h l s) h0

end Sys2Proof.Machine
end

