-- ==== Sys2Proof/Laws/FrameTile.lean ====
section
/-! SUPPORT. The frame of every operation of the shared operations and the tiles: what it leaves as it was. -/

namespace Sys2Proof.Machine

set_option linter.unnecessarySeqFocus false
set_option linter.unreachableTactic false
set_option linter.unusedTactic false
set_option maxRecDepth 20000
set_option linter.unusedSimpArgs false
set_option linter.unusedVariables false

/-! ### Ops -/

@[simp] theorem State.discard_frame (s : State)  : Touch.tE (State.discard s) s := by
  simp only [State.discard]
  (repeat' split) <;> simp [Touch.tE]
@[simp] theorem State.flamMismatch_frame (s : State)  : Touch.tE (State.flamMismatch s) s := by
  simp only [State.flamMismatch]
  (repeat' split) <;> simp [Touch.tE]
@[simp] theorem State.answer_frame (s : State) (code : W32) (data : List Byte)  : Touch.tR (State.answer s code data) s := by
  simp only [State.answer]
  (repeat' split) <;> simp [Touch.tR]
@[simp] theorem State.drawn_frame (s : State)  : Touch.tF (State.drawn s) s := by
  simp only [State.drawn]
  (repeat' split) <;> simp [Touch.tF]
@[simp] theorem State.setBell_frame (s : State) (b : Nat) (v : Bell)  : Touch.tB (State.setBell s b v) s := by
  simp only [State.setBell]
  (repeat' split) <;> simp [Touch.tB]
@[simp] theorem State.setCore_frame (s : State) (c : CoreId) (v : Core)  : Touch.tC (State.setCore s c v) s := by
  simp only [State.setCore]
  (repeat' split) <;> simp [Touch.tC]
@[simp] theorem State.setKernel_frame (s : State) (k : Nat) (v : Option Kernel)  : Touch.tK (State.setKernel s k v) s := by
  simp only [State.setKernel]
  (repeat' split) <;> simp [Touch.tK]
@[simp] theorem State.raise_frame (s : State) (cls type die kind unit : Nat) (payload : List Byte)  : Touch.tQF (State.raise s cls type die kind unit payload) s := by
  simp only [State.raise]
  (repeat' split) <;> simp [Touch.tQF]
@[simp] theorem State.raiseFrom_frame (s : State) (src cls type die kind unit : Nat) (payload : List Byte)  : Touch.tQF (State.raiseFrom s src cls type die kind unit payload) s := by
  simp only [State.raiseFrom]
  (repeat' split) <;> simp [Touch.tQF]
@[simp] theorem State.route_frame (s : State) (source : Nat)  : Touch.tC (State.route s source) s := by
  simp only [State.route]
  (repeat' split) <;> simp [Touch.tC]
@[simp] theorem State.raiseCtrl_frame (s : State) (cls type c : Nat) (payload : List Byte)  : Touch.tQF (State.raiseCtrl s cls type c payload) s := by
  simp only [State.raiseCtrl]
  (repeat' split) <;> simp [Touch.tQF]
@[simp] theorem State.unitLeft_frame (s : State) (kind unit cause : Nat)  : Touch.tQF (State.unitLeft s kind unit cause) s := by
  simp only [State.unitLeft]
  (repeat' split) <;> simp [Touch.tQF]
@[simp] theorem State.countOuter_frame (s : State) (c : Nat)  : Touch.tMQF (State.countOuter s c) s := by
  simp only [State.countOuter]
  (repeat' split) <;> simp [Touch.tMQF]
@[simp] theorem State.countInner_frame (s : State) (c n : Nat)  : Touch.tMQF (State.countInner s c n) s := by
  simp only [State.countInner]
  (repeat' split) <;> simp [Touch.tMQF]
@[simp] theorem State.uncorrectable_frame (s : State) (cw c finder : Nat)  : Touch.tMQF (State.uncorrectable s cw c finder) s := by
  simp only [State.uncorrectable]
  (repeat' split) <;> simp [Touch.tMQF]
@[simp] theorem State.readCodeword_frame (s : State) (cw finder : Nat) (requester : Bool)  : Touch.tMQF (State.readCodeword s cw finder requester).1 s := by
  simp only [State.readCodeword]
  (repeat' split) <;> simp [Touch.tMQF]
@[simp] theorem State.writeCodeword_frame (s : State) (a : Nat) (bs : List Byte)  : Touch.tMQF (State.writeCodeword s a bs).1 s := by
  simp only [State.writeCodeword]
  (repeat' split) <;> simp [Touch.tMQF]
@[simp] theorem State.readPieces_frame (s : State) (finder : Nat) (ps : List (Nat × Nat))  : Touch.tMQF (State.readPieces s finder ps).1 s := by
  simp only [State.readPieces]
  (repeat' split) <;> simp [Touch.tMQF]
@[simp] theorem State.writePieces_frame (s : State) (a : Nat) (bs : List Byte) (ps : List (Nat × Nat))  : Touch.tMQF (State.writePieces s a bs ps).1 s := by
  simp only [State.writePieces]
  (repeat' split) <;> simp [Touch.tMQF]
@[simp] theorem State.countAccess_frame (s : State) (a die : Nat) (write : Bool)  : Touch.tQGF (State.countAccess s a die write) s := by
  simp only [State.countAccess]
  (repeat' split) <;> simp [Touch.tQGF]
@[simp] theorem State.countSpan_frame (s : State) (a n die : Nat) (write : Bool)  : Touch.tQGF (State.countSpan s a n die write) s := by
  simp only [State.countSpan]
  (repeat' split) <;> simp [Touch.tQGF]
@[simp] theorem State.readMemBy_frame (count : Bool) (s : State) (a n die : Nat)  : Touch.tMQGF (State.readMemBy count s a n die).st s := by
  simp only [State.readMemBy]
  (repeat' split) <;> simp [Touch.tMQGF]
@[simp] theorem State.readMem_frame (s : State) (a n die : Nat)  : Touch.tMQGF (State.readMem s a n die).st s := by
  simp only [State.readMem]
  (repeat' split) <;> simp [Touch.tMQGF]
@[simp] theorem State.writeMemBy_frame (count : Bool) (s : State) (a : Nat) (bs : List Byte) (die : Nat)  : Touch.tMQGF (State.writeMemBy count s a bs die).st s := by
  simp only [State.writeMemBy]
  (repeat' split) <;> simp [Touch.tMQGF]
@[simp] theorem State.writeMem_frame (s : State) (a : Nat) (bs : List Byte) (die : Nat)  : Touch.tMQGF (State.writeMem s a bs die).st s := by
  simp only [State.writeMem]
  (repeat' split) <;> simp [Touch.tMQGF]
@[simp] theorem State.undefinedSpan_frame (s : State) (a n : Nat)  : Touch.tMF (State.undefinedSpan s a n) s := by
  simp only [State.undefinedSpan]
  (repeat' split) <;> simp [Touch.tMF]

/-! ### TileOps -/

@[simp] theorem State.setTile_frame (s : State) (t : TileId) (x : Tile)  : Touch.tT (State.setTile s t x) s := by
  simp only [State.setTile]
  (repeat' split) <;> simp [Touch.tT]
@[simp] theorem State.putTile_frame (s : State) (t : TileId) (x : Tile)  : Touch.tTXQF (State.putTile s t x) s := by
  simp only [State.putTile]
  (repeat' split) <;> simp [Touch.tTXQF]

/-! ### Bells -/

@[simp] theorem State.bellFault_frame (s : State) (b cause : Nat)  : Touch.tQF (State.bellFault s b cause) s := by
  simp only [State.bellFault]
  (repeat' split) <;> simp [Touch.tQF]
@[simp] theorem State.bellCheck_frame (s : State) (b : Nat)  : Touch.tBQEF (State.bellCheck s b) s := by
  simp only [State.bellCheck]
  (repeat' split) <;> simp [Touch.tBQEF]
@[simp] theorem State.ringBell_frame (s : State) (b : Nat) (n : W64) (kind : BitVec 3) (unit : Byte) (scope : Scope)  : Touch.tBQEF (State.ringBell s b n kind unit scope) s := by
  simp only [State.ringBell]
  (repeat' split) <;> simp [Touch.tBQEF]
@[simp] theorem State.setBellCount_frame (s : State) (b : Nat) (v : W64)  : Touch.tBE (State.setBellCount s b v) s := by
  simp only [State.setBellCount]
  (repeat' split) <;> simp [Touch.tBE]
@[simp] theorem State.judge_frame (s : State) (b : Nat) (a : Acquirer) (scope : Scope)  : Touch.tBQF (State.judge s b a scope) s := by
  simp only [State.judge]
  (repeat' split) <;> simp [Touch.tBQF]
@[simp] theorem State.evalWait_frame (s : State) (t : TileId)  : Touch.tTBXQEF (State.evalWait s t) s := by
  simp only [State.evalWait]
  (repeat' split) <;> simp [Touch.tTBXQEF]
@[simp] theorem State.acquire_frame (s : State) (b : Nat) (thresh : Nat) (a : Acquirer)  : Touch.tBQEF (State.acquire s b thresh a).1 s := by
  simp only [State.acquire]
  (repeat' split) <;> simp [Touch.tBQEF]
@[simp] theorem State.evalWaits_frame (s : State) (die : Nat)  : Touch.tTBXQEF (State.evalWaits s die) s := by
  simp only [State.evalWaits]
  (repeat' split) <;> simp [Touch.tTBXQEF]
@[simp] theorem State.fireRing_frame (s : State) (t : TileId)  : Touch.tTBXQEF (State.fireRing s t) s := by
  simp only [State.fireRing]
  (repeat' split) <;> simp [Touch.tTBXQEF]
@[simp] theorem State.batchRing_frame (s : State) (die : Nat) (op : BellOp)  : Touch.tTBXQEF (State.batchRing s die op) s := by
  simp only [State.batchRing]
  (repeat' split) <;> simp [Touch.tTBXQEF]
@[simp] theorem State.batchSet_frame (s : State) (die : Nat) (op : BellOp)  : Touch.tBE (State.batchSet s die op) s := by
  simp only [State.batchSet]
  (repeat' split) <;> simp [Touch.tBE]
@[simp] theorem State.batch_frame (s : State) (die : Nat) (ops : List BellOp)  : Touch.tTBXQEF (State.batch s die ops) s := by
  simp only [State.batch]
  (repeat' split) <;> simp [Touch.tTBXQEF]
theorem execSet_frame (b : BellId) (v : W64) (s : State) {post : State} (h : execSet b v s = .next post) : Touch.tTBXQEF post s := by
  simp only [execSet, Host.Outcome.next.injEq] at h
  subst h
  (repeat' split) <;> simp [Touch.tTBXQEF]
theorem execRingRegisterWrite_frame (c : CoreId) (b : BellId) (n : W64) (s : State) {post : State} (h : execRingRegisterWrite c b n s = .next post) : Touch.tTBXQEF post s := by
  simp only [execRingRegisterWrite, Host.Outcome.next.injEq] at h
  subst h
  (repeat' split) <;> simp [Touch.tTBXQEF]
theorem execRingFire_frame (t : TileId) (s : State) {post : State} (h : execRingFire t s = .next post) : Touch.tTBXQEF post s := by
  simp only [execRingFire] at h
  (repeat' split at h) <;> (simp only [Host.Outcome.next.injEq] at h; subst h; (repeat' split) <;> simp [Touch.tTBXQEF])
theorem execBellBatch_frame (die : ADie) (ops : List BellOp) (s : State) {post : State} (h : execBellBatch die ops s = .next post) : Touch.tTBXQEF post s := by
  simp only [execBellBatch, Host.Outcome.next.injEq] at h
  subst h
  (repeat' split) <;> simp [Touch.tTBXQEF]

/-! ### Sequencer -/

@[simp] theorem State.seqRun_frame (s : State) (t : TileId) (k : Tok) (bad : Option W32) (next : Nat) (f : Tile → Tile)  : Touch.tTXQF (State.seqRun s t k bad next f) s := by
  simp only [State.seqRun]
  (repeat' split) <;> simp [Touch.tTXQF]
@[simp] theorem State.seqPlain_frame (s : State) (t : TileId) (k : Tok) (f : Tile → Tile)  : Touch.tTXQF (State.seqPlain s t k f) s := by
  simp only [State.seqPlain]
  (repeat' split) <;> simp [Touch.tTXQF]
@[simp] theorem State.seqAlu_frame (s : State) (t : TileId) (k : Tok) (op : AluOp) (sd sa sb : Nat)  : Touch.tTXQF (State.seqAlu s t k op sd sa sb) s := by
  simp only [State.seqAlu]
  (repeat' split) <;> simp [Touch.tTXQF]
@[simp] theorem State.seqHalt_frame (s : State) (t : TileId) (k : Tok)  : Touch.tTXQF (State.seqHalt s t k) s := by
  simp only [State.seqHalt]
  (repeat' split) <;> simp [Touch.tTXQF]
@[simp] theorem State.seqAddi_frame (s : State) (t : TileId) (k : Tok) (sd sa : Nat) (imm : W32)  : Touch.tTXQF (State.seqAddi s t k sd sa imm) s := by
  simp only [State.seqAddi]
  (repeat' split) <;> simp [Touch.tTXQF]
@[simp] theorem State.seqLi_frame (s : State) (t : TileId) (k : Tok) (sd : Nat) (imm : W32)  : Touch.tTXQF (State.seqLi s t k sd imm) s := by
  simp only [State.seqLi]
  (repeat' split) <;> simp [Touch.tTXQF]
@[simp] theorem State.seqHi_frame (s : State) (t : TileId) (k : Tok) (sd : Nat) (imm : W32)  : Touch.tTXQF (State.seqHi s t k sd imm) s := by
  simp only [State.seqHi]
  (repeat' split) <;> simp [Touch.tTXQF]
@[simp] theorem State.seqLd_frame (s : State) (t : TileId) (k : Tok) (sd sa : Nat) (imm : W32)  : Touch.tTXQF (State.seqLd s t k sd sa imm) s := by
  simp only [State.seqLd]
  (repeat' split) <;> simp [Touch.tTXQF]
@[simp] theorem State.seqSt_frame (s : State) (t : TileId) (k : Tok) (sa sb : Nat) (imm : W32)  : Touch.tTXQF (State.seqSt s t k sa sb imm) s := by
  simp only [State.seqSt]
  (repeat' split) <;> simp [Touch.tTXQF]
@[simp] theorem State.seqJmp_frame (s : State) (t : TileId) (k : Tok) (imm : W32)  : Touch.tTXQF (State.seqJmp s t k imm) s := by
  simp only [State.seqJmp]
  (repeat' split) <;> simp [Touch.tTXQF]
@[simp] theorem State.seqBranch_frame (s : State) (t : TileId) (k : Tok) (c : Cond) (sa sb : Nat) (imm : W32)  : Touch.tTXQF (State.seqBranch s t k c sa sb imm) s := by
  simp only [State.seqBranch]
  (repeat' split) <;> simp [Touch.tTXQF]
@[simp] theorem State.seqRing_frame (s : State) (t : TileId) (k : Tok) (bell : Nat) (scope : Scope) (qmask : BitVec 3) (n : RingN)  : Touch.tTXQF (State.seqRing s t k bell scope qmask n) s := by
  simp only [State.seqRing]
  (repeat' split) <;> simp [Touch.tTXQF]
@[simp] theorem State.seqWait_frame (s : State) (t : TileId) (k : Tok) (bell : Nat) (scope : Scope) (treg : Nat)  : Touch.tTBXQEF (State.seqWait s t k bell scope treg) s := by
  simp only [State.seqWait]
  (repeat' split) <;> simp [Touch.tTBXQEF]
@[simp] theorem State.seqFence_frame (s : State) (t : TileId) (k : Tok) (qmask : BitVec 3)  : Touch.tTXQF (State.seqFence s t k qmask) s := by
  simp only [State.seqFence]
  (repeat' split) <;> simp [Touch.tTXQF]
@[simp] theorem State.seqFlags_frame (s : State) (t : TileId) (k : Tok) (sd : Nat) (clear : BitVec 7)  : Touch.tTXQF (State.seqFlags s t k sd clear) s := by
  simp only [State.seqFlags]
  (repeat' split) <;> simp [Touch.tTXQF]
@[simp] theorem State.seqTally_frame (s : State) (t : TileId) (k : Tok) (sd : Nat)  : Touch.tTXQF (State.seqTally s t k sd) s := by
  simp only [State.seqTally]
  (repeat' split) <;> simp [Touch.tTXQF]
@[simp] theorem State.seqExec_frame (s : State) (t : TileId) (k : Tok) (o : SeqOp)  : Touch.tTBXQEF (State.seqExec s t k o) s := by
  simp only [State.seqExec]
  (repeat' split) <;> simp [Touch.tTBXQEF]
theorem execInstructionFetch_frame (t : TileId) (s : State) {post : State} (h : execInstructionFetch t s = .next post) : Touch.tTBXQEF post s := by
  simp only [execInstructionFetch] at h
  (repeat' split at h) <;> (simp only [Host.Outcome.next.injEq] at h; subst h; (repeat' split) <;> simp [Touch.tTBXQEF])
theorem execNop_frame (t : TileId) (k : Tok) (s : State) {post : State} (h : execNop t k s = .next post) : Touch.tTXQF post s := by
  simp only [execNop, Host.Outcome.next.injEq] at h
  subst h
  (repeat' split) <;> simp [Touch.tTXQF]
theorem execHalt_frame (t : TileId) (k : Tok) (s : State) {post : State} (h : execHalt t k s = .next post) : Touch.tTXQF post s := by
  simp only [execHalt, Host.Outcome.next.injEq] at h
  subst h
  (repeat' split) <;> simp [Touch.tTXQF]
theorem execSadd_frame (t : TileId) (k : Tok) (sd sa sb : Fin 32) (s : State) {post : State} (h : execSadd t k sd sa sb s = .next post) : Touch.tTXQF post s := by
  simp only [execSadd, Host.Outcome.next.injEq] at h
  subst h
  (repeat' split) <;> simp [Touch.tTXQF]
theorem execSsub_frame (t : TileId) (k : Tok) (sd sa sb : Fin 32) (s : State) {post : State} (h : execSsub t k sd sa sb s = .next post) : Touch.tTXQF post s := by
  simp only [execSsub, Host.Outcome.next.injEq] at h
  subst h
  (repeat' split) <;> simp [Touch.tTXQF]
theorem execSand_frame (t : TileId) (k : Tok) (sd sa sb : Fin 32) (s : State) {post : State} (h : execSand t k sd sa sb s = .next post) : Touch.tTXQF post s := by
  simp only [execSand, Host.Outcome.next.injEq] at h
  subst h
  (repeat' split) <;> simp [Touch.tTXQF]
theorem execSor_frame (t : TileId) (k : Tok) (sd sa sb : Fin 32) (s : State) {post : State} (h : execSor t k sd sa sb s = .next post) : Touch.tTXQF post s := by
  simp only [execSor, Host.Outcome.next.injEq] at h
  subst h
  (repeat' split) <;> simp [Touch.tTXQF]
theorem execSxor_frame (t : TileId) (k : Tok) (sd sa sb : Fin 32) (s : State) {post : State} (h : execSxor t k sd sa sb s = .next post) : Touch.tTXQF post s := by
  simp only [execSxor, Host.Outcome.next.injEq] at h
  subst h
  (repeat' split) <;> simp [Touch.tTXQF]
theorem execSshl_frame (t : TileId) (k : Tok) (sd sa sb : Fin 32) (s : State) {post : State} (h : execSshl t k sd sa sb s = .next post) : Touch.tTXQF post s := by
  simp only [execSshl, Host.Outcome.next.injEq] at h
  subst h
  (repeat' split) <;> simp [Touch.tTXQF]
theorem execSshr_frame (t : TileId) (k : Tok) (sd sa sb : Fin 32) (s : State) {post : State} (h : execSshr t k sd sa sb s = .next post) : Touch.tTXQF post s := by
  simp only [execSshr, Host.Outcome.next.injEq] at h
  subst h
  (repeat' split) <;> simp [Touch.tTXQF]
theorem execSmul_frame (t : TileId) (k : Tok) (sd sa sb : Fin 32) (s : State) {post : State} (h : execSmul t k sd sa sb s = .next post) : Touch.tTXQF post s := by
  simp only [execSmul, Host.Outcome.next.injEq] at h
  subst h
  (repeat' split) <;> simp [Touch.tTXQF]
theorem execSaddi_frame (t : TileId) (k : Tok) (sd sa : Fin 32) (imm : W32) (s : State) {post : State} (h : execSaddi t k sd sa imm s = .next post) : Touch.tTXQF post s := by
  simp only [execSaddi, Host.Outcome.next.injEq] at h
  subst h
  (repeat' split) <;> simp [Touch.tTXQF]
theorem execSli_frame (t : TileId) (k : Tok) (sd : Fin 32) (imm : W32) (s : State) {post : State} (h : execSli t k sd imm s = .next post) : Touch.tTXQF post s := by
  simp only [execSli, Host.Outcome.next.injEq] at h
  subst h
  (repeat' split) <;> simp [Touch.tTXQF]
theorem execShi_frame (t : TileId) (k : Tok) (sd : Fin 32) (imm : W32) (s : State) {post : State} (h : execShi t k sd imm s = .next post) : Touch.tTXQF post s := by
  simp only [execShi, Host.Outcome.next.injEq] at h
  subst h
  (repeat' split) <;> simp [Touch.tTXQF]
theorem execSld_frame (t : TileId) (k : Tok) (sd sa : Fin 32) (imm : W32) (s : State) {post : State} (h : execSld t k sd sa imm s = .next post) : Touch.tTXQF post s := by
  simp only [execSld, Host.Outcome.next.injEq] at h
  subst h
  (repeat' split) <;> simp [Touch.tTXQF]
theorem execSst_frame (t : TileId) (k : Tok) (sa sb : Fin 32) (imm : W32) (s : State) {post : State} (h : execSst t k sa sb imm s = .next post) : Touch.tTXQF post s := by
  simp only [execSst, Host.Outcome.next.injEq] at h
  subst h
  (repeat' split) <;> simp [Touch.tTXQF]
theorem execBeq_frame (t : TileId) (k : Tok) (sa sb : Fin 32) (imm : W32) (s : State) {post : State} (h : execBeq t k sa sb imm s = .next post) : Touch.tTXQF post s := by
  simp only [execBeq, Host.Outcome.next.injEq] at h
  subst h
  (repeat' split) <;> simp [Touch.tTXQF]
theorem execBne_frame (t : TileId) (k : Tok) (sa sb : Fin 32) (imm : W32) (s : State) {post : State} (h : execBne t k sa sb imm s = .next post) : Touch.tTXQF post s := by
  simp only [execBne, Host.Outcome.next.injEq] at h
  subst h
  (repeat' split) <;> simp [Touch.tTXQF]
theorem execBlt_frame (t : TileId) (k : Tok) (sa sb : Fin 32) (imm : W32) (s : State) {post : State} (h : execBlt t k sa sb imm s = .next post) : Touch.tTXQF post s := by
  simp only [execBlt, Host.Outcome.next.injEq] at h
  subst h
  (repeat' split) <;> simp [Touch.tTXQF]
theorem execBltu_frame (t : TileId) (k : Tok) (sa sb : Fin 32) (imm : W32) (s : State) {post : State} (h : execBltu t k sa sb imm s = .next post) : Touch.tTXQF post s := by
  simp only [execBltu, Host.Outcome.next.injEq] at h
  subst h
  (repeat' split) <;> simp [Touch.tTXQF]
theorem execJmp_frame (t : TileId) (k : Tok) (imm : W32) (s : State) {post : State} (h : execJmp t k imm s = .next post) : Touch.tTXQF post s := by
  simp only [execJmp, Host.Outcome.next.injEq] at h
  subst h
  (repeat' split) <;> simp [Touch.tTXQF]
theorem execRing_frame (t : TileId) (k : Tok) (bell : BitVec 12) (scope : Scope) (qmask : BitVec 3) (n : RingN) (s : State) {post : State} (h : execRing t k bell scope qmask n s = .next post) : Touch.tTXQF post s := by
  simp only [execRing, Host.Outcome.next.injEq] at h
  subst h
  (repeat' split) <;> simp [Touch.tTXQF]
theorem execWait_frame (t : TileId) (k : Tok) (bell : BitVec 12) (scope : Scope) (treg : Fin 32) (s : State) {post : State} (h : execWait t k bell scope treg s = .next post) : Touch.tTBXQEF post s := by
  simp only [execWait, Host.Outcome.next.injEq] at h
  subst h
  (repeat' split) <;> simp [Touch.tTBXQEF]
theorem execFence_frame (t : TileId) (k : Tok) (_scope : Scope) (qmask : BitVec 3) (s : State) {post : State} (h : execFence t k _scope qmask s = .next post) : Touch.tTXQF post s := by
  simp only [execFence, Host.Outcome.next.injEq] at h
  subst h
  (repeat' split) <;> simp [Touch.tTXQF]
theorem execFlags_frame (t : TileId) (k : Tok) (sd : Fin 32) (clear : BitVec 7) (s : State) {post : State} (h : execFlags t k sd clear s = .next post) : Touch.tTXQF post s := by
  simp only [execFlags, Host.Outcome.next.injEq] at h
  subst h
  (repeat' split) <;> simp [Touch.tTXQF]
theorem execTally_frame (t : TileId) (k : Tok) (sd : Fin 32) (s : State) {post : State} (h : execTally t k sd s = .next post) : Touch.tTXQF post s := by
  simp only [execTally, Host.Outcome.next.injEq] at h
  subst h
  (repeat' split) <;> simp [Touch.tTXQF]
theorem execTileStop_frame (t : TileId) (s : State) {post : State} (h : execTileStop t s = .next post) : Touch.tTXQF post s := by
  simp only [execTileStop, Host.Outcome.next.injEq] at h
  subst h
  (repeat' split) <;> simp [Touch.tTXQF]
theorem execTileProgramEnd_frame (t : TileId) (s : State) {post : State} (h : execTileProgramEnd t s = .next post) : Touch.tT post s := by
  simp only [execTileProgramEnd, Host.Outcome.next.injEq] at h
  subst h
  (repeat' split) <;> simp [Touch.tT]

/-! ### Engine -/

@[simp] theorem State.start_frame (s : State) (t : TileId) (e : Engine) (want : EngOp → Bool)  : Touch.tTXQF (State.start s t e want) s := by
  simp only [State.start]
  (repeat' split) <;> simp [Touch.tTXQF]
@[simp] theorem State.tileChanged_frame (s : State) (t : TileId) (old : TileHealth)  : Touch.tQF (State.tileChanged s t old) s := by
  simp only [State.tileChanged]
  (repeat' split) <;> simp [Touch.tQF]
@[simp] theorem State.parityError_frame (s : State) (t : TileId) (h : QEntry) (bank : Bool) (x : Tile)  : Touch.tTXQF (State.parityError s t h bank x) s := by
  simp only [State.parityError]
  (repeat' split) <;> simp [Touch.tTXQF]
@[simp] theorem State.startParity_frame (s : State) (t : TileId) (want : EngOp → Bool)  : Touch.tTXQF (State.startParity s t want) s := by
  simp only [State.startParity]
  (repeat' split) <;> simp [Touch.tTXQF]
@[simp] theorem State.startVec_frame (s : State) (t : TileId) (v : VOp)  : Touch.tTXQF (State.startVec s t v) s := by
  simp only [State.startVec]
  (repeat' split) <;> simp [Touch.tTXQF]
theorem execMma_frame (t : TileId) (parity : Bool) (s : State) {post : State} (h : execMma t parity s = .next post) : Touch.tTXQF post s := by
  simp only [execMma, Host.Outcome.next.injEq] at h
  subst h
  (repeat' split) <;> simp [Touch.tTXQF]
theorem execDrain_frame (t : TileId) (parity : Bool) (s : State) {post : State} (h : execDrain t parity s = .next post) : Touch.tTXQF post s := by
  simp only [execDrain, Host.Outcome.next.injEq] at h
  subst h
  (repeat' split) <;> simp [Touch.tTXQF]
theorem execSclr_frame (t : TileId) (s : State) {post : State} (h : execSclr t s = .next post) : Touch.tTXQF post s := by
  simp only [execSclr, Host.Outcome.next.injEq] at h
  subst h
  (repeat' split) <;> simp [Touch.tTXQF]
theorem execSsto_frame (t : TileId) (s : State) {post : State} (h : execSsto t s = .next post) : Touch.tTXQF post s := by
  simp only [execSsto, Host.Outcome.next.injEq] at h
  subst h
  (repeat' split) <;> simp [Touch.tTXQF]
theorem execSeed_frame (t : TileId) (s : State) {post : State} (h : execSeed t s = .next post) : Touch.tTXQF post s := by
  simp only [execSeed, Host.Outcome.next.injEq] at h
  subst h
  (repeat' split) <;> simp [Touch.tTXQF]
theorem execVadd_frame (t : TileId) (s : State) {post : State} (h : execVadd t s = .next post) : Touch.tTXQF post s := by
  simp only [execVadd, Host.Outcome.next.injEq] at h
  subst h
  (repeat' split) <;> simp [Touch.tTXQF]
theorem execVsub_frame (t : TileId) (s : State) {post : State} (h : execVsub t s = .next post) : Touch.tTXQF post s := by
  simp only [execVsub, Host.Outcome.next.injEq] at h
  subst h
  (repeat' split) <;> simp [Touch.tTXQF]
theorem execVmul_frame (t : TileId) (s : State) {post : State} (h : execVmul t s = .next post) : Touch.tTXQF post s := by
  simp only [execVmul, Host.Outcome.next.injEq] at h
  subst h
  (repeat' split) <;> simp [Touch.tTXQF]
theorem execVfma_frame (t : TileId) (s : State) {post : State} (h : execVfma t s = .next post) : Touch.tTXQF post s := by
  simp only [execVfma, Host.Outcome.next.injEq] at h
  subst h
  (repeat' split) <;> simp [Touch.tTXQF]
theorem execVfnma_frame (t : TileId) (s : State) {post : State} (h : execVfnma t s = .next post) : Touch.tTXQF post s := by
  simp only [execVfnma, Host.Outcome.next.injEq] at h
  subst h
  (repeat' split) <;> simp [Touch.tTXQF]
theorem execVmin_frame (t : TileId) (s : State) {post : State} (h : execVmin t s = .next post) : Touch.tTXQF post s := by
  simp only [execVmin, Host.Outcome.next.injEq] at h
  subst h
  (repeat' split) <;> simp [Touch.tTXQF]
theorem execVmax_frame (t : TileId) (s : State) {post : State} (h : execVmax t s = .next post) : Touch.tTXQF post s := by
  simp only [execVmax, Host.Outcome.next.injEq] at h
  subst h
  (repeat' split) <;> simp [Touch.tTXQF]
theorem execVabs_frame (t : TileId) (s : State) {post : State} (h : execVabs t s = .next post) : Touch.tTXQF post s := by
  simp only [execVabs, Host.Outcome.next.injEq] at h
  subst h
  (repeat' split) <;> simp [Touch.tTXQF]
theorem execVneg_frame (t : TileId) (s : State) {post : State} (h : execVneg t s = .next post) : Touch.tTXQF post s := by
  simp only [execVneg, Host.Outcome.next.injEq] at h
  subst h
  (repeat' split) <;> simp [Touch.tTXQF]
theorem execVdiv_frame (t : TileId) (s : State) {post : State} (h : execVdiv t s = .next post) : Touch.tTXQF post s := by
  simp only [execVdiv, Host.Outcome.next.injEq] at h
  subst h
  (repeat' split) <;> simp [Touch.tTXQF]
theorem execVsqrt_frame (t : TileId) (s : State) {post : State} (h : execVsqrt t s = .next post) : Touch.tTXQF post s := by
  simp only [execVsqrt, Host.Outcome.next.injEq] at h
  subst h
  (repeat' split) <;> simp [Touch.tTXQF]
theorem execVcmplt_frame (t : TileId) (s : State) {post : State} (h : execVcmplt t s = .next post) : Touch.tTXQF post s := by
  simp only [execVcmplt, Host.Outcome.next.injEq] at h
  subst h
  (repeat' split) <;> simp [Touch.tTXQF]
theorem execVcmpeq_frame (t : TileId) (s : State) {post : State} (h : execVcmpeq t s = .next post) : Touch.tTXQF post s := by
  simp only [execVcmpeq, Host.Outcome.next.injEq] at h
  subst h
  (repeat' split) <;> simp [Touch.tTXQF]
theorem execVclass_frame (t : TileId) (s : State) {post : State} (h : execVclass t s = .next post) : Touch.tTXQF post s := by
  simp only [execVclass, Host.Outcome.next.injEq] at h
  subst h
  (repeat' split) <;> simp [Touch.tTXQF]
theorem execVsel_frame (t : TileId) (s : State) {post : State} (h : execVsel t s = .next post) : Touch.tTXQF post s := by
  simp only [execVsel, Host.Outcome.next.injEq] at h
  subst h
  (repeat' split) <;> simp [Touch.tTXQF]
theorem execVbcast_frame (t : TileId) (s : State) {post : State} (h : execVbcast t s = .next post) : Touch.tTXQF post s := by
  simp only [execVbcast, Host.Outcome.next.injEq] at h
  subst h
  (repeat' split) <;> simp [Touch.tTXQF]
theorem execVld_frame (t : TileId) (s : State) {post : State} (h : execVld t s = .next post) : Touch.tTXQF post s := by
  simp only [execVld, Host.Outcome.next.injEq] at h
  subst h
  (repeat' split) <;> simp [Touch.tTXQF]
theorem execVst_frame (t : TileId) (s : State) {post : State} (h : execVst t s = .next post) : Touch.tTXQF post s := by
  simp only [execVst, Host.Outcome.next.injEq] at h
  subst h
  (repeat' split) <;> simp [Touch.tTXQF]
theorem execVrsum_frame (t : TileId) (s : State) {post : State} (h : execVrsum t s = .next post) : Touch.tTXQF post s := by
  simp only [execVrsum, Host.Outcome.next.injEq] at h
  subst h
  (repeat' split) <;> simp [Touch.tTXQF]
theorem execVrmax_frame (t : TileId) (s : State) {post : State} (h : execVrmax t s = .next post) : Touch.tTXQF post s := by
  simp only [execVrmax, Host.Outcome.next.injEq] at h
  subst h
  (repeat' split) <;> simp [Touch.tTXQF]
theorem execViadd_frame (t : TileId) (s : State) {post : State} (h : execViadd t s = .next post) : Touch.tTXQF post s := by
  simp only [execViadd, Host.Outcome.next.injEq] at h
  subst h
  (repeat' split) <;> simp [Touch.tTXQF]
theorem execVisub_frame (t : TileId) (s : State) {post : State} (h : execVisub t s = .next post) : Touch.tTXQF post s := by
  simp only [execVisub, Host.Outcome.next.injEq] at h
  subst h
  (repeat' split) <;> simp [Touch.tTXQF]
theorem execVimul_frame (t : TileId) (s : State) {post : State} (h : execVimul t s = .next post) : Touch.tTXQF post s := by
  simp only [execVimul, Host.Outcome.next.injEq] at h
  subst h
  (repeat' split) <;> simp [Touch.tTXQF]
theorem execVand_frame (t : TileId) (s : State) {post : State} (h : execVand t s = .next post) : Touch.tTXQF post s := by
  simp only [execVand, Host.Outcome.next.injEq] at h
  subst h
  (repeat' split) <;> simp [Touch.tTXQF]
theorem execVor_frame (t : TileId) (s : State) {post : State} (h : execVor t s = .next post) : Touch.tTXQF post s := by
  simp only [execVor, Host.Outcome.next.injEq] at h
  subst h
  (repeat' split) <;> simp [Touch.tTXQF]
theorem execVxor_frame (t : TileId) (s : State) {post : State} (h : execVxor t s = .next post) : Touch.tTXQF post s := by
  simp only [execVxor, Host.Outcome.next.injEq] at h
  subst h
  (repeat' split) <;> simp [Touch.tTXQF]
theorem execVshl_frame (t : TileId) (s : State) {post : State} (h : execVshl t s = .next post) : Touch.tTXQF post s := by
  simp only [execVshl, Host.Outcome.next.injEq] at h
  subst h
  (repeat' split) <;> simp [Touch.tTXQF]
theorem execVshr_frame (t : TileId) (s : State) {post : State} (h : execVshr t s = .next post) : Touch.tTXQF post s := by
  simp only [execVshr, Host.Outcome.next.injEq] at h
  subst h
  (repeat' split) <;> simp [Touch.tTXQF]
theorem execVshra_frame (t : TileId) (s : State) {post : State} (h : execVshra t s = .next post) : Touch.tTXQF post s := by
  simp only [execVshra, Host.Outcome.next.injEq] at h
  subst h
  (repeat' split) <;> simp [Touch.tTXQF]
theorem execVcvtif_frame (t : TileId) (s : State) {post : State} (h : execVcvtif t s = .next post) : Touch.tTXQF post s := by
  simp only [execVcvtif, Host.Outcome.next.injEq] at h
  subst h
  (repeat' split) <;> simp [Touch.tTXQF]
theorem execVcvtfi_frame (t : TileId) (s : State) {post : State} (h : execVcvtfi t s = .next post) : Touch.tTXQF post s := by
  simp only [execVcvtfi, Host.Outcome.next.injEq] at h
  subst h
  (repeat' split) <;> simp [Touch.tTXQF]
theorem execVmov_frame (t : TileId) (s : State) {post : State} (h : execVmov t s = .next post) : Touch.tTXQF post s := by
  simp only [execVmov, Host.Outcome.next.injEq] at h
  subst h
  (repeat' split) <;> simp [Touch.tTXQF]
theorem execMsub_frame (t : TileId) (s : State) {post : State} (h : execMsub t s = .next post) : Touch.tTXQF post s := by
  simp only [execMsub, Host.Outcome.next.injEq] at h
  subst h
  (repeat' split) <;> simp [Touch.tTXQF]
theorem execInstructionCompletion_frame (t : TileId) (e : Engine) (idx : Nat) (s : State) {post : State} (h : execInstructionCompletion t e idx s = .next post) : Touch.tTXQF post s := by
  simp only [execInstructionCompletion, Host.Outcome.next.injEq] at h
  subst h
  (repeat' split) <;> simp [Touch.tTXQF]
theorem execSrSeedWrite_frame (t : TileId) (v : W64) (s : State) {post : State} (h : execSrSeedWrite t v s = .next post) : Touch.tTE post s := by
  simp only [execSrSeedWrite, Host.Outcome.next.injEq] at h
  subst h
  (repeat' split) <;> simp [Touch.tTE]

@[simp] theorem execSrSeedWrite_after (t : TileId) (v : W64) (s : State) : Touch.tTE (s.after (execSrSeedWrite t v)) s := by
  unfold State.after
  split
  · exact execSrSeedWrite_frame _ _ _  ‹_›
  · simp [Touch.tTE]
  · simp [Touch.tTE]
theorem execTileClearEnd_frame (t : TileId) (s : State) {post : State} (h : execTileClearEnd t s = .next post) : Touch.tT post s := by
  simp only [execTileClearEnd, Host.Outcome.next.injEq] at h
  subst h
  (repeat' split) <;> simp [Touch.tT]

/-! ### Translate -/

@[simp] theorem State.readProcess_frame (s : State) (die device process : Nat) (tc fsc : W64)  : Touch.tMQGF (State.readProcess s die device process tc fsc).1 s := by
  simp only [State.readProcess]
  (repeat' split) <;> simp [Touch.tMQGF]
@[simp] theorem State.readCtx_frame (s : State) (die : Nat) (ctx : W32)  : Touch.tMQGF (State.readCtx s die ctx).1 s := by
  simp only [State.readCtx]
  (repeat' split) <;> simp [Touch.tMQGF]
@[simp] theorem State.context_frame (s : State) (die : Nat) (ctx : W32)  : Touch.tMXQGF (State.context s die ctx).1 s := by
  simp only [State.context]
  (repeat' split) <;> simp [Touch.tMXQGF]
@[simp] theorem State.walk_frame (s : State) (die va table : Nat) (level : Nat)  : Touch.tMQGF (State.walk s die va table level).1 s := by
  induction level generalizing s table with
  | zero => simp only [State.walk]; (repeat' split) <;> simp [Touch.tMQGF]
  | succ n ih =>
    simp only [Touch.tMQGF] at ih
    simp only [State.walk]
    (repeat' split) <;> simp [Touch.tMQGF, ih]
@[simp] theorem State.translate_frame (s : State) (die : Nat) (ctx : W32) (va : W64) (write : Bool)  : Touch.tMXQGF (State.translate s die ctx va write).1 s := by
  simp only [State.translate]
  (repeat' split) <;> simp [Touch.tMXQGF]
@[simp] theorem State.launchCtx_frame (s : State) (ctx : W32)  : Touch.tMQGF (State.launchCtx s ctx).1 s := by
  simp only [State.launchCtx]
  (repeat' split) <;> simp [Touch.tMQGF]
@[simp] theorem State.placeFault_frame (s : State) (fid die kind unit : Nat) (ctx locator : W32) (va : W64) (write : Bool) (cause level : Nat) (last : W64)  : Touch.tXQF (State.placeFault s fid die kind unit ctx locator va write cause level last) s := by
  simp only [State.placeFault]
  (repeat' split) <;> simp [Touch.tXQF]
theorem execIoinval_frame (v : W64) (s : State) {post : State} (h : execIoinval v s = .next post) : Touch.tXE post s := by
  simp only [execIoinval] at h
  (repeat' split at h) <;> (simp only [Host.Outcome.next.injEq] at h; subst h; (repeat' split) <;> simp [Touch.tXE])

@[simp] theorem execIoinval_after (v : W64) (s : State) : Touch.tXE (s.after (execIoinval v)) s := by
  unfold State.after
  split
  · exact execIoinval_frame _ _  ‹_›
  · simp [Touch.tXE]
  · simp [Touch.tXE]
theorem execIoinvalComplete_frame (s : State) {post : State} (h : execIoinvalComplete s = .next post) : Touch.tCX post s := by
  simp only [execIoinvalComplete, Host.Outcome.next.injEq] at h
  subst h
  (repeat' split) <;> simp [Touch.tCX]
theorem execUnmapGo_frame (_v : W32) (s : State) {post : State} (h : execUnmapGo _v s = .next post) : Touch.tXE post s := by
  simp only [execUnmapGo] at h
  (repeat' split at h) <;> (simp only [Host.Outcome.next.injEq] at h; subst h; (repeat' split) <;> simp [Touch.tXE])

@[simp] theorem execUnmapGo_after (_v : W32) (s : State) : Touch.tXE (s.after (execUnmapGo _v)) s := by
  unfold State.after
  split
  · exact execUnmapGo_frame _ _  ‹_›
  · simp [Touch.tXE]
  · simp [Touch.tXE]
@[simp] theorem State.bumpGen_frame (s : State) (device : Nat)  : Touch.tX (State.bumpGen s device) s := by
  simp only [State.bumpGen]
  (repeat' split) <;> simp [Touch.tX]
theorem execUnmapPhaseOneComplete_frame (s : State) {post : State} (h : execUnmapPhaseOneComplete s = .next post) : Touch.tTXL post s := by
  simp only [execUnmapPhaseOneComplete] at h
  (repeat' split at h) <;> (simp only [Host.Outcome.next.injEq] at h; subst h; (repeat' split) <;> simp [Touch.tTXL])
theorem execUnmapDrained_frame (s : State) {post : State} (h : execUnmapDrained s = .next post) : Touch.tCX post s := by
  simp only [execUnmapDrained] at h
  (repeat' split at h) <;> (simp only [Host.Outcome.next.injEq] at h; subst h; (repeat' split) <;> simp [Touch.tCX])

/-! ### Move -/

@[simp] theorem State.setDesc_frame (s : State) (t : TileId) (i : Nat) (d : InFlight)  : Touch.tT (State.setDesc s t i d) s := by
  simp only [State.setDesc]
  (repeat' split) <;> simp [Touch.tT]
@[simp] theorem State.descTranslate_frame (s : State) (t : TileId) (i : Nat) (f : InFlight) (k : Kernel) (va : W64) (write : Bool) (span : Nat)  : Touch.tTMXQGEF (State.descTranslate s t i f k va write span) s := by
  simp only [State.descTranslate]
  (repeat' split) <;> simp [Touch.tTMXQGEF]
@[simp] theorem State.descRing_frame (s : State) (t : TileId) (d : Option MoveDesc) (st : W32)  : Touch.tTBXQEF (State.descRing s t d st) s := by
  simp only [State.descRing]
  (repeat' split) <;> simp [Touch.tTBXQEF]
@[simp] theorem State.descFinish_frame (s : State) (t : TileId) (i : Nat) (f : InFlight) (st : W32)  : Touch.tTBXQEF (State.descFinish s t i f st) s := by
  simp only [State.descFinish]
  (repeat' split) <;> simp [Touch.tTBXQEF]
@[simp] theorem State.descAccept_frame (s : State) (t : TileId) (i : Nat) (f : InFlight) (k : Kernel)  : Touch.tTBMXQGEF (State.descAccept s t i f k) s := by
  simp only [State.descAccept]
  (repeat' split) <;> simp [Touch.tTBMXQGEF]
theorem execDescriptorAccept_frame (t : TileId) (s : State) {post : State} (h : execDescriptorAccept t s = .next post) : Touch.tTBMXQGEF post s := by
  simp only [execDescriptorAccept] at h
  (repeat' split at h) <;> (simp only [Host.Outcome.next.injEq] at h; subst h; (repeat' split) <;> simp [Touch.tTBMXQGEF])
@[simp] theorem State.readRows_frame (s : State) (t : TileId) (f : InFlight) (d : MoveDesc)  : Touch.tMQGF (State.readRows s t f d).1 s := by
  simp only [State.readRows]
  (repeat' split) <;> simp [Touch.tMQGF]
@[simp] theorem State.writeRows_frame (s : State) (t : TileId) (f : InFlight) (d : MoveDesc) (rows : List (List Byte))  : Touch.tTMQGF (State.writeRows s t f d rows).1 s := by
  simp only [State.writeRows]
  (repeat' split) <;> simp [Touch.tTMQGF]
@[simp] theorem State.undefinedRows_frame (s : State) (t : TileId) (f : InFlight) (d : MoveDesc)  : Touch.tTMF (State.undefinedRows s t f d) s := by
  simp only [State.undefinedRows]
  (repeat' split) <;> simp [Touch.tTMF]
@[simp] theorem State.transfer_frame (s : State) (t : TileId) (i : Nat) (f : InFlight) (d : MoveDesc)  : Touch.tTMQGF (State.transfer s t i f d) s := by
  simp only [State.transfer]
  (repeat' split) <;> simp [Touch.tTMQGF]
@[simp] theorem State.runDesc_frame (s : State) (t : TileId) (i : Nat) (kind : MoveKind)  : Touch.tTMQGF (State.runDesc s t i kind) s := by
  simp only [State.runDesc]
  (repeat' split) <;> simp [Touch.tTMQGF]
theorem execCopy_frame (t : TileId) (i : Nat) (s : State) {post : State} (h : execCopy t i s = .next post) : Touch.tTMQGF post s := by
  simp only [execCopy, Host.Outcome.next.injEq] at h
  subst h
  (repeat' split) <;> simp [Touch.tTMQGF]
theorem execTranspose_frame (t : TileId) (i : Nat) (s : State) {post : State} (h : execTranspose t i s = .next post) : Touch.tTMQGF post s := by
  simp only [execTranspose, Host.Outcome.next.injEq] at h
  subst h
  (repeat' split) <;> simp [Touch.tTMQGF]
theorem execFill_frame (t : TileId) (i : Nat) (s : State) {post : State} (h : execFill t i s = .next post) : Touch.tTMQGF post s := by
  simp only [execFill, Host.Outcome.next.injEq] at h
  subst h
  (repeat' split) <;> simp [Touch.tTMQGF]
theorem execInline_frame (t : TileId) (i : Nat) (s : State) {post : State} (h : execInline t i s = .next post) : Touch.tTMQGF post s := by
  simp only [execInline, Host.Outcome.next.injEq] at h
  subst h
  (repeat' split) <;> simp [Touch.tTMQGF]
theorem execDescriptorComplete_frame (t : TileId) (i : Nat) (s : State) {post : State} (h : execDescriptorComplete t i s = .next post) : Touch.tTBXQEF post s := by
  simp only [execDescriptorComplete] at h
  (repeat' split at h) <;> (simp only [Host.Outcome.next.injEq] at h; subst h; (repeat' split) <;> simp [Touch.tTBXQEF])

/-! ### Kernel -/

@[simp] theorem State.readVirt_frame (s : State) (die : Nat) (ctx : W32) (va : Nat) (n fuel : Nat)  : Touch.tMXQGF (State.readVirt s die ctx va n fuel).1 s := by
  induction fuel generalizing s va n with
  | zero => simp only [State.readVirt]; (repeat' split) <;> simp [Touch.tMXQGF]
  | succ n ih =>
    simp only [Touch.tMXQGF] at ih
    simp only [State.readVirt]
    (repeat' split) <;> simp [Touch.tMXQGF, ih]
@[simp] theorem State.writeRecord_frame (s : State) (compl : Nat) (src : LaunchSrc) (st : W32) (ext : Nat) (tag : W64) (xflags : Nat) (failTile : Option (TileId × Nat))  : Touch.tKMCQGF (State.writeRecord s compl src st ext tag xflags failTile) s := by
  simp only [State.writeRecord]
  (repeat' split) <;> simp [Touch.tKMCQGF]
@[simp] theorem State.placeTile_frame (s : State) (kid : Nat) (r : LaunchReq) (m : Image) (t : TileId × Nat)  : Touch.tTMXQGF (State.placeTile s kid r m t) s := by
  simp only [State.placeTile]
  (repeat' split) <;> simp [Touch.tTMXQGF]
@[simp] theorem State.enrol_frame (s : State) (r : LaunchReq) (m : Image) (ts : List TileId) (bs : List Nat)  : Touch.tTBKMCXQGF (State.enrol s r m ts bs) s := by
  simp only [State.enrol]
  (repeat' split) <;> simp [Touch.tTBKMCXQGF]
@[simp] theorem State.launchReq_frame (s : State) (r : LaunchReq) (prefTiles : List TileId) (prefBells : List BellId)  : Touch.tTBKMCXQGF (State.launchReq s r prefTiles prefBells) s := by
  simp only [State.launchReq]
  (repeat' split) <;> simp [Touch.tTBKMCXQGF]
@[simp] theorem State.terminateOne_frame (s : State) (kid : Nat) (k : Kernel)  : Touch.tTK (State.terminateOne s kid k) s := by
  simp only [State.terminateOne]
  (repeat' split) <;> simp [Touch.tTK]
@[simp] theorem State.terminateWhere_frame (s : State) (which : Kernel → Bool)  : Touch.tTK (State.terminateWhere s which) s := by
  simp only [State.terminateWhere]
  refine foldl_touch Touch.tTK (fun s => by simp [Touch.tTK]) (fun a b d h1 h2 => by simp only [Touch.tTK] at *; simp [h1, h2]) _ ?_ _ _
  intro s x
  (repeat' split) <;> simp [Touch.tTK]
@[simp] theorem State.terminateTag_frame (s : State) (tag : W64)  : Touch.tTK (State.terminateTag s tag).1 s := by
  simp only [State.terminateTag]
  (repeat' split) <;> simp [Touch.tTK]
@[simp] theorem State.lqTake_frame (s : State) (want : Nat)  : Touch.tKMQGEF (State.lqTake s want).1 s := by
  simp only [State.lqTake]
  (repeat' split) <;> simp [Touch.tKMQGEF]
theorem execLaunch_frame (prefTiles : List TileId) (prefBells : List BellId) (s : State) {post : State} (h : execLaunch prefTiles prefBells s = .next post) : Touch.tTBKMCXQGEF post s := by
  simp only [execLaunch] at h
  (repeat' split at h) <;> (simp only [Host.Outcome.next.injEq] at h; subst h; (repeat' split) <;> simp [Touch.tTBKMCXQGEF])
theorem execTerminate_frame (s : State) {post : State} (h : execTerminate s = .next post) : Touch.tTKMQGEF post s := by
  simp only [execTerminate] at h
  (repeat' split at h) <;> (simp only [Host.Outcome.next.injEq] at h; subst h; (repeat' split) <;> simp [Touch.tTKMQGEF])
@[simp] theorem State.releaseKernel_frame (s : State) (kid : Nat) (k : Kernel)  : Touch.tBKMX (State.releaseKernel s kid k) s := by
  simp only [State.releaseKernel]
  (repeat' split) <;> simp [Touch.tBKMX]
theorem execCompletionRecord_frame (kid : Nat) (s : State) {post : State} (h : execCompletionRecord kid s = .next post) : Touch.tTBKMCXQGF post s := by
  simp only [execCompletionRecord] at h
  (repeat' split at h) <;> (simp only [Host.Outcome.next.injEq] at h; subst h; (repeat' split) <;> simp [Touch.tTBKMCXQGF])

end Sys2Proof.Machine
end

