-- ==== Sys2Proof/Laws/FrameMemory.lean ====
section
/-! SUPPORT. The frame of every operation of the memory system, the caches, the Tocsin queue and migration: what it leaves as it was. -/

namespace Sys2Proof.Machine

set_option linter.unnecessarySeqFocus false
set_option linter.unreachableTactic false
set_option linter.unusedTactic false
set_option maxRecDepth 20000
set_option linter.unusedSimpArgs false
set_option linter.unusedVariables false

/-! ### Memory -/

theorem execMemoryRead_frame (a : Agent) (addr len : Nat) (s : State) {post : State} (h : execMemoryRead a addr len s = .next post) : Touch.tMQGRF post s := by
  simp only [execMemoryRead, Host.Outcome.next.injEq] at h
  subst h
  (repeat' split) <;> simp [Touch.tMQGRF]
theorem execMemoryWrite_frame (a : Agent) (addr : Nat) (bytes : List Byte) (s : State) {post : State} (h : execMemoryWrite a addr bytes s = .next post) : Touch.tMQGRF post s := by
  simp only [execMemoryWrite, Host.Outcome.next.injEq] at h
  subst h
  (repeat' split) <;> simp [Touch.tMQGRF]
theorem execPatrolScrub_frame (c : Ctrl) (s : State) {post : State} (h : execPatrolScrub c s = .next post) : Touch.tMQF post s := by
  simp only [execPatrolScrub] at h
  (repeat' split at h) <;> (simp only [Host.Outcome.next.injEq] at h; subst h; (repeat' split) <;> simp [Touch.tMQF])
theorem execCeInnerCollect_frame (c : Ctrl) (n : Nat) (s : State) {post : State} (h : execCeInnerCollect c n s = .next post) : Touch.tMQF post s := by
  simp only [execCeInnerCollect, Host.Outcome.next.injEq] at h
  subst h
  (repeat' split) <;> simp [Touch.tMQF]
@[simp] theorem State.descTimeout_frame (s : State) (t : TileId) (i : Nat)  : Touch.tTMF (State.descTimeout s t i) s := by
  simp only [State.descTimeout]
  (repeat' split) <;> simp [Touch.tTMF]
theorem execLateResponseDiscard_frame (a : Agent) (addr : Nat) (s : State) {post : State} (h : execLateResponseDiscard a addr s = .next post) : Touch.tM post s := by
  simp only [execLateResponseDiscard, Host.Outcome.next.injEq] at h
  subst h
  (repeat' split) <;> simp [Touch.tM]
theorem execQmodeWrite_frame (hi : Bool) (v : W64) (s : State) {post : State} (h : execQmodeWrite hi v s = .next post) : Touch.tMF post s := by
  simp only [execQmodeWrite] at h
  (repeat' split at h) <;> (simp only [Host.Outcome.next.injEq] at h; subst h; (repeat' split) <;> simp [Touch.tMF])

@[simp] theorem execQmodeWrite_after (hi : Bool) (v : W64) (s : State) : Touch.tMF (s.after (execQmodeWrite hi v)) s := by
  unfold State.after
  split
  · exact execQmodeWrite_frame _ _ _  ‹_›
  · simp [Touch.tMF]
  · simp [Touch.tMF]
theorem execPoolWrite_frame (pool : Fin 6) (v : W64) (s : State) {post : State} (h : execPoolWrite pool v s = .next post) : Touch.tME post s := by
  simp only [execPoolWrite, Host.Outcome.next.injEq] at h
  subst h
  (repeat' split) <;> simp [Touch.tME]

@[simp] theorem execPoolWrite_after (pool : Fin 6) (v : W64) (s : State) : Touch.tME (s.after (execPoolWrite pool v)) s := by
  unfold State.after
  split
  · exact execPoolWrite_frame _ _ _  ‹_›
  · simp [Touch.tME]
  · simp [Touch.tME]
@[simp] theorem State.stackOut_frame (s : State) (c : Nat)  : Touch.tM (State.stackOut s c) s := by
  simp only [State.stackOut]
  (repeat' split) <;> simp [Touch.tM]
theorem execStackFailure_frame (c : Ctrl) (s : State) {post : State} (h : execStackFailure c s = .next post) : Touch.tMQF post s := by
  simp only [execStackFailure, Host.Outcome.next.injEq] at h
  subst h
  (repeat' split) <;> simp [Touch.tMQF]

/-! ### Cache -/

@[simp] theorem State.setLine_frame (s : State) (a : Nat) (l : Option CacheLine)  : Touch.tH (State.setLine s a l) s := by
  simp only [State.setLine]
  (repeat' split) <;> simp [Touch.tH]
@[simp] theorem State.fetchCodeword_frame (s : State) (a : Nat)  : Touch.tMQF (State.fetchCodeword s a).1 s := by
  simp only [State.fetchCodeword]
  (repeat' split) <;> simp [Touch.tMQF]
@[simp] theorem State.missLine_frame (s : State) (a : Nat)  : Touch.tMQGF (State.missLine s a).1 s := by
  simp only [State.missLine]
  (repeat' split) <;> simp [Touch.tMQGF]
@[simp] theorem State.storeCodeword_frame (s : State) (a : Nat) (bs : List Byte) (poisoned : Bool)  : Touch.tM (State.storeCodeword s a bs poisoned) s := by
  simp only [State.storeCodeword]
  (repeat' split) <;> simp [Touch.tM]
@[simp] theorem State.writeBack_frame (s : State) (count : Bool) (a : Nat)  : Touch.tMHQGEF (State.writeBack s count a).1 s := by
  simp only [State.writeBack]
  (repeat' split) <;> simp [Touch.tMHQGEF]
@[simp] theorem State.obtain_frame (s : State) (c : CoreId) (a : Nat) (excl hint : Bool)  : Touch.tMHQGF (State.obtain s c a excl hint) s := by
  simp only [State.obtain]
  (repeat' split) <;> simp [Touch.tMHQGF]
@[simp] theorem State.evict_frame (s : State) (c : CoreId) (v : Victim)  : Touch.tMHQGEF (State.evict s c v) s := by
  simp only [State.evict]
  (repeat' split) <;> simp [Touch.tMHQGEF]
@[simp] theorem State.coreTrap_frame (s : State) (c : CoreId) (t : CoreTrap)  : Touch.tC (State.coreTrap s c t) s := by
  simp only [State.coreTrap]
  (repeat' split) <;> simp [Touch.tC]
@[simp] theorem State.coreValue_frame (s : State) (c : CoreId) (bs : List Byte)  : Touch.tCR (State.coreValue s c bs) s := by
  simp only [State.coreValue]
  (repeat' split) <;> simp [Touch.tCR]
@[simp] theorem State.coreLoadMem_frame (s : State) (c : CoreId) (a n : Nat) (fetch hint : Bool) (victims : List Victim)  : Touch.tMHCQGERF (State.coreLoadMem s c a n fetch hint victims) s := by
  simp only [State.coreLoadMem]
  (repeat' split) <;> simp [Touch.tMHCQGERF]
@[simp] theorem State.coreStoreMem_frame (s : State) (c : CoreId) (a : Nat) (bs : List Byte) (hint : Bool) (victims : List Victim)  : Touch.tMHCQGEF (State.coreStoreMem s c a bs hint victims) s := by
  simp only [State.coreStoreMem]
  (repeat' split) <;> simp [Touch.tMHCQGEF]
@[simp] theorem State.amoDone_frame (s : State) (c : CoreId) (wide : Bool) (old : List Byte)  : Touch.tCR (State.amoDone s c wide old) s := by
  simp only [State.amoDone]
  (repeat' split) <;> simp [Touch.tCR]
@[simp] theorem State.amoCache_frame (s : State) (c : CoreId) (op : AmoOp) (a : Nat) (wide : Bool) (v cmp : W64)  : Touch.tMHCQGRF (State.amoCache s c op a wide v cmp) s := by
  simp only [State.amoCache]
  (repeat' split) <;> simp [Touch.tMHCQGRF]
@[simp] theorem State.amoHome_frame (s : State) (c : CoreId) (op : AmoOp) (a : Nat) (wide : Bool) (v cmp : W64)  : Touch.tMHCQGERF (State.amoHome s c op a wide v cmp) s := by
  simp only [State.amoHome]
  (repeat' split) <;> simp [Touch.tMHCQGERF]
theorem execCoreAmo_frame (c : CoreId) (op : AmoOp) (addr : Nat) (wide : Bool) (v cmp : W64) (s : State) {post : State} (h : execCoreAmo c op addr wide v cmp s = .next post) : Touch.tMHCQGERF post s := by
  simp only [execCoreAmo, Host.Outcome.next.injEq] at h
  subst h
  (repeat' split) <;> simp [Touch.tMHCQGERF]
@[simp] theorem State.cleanLine_frame (s : State) (c : CoreId) (a : Nat) (flush : Bool)  : Touch.tMHQGEF (State.cleanLine s c a flush).1 s := by
  simp only [State.cleanLine]
  (repeat' split) <;> simp [Touch.tMHQGEF]
@[simp] theorem State.cbo_frame (s : State) (c : CoreId) (a : Nat) (flush : Bool)  : Touch.tMHCQGEF (State.cbo s c a flush) s := by
  simp only [State.cbo]
  (repeat' split) <;> simp [Touch.tMHCQGEF]
theorem execCboClean_frame (c : CoreId) (addr : Nat) (s : State) {post : State} (h : execCboClean c addr s = .next post) : Touch.tMHCQGEF post s := by
  simp only [execCboClean, Host.Outcome.next.injEq] at h
  subst h
  (repeat' split) <;> simp [Touch.tMHCQGEF]
theorem execCboFlush_frame (c : CoreId) (addr : Nat) (s : State) {post : State} (h : execCboFlush c addr s = .next post) : Touch.tMHCQGEF post s := by
  simp only [execCboFlush, Host.Outcome.next.injEq] at h
  subst h
  (repeat' split) <;> simp [Touch.tMHCQGEF]
theorem execCboInval_frame (c : CoreId) (addr : Nat) (s : State) {post : State} (h : execCboInval c addr s = .next post) : Touch.tMHCQGEF post s := by
  simp only [execCboInval, Host.Outcome.next.injEq] at h
  subst h
  (repeat' split) <;> simp [Touch.tMHCQGEF]
@[simp] theorem State.rangeStart_frame (s : State) (c : CoreId) (cmd : Nat)  : Touch.tC (State.rangeStart s c cmd) s := by
  simp only [State.rangeStart]
  (repeat' split) <;> simp [Touch.tC]
theorem execCleanByRange_frame (c : CoreId) (s : State) {post : State} (h : execCleanByRange c s = .next post) : Touch.tC post s := by
  simp only [execCleanByRange, Host.Outcome.next.injEq] at h
  subst h
  (repeat' split) <;> simp [Touch.tC]
theorem execInvalidateByRange_frame (c : CoreId) (s : State) {post : State} (h : execInvalidateByRange c s = .next post) : Touch.tC post s := by
  simp only [execInvalidateByRange, Host.Outcome.next.injEq] at h
  subst h
  (repeat' split) <;> simp [Touch.tC]
theorem execRangeOperationComplete_frame (c : CoreId) (s : State) {post : State} (h : execRangeOperationComplete c s = .next post) : Touch.tMHCQGEF post s := by
  simp only [execRangeOperationComplete, Host.Outcome.next.injEq] at h
  subst h
  (repeat' split) <;> simp [Touch.tMHCQGEF]
theorem execWritebackRetry_frame (line : Nat) (s : State) {post : State} (h : execWritebackRetry line s = .next post) : Touch.tMHQGEF post s := by
  simp only [execWritebackRetry, Host.Outcome.next.injEq] at h
  subst h
  (repeat' split) <;> simp [Touch.tMHQGEF]
@[simp] theorem State.coreTimeout_frame (s : State) (c : CoreId) (a : Nat)  : Touch.tMHQGF (State.coreTimeout s c a) s := by
  simp only [State.coreTimeout]
  (repeat' split) <;> simp [Touch.tMHQGF]
@[simp] theorem State.dropHostLines_frame (s : State)  : Touch.tHE (State.dropHostLines s) s := by
  simp only [State.dropHostLines]
  (repeat' split) <;> simp [Touch.tHE]

/-! ### Tocsin -/

@[simp] theorem State.writeMarker_frame (s : State)  : Touch.tMQGF (State.writeMarker s) s := by
  simp only [State.writeMarker]
  (repeat' split) <;> simp [Touch.tMQGF]
@[simp] theorem State.tqStart_frame (s : State)  : Touch.tMQGF (State.tqStart s) s := by
  simp only [State.tqStart]
  (repeat' split) <;> simp [Touch.tMQGF]
@[simp] theorem State.writeTqCtrl_frame (s : State) (v : W32)  : Touch.tMQGEF (State.writeTqCtrl s v) s := by
  simp only [State.writeTqCtrl]
  (repeat' split) <;> simp [Touch.tMQGEF]
theorem execTqEnable_frame (v : W32) (s : State) {post : State} (h : execTqEnable v s = .next post) : Touch.tMQGEF post s := by
  simp only [execTqEnable, Host.Outcome.next.injEq] at h
  subst h
  (repeat' split) <;> simp [Touch.tMQGEF]
theorem execTqConsWrite_frame (v : W32) (s : State) {post : State} (h : execTqConsWrite v s = .next post) : Touch.tQE post s := by
  simp only [execTqConsWrite, Host.Outcome.next.injEq] at h
  subst h
  (repeat' split) <;> simp [Touch.tQE]

@[simp] theorem execTqConsWrite_after (v : W32) (s : State) : Touch.tQE (s.after (execTqConsWrite v)) s := by
  unfold State.after
  split
  · exact execTqConsWrite_frame _ _  ‹_›
  · simp [Touch.tQE]
  · simp [Touch.tQE]
@[simp] theorem State.writeTqBase_frame (s : State) (v : W64)  : Touch.tQE (State.writeTqBase s v) s := by
  simp only [State.writeTqBase]
  (repeat' split) <;> simp [Touch.tQE]
theorem execTocsinPost_frame (i : Nat) (s : State) {post : State} (h : execTocsinPost i s = .next post) : Touch.tMCQGF post s := by
  simp only [execTocsinPost] at h
  (repeat' split at h) <;> (simp only [Host.Outcome.next.injEq] at h; subst h; (repeat' split) <;> simp [Touch.tMCQGF])
theorem execOverflowMarkerRewrite_frame (s : State) {post : State} (h : execOverflowMarkerRewrite s = .next post) : Touch.tMQGF post s := by
  simp only [execOverflowMarkerRewrite, Host.Outcome.next.injEq] at h
  subst h
  (repeat' split) <;> simp [Touch.tMQGF]

/-! ### Migration -/

theorem execCounterDecay_frame (s : State) {post : State} (h : execCounterDecay s = .next post) : Touch.tG post s := by
  simp only [execCounterDecay, Host.Outcome.next.injEq] at h
  subst h
  (repeat' split) <;> simp [Touch.tG]
@[simp] theorem State.migRun_frame (s : State) (d : MigDesc)  : Touch.tMQGF (State.migRun s d).1 s := by
  simp only [State.migRun]
  (repeat' split) <;> simp [Touch.tMQGF]
@[simp] theorem State.migEnd_frame (s : State) (a : Nat) (d : MigDesc) (st : W32)  : Touch.tG (State.migEnd s a d st) s := by
  simp only [State.migEnd]
  (repeat' split) <;> simp [Touch.tG]
@[simp] theorem State.migTake_frame (s : State) (kind : Nat)  : Touch.tMQGEF (State.migTake s kind) s := by
  simp only [State.migTake]
  (repeat' split) <;> simp [Touch.tMQGEF]
theorem execMigrationCopy_frame (s : State) {post : State} (h : execMigrationCopy s = .next post) : Touch.tMQGEF post s := by
  simp only [execMigrationCopy, Host.Outcome.next.injEq] at h
  subst h
  (repeat' split) <;> simp [Touch.tMQGEF]
theorem execMigrationZero_frame (s : State) {post : State} (h : execMigrationZero s = .next post) : Touch.tMQGEF post s := by
  simp only [execMigrationZero, Host.Outcome.next.injEq] at h
  subst h
  (repeat' split) <;> simp [Touch.tMQGEF]
theorem execMigrationAdvise_frame (s : State) {post : State} (h : execMigrationAdvise s = .next post) : Touch.tMQGEF post s := by
  simp only [execMigrationAdvise, Host.Outcome.next.injEq] at h
  subst h
  (repeat' split) <;> simp [Touch.tMQGEF]
theorem execMigrationDescriptorComplete_frame (s : State) {post : State} (h : execMigrationDescriptorComplete s = .next post) : Touch.tTBMCXQGEF post s := by
  simp only [execMigrationDescriptorComplete] at h
  (repeat' split at h) <;> (simp only [Host.Outcome.next.injEq] at h; subst h; (repeat' split) <;> simp [Touch.tTBMCXQGEF])
@[simp] theorem State.migTimeout_frame (s : State)  : Touch.tMQGF (State.migTimeout s) s := by
  simp only [State.migTimeout]
  (repeat' split) <;> simp [Touch.tMQGF]
theorem execWinCommit_frame (v : W32) (s : State) {post : State} (h : execWinCommit v s = .next post) : Touch.tWE post s := by
  simp only [execWinCommit, Host.Outcome.next.injEq] at h
  subst h
  (repeat' split) <;> simp [Touch.tWE]

@[simp] theorem execWinCommit_after (v : W32) (s : State) : Touch.tWE (s.after (execWinCommit v)) s := by
  unfold State.after
  split
  · exact execWinCommit_frame _ _  ‹_›
  · simp [Touch.tWE]
  · simp [Touch.tWE]

/-! ### Cores -/

theorem execCoreStart_frame (c : CoreId) (entry : W64) (s : State) {post : State} (h : execCoreStart c entry s = .next post) : Touch.tTCXQEF post s := by
  simp only [execCoreStart, Host.Outcome.next.injEq] at h
  subst h
  (repeat' split) <;> simp [Touch.tTCXQEF]

@[simp] theorem execCoreStart_after (c : CoreId) (entry : W64) (s : State) : Touch.tTCXQEF (s.after (execCoreStart c entry)) s := by
  unfold State.after
  split
  · exact execCoreStart_frame _ _ _  ‹_›
  · simp [Touch.tTCXQEF]
  · simp [Touch.tTCXQEF]
theorem execMachineTimerInterrupt_frame (c : CoreId) (s : State) {post : State} (h : execMachineTimerInterrupt c s = .next post) : Touch.tCQ post s := by
  simp only [execMachineTimerInterrupt, Host.Outcome.next.injEq] at h
  subst h
  (repeat' split) <;> simp [Touch.tCQ]
theorem execSupervisorTimerInterrupt_frame (c : CoreId) (virt : Bool) (s : State) {post : State} (h : execSupervisorTimerInterrupt c virt s = .next post) : Touch.tCQ post s := by
  simp only [execSupervisorTimerInterrupt, Host.Outcome.next.injEq] at h
  subst h
  (repeat' split) <;> simp [Touch.tCQ]
theorem execHostMsgFree_frame (v : W32) (s : State) {post : State} (h : execHostMsgFree v s = .next post) : Touch.tCE post s := by
  simp only [execHostMsgFree, Host.Outcome.next.injEq] at h
  subst h
  (repeat' split) <;> simp [Touch.tCE]

@[simp] theorem execHostMsgFree_after (v : W32) (s : State) : Touch.tCE (s.after (execHostMsgFree v)) s := by
  unfold State.after
  split
  · exact execHostMsgFree_frame _ _  ‹_›
  · simp [Touch.tCE]
  · simp [Touch.tCE]
theorem execRtMsgOffer_frame (v : W32) (s : State) {post : State} (h : execRtMsgOffer v s = .next post) : Touch.tCE post s := by
  simp only [execRtMsgOffer, Host.Outcome.next.injEq] at h
  subst h
  (repeat' split) <;> simp [Touch.tCE]

@[simp] theorem execRtMsgOffer_after (v : W32) (s : State) : Touch.tCE (s.after (execRtMsgOffer v)) s := by
  unfold State.after
  split
  · exact execRtMsgOffer_frame _ _  ‹_›
  · simp [Touch.tCE]
  · simp [Touch.tCE]

end Sys2Proof.Machine
end

