-- ==== Sys2Proof/Laws/FrameNet.lean ====
section
/-! SUPPORT. The frame of every operation of Carillon, Peal, Cadence, Clapper and Hoop: what it leaves as it was. -/

namespace Sys2Proof.Machine

set_option linter.unnecessarySeqFocus false
set_option linter.unreachableTactic false
set_option linter.unusedTactic false
set_option maxRecDepth 20000
set_option linter.unusedSimpArgs false
set_option linter.unusedVariables false

/-! ### Fabric -/

@[simp] theorem State.setPort_frame (s : State) (p : PortId) (v : Port)  : Touch.tN (State.setPort s p v) s := by
  simp only [State.setPort]
  (repeat' split) <;> simp [Touch.tN]
@[simp] theorem State.raisePort_frame (s : State) (cls type : Nat) (p : PortId) (payload : List Byte)  : Touch.tQF (State.raisePort s cls type p payload) s := by
  simp only [State.raisePort]
  (repeat' split) <;> simp [Touch.tQF]
@[simp] theorem State.flushPort_frame (s : State) (p : PortId)  : Touch.tN (State.flushPort s p) s := by
  simp only [State.flushPort]
  (repeat' split) <;> simp [Touch.tN]
@[simp] theorem State.enqueue_frame (s : State) (p : PortId) (i : TxItem)  : Touch.tN (State.enqueue s p i) s := by
  simp only [State.enqueue]
  (repeat' split) <;> simp [Touch.tN]
@[simp] theorem State.spanPages_frame (s : State) (die : Nat) (ctx : W32) (va n : Nat) (write : Bool) (fuel : Nat)  : Touch.tMXQGF (State.spanPages s die ctx va n write fuel).1 s := by
  induction fuel generalizing s va n with
  | zero => simp only [State.spanPages]; (repeat' split) <;> simp [Touch.tMXQGF]
  | succ n ih =>
    simp only [Touch.tMXQGF] at ih
    simp only [State.spanPages]
    (repeat' split) <;> simp [Touch.tMXQGF, ih]
@[simp] theorem State.inboundFault_frame (s : State) (via : Via) (ctx : W32) (w va : Nat) (write : Bool) (e : XErr)  : Touch.tQF (State.inboundFault s via ctx w va write e).1 s := by
  simp only [State.inboundFault]
  (repeat' split) <;> simp [Touch.tQF]
@[simp] theorem State.winSpan_frame (s : State) (via : Via) (w off len : Nat) (write : Bool)  : Touch.tMXQGF (State.winSpan s via w off len write).1 s := by
  simp only [State.winSpan]
  (repeat' split) <;> simp [Touch.tMXQGF]
@[simp] theorem State.countEntry_frame (s : State) (code : Nat)  : Touch.tE (State.countEntry s code) s := by
  simp only [State.countEntry]
  (repeat' split) <;> simp [Touch.tE]
@[simp] theorem State.putAt_frame (s : State) (via : Via) (w src off bell : Nat) (ring : Bool) (bs : List Byte)  : Touch.tMXQGEF (State.putAt s via w src off bell ring bs).1 s := by
  simp only [State.putAt]
  (repeat' split) <;> simp [Touch.tMXQGEF]
@[simp] theorem State.getAt_frame (s : State) (via : Via) (w src off len : Nat)  : Touch.tMXQGEF (State.getAt s via w src off len).1 s := by
  simp only [State.getAt]
  (repeat' split) <;> simp [Touch.tMXQGEF]
@[simp] theorem State.ringAt_frame (s : State) (via : Via) (w src bell : Nat) (n : W16)  : Touch.tTBXQEF (State.ringAt s via w src bell n).1 s := by
  simp only [State.ringAt]
  (repeat' split) <;> simp [Touch.tTBXQEF]
@[simp] theorem State.setXfer_frame (s : State) (x : Xfer)  : Touch.tN (State.setXfer s x) s := by
  simp only [State.setXfer]
  (repeat' split) <;> simp [Touch.tN]
@[simp] theorem State.land_frame (s : State) (x : Xfer) (row col : Nat) (bs : List Byte)  : Touch.tTMQGF (State.land s x row col bs).1 s := by
  simp only [State.land]
  (repeat' split) <;> simp [Touch.tTMQGF]
@[simp] theorem State.ownMessage_frame (s : State) (x : Xfer) (q : Pending)  : Touch.tTBMXQGEF (State.ownMessage s x q).1 s := by
  simp only [State.ownMessage]
  (repeat' split) <;> simp [Touch.tTBMXQGEF]
@[simp] theorem State.sendRequest_frame (s : State) (x : Xfer) (q : Pending) (p : PortId) (m : Msg) (slot : Nat)  : Touch.tN (State.sendRequest s x q p m slot) s := by
  simp only [State.sendRequest]
  (repeat' split) <;> simp [Touch.tN]
@[simp] theorem State.pumpOne_frame (s : State) (x : Xfer)  : Touch.tTBMXQGENF (State.pumpOne s x).1 s := by
  simp only [State.pumpOne]
  (repeat' split) <;> simp [Touch.tTBMXQGENF]
@[simp] theorem State.pump_frame (s : State) (x : Xfer) (fuel : Nat)  : Touch.tTBMXQGENF (State.pump s x fuel).1 s := by
  induction fuel generalizing s x with
  | zero => simp only [State.pump]; (repeat' split) <;> simp [Touch.tTBMXQGENF]
  | succ n ih =>
    simp only [Touch.tTBMXQGENF] at ih
    simp only [State.pump]
    (repeat' split) <;> simp [Touch.tTBMXQGENF, ih]
@[simp] theorem State.xferEnd_frame (s : State) (x : Xfer)  : Touch.tTMNF (State.xferEnd s x) s := by
  simp only [State.xferEnd]
  (repeat' split) <;> simp [Touch.tTMNF]
@[simp] theorem State.xferStep_frame (s : State) (x : Xfer)  : Touch.tTBMXQGENF (State.xferStep s x) s := by
  simp only [State.xferStep]
  (repeat' split) <;> simp [Touch.tTBMXQGENF]
@[simp] theorem State.answerXfer_frame (s : State) (p : PortId) (slot nack : Nat) (data : Option (List Byte))  : Touch.tTBMXQGENF (State.answerXfer s p slot nack data) s := by
  simp only [State.answerXfer]
  (repeat' split) <;> simp [Touch.tTBMXQGENF]
@[simp] theorem State.pumpAll_frame (s : State)  : Touch.tTBMXQGENF (State.pumpAll s) s := by
  simp only [State.pumpAll]
  refine foldl_touch Touch.tTBMXQGENF (fun s => by simp [Touch.tTBMXQGENF]) (fun a b d h1 h2 => by simp only [Touch.tTBMXQGENF] at *; simp [h1, h2]) _ ?_ _ _
  intro s x
  (repeat' split) <;> simp [Touch.tTBMXQGENF]
@[simp] theorem State.respond_frame (s : State) (m : Msg) (ttype nack : Nat) (payload : List Byte)  : Touch.tN (State.respond s m ttype nack payload) s := by
  simp only [State.respond]
  (repeat' split) <;> simp [Touch.tN]
@[simp] theorem State.refuseMsg_frame (s : State) (m : Msg) (nack : Nat)  : Touch.tTBMXQGENF (State.refuseMsg s m nack) s := by
  simp only [State.refuseMsg]
  (repeat' split) <;> simp [Touch.tTBMXQGENF]
@[simp] theorem State.violate_frame (s : State) (p : PortId) (src nack : Nat)  : Touch.tQNF (State.violate s p src nack) s := by
  simp only [State.violate]
  (repeat' split) <;> simp [Touch.tQNF]
@[simp] theorem State.acceptFlits_frame (s : State) (p : PortId) (n : Nat)  : Touch.tN (State.acceptFlits s p n) s := by
  simp only [State.acceptFlits]
  (repeat' split) <;> simp [Touch.tN]
@[simp] theorem State.forward_frame (s : State) (p : PortId) (m : Msg)  : Touch.tN (State.forward s p m) s := by
  simp only [State.forward]
  (repeat' split) <;> simp [Touch.tN]
@[simp] theorem State.inbound_tiles (s : State) (p : PortId) (m : Msg) (deliver : State → State) (hd : ∀ t, (deliver t).tiles = t.tiles) : (State.inbound s p m deliver).tiles = s.tiles := by
  simp only [State.inbound]
  (repeat' split) <;> simp [hd]
@[simp] theorem State.inbound_bells (s : State) (p : PortId) (m : Msg) (deliver : State → State) (hd : ∀ t, (deliver t).bells = t.bells) : (State.inbound s p m deliver).bells = s.bells := by
  simp only [State.inbound]
  (repeat' split) <;> simp [hd]
@[simp] theorem State.inbound_kern (s : State) (p : PortId) (m : Msg) (deliver : State → State) (hd : ∀ t, (deliver t).kern = t.kern) : (State.inbound s p m deliver).kern = s.kern := by
  simp only [State.inbound]
  (repeat' split) <;> simp [hd]
@[simp] theorem State.inbound_mem (s : State) (p : PortId) (m : Msg) (deliver : State → State) (hd : ∀ t, (deliver t).mem = t.mem) : (State.inbound s p m deliver).mem = s.mem := by
  simp only [State.inbound]
  (repeat' split) <;> simp [hd]
@[simp] theorem State.inbound_cache (s : State) (p : PortId) (m : Msg) (deliver : State → State) (hd : ∀ t, (deliver t).cache = t.cache) : (State.inbound s p m deliver).cache = s.cache := by
  simp only [State.inbound]
  (repeat' split) <;> simp [hd]
@[simp] theorem State.inbound_cores (s : State) (p : PortId) (m : Msg) (deliver : State → State) (hd : ∀ t, (deliver t).cores = t.cores) : (State.inbound s p m deliver).cores = s.cores := by
  simp only [State.inbound]
  (repeat' split) <;> simp [hd]
@[simp] theorem State.inbound_xlat (s : State) (p : PortId) (m : Msg) (deliver : State → State) (hd : ∀ t, (deliver t).xlat = t.xlat) : (State.inbound s p m deliver).xlat = s.xlat := by
  simp only [State.inbound]
  (repeat' split) <;> simp [hd]
@[simp] theorem State.inbound_mig (s : State) (p : PortId) (m : Msg) (deliver : State → State) (hd : ∀ t, (deliver t).mig = t.mig) : (State.inbound s p m deliver).mig = s.mig := by
  simp only [State.inbound]
  (repeat' split) <;> simp [hd]
@[simp] theorem State.inbound_win (s : State) (p : PortId) (m : Msg) (deliver : State → State) (hd : ∀ t, (deliver t).win = t.win) : (State.inbound s p m deliver).win = s.win := by
  simp only [State.inbound]
  (repeat' split) <;> simp [hd]
@[simp] theorem State.inbound_tele (s : State) (p : PortId) (m : Msg) (deliver : State → State) (hd : ∀ t, (deliver t).tele = t.tele) : (State.inbound s p m deliver).tele = s.tele := by
  simp only [State.inbound]
  (repeat' split) <;> simp [hd]
@[simp] theorem State.inbound_cxl (s : State) (p : PortId) (m : Msg) (deliver : State → State) (hd : ∀ t, (deliver t).cxl = t.cxl) : (State.inbound s p m deliver).cxl = s.cxl := by
  simp only [State.inbound]
  (repeat' split) <;> simp [hd]
@[simp] theorem State.inbound_cust (s : State) (p : PortId) (m : Msg) (deliver : State → State) (hd : ∀ t, (deliver t).cust = t.cust) : (State.inbound s p m deliver).cust = s.cust := by
  simp only [State.inbound]
  (repeat' split) <;> simp [hd]
@[simp] theorem State.inbound_kettle (s : State) (p : PortId) (m : Msg) (deliver : State → State) (hd : ∀ t, (deliver t).kettle = t.kettle) : (State.inbound s p m deliver).kettle = s.kettle := by
  simp only [State.inbound]
  (repeat' split) <;> simp [hd]
@[simp] theorem State.inbound_dict (s : State) (p : PortId) (m : Msg) (deliver : State → State) (hd : ∀ t, (deliver t).dict = t.dict) : (State.inbound s p m deliver).dict = s.dict := by
  simp only [State.inbound]
  (repeat' split) <;> simp [hd]
@[simp] theorem State.inbound_window (s : State) (p : PortId) (m : Msg) (deliver : State → State) (hd : ∀ t, (deliver t).window = t.window) : (State.inbound s p m deliver).window = s.window := by
  simp only [State.inbound]
  (repeat' split) <;> simp [hd]
@[simp] theorem State.inbound_coarse (s : State) (p : PortId) (m : Msg) (deliver : State → State) (hd : ∀ t, (deliver t).coarse = t.coarse) : (State.inbound s p m deliver).coarse = s.coarse := by
  simp only [State.inbound]
  (repeat' split) <;> simp [hd]
@[simp] theorem State.inbound_svc (s : State) (p : PortId) (m : Msg) (deliver : State → State) (hd : ∀ t, (deliver t).svc = t.svc) : (State.inbound s p m deliver).svc = s.svc := by
  simp only [State.inbound]
  (repeat' split) <;> simp [hd]
@[simp] theorem State.inbound_reply (s : State) (p : PortId) (m : Msg) (deliver : State → State) (hd : ∀ t, (deliver t).reply = t.reply) : (State.inbound s p m deliver).reply = s.reply := by
  simp only [State.inbound]
  (repeat' split) <;> simp [hd]
@[simp] theorem State.inbound_pending (s : State) (p : PortId) (m : Msg) (deliver : State → State) (hd : ∀ t, (deliver t).pending = t.pending) : (State.inbound s p m deliver).pending = s.pending := by
  simp only [State.inbound]
  (repeat' split) <;> simp [hd]
@[simp] theorem State.countCheck_frame (s : State) (p : PortId) (m : Msg) (code : Nat)  : Touch.tQNF (State.countCheck s p m code) s := by
  simp only [State.countCheck]
  (repeat' split) <;> simp [Touch.tQNF]
theorem execPutData_frame (p : PortId) (m : Msg) (s : State) {post : State} (h : execPutData p m s = .next post) : Touch.tMXQGENF post s := by
  simp only [execPutData, Host.Outcome.next.injEq] at h
  subst h
  (repeat' split) <;> simp [Touch.tMXQGENF]
theorem execGetReq_frame (p : PortId) (m : Msg) (s : State) {post : State} (h : execGetReq p m s = .next post) : Touch.tMXQGENF post s := by
  simp only [execGetReq, Host.Outcome.next.injEq] at h
  subst h
  (repeat' split) <;> simp [Touch.tMXQGENF]
theorem execRemoteRing_frame (p : PortId) (m : Msg) (s : State) {post : State} (h : execRemoteRing p m s = .next post) : Touch.tTBXQENF post s := by
  simp only [execRemoteRing, Host.Outcome.next.injEq] at h
  subst h
  (repeat' split) <;> simp [Touch.tTBXQENF]
@[simp] theorem State.response_frame (s : State) (p : PortId) (m : Msg) (nack : Nat) (data : Option (List Byte))  : Touch.tTBMXQGENF (State.response s p m nack data) s := by
  simp only [State.response, State.inbound]
  (repeat' split) <;> simp [Touch.tTBMXQGENF]
theorem execPutAck_frame (p : PortId) (m : Msg) (s : State) {post : State} (h : execPutAck p m s = .next post) : Touch.tTBMXQGENF post s := by
  simp only [execPutAck, Host.Outcome.next.injEq] at h
  subst h
  (repeat' split) <;> simp [Touch.tTBMXQGENF]
theorem execGetData_frame (p : PortId) (m : Msg) (s : State) {post : State} (h : execGetData p m s = .next post) : Touch.tTBMXQGENF post s := by
  simp only [execGetData, Host.Outcome.next.injEq] at h
  subst h
  (repeat' split) <;> simp [Touch.tTBMXQGENF]
theorem execNack_frame (p : PortId) (m : Msg) (s : State) {post : State} (h : execNack p m s = .next post) : Touch.tTBMXQGENF post s := by
  simp only [execNack, Host.Outcome.next.injEq] at h
  subst h
  (repeat' split) <;> simp [Touch.tTBMXQGENF]
theorem execMessageTimeout_frame (p : PortId) (slot : Fin 2048) (s : State) {post : State} (h : execMessageTimeout p slot s = .next post) : Touch.tTBMXQGENF post s := by
  simp only [execMessageTimeout, Host.Outcome.next.injEq] at h
  subst h
  (repeat' split) <;> simp [Touch.tTBMXQGENF]
theorem execSlotEpochAdvance_frame (p : PortId) (slot : Fin 2048) (s : State) {post : State} (h : execSlotEpochAdvance p slot s = .next post) : Touch.tTBMXQGENF post s := by
  simp only [execSlotEpochAdvance, Host.Outcome.next.injEq] at h
  subst h
  (repeat' split) <;> simp [Touch.tTBMXQGENF]
@[simp] theorem State.remoteStart_frame (s : State) (t : TileId) (i : Nat) (f : InFlight) (d : MoveDesc)  : Touch.tTBMXQGENF (State.remoteStart s t i f d) s := by
  simp only [State.remoteStart]
  (repeat' split) <;> simp [Touch.tTBMXQGENF]
@[simp] theorem State.runRemote_frame (s : State) (t : TileId) (i : Nat) (kind : MoveKind)  : Touch.tTBMXQGENF (State.runRemote s t i kind) s := by
  simp only [State.runRemote]
  (repeat' split) <;> simp [Touch.tTBMXQGENF]
theorem execPut_frame (t : TileId) (i : Nat) (s : State) {post : State} (h : execPut t i s = .next post) : Touch.tTBMXQGENF post s := by
  simp only [execPut, Host.Outcome.next.injEq] at h
  subst h
  (repeat' split) <;> simp [Touch.tTBMXQGENF]
theorem execGet_frame (t : TileId) (i : Nat) (s : State) {post : State} (h : execGet t i s = .next post) : Touch.tTBMXQGENF post s := by
  simp only [execGet, Host.Outcome.next.injEq] at h
  subst h
  (repeat' split) <;> simp [Touch.tTBMXQGENF]
theorem execViolationHalving_frame (s : State) {post : State} (h : execViolationHalving s = .next post) : Touch.tN post s := by
  simp only [execViolationHalving, Host.Outcome.next.injEq] at h
  subst h
  (repeat' split) <;> simp [Touch.tN]
theorem execQclear_frame (p : PortId) (v : W32) (s : State) {post : State} (h : execQclear p v s = .next post) : Touch.tEN post s := by
  simp only [execQclear, Host.Outcome.next.injEq] at h
  subst h
  by_cases hv : v.toNat ≥ 32 <;> simp [hv, Touch.tEN]

@[simp] theorem execQclear_after (p : PortId) (v : W32) (s : State) : Touch.tEN (s.after (execQclear p v)) s := by
  unfold State.after
  split
  · exact execQclear_frame _ _ _  ‹_›
  · simp [Touch.tEN]
  · simp [Touch.tEN]

/-! ### Ports -/

@[simp] theorem State.setPeal_frame (s : State) (k : PealSlot) (v : PealS)  : Touch.tN (State.setPeal s k v) s := by
  simp only [State.setPeal]
  (repeat' split) <;> simp [Touch.tN]
@[simp] theorem State.undefinedVirt_frame (s : State) (die : Nat) (ctx : W32) (va n : Nat)  : Touch.tMXQGF (State.undefinedVirt s die ctx va n) s := by
  simp only [State.undefinedVirt]
  (repeat' split) <;> simp [Touch.tMXQGF]
@[simp] theorem State.pealFail_frame (s : State) (k : PealSlot) (st : W32)  : Touch.tMXQGNF (State.pealFail s k st) s := by
  simp only [State.pealFail]
  (repeat' split) <;> simp [Touch.tMXQGNF]
@[simp] theorem State.pealPortDown_frame (s : State) (p : PortId)  : Touch.tMXQGNF (State.pealPortDown s p) s := by
  simp only [State.pealPortDown]
  refine foldl_touch Touch.tMXQGNF (fun s => by simp [Touch.tMXQGNF]) (fun a b d h1 h2 => by simp only [Touch.tMXQGNF] at *; simp [h1, h2]) _ ?_ _ _
  intro s x
  (repeat' split) <;> simp [Touch.tMXQGNF]
@[simp] theorem State.reroute_frame (s : State) (q : List TxItem)  : Touch.tTBMXQGENF (State.reroute s q) s := by
  simp only [State.reroute]
  refine foldl_touch Touch.tTBMXQGENF (fun s => by simp [Touch.tTBMXQGENF]) (fun a b d h1 h2 => by simp only [Touch.tTBMXQGENF] at *; simp [h1, h2]) _ ?_ _ _
  intro s x
  (repeat' split) <;> simp [Touch.tTBMXQGENF]
@[simp] theorem State.linkDown_frame (s : State) (p : PortId) (cause : Nat)  : Touch.tTBMXQGENUDF (State.linkDown s p cause) s := by
  simp only [State.linkDown]
  (repeat' split) <;> simp [Touch.tTBMXQGENUDF]
@[simp] theorem State.linkViolation_frame (s : State) (p : PortId)  : Touch.tTBMXQGENUDF (State.linkViolation s p) s := by
  simp only [State.linkViolation]
  (repeat' split) <;> simp [Touch.tTBMXQGENUDF]
theorem execLinkHeartbeatTimeout_frame (p : PortId) (s : State) {post : State} (h : execLinkHeartbeatTimeout p s = .next post) : Touch.tTBMXQGENUDF post s := by
  simp only [execLinkHeartbeatTimeout, Host.Outcome.next.injEq] at h
  subst h
  (repeat' split) <;> simp [Touch.tTBMXQGENUDF]
theorem execFlitDiscard_frame (p : PortId) (f : Trailer) (s : State) {post : State} (h : execFlitDiscard p f s = .next post) : Touch.tTBMXQGENUDF post s := by
  simp only [execFlitDiscard, Host.Outcome.next.injEq] at h
  subst h
  (repeat' split) <;> simp [Touch.tTBMXQGENUDF]
@[simp] theorem State.replay_frame (s : State) (p : PortId) (ackseq : BitVec 12)  : Touch.tTBMXQGENUDF (State.replay s p ackseq) s := by
  simp only [State.replay]
  (repeat' split) <;> simp [Touch.tTBMXQGENUDF]
theorem execLinkReplay_frame (p : PortId) (ackseq : BitVec 12) (s : State) {post : State} (h : execLinkReplay p ackseq s = .next post) : Touch.tTBMXQGENUDF post s := by
  simp only [execLinkReplay, Host.Outcome.next.injEq] at h
  subst h
  (repeat' split) <;> simp [Touch.tTBMXQGENUDF]
theorem execIdleFlit_frame (p : PortId) (f : Trailer) (s : State) {post : State} (h : execIdleFlit p f s = .next post) : Touch.tTBMXQGENUDF post s := by
  simp only [execIdleFlit, Host.Outcome.next.injEq] at h
  subst h
  (repeat' split) <;> simp [Touch.tTBMXQGENUDF]
@[simp] theorem State.portUp_frame (s : State) (p : PortId)  : Touch.tQNF (State.portUp s p) s := by
  simp only [State.portUp]
  (repeat' split) <;> simp [Touch.tQNF]
@[simp] theorem State.neighbour_frame (s : State) (p : PortId)  : Touch.tQNF (State.neighbour s p) s := by
  simp only [State.neighbour]
  (repeat' split) <;> simp [Touch.tQNF]
theorem execNeighbourRecheck_frame (p : PortId) (s : State) {post : State} (h : execNeighbourRecheck p s = .next post) : Touch.tQNF post s := by
  simp only [execNeighbourRecheck, Host.Outcome.next.injEq] at h
  subst h
  (repeat' split) <;> simp [Touch.tQNF]
@[simp] theorem State.coordCheck_frame (s : State) (p : PortId)  : Touch.tTBMXQGENUDF (State.coordCheck s p) s := by
  simp only [State.coordCheck]
  (repeat' split) <;> simp [Touch.tTBMXQGENUDF]
theorem execCoordinateCheck_frame (p : PortId) (s : State) {post : State} (h : execCoordinateCheck p s = .next post) : Touch.tTBMXQGENUDF post s := by
  simp only [execCoordinateCheck, Host.Outcome.next.injEq] at h
  subst h
  (repeat' split) <;> simp [Touch.tTBMXQGENUDF]
theorem execPortBringup_frame (p : PortId) (probe : PortProbe) (s : State) {post : State} (h : execPortBringup p probe s = .next post) : Touch.tTBMXQGENUDF post s := by
  simp only [execPortBringup, Host.Outcome.next.injEq] at h
  subst h
  (repeat' split) <;> simp [Touch.tTBMXQGENUDF]
theorem execCaps_frame (p : PortId) (m : Caps) (s : State) {post : State} (h : execCaps p m s = .next post) : Touch.tQNF post s := by
  simp only [execCaps, Host.Outcome.next.injEq] at h
  subst h
  (repeat' split) <;> simp [Touch.tQNF]
theorem execSpdm_frame (p : PortId) (m : PeerProof) (s : State) {post : State} (h : execSpdm p m s = .next post) : Touch.tQNUF post s := by
  simp only [execSpdm, Host.Outcome.next.injEq] at h
  subst h
  (repeat' split) <;> simp [Touch.tQNUF]
theorem execKey_frame (p : PortId) (s : State) {post : State} (h : execKey p s = .next post) : Touch.tN post s := by
  simp only [execKey, Host.Outcome.next.injEq] at h
  subst h
  (repeat' split) <;> simp [Touch.tN]
@[simp] theorem State.rekey_frame (s : State) (p : PortId) (tx : Bool)  : Touch.tN (State.rekey s p tx) s := by
  simp only [State.rekey]
  (repeat' split) <;> simp [Touch.tN]
theorem execRekey_frame (p : PortId) (tx : Bool) (s : State) {post : State} (h : execRekey p tx s = .next post) : Touch.tN post s := by
  simp only [execRekey, Host.Outcome.next.injEq] at h
  subst h
  (repeat' split) <;> simp [Touch.tN]
@[simp] theorem State.widthSwitch_frame (s : State) (p : PortId)  : Touch.tQNF (State.widthSwitch s p) s := by
  simp only [State.widthSwitch]
  (repeat' split) <;> simp [Touch.tQNF]
@[simp] theorem State.widthBegin_frame (s : State) (p : PortId)  : Touch.tQNF (State.widthBegin s p) s := by
  simp only [State.widthBegin]
  (repeat' split) <;> simp [Touch.tQNF]
@[simp] theorem State.writePortCtrl_frame (s : State) (p : PortId) (v : W32)  : Touch.tTBMXQGENUDF (State.writePortCtrl s p v) s := by
  simp only [State.writePortCtrl]
  (repeat' split) <;> simp [Touch.tTBMXQGENUDF]
theorem execPortEnable_frame (p : PortId) (v : W32) (s : State) {post : State} (h : execPortEnable p v s = .next post) : Touch.tTBMXQGENUDF post s := by
  simp only [execPortEnable, Host.Outcome.next.injEq] at h
  subst h
  (repeat' split) <;> simp [Touch.tTBMXQGENUDF]
theorem execPortDisable_frame (p : PortId) (v : W32) (s : State) {post : State} (h : execPortDisable p v s = .next post) : Touch.tTBMXQGENUDF post s := by
  simp only [execPortDisable, Host.Outcome.next.injEq] at h
  subst h
  (repeat' split) <;> simp [Touch.tTBMXQGENUDF]
theorem execWidthRequest_frame (p : PortId) (v : W32) (s : State) {post : State} (h : execWidthRequest p v s = .next post) : Touch.tTBMXQGENUDF post s := by
  simp only [execWidthRequest, Host.Outcome.next.injEq] at h
  subst h
  (repeat' split) <;> simp [Touch.tTBMXQGENUDF]
theorem execWidthLapse_frame (p : PortId) (s : State) {post : State} (h : execWidthLapse p s = .next post) : Touch.tN post s := by
  simp only [execWidthLapse, Host.Outcome.next.injEq] at h
  subst h
  (repeat' split) <;> simp [Touch.tN]
theorem execWidth_frame (p : PortId) (half : Fin 2) (s : State) {post : State} (h : execWidth p half s = .next post) : Touch.tQNF post s := by
  simp only [execWidth, Host.Outcome.next.injEq] at h
  subst h
  (repeat' split) <;> simp [Touch.tQNF]
@[simp] theorem State.coordsFrozen_frame (s : State)  : Touch.tQNF (State.coordsFrozen s) s := by
  simp only [State.coordsFrozen]
  (repeat' split) <;> simp [Touch.tQNF]

/-! ### Peal -/

@[simp] theorem State.virtPages_frame (s : State) (die : Nat) (ctx : W32) (va n : Nat) (write : Bool)  : Touch.tMXQGF (State.virtPages s die ctx va n write).1 s := by
  simp only [State.virtPages]
  (repeat' split) <;> simp [Touch.tMXQGF]
@[simp] theorem State.readPages_frame (s : State) (die : Nat) (ps : List (Nat × Nat))  : Touch.tMQGF (State.readPages s die ps).1 s := by
  simp only [State.readPages]
  refine foldl_touch (fun (p q : State × Except AccErr (List Byte)) => Touch.tMQGF p.1 q.1) (fun s => by simp [Touch.tMQGF]) (fun a b d h1 h2 => by simp only [Touch.tMQGF] at *; simp [h1, h2]) _ ?_ _ (s, _)
  intro s x
  (repeat' split) <;> simp [Touch.tMQGF]
@[simp] theorem State.writePages_frame (s : State) (die : Nat) (ps : List (Nat × Nat)) (bs : List Byte)  : Touch.tMQGF (State.writePages s die ps bs).1 s := by
  simp only [State.writePages]
  refine foldl_touch (fun (p q : State × Option AccErr × List Byte) => Touch.tMQGF p.1 q.1) (fun s => by simp [Touch.tMQGF]) (fun a b d h1 h2 => by simp only [Touch.tMQGF] at *; simp [h1, h2]) _ ?_ _ (s, _)
  intro s x
  (repeat' split) <;> simp [Touch.tMQGF]
@[simp] theorem State.virtRead_frame (s : State) (die : Nat) (ctx : W32) (va n : Nat)  : Touch.tMXQGF (State.virtRead s die ctx va n).1 s := by
  simp only [State.virtRead]
  (repeat' split) <;> simp [Touch.tMXQGF]
@[simp] theorem State.virtWrite_frame (s : State) (die : Nat) (ctx : W32) (va : Nat) (bs : List Byte)  : Touch.tMXQGF (State.virtWrite s die ctx va bs).1 s := by
  simp only [State.virtWrite]
  (repeat' split) <;> simp [Touch.tMXQGF]
@[simp] theorem State.pealSend_frame (s : State) (k : PealSlot) (d : PealDesc) (c off fmt : Nat) (positive : Bool) (bs : List Byte)  : Touch.tN (State.pealSend s k d c off fmt positive bs) s := by
  simp only [State.pealSend]
  (repeat' split) <;> simp [Touch.tN]
@[simp] theorem State.setRun_frame (s : State) (k : PealSlot) (r : PealRun)  : Touch.tN (State.setRun s k r) s := by
  simp only [State.setRun]
  (repeat' split) <;> simp [Touch.tN]
@[simp] theorem State.pealStop_frame (s : State) (k : PealSlot) (ctx : W32) (positive write : Bool) (e : AccErr)  : Touch.tMXQGNF (State.pealStop s k ctx positive write e) s := by
  simp only [State.pealStop]
  (repeat' split) <;> simp [Touch.tMXQGNF]
@[simp] theorem State.pealOwned_frame (s : State) (k : PealSlot) (r : PealRun) (c off : Nat) (zs : List W32)  : Touch.tMXQGNF (State.pealOwned s k r c off zs).1 s := by
  simp only [State.pealOwned]
  (repeat' split) <;> simp [Touch.tMXQGNF]
@[simp] theorem State.pealSum_frame (s : State) (k : PealSlot) (r : PealRun) (c off : Nat) (xs : List W32)  : Touch.tMXQGNF (State.pealSum s k r c off xs).1 s := by
  simp only [State.pealSum]
  (repeat' split) <;> simp [Touch.tMXQGNF]
@[simp] theorem State.pealGather_frame (s : State) (k : PealSlot) (r : PealRun) (c off : Nat) (bs : List Byte)  : Touch.tMXQGNF (State.pealGather s k r c off bs).1 s := by
  simp only [State.pealGather]
  (repeat' split) <;> simp [Touch.tMXQGNF]
@[simp] theorem State.pealTake_frame (s : State) (k : PealSlot) (positive : Bool) (m : Msg)  : Touch.tMXQGNF (State.pealTake s k positive m) s := by
  simp only [State.pealTake]
  (repeat' split) <;> simp [Touch.tMXQGNF]
@[simp] theorem State.pealArrive_frame (s : State) (p : PortId) (m : Msg)  : Touch.tMXQGNF (State.pealArrive s p m) s := by
  simp only [State.pealArrive]
  (repeat' split) <;> simp [Touch.tMXQGNF]
theorem execPeal_frame (p : PortId) (m : Msg) (s : State) {post : State} (h : execPeal p m s = .next post) : Touch.tMXQGNF post s := by
  simp only [execPeal, Host.Outcome.next.injEq] at h
  subst h
  (repeat' split) <;> simp [Touch.tMXQGNF]
@[simp] theorem State.pealDrain_frame (s : State) (k : PealSlot) (p : PortId)  : Touch.tMXQGNF (State.pealDrain s k p) s := by
  simp only [State.pealDrain]
  (repeat' split) <;> simp [Touch.tMXQGNF]
@[simp] theorem State.pealFeed_frame (s : State) (k : PealSlot) (qs : List (Msg × Bool))  : Touch.tMXQGNF (State.pealFeed s k qs) s := by
  simp only [State.pealFeed]
  refine foldl_touch Touch.tMXQGNF (fun s => by simp [Touch.tMXQGNF]) (fun a b d h1 h2 => by simp only [Touch.tMXQGNF] at *; simp [h1, h2]) _ ?_ _ _
  intro s x
  (repeat' split) <;> simp [Touch.tMXQGNF]
@[simp] theorem State.pealResume_frame (s : State) (k : PealSlot)  : Touch.tMXQGNF (State.pealResume s k) s := by
  simp only [State.pealResume]
  (repeat' split) <;> simp [Touch.tMXQGNF]
@[simp] theorem State.pealFirst_frame (s : State) (k : PealSlot) (r : PealRun) (positive : Bool)  : Touch.tMXQGNF (State.pealFirst s k r positive).1 s := by
  simp only [State.pealFirst]
  (repeat' split) <;> simp [Touch.tMXQGNF]
@[simp] theorem State.pealFirsts_frame (s : State) (k : PealSlot) (r : PealRun)  : Touch.tMXQGNF (State.pealFirsts s k r).1 s := by
  simp only [State.pealFirsts]
  refine foldl_touch (fun (p q : State × Except (Bool × Bool × AccErr) (PealRun × List (Bool × Nat × Nat × List Byte))) => Touch.tMXQGNF p.1 q.1) (fun s => by simp [Touch.tMXQGNF]) (fun a b d h1 h2 => by simp only [Touch.tMXQGNF] at *; simp [h1, h2]) _ ?_ _ (s, _)
  intro s x
  (repeat' split) <;> simp [Touch.tMXQGNF]
@[simp] theorem State.pealBegin_frame (s : State) (k : PealSlot) (r : PealRun)  : Touch.tMXQGNF (State.pealBegin s k r) s := by
  simp only [State.pealBegin]
  (repeat' split) <;> simp [Touch.tMXQGNF]
@[simp] theorem State.pealGo_frame (s : State) (k : PealSlot) (r : PealRun)  : Touch.tTBMXQGENF (State.pealGo s k r) s := by
  simp only [State.pealGo]
  (repeat' split) <;> simp [Touch.tTBMXQGENF]
@[simp] theorem State.pealNext_frame (s : State) (k : PealSlot) (op : Nat)  : Touch.tTBMXQGENF (State.pealNext s k op) s := by
  simp only [State.pealNext]
  (repeat' split) <;> simp [Touch.tTBMXQGENF]
theorem execRs_frame (k : PealSlot) (s : State) {post : State} (h : execRs k s = .next post) : Touch.tTBMXQGENF post s := by
  simp only [execRs, Host.Outcome.next.injEq] at h
  subst h
  (repeat' split) <;> simp [Touch.tTBMXQGENF]
theorem execAg_frame (k : PealSlot) (s : State) {post : State} (h : execAg k s = .next post) : Touch.tTBMXQGENF post s := by
  simp only [execAg, Host.Outcome.next.injEq] at h
  subst h
  (repeat' split) <;> simp [Touch.tTBMXQGENF]
theorem execAr_frame (k : PealSlot) (s : State) {post : State} (h : execAr k s = .next post) : Touch.tTBMXQGENF post s := by
  simp only [execAr, Host.Outcome.next.injEq] at h
  subst h
  (repeat' split) <;> simp [Touch.tTBMXQGENF]
theorem execPealTimeout_frame (k : PealSlot) (s : State) {post : State} (h : execPealTimeout k s = .next post) : Touch.tMXQGNF post s := by
  simp only [execPealTimeout] at h
  (repeat' split at h) <;> (simp only [Host.Outcome.next.injEq] at h; subst h; (repeat' split) <;> simp [Touch.tMXQGNF])
theorem execPealDescriptorComplete_frame (k : PealSlot) (s : State) {post : State} (h : execPealDescriptorComplete k s = .next post) : Touch.tTBMCXQGENF post s := by
  simp only [execPealDescriptorComplete] at h
  (repeat' split at h) <;> (simp only [Host.Outcome.next.injEq] at h; subst h; (repeat' split) <;> simp [Touch.tTBMCXQGENF])
@[simp] theorem State.setCad_frame (s : State) (c : CadS)  : Touch.tN (State.setCad s c) s := by
  simp only [State.setCad]
  (repeat' split) <;> simp [Touch.tN]
theorem execPealBind_frame (k : PealSlot) (s : State) {post : State} (h : execPealBind k s = .next post) : Touch.tMXQGNF post s := by
  simp only [execPealBind] at h
  (repeat' split at h) <;> (simp only [Host.Outcome.next.injEq] at h; subst h; (repeat' split) <;> simp [Touch.tMXQGNF])
theorem execLotHandover_frame (k : PealSlot) (lot : Nat) (s : State) {post : State} (h : execLotHandover k lot s = .next post) : Touch.tMXQGNF post s := by
  simp only [execLotHandover] at h
  (repeat' split at h) <;> (simp only [Host.Outcome.next.injEq] at h; subst h; (repeat' split) <;> simp [Touch.tMXQGNF])
@[simp] theorem State.pealFaultFail_frame (s : State) (k : PealSlot) (st : W32)  : Touch.tMXQGNF (State.pealFaultFail s k st) s := by
  simp only [State.pealFaultFail]
  (repeat' split) <;> simp [Touch.tMXQGNF]
@[simp] theorem State.pealFaultRetry_frame (s : State) (k : PealSlot)  : Touch.tMXQGNF (State.pealFaultRetry s k) s := by
  simp only [State.pealFaultRetry]
  (repeat' split) <;> simp [Touch.tMXQGNF]

/-! ### Cadence -/

@[simp] theorem State.stepChanged_frame (s : State) (c : CadS)  : Touch.tCEN (State.stepChanged s c) s := by
  simp only [State.stepChanged]
  (repeat' split) <;> simp [Touch.tCEN]
@[simp] theorem State.stepAdvance_frame (s : State)  : Touch.tCEN (State.stepAdvance s) s := by
  simp only [State.stepAdvance]
  (repeat' split) <;> simp [Touch.tCEN]
theorem execCadAdv_frame (_v : W32) (s : State) {post : State} (h : execCadAdv _v s = .next post) : Touch.tCEN post s := by
  simp only [execCadAdv, Host.Outcome.next.injEq] at h
  subst h
  (repeat' split) <;> simp [Touch.tCEN]

@[simp] theorem execCadAdv_after (_v : W32) (s : State) : Touch.tCEN (s.after (execCadAdv _v)) s := by
  unfold State.after
  split
  · exact execCadAdv_frame _ _  ‹_›
  · simp [Touch.tCEN]
  · simp [Touch.tCEN]
theorem execCadSetC_frame (v : W64) (s : State) {post : State} (h : execCadSetC v s = .next post) : Touch.tCEN post s := by
  simp only [execCadSetC, Host.Outcome.next.injEq] at h
  subst h
  (repeat' split) <;> simp [Touch.tCEN]

@[simp] theorem execCadSetC_after (v : W64) (s : State) : Touch.tCEN (s.after (execCadSetC v)) s := by
  unfold State.after
  split
  · exact execCadSetC_frame _ _  ‹_›
  · simp [Touch.tCEN]
  · simp [Touch.tCEN]
theorem execCadCommit_frame (_v : W32) (s : State) {post : State} (h : execCadCommit _v s = .next post) : Touch.tN post s := by
  simp only [execCadCommit, Host.Outcome.next.injEq] at h
  subst h
  (repeat' split) <;> simp [Touch.tN]

@[simp] theorem execCadCommit_after (_v : W32) (s : State) : Touch.tN (s.after (execCadCommit _v)) s := by
  unfold State.after
  split
  · exact execCadCommit_frame _ _  ‹_›
  · simp [Touch.tN]
  · simp [Touch.tN]
theorem execCadenceDelivery_frame (s : State) {post : State} (h : execCadenceDelivery s = .next post) : Touch.tCEN post s := by
  simp only [execCadenceDelivery, Host.Outcome.next.injEq] at h
  subst h
  (repeat' split) <;> simp [Touch.tCEN]

/-! ### Clapper -/

@[simp] theorem State.clapFault_frame (s : State) (u : Nat) (ctx : W32) (va : Nat) (write : Bool) (cause level : Nat) (last : W64)  : Touch.tXQF (State.clapFault s u ctx va write cause level last) s := by
  simp only [State.clapFault]
  (repeat' split) <;> simp [Touch.tXQF]
@[simp] theorem State.lotFail_frame (s : State) (u : Ctrl) (st : W32)  : Touch.tN (State.lotFail s u st) s := by
  simp only [State.lotFail]
  (repeat' split) <;> simp [Touch.tN]
@[simp] theorem State.clapStop_frame (s : State) (u : Ctrl) (ctx : W32) (write : Bool) (e : AccErr)  : Touch.tXQNF (State.clapStop s u ctx write e) s := by
  simp only [State.clapStop]
  (repeat' split) <;> simp [Touch.tXQNF]
@[simp] theorem State.readStreams_frame (s : State) (u : Ctrl) (d : JobDesc) (lot : Nat)  : Touch.tMXQGF (State.readStreams s u d lot).1 s := by
  simp only [State.readStreams]
  refine foldl_touch (fun (p q : State × Except AccErr (Map Row)) => Touch.tMXQGF p.1 q.1) (fun s => by simp [Touch.tMXQGF]) (fun a b d h1 h2 => by simp only [Touch.tMXQGF] at *; simp [h1, h2]) _ ?_ _ (s, _)
  intro s x
  (repeat' split) <;> simp [Touch.tMXQGF]
@[simp] theorem State.outMismatch_frame (s : State) (u : Ctrl) (d : JobDesc)  : Touch.tEN (State.outMismatch s u d) s := by
  simp only [State.outMismatch]
  (repeat' split) <;> simp [Touch.tEN]
@[simp] theorem State.lotBegin_frame (s : State) (u : Ctrl)  : Touch.tMXQGENF (State.lotBegin s u) s := by
  simp only [State.lotBegin]
  (repeat' split) <;> simp [Touch.tMXQGENF]
@[simp] theorem State.dispatch_frame (s : State) (u : Ctrl) (fuel : Nat)  : Touch.tMXQGNF (State.dispatch s u fuel) s := by
  induction fuel generalizing s  with
  | zero => simp only [State.dispatch]; (repeat' split) <;> simp [Touch.tMXQGNF]
  | succ n ih =>
    simp only [Touch.tMXQGNF] at ih
    simp only [State.dispatch]
    (repeat' split) <;> simp [Touch.tMXQGNF, ih]
@[simp] theorem State.lotReady_frame (s : State) (u : Ctrl)  : Touch.tMXQGENF (State.lotReady s u) s := by
  simp only [State.lotReady]
  (repeat' split) <;> simp [Touch.tMXQGENF]
@[simp] theorem State.writeStream_frame (s : State) (u : Ctrl) (d : JobDesc) (lot k : Nat) (xs : List (Option Nat))  : Touch.tMXQGF (State.writeStream s u d lot k xs).1 s := by
  simp only [State.writeStream]
  refine foldl_touch (fun (p q : State × Option AccErr) => Touch.tMXQGF p.1 q.1) (fun s => by simp [Touch.tMXQGF]) (fun a b d h1 h2 => by simp only [Touch.tMXQGF] at *; simp [h1, h2]) _ ?_ _ (s, _)
  intro s x
  (repeat' split) <;> simp [Touch.tMXQGF]
@[simp] theorem State.undefinedStream_frame (s : State) (u : Ctrl) (d : JobDesc) (lot k : Nat) (xs : List (Option Nat))  : Touch.tMXQGF (State.undefinedStream s u d lot k xs) s := by
  simp only [State.undefinedStream]
  (repeat' split) <;> simp [Touch.tMXQGF]
@[simp] theorem State.writeLot_frame (s : State) (u : Ctrl) (fuel : Nat)  : Touch.tMXQGNF (State.writeLot s u fuel) s := by
  induction fuel generalizing s  with
  | zero => simp only [State.writeLot]; (repeat' split) <;> simp [Touch.tMXQGNF]
  | succ n ih =>
    simp only [Touch.tMXQGNF] at ih
    simp only [State.writeLot]
    (repeat' split) <;> simp [Touch.tMXQGNF, ih]
@[simp] theorem State.lotBody_frame (s : State) (u : Ctrl) (stop : ClapOp → Bool)  : Touch.tEN (State.lotBody s u stop) s := by
  simp only [State.lotBody]
  (repeat' split) <;> simp [Touch.tEN]
theorem execLotRun_frame (u : Ctrl) (s : State) {post : State} (h : execLotRun u s = .next post) : Touch.tMXQGENF post s := by
  simp only [execLotRun, Host.Outcome.next.injEq] at h
  subst h
  (repeat' split) <;> simp [Touch.tMXQGENF]
@[simp] theorem State.clapOne_frame (s : State) (u : Ctrl) (want : ClapOp → Bool)  : Touch.tMXQGENF (State.clapOne s u want) s := by
  simp only [State.clapOne]
  (repeat' split) <;> simp [Touch.tMXQGENF]
theorem execVcnt_frame (u : Ctrl) (msk : Fin 8) (s : State) {post : State} (h : execVcnt u msk s = .next post) : Touch.tMXQGENF post s := by
  simp only [execVcnt, Host.Outcome.next.injEq] at h
  subst h
  (repeat' split) <;> simp [Touch.tMXQGENF]
theorem execClapperVld_frame (u : Ctrl) (vd : Fin 64) (msk stream : Fin 8) (s : State) {post : State} (h : execClapperVld u vd msk stream s = .next post) : Touch.tMXQGENF post s := by
  simp only [execClapperVld, Host.Outcome.next.injEq] at h
  subst h
  (repeat' split) <;> simp [Touch.tMXQGENF]
theorem execClapperVst_frame (u : Ctrl) (vc : Fin 64) (msk stream : Fin 8) (rtz : Bool) (s : State) {post : State} (h : execClapperVst u vc msk stream rtz s = .next post) : Touch.tMXQGENF post s := by
  simp only [execClapperVst, Host.Outcome.next.injEq] at h
  subst h
  (repeat' split) <;> simp [Touch.tMXQGENF]
theorem execClapperVbcast_frame (u : Ctrl) (vd : Fin 64) (msk : Fin 8) (sa : Fin 24) (s : State) {post : State} (h : execClapperVbcast u vd msk sa s = .next post) : Touch.tMXQGENF post s := by
  simp only [execClapperVbcast, Host.Outcome.next.injEq] at h
  subst h
  (repeat' split) <;> simp [Touch.tMXQGENF]
@[simp] theorem State.jobStatus_frame (s : State) (addr : Nat) (st : W32) (ext : Nat)  : Touch.tMCQGF (State.jobStatus s addr st ext) s := by
  simp only [State.jobStatus]
  (repeat' split) <;> simp [Touch.tMCQGF]
@[simp] theorem State.jobDone_frame (s : State) (d : JobDesc) (unit : Option Ctrl)  : Touch.tTBXQEF (State.jobDone s d unit) s := by
  simp only [State.jobDone]
  (repeat' split) <;> simp [Touch.tTBXQEF]
@[simp] theorem State.uqAdvance_frame (s : State)  : Touch.tN (State.uqAdvance s) s := by
  simp only [State.uqAdvance]
  (repeat' split) <;> simp [Touch.tN]
@[simp] theorem State.jobAccept_frame (s : State)  : Touch.tTBMCXQGENF (State.jobAccept s) s := by
  simp only [State.jobAccept]
  (repeat' split) <;> simp [Touch.tTBMCXQGENF]
theorem execJobAccept_frame (s : State) {post : State} (h : execJobAccept s = .next post) : Touch.tTBMCXQGENF post s := by
  simp only [execJobAccept, Host.Outcome.next.injEq] at h
  subst h
  (repeat' split) <;> simp [Touch.tTBMCXQGENF]
@[simp] theorem State.unbindJob_frame (s : State) (k : JobSlot)  : Touch.tN (State.unbindJob s k) s := by
  simp only [State.unbindJob]
  refine foldl_touch Touch.tN (fun s => by simp [Touch.tN]) (fun a b d h1 h2 => by simp only [Touch.tN] at *; simp [h1, h2]) _ ?_ _ _
  intro s x
  (repeat' split) <;> simp [Touch.tN]
@[simp] theorem State.jobGone_frame (s : State) (k : JobSlot)  : Touch.tN (State.jobGone s k) s := by
  simp only [State.jobGone]
  (repeat' split) <;> simp [Touch.tN]
theorem execJobComplete_frame (k : JobSlot) (s : State) {post : State} (h : execJobComplete k s = .next post) : Touch.tTBMCXQGENF post s := by
  simp only [execJobComplete] at h
  (repeat' split at h) <;> (simp only [Host.Outcome.next.injEq] at h; subst h; (repeat' split) <;> simp [Touch.tTBMCXQGENF])
@[simp] theorem State.clapAnswered_frame (s : State) (u : Ctrl) (fail : Option W32)  : Touch.tMCQGNF (State.clapAnswered s u fail) s := by
  simp only [State.clapAnswered]
  (repeat' split) <;> simp [Touch.tMCQGNF]

/-! ### Faults -/

@[simp] theorem State.tileAnswered_frame (s : State) (t : TileId) (fail : Option W32)  : Touch.tT (State.tileAnswered s t fail) s := by
  simp only [State.tileAnswered]
  (repeat' split) <;> simp [Touch.tT]
@[simp] theorem State.answerFault_frame (s : State) (fid : Nat) (fail : Option W32)  : Touch.tTMCXQGNF (State.answerFault s fid fail) s := by
  simp only [State.answerFault]
  (repeat' split) <;> simp [Touch.tTMCXQGNF]
@[simp] theorem State.faultAnswer_frame (s : State) (forward : Bool) (v : W64)  : Touch.tTMCXQGENF (State.faultAnswer s forward v) s := by
  simp only [State.faultAnswer]
  (repeat' split) <;> simp [Touch.tTMCXQGENF]
theorem execFaultResp_frame (v : W64) (s : State) {post : State} (h : execFaultResp v s = .next post) : Touch.tTMCXQGENF post s := by
  simp only [execFaultResp, Host.Outcome.next.injEq] at h
  subst h
  (repeat' split) <;> simp [Touch.tTMCXQGENF]

@[simp] theorem execFaultResp_after (v : W64) (s : State) : Touch.tTMCXQGENF (s.after (execFaultResp v)) s := by
  unfold State.after
  split
  · exact execFaultResp_frame _ _  ‹_›
  · simp [Touch.tTMCXQGENF]
  · simp [Touch.tTMCXQGENF]
theorem execFqResp_frame (v : W64) (s : State) {post : State} (h : execFqResp v s = .next post) : Touch.tTMCXQGENF post s := by
  simp only [execFqResp, Host.Outcome.next.injEq] at h
  subst h
  (repeat' split) <;> simp [Touch.tTMCXQGENF]

@[simp] theorem execFqResp_after (v : W64) (s : State) : Touch.tTMCXQGENF (s.after (execFqResp v)) s := by
  unfold State.after
  split
  · exact execFqResp_frame _ _  ‹_›
  · simp [Touch.tTMCXQGENF]
  · simp [Touch.tTMCXQGENF]
@[simp] theorem State.loseForwarded_frame (s : State)  : Touch.tTMCXQGNF (State.loseForwarded s) s := by
  simp only [State.loseForwarded]
  (repeat' split) <;> simp [Touch.tTMCXQGNF]

/-! ### Hoop -/

@[simp] theorem State.setHoop_frame (s : State) (l : LinkId) (v : HoopLink)  : Touch.tN (State.setHoop s l v) s := by
  simp only [State.setHoop]
  (repeat' split) <;> simp [Touch.tN]
@[simp] theorem State.raiseHoop_frame (s : State) (cls type : Nat) (l : LinkId) (payload : List Byte)  : Touch.tQF (State.raiseHoop s cls type l payload) s := by
  simp only [State.raiseHoop]
  (repeat' split) <;> simp [Touch.tQF]
@[simp] theorem State.fence_frame (s : State) (l : LinkId) (cause : Nat)  : Touch.tTBMXQGENF (State.fence s l cause) s := by
  simp only [State.fence]
  (repeat' split) <;> simp [Touch.tTBMXQGENF]
@[simp] theorem State.hoopRetrain_frame (s : State) (l : LinkId)  : Touch.tTBMXQGENF (State.hoopRetrain s l) s := by
  simp only [State.hoopRetrain]
  (repeat' split) <;> simp [Touch.tTBMXQGENF]
@[simp] theorem State.hoopCrc_frame (s : State) (l : LinkId) (rev : Bool)  : Touch.tTBMXQGENF (State.hoopCrc s l rev) s := by
  simp only [State.hoopCrc]
  (repeat' split) <;> simp [Touch.tTBMXQGENF]
@[simp] theorem State.hoopViolation_frame (s : State) (l : LinkId) (rev : Bool) (word : Nat)  : Touch.tTBMXQGENF (State.hoopViolation s l rev word) s := by
  simp only [State.hoopViolation]
  (repeat' split) <;> simp [Touch.tTBMXQGENF]
theorem execRetrain_frame (l : LinkId) (s : State) {post : State} (h : execRetrain l s = .next post) : Touch.tTBMXQGENF post s := by
  simp only [execRetrain, Host.Outcome.next.injEq] at h
  subst h
  (repeat' split) <;> simp [Touch.tTBMXQGENF]
theorem execHoopPacket_frame (l : LinkId) (rev : Bool) (p : HoopPkt) (s : State) {post : State} (h : execHoopPacket l rev p s = .next post) : Touch.tTBMXQGENF post s := by
  simp only [execHoopPacket, Host.Outcome.next.injEq] at h
  subst h
  (repeat' split) <;> simp [Touch.tTBMXQGENF]
@[simp] theorem State.hoopReplay_frame (s : State) (l : LinkId) (cls : Nat) (rev : Bool) (seq : BitVec 12)  : Touch.tTBMXQGENF (State.hoopReplay s l cls rev seq) s := by
  simp only [State.hoopReplay]
  (repeat' split) <;> simp [Touch.tTBMXQGENF]
theorem execLinkControl_frame (l : LinkId) (rev : Bool) (p : HoopCtl) (s : State) {post : State} (h : execLinkControl l rev p s = .next post) : Touch.tTBMXQGENF post s := by
  simp only [execLinkControl, Host.Outcome.next.injEq] at h
  subst h
  (repeat' split) <;> simp [Touch.tTBMXQGENF]
theorem execLinkControlSend_frame (l : LinkId) (rev : Bool) (s : State) {post : State} (h : execLinkControlSend l rev s = .next post) : Touch.tNR post s := by
  simp only [execLinkControlSend, Host.Outcome.next.injEq] at h
  subst h
  (repeat' split) <;> simp [Touch.tNR]
@[simp] theorem State.repairLane_frame (s : State) (l : LinkId) (g : Nat) (failed : List Nat) (lane : Nat)  : Touch.tQNF (State.repairLane s l g failed lane).1 s := by
  simp only [State.repairLane]
  (repeat' split) <;> simp [Touch.tQNF]
@[simp] theorem State.testGroup_frame (s : State) (l : LinkId) (g : Nat) (failed : List Nat)  : Touch.tQNF (State.testGroup s l g failed) s := by
  simp only [State.testGroup]
  (repeat' split) <;> simp [Touch.tQNF]
@[simp] theorem State.maskDisagree_frame (s : State) (l : LinkId)  : Touch.tTBMXQGENF (State.maskDisagree s l) s := by
  simp only [State.maskDisagree]
  (repeat' split) <;> simp [Touch.tTBMXQGENF]
@[simp] theorem State.linkTrained_frame (s : State) (l : LinkId) (attempts : Nat) (mask : BitVec 512)  : Touch.tTBMXQGENF (State.linkTrained s l attempts mask) s := by
  simp only [State.linkTrained]
  (repeat' split) <;> simp [Touch.tTBMXQGENF]
@[simp] theorem State.training_frame (s : State) (l : LinkId) (f : TrainFindings)  : Touch.tTBMXQGENF (State.training s l f) s := by
  simp only [State.training]
  (repeat' split) <;> simp [Touch.tTBMXQGENF]
theorem execTrainingComplete_frame (l : LinkId) (f : TrainFindings) (s : State) {post : State} (h : execTrainingComplete l f s = .next post) : Touch.tTBMXQGENF post s := by
  simp only [execTrainingComplete, Host.Outcome.next.injEq] at h
  subst h
  (repeat' split) <;> simp [Touch.tTBMXQGENF]
@[simp] theorem State.writeLinkCtrl_frame (s : State) (l : LinkId) (v : W32)  : Touch.tTBMXQGENF (State.writeLinkCtrl s l v) s := by
  simp only [State.writeLinkCtrl]
  (repeat' split) <;> simp [Touch.tTBMXQGENF]

end Sys2Proof.Machine
end

