-- ==== Sys2Proof/Laws/FrameHost.lean ====
section
/-! SUPPORT. The frame of every operation of the host side, power, service, custody, the dictionary and the registers: what it leaves as it was. -/

namespace Sys2Proof.Machine

set_option linter.unnecessarySeqFocus false
set_option linter.unreachableTactic false
set_option linter.unusedTactic false
set_option maxRecDepth 20000
set_option linter.unusedSimpArgs false
set_option linter.unusedVariables false

/-! ### Cxl -/

@[simp] theorem State.setCxl_frame (s : State) (c : CxlS)  : Touch.tL (State.setCxl s c) s := by
  simp only [State.setCxl]
  (repeat' split) <;> simp [Touch.tL]
@[simp] theorem State.vector_frame (s : State) (v : Nat)  : Touch.tQLF (State.vector s v) s := by
  simp only [State.vector]
  (repeat' split) <;> simp [Touch.tQLF]
@[simp] theorem State.hostLog_frame (s : State) (kind stream requester data detail : Nat)  : Touch.tQLF (State.hostLog s kind stream requester data detail) s := by
  simp only [State.hostLog]
  (repeat' split) <;> simp [Touch.tQLF]
theorem execForwardQueuePost_frame (i : Nat) (s : State) {post : State} (h : execForwardQueuePost i s = .next post) : Touch.tMQGNLF post s := by
  simp only [execForwardQueuePost] at h
  (repeat' split at h) <;> (simp only [Host.Outcome.next.injEq] at h; subst h; (repeat' split) <;> simp [Touch.tMQGNLF])
theorem execFqConsWrite_frame (v : W32) (s : State) {post : State} (h : execFqConsWrite v s = .next post) : Touch.tEL post s := by
  simp only [execFqConsWrite, Host.Outcome.next.injEq] at h
  subst h
  (repeat' split) <;> simp [Touch.tEL]

@[simp] theorem execFqConsWrite_after (v : W32) (s : State) : Touch.tEL (s.after (execFqConsWrite v)) s := by
  unfold State.after
  split
  · exact execFqConsWrite_frame _ _  ‹_›
  · simp [Touch.tEL]
  · simp [Touch.tEL]
@[simp] theorem State.writeFqCtrl_frame (s : State) (v : W32)  : Touch.tEL (State.writeFqCtrl s v) s := by
  simp only [State.writeFqCtrl]
  (repeat' split) <;> simp [Touch.tEL]
theorem execFqEnable_frame (v : W32) (s : State) {post : State} (h : execFqEnable v s = .next post) : Touch.tEL post s := by
  simp only [execFqEnable, Host.Outcome.next.injEq] at h
  subst h
  (repeat' split) <;> simp [Touch.tEL]
@[simp] theorem State.writeHdmMap_frame (s : State) (i : Nat) (v : W64)  : Touch.tEL (State.writeHdmMap s i v) s := by
  simp only [State.writeHdmMap]
  (repeat' split) <;> simp [Touch.tEL]
theorem execHdmCommit_frame (i : Fin 2) (req : HdmReq) (s : State) {post : State} (h : execHdmCommit i req s = .next post) : Touch.tLR post s := by
  simp only [execHdmCommit, Host.Outcome.next.injEq] at h
  subst h
  (repeat' split) <;> simp [Touch.tLR]
theorem execCxlMemRead_frame (addr len : Nat) (s : State) {post : State} (h : execCxlMemRead addr len s = .next post) : Touch.tMQGLRF post s := by
  simp only [execCxlMemRead, Host.Outcome.next.injEq] at h
  subst h
  (repeat' split) <;> simp [Touch.tMQGLRF]
theorem execCxlMemWrite_frame (addr : Nat) (bytes : List Byte) (s : State) {post : State} (h : execCxlMemWrite addr bytes s = .next post) : Touch.tMQGLRF post s := by
  simp only [execCxlMemWrite, Host.Outcome.next.injEq] at h
  subst h
  (repeat' split) <;> simp [Touch.tMQGLRF]
theorem execHostSnoop_frame (kind : SnoopKind) (addr : Nat) (s : State) {post : State} (h : execHostSnoop kind addr s = .next post) : Touch.tMHQGERF post s := by
  simp only [execHostSnoop, Host.Outcome.next.injEq] at h
  subst h
  (repeat' split) <;> simp [Touch.tMHQGERF]
theorem execApertureWrite_frame (off : Nat) (bytes : List Byte) (requester : W16) (s : State) {post : State} (h : execApertureWrite off bytes requester s = .next post) : Touch.tMQGLF post s := by
  simp only [execApertureWrite, Host.Outcome.next.injEq] at h
  subst h
  (repeat' split) <;> simp [Touch.tMQGLF]
theorem execApertureRead_frame (off len : Nat) (requester : W16) (s : State) {post : State} (h : execApertureRead off len requester s = .next post) : Touch.tMQGLRF post s := by
  simp only [execApertureRead, Host.Outcome.next.injEq] at h
  subst h
  (repeat' split) <;> simp [Touch.tMQGLRF]
@[simp] theorem State.writeRegion_frame (s : State) (r word : Nat) (v : W64)  : Touch.tEL (State.writeRegion s r word v) s := by
  simp only [State.writeRegion]
  (repeat' split) <;> simp [Touch.tEL]
@[simp] theorem State.mailbox_frame (s : State) (code : W32) (data : List Byte)  : Touch.tQLRF (State.mailbox s code data) s := by
  simp only [State.mailbox]
  (repeat' split) <;> simp [Touch.tQLRF]
theorem execGetSupportedLogs_frame (s : State) {post : State} (h : execGetSupportedLogs s = .next post) : Touch.tQLRF post s := by
  simp only [execGetSupportedLogs, Host.Outcome.next.injEq] at h
  subst h
  (repeat' split) <;> simp [Touch.tQLRF]
theorem execGetLog_frame (s : State) {post : State} (h : execGetLog s = .next post) : Touch.tQLRF post s := by
  simp only [execGetLog, Host.Outcome.next.injEq] at h
  subst h
  (repeat' split) <;> simp [Touch.tQLRF]
theorem execRuntimeSend_frame (bytes : List Byte) (s : State) {post : State} (h : execRuntimeSend bytes s = .next post) : Touch.tCQLRF post s := by
  simp only [execRuntimeSend, Host.Outcome.next.injEq] at h
  subst h
  (repeat' split) <;> simp [Touch.tCQLRF]
theorem execRuntimeRecv_frame (s : State) {post : State} (h : execRuntimeRecv s = .next post) : Touch.tCQLRF post s := by
  simp only [execRuntimeRecv, Host.Outcome.next.injEq] at h
  subst h
  (repeat' split) <;> simp [Touch.tCQLRF]
theorem execDoeDiscovery_frame (index : Byte) (s : State) {post : State} (h : execDoeDiscovery index s = .next post) : Touch.tR post s := by
  simp only [execDoeDiscovery, Host.Outcome.next.injEq] at h
  subst h
  (repeat' split) <;> simp [Touch.tR]
theorem execLinkRecovery_frame (s : State) {post : State} (h : execLinkRecovery s = .next post) : Touch.tCL post s := by
  simp only [execLinkRecovery, Host.Outcome.next.injEq] at h
  subst h
  (repeat' split) <;> simp [Touch.tCL]
@[simp] theorem State.resumePeals_frame (s : State)  : Touch.tMXQGNF (State.resumePeals s) s := by
  simp only [State.resumePeals]
  (repeat' split) <;> simp [Touch.tMXQGNF]
theorem execLinkReturnToL0_frame (rate : LinkRate) (s : State) {post : State} (h : execLinkReturnToL0 rate s = .next post) : Touch.tMCXQGNLF post s := by
  simp only [execLinkReturnToL0, Host.Outcome.next.injEq] at h
  subst h
  (repeat' split) <;> simp [Touch.tMCXQGNLF]
@[simp] theorem State.loseHostPages_frame (s : State)  : Touch.tTX (State.loseHostPages s) s := by
  simp only [State.loseHostPages]
  (repeat' split) <;> simp [Touch.tTX]
@[simp] theorem State.setStream_frame (s : State) (i : StreamId) (v : StreamS)  : Touch.tL (State.setStream s i v) s := by
  simp only [State.setStream]
  (repeat' split) <;> simp [Touch.tL]
@[simp] theorem State.loseHost_frame (s : State) (cause : LossCause)  : Touch.tTMHCXQGENLUDF (State.loseHost s cause) s := by
  simp only [State.loseHost]
  (repeat' split) <;> simp [Touch.tTMHCXQGENLUDF]
theorem execHostLoss_frame (cause : LossCause) (s : State) {post : State} (h : execHostLoss cause s = .next post) : Touch.tTMHCXQGENLUDF post s := by
  simp only [execHostLoss, Host.Outcome.next.injEq] at h
  subst h
  (repeat' split) <;> simp [Touch.tTMHCXQGENLUDF]
theorem execHostLinkUp_frame (rate : LinkRate) (s : State) {post : State} (h : execHostLinkUp rate s = .next post) : Touch.tCL post s := by
  simp only [execHostLinkUp, Host.Outcome.next.injEq] at h
  subst h
  (repeat' split) <;> simp [Touch.tCL]
theorem execIdeKm_frame (activate : Bool) (key : List Byte) (integrityFault : Bool) (s : State) {post : State} (h : execIdeKm activate key integrityFault s = .next post) : Touch.tTMHCXQGENLUDF post s := by
  simp only [execIdeKm, Host.Outcome.next.injEq] at h
  subst h
  (repeat' split) <;> simp [Touch.tTMHCXQGENLUDF]

/-! ### Entries -/

@[simp] theorem State.belfryCommit_frame (s : State) (vs : List ((Nat × Nat) × List Byte))  : Touch.tD (State.belfryCommit s vs) s := by
  simp only [State.belfryCommit]
  (repeat' split) <;> simp [Touch.tD]
@[simp] theorem State.logRefusal_frame (s : State) (idx sub principal ab path : Nat) (v : List Byte)  : Touch.tED (State.logRefusal s idx sub principal ab path v) s := by
  simp only [State.logRefusal]
  (repeat' split) <;> simp [Touch.tED]

/-! ### Stream -/

@[simp] theorem State.tidy_frame (s : State) (k : StreamId)  : Touch.tKQLF (State.tidy s k) s := by
  simp only [State.tidy]
  (repeat' split) <;> simp [Touch.tKQLF]
@[simp] theorem State.writeCmd_frame (s : State) (k : StreamId) (v : W32)  : Touch.tKQELF (State.writeCmd s k v) s := by
  simp only [State.writeCmd]
  (repeat' split) <;> simp [Touch.tKQELF]
theorem execStreamOpen_frame (k : StreamId) (v : W32) (s : State) {post : State} (h : execStreamOpen k v s = .next post) : Touch.tKQELF post s := by
  simp only [execStreamOpen, Host.Outcome.next.injEq] at h
  subst h
  (repeat' split) <;> simp [Touch.tKQELF]
theorem execStreamClose_frame (k : StreamId) (v : W32) (s : State) {post : State} (h : execStreamClose k v s = .next post) : Touch.tKQELF post s := by
  simp only [execStreamClose, Host.Outcome.next.injEq] at h
  subst h
  (repeat' split) <;> simp [Touch.tKQELF]
theorem execDoorbell_frame (k : StreamId) (v : W32) (s : State) {post : State} (h : execDoorbell k v s = .next post) : Touch.tQELF post s := by
  simp only [execDoorbell, Host.Outcome.next.injEq] at h
  subst h
  (repeat' split) <;> simp [Touch.tQELF]

@[simp] theorem execDoorbell_after (k : StreamId) (v : W32) (s : State) : Touch.tQELF (s.after (execDoorbell k v)) s := by
  unfold State.after
  split
  · exact execDoorbell_frame _ _ _  ‹_›
  · simp [Touch.tQELF]
  · simp [Touch.tQELF]
@[simp] theorem State.readSlot_frame (s : State) (k : StreamId) (j : Nat)  : Touch.tMQGF (State.readSlot s k j).1 s := by
  simp only [State.readSlot]
  (repeat' split) <;> simp [Touch.tMQGF]
@[simp] theorem State.slotReady_frame (s : State) (k : StreamId) (j : Nat)  : Touch.tMQGF (State.slotReady s k j).1 s := by
  simp only [State.slotReady]
  (repeat' split) <;> simp [Touch.tMQGF]
@[simp] theorem State.notReady_frame (s : State) (k : StreamId) (js : List Nat)  : Touch.tMQGF (State.notReady s k js).1 s := by
  simp only [State.notReady]
  (repeat' split) <;> simp [Touch.tMQGF]
@[simp] theorem State.streamWidth_frame (s : State) (k : StreamId)  : Touch.tMXQGF (State.streamWidth s k).1 s := by
  simp only [State.streamWidth]
  (repeat' split) <;> simp [Touch.tMXQGF]
@[simp] theorem State.readyRun_frame (s : State) (k : StreamId) (j fuel : Nat)  : Touch.tMQGF (State.readyRun s k j fuel).1 s := by
  induction fuel generalizing s j with
  | zero => simp only [State.readyRun]; (repeat' split) <;> simp [Touch.tMQGF]
  | succ n ih =>
    simp only [Touch.tMQGF] at ih
    simp only [State.readyRun]
    (repeat' split) <;> simp [Touch.tMQGF, ih]
@[simp] theorem State.chainData_frame (s : State) (k : StreamId) (n : Nat)  : Touch.tMQGF (State.chainData s k n).1 s := by
  simp only [State.chainData]
  (repeat' split) <;> simp [Touch.tMQGF]
@[simp] theorem State.stall_frame (s : State) (k : StreamId) (j : Nat)  : Touch.tQLF (State.stall s k j) s := by
  simp only [State.stall]
  (repeat' split) <;> simp [Touch.tQLF]
@[simp] theorem State.takeHead_frame (s : State) (k : StreamId) (bs : List Byte)  : Touch.tKMXQGLF (State.takeHead s k bs) s := by
  simp only [State.takeHead]
  (repeat' split) <;> simp [Touch.tKMXQGLF]
@[simp] theorem State.proceed_frame (s : State) (k : StreamId)  : Touch.tKMXQGLF (State.proceed s k) s := by
  simp only [State.proceed]
  (repeat' split) <;> simp [Touch.tKMXQGLF]
theorem execSlotRead_frame (k : StreamId) (s : State) {post : State} (h : execSlotRead k s = .next post) : Touch.tKMXQGLF post s := by
  simp only [execSlotRead, Host.Outcome.next.injEq] at h
  subst h
  (repeat' split) <;> simp [Touch.tKMXQGLF]
theorem execSlotReread_frame (k : StreamId) (s : State) {post : State} (h : execSlotReread k s = .next post) : Touch.tKMXQGLF post s := by
  simp only [execSlotReread, Host.Outcome.next.injEq] at h
  subst h
  (repeat' split) <;> simp [Touch.tKMXQGLF]
@[simp] theorem State.setCmd_frame (s : State) (k : StreamId) (i : Nat) (c : StreamCmd)  : Touch.tL (State.setCmd s k i c) s := by
  simp only [State.setCmd]
  (repeat' split) <;> simp [Touch.tL]
@[simp] theorem State.cmdDone_frame (s : State) (k : StreamId) (i : Nat) (c : StreamCmd) (st : W32)  : Touch.tKQLF (State.cmdDone s k i c st) s := by
  simp only [State.cmdDone]
  (repeat' split) <;> simp [Touch.tKQLF]
@[simp] theorem State.bare_frame (s : State) (k : StreamId) (i op : Nat)  : Touch.tKQLF (State.bare s k i op) s := by
  simp only [State.bare]
  (repeat' split) <;> simp [Touch.tKQLF]
theorem execStreamNop_frame (k : StreamId) (i : Nat) (s : State) {post : State} (h : execStreamNop k i s = .next post) : Touch.tKQLF post s := by
  simp only [execStreamNop, Host.Outcome.next.injEq] at h
  subst h
  (repeat' split) <;> simp [Touch.tKQLF]
theorem execStreamFence_frame (k : StreamId) (i : Nat) (s : State) {post : State} (h : execStreamFence k i s = .next post) : Touch.tKQLF post s := by
  simp only [execStreamFence, Host.Outcome.next.injEq] at h
  subst h
  (repeat' split) <;> simp [Touch.tKQLF]
@[simp] theorem State.inlineWrite_frame (s : State) (k : StreamId) (i op : Nat) (data : StreamCmd → List Byte)  : Touch.tKMXQGLF (State.inlineWrite s k i op data) s := by
  simp only [State.inlineWrite]
  (repeat' split) <;> simp [Touch.tKMXQGLF]
theorem execStreamInline_frame (k : StreamId) (i : Nat) (s : State) {post : State} (h : execStreamInline k i s = .next post) : Touch.tKMXQGLF post s := by
  simp only [execStreamInline, Host.Outcome.next.injEq] at h
  subst h
  (repeat' split) <;> simp [Touch.tKMXQGLF]
theorem execInlineChain_frame (k : StreamId) (i : Nat) (s : State) {post : State} (h : execInlineChain k i s = .next post) : Touch.tKMXQGLF post s := by
  simp only [execInlineChain, Host.Outcome.next.injEq] at h
  subst h
  (repeat' split) <;> simp [Touch.tKMXQGLF]
@[simp] theorem State.copyStart_frame (s : State) (k : StreamId) (i : Nat) (c : StreamCmd)  : Touch.tKMXQGLF (State.copyStart s k i c) s := by
  simp only [State.copyStart]
  (repeat' split) <;> simp [Touch.tKMXQGLF]
@[simp] theorem State.copySpoil_frame (s : State) (c : StreamCmd)  : Touch.tMF (State.copySpoil s c) s := by
  simp only [State.copySpoil]
  (repeat' split) <;> simp [Touch.tMF]
@[simp] theorem State.copyMove_frame (s : State) (k : StreamId) (i : Nat) (c : StreamCmd)  : Touch.tKMQGLF (State.copyMove s k i c) s := by
  simp only [State.copyMove]
  (repeat' split) <;> simp [Touch.tKMQGLF]
theorem execStreamCopy_frame (k : StreamId) (i : Nat) (s : State) {post : State} (h : execStreamCopy k i s = .next post) : Touch.tKMXQGLF post s := by
  simp only [execStreamCopy, Host.Outcome.next.injEq] at h
  subst h
  (repeat' split) <;> simp [Touch.tKMXQGLF]
@[simp] theorem State.served_frame (s : State) (k : StreamId)  : Touch.tK (State.served s k) s := by
  simp only [State.served]
  (repeat' split) <;> simp [Touch.tK]
theorem execStreamLaunch_frame (k : StreamId) (i : Nat) (prefTiles : List TileId) (prefBells : List BellId) (s : State) {post : State} (h : execStreamLaunch k i prefTiles prefBells s = .next post) : Touch.tTBKMCXQGLF post s := by
  simp only [execStreamLaunch, Host.Outcome.next.injEq] at h
  subst h
  (repeat' split) <;> simp [Touch.tTBKMCXQGLF]
theorem execStreamTerminate_frame (k : StreamId) (i : Nat) (s : State) {post : State} (h : execStreamTerminate k i s = .next post) : Touch.tTKQLF post s := by
  simp only [execStreamTerminate, Host.Outcome.next.injEq] at h
  subst h
  (repeat' split) <;> simp [Touch.tTKQLF]
theorem execStreamRing_frame (k : StreamId) (i : Nat) (s : State) {post : State} (h : execStreamRing k i s = .next post) : Touch.tTBKXQELF post s := by
  simp only [execStreamRing, Host.Outcome.next.injEq] at h
  subst h
  (repeat' split) <;> simp [Touch.tTBKXQELF]
@[simp] theorem State.streamWaitEval_frame (s : State) (k : StreamId) (i : Nat) (c : StreamCmd)  : Touch.tBKQELF (State.streamWaitEval s k i c) s := by
  simp only [State.streamWaitEval]
  (repeat' split) <;> simp [Touch.tBKQELF]
theorem execStreamWait_frame (k : StreamId) (i : Nat) (s : State) {post : State} (h : execStreamWait k i s = .next post) : Touch.tBKQELF post s := by
  simp only [execStreamWait, Host.Outcome.next.injEq] at h
  subst h
  (repeat' split) <;> simp [Touch.tBKQELF]
@[simp] theorem State.writeEntry_frame (s : State) (k : StreamId) (i : Nat) (c : StreamCmd) (e : W32 × W32)  : Touch.tMQGLF (State.writeEntry s k i c e) s := by
  simp only [State.writeEntry]
  (repeat' split) <;> simp [Touch.tMQGLF]
theorem execCompletionEntry_frame (k : StreamId) (i : Nat) (s : State) {post : State} (h : execCompletionEntry k i s = .next post) : Touch.tKMQGLF post s := by
  simp only [execCompletionEntry, Host.Outcome.next.injEq] at h
  subst h
  (repeat' split) <;> simp [Touch.tKMQGLF]

/-! ### Kettle -/

@[simp] theorem State.setKettle_frame (s : State) (k : KettleS)  : Touch.tP (State.setKettle s k) s := by
  simp only [State.setKettle]
  (repeat' split) <;> simp [Touch.tP]
@[simp] theorem State.raiseBelfry_frame (s : State) (cls type : Nat) (payload : List Byte)  : Touch.tQF (State.raiseBelfry s cls type payload) s := by
  simp only [State.raiseBelfry]
  (repeat' split) <;> simp [Touch.tQF]
@[simp] theorem State.railsOff_frame (s : State)  : Touch.tTBKMHCXQGWNLPS (State.railsOff s) s := by
  simp only [State.railsOff]
  (repeat' split) <;> simp [Touch.tTBKMHCXQGWNLPS]
@[simp] theorem State.powerLost_frame (s : State)  : Touch.tTBKMHCXQGWENLUPDIJS (State.powerLost s) s := by
  simp only [State.powerLost]
  (repeat' split) <;> simp [Touch.tTBKMHCXQGWENLUPDIJS]
@[simp] theorem State.thermalTrip_frame (s : State) (sensor : Nat) (reading : Int)  : Touch.tTBKMHCXQGWENLUPDIJSRF (State.thermalTrip s sensor reading) s := by
  simp only [State.thermalTrip]
  (repeat' split) <;> simp [Touch.tTBKMHCXQGWENLUPDIJSRF]
@[simp] theorem State.throttle_frame (s : State) (powerCap : Nat)  : Touch.tQPF (State.throttle s powerCap) s := by
  simp only [State.throttle]
  (repeat' split) <;> simp [Touch.tQPF]
@[simp] theorem State.hotDie_frame (s : State) (d : Nat)  : Touch.tQPF (State.hotDie s d) s := by
  simp only [State.hotDie]
  (repeat' split) <;> simp [Touch.tQPF]
@[simp] theorem State.hotStack_frame (s : State) (p : Ctrl × Int)  : Touch.tMQF (State.hotStack s p) s := by
  simp only [State.hotStack]
  (repeat' split) <;> simp [Touch.tMQF]
theorem execRailTargetReached_frame (s : State) {post : State} (h : execRailTargetReached s = .next post) : Touch.tQPF post s := by
  simp only [execRailTargetReached, Host.Outcome.next.injEq] at h
  subst h
  (repeat' split) <;> simp [Touch.tQPF]
theorem execKettleRoll_frame (v : W64) (s : State) {post : State} (h : execKettleRoll v s = .next post) : Touch.tEP post s := by
  simp only [execKettleRoll, Host.Outcome.next.injEq] at h
  subst h
  (repeat' split) <;> simp [Touch.tEP]

@[simp] theorem execKettleRoll_after (v : W64) (s : State) : Touch.tEP (s.after (execKettleRoll v)) s := by
  unfold State.after
  split
  · exact execKettleRoll_frame _ _  ‹_›
  · simp [Touch.tEP]
  · simp [Touch.tEP]
theorem execRoll_frame (k : StreamId) (i : Nat) (s : State) {post : State} (h : execRoll k i s = .next post) : Touch.tKQLPF post s := by
  simp only [execRoll, Host.Outcome.next.injEq] at h
  subst h
  (repeat' split) <;> simp [Touch.tKQLPF]
@[simp] theorem State.rollBoundary_frame (s : State) (r : KettleIn)  : Touch.tP (State.rollBoundary s r) s := by
  simp only [State.rollBoundary]
  (repeat' split) <;> simp [Touch.tP]
theorem execCurrentLimitAlert_frame (die : ADie) (amps : W32) (s : State) {post : State} (h : execCurrentLimitAlert die amps s = .next post) : Touch.tQPF post s := by
  simp only [execCurrentLimitAlert, Host.Outcome.next.injEq] at h
  subst h
  (repeat' split) <;> simp [Touch.tQPF]
@[simp] theorem State.grant_frame (s : State) (r : KettleIn) (budget : Nat)  : Touch.tP (State.grant s r budget) s := by
  simp only [State.grant]
  (repeat' split) <;> simp [Touch.tP]
@[simp] theorem State.shortfall_frame (s : State) (r : KettleIn)  : Touch.tQPF (State.shortfall s r) s := by
  simp only [State.shortfall]
  (repeat' split) <;> simp [Touch.tQPF]
@[simp] theorem State.boost_frame (s : State) (r : KettleIn)  : Touch.tTP (State.boost s r) s := by
  simp only [State.boost]
  (repeat' split) <;> simp [Touch.tTP]
@[simp] theorem State.observe_frame (s : State)  : Touch.tI (State.observe s) s := by
  simp only [State.observe]
  (repeat' split) <;> simp [Touch.tI]
@[simp] theorem State.kettleCycle_frame (s : State) (r : KettleIn)  : Touch.tTBKMHCXQGWENLUPDIJSRF (State.kettleCycle s r) s := by
  simp only [State.kettleCycle]
  (repeat' split) <;> simp [Touch.tTBKMHCXQGWENLUPDIJSRF]
theorem execKettleCycle_frame (r : KettleIn) (s : State) {post : State} (h : execKettleCycle r s = .next post) : Touch.tTBKMHCXQGWENLUPDIJSRF post s := by
  simp only [execKettleCycle, Host.Outcome.next.injEq] at h
  subst h
  (repeat' split) <;> simp [Touch.tTBKMHCXQGWENLUPDIJSRF]
theorem execInputReport_frame (volt10mV : Nat) (watts : Nat) (s : State) {post : State} (h : execInputReport volt10mV watts s = .next post) : Touch.tTBKMHCXQGWENLUPDIJSRF post s := by
  simp only [execInputReport, Host.Outcome.next.injEq] at h
  subst h
  (repeat' split) <;> simp [Touch.tTBKMHCXQGWENLUPDIJSRF]
@[simp] theorem State.monitorTile_frame (s : State) (t : TileId) (margin : Nat) (inRange : Bool) (reading : W16)  : Touch.tTQPF (State.monitorTile s t margin inRange reading) s := by
  simp only [State.monitorTile]
  (repeat' split) <;> simp [Touch.tTQPF]
@[simp] theorem State.monitorCore_frame (s : State) (c : CoreId) (margin : Nat) (inRange : Bool) (reading : W16)  : Touch.tCQF (State.monitorCore s c margin inRange reading) s := by
  simp only [State.monitorCore]
  (repeat' split) <;> simp [Touch.tCQF]
theorem execMonitorEvaluation_frame (u : MonUnit) (margin : Nat) (inRange : Bool) (reading : W16) (s : State) {post : State} (h : execMonitorEvaluation u margin inRange reading s = .next post) : Touch.tTCQPF post s := by
  cases u <;> simp only [execMonitorEvaluation, Host.Outcome.next.injEq] at h <;> subst h <;> simp [Touch.tTCQPF]
theorem execTrimSave_frame (s : State) {post : State} (h : execTrimSave s = .next post) : Touch.tD post s := by
  simp only [execTrimSave, Host.Outcome.next.injEq] at h
  subst h
  (repeat' split) <;> simp [Touch.tD]
@[simp] theorem State.tileService_frame (s : State) (t : TileId)  : Touch.tTP (State.tileService s t) s := by
  simp only [State.tileService]
  (repeat' split) <;> simp [Touch.tTP]
@[simp] theorem State.coreService_frame (s : State) (c : CoreId)  : Touch.tC (State.coreService s c) s := by
  simp only [State.coreService]
  (repeat' split) <;> simp [Touch.tC]
@[simp] theorem State.tileCeiling_frame (s : State) (t : TileId)  : Touch.tTP (State.tileCeiling s t) s := by
  simp only [State.tileCeiling]
  (repeat' split) <;> simp [Touch.tTP]

/-! ### Service -/

@[simp] theorem State.setSvc_frame (s : State) (v : SvcS)  : Touch.tS (State.setSvc s v) s := by
  simp only [State.setSvc]
  (repeat' split) <;> simp [Touch.tS]
@[simp] theorem State.setCust_frame (s : State) (c : CustS)  : Touch.tU (State.setCust s c) s := by
  simp only [State.setCust]
  (repeat' split) <;> simp [Touch.tU]
@[simp] theorem State.bootFails_frame (s : State)  : Touch.tS (State.bootFails s) s := by
  simp only [State.bootFails]
  (repeat' split) <;> simp [Touch.tS]
@[simp] theorem State.loadSettings_frame (s : State)  : Touch.tTN (State.loadSettings s) s := by
  simp only [State.loadSettings]
  (repeat' split) <;> simp [Touch.tTN]
@[simp] theorem State.raiseRails_frame (s : State)  : Touch.tPS (State.raiseRails s) s := by
  simp only [State.raiseRails]
  (repeat' split) <;> simp [Touch.tPS]
@[simp] theorem State.bringUp_frame (s : State)  : Touch.tTKNLUPS (State.bringUp s) s := by
  simp only [State.bringUp]
  (repeat' split) <;> simp [Touch.tTKNLUPS]
@[simp] theorem State.powerOn_frame (s : State)  : Touch.tTKQNLUPSF (State.powerOn s) s := by
  simp only [State.powerOn]
  (repeat' split) <;> simp [Touch.tTKQNLUPSF]
@[simp] theorem State.coldClear_frame (s : State)  : Touch.tTBKMHCXQGWENLUPDIJSRF (State.coldClear s) s := by
  simp only [State.coldClear]
  (repeat' split) <;> simp [Touch.tTBKMHCXQGWENLUPDIJSRF]
@[simp] theorem State.coldReset_frame (s : State)  : Touch.tTBKMHCXQGWENLUPDIJSRF (State.coldReset s) s := by
  simp only [State.coldReset]
  (repeat' split) <;> simp [Touch.tTBKMHCXQGWENLUPDIJSRF]
theorem execPowerOn_frame (volt10mV : Nat) (s : State) {post : State} (h : execPowerOn volt10mV s = .next post) : Touch.tTKQNLUPSF post s := by
  simp only [execPowerOn, Host.Outcome.next.injEq] at h
  subst h
  (repeat' split) <;> simp [Touch.tTKQNLUPSF]
theorem execEnTied_frame (millis : Nat) (s : State) {post : State} (h : execEnTied millis s = .next post) : Touch.tTKQNLUPSF post s := by
  simp only [execEnTied, Host.Outcome.next.injEq] at h
  subst h
  (repeat' split) <;> simp [Touch.tTKQNLUPSF]
theorem execEnBreak_frame (micros : Nat) (s : State) {post : State} (h : execEnBreak micros s = .next post) : Touch.tTBKMHCXQGWENLUPDIJSRF post s := by
  simp only [execEnBreak, Host.Outcome.next.injEq] at h
  subst h
  (repeat' split) <;> simp [Touch.tTBKMHCXQGWENLUPDIJSRF]
theorem execResetN_frame (low : Bool) (micros : Nat) (s : State) {post : State} (h : execResetN low micros s = .next post) : Touch.tTBKMHCXQGWENLUPDIJSRF post s := by
  simp only [execResetN, Host.Outcome.next.injEq] at h
  subst h
  (repeat' split) <;> simp [Touch.tTBKMHCXQGWENLUPDIJSRF]
@[simp] theorem State.enterMem_frame (s : State)  : Touch.tS (State.enterMem s) s := by
  simp only [State.enterMem]
  (repeat' split) <;> simp [Touch.tS]
@[simp] theorem State.startRuntime_frame (s : State)  : Touch.tTCXQSF (State.startRuntime s) s := by
  simp only [State.startRuntime]
  (repeat' split) <;> simp [Touch.tTCXQSF]
@[simp] theorem State.verifyRuntime_frame (s : State)  : Touch.tTMCXQUSF (State.verifyRuntime s) s := by
  simp only [State.verifyRuntime]
  (repeat' split) <;> simp [Touch.tTMCXQUSF]
theorem execCacheSweepComplete_frame (s : State) {post : State} (h : execCacheSweepComplete s = .next post) : Touch.tTHCXQSF post s := by
  simp only [execCacheSweepComplete, Host.Outcome.next.injEq] at h
  subst h
  (repeat' split) <;> simp [Touch.tTHCXQSF]
theorem execStackInitComplete_frame (c : Ctrl) (passed : Bool) (s : State) {post : State} (h : execStackInitComplete c passed s = .next post) : Touch.tTMCXQUSF post s := by
  simp only [execStackInitComplete, Host.Outcome.next.injEq] at h
  subst h
  (repeat' split) <;> simp [Touch.tTMCXQUSF]
@[simp] theorem State.selfTested_frame (s : State) (t : TileId) (f : SelfTest) (returning : Bool)  : Touch.tTQDF (State.selfTested s t f returning) s := by
  simp only [State.selfTested]
  (repeat' split) <;> simp [Touch.tTQDF]
theorem execArraySelfTest_frame (t : TileId) (found : SelfTest) (s : State) {post : State} (h : execArraySelfTest t found s = .next post) : Touch.tTQDSF post s := by
  simp only [execArraySelfTest, Host.Outcome.next.injEq] at h
  subst h
  (repeat' split) <;> simp [Touch.tTQDSF]
@[simp] theorem State.failLots_frame (s : State) (c : Ctrl)  : Touch.tN (State.failLots s c) s := by
  simp only [State.failLots]
  (repeat' split) <;> simp [Touch.tN]
@[simp] theorem State.retireGroup_frame (s : State) (l : LinkId) (g : Nat)  : Touch.tTBMXQGENF (State.retireGroup s l g) s := by
  simp only [State.retireGroup]
  (repeat' split) <;> simp [Touch.tTBMXQGENF]
@[simp] theorem State.takeOut_frame (s : State) (u : ServiceUnit) (force : Bool)  : Touch.tTBKMXQGENUDF (State.takeOut s u force) s := by
  simp only [State.takeOut]
  (repeat' split) <;> simp [Touch.tTBKMXQGENUDF]
@[simp] theorem State.flushCore_frame (s : State) (c : CoreId)  : Touch.tMHQGEF (State.flushCore s c) s := by
  simp only [State.flushCore]
  refine foldl_touch Touch.tMHQGEF (fun s => by simp [Touch.tMHQGEF]) (fun a b d h1 h2 => by simp only [Touch.tMHQGEF] at *; simp [h1, h2]) _ ?_ _ _
  intro s x
  (repeat' split) <;> simp [Touch.tMHQGEF]
@[simp] theorem State.putOut_frame (s : State) (u : ServiceUnit)  : Touch.tTMHCQGEF (State.putOut s u) s := by
  simp only [State.putOut]
  (repeat' split) <;> simp [Touch.tTMHCQGEF]
@[simp] theorem State.resetUnit_frame (s : State) (u : ServiceUnit)  : Touch.tTBMHCXQGENPF (State.resetUnit s u) s := by
  simp only [State.resetUnit]
  (repeat' split) <;> simp [Touch.tTBMHCXQGENPF]
@[simp] theorem State.rejoin_frame (s : State) (u : ServiceUnit)  : Touch.tTMCQNPF (State.rejoin s u) s := by
  simp only [State.rejoin]
  (repeat' split) <;> simp [Touch.tTMCQNPF]
@[simp] theorem State.stayOut_frame (s : State) (u : ServiceUnit)  : Touch.tMCN (State.stayOut s u) s := by
  simp only [State.stayOut]
  (repeat' split) <;> simp [Touch.tMCN]
@[simp] theorem State.actionEnds_frame (s : State) (result detail : Nat)  : Touch.tQSF (State.actionEnds s result detail) s := by
  simp only [State.actionEnds]
  (repeat' split) <;> simp [Touch.tQSF]
@[simp] theorem State.actTakeOut_frame (s : State) (u : ServiceUnit) (force : Bool)  : Touch.tTBKMXQGENUDSF (State.actTakeOut s u force) s := by
  simp only [State.actTakeOut]
  (repeat' split) <;> simp [Touch.tTBKMXQGENUDSF]
@[simp] theorem State.actReturn_frame (s : State) (u : ServiceUnit)  : Touch.tTBMHCXQGENPSF (State.actReturn s u) s := by
  simp only [State.actReturn]
  (repeat' split) <;> simp [Touch.tTBMHCXQGENPSF]
@[simp] theorem State.dieLeaves_frame (s : State) (d : Nat)  : Touch.tTBKMXQGENUDF (State.dieLeaves s d) s := by
  simp only [State.dieLeaves]
  (repeat' split) <;> simp [Touch.tTBKMXQGENUDF]
@[simp] theorem State.dieClears_frame (s : State) (d : Nat)  : Touch.tTBMHCXQGENPF (State.dieClears s d) s := by
  simp only [State.dieClears]
  (repeat' split) <;> simp [Touch.tTBMHCXQGENPF]
@[simp] theorem State.actDieReset_frame (s : State) (d : Nat)  : Touch.tTBKMHCXQGENUPDSF (State.actDieReset s d) s := by
  simp only [State.actDieReset]
  (repeat' split) <;> simp [Touch.tTBKMHCXQGENUPDSF]
@[simp] theorem State.actBringupDone_frame (s : State)  : Touch.tTCQPSF (State.actBringupDone s) s := by
  simp only [State.actBringupDone]
  (repeat' split) <;> simp [Touch.tTCQPSF]
@[simp] theorem State.actWriteSlot_frame (s : State) (slot chunk n : Nat)  : Touch.tQUSF (State.actWriteSlot s slot chunk n) s := by
  simp only [State.actWriteSlot]
  (repeat' split) <;> simp [Touch.tQUSF]
theorem execWriteSlotEnded_frame (ok : Bool) (s : State) {post : State} (h : execWriteSlotEnded ok s = .next post) : Touch.tQUSF post s := by
  simp only [execWriteSlotEnded, Host.Outcome.next.injEq] at h
  subst h
  (repeat' split) <;> simp [Touch.tQUSF]
@[simp] theorem State.actionRuns_frame (s : State) (w : W64)  : Touch.tTBKMHCXQGWENLUPDIJSRF (State.actionRuns s w) s := by
  simp only [State.actionRuns]
  (repeat' split) <;> simp [Touch.tTBKMHCXQGWENLUPDIJSRF]
@[simp] theorem State.actionStarts_frame (s : State) (w : W64)  : Touch.tTBKMHCXQGWENLUPDIJSRF (State.actionStarts s w) s := by
  simp only [State.actionStarts]
  (repeat' split) <;> simp [Touch.tTBKMHCXQGWENLUPDIJSRF]
@[simp] theorem State.writeAction_frame (s : State) (who : Principal) (w : W64)  : Touch.tTBKMHCXQGWENLUPDIJSRF (State.writeAction s who w) s := by
  simp only [State.writeAction]
  (repeat' split) <;> simp [Touch.tTBKMHCXQGWENLUPDIJSRF]
theorem execActNone_frame (who : Principal) (s : State) {post : State} (h : execActNone who s = .next post) : Touch.tTBKMHCXQGWENLUPDIJSRF post s := by
  simp only [execActNone, Host.Outcome.next.injEq] at h
  subst h
  (repeat' split) <;> simp [Touch.tTBKMHCXQGWENLUPDIJSRF]
theorem execColdReset_frame (who : Principal) (s : State) {post : State} (h : execColdReset who s = .next post) : Touch.tTBKMHCXQGWENLUPDIJSRF post s := by
  simp only [execColdReset, Host.Outcome.next.injEq] at h
  subst h
  (repeat' split) <;> simp [Touch.tTBKMHCXQGWENLUPDIJSRF]
theorem execBringupDone_frame (who : Principal) (s : State) {post : State} (h : execBringupDone who s = .next post) : Touch.tTBKMHCXQGWENLUPDIJSRF post s := by
  simp only [execBringupDone, Host.Outcome.next.injEq] at h
  subst h
  (repeat' split) <;> simp [Touch.tTBKMHCXQGWENLUPDIJSRF]
theorem execTakeOut_frame (who : Principal) (u : ServiceUnit) (force : Bool) (s : State) {post : State} (h : execTakeOut who u force s = .next post) : Touch.tTBKMHCXQGWENLUPDIJSRF post s := by
  simp only [execTakeOut, Host.Outcome.next.injEq] at h
  subst h
  (repeat' split) <;> simp [Touch.tTBKMHCXQGWENLUPDIJSRF]
theorem execBringBack_frame (who : Principal) (u : ServiceUnit) (s : State) {post : State} (h : execBringBack who u s = .next post) : Touch.tTBKMHCXQGWENLUPDIJSRF post s := by
  simp only [execBringBack, Host.Outcome.next.injEq] at h
  subst h
  (repeat' split) <;> simp [Touch.tTBKMHCXQGWENLUPDIJSRF]
theorem execRetest_frame (who : Principal) (t : TileId) (s : State) {post : State} (h : execRetest who t s = .next post) : Touch.tTBKMHCXQGWENLUPDIJSRF post s := by
  simp only [execRetest, Host.Outcome.next.injEq] at h
  subst h
  (repeat' split) <;> simp [Touch.tTBKMHCXQGWENLUPDIJSRF]
theorem execDieReset_frame (who : Principal) (die : ADie) (s : State) {post : State} (h : execDieReset who die s = .next post) : Touch.tTBKMHCXQGWENLUPDIJSRF post s := by
  simp only [execDieReset, Host.Outcome.next.injEq] at h
  subst h
  (repeat' split) <;> simp [Touch.tTBKMHCXQGWENLUPDIJSRF]
theorem execWriteSlot_frame (who : Principal) (slot : Fin 6) (chunk : BitVec 12) (len16 : W16) (s : State) {post : State} (h : execWriteSlot who slot chunk len16 s = .next post) : Touch.tTBKMHCXQGWENLUPDIJSRF post s := by
  simp only [execWriteSlot, Host.Outcome.next.injEq] at h
  subst h
  (repeat' split) <;> simp [Touch.tTBKMHCXQGWENLUPDIJSRF]
theorem execDebugOpen_frame (who : Principal) (set : BitVec 3) (s : State) {post : State} (h : execDebugOpen who set s = .next post) : Touch.tTBKMHCXQGWENLUPDIJSRF post s := by
  simp only [execDebugOpen, Host.Outcome.next.injEq] at h
  subst h
  (repeat' split) <;> simp [Touch.tTBKMHCXQGWENLUPDIJSRF]
theorem execDebugClose_frame (who : Principal) (s : State) {post : State} (h : execDebugClose who s = .next post) : Touch.tTBKMHCXQGWENLUPDIJSRF post s := by
  simp only [execDebugClose, Host.Outcome.next.injEq] at h
  subst h
  (repeat' split) <;> simp [Touch.tTBKMHCXQGWENLUPDIJSRF]
theorem execUnitOutOfService_frame (u : ServiceUnit) (s : State) {post : State} (h : execUnitOutOfService u s = .next post) : Touch.tTMHCQGESF post s := by
  simp only [execUnitOutOfService, Host.Outcome.next.injEq] at h
  subst h
  (repeat' split) <;> simp [Touch.tTMHCQGESF]
@[simp] theorem State.reintegrated_frame (s : State) (u : ServiceUnit)  : Touch.tTMCQNPDSF (State.reintegrated s u) s := by
  simp only [State.reintegrated]
  (repeat' split) <;> simp [Touch.tTMCQNPDSF]
theorem execReintegration_frame (u : ServiceUnit) (passed : Bool) (s : State) {post : State} (h : execReintegration u passed s = .next post) : Touch.tTMCQNPDSF post s := by
  simp only [execReintegration, Host.Outcome.next.injEq] at h
  subst h
  (repeat' split) <;> simp [Touch.tTMCQNPDSF]
theorem execRomBegin_frame (slot : Byte) (len : W32) (s : State) {post : State} (h : execRomBegin slot len s = .next post) : Touch.tSR post s := by
  simp only [execRomBegin, Host.Outcome.next.injEq] at h
  subst h
  (repeat' split) <;> simp [Touch.tSR]
theorem execRomData_frame (offset : W32) (bytes : List Byte) (s : State) {post : State} (h : execRomData offset bytes s = .next post) : Touch.tSR post s := by
  simp only [execRomData, Host.Outcome.next.injEq] at h
  subst h
  (repeat' split) <;> simp [Touch.tSR]
theorem execRomEnd_frame (s : State) {post : State} (h : execRomEnd s = .next post) : Touch.tTBKMHCXQGWENLUPDIJSRF post s := by
  simp only [execRomEnd, Host.Outcome.next.injEq] at h
  subst h
  (repeat' split) <;> simp [Touch.tTBKMHCXQGWENLUPDIJSRF]
theorem execLatchOpened_frame (bay : Fin 2) (s : State) {post : State} (h : execLatchOpened bay s = .next post) : Touch.tTBMXQGENUDSF post s := by
  simp only [execLatchOpened, Host.Outcome.next.injEq] at h
  subst h
  (repeat' split) <;> simp [Touch.tTBMXQGENUDSF]
theorem execBayInserted_frame (bay : Fin 2) (s : State) {post : State} (h : execBayInserted bay s = .next post) : Touch.tS post s := by
  simp only [execBayInserted, Host.Outcome.next.injEq] at h
  subst h
  (repeat' split) <;> simp [Touch.tS]

/-! ### Custody -/

@[simp] theorem State.sealKernels_frame (s : State)  : Touch.tTK (State.sealKernels s) s := by
  simp only [State.sealKernels]
  (repeat' split) <;> simp [Touch.tTK]
@[simp] theorem State.sealPorts_frame (s : State)  : Touch.tTBMXQGENUDF (State.sealPorts s) s := by
  simp only [State.sealPorts]
  refine foldl_touch Touch.tTBMXQGENUDF (fun s => by simp [Touch.tTBMXQGENUDF]) (fun a b d h1 h2 => by simp only [Touch.tTBMXQGENUDF] at *; simp [h1, h2]) _ ?_ _ _
  intro s x
  (repeat' split) <;> simp [Touch.tTBMXQGENUDF]
@[simp] theorem State.sealBegins_frame (s : State)  : Touch.tTBKMXQGENUDF (State.sealBegins s) s := by
  simp only [State.sealBegins]
  (repeat' split) <;> simp [Touch.tTBKMXQGENUDF]
theorem execSealedComplete_frame (s : State) {post : State} (h : execSealedComplete s = .next post) : Touch.tLU post s := by
  simp only [execSealedComplete, Host.Outcome.next.injEq] at h
  subst h
  (repeat' split) <;> simp [Touch.tLU]
@[simp] theorem State.setSpdm_frame (s : State) (p : SpdmPath) (x : SpdmS)  : Touch.tU (State.setSpdm s p x) s := by
  simp only [State.setSpdm]
  (repeat' split) <;> simp [Touch.tU]
@[simp] theorem State.spdmAt_tiles (s : State) (p : SpdmPath) (level : Nat) (act : SpdmS → State) (hd : ∀ x, (act x).tiles = s.tiles) : (State.spdmAt s p level act).tiles = s.tiles := by
  simp only [State.spdmAt]
  (repeat' split) <;> simp [hd]
@[simp] theorem State.spdmAt_bells (s : State) (p : SpdmPath) (level : Nat) (act : SpdmS → State) (hd : ∀ x, (act x).bells = s.bells) : (State.spdmAt s p level act).bells = s.bells := by
  simp only [State.spdmAt]
  (repeat' split) <;> simp [hd]
@[simp] theorem State.spdmAt_kern (s : State) (p : SpdmPath) (level : Nat) (act : SpdmS → State) (hd : ∀ x, (act x).kern = s.kern) : (State.spdmAt s p level act).kern = s.kern := by
  simp only [State.spdmAt]
  (repeat' split) <;> simp [hd]
@[simp] theorem State.spdmAt_mem (s : State) (p : SpdmPath) (level : Nat) (act : SpdmS → State) (hd : ∀ x, (act x).mem = s.mem) : (State.spdmAt s p level act).mem = s.mem := by
  simp only [State.spdmAt]
  (repeat' split) <;> simp [hd]
@[simp] theorem State.spdmAt_cache (s : State) (p : SpdmPath) (level : Nat) (act : SpdmS → State) (hd : ∀ x, (act x).cache = s.cache) : (State.spdmAt s p level act).cache = s.cache := by
  simp only [State.spdmAt]
  (repeat' split) <;> simp [hd]
@[simp] theorem State.spdmAt_cores (s : State) (p : SpdmPath) (level : Nat) (act : SpdmS → State) (hd : ∀ x, (act x).cores = s.cores) : (State.spdmAt s p level act).cores = s.cores := by
  simp only [State.spdmAt]
  (repeat' split) <;> simp [hd]
@[simp] theorem State.spdmAt_xlat (s : State) (p : SpdmPath) (level : Nat) (act : SpdmS → State) (hd : ∀ x, (act x).xlat = s.xlat) : (State.spdmAt s p level act).xlat = s.xlat := by
  simp only [State.spdmAt]
  (repeat' split) <;> simp [hd]
@[simp] theorem State.spdmAt_tocsin (s : State) (p : SpdmPath) (level : Nat) (act : SpdmS → State) (hd : ∀ x, (act x).tocsin = s.tocsin) : (State.spdmAt s p level act).tocsin = s.tocsin := by
  simp only [State.spdmAt]
  (repeat' split) <;> simp [hd]
@[simp] theorem State.spdmAt_mig (s : State) (p : SpdmPath) (level : Nat) (act : SpdmS → State) (hd : ∀ x, (act x).mig = s.mig) : (State.spdmAt s p level act).mig = s.mig := by
  simp only [State.spdmAt]
  (repeat' split) <;> simp [hd]
@[simp] theorem State.spdmAt_win (s : State) (p : SpdmPath) (level : Nat) (act : SpdmS → State) (hd : ∀ x, (act x).win = s.win) : (State.spdmAt s p level act).win = s.win := by
  simp only [State.spdmAt]
  (repeat' split) <;> simp [hd]
@[simp] theorem State.spdmAt_tele (s : State) (p : SpdmPath) (level : Nat) (act : SpdmS → State) (hd : ∀ x, (act x).tele = s.tele) : (State.spdmAt s p level act).tele = s.tele := by
  simp only [State.spdmAt]
  (repeat' split) <;> simp [hd]
@[simp] theorem State.spdmAt_net (s : State) (p : SpdmPath) (level : Nat) (act : SpdmS → State) (hd : ∀ x, (act x).net = s.net) : (State.spdmAt s p level act).net = s.net := by
  simp only [State.spdmAt]
  (repeat' split) <;> simp [hd]
@[simp] theorem State.spdmAt_cxl (s : State) (p : SpdmPath) (level : Nat) (act : SpdmS → State) (hd : ∀ x, (act x).cxl = s.cxl) : (State.spdmAt s p level act).cxl = s.cxl := by
  simp only [State.spdmAt]
  (repeat' split) <;> simp [hd]
@[simp] theorem State.spdmAt_cust (s : State) (p : SpdmPath) (level : Nat) (act : SpdmS → State) (hd : ∀ x, (act x).cust = s.cust) : (State.spdmAt s p level act).cust = s.cust := by
  simp only [State.spdmAt]
  (repeat' split) <;> simp [hd]
@[simp] theorem State.spdmAt_kettle (s : State) (p : SpdmPath) (level : Nat) (act : SpdmS → State) (hd : ∀ x, (act x).kettle = s.kettle) : (State.spdmAt s p level act).kettle = s.kettle := by
  simp only [State.spdmAt]
  (repeat' split) <;> simp [hd]
@[simp] theorem State.spdmAt_dict (s : State) (p : SpdmPath) (level : Nat) (act : SpdmS → State) (hd : ∀ x, (act x).dict = s.dict) : (State.spdmAt s p level act).dict = s.dict := by
  simp only [State.spdmAt]
  (repeat' split) <;> simp [hd]
@[simp] theorem State.spdmAt_window (s : State) (p : SpdmPath) (level : Nat) (act : SpdmS → State) (hd : ∀ x, (act x).window = s.window) : (State.spdmAt s p level act).window = s.window := by
  simp only [State.spdmAt]
  (repeat' split) <;> simp [hd]
@[simp] theorem State.spdmAt_coarse (s : State) (p : SpdmPath) (level : Nat) (act : SpdmS → State) (hd : ∀ x, (act x).coarse = s.coarse) : (State.spdmAt s p level act).coarse = s.coarse := by
  simp only [State.spdmAt]
  (repeat' split) <;> simp [hd]
@[simp] theorem State.spdmAt_svc (s : State) (p : SpdmPath) (level : Nat) (act : SpdmS → State) (hd : ∀ x, (act x).svc = s.svc) : (State.spdmAt s p level act).svc = s.svc := by
  simp only [State.spdmAt]
  (repeat' split) <;> simp [hd]
@[simp] theorem State.spdmAt_fresh (s : State) (p : SpdmPath) (level : Nat) (act : SpdmS → State) (hd : ∀ x, (act x).fresh = s.fresh) : (State.spdmAt s p level act).fresh = s.fresh := by
  simp only [State.spdmAt]
  (repeat' split) <;> simp [hd]
@[simp] theorem State.spdmAt_pending (s : State) (p : SpdmPath) (level : Nat) (act : SpdmS → State) (hd : ∀ x, (act x).pending = s.pending) : (State.spdmAt s p level act).pending = s.pending := by
  simp only [State.spdmAt]
  (repeat' split) <;> simp [hd]
theorem execGetVersion_frame (p : SpdmPath) (s : State) {post : State} (h : execGetVersion p s = .next post) : Touch.tUR post s := by
  simp only [execGetVersion, Host.Outcome.next.injEq] at h
  subst h
  (repeat' split) <;> simp [Touch.tUR]
theorem execGetCapabilities_frame (p : SpdmPath) (s : State) {post : State} (h : execGetCapabilities p s = .next post) : Touch.tUR post s := by
  simp only [execGetCapabilities, Host.Outcome.next.injEq] at h
  subst h
  (repeat' split) <;> simp [Touch.tUR]
theorem execNegotiateAlgorithms_frame (p : SpdmPath) (common : Bool) (s : State) {post : State} (h : execNegotiateAlgorithms p common s = .next post) : Touch.tUR post s := by
  simp only [execNegotiateAlgorithms, Host.Outcome.next.injEq] at h
  subst h
  (repeat' split) <;> simp [Touch.tUR]
theorem execGetDigests_frame (p : SpdmPath) (s : State) {post : State} (h : execGetDigests p s = .next post) : Touch.tR post s := by
  simp only [execGetDigests, Host.Outcome.next.injEq] at h
  subst h
  (repeat' split) <;> simp [Touch.tR]
theorem execGetCertificate_frame (p : SpdmPath) (slot offset len : Nat) (s : State) {post : State} (h : execGetCertificate p slot offset len s = .next post) : Touch.tR post s := by
  simp only [execGetCertificate, Host.Outcome.next.injEq] at h
  subst h
  (repeat' split) <;> simp [Touch.tR]
@[simp] theorem State.signed_frame (s : State) (request content : List Byte)  : Touch.tRF (State.signed s request content) s := by
  simp only [State.signed]
  (repeat' split) <;> simp [Touch.tRF]
theorem execChallenge_frame (p : SpdmPath) (nonce : List Byte) (s : State) {post : State} (h : execChallenge p nonce s = .next post) : Touch.tRF post s := by
  simp only [execChallenge, Host.Outcome.next.injEq] at h
  subst h
  (repeat' split) <;> simp [Touch.tRF]
theorem execGetMeasurements_frame (p : SpdmPath) (nonce : List Byte) (s : State) {post : State} (h : execGetMeasurements p nonce s = .next post) : Touch.tRF post s := by
  simp only [execGetMeasurements, Host.Outcome.next.injEq] at h
  subst h
  (repeat' split) <;> simp [Touch.tRF]
theorem execKeyExchange_frame (p : SpdmPath) (exchange : List Byte) (s : State) {post : State} (h : execKeyExchange p exchange s = .next post) : Touch.tURF post s := by
  simp only [execKeyExchange, Host.Outcome.next.injEq] at h
  subst h
  (repeat' split) <;> simp [Touch.tURF]
theorem execFinish_frame (p : SpdmPath) (valid bothSides : Bool) (s : State) {post : State} (h : execFinish p valid bothSides s = .next post) : Touch.tUR post s := by
  simp only [execFinish, State.spdmAt] at h
  (repeat' split at h) <;> (simp only [Host.Outcome.next.injEq] at h; subst h; (repeat' split) <;> simp [Touch.tUR])
theorem execHeartbeat_frame (p : SpdmPath) (s : State) {post : State} (h : execHeartbeat p s = .next post) : Touch.tR post s := by
  simp only [execHeartbeat, Host.Outcome.next.injEq] at h
  subst h
  (repeat' split) <;> simp [Touch.tR]
theorem execKeyUpdate_frame (p : SpdmPath) (s : State) {post : State} (h : execKeyUpdate p s = .next post) : Touch.tNUR post s := by
  simp only [execKeyUpdate, State.spdmAt] at h
  (repeat' split at h) <;> (simp only [Host.Outcome.next.injEq] at h; subst h; (repeat' split) <;> simp [Touch.tNUR])
theorem execEndSession_frame (p : SpdmPath) (s : State) {post : State} (h : execEndSession p s = .next post) : Touch.tTBMXQGENUDRF post s := by
  simp only [execEndSession, State.spdmAt] at h
  (repeat' split at h) <;> (simp only [Host.Outcome.next.injEq] at h; subst h; (repeat' split) <;> simp [Touch.tTBMXQGENUDRF])

/-! ### Reads -/

@[simp] theorem State.beforeRead_frame (s : State) (b o : Nat)  : Touch.tQF (State.beforeRead s b o) s := by
  simp only [State.beforeRead]
  (repeat' split) <;> simp [Touch.tQF]

/-! ### Dict -/

@[simp] theorem State.ownerWrites_frame (s : State) (i : Item)  : Touch.tU (State.ownerWrites s i) s := by
  simp only [State.ownerWrites]
  (repeat' split) <;> simp [Touch.tU]
@[simp] theorem State.coordsTaken_frame (s : State)  : Touch.tQNF (State.coordsTaken s) s := by
  simp only [State.coordsTaken]
  (repeat' split) <;> simp [Touch.tQNF]
@[simp] theorem State.takesEffect_frame (s : State) (write : Bool) (items : List Item)  : Touch.tTBKMHCXQGWENLUPDIJSRF (State.takesEffect s write items) s := by
  simp only [State.takesEffect]
  (repeat' split) <;> simp [Touch.tTBKMHCXQGWENLUPDIJSRF]
@[simp] theorem State.authFailed_frame (s : State) (p : Path) (id : W32)  : Touch.tEDF (State.authFailed s p id) s := by
  simp only [State.authFailed]
  (repeat' split) <;> simp [Touch.tEDF]
@[simp] theorem State.requestDone_frame (s : State) (ses : Option SessionS) (f : Pdu) (resp : List Byte)  : Touch.tD (State.requestDone s ses f resp) s := by
  simp only [State.requestDone]
  (repeat' split) <;> simp [Touch.tD]
@[simp] theorem State.sendBack_frame (s : State) (p : Path) (code : W32) (resp : List Byte)  : Touch.tCQLDRF (State.sendBack s p code resp) s := by
  simp only [State.sendBack]
  (repeat' split) <;> simp [Touch.tCQLDRF]
@[simp] theorem State.frame_tiles (s : State) (p : Path) (f : Pdu) (op : Nat) (act : Option SessionS → List Byte → State) (hd : ∀ x y, (act x y).tiles = s.tiles) : (State.frame s p f op act).tiles = s.tiles := by
  simp only [State.frame]
  (repeat' split) <;> simp [hd]
@[simp] theorem State.frame_bells (s : State) (p : Path) (f : Pdu) (op : Nat) (act : Option SessionS → List Byte → State) (hd : ∀ x y, (act x y).bells = s.bells) : (State.frame s p f op act).bells = s.bells := by
  simp only [State.frame]
  (repeat' split) <;> simp [hd]
@[simp] theorem State.frame_kern (s : State) (p : Path) (f : Pdu) (op : Nat) (act : Option SessionS → List Byte → State) (hd : ∀ x y, (act x y).kern = s.kern) : (State.frame s p f op act).kern = s.kern := by
  simp only [State.frame]
  (repeat' split) <;> simp [hd]
@[simp] theorem State.frame_mem (s : State) (p : Path) (f : Pdu) (op : Nat) (act : Option SessionS → List Byte → State) (hd : ∀ x y, (act x y).mem = s.mem) : (State.frame s p f op act).mem = s.mem := by
  simp only [State.frame]
  (repeat' split) <;> simp [hd]
@[simp] theorem State.frame_cache (s : State) (p : Path) (f : Pdu) (op : Nat) (act : Option SessionS → List Byte → State) (hd : ∀ x y, (act x y).cache = s.cache) : (State.frame s p f op act).cache = s.cache := by
  simp only [State.frame]
  (repeat' split) <;> simp [hd]
@[simp] theorem State.frame_xlat (s : State) (p : Path) (f : Pdu) (op : Nat) (act : Option SessionS → List Byte → State) (hd : ∀ x y, (act x y).xlat = s.xlat) : (State.frame s p f op act).xlat = s.xlat := by
  simp only [State.frame]
  (repeat' split) <;> simp [hd]
@[simp] theorem State.frame_mig (s : State) (p : Path) (f : Pdu) (op : Nat) (act : Option SessionS → List Byte → State) (hd : ∀ x y, (act x y).mig = s.mig) : (State.frame s p f op act).mig = s.mig := by
  simp only [State.frame]
  (repeat' split) <;> simp [hd]
@[simp] theorem State.frame_win (s : State) (p : Path) (f : Pdu) (op : Nat) (act : Option SessionS → List Byte → State) (hd : ∀ x y, (act x y).win = s.win) : (State.frame s p f op act).win = s.win := by
  simp only [State.frame]
  (repeat' split) <;> simp [hd]
@[simp] theorem State.frame_net (s : State) (p : Path) (f : Pdu) (op : Nat) (act : Option SessionS → List Byte → State) (hd : ∀ x y, (act x y).net = s.net) : (State.frame s p f op act).net = s.net := by
  simp only [State.frame]
  (repeat' split) <;> simp [hd]
@[simp] theorem State.frame_cust (s : State) (p : Path) (f : Pdu) (op : Nat) (act : Option SessionS → List Byte → State) (hd : ∀ x y, (act x y).cust = s.cust) : (State.frame s p f op act).cust = s.cust := by
  simp only [State.frame]
  (repeat' split) <;> simp [hd]
@[simp] theorem State.frame_kettle (s : State) (p : Path) (f : Pdu) (op : Nat) (act : Option SessionS → List Byte → State) (hd : ∀ x y, (act x y).kettle = s.kettle) : (State.frame s p f op act).kettle = s.kettle := by
  simp only [State.frame]
  (repeat' split) <;> simp [hd]
@[simp] theorem State.frame_window (s : State) (p : Path) (f : Pdu) (op : Nat) (act : Option SessionS → List Byte → State) (hd : ∀ x y, (act x y).window = s.window) : (State.frame s p f op act).window = s.window := by
  simp only [State.frame]
  (repeat' split) <;> simp [hd]
@[simp] theorem State.frame_coarse (s : State) (p : Path) (f : Pdu) (op : Nat) (act : Option SessionS → List Byte → State) (hd : ∀ x y, (act x y).coarse = s.coarse) : (State.frame s p f op act).coarse = s.coarse := by
  simp only [State.frame]
  (repeat' split) <;> simp [hd]
@[simp] theorem State.frame_svc (s : State) (p : Path) (f : Pdu) (op : Nat) (act : Option SessionS → List Byte → State) (hd : ∀ x y, (act x y).svc = s.svc) : (State.frame s p f op act).svc = s.svc := by
  simp only [State.frame]
  (repeat' split) <;> simp [hd]
@[simp] theorem State.frame_pending (s : State) (p : Path) (f : Pdu) (op : Nat) (act : Option SessionS → List Byte → State) (hd : ∀ x y, (act x y).pending = s.pending) : (State.frame s p f op act).pending = s.pending := by
  simp only [State.frame]
  (repeat' split) <;> simp [hd]
@[simp] theorem State.finish_frame (s : State) (p : Path) (f : Pdu) (ses : Option SessionS) (key body : List Byte)  : Touch.tCQLDRF (State.finish s p f ses key body) s := by
  simp only [State.finish]
  (repeat' split) <;> simp [Touch.tCQLDRF]
@[simp] theorem State.dictRead_frame (s : State) (p : Path) (f : Pdu)  : Touch.tCQELDRF (State.dictRead s p f) s := by
  simp only [State.dictRead]
  (repeat' split) <;> simp [Touch.tCQELDRF]
@[simp] theorem State.dictCommit_pending (s : State) (p : Path) (f : Pdu) (ses : Option SessionS) (key : List Byte) (logged : Bool) (check : Item → Nat) (apply : State → Item → State) (hd : ∀ t i, (apply t i).pending = t.pending) : (State.dictCommit s p f ses key logged check apply).pending = s.pending := by
  simp only [State.dictCommit]
  (repeat' split) <;> simp [hd]
@[simp] theorem State.dictWrite_frame (s : State) (p : Path) (f : Pdu)  : Touch.tTBKMHCXQGWENLUPDIJSRF (State.dictWrite s p f) s := by
  simp only [State.dictWrite]
  (repeat' split) <;> simp [Touch.tTBKMHCXQGWENLUPDIJSRF]
@[simp] theorem State.dictFreeze_frame (s : State) (p : Path) (f : Pdu)  : Touch.tTBKMHCXQGWENLUPDIJSRF (State.dictFreeze s p f) s := by
  simp only [State.dictFreeze]
  (repeat' split) <;> simp [Touch.tTBKMHCXQGWENLUPDIJSRF]
@[simp] theorem State.dictRelease_frame (s : State) (p : Path) (f : Pdu)  : Touch.tTBKMHCXQGWENLUPDIJSRF (State.dictRelease s p f) s := by
  simp only [State.dictRelease]
  (repeat' split) <;> simp [Touch.tTBKMHCXQGWENLUPDIJSRF]
@[simp] theorem State.dictDescribe_frame (s : State) (p : Path) (f : Pdu)  : Touch.tCQELDRF (State.dictDescribe s p f) s := by
  simp only [State.dictDescribe]
  (repeat' split) <;> simp [Touch.tCQELDRF]
@[simp] theorem State.dictDiscover_frame (s : State) (p : Path) (f : Pdu)  : Touch.tCQELDRF (State.dictDiscover s p f) s := by
  simp only [State.dictDiscover]
  (repeat' split) <;> simp [Touch.tCQELDRF]
@[simp] theorem State.dictOpen_frame (s : State) (p : Path) (f : Pdu)  : Touch.tCQELDRF (State.dictOpen s p f) s := by
  simp only [State.dictOpen]
  (repeat' split) <;> simp [Touch.tCQELDRF]
@[simp] theorem State.dictClose_frame (s : State) (p : Path) (f : Pdu)  : Touch.tCQELDRF (State.dictClose s p f) s := by
  simp only [State.dictClose, State.frame]
  (repeat' split) <;> simp [Touch.tCQELDRF]
theorem execDictRead_frame (p : Path) (f : Pdu) (s : State) {post : State} (h : execDictRead p f s = .next post) : Touch.tCQELDRF post s := by
  simp only [execDictRead, Host.Outcome.next.injEq] at h
  subst h
  (repeat' split) <;> simp [Touch.tCQELDRF]
theorem execDictWrite_frame (p : Path) (f : Pdu) (s : State) {post : State} (h : execDictWrite p f s = .next post) : Touch.tTBKMHCXQGWENLUPDIJSRF post s := by
  simp only [execDictWrite, Host.Outcome.next.injEq] at h
  subst h
  (repeat' split) <;> simp [Touch.tTBKMHCXQGWENLUPDIJSRF]
theorem execDictFreeze_frame (p : Path) (f : Pdu) (s : State) {post : State} (h : execDictFreeze p f s = .next post) : Touch.tTBKMHCXQGWENLUPDIJSRF post s := by
  simp only [execDictFreeze, Host.Outcome.next.injEq] at h
  subst h
  (repeat' split) <;> simp [Touch.tTBKMHCXQGWENLUPDIJSRF]
theorem execDictRelease_frame (p : Path) (f : Pdu) (s : State) {post : State} (h : execDictRelease p f s = .next post) : Touch.tTBKMHCXQGWENLUPDIJSRF post s := by
  simp only [execDictRelease, Host.Outcome.next.injEq] at h
  subst h
  (repeat' split) <;> simp [Touch.tTBKMHCXQGWENLUPDIJSRF]
theorem execDictDescribe_frame (p : Path) (f : Pdu) (s : State) {post : State} (h : execDictDescribe p f s = .next post) : Touch.tCQELDRF post s := by
  simp only [execDictDescribe, Host.Outcome.next.injEq] at h
  subst h
  (repeat' split) <;> simp [Touch.tCQELDRF]
theorem execDictDiscover_frame (p : Path) (f : Pdu) (s : State) {post : State} (h : execDictDiscover p f s = .next post) : Touch.tCQELDRF post s := by
  simp only [execDictDiscover, Host.Outcome.next.injEq] at h
  subst h
  (repeat' split) <;> simp [Touch.tCQELDRF]
theorem execDictOpen_frame (p : Path) (f : Pdu) (s : State) {post : State} (h : execDictOpen p f s = .next post) : Touch.tCQELDRF post s := by
  simp only [execDictOpen, Host.Outcome.next.injEq] at h
  subst h
  (repeat' split) <;> simp [Touch.tCQELDRF]
theorem execDictClose_frame (p : Path) (f : Pdu) (s : State) {post : State} (h : execDictClose p f s = .next post) : Touch.tCQELDRF post s := by
  simp only [execDictClose, Host.Outcome.next.injEq] at h
  subst h
  (repeat' split) <;> simp [Touch.tCQELDRF]
theorem execMydarRequest_frame (f : Pdu) (s : State) {post : State} (h : execMydarRequest f s = .next post) : Touch.tTBKMHCXQGWENLUPDIJSRF post s := by
  simp only [execMydarRequest, Host.Outcome.next.injEq] at h
  subst h
  (repeat' split) <;> simp [Touch.tTBKMHCXQGWENLUPDIJSRF]
theorem execSessionIdleTimeout_frame (p : Path) (session : W32) (s : State) {post : State} (h : execSessionIdleTimeout p session s = .next post) : Touch.tD post s := by
  simp only [execSessionIdleTimeout, Host.Outcome.next.injEq] at h
  subst h
  (repeat' split) <;> simp [Touch.tD]
theorem execFrameDrop_frame (_why : FrameFault) (s : State) {post : State} (h : execFrameDrop _why s = .next post) : Touch.tE post s := by
  simp only [execFrameDrop, Host.Outcome.next.injEq] at h
  subst h
  (repeat' split) <;> simp [Touch.tE]
theorem execTelemetryWindow_frame (s : State) {post : State} (h : execTelemetryWindow s = .next post) : Touch.tIJ post s := by
  simp only [execTelemetryWindow, Host.Outcome.next.injEq] at h
  subst h
  (repeat' split) <;> simp [Touch.tIJ]

/-! ### Regs -/

@[simp] theorem State.putRing_tiles (s : State) (r : Ring) (what grain top v : Nat) (put : Ring → State) (hd : ∀ y, (put y).tiles = s.tiles) : (State.putRing s r what grain top v put).tiles = s.tiles := by
  simp only [State.putRing]
  (repeat' split) <;> simp [hd]
@[simp] theorem State.putRing_bells (s : State) (r : Ring) (what grain top v : Nat) (put : Ring → State) (hd : ∀ y, (put y).bells = s.bells) : (State.putRing s r what grain top v put).bells = s.bells := by
  simp only [State.putRing]
  (repeat' split) <;> simp [hd]
@[simp] theorem State.putRing_kern (s : State) (r : Ring) (what grain top v : Nat) (put : Ring → State) (hd : ∀ y, (put y).kern = s.kern) : (State.putRing s r what grain top v put).kern = s.kern := by
  simp only [State.putRing]
  (repeat' split) <;> simp [hd]
@[simp] theorem State.putRing_mem (s : State) (r : Ring) (what grain top v : Nat) (put : Ring → State) (hd : ∀ y, (put y).mem = s.mem) : (State.putRing s r what grain top v put).mem = s.mem := by
  simp only [State.putRing]
  (repeat' split) <;> simp [hd]
@[simp] theorem State.putRing_cache (s : State) (r : Ring) (what grain top v : Nat) (put : Ring → State) (hd : ∀ y, (put y).cache = s.cache) : (State.putRing s r what grain top v put).cache = s.cache := by
  simp only [State.putRing]
  (repeat' split) <;> simp [hd]
@[simp] theorem State.putRing_cores (s : State) (r : Ring) (what grain top v : Nat) (put : Ring → State) (hd : ∀ y, (put y).cores = s.cores) : (State.putRing s r what grain top v put).cores = s.cores := by
  simp only [State.putRing]
  (repeat' split) <;> simp [hd]
@[simp] theorem State.putRing_xlat (s : State) (r : Ring) (what grain top v : Nat) (put : Ring → State) (hd : ∀ y, (put y).xlat = s.xlat) : (State.putRing s r what grain top v put).xlat = s.xlat := by
  simp only [State.putRing]
  (repeat' split) <;> simp [hd]
@[simp] theorem State.putRing_tocsin (s : State) (r : Ring) (what grain top v : Nat) (put : Ring → State) (hd : ∀ y, (put y).tocsin = s.tocsin) : (State.putRing s r what grain top v put).tocsin = s.tocsin := by
  simp only [State.putRing]
  (repeat' split) <;> simp [hd]
@[simp] theorem State.putRing_mig (s : State) (r : Ring) (what grain top v : Nat) (put : Ring → State) (hd : ∀ y, (put y).mig = s.mig) : (State.putRing s r what grain top v put).mig = s.mig := by
  simp only [State.putRing]
  (repeat' split) <;> simp [hd]
@[simp] theorem State.putRing_win (s : State) (r : Ring) (what grain top v : Nat) (put : Ring → State) (hd : ∀ y, (put y).win = s.win) : (State.putRing s r what grain top v put).win = s.win := by
  simp only [State.putRing]
  (repeat' split) <;> simp [hd]
@[simp] theorem State.putRing_net (s : State) (r : Ring) (what grain top v : Nat) (put : Ring → State) (hd : ∀ y, (put y).net = s.net) : (State.putRing s r what grain top v put).net = s.net := by
  simp only [State.putRing]
  (repeat' split) <;> simp [hd]
@[simp] theorem State.putRing_cxl (s : State) (r : Ring) (what grain top v : Nat) (put : Ring → State) (hd : ∀ y, (put y).cxl = s.cxl) : (State.putRing s r what grain top v put).cxl = s.cxl := by
  simp only [State.putRing]
  (repeat' split) <;> simp [hd]
@[simp] theorem State.putRing_cust (s : State) (r : Ring) (what grain top v : Nat) (put : Ring → State) (hd : ∀ y, (put y).cust = s.cust) : (State.putRing s r what grain top v put).cust = s.cust := by
  simp only [State.putRing]
  (repeat' split) <;> simp [hd]
@[simp] theorem State.putRing_kettle (s : State) (r : Ring) (what grain top v : Nat) (put : Ring → State) (hd : ∀ y, (put y).kettle = s.kettle) : (State.putRing s r what grain top v put).kettle = s.kettle := by
  simp only [State.putRing]
  (repeat' split) <;> simp [hd]
@[simp] theorem State.putRing_dict (s : State) (r : Ring) (what grain top v : Nat) (put : Ring → State) (hd : ∀ y, (put y).dict = s.dict) : (State.putRing s r what grain top v put).dict = s.dict := by
  simp only [State.putRing]
  (repeat' split) <;> simp [hd]
@[simp] theorem State.putRing_window (s : State) (r : Ring) (what grain top v : Nat) (put : Ring → State) (hd : ∀ y, (put y).window = s.window) : (State.putRing s r what grain top v put).window = s.window := by
  simp only [State.putRing]
  (repeat' split) <;> simp [hd]
@[simp] theorem State.putRing_coarse (s : State) (r : Ring) (what grain top v : Nat) (put : Ring → State) (hd : ∀ y, (put y).coarse = s.coarse) : (State.putRing s r what grain top v put).coarse = s.coarse := by
  simp only [State.putRing]
  (repeat' split) <;> simp [hd]
@[simp] theorem State.putRing_svc (s : State) (r : Ring) (what grain top v : Nat) (put : Ring → State) (hd : ∀ y, (put y).svc = s.svc) : (State.putRing s r what grain top v put).svc = s.svc := by
  simp only [State.putRing]
  (repeat' split) <;> simp [hd]
@[simp] theorem State.putRing_reply (s : State) (r : Ring) (what grain top v : Nat) (put : Ring → State) (hd : ∀ y, (put y).reply = s.reply) : (State.putRing s r what grain top v put).reply = s.reply := by
  simp only [State.putRing]
  (repeat' split) <;> simp [hd]
@[simp] theorem State.putRing_fresh (s : State) (r : Ring) (what grain top v : Nat) (put : Ring → State) (hd : ∀ y, (put y).fresh = s.fresh) : (State.putRing s r what grain top v put).fresh = s.fresh := by
  simp only [State.putRing]
  (repeat' split) <;> simp [hd]
@[simp] theorem State.putRing_pending (s : State) (r : Ring) (what grain top v : Nat) (put : Ring → State) (hd : ∀ y, (put y).pending = s.pending) : (State.putRing s r what grain top v put).pending = s.pending := by
  simp only [State.putRing]
  (repeat' split) <;> simp [hd]
@[simp] theorem State.putBell_frame (s : State) (who : Option CoreId) (b o v : Nat)  : Touch.tTBXQEF (State.putBell s who b o v) s := by
  simp only [State.putBell]
  (repeat' split) <;> simp [Touch.tTBXQEF]
@[simp] theorem State.putTileReg_frame (s : State) (t : TileId) (o v : Nat)  : Touch.tTE (State.putTileReg s t o v) s := by
  simp only [State.putTileReg]
  (repeat' split) <;> simp [Touch.tTE]
@[simp] theorem State.putCtrlReg_frame (s : State) (c o v : Nat)  : Touch.tM (State.putCtrlReg s c o v) s := by
  simp only [State.putCtrlReg]
  (repeat' split) <;> simp [Touch.tM]
@[simp] theorem State.putA_frame (s : State) (who : Option CoreId) (d o v : Nat)  : Touch.tTBMXQEF (State.putA s who d o v) s := by
  simp only [State.putA]
  (repeat' split) <;> simp [Touch.tTBMXQEF]
@[simp] theorem State.putMemReg_frame (s : State) (o v : Nat)  : Touch.tMEF (State.putMemReg s o v) s := by
  simp only [State.putMemReg]
  (repeat' split) <;> simp [Touch.tMEF]
@[simp] theorem State.putXlatReg_frame (s : State) (o v : Nat)  : Touch.tTMCXQGENF (State.putXlatReg s o v) s := by
  simp only [State.putXlatReg]
  (repeat' split) <;> simp [Touch.tTMCXQGENF]
@[simp] theorem State.putCadReg_frame (s : State) (o v : Nat)  : Touch.tCEN (State.putCadReg s o v) s := by
  simp only [State.putCadReg]
  (repeat' split) <;> simp [Touch.tCEN]
@[simp] theorem State.putRoute_frame (s : State) (i v : Nat)  : Touch.tCE (State.putRoute s i v) s := by
  simp only [State.putRoute]
  (repeat' split) <;> simp [Touch.tCE]
@[simp] theorem State.readTime_frame (s : State)  : Touch.tQF (State.readTime s).1 s := by
  simp only [State.readTime]
  (repeat' split) <;> simp [Touch.tQF]
@[simp] theorem State.putMtimecmp_frame (s : State) (c : CoreId) (v : Nat)  : Touch.tCQF (State.putMtimecmp s c v) s := by
  simp only [State.putMtimecmp]
  (repeat' split) <;> simp [Touch.tCQF]
@[simp] theorem State.putCoreReg_frame (s : State) (o v : Nat)  : Touch.tTKCXQENF (State.putCoreReg s o v) s := by
  simp only [State.putCoreReg]
  (repeat' split) <;> simp [Touch.tTKCXQENF]
@[simp] theorem State.putImsic_frame (s : State) (core file o v : Nat)  : Touch.tC (State.putImsic s core file o v) s := by
  simp only [State.putImsic]
  (repeat' split) <;> simp [Touch.tC]
@[simp] theorem State.putC_frame (s : State) (o v : Nat)  : Touch.tTKMCXQGENF (State.putC s o v) s := by
  simp only [State.putC]
  (repeat' split) <;> simp [Touch.tTKMCXQGENF]
@[simp] theorem State.putB_frame (s : State) (o v : Nat)  : Touch.tENPDS (State.putB s o v) s := by
  simp only [State.putB]
  (repeat' split) <;> simp [Touch.tENPDS]
@[simp] theorem State.putPealReg_frame (s : State) (k : PealSlot) (o v : Nat)  : Touch.tEN (State.putPealReg s k o v) s := by
  simp only [State.putPealReg]
  (repeat' split) <;> simp [Touch.tEN]
@[simp] theorem State.putNet_frame (s : State) (o v : Nat)  : Touch.tTBMXQGWENUDF (State.putNet s o v) s := by
  simp only [State.putNet]
  (repeat' split) <;> simp [Touch.tTBMXQGWENUDF]
@[simp] theorem State.putHoop_frame (s : State) (o v : Nat)  : Touch.tTBMXQGENF (State.putHoop s o v) s := by
  simp only [State.putHoop]
  (repeat' split) <;> simp [Touch.tTBMXQGENF]
@[simp] theorem State.writeFqBase_frame (s : State) (v : Nat)  : Touch.tEL (State.writeFqBase s v) s := by
  simp only [State.writeFqBase]
  (repeat' split) <;> simp [Touch.tEL]
@[simp] theorem State.putHostReg_frame (s : State) (o v : Nat)  : Touch.tTMCXQGENLF (State.putHostReg s o v) s := by
  simp only [State.putHostReg]
  (repeat' split) <;> simp [Touch.tTMCXQGENLF]
@[simp] theorem State.writeStreamCtrl_frame (s : State) (k : StreamId) (v : Nat)  : Touch.tEL (State.writeStreamCtrl s k v) s := by
  simp only [State.writeStreamCtrl]
  (repeat' split) <;> simp [Touch.tEL]
@[simp] theorem State.whileClosed_frame (s : State) (k : StreamId) (f : StreamS → StreamS)  : Touch.tEL (State.whileClosed s k f) s := by
  simp only [State.whileClosed]
  (repeat' split) <;> simp [Touch.tEL]
@[simp] theorem State.putStreamReg_frame (s : State) (k : StreamId) (o v : Nat)  : Touch.tKQELF (State.putStreamReg s k o v) s := by
  simp only [State.putStreamReg]
  (repeat' split) <;> simp [Touch.tKQELF]
@[simp] theorem State.putX_frame (s : State) (o v : Nat)  : Touch.tTKMCXQGENLF (State.putX s o v) s := by
  simp only [State.putX]
  (repeat' split) <;> simp [Touch.tTKMCXQGENLF]
@[simp] theorem State.putReg_frame (s : State) (who : Option CoreId) (b o v : Nat)  : Touch.tTBKMCXQGWENLUPDSF (State.putReg s who b o v) s := by
  simp only [State.putReg]
  (repeat' split) <;> simp [Touch.tTBKMCXQGWENLUPDSF]
@[simp] theorem State.putWord_frame (s : State) (who : Option CoreId) (b o v : Nat)  : Touch.tTBKMCXQGWENLUPDSF (State.putWord s who b o v) s := by
  simp only [State.putWord]
  (repeat' split) <;> simp [Touch.tTBKMCXQGWENLUPDSF]
@[simp] theorem State.regWrite_frame (s : State) (who : Option CoreId) (b o size v : Nat)  : Touch.tTBKMCXQGWENLUPDSF (State.regWrite s who b o size v) s := by
  simp only [State.regWrite]
  (repeat' split) <;> simp [Touch.tTBKMCXQGWENLUPDSF]
@[simp] theorem State.writeCsr_frame (s : State) (c : CoreId) (csr : Nat) (v : W64)  : Touch.tCQF (State.writeCsr s c csr v) s := by
  simp only [State.writeCsr]
  (repeat' split) <;> simp [Touch.tCQF]
@[simp] theorem State.writeMsix_frame (s : State) (o : Nat) (v : W32)  : Touch.tQLF (State.writeMsix s o v) s := by
  simp only [State.writeMsix]
  (repeat' split) <;> simp [Touch.tQLF]
@[simp] theorem State.writeBar0_frame (s : State) (o size v : Nat)  : Touch.tTBKMCXQGWENLUPDSF (State.writeBar0 s o size v) s := by
  simp only [State.writeBar0]
  (repeat' split) <;> simp [Touch.tTBKMCXQGWENLUPDSF]
theorem execRegisterWrite_frame (addr : Nat) (wide : Bool) (v : W64) (s : State) {post : State} (h : execRegisterWrite addr wide v s = .next post) : Touch.tTBKMCXQGWENLUPDSF post s := by
  simp only [execRegisterWrite, Host.Outcome.next.injEq] at h
  subst h
  (repeat' split) <;> simp [Touch.tTBKMCXQGWENLUPDSF]
theorem execCoreLoad_frame (c : CoreId) (addr size : Nat) (fetch hint : Bool) (victims : List Victim) (s : State) {post : State} (h : execCoreLoad c addr size fetch hint victims s = .next post) : Touch.tMHCQGERF post s := by
  simp only [execCoreLoad, Host.Outcome.next.injEq] at h
  subst h
  (repeat' split) <;> simp [Touch.tMHCQGERF]
theorem execCoreStore_frame (c : CoreId) (addr : Nat) (bytes : List Byte) (hint : Bool) (victims : List Victim) (s : State) {post : State} (h : execCoreStore c addr bytes hint victims s = .next post) : Touch.tTBKMHCXQGWENLUPDSF post s := by
  simp only [execCoreStore, Host.Outcome.next.injEq] at h
  subst h
  (repeat' split) <;> simp [Touch.tTBKMHCXQGWENLUPDSF]
@[simp] theorem State.lotTimeout_frame (s : State) (u : Ctrl)  : Touch.tMXQGNF (State.lotTimeout s u) s := by
  simp only [State.lotTimeout]
  (repeat' split) <;> simp [Touch.tMXQGNF]
@[simp] theorem State.cmdTimeout_frame (s : State) (k : StreamId) (i : Nat)  : Touch.tKMXQGLF (State.cmdTimeout s k i) s := by
  simp only [State.cmdTimeout]
  (repeat' split) <;> simp [Touch.tKMXQGLF]
theorem execLowerTierTimeout_frame (a : Agent) (addr : Nat) (s : State) {post : State} (h : execLowerTierTimeout a addr s = .next post) : Touch.tTKMHXQGNLRF post s := by
  simp only [execLowerTierTimeout, Host.Outcome.next.injEq] at h
  subst h
  (repeat' split) <;> simp [Touch.tTKMHXQGNLRF]

end Sys2Proof.Machine
end

