-- ==== Sys2Proof/Laws/Map.lean ====
section
/-! SUPPORT. The laws of finite maps: a read after a write, at the key written and at any other, and the canonical form that
every write keeps. -/

namespace Sys2Proof.Machine

variable {α : Type}

@[simp] theorem Map.get_nil (d : α) (i : Nat) : Map.get d [] i = d := rfl

/-- A read through two parts of which the first lists no such key goes to the second. -/
theorem Map.get_append_right (d : α) (m n : Map α) (i : Nat) (h : ∀ e ∈ m, e.1 ≠ i) : Map.get d (m ++ n) i = Map.get d n i := by
  induction m with
  | nil => rfl
  | cons e m ih =>
    obtain ⟨k, v⟩ := e
    have hk : k ≠ i := h (k, v) (by simp)
    simp only [List.cons_append, Map.get, if_neg hk]
    exact ih fun e he => h e (by simp [he])

/-- A read through two parts of which the second lists no such key stays in the first. -/
theorem Map.get_append_left (d : α) (m n : Map α) (i : Nat) (h : ∀ e ∈ n, e.1 ≠ i) : Map.get d (m ++ n) i = Map.get d m i := by
  induction m with
  | nil => simpa using Map.get_append_right d n [] i h
  | cons e m ih =>
    obtain ⟨k, v⟩ := e
    simp only [List.cons_append, Map.get, ih]

/-- A filter that keeps a key keeps what is read there. -/
theorem Map.get_filter (d : α) (m : Map α) (p : Nat × α → Bool) (i : Nat) (h : ∀ v, p (i, v) = true) :
    Map.get d (m.filter p) i = Map.get d m i := by
  induction m with
  | nil => rfl
  | cons e m ih =>
    obtain ⟨k, v⟩ := e
    by_cases hk : k = i
    · subst hk
      simp [List.filter, h, Map.get]
    · cases hp : p (k, v) <;> simp [List.filter, hp, Map.get, if_neg hk, ih]

theorem Map.mem_below {m : Map α} {i : Nat} {e : Nat × α} (h : e ∈ m.below i) : e.1 < i := by
  simpa using (List.mem_filter.mp h).2

theorem Map.mem_from {m : Map α} {i : Nat} {e : Nat × α} (h : e ∈ m.from i) : i ≤ e.1 := by
  simpa using (List.mem_filter.mp h).2

variable [DecidableEq α]

theorem Map.mem_cells {d : Nat → α} {a : Nat} {xs : List α} {e : Nat × α} (h : e ∈ Map.cells d a xs) :
    a ≤ e.1 ∧ e.1 < a + xs.length ∧ e.2 ≠ d e.1 := by
  induction xs generalizing a with
  | nil => simp [Map.cells] at h
  | cons x xs ih =>
    simp only [Map.cells] at h
    split at h
    · obtain ⟨h1, h2, h3⟩ := ih h
      simp only [List.length_cons]
      exact ⟨by omega, by omega, h3⟩
    · rcases List.mem_cons.mp h with rfl | h
      · simp only [List.length_cons]
        exact ⟨le_refl _, by omega, ‹_›⟩
      · obtain ⟨h1, h2, h3⟩ := ih h
        simp only [List.length_cons]
        exact ⟨by omega, by omega, h3⟩

/-- What a run of cells reads as at one of its keys. -/
theorem Map.get_cells (d : Nat → α) (a : Nat) (xs : List α) (k : Nat) (hk : k < xs.length) :
    Map.get (d (a + k)) (Map.cells d a xs) (a + k) = xs[k] := by
  induction xs generalizing a k with
  | nil => simp at hk
  | cons x xs ih =>
    cases k with
    | zero =>
      simp only [Map.cells, Nat.add_zero, List.getElem_cons_zero]
      split
      · subst x
        have := Map.get_append_right (d a) (Map.cells d (a + 1) xs) [] a fun e he => by have := (Map.mem_cells he).1; omega
        simpa using this
      · simp [Map.get]
    | succ k =>
      simp only [List.length_cons] at hk
      have e : a + (k + 1) = a + 1 + k := by omega
      simp only [Map.cells, List.getElem_cons_succ, e]
      split
      · exact ih (a + 1) k (by omega)
      · simp only [Map.get, if_neg (show a ≠ a + 1 + k by omega)]
        exact ih (a + 1) k (by omega)

/-- A read at a key inside the run written gives the value written there. -/
theorem Map.get_setRunBy_in (d : Nat → α) (m : Map α) (a : Nat) (xs : List α) (k : Nat) (hk : k < xs.length) :
    Map.get (d (a + k)) (m.setRunBy d a xs) (a + k) = xs[k] := by
  unfold Map.setRunBy
  rw [Map.get_append_right _ _ _ _ fun e he => by have := Map.mem_below he; omega,
    Map.get_append_left _ _ _ _ fun e he => by have := Map.mem_from he; omega]
  exact Map.get_cells d a xs k hk

/-- A read at a key outside the run written gives what it gave before. -/
theorem Map.get_setRunBy_out (d : Nat → α) (x : α) (m : Map α) (a : Nat) (xs : List α) (i : Nat)
    (h : i < a ∨ a + xs.length ≤ i) : Map.get x (m.setRunBy d a xs) i = Map.get x m i := by
  unfold Map.setRunBy
  rcases h with h | h
  · rw [Map.get_append_left]
    · exact Map.get_filter _ _ _ _ fun v => by simpa using h
    · intro e he
      rcases List.mem_append.mp he with he | he
      · have := (Map.mem_cells he).1; omega
      · have := Map.mem_from he; omega
  · rw [Map.get_append_right _ _ _ _ fun e he => by have := Map.mem_below he; omega,
      Map.get_append_right _ _ _ _ fun e he => by have := (Map.mem_cells he).2.1; omega]
    exact Map.get_filter _ _ _ _ fun v => by simpa using h

@[simp] theorem Map.get_set_self (d : α) (m : Map α) (i : Nat) (x : α) : Map.get d (m.set d i x) i = x := by
  simpa [Map.set, Map.setRun] using Map.get_setRunBy_in (fun _ => d) m i [x] 0 (by simp)

theorem Map.get_set_ne (d e : α) (m : Map α) (i j : Nat) (x : α) (h : j ≠ i) :
    Map.get e (m.set d i x) j = Map.get e m j := by
  apply Map.get_setRunBy_out
  simp only [List.length_singleton]
  omega

theorem Map.get_set (d : α) (m : Map α) (i j : Nat) (x : α) :
    Map.get d (m.set d i x) j = if j = i then x else Map.get d m j := by
  split
  · subst j; simp
  · exact Map.get_set_ne d d m i j x ‹_›

@[simp] theorem Map.get_modify_self (d : α) (m : Map α) (i : Nat) (f : α → α) :
    Map.get d (m.modify d i f) i = f (Map.get d m i) := by simp [Map.modify]

theorem Map.get_modify_ne (d : α) (m : Map α) (i j : Nat) (f : α → α) (h : j ≠ i) :
    Map.get d (m.modify d i f) j = Map.get d m j := Map.get_set_ne d d m i j _ h

omit [DecidableEq α] in
theorem Map.getRunBy_length (d : Nat → α) (m : Map α) (a n : Nat) : (m.getRunBy d a n).length = n := by simp [Map.getRunBy]

omit [DecidableEq α] in
/-- A run read key by key. -/
theorem Map.getRunBy_eq (d : Nat → α) (m : Map α) (a n : Nat) :
    m.getRunBy d a n = (List.range n).map fun i => Map.get (d (a + i)) m (a + i) := by
  simp only [Map.getRunBy]
  apply List.map_congr_left
  intro i hi
  have hi : i < n := by simpa using hi
  rw [show Map.get (d (a + i)) ((m.from a).below (a + n)) (a + i) = Map.get (d (a + i)) (m.from a) (a + i) from
    Map.get_filter _ _ _ _ fun v => by simpa using hi]
  exact Map.get_filter _ _ _ _ fun v => by simp

/-- A run read back where it was written. -/
theorem Map.getRunBy_setRunBy_self (d : Nat → α) (m : Map α) (a : Nat) (xs : List α) :
    (m.setRunBy d a xs).getRunBy d a xs.length = xs := by
  rw [Map.getRunBy_eq]
  apply List.ext_getElem (by simp)
  intro i h1 h2
  simpa using Map.get_setRunBy_in d m a xs i h2

theorem Map.getRunBy_setRunBy_out (d : Nat → α) (m : Map α) (a : Nat) (xs : List α) (b n : Nat)
    (h : b + n ≤ a ∨ a + xs.length ≤ b) : (m.setRunBy d a xs).getRunBy d b n = m.getRunBy d b n := by
  simp only [Map.getRunBy_eq]
  apply List.map_congr_left
  intro i hi
  have hi : i < n := by simpa using hi
  exact Map.get_setRunBy_out d _ m a xs _ (by omega)

@[simp] theorem Map.getRun_setRun_self (d : α) (m : Map α) (a : Nat) (xs : List α) :
    (m.setRun d a xs).getRun d a xs.length = xs := Map.getRunBy_setRunBy_self _ m a xs

/-! ### The canonical form -/

theorem Map.cells_sorted (d : Nat → α) (a : Nat) (xs : List α) : ((Map.cells d a xs).map Prod.fst).Pairwise (· < ·) := by
  induction xs generalizing a with
  | nil => simp [Map.cells]
  | cons x xs ih =>
    simp only [Map.cells]
    split
    · exact ih (a + 1)
    · simp only [List.map_cons, List.pairwise_cons]
      refine ⟨?_, ih (a + 1)⟩
      intro k hk
      obtain ⟨e, he, rfl⟩ := List.mem_map.mp hk
      have := (Map.mem_cells he).1
      omega

theorem Map.wfBy_iff (d : Nat → α) (m : Map α) :
    m.wfBy d = true ↔ (m.map Prod.fst).Pairwise (· < ·) ∧ ∀ e ∈ m, e.2 ≠ d e.1 := by
  simp [Map.wfBy]

@[simp] theorem Map.wfBy_nil (d : Nat → α) : Map.wfBy d ([] : Map α) = true := by simp [Map.wfBy]

theorem Map.wfBy_filter {d : Nat → α} {m : Map α} (p : Nat × α → Bool) (h : m.wfBy d = true) : Map.wfBy d (m.filter p) = true := by
  rw [Map.wfBy_iff] at h ⊢
  exact ⟨h.1.sublist (List.Sublist.map _ List.filter_sublist), fun e he => h.2 e (List.mem_filter.mp he).1⟩

/-- The canonical form depends on the unlisted values only at the keys that are listed. -/
theorem Map.wfBy_congr {d e : Nat → α} {m : Map α} (h : m.wfBy d = true) (hd : ∀ x ∈ m, d x.1 = e x.1) : m.wfBy e = true := by
  rw [Map.wfBy_iff] at h ⊢
  exact ⟨h.1, fun x hx => by rw [← hd x hx]; exact h.2 x hx⟩

/-- Writing a run keeps the canonical form. -/
theorem Map.wfBy_setRunBy {d : Nat → α} {m : Map α} (a : Nat) (xs : List α) (h : m.wfBy d = true) :
    Map.wfBy d (m.setRunBy d a xs) = true := by
  have hb : Map.wfBy d (m.below a) = true := Map.wfBy_filter _ h
  have hf : Map.wfBy d (m.from (a + xs.length)) = true := Map.wfBy_filter _ h
  rw [Map.wfBy_iff] at hb hf ⊢
  refine ⟨?_, ?_⟩
  · simp only [Map.setRunBy, List.map_append, List.pairwise_append]
    refine ⟨hb.1, ⟨Map.cells_sorted d a xs, hf.1, ?_⟩, ?_⟩
    · intro x hx y hy
      obtain ⟨e, he, rfl⟩ := List.mem_map.mp hx
      obtain ⟨g, hg, rfl⟩ := List.mem_map.mp hy
      have := (Map.mem_cells he).2.1
      have := Map.mem_from hg
      omega
    · intro x hx y hy
      obtain ⟨e, he, rfl⟩ := List.mem_map.mp hx
      have h1 := Map.mem_below he
      rcases List.mem_append.mp hy with hy | hy
      · obtain ⟨g, hg, rfl⟩ := List.mem_map.mp hy
        have := (Map.mem_cells hg).1
        omega
      · obtain ⟨g, hg, rfl⟩ := List.mem_map.mp hy
        have := Map.mem_from hg
        omega
  · intro e he
    simp only [Map.setRunBy, List.mem_append] at he
    rcases he with he | he | he
    · exact hb.2 e he
    · exact (Map.mem_cells he).2.2
    · exact hf.2 e he

theorem Map.wf_setRun {d : α} {m : Map α} (a : Nat) (xs : List α) (h : m.wf d = true) : Map.wf d (m.setRun d a xs) = true :=
  Map.wfBy_setRunBy a xs h

theorem Map.wf_set {d : α} {m : Map α} (i : Nat) (x : α) (h : m.wf d = true) : Map.wf d (m.set d i x) = true :=
  Map.wf_setRun i [x] h

/-- Two maps in canonical form that read the same at every key are the same list. -/
theorem Map.ext_of_wfBy {d : Nat → α} {m n : Map α} (hm : m.wfBy d = true) (hn : n.wfBy d = true)
    (h : ∀ i, Map.get (d i) m i = Map.get (d i) n i) : m = n := by
  induction m generalizing n with
  | nil =>
    cases n with
    | nil => rfl
    | cons e n =>
      rw [Map.wfBy_iff] at hn
      have := h e.1
      simp only [Map.get, if_pos] at this
      exact absurd this.symm (hn.2 e (by simp))
  | cons a m ih =>
    cases n with
    | nil =>
      rw [Map.wfBy_iff] at hm
      have := h a.1
      simp only [Map.get, if_pos] at this
      exact absurd this (hm.2 a (by simp))
    | cons b n =>
      have hm' := (Map.wfBy_iff d _).mp hm
      have hn' := (Map.wfBy_iff d _).mp hn
      have gt : ∀ {p : Map α} {k : Nat}, (∀ x ∈ p.map Prod.fst, k < x) → ∀ j ≤ k, Map.get (d j) p j = d j := by
        intro p k hp j hj
        have := Map.get_append_right (d j) p [] j fun e he => by have := hp e.1 (List.mem_map.mpr ⟨e, he, rfl⟩); omega
        simpa using this
      have sm := List.pairwise_cons.mp hm'.1
      have sn := List.pairwise_cons.mp hn'.1
      have keys : a.1 = b.1 := by
        rcases Nat.lt_trichotomy a.1 b.1 with hl | he | hl
        · have h1 := h a.1
          simp only [Map.get, if_pos, if_neg (show b.1 ≠ a.1 by omega)] at h1
          rw [gt sn.1 a.1 (by omega)] at h1
          exact absurd h1 (hm'.2 a (by simp))
        · exact he
        · have h1 := h b.1
          simp only [Map.get, if_pos, if_neg (show a.1 ≠ b.1 by omega)] at h1
          rw [gt sm.1 b.1 (by omega)] at h1
          exact absurd h1.symm (hn'.2 b (by simp))
      have vals : a.2 = b.2 := by
        have h1 := h a.1
        simpa [Map.get, keys] using h1
      have tails : m = n := by
        apply ih
        · exact (Map.wfBy_iff d m).mpr ⟨sm.2, fun e he => hm'.2 e (by simp [he])⟩
        · exact (Map.wfBy_iff d n).mpr ⟨sn.2, fun e he => hn'.2 e (by simp [he])⟩
        · intro i
          by_cases hi : i = a.1
          · subst hi
            rw [gt sm.1 _ (le_refl _), keys, gt sn.1 _ (le_refl _)]
          · have h1 := h i
            simpa only [Map.get, if_neg (show a.1 ≠ i from fun e => hi e.symm),
              if_neg (show b.1 ≠ i from fun e => hi (keys ▸ e.symm))] using h1
      rw [tails, show a = b from Prod.ext keys vals]

end Sys2Proof.Machine
end

