-- ==== Sys2Proof/Laws/Memory.lean ====
section
/-! SUPPORT. The laws of the package's memories: reads after writes, and the canonical form that every operation on them keeps. -/

namespace Sys2Proof.Machine

/-! ### What leaves the bytes alone -/

@[simp] theorem MemS.setCtrl_mem (m : MemS) (c : Nat) (k : MemCtrl) : (m.setCtrl c k).mem = m.mem := rfl
@[simp] theorem MemS.setCtrl_undef (m : MemS) (c : Nat) (k : MemCtrl) : (m.setCtrl c k).undef = m.undef := rfl
@[simp] theorem MemS.setCtrl_host (m : MemS) (c : Nat) (k : MemCtrl) : (m.setCtrl c k).host = m.host := rfl
@[simp] theorem MemS.setCtrl_qmode (m : MemS) (c : Nat) (k : MemCtrl) : (m.setCtrl c k).qmode = m.qmode := rfl
@[simp] theorem MemS.draw_mem (m : MemS) (d : Nat × Nat) : (m.draw d).mem = m.mem := rfl
@[simp] theorem MemS.draw_undef (m : MemS) (d : Nat × Nat) : (m.draw d).undef = m.undef := rfl
@[simp] theorem MemS.draw_host (m : MemS) (d : Nat × Nat) : (m.draw d).host = m.host := rfl
@[simp] theorem MemS.draw_qmode (m : MemS) (d : Nat × Nat) : (m.draw d).qmode = m.qmode := rfl
@[simp] theorem MemS.release_mem (m : MemS) (d : Nat × Nat) : (m.release d).mem = m.mem := rfl
@[simp] theorem MemS.release_undef (m : MemS) (d : Nat × Nat) : (m.release d).undef = m.undef := rfl
@[simp] theorem MemS.release_host (m : MemS) (d : Nat × Nat) : (m.release d).host = m.host := rfl
@[simp] theorem MemS.release_qmode (m : MemS) (d : Nat × Nat) : (m.release d).qmode = m.qmode := rfl
@[simp] theorem MemS.timeOut_mem (m : MemS) (a : Agent) (n : Nat) : (m.timeOut a n).mem = m.mem := rfl
@[simp] theorem MemS.timeOut_undef (m : MemS) (a : Agent) (n : Nat) : (m.timeOut a n).undef = m.undef := rfl
@[simp] theorem MemS.timeOut_host (m : MemS) (a : Agent) (n : Nat) : (m.timeOut a n).host = m.host := rfl
@[simp] theorem MemS.timeOut_qmode (m : MemS) (a : Agent) (n : Nat) : (m.timeOut a n).qmode = m.qmode := rfl
@[simp] theorem MemS.store_undef (m : MemS) (a : Nat) (bs : List Byte) : (m.store a bs).undef = m.undef := rfl
@[simp] theorem MemS.store_host (m : MemS) (a : Nat) (bs : List Byte) : (m.store a bs).host = m.host := rfl
@[simp] theorem MemS.store_qmode (m : MemS) (a : Nat) (bs : List Byte) : (m.store a bs).qmode = m.qmode := rfl
@[simp] theorem MemS.writeHost_mem (m : MemS) (a : Nat) (bs : List Byte) : (m.writeHost a bs).mem = m.mem := rfl
@[simp] theorem MemS.writeHost_undef (m : MemS) (a : Nat) (bs : List Byte) : (m.writeHost a bs).undef = m.undef := rfl
@[simp] theorem MemS.writeHost_qmode (m : MemS) (a : Nat) (bs : List Byte) : (m.writeHost a bs).qmode = m.qmode := rfl
@[simp] theorem MemS.initStack_host (m : MemS) (c : Nat) : (m.initStack c).host = m.host := rfl
@[simp] theorem MemS.initStack_qmode (m : MemS) (c : Nat) : (m.initStack c).qmode = m.qmode := rfl

/-- What an unlisted byte reads as depends on the marks of undefined quads and on the interleave modes alone. -/
theorem MemS.base_congr {m n : MemS} (hu : n.undef = m.undef) (hq : n.qmode = m.qmode) : n.base = m.base := by
  funext a; simp only [MemS.base, hu, hq]

/-- The canonical form looks at the bytes, the marks and the interleave modes alone. -/
theorem MemS.wf_congr {m n : MemS} (hm : n.mem = m.mem) (hu : n.undef = m.undef) (hh : n.host = m.host) (hq : n.qmode = m.qmode) :
    n.wf = m.wf := by
  simp only [MemS.wf, hm, hh, MemS.base_congr hu hq]

/-! ### Reads after writes -/

@[simp] theorem MemS.load_store_self (m : MemS) (a : Nat) (bs : List Byte) : (m.store a bs).load a bs.length = bs :=
  Map.getRunBy_setRunBy_self m.base m.mem a bs

theorem MemS.load_store_out (m : MemS) (a : Nat) (bs : List Byte) (b n : Nat) (h : b + n ≤ a ∨ a + bs.length ≤ b) :
    (m.store a bs).load b n = m.load b n := Map.getRunBy_setRunBy_out m.base m.mem a bs b n h

/-! ### The canonical form -/

@[simp] theorem MemS.reset_wf : MemS.reset.wf = true := by simp [MemS.wf, MemS.reset, Map.wf]

theorem MemS.wf_iff (m : MemS) : m.wf = true ↔ m.mem.wfBy m.base = true ∧ m.host.wf 0#8 = true := by simp [MemS.wf]

@[simp] theorem MemS.store_wf {m : MemS} (a : Nat) (bs : List Byte) (h : m.wf = true) : (m.store a bs).wf = true := by
  rw [MemS.wf_iff] at h ⊢
  exact ⟨Map.wfBy_setRunBy a bs h.1, h.2⟩

@[simp] theorem MemS.writeHost_wf {m : MemS} (a : Nat) (bs : List Byte) (h : m.wf = true) : (m.writeHost a bs).wf = true := by
  rw [MemS.wf_iff] at h ⊢
  exact ⟨h.1, Map.wf_setRun a bs h.2⟩

theorem nearStack_lt (q : BitVec 128) (a : Nat) : nearStack q a < 16 := by
  have b2 : ∀ x i : Nat, bitsOf x i 2 < 2 ^ 2 := fun x i => Nat.mod_lt _ (by decide)
  have b4 : ∀ x i : Nat, bitsOf x i 4 < 2 ^ 4 := fun x i => Nat.mod_lt _ (by decide)
  simp only [nearStack]
  split
  · have := Nat.xor_lt_two_pow (Nat.xor_lt_two_pow (Nat.xor_lt_two_pow (b2 (a % 2 ^ 30) 11) (b2 (a % 2 ^ 30) 13))
      (b2 (a % 2 ^ 30) 15)) (b2 (a % 2 ^ 30) 17)
    omega
  · exact Nat.xor_lt_two_pow (Nat.xor_lt_two_pow (Nat.xor_lt_two_pow (b4 (a % 2 ^ 30) 11) (b4 (a % 2 ^ 30) 15))
      (b4 (a % 2 ^ 30) 19)) (b4 (a % 2 ^ 30) 23)

/-- Outside near memory an unlisted byte reads as 0. -/
theorem MemS.base_other (m : MemS) (a : Nat) (h : regionOf a ≠ .near) : m.base a = 0#8 := by
  simp only [MemS.base]
  split
  · rfl
  · simp [h]

/-- Setting a list of keys leaves every other key as it reads. -/
theorem Map.get_foldl_out {α β : Type} (d : α) (f : Map α → β → Map α) (i : Nat) (l : List β)
    (h : ∀ m x, x ∈ l → Map.get d (f m x) i = Map.get d m i) (m : Map α) : Map.get d (l.foldl f m) i = Map.get d m i := by
  induction l generalizing m with
  | nil => rfl
  | cons x l ih =>
    rw [List.foldl_cons, ih fun m y hy => h m y (by simp [hy])]
    exact h m x (by simp)

/-- The initialisation of a stack removes its bytes and its marks, and leaves every other byte as it reads. -/
@[simp] theorem MemS.initStack_wf {m : MemS} (c : Nat) (h : m.wf = true) : (m.initStack c).wf = true := by
  rw [MemS.wf_iff] at h ⊢
  refine ⟨Map.wfBy_congr (Map.wfBy_filter _ h.1) fun e he => ?_, h.2⟩
  have hn := (List.mem_filter.mp he).2
  by_cases hr : regionOf e.1 = .near
  · have hs : nearStack m.qmode e.1 ≠ c := by
      intro hc
      simp [hr, MemS.homeOf, hc] at hn
    have hg : Map.get 0 (m.initStack c).undef (16 * (e.1 / 2 ^ 32) + nearStack m.qmode e.1)
        = Map.get 0 m.undef (16 * (e.1 / 2 ^ 32) + nearStack m.qmode e.1) := by
      simp only [MemS.initStack]
      split
      · apply Map.get_foldl_out
        intro u k _
        apply Map.get_set_ne
        have := nearStack_lt m.qmode e.1
        omega
      · rfl
    simp only [MemS.base, MemS.initStack_qmode, hg]
  · rw [MemS.base_other _ _ hr, MemS.base_other _ _ hr]

/-- A change of interleave modes, as `execQmodeWrite` makes it: the bytes of the quads changed are dropped and those quads are
marked with a draw. -/
theorem MemS.qmode_wf {m : MemS} (q : BitVec 128) (n : Nat) (g : W32) (h : m.wf = true) :
    ({ m with
        qmode := q
        mapGen := g
        mem := m.mem.filter fun e => !(regionOf e.1 = .near && (q ^^^ m.qmode).getLsbD (e.1 / 2 ^ 32))
        undef := (List.range 128).foldl (fun u k =>
          if (q ^^^ m.qmode).getLsbD k then u.setRun 0 (16 * k) (List.replicate 16 n) else u) m.undef } : MemS).wf = true := by
  rw [MemS.wf_iff] at h ⊢
  refine ⟨Map.wfBy_congr (Map.wfBy_filter _ h.1) fun e he => ?_, h.2⟩
  have hn := (List.mem_filter.mp he).2
  by_cases hr : regionOf e.1 = .near
  · have hd : (q ^^^ m.qmode).getLsbD (e.1 / 2 ^ 32) = false := by simpa [hr] using hn
    have hq : q.getLsbD (e.1 / 2 ^ 32) = m.qmode.getLsbD (e.1 / 2 ^ 32) := by
      rw [BitVec.getLsbD_xor] at hd
      cases hx : q.getLsbD (e.1 / 2 ^ 32) <;> cases hy : m.qmode.getLsbD (e.1 / 2 ^ 32) <;> simp_all
    have hs : nearStack q e.1 = nearStack m.qmode e.1 := by simp only [nearStack, hq]
    have hb := nearStack_lt m.qmode e.1
    simp only [MemS.base, hs]
    rw [Map.get_foldl_out]
    intro u k _
    split
    · have hk : k ≠ e.1 / 2 ^ 32 := by
        intro hk
        subst hk
        simp_all
      apply Map.get_setRunBy_out
      simp only [List.length_replicate]
      omega
    · rfl
  · rw [MemS.base_other _ _ hr, MemS.base_other _ _ hr]

end Sys2Proof.Machine
end

