-- ==== Sys2Proof/Laws/CanonicalA.lean ====
section
/-! SUPPORT. Every operation of the shared operations, the tiles and the memory system that reaches memory keeps its canonical form; those that only read leave its bytes
as they were. -/

namespace Sys2Proof.Machine

set_option linter.unnecessarySeqFocus false
set_option linter.unreachableTactic false
set_option linter.unusedTactic false
set_option maxRecDepth 20000
set_option linter.unusedSimpArgs false
set_option linter.unusedVariables false

@[simp] theorem MemS.bytes_setCtrl (m : MemS) (c : Nat) (k : MemCtrl) : (m.setCtrl c k).bytes = m.bytes := rfl
@[simp] theorem MemS.bytes_draw (m : MemS) (d : Nat × Nat) : (m.draw d).bytes = m.bytes := rfl
@[simp] theorem MemS.bytes_release (m : MemS) (d : Nat × Nat) : (m.release d).bytes = m.bytes := rfl
@[simp] theorem MemS.bytes_timeOut (m : MemS) (a : Agent) (n : Nat) : (m.timeOut a n).bytes = m.bytes := rfl
@[simp] theorem MemS.bytes_mk (m : MemS) (p hp ce ct g po t) :
    ({ m with poison := p, hostPoison := hp, cwErr := ce, ctrls := ct, mapGen := g, pools := po, timedOut := t } : MemS).bytes = m.bytes := rfl
theorem MemS.wf_of_bytes {m n : MemS} (h : n.bytes = m.bytes) (w : m.wf = true) : n.wf = true := by
  simp only [MemS.bytes, Prod.mk.injEq] at h
  rw [MemS.wf_congr h.1 h.2.1 h.2.2.1 h.2.2.2]; exact w
theorem foldl_inv {σ β : Type} (I : σ → Prop) (f : σ → β → σ) (h : ∀ s x, I s → I (f s x)) (l : List β) (s : σ) (hs : I s) :
    I (l.foldl f s) := by
  induction l generalizing s with
  | nil => exact hs
  | cons x l ih => exact ih _ (h s x hs)
@[simp] theorem foldl_bytes {β : Type} (f : State → β → State) (h : ∀ s x, (f s x).mem.bytes = s.mem.bytes) (l : List β) (s : State) :
    (l.foldl f s).mem.bytes = s.mem.bytes := foldl_keep (fun x : State => x.mem.bytes) f h l s
@[simp] theorem foldl_fst_bytes {α β : Type} (f : State × α → β → State × α) (h : ∀ p x, (f p x).1.mem.bytes = p.1.mem.bytes) (l : List β) (p : State × α) :
    (l.foldl f p).1.mem.bytes = p.1.mem.bytes := foldl_keep (fun q : State × α => q.1.mem.bytes) f h l p
@[simp] theorem foldl_wf {β : Type} (f : State → β → State) (l : List β) (s : State) (hs : s.mem.wf = true)
    (h : ∀ s x, s.mem.wf = true → (f s x).mem.wf = true) : (l.foldl f s).mem.wf = true :=
  foldl_inv (fun x : State => x.mem.wf = true) f h l s hs
@[simp] theorem foldl_fst_wf {α β : Type} (f : State × α → β → State × α) (l : List β) (p : State × α) (hs : p.1.mem.wf = true)
    (h : ∀ p x, p.1.mem.wf = true → (f p x).1.mem.wf = true) : (l.foldl f p).1.mem.wf = true :=
  foldl_inv (fun q : State × α => q.1.mem.wf = true) f h l p hs
@[simp] theorem when_bytes (s : State) (b : Bool) (f : State → State) (h : ∀ t, (f t).mem.bytes = t.mem.bytes) : (s.when b f).mem.bytes = s.mem.bytes := by
  cases b <;> simp [State.when, h]
@[simp] theorem when_wf (s : State) (b : Bool) (f : State → State) (hs : s.mem.wf = true) (h : ∀ t, t.mem.wf = true → (f t).mem.wf = true) :
    (s.when b f).mem.wf = true := by
  cases b <;> simp [State.when, h, hs]
@[simp] theorem MemS.wf_mk (x : MemS) (p hp ce ct g po t) (h : x.wf = true) :
    (MemS.mk x.mem x.undef x.host p hp ce ct x.qmode g po t).wf = true := MemS.wf_of_bytes (m := x) rfl h
@[simp] theorem MemS.wf_mk_store (x : MemS) (a : Nat) (bs : List Byte) (p hp ce ct g po t) (h : x.wf = true) :
    (MemS.mk (x.store a bs).mem x.undef x.host p hp ce ct x.qmode g po t).wf = true :=
  MemS.wf_of_bytes (m := x.store a bs) rfl (MemS.store_wf a bs h)
@[simp] theorem MemS.wf_mk_host (x : MemS) (a : Nat) (bs : List Byte) (p hp ce ct g po t) (h : x.wf = true) :
    (MemS.mk x.mem x.undef (x.host.setRun 0#8 a bs) p hp ce ct x.qmode g po t).wf = true :=
  MemS.wf_of_bytes (m := x.writeHost a bs) rfl (MemS.writeHost_wf a bs h)
@[simp] theorem MemS.wf_setCtrl (m : MemS) (c : Nat) (k : MemCtrl) (h : m.wf = true) : (m.setCtrl c k).wf = true :=
  MemS.wf_of_bytes (m := m) rfl h
@[simp] theorem MemS.wf_draw (m : MemS) (d : Nat × Nat) (h : m.wf = true) : (m.draw d).wf = true := MemS.wf_of_bytes (m := m) rfl h
@[simp] theorem MemS.wf_release (m : MemS) (d : Nat × Nat) (h : m.wf = true) : (m.release d).wf = true := MemS.wf_of_bytes (m := m) rfl h
@[simp] theorem MemS.wf_timeOut (m : MemS) (a : Agent) (n : Nat) (h : m.wf = true) : (m.timeOut a n).wf = true :=
  MemS.wf_of_bytes (m := m) rfl h
/-- A cut of power leaves host memory, which the host keeps (R50). -/
@[simp] theorem MemS.wf_reset_host (x : MemS) (hp) (h : x.wf = true) :
    ({ MemS.reset with host := x.host, hostPoison := hp } : MemS).wf = true := by
  rw [MemS.wf_iff] at h ⊢
  exact ⟨by simp [MemS.reset], h.2⟩
@[simp] theorem foldl_mem_wf {β : Type} (f : MemS → β → MemS) (l : List β) (m : MemS) (hs : m.wf = true)
    (h : ∀ m x, m.wf = true → (f m x).wf = true) : (l.foldl f m).wf = true := foldl_inv (fun x : MemS => x.wf = true) f h l m hs
@[simp] theorem foldl_mem_bytes {β : Type} (f : MemS → β → MemS) (l : List β) (m : MemS)
    (h : ∀ m x, (f m x).bytes = m.bytes) : (l.foldl f m).bytes = m.bytes := foldl_keep (fun x : MemS => x.bytes) f h l m
@[simp] theorem MemS.wf_ite (b : Prop) [Decidable b] (m n : MemS) (hm : m.wf = true) (hn : n.wf = true) :
    (if b then m else n).wf = true := by split <;> assumption
@[simp] theorem MemS.wf_mk_init (x : MemS) (c : Nat) (p hp ce ct g po t) (h : x.wf = true) :
    (MemS.mk (x.initStack c).mem (x.initStack c).undef x.host p hp ce ct x.qmode g po t).wf = true :=
  MemS.wf_of_bytes (m := x.initStack c) rfl (MemS.initStack_wf c h)

/-! ### Ops -/

@[simp] theorem State.countOuter_bytes (s : State) (c : Nat)   : (State.countOuter s c).mem.bytes = s.mem.bytes := by
  simp only [State.countOuter]
  (repeat' split) <;> simp

@[simp] theorem State.countOuter_wf (s : State) (c : Nat)  (hw : s.mem.wf = true) : (State.countOuter s c).mem.wf = true := by
  exact MemS.wf_of_bytes (State.countOuter_bytes _ _ ) hw
@[simp] theorem State.countInner_bytes (s : State) (c n : Nat)   : (State.countInner s c n).mem.bytes = s.mem.bytes := by
  simp only [State.countInner]
  (repeat' split) <;> simp

@[simp] theorem State.countInner_wf (s : State) (c n : Nat)  (hw : s.mem.wf = true) : (State.countInner s c n).mem.wf = true := by
  exact MemS.wf_of_bytes (State.countInner_bytes _ _ _ ) hw
@[simp] theorem State.uncorrectable_bytes (s : State) (cw c finder : Nat)   : (State.uncorrectable s cw c finder).mem.bytes = s.mem.bytes := by
  simp only [State.uncorrectable]
  (repeat' split) <;> simp

@[simp] theorem State.uncorrectable_wf (s : State) (cw c finder : Nat)  (hw : s.mem.wf = true) : (State.uncorrectable s cw c finder).mem.wf = true := by
  exact MemS.wf_of_bytes (State.uncorrectable_bytes _ _ _ _ ) hw
@[simp] theorem State.readCodeword_bytes (s : State) (cw finder : Nat) (requester : Bool)   : (State.readCodeword s cw finder requester).1.mem.bytes = s.mem.bytes := by
  simp only [State.readCodeword]
  (repeat' split) <;> simp

@[simp] theorem State.readCodeword_wf (s : State) (cw finder : Nat) (requester : Bool)  (hw : s.mem.wf = true) : (State.readCodeword s cw finder requester).1.mem.wf = true := by
  exact MemS.wf_of_bytes (State.readCodeword_bytes _ _ _ _ ) hw
@[simp] theorem State.writeCodeword_wf (s : State) (a : Nat) (bs : List Byte)  (hw : s.mem.wf = true) : (State.writeCodeword s a bs).1.mem.wf = true := by
  simp only [State.writeCodeword]
  (repeat' split) <;> simp +contextual (maxDischargeDepth := 9) [*]
@[simp] theorem State.readPieces_bytes (s : State) (finder : Nat) (ps : List (Nat × Nat))   : (State.readPieces s finder ps).1.mem.bytes = s.mem.bytes := by
  simp only [State.readPieces]
  (repeat' split) <;> simp

@[simp] theorem State.readPieces_wf (s : State) (finder : Nat) (ps : List (Nat × Nat))  (hw : s.mem.wf = true) : (State.readPieces s finder ps).1.mem.wf = true := by
  exact MemS.wf_of_bytes (State.readPieces_bytes _ _ _ ) hw
@[simp] theorem State.writePieces_wf (s : State) (a : Nat) (bs : List Byte) (ps : List (Nat × Nat))  (hw : s.mem.wf = true) : (State.writePieces s a bs ps).1.mem.wf = true := by
  simp only [State.writePieces]
  (repeat' split) <;> simp +contextual (maxDischargeDepth := 9) [*]
@[simp] theorem State.readMemBy_bytes (count : Bool) (s : State) (a n die : Nat)   : (State.readMemBy count s a n die).st.mem.bytes = s.mem.bytes := by
  simp only [State.readMemBy]
  (repeat' split) <;> simp

@[simp] theorem State.readMemBy_wf (count : Bool) (s : State) (a n die : Nat)  (hw : s.mem.wf = true) : (State.readMemBy count s a n die).st.mem.wf = true := by
  exact MemS.wf_of_bytes (State.readMemBy_bytes _ _ _ _ _ ) hw
@[simp] theorem State.readMem_bytes (s : State) (a n die : Nat)   : (State.readMem s a n die).st.mem.bytes = s.mem.bytes := by
  simp only [State.readMem]
  (repeat' split) <;> simp

@[simp] theorem State.readMem_wf (s : State) (a n die : Nat)  (hw : s.mem.wf = true) : (State.readMem s a n die).st.mem.wf = true := by
  exact MemS.wf_of_bytes (State.readMem_bytes _ _ _ _ ) hw
@[simp] theorem State.writeMemBy_wf (count : Bool) (s : State) (a : Nat) (bs : List Byte) (die : Nat)  (hw : s.mem.wf = true) : (State.writeMemBy count s a bs die).st.mem.wf = true := by
  simp only [State.writeMemBy]
  (repeat' split) <;> simp +contextual (maxDischargeDepth := 9) [*]
@[simp] theorem State.writeMem_wf (s : State) (a : Nat) (bs : List Byte) (die : Nat)  (hw : s.mem.wf = true) : (State.writeMem s a bs die).st.mem.wf = true := by
  simp only [State.writeMem]
  (repeat' split) <;> simp +contextual (maxDischargeDepth := 9) [*]
@[simp] theorem State.undefinedSpan_wf (s : State) (a n : Nat)  (hw : s.mem.wf = true) : (State.undefinedSpan s a n).mem.wf = true := by
  simp only [State.undefinedSpan]
  (repeat' split) <;> simp +contextual (maxDischargeDepth := 9) [*]

/-! ### Translate -/

@[simp] theorem State.readProcess_bytes (s : State) (die device process : Nat) (tc fsc : W64)   : (State.readProcess s die device process tc fsc).1.mem.bytes = s.mem.bytes := by
  simp only [State.readProcess]
  (repeat' split) <;> simp

@[simp] theorem State.readProcess_wf (s : State) (die device process : Nat) (tc fsc : W64)  (hw : s.mem.wf = true) : (State.readProcess s die device process tc fsc).1.mem.wf = true := by
  exact MemS.wf_of_bytes (State.readProcess_bytes _ _ _ _ _ _ ) hw
@[simp] theorem State.readCtx_bytes (s : State) (die : Nat) (ctx : W32)   : (State.readCtx s die ctx).1.mem.bytes = s.mem.bytes := by
  simp only [State.readCtx]
  (repeat' split) <;> simp

@[simp] theorem State.readCtx_wf (s : State) (die : Nat) (ctx : W32)  (hw : s.mem.wf = true) : (State.readCtx s die ctx).1.mem.wf = true := by
  exact MemS.wf_of_bytes (State.readCtx_bytes _ _ _ ) hw
@[simp] theorem State.context_bytes (s : State) (die : Nat) (ctx : W32)   : (State.context s die ctx).1.mem.bytes = s.mem.bytes := by
  simp only [State.context]
  (repeat' split) <;> simp

@[simp] theorem State.context_wf (s : State) (die : Nat) (ctx : W32)  (hw : s.mem.wf = true) : (State.context s die ctx).1.mem.wf = true := by
  exact MemS.wf_of_bytes (State.context_bytes _ _ _ ) hw
@[simp] theorem State.walk_bytes (s : State) (die va table : Nat) (level : Nat)   : (State.walk s die va table level).1.mem.bytes = s.mem.bytes := by
  induction level generalizing s table with
  | zero => simp only [State.walk] <;> (repeat' split) <;> simp
  | succ n ih =>
    simp only [State.walk]
    (repeat' split) <;> simp [ih]

@[simp] theorem State.walk_wf (s : State) (die va table : Nat) (level : Nat)  (hw : s.mem.wf = true) : (State.walk s die va table level).1.mem.wf = true := by
  exact MemS.wf_of_bytes (State.walk_bytes _ _ _ _ _ ) hw
@[simp] theorem State.translate_bytes (s : State) (die : Nat) (ctx : W32) (va : W64) (write : Bool)   : (State.translate s die ctx va write).1.mem.bytes = s.mem.bytes := by
  simp only [State.translate]
  (repeat' split) <;> simp

@[simp] theorem State.translate_wf (s : State) (die : Nat) (ctx : W32) (va : W64) (write : Bool)  (hw : s.mem.wf = true) : (State.translate s die ctx va write).1.mem.wf = true := by
  exact MemS.wf_of_bytes (State.translate_bytes _ _ _ _ _ ) hw
@[simp] theorem State.launchCtx_bytes (s : State) (ctx : W32)   : (State.launchCtx s ctx).1.mem.bytes = s.mem.bytes := by
  simp only [State.launchCtx]
  (repeat' split) <;> simp

@[simp] theorem State.launchCtx_wf (s : State) (ctx : W32)  (hw : s.mem.wf = true) : (State.launchCtx s ctx).1.mem.wf = true := by
  exact MemS.wf_of_bytes (State.launchCtx_bytes _ _ ) hw

/-! ### Move -/

@[simp] theorem State.descTranslate_bytes (s : State) (t : TileId) (i : Nat) (f : InFlight) (k : Kernel) (va : W64) (write : Bool) (span : Nat)   : (State.descTranslate s t i f k va write span).mem.bytes = s.mem.bytes := by
  simp only [State.descTranslate]
  (repeat' split) <;> simp

@[simp] theorem State.descTranslate_wf (s : State) (t : TileId) (i : Nat) (f : InFlight) (k : Kernel) (va : W64) (write : Bool) (span : Nat)  (hw : s.mem.wf = true) : (State.descTranslate s t i f k va write span).mem.wf = true := by
  exact MemS.wf_of_bytes (State.descTranslate_bytes _ _ _ _ _ _ _ _ ) hw
@[simp] theorem State.descAccept_bytes (s : State) (t : TileId) (i : Nat) (f : InFlight) (k : Kernel)   : (State.descAccept s t i f k).mem.bytes = s.mem.bytes := by
  simp only [State.descAccept]
  (repeat' split) <;> simp

@[simp] theorem State.descAccept_wf (s : State) (t : TileId) (i : Nat) (f : InFlight) (k : Kernel)  (hw : s.mem.wf = true) : (State.descAccept s t i f k).mem.wf = true := by
  exact MemS.wf_of_bytes (State.descAccept_bytes _ _ _ _ _ ) hw
theorem execDescriptorAccept_bytes (t : TileId) (s : State) {post : State} (h : execDescriptorAccept t s = .next post)  : post.mem.bytes = s.mem.bytes := by
  simp only [execDescriptorAccept] at h
  (repeat' split at h) <;> (simp only [Host.Outcome.next.injEq] at h; subst h; (repeat' split) <;> simp)

theorem execDescriptorAccept_wf (t : TileId) (s : State) {post : State} (h : execDescriptorAccept t s = .next post) (hw : s.mem.wf = true) : post.mem.wf = true := by
  exact MemS.wf_of_bytes (execDescriptorAccept_bytes _ _ h) hw
@[simp] theorem State.readRows_bytes (s : State) (t : TileId) (f : InFlight) (d : MoveDesc)   : (State.readRows s t f d).1.mem.bytes = s.mem.bytes := by
  simp only [State.readRows]
  (repeat' split) <;> simp

@[simp] theorem State.readRows_wf (s : State) (t : TileId) (f : InFlight) (d : MoveDesc)  (hw : s.mem.wf = true) : (State.readRows s t f d).1.mem.wf = true := by
  exact MemS.wf_of_bytes (State.readRows_bytes _ _ _ _ ) hw
@[simp] theorem State.writeRows_wf (s : State) (t : TileId) (f : InFlight) (d : MoveDesc) (rows : List (List Byte))  (hw : s.mem.wf = true) : (State.writeRows s t f d rows).1.mem.wf = true := by
  simp only [State.writeRows]
  (repeat' split) <;> simp +contextual (maxDischargeDepth := 9) [*]
@[simp] theorem State.undefinedRows_wf (s : State) (t : TileId) (f : InFlight) (d : MoveDesc)  (hw : s.mem.wf = true) : (State.undefinedRows s t f d).mem.wf = true := by
  simp only [State.undefinedRows]
  (repeat' split) <;> simp +contextual (maxDischargeDepth := 9) [*]
@[simp] theorem State.transfer_wf (s : State) (t : TileId) (i : Nat) (f : InFlight) (d : MoveDesc)  (hw : s.mem.wf = true) : (State.transfer s t i f d).mem.wf = true := by
  simp only [State.transfer]
  (repeat' split) <;> simp +contextual (maxDischargeDepth := 9) [*]
@[simp] theorem State.runDesc_wf (s : State) (t : TileId) (i : Nat) (kind : MoveKind)  (hw : s.mem.wf = true) : (State.runDesc s t i kind).mem.wf = true := by
  simp only [State.runDesc]
  (repeat' split) <;> simp +contextual (maxDischargeDepth := 9) [*]
theorem execCopy_wf (t : TileId) (i : Nat) (s : State) {post : State} (h : execCopy t i s = .next post) (hw : s.mem.wf = true) : post.mem.wf = true := by
  simp only [execCopy, Host.Outcome.next.injEq] at h
  subst h
  (repeat' split) <;> simp +contextual (maxDischargeDepth := 9) [*]
theorem execTranspose_wf (t : TileId) (i : Nat) (s : State) {post : State} (h : execTranspose t i s = .next post) (hw : s.mem.wf = true) : post.mem.wf = true := by
  simp only [execTranspose, Host.Outcome.next.injEq] at h
  subst h
  (repeat' split) <;> simp +contextual (maxDischargeDepth := 9) [*]
theorem execFill_wf (t : TileId) (i : Nat) (s : State) {post : State} (h : execFill t i s = .next post) (hw : s.mem.wf = true) : post.mem.wf = true := by
  simp only [execFill, Host.Outcome.next.injEq] at h
  subst h
  (repeat' split) <;> simp +contextual (maxDischargeDepth := 9) [*]
theorem execInline_wf (t : TileId) (i : Nat) (s : State) {post : State} (h : execInline t i s = .next post) (hw : s.mem.wf = true) : post.mem.wf = true := by
  simp only [execInline, Host.Outcome.next.injEq] at h
  subst h
  (repeat' split) <;> simp +contextual (maxDischargeDepth := 9) [*]

/-! ### Kernel -/

@[simp] theorem State.readVirt_bytes (s : State) (die : Nat) (ctx : W32) (va : Nat) (n fuel : Nat)   : (State.readVirt s die ctx va n fuel).1.mem.bytes = s.mem.bytes := by
  induction fuel generalizing s va n with
  | zero => simp only [State.readVirt] <;> (repeat' split) <;> simp
  | succ n ih =>
    simp only [State.readVirt]
    (repeat' split) <;> simp [ih]

@[simp] theorem State.readVirt_wf (s : State) (die : Nat) (ctx : W32) (va : Nat) (n fuel : Nat)  (hw : s.mem.wf = true) : (State.readVirt s die ctx va n fuel).1.mem.wf = true := by
  exact MemS.wf_of_bytes (State.readVirt_bytes _ _ _ _ _ _ ) hw
@[simp] theorem State.writeRecord_wf (s : State) (compl : Nat) (src : LaunchSrc) (st : W32) (ext : Nat) (tag : W64) (xflags : Nat) (failTile : Option (TileId × Nat))  (hw : s.mem.wf = true) : (State.writeRecord s compl src st ext tag xflags failTile).mem.wf = true := by
  simp only [State.writeRecord]
  (repeat' split) <;> simp +contextual (maxDischargeDepth := 9) [*]
@[simp] theorem State.placeTile_bytes (s : State) (kid : Nat) (r : LaunchReq) (m : Image) (t : TileId × Nat)   : (State.placeTile s kid r m t).mem.bytes = s.mem.bytes := by
  simp only [State.placeTile]
  (repeat' split) <;> simp

@[simp] theorem State.placeTile_wf (s : State) (kid : Nat) (r : LaunchReq) (m : Image) (t : TileId × Nat)  (hw : s.mem.wf = true) : (State.placeTile s kid r m t).mem.wf = true := by
  exact MemS.wf_of_bytes (State.placeTile_bytes _ _ _ _ _ ) hw
@[simp] theorem State.enrol_wf (s : State) (r : LaunchReq) (m : Image) (ts : List TileId) (bs : List Nat)  (hw : s.mem.wf = true) : (State.enrol s r m ts bs).mem.wf = true := by
  simp only [State.enrol]
  (repeat' split) <;> simp +contextual (maxDischargeDepth := 9) [*]
@[simp] theorem State.launchReq_wf (s : State) (r : LaunchReq) (prefTiles : List TileId) (prefBells : List BellId)  (hw : s.mem.wf = true) : (State.launchReq s r prefTiles prefBells).mem.wf = true := by
  simp only [State.launchReq]
  (repeat' split) <;> simp +contextual (maxDischargeDepth := 9) [*]
@[simp] theorem State.lqTake_bytes (s : State) (want : Nat)   : (State.lqTake s want).1.mem.bytes = s.mem.bytes := by
  simp only [State.lqTake]
  (repeat' split) <;> simp

@[simp] theorem State.lqTake_wf (s : State) (want : Nat)  (hw : s.mem.wf = true) : (State.lqTake s want).1.mem.wf = true := by
  exact MemS.wf_of_bytes (State.lqTake_bytes _ _ ) hw
theorem execLaunch_wf (prefTiles : List TileId) (prefBells : List BellId) (s : State) {post : State} (h : execLaunch prefTiles prefBells s = .next post) (hw : s.mem.wf = true) : post.mem.wf = true := by
  simp only [execLaunch] at h
  (repeat' split at h) <;> (simp only [Host.Outcome.next.injEq] at h; subst h; (repeat' split) <;> simp +contextual (maxDischargeDepth := 9) [*])
theorem execTerminate_bytes (s : State) {post : State} (h : execTerminate s = .next post)  : post.mem.bytes = s.mem.bytes := by
  simp only [execTerminate] at h
  (repeat' split at h) <;> (simp only [Host.Outcome.next.injEq] at h; subst h; (repeat' split) <;> simp)

theorem execTerminate_wf (s : State) {post : State} (h : execTerminate s = .next post) (hw : s.mem.wf = true) : post.mem.wf = true := by
  exact MemS.wf_of_bytes (execTerminate_bytes _ h) hw
@[simp] theorem State.releaseKernel_bytes (s : State) (kid : Nat) (k : Kernel) : (State.releaseKernel s kid k).mem.bytes = s.mem.bytes := by
  simp only [State.releaseKernel]
  exact foldl_mem_bytes MemS.release k.draws s.mem fun m x => MemS.bytes_release m x

@[simp] theorem State.releaseKernel_wf (s : State) (kid : Nat) (k : Kernel)  (hw : s.mem.wf = true) : (State.releaseKernel s kid k).mem.wf = true := by
  exact MemS.wf_of_bytes (State.releaseKernel_bytes _ _ _ ) hw
theorem execCompletionRecord_wf (kid : Nat) (s : State) {post : State} (h : execCompletionRecord kid s = .next post) (hw : s.mem.wf = true) : post.mem.wf = true := by
  simp only [execCompletionRecord] at h
  (repeat' split at h) <;> (simp only [Host.Outcome.next.injEq] at h; subst h; (repeat' split) <;> simp +contextual (maxDischargeDepth := 9) [*])

/-! ### Memory -/

theorem execMemoryRead_bytes (a : Agent) (addr len : Nat) (s : State) {post : State} (h : execMemoryRead a addr len s = .next post)  : post.mem.bytes = s.mem.bytes := by
  simp only [execMemoryRead, Host.Outcome.next.injEq] at h
  subst h
  (repeat' split) <;> simp

theorem execMemoryRead_wf (a : Agent) (addr len : Nat) (s : State) {post : State} (h : execMemoryRead a addr len s = .next post) (hw : s.mem.wf = true) : post.mem.wf = true := by
  exact MemS.wf_of_bytes (execMemoryRead_bytes _ _ _ _ h) hw
theorem execMemoryWrite_wf (a : Agent) (addr : Nat) (bytes : List Byte) (s : State) {post : State} (h : execMemoryWrite a addr bytes s = .next post) (hw : s.mem.wf = true) : post.mem.wf = true := by
  simp only [execMemoryWrite, Host.Outcome.next.injEq] at h
  subst h
  (repeat' split) <;> simp +contextual (maxDischargeDepth := 9) [*]
theorem execPatrolScrub_bytes (c : Ctrl) (s : State) {post : State} (h : execPatrolScrub c s = .next post)  : post.mem.bytes = s.mem.bytes := by
  simp only [execPatrolScrub] at h
  (repeat' split at h) <;> (simp only [Host.Outcome.next.injEq] at h; subst h; (repeat' split) <;> simp)

theorem execPatrolScrub_wf (c : Ctrl) (s : State) {post : State} (h : execPatrolScrub c s = .next post) (hw : s.mem.wf = true) : post.mem.wf = true := by
  exact MemS.wf_of_bytes (execPatrolScrub_bytes _ _ h) hw
theorem execCeInnerCollect_bytes (c : Ctrl) (n : Nat) (s : State) {post : State} (h : execCeInnerCollect c n s = .next post)  : post.mem.bytes = s.mem.bytes := by
  simp only [execCeInnerCollect, Host.Outcome.next.injEq] at h
  subst h
  (repeat' split) <;> simp

theorem execCeInnerCollect_wf (c : Ctrl) (n : Nat) (s : State) {post : State} (h : execCeInnerCollect c n s = .next post) (hw : s.mem.wf = true) : post.mem.wf = true := by
  exact MemS.wf_of_bytes (execCeInnerCollect_bytes _ _ _ h) hw
@[simp] theorem State.descTimeout_wf (s : State) (t : TileId) (i : Nat)  (hw : s.mem.wf = true) : (State.descTimeout s t i).mem.wf = true := by
  simp only [State.descTimeout]
  (repeat' split) <;> simp +contextual (maxDischargeDepth := 9) [*]
theorem execLateResponseDiscard_bytes (a : Agent) (addr : Nat) (s : State) {post : State} (h : execLateResponseDiscard a addr s = .next post)  : post.mem.bytes = s.mem.bytes := by
  simp only [execLateResponseDiscard, Host.Outcome.next.injEq] at h
  subst h
  (repeat' split) <;> simp

theorem execLateResponseDiscard_wf (a : Agent) (addr : Nat) (s : State) {post : State} (h : execLateResponseDiscard a addr s = .next post) (hw : s.mem.wf = true) : post.mem.wf = true := by
  exact MemS.wf_of_bytes (execLateResponseDiscard_bytes _ _ _ h) hw
theorem execQmodeWrite_wf (hi : Bool) (v : W64) (s : State) {post : State} (h : execQmodeWrite hi v s = .next post) (hw : s.mem.wf = true) :
    post.mem.wf = true := by
  simp only [execQmodeWrite] at h
  (repeat' split at h) <;> (simp only [Host.Outcome.next.injEq] at h; subst h; first | exact hw | exact MemS.qmode_wf _ _ _ hw)
@[simp] theorem execQmodeWrite_after_wf (hi : Bool) (v : W64) (s : State) (hw : s.mem.wf = true) : (s.after (execQmodeWrite hi v)).mem.wf = true := by
  unfold State.after
  split
  · exact execQmodeWrite_wf _ _ _ ‹_› hw
  · exact hw
  · exact hw
theorem execPoolWrite_bytes (pool : Fin 6) (v : W64) (s : State) {post : State} (h : execPoolWrite pool v s = .next post)  : post.mem.bytes = s.mem.bytes := by
  simp only [execPoolWrite, Host.Outcome.next.injEq] at h
  subst h
  (repeat' split) <;> simp

theorem execPoolWrite_wf (pool : Fin 6) (v : W64) (s : State) {post : State} (h : execPoolWrite pool v s = .next post) (hw : s.mem.wf = true) : post.mem.wf = true := by
  exact MemS.wf_of_bytes (execPoolWrite_bytes _ _ _ h) hw
@[simp] theorem execPoolWrite_after_wf (pool : Fin 6) (v : W64) (s : State) (hw : s.mem.wf = true) : (s.after (execPoolWrite pool v)).mem.wf = true := by
  unfold State.after
  split
  · exact execPoolWrite_wf _ _ _ ‹_› hw
  · exact hw
  · exact hw
@[simp] theorem State.stackOut_bytes (s : State) (c : Nat)   : (State.stackOut s c).mem.bytes = s.mem.bytes := by
  simp only [State.stackOut]
  (repeat' split) <;> simp

@[simp] theorem State.stackOut_wf (s : State) (c : Nat)  (hw : s.mem.wf = true) : (State.stackOut s c).mem.wf = true := by
  exact MemS.wf_of_bytes (State.stackOut_bytes _ _ ) hw
theorem execStackFailure_bytes (c : Ctrl) (s : State) {post : State} (h : execStackFailure c s = .next post)  : post.mem.bytes = s.mem.bytes := by
  simp only [execStackFailure, Host.Outcome.next.injEq] at h
  subst h
  (repeat' split) <;> simp

theorem execStackFailure_wf (c : Ctrl) (s : State) {post : State} (h : execStackFailure c s = .next post) (hw : s.mem.wf = true) : post.mem.wf = true := by
  exact MemS.wf_of_bytes (execStackFailure_bytes _ _ h) hw

/-! ### Cache -/

@[simp] theorem State.fetchCodeword_bytes (s : State) (a : Nat)   : (State.fetchCodeword s a).1.mem.bytes = s.mem.bytes := by
  simp only [State.fetchCodeword]
  (repeat' split) <;> simp

@[simp] theorem State.fetchCodeword_wf (s : State) (a : Nat)  (hw : s.mem.wf = true) : (State.fetchCodeword s a).1.mem.wf = true := by
  exact MemS.wf_of_bytes (State.fetchCodeword_bytes _ _ ) hw
@[simp] theorem State.missLine_bytes (s : State) (a : Nat)   : (State.missLine s a).1.mem.bytes = s.mem.bytes := by
  simp only [State.missLine]
  (repeat' split) <;> simp

@[simp] theorem State.missLine_wf (s : State) (a : Nat)  (hw : s.mem.wf = true) : (State.missLine s a).1.mem.wf = true := by
  exact MemS.wf_of_bytes (State.missLine_bytes _ _ ) hw
@[simp] theorem State.storeCodeword_wf (s : State) (a : Nat) (bs : List Byte) (poisoned : Bool)  (hw : s.mem.wf = true) : (State.storeCodeword s a bs poisoned).mem.wf = true := by
  simp only [State.storeCodeword]
  (repeat' split) <;> simp +contextual (maxDischargeDepth := 9) [*]
@[simp] theorem State.writeBack_wf (s : State) (count : Bool) (a : Nat)  (hw : s.mem.wf = true) : (State.writeBack s count a).1.mem.wf = true := by
  simp only [State.writeBack]
  (repeat' split) <;> simp +contextual (maxDischargeDepth := 9) [*]
@[simp] theorem State.obtain_bytes (s : State) (c : CoreId) (a : Nat) (excl hint : Bool)   : (State.obtain s c a excl hint).mem.bytes = s.mem.bytes := by
  simp only [State.obtain]
  (repeat' split) <;> simp

@[simp] theorem State.obtain_wf (s : State) (c : CoreId) (a : Nat) (excl hint : Bool)  (hw : s.mem.wf = true) : (State.obtain s c a excl hint).mem.wf = true := by
  exact MemS.wf_of_bytes (State.obtain_bytes _ _ _ _ _ ) hw
@[simp] theorem State.evict_wf (s : State) (c : CoreId) (v : Victim)  (hw : s.mem.wf = true) : (State.evict s c v).mem.wf = true := by
  simp only [State.evict]
  (repeat' split) <;> simp +contextual (maxDischargeDepth := 9) [*]
@[simp] theorem State.coreLoadMem_wf (s : State) (c : CoreId) (a n : Nat) (fetch hint : Bool) (victims : List Victim)  (hw : s.mem.wf = true) : (State.coreLoadMem s c a n fetch hint victims).mem.wf = true := by
  simp only [State.coreLoadMem]
  (repeat' split) <;> simp +contextual (maxDischargeDepth := 9) [*]
@[simp] theorem State.coreStoreMem_wf (s : State) (c : CoreId) (a : Nat) (bs : List Byte) (hint : Bool) (victims : List Victim)  (hw : s.mem.wf = true) : (State.coreStoreMem s c a bs hint victims).mem.wf = true := by
  simp only [State.coreStoreMem]
  (repeat' split) <;> simp +contextual (maxDischargeDepth := 9) [*]
@[simp] theorem State.amoCache_bytes (s : State) (c : CoreId) (op : AmoOp) (a : Nat) (wide : Bool) (v cmp : W64)   : (State.amoCache s c op a wide v cmp).mem.bytes = s.mem.bytes := by
  simp only [State.amoCache]
  (repeat' split) <;> simp

@[simp] theorem State.amoCache_wf (s : State) (c : CoreId) (op : AmoOp) (a : Nat) (wide : Bool) (v cmp : W64)  (hw : s.mem.wf = true) : (State.amoCache s c op a wide v cmp).mem.wf = true := by
  exact MemS.wf_of_bytes (State.amoCache_bytes _ _ _ _ _ _ _ ) hw
@[simp] theorem State.amoHome_wf (s : State) (c : CoreId) (op : AmoOp) (a : Nat) (wide : Bool) (v cmp : W64)  (hw : s.mem.wf = true) : (State.amoHome s c op a wide v cmp).mem.wf = true := by
  simp only [State.amoHome]
  (repeat' split) <;> simp +contextual (maxDischargeDepth := 9) [*]
theorem execCoreAmo_wf (c : CoreId) (op : AmoOp) (addr : Nat) (wide : Bool) (v cmp : W64) (s : State) {post : State} (h : execCoreAmo c op addr wide v cmp s = .next post) (hw : s.mem.wf = true) : post.mem.wf = true := by
  simp only [execCoreAmo, Host.Outcome.next.injEq] at h
  subst h
  (repeat' split) <;> simp +contextual (maxDischargeDepth := 9) [*]
@[simp] theorem State.cleanLine_wf (s : State) (c : CoreId) (a : Nat) (flush : Bool)  (hw : s.mem.wf = true) : (State.cleanLine s c a flush).1.mem.wf = true := by
  simp only [State.cleanLine]
  (repeat' split) <;> simp +contextual (maxDischargeDepth := 9) [*]
@[simp] theorem State.cbo_wf (s : State) (c : CoreId) (a : Nat) (flush : Bool)  (hw : s.mem.wf = true) : (State.cbo s c a flush).mem.wf = true := by
  simp only [State.cbo]
  (repeat' split) <;> simp +contextual (maxDischargeDepth := 9) [*]
theorem execCboClean_wf (c : CoreId) (addr : Nat) (s : State) {post : State} (h : execCboClean c addr s = .next post) (hw : s.mem.wf = true) : post.mem.wf = true := by
  simp only [execCboClean, Host.Outcome.next.injEq] at h
  subst h
  (repeat' split) <;> simp +contextual (maxDischargeDepth := 9) [*]
theorem execCboFlush_wf (c : CoreId) (addr : Nat) (s : State) {post : State} (h : execCboFlush c addr s = .next post) (hw : s.mem.wf = true) : post.mem.wf = true := by
  simp only [execCboFlush, Host.Outcome.next.injEq] at h
  subst h
  (repeat' split) <;> simp +contextual (maxDischargeDepth := 9) [*]
theorem execCboInval_wf (c : CoreId) (addr : Nat) (s : State) {post : State} (h : execCboInval c addr s = .next post) (hw : s.mem.wf = true) : post.mem.wf = true := by
  simp only [execCboInval, Host.Outcome.next.injEq] at h
  subst h
  (repeat' split) <;> simp +contextual (maxDischargeDepth := 9) [*]
theorem execRangeOperationComplete_wf (c : CoreId) (s : State) {post : State} (h : execRangeOperationComplete c s = .next post) (hw : s.mem.wf = true) : post.mem.wf = true := by
  simp only [execRangeOperationComplete, Host.Outcome.next.injEq] at h
  subst h
  (repeat' split) <;> simp +contextual (maxDischargeDepth := 9) [*]
theorem execWritebackRetry_wf (line : Nat) (s : State) {post : State} (h : execWritebackRetry line s = .next post) (hw : s.mem.wf = true) : post.mem.wf = true := by
  simp only [execWritebackRetry, Host.Outcome.next.injEq] at h
  subst h
  (repeat' split) <;> simp +contextual (maxDischargeDepth := 9) [*]
@[simp] theorem State.coreTimeout_bytes (s : State) (c : CoreId) (a : Nat)   : (State.coreTimeout s c a).mem.bytes = s.mem.bytes := by
  simp only [State.coreTimeout]
  (repeat' split) <;> simp

@[simp] theorem State.coreTimeout_wf (s : State) (c : CoreId) (a : Nat)  (hw : s.mem.wf = true) : (State.coreTimeout s c a).mem.wf = true := by
  exact MemS.wf_of_bytes (State.coreTimeout_bytes _ _ _ ) hw

/-! ### Tocsin -/

@[simp] theorem State.writeMarker_wf (s : State)  (hw : s.mem.wf = true) : (State.writeMarker s).mem.wf = true := by
  simp only [State.writeMarker]
  (repeat' split) <;> simp +contextual (maxDischargeDepth := 9) [*]
@[simp] theorem State.tqStart_wf (s : State)  (hw : s.mem.wf = true) : (State.tqStart s).mem.wf = true := by
  simp only [State.tqStart]
  (repeat' split) <;> simp +contextual (maxDischargeDepth := 9) [*]
@[simp] theorem State.writeTqCtrl_wf (s : State) (v : W32)  (hw : s.mem.wf = true) : (State.writeTqCtrl s v).mem.wf = true := by
  simp only [State.writeTqCtrl]
  (repeat' split) <;> simp +contextual (maxDischargeDepth := 9) [*]
theorem execTqEnable_wf (v : W32) (s : State) {post : State} (h : execTqEnable v s = .next post) (hw : s.mem.wf = true) : post.mem.wf = true := by
  simp only [execTqEnable, Host.Outcome.next.injEq] at h
  subst h
  (repeat' split) <;> simp +contextual (maxDischargeDepth := 9) [*]
theorem execTocsinPost_wf (i : Nat) (s : State) {post : State} (h : execTocsinPost i s = .next post) (hw : s.mem.wf = true) : post.mem.wf = true := by
  simp only [execTocsinPost] at h
  (repeat' split at h) <;> (simp only [Host.Outcome.next.injEq] at h; subst h; (repeat' split) <;> simp +contextual (maxDischargeDepth := 9) [*])
theorem execOverflowMarkerRewrite_wf (s : State) {post : State} (h : execOverflowMarkerRewrite s = .next post) (hw : s.mem.wf = true) : post.mem.wf = true := by
  simp only [execOverflowMarkerRewrite, Host.Outcome.next.injEq] at h
  subst h
  (repeat' split) <;> simp +contextual (maxDischargeDepth := 9) [*]

/-! ### Migration -/

@[simp] theorem State.migRun_wf (s : State) (d : MigDesc)  (hw : s.mem.wf = true) : (State.migRun s d).1.mem.wf = true := by
  simp only [State.migRun]
  (repeat' split) <;> simp +contextual (maxDischargeDepth := 9) [*]
@[simp] theorem State.migTake_wf (s : State) (kind : Nat)  (hw : s.mem.wf = true) : (State.migTake s kind).mem.wf = true := by
  simp only [State.migTake]
  (repeat' split) <;> simp +contextual (maxDischargeDepth := 9) [*]
theorem execMigrationCopy_wf (s : State) {post : State} (h : execMigrationCopy s = .next post) (hw : s.mem.wf = true) : post.mem.wf = true := by
  simp only [execMigrationCopy, Host.Outcome.next.injEq] at h
  subst h
  (repeat' split) <;> simp +contextual (maxDischargeDepth := 9) [*]
theorem execMigrationZero_wf (s : State) {post : State} (h : execMigrationZero s = .next post) (hw : s.mem.wf = true) : post.mem.wf = true := by
  simp only [execMigrationZero, Host.Outcome.next.injEq] at h
  subst h
  (repeat' split) <;> simp +contextual (maxDischargeDepth := 9) [*]
theorem execMigrationAdvise_wf (s : State) {post : State} (h : execMigrationAdvise s = .next post) (hw : s.mem.wf = true) : post.mem.wf = true := by
  simp only [execMigrationAdvise, Host.Outcome.next.injEq] at h
  subst h
  (repeat' split) <;> simp +contextual (maxDischargeDepth := 9) [*]
theorem execMigrationDescriptorComplete_wf (s : State) {post : State} (h : execMigrationDescriptorComplete s = .next post) (hw : s.mem.wf = true) : post.mem.wf = true := by
  simp only [execMigrationDescriptorComplete] at h
  (repeat' split at h) <;> (simp only [Host.Outcome.next.injEq] at h; subst h; (repeat' split) <;> simp +contextual (maxDischargeDepth := 9) [*])
@[simp] theorem State.migTimeout_wf (s : State)  (hw : s.mem.wf = true) : (State.migTimeout s).mem.wf = true := by
  simp only [State.migTimeout]
  (repeat' split) <;> simp +contextual (maxDischargeDepth := 9) [*]

end Sys2Proof.Machine
end

