-- ==== Sys2Proof/Laws/CanonicalB.lean ====
section
/-! SUPPORT. Every operation of every other unit that reaches memory keeps its canonical form; those that only read leave its bytes
as they were. -/

namespace Sys2Proof.Machine

set_option linter.unnecessarySeqFocus false
set_option linter.unreachableTactic false
set_option linter.unusedTactic false
set_option maxRecDepth 20000
set_option linter.unusedSimpArgs false
set_option linter.unusedVariables false

/-! ### Fabric -/

@[simp] theorem State.spanPages_bytes (s : State) (die : Nat) (ctx : W32) (va n : Nat) (write : Bool) (fuel : Nat)   : (State.spanPages s die ctx va n write fuel).1.mem.bytes = s.mem.bytes := by
  induction fuel generalizing s va n with
  | zero => simp only [State.spanPages] <;> (repeat' split) <;> simp
  | succ n ih =>
    simp only [State.spanPages]
    (repeat' split) <;> simp [ih]

@[simp] theorem State.spanPages_wf (s : State) (die : Nat) (ctx : W32) (va n : Nat) (write : Bool) (fuel : Nat)  (hw : s.mem.wf = true) : (State.spanPages s die ctx va n write fuel).1.mem.wf = true := by
  exact MemS.wf_of_bytes (State.spanPages_bytes _ _ _ _ _ _ _ ) hw
@[simp] theorem State.winSpan_bytes (s : State) (via : Via) (w off len : Nat) (write : Bool)   : (State.winSpan s via w off len write).1.mem.bytes = s.mem.bytes := by
  simp only [State.winSpan]
  (repeat' split) <;> simp

@[simp] theorem State.winSpan_wf (s : State) (via : Via) (w off len : Nat) (write : Bool)  (hw : s.mem.wf = true) : (State.winSpan s via w off len write).1.mem.wf = true := by
  exact MemS.wf_of_bytes (State.winSpan_bytes _ _ _ _ _ _ ) hw
@[simp] theorem State.putAt_wf (s : State) (via : Via) (w src off bell : Nat) (ring : Bool) (bs : List Byte)  (hw : s.mem.wf = true) : (State.putAt s via w src off bell ring bs).1.mem.wf = true := by
  simp only [State.putAt]
  (repeat' split) <;> simp +contextual (maxDischargeDepth := 9) [*]
@[simp] theorem State.getAt_bytes (s : State) (via : Via) (w src off len : Nat)   : (State.getAt s via w src off len).1.mem.bytes = s.mem.bytes := by
  simp only [State.getAt]
  (repeat' split) <;> simp

@[simp] theorem State.getAt_wf (s : State) (via : Via) (w src off len : Nat)  (hw : s.mem.wf = true) : (State.getAt s via w src off len).1.mem.wf = true := by
  exact MemS.wf_of_bytes (State.getAt_bytes _ _ _ _ _ _ ) hw
@[simp] theorem State.land_wf (s : State) (x : Xfer) (row col : Nat) (bs : List Byte)  (hw : s.mem.wf = true) : (State.land s x row col bs).1.mem.wf = true := by
  simp only [State.land]
  (repeat' split) <;> simp +contextual (maxDischargeDepth := 9) [*]
@[simp] theorem State.ownMessage_wf (s : State) (x : Xfer) (q : Pending)  (hw : s.mem.wf = true) : (State.ownMessage s x q).1.mem.wf = true := by
  simp only [State.ownMessage]
  (repeat' split) <;> simp +contextual (maxDischargeDepth := 9) [*]
@[simp] theorem State.pumpOne_wf (s : State) (x : Xfer)  (hw : s.mem.wf = true) : (State.pumpOne s x).1.mem.wf = true := by
  simp only [State.pumpOne]
  (repeat' split) <;> simp +contextual (maxDischargeDepth := 9) [*]
@[simp] theorem State.pump_wf (s : State) (x : Xfer) (fuel : Nat)  (hw : s.mem.wf = true) : (State.pump s x fuel).1.mem.wf = true := by
  induction fuel generalizing s x with
  | zero => simp only [State.pump] <;> (repeat' split) <;> simp [*]
  | succ n ih =>
    simp only [State.pump]
    (repeat' split) <;> simp [*]
@[simp] theorem State.xferEnd_wf (s : State) (x : Xfer)  (hw : s.mem.wf = true) : (State.xferEnd s x).mem.wf = true := by
  simp only [State.xferEnd]
  (repeat' split) <;> simp +contextual (maxDischargeDepth := 9) [*]
@[simp] theorem State.xferStep_wf (s : State) (x : Xfer)  (hw : s.mem.wf = true) : (State.xferStep s x).mem.wf = true := by
  simp only [State.xferStep]
  (repeat' split) <;> simp +contextual (maxDischargeDepth := 9) [*]
@[simp] theorem State.answerXfer_wf (s : State) (p : PortId) (slot nack : Nat) (data : Option (List Byte))  (hw : s.mem.wf = true) : (State.answerXfer s p slot nack data).mem.wf = true := by
  simp only [State.answerXfer]
  (repeat' split) <;> simp +contextual (maxDischargeDepth := 9) [*]
@[simp] theorem State.pumpAll_wf (s : State)  (hw : s.mem.wf = true) : (State.pumpAll s).mem.wf = true := by
  simp only [State.pumpAll]
  refine foldl_inv (fun x : State => x.mem.wf = true) _ ?_ _ _ (by simp [*])
  intro s x h
  (repeat' split) <;> simp +contextual (maxDischargeDepth := 9) [*]
@[simp] theorem State.refuseMsg_wf (s : State) (m : Msg) (nack : Nat)  (hw : s.mem.wf = true) : (State.refuseMsg s m nack).mem.wf = true := by
  simp only [State.refuseMsg]
  (repeat' split) <;> simp +contextual (maxDischargeDepth := 9) [*]
theorem execPutData_wf (p : PortId) (m : Msg) (s : State) {post : State} (h : execPutData p m s = .next post) (hw : s.mem.wf = true) : post.mem.wf = true := by
  simp only [execPutData, State.inbound, Host.Outcome.next.injEq] at h
  subst h
  (repeat' split) <;> simp +contextual (maxDischargeDepth := 9) [*]
theorem execGetReq_bytes (p : PortId) (m : Msg) (s : State) {post : State} (h : execGetReq p m s = .next post) : post.mem.bytes = s.mem.bytes := by
  simp only [execGetReq, State.inbound, Host.Outcome.next.injEq] at h
  subst h
  (repeat' split) <;> simp

theorem execGetReq_wf (p : PortId) (m : Msg) (s : State) {post : State} (h : execGetReq p m s = .next post) (hw : s.mem.wf = true) : post.mem.wf = true := by
  exact MemS.wf_of_bytes (execGetReq_bytes _ _ _ h) hw
@[simp] theorem State.response_wf (s : State) (p : PortId) (m : Msg) (nack : Nat) (data : Option (List Byte))  (hw : s.mem.wf = true) : (State.response s p m nack data).mem.wf = true := by
  simp only [State.response, State.inbound]
  (repeat' split) <;> simp +contextual (maxDischargeDepth := 9) [*]
theorem execPutAck_wf (p : PortId) (m : Msg) (s : State) {post : State} (h : execPutAck p m s = .next post) (hw : s.mem.wf = true) : post.mem.wf = true := by
  simp only [execPutAck, Host.Outcome.next.injEq] at h
  subst h
  (repeat' split) <;> simp +contextual (maxDischargeDepth := 9) [*]
theorem execGetData_wf (p : PortId) (m : Msg) (s : State) {post : State} (h : execGetData p m s = .next post) (hw : s.mem.wf = true) : post.mem.wf = true := by
  simp only [execGetData, Host.Outcome.next.injEq] at h
  subst h
  (repeat' split) <;> simp +contextual (maxDischargeDepth := 9) [*]
theorem execNack_wf (p : PortId) (m : Msg) (s : State) {post : State} (h : execNack p m s = .next post) (hw : s.mem.wf = true) : post.mem.wf = true := by
  simp only [execNack, Host.Outcome.next.injEq] at h
  subst h
  (repeat' split) <;> simp +contextual (maxDischargeDepth := 9) [*]
theorem execMessageTimeout_wf (p : PortId) (slot : Fin 2048) (s : State) {post : State} (h : execMessageTimeout p slot s = .next post) (hw : s.mem.wf = true) : post.mem.wf = true := by
  simp only [execMessageTimeout, Host.Outcome.next.injEq] at h
  subst h
  (repeat' split) <;> simp +contextual (maxDischargeDepth := 9) [*]
theorem execSlotEpochAdvance_wf (p : PortId) (slot : Fin 2048) (s : State) {post : State} (h : execSlotEpochAdvance p slot s = .next post) (hw : s.mem.wf = true) : post.mem.wf = true := by
  simp only [execSlotEpochAdvance, Host.Outcome.next.injEq] at h
  subst h
  (repeat' split) <;> simp +contextual (maxDischargeDepth := 9) [*]
@[simp] theorem State.remoteStart_wf (s : State) (t : TileId) (i : Nat) (f : InFlight) (d : MoveDesc)  (hw : s.mem.wf = true) : (State.remoteStart s t i f d).mem.wf = true := by
  simp only [State.remoteStart]
  (repeat' split) <;> simp +contextual (maxDischargeDepth := 9) [*]
@[simp] theorem State.runRemote_wf (s : State) (t : TileId) (i : Nat) (kind : MoveKind)  (hw : s.mem.wf = true) : (State.runRemote s t i kind).mem.wf = true := by
  simp only [State.runRemote]
  (repeat' split) <;> simp +contextual (maxDischargeDepth := 9) [*]
theorem execPut_wf (t : TileId) (i : Nat) (s : State) {post : State} (h : execPut t i s = .next post) (hw : s.mem.wf = true) : post.mem.wf = true := by
  simp only [execPut, Host.Outcome.next.injEq] at h
  subst h
  (repeat' split) <;> simp +contextual (maxDischargeDepth := 9) [*]
theorem execGet_wf (t : TileId) (i : Nat) (s : State) {post : State} (h : execGet t i s = .next post) (hw : s.mem.wf = true) : post.mem.wf = true := by
  simp only [execGet, Host.Outcome.next.injEq] at h
  subst h
  (repeat' split) <;> simp +contextual (maxDischargeDepth := 9) [*]

/-! ### Ports -/

@[simp] theorem State.undefinedVirt_wf (s : State) (die : Nat) (ctx : W32) (va n : Nat)  (hw : s.mem.wf = true) : (State.undefinedVirt s die ctx va n).mem.wf = true := by
  simp only [State.undefinedVirt]
  (repeat' split) <;> simp +contextual (maxDischargeDepth := 9) [*]
@[simp] theorem State.pealFail_wf (s : State) (k : PealSlot) (st : W32)  (hw : s.mem.wf = true) : (State.pealFail s k st).mem.wf = true := by
  simp only [State.pealFail]
  (repeat' split) <;> simp +contextual (maxDischargeDepth := 9) [*]
@[simp] theorem State.pealPortDown_wf (s : State) (p : PortId)  (hw : s.mem.wf = true) : (State.pealPortDown s p).mem.wf = true := by
  simp only [State.pealPortDown]
  refine foldl_inv (fun x : State => x.mem.wf = true) _ ?_ _ _ (by simp [*])
  intro s x h
  (repeat' split) <;> simp +contextual (maxDischargeDepth := 9) [*]
@[simp] theorem State.reroute_wf (s : State) (q : List TxItem)  (hw : s.mem.wf = true) : (State.reroute s q).mem.wf = true := by
  simp only [State.reroute]
  refine foldl_inv (fun x : State => x.mem.wf = true) _ ?_ _ _ (by simp [*])
  intro s x h
  (repeat' split) <;> simp +contextual (maxDischargeDepth := 9) [*]
@[simp] theorem State.linkDown_wf (s : State) (p : PortId) (cause : Nat)  (hw : s.mem.wf = true) : (State.linkDown s p cause).mem.wf = true := by
  simp only [State.linkDown]
  (repeat' split) <;> simp +contextual (maxDischargeDepth := 9) [*]
@[simp] theorem State.linkViolation_wf (s : State) (p : PortId)  (hw : s.mem.wf = true) : (State.linkViolation s p).mem.wf = true := by
  simp only [State.linkViolation]
  (repeat' split) <;> simp +contextual (maxDischargeDepth := 9) [*]
theorem execLinkHeartbeatTimeout_wf (p : PortId) (s : State) {post : State} (h : execLinkHeartbeatTimeout p s = .next post) (hw : s.mem.wf = true) : post.mem.wf = true := by
  simp only [execLinkHeartbeatTimeout, Host.Outcome.next.injEq] at h
  subst h
  (repeat' split) <;> simp +contextual (maxDischargeDepth := 9) [*]
theorem execFlitDiscard_wf (p : PortId) (f : Trailer) (s : State) {post : State} (h : execFlitDiscard p f s = .next post) (hw : s.mem.wf = true) : post.mem.wf = true := by
  simp only [execFlitDiscard, Host.Outcome.next.injEq] at h
  subst h
  (repeat' split) <;> simp +contextual (maxDischargeDepth := 9) [*]
@[simp] theorem State.replay_wf (s : State) (p : PortId) (ackseq : BitVec 12)  (hw : s.mem.wf = true) : (State.replay s p ackseq).mem.wf = true := by
  simp only [State.replay]
  (repeat' split) <;> simp +contextual (maxDischargeDepth := 9) [*]
theorem execLinkReplay_wf (p : PortId) (ackseq : BitVec 12) (s : State) {post : State} (h : execLinkReplay p ackseq s = .next post) (hw : s.mem.wf = true) : post.mem.wf = true := by
  simp only [execLinkReplay, Host.Outcome.next.injEq] at h
  subst h
  (repeat' split) <;> simp +contextual (maxDischargeDepth := 9) [*]
theorem execIdleFlit_wf (p : PortId) (f : Trailer) (s : State) {post : State} (h : execIdleFlit p f s = .next post) (hw : s.mem.wf = true) : post.mem.wf = true := by
  simp only [execIdleFlit, Host.Outcome.next.injEq] at h
  subst h
  (repeat' split) <;> simp +contextual (maxDischargeDepth := 9) [*]
@[simp] theorem State.coordCheck_wf (s : State) (p : PortId)  (hw : s.mem.wf = true) : (State.coordCheck s p).mem.wf = true := by
  simp only [State.coordCheck]
  (repeat' split) <;> simp +contextual (maxDischargeDepth := 9) [*]
theorem execCoordinateCheck_wf (p : PortId) (s : State) {post : State} (h : execCoordinateCheck p s = .next post) (hw : s.mem.wf = true) : post.mem.wf = true := by
  simp only [execCoordinateCheck, Host.Outcome.next.injEq] at h
  subst h
  (repeat' split) <;> simp +contextual (maxDischargeDepth := 9) [*]
theorem execPortBringup_wf (p : PortId) (probe : PortProbe) (s : State) {post : State} (h : execPortBringup p probe s = .next post) (hw : s.mem.wf = true) : post.mem.wf = true := by
  simp only [execPortBringup, Host.Outcome.next.injEq] at h
  subst h
  (repeat' split) <;> simp +contextual (maxDischargeDepth := 9) [*]
@[simp] theorem State.writePortCtrl_wf (s : State) (p : PortId) (v : W32)  (hw : s.mem.wf = true) : (State.writePortCtrl s p v).mem.wf = true := by
  simp only [State.writePortCtrl]
  (repeat' split) <;> simp +contextual (maxDischargeDepth := 9) [*]
theorem execPortEnable_wf (p : PortId) (v : W32) (s : State) {post : State} (h : execPortEnable p v s = .next post) (hw : s.mem.wf = true) : post.mem.wf = true := by
  simp only [execPortEnable, Host.Outcome.next.injEq] at h
  subst h
  (repeat' split) <;> simp +contextual (maxDischargeDepth := 9) [*]
theorem execPortDisable_wf (p : PortId) (v : W32) (s : State) {post : State} (h : execPortDisable p v s = .next post) (hw : s.mem.wf = true) : post.mem.wf = true := by
  simp only [execPortDisable, Host.Outcome.next.injEq] at h
  subst h
  (repeat' split) <;> simp +contextual (maxDischargeDepth := 9) [*]
theorem execWidthRequest_wf (p : PortId) (v : W32) (s : State) {post : State} (h : execWidthRequest p v s = .next post) (hw : s.mem.wf = true) : post.mem.wf = true := by
  simp only [execWidthRequest, Host.Outcome.next.injEq] at h
  subst h
  (repeat' split) <;> simp +contextual (maxDischargeDepth := 9) [*]

/-! ### Peal -/

@[simp] theorem State.virtPages_bytes (s : State) (die : Nat) (ctx : W32) (va n : Nat) (write : Bool)   : (State.virtPages s die ctx va n write).1.mem.bytes = s.mem.bytes := by
  simp only [State.virtPages]
  (repeat' split) <;> simp

@[simp] theorem State.virtPages_wf (s : State) (die : Nat) (ctx : W32) (va n : Nat) (write : Bool)  (hw : s.mem.wf = true) : (State.virtPages s die ctx va n write).1.mem.wf = true := by
  exact MemS.wf_of_bytes (State.virtPages_bytes _ _ _ _ _ _ ) hw
@[simp] theorem State.readPages_bytes (s : State) (die : Nat) (ps : List (Nat × Nat))   : (State.readPages s die ps).1.mem.bytes = s.mem.bytes := by
  simp only [State.readPages]
  refine foldl_keep (fun x : State × Except AccErr (List Byte) => x.1.mem.bytes) _ ?_ _ _
  intro s x
  (repeat' split) <;> simp

@[simp] theorem State.readPages_wf (s : State) (die : Nat) (ps : List (Nat × Nat))  (hw : s.mem.wf = true) : (State.readPages s die ps).1.mem.wf = true := by
  exact MemS.wf_of_bytes (State.readPages_bytes _ _ _ ) hw
@[simp] theorem State.writePages_wf (s : State) (die : Nat) (ps : List (Nat × Nat)) (bs : List Byte)  (hw : s.mem.wf = true) : (State.writePages s die ps bs).1.mem.wf = true := by
  simp only [State.writePages]
  refine foldl_inv (fun x : State × Option AccErr × List Byte => x.1.mem.wf = true) _ ?_ _ _ (by simp [*])
  intro s x h
  (repeat' split) <;> simp +contextual (maxDischargeDepth := 9) [*]
@[simp] theorem State.virtRead_bytes (s : State) (die : Nat) (ctx : W32) (va n : Nat)   : (State.virtRead s die ctx va n).1.mem.bytes = s.mem.bytes := by
  simp only [State.virtRead]
  (repeat' split) <;> simp

@[simp] theorem State.virtRead_wf (s : State) (die : Nat) (ctx : W32) (va n : Nat)  (hw : s.mem.wf = true) : (State.virtRead s die ctx va n).1.mem.wf = true := by
  exact MemS.wf_of_bytes (State.virtRead_bytes _ _ _ _ _ ) hw
@[simp] theorem State.virtWrite_wf (s : State) (die : Nat) (ctx : W32) (va : Nat) (bs : List Byte)  (hw : s.mem.wf = true) : (State.virtWrite s die ctx va bs).1.mem.wf = true := by
  simp only [State.virtWrite]
  (repeat' split) <;> simp +contextual (maxDischargeDepth := 9) [*]
@[simp] theorem State.pealStop_wf (s : State) (k : PealSlot) (ctx : W32) (positive write : Bool) (e : AccErr)  (hw : s.mem.wf = true) : (State.pealStop s k ctx positive write e).mem.wf = true := by
  simp only [State.pealStop]
  (repeat' split) <;> simp +contextual (maxDischargeDepth := 9) [*]
@[simp] theorem State.pealOwned_wf (s : State) (k : PealSlot) (r : PealRun) (c off : Nat) (zs : List W32)  (hw : s.mem.wf = true) : (State.pealOwned s k r c off zs).1.mem.wf = true := by
  simp only [State.pealOwned]
  (repeat' split) <;> simp +contextual (maxDischargeDepth := 9) [*]
@[simp] theorem State.pealSum_wf (s : State) (k : PealSlot) (r : PealRun) (c off : Nat) (xs : List W32) (hw : s.mem.wf = true) : (State.pealSum s k r c off xs).1.mem.wf = true := by
  simp only [State.pealSum]
  (repeat' split) <;> simp +contextual (maxDischargeDepth := 9) [hw]
@[simp] theorem State.pealGather_wf (s : State) (k : PealSlot) (r : PealRun) (c off : Nat) (bs : List Byte) (hw : s.mem.wf = true) : (State.pealGather s k r c off bs).1.mem.wf = true := by
  simp only [State.pealGather]
  (repeat' split) <;> simp +contextual (maxDischargeDepth := 9) [hw]
@[simp] theorem State.pealTake_wf (s : State) (k : PealSlot) (positive : Bool) (m : Msg)  (hw : s.mem.wf = true) : (State.pealTake s k positive m).mem.wf = true := by
  simp only [State.pealTake]
  (repeat' split) <;> simp +contextual (maxDischargeDepth := 9) [*]
@[simp] theorem State.pealArrive_wf (s : State) (p : PortId) (m : Msg)  (hw : s.mem.wf = true) : (State.pealArrive s p m).mem.wf = true := by
  simp only [State.pealArrive]
  (repeat' split) <;> simp +contextual (maxDischargeDepth := 9) [*]
theorem execPeal_wf (p : PortId) (m : Msg) (s : State) {post : State} (h : execPeal p m s = .next post) (hw : s.mem.wf = true) : post.mem.wf = true := by
  simp only [execPeal, State.inbound, Host.Outcome.next.injEq] at h
  subst h
  (repeat' split) <;> simp +contextual (maxDischargeDepth := 9) [*]
@[simp] theorem State.pealDrain_wf (s : State) (k : PealSlot) (p : PortId)  (hw : s.mem.wf = true) : (State.pealDrain s k p).mem.wf = true := by
  simp only [State.pealDrain]
  (repeat' split) <;> simp +contextual (maxDischargeDepth := 9) [*]
@[simp] theorem State.pealFeed_wf (s : State) (k : PealSlot) (qs : List (Msg × Bool))  (hw : s.mem.wf = true) : (State.pealFeed s k qs).mem.wf = true := by
  simp only [State.pealFeed]
  refine foldl_inv (fun x : State => x.mem.wf = true) _ ?_ _ _ (by simp [*])
  intro s x h
  (repeat' split) <;> simp +contextual (maxDischargeDepth := 9) [*]
@[simp] theorem State.pealResume_wf (s : State) (k : PealSlot)  (hw : s.mem.wf = true) : (State.pealResume s k).mem.wf = true := by
  simp only [State.pealResume]
  (repeat' split) <;> simp +contextual (maxDischargeDepth := 9) [*]
@[simp] theorem State.pealFirst_wf (s : State) (k : PealSlot) (r : PealRun) (positive : Bool)  (hw : s.mem.wf = true) : (State.pealFirst s k r positive).1.mem.wf = true := by
  simp only [State.pealFirst]
  (repeat' split) <;> simp +contextual (maxDischargeDepth := 9) [*]
@[simp] theorem State.pealFirsts_wf (s : State) (k : PealSlot) (r : PealRun)  (hw : s.mem.wf = true) : (State.pealFirsts s k r).1.mem.wf = true := by
  simp only [State.pealFirsts]
  refine foldl_inv (fun x : State × Except (Bool × Bool × AccErr) (PealRun × List (Bool × Nat × Nat × List Byte)) => x.1.mem.wf = true) _ ?_ _ _ (by simp [*])
  intro s x h
  (repeat' split) <;> simp +contextual (maxDischargeDepth := 9) [*]
@[simp] theorem State.pealBegin_wf (s : State) (k : PealSlot) (r : PealRun)  (hw : s.mem.wf = true) : (State.pealBegin s k r).mem.wf = true := by
  simp only [State.pealBegin]
  (repeat' split) <;> simp +contextual (maxDischargeDepth := 9) [*]
@[simp] theorem State.pealGo_wf (s : State) (k : PealSlot) (r : PealRun)  (hw : s.mem.wf = true) : (State.pealGo s k r).mem.wf = true := by
  simp only [State.pealGo]
  (repeat' split) <;> simp +contextual (maxDischargeDepth := 9) [*]
@[simp] theorem State.pealNext_wf (s : State) (k : PealSlot) (op : Nat)  (hw : s.mem.wf = true) : (State.pealNext s k op).mem.wf = true := by
  simp only [State.pealNext]
  (repeat' split) <;> simp +contextual (maxDischargeDepth := 9) [*]
theorem execRs_wf (k : PealSlot) (s : State) {post : State} (h : execRs k s = .next post) (hw : s.mem.wf = true) : post.mem.wf = true := by
  simp only [execRs, Host.Outcome.next.injEq] at h
  subst h
  (repeat' split) <;> simp +contextual (maxDischargeDepth := 9) [*]
theorem execAg_wf (k : PealSlot) (s : State) {post : State} (h : execAg k s = .next post) (hw : s.mem.wf = true) : post.mem.wf = true := by
  simp only [execAg, Host.Outcome.next.injEq] at h
  subst h
  (repeat' split) <;> simp +contextual (maxDischargeDepth := 9) [*]
theorem execAr_wf (k : PealSlot) (s : State) {post : State} (h : execAr k s = .next post) (hw : s.mem.wf = true) : post.mem.wf = true := by
  simp only [execAr, Host.Outcome.next.injEq] at h
  subst h
  (repeat' split) <;> simp +contextual (maxDischargeDepth := 9) [*]
theorem execPealTimeout_wf (k : PealSlot) (s : State) {post : State} (h : execPealTimeout k s = .next post) (hw : s.mem.wf = true) : post.mem.wf = true := by
  simp only [execPealTimeout] at h
  (repeat' split at h) <;> (simp only [Host.Outcome.next.injEq] at h; subst h; (repeat' split) <;> simp +contextual (maxDischargeDepth := 9) [*])
theorem execPealDescriptorComplete_wf (k : PealSlot) (s : State) {post : State} (h : execPealDescriptorComplete k s = .next post) (hw : s.mem.wf = true) : post.mem.wf = true := by
  simp only [execPealDescriptorComplete] at h
  (repeat' split at h) <;> (simp only [Host.Outcome.next.injEq] at h; subst h; (repeat' split) <;> simp +contextual (maxDischargeDepth := 9) [*])
theorem execPealBind_wf (k : PealSlot) (s : State) {post : State} (h : execPealBind k s = .next post) (hw : s.mem.wf = true) : post.mem.wf = true := by
  simp only [execPealBind] at h
  (repeat' split at h) <;> (simp only [Host.Outcome.next.injEq] at h; subst h; (repeat' split) <;> simp +contextual (maxDischargeDepth := 9) [*])
theorem execLotHandover_wf (k : PealSlot) (lot : Nat) (s : State) {post : State} (h : execLotHandover k lot s = .next post) (hw : s.mem.wf = true) : post.mem.wf = true := by
  simp only [execLotHandover] at h
  (repeat' split at h) <;> (simp only [Host.Outcome.next.injEq] at h; subst h; (repeat' split) <;> simp +contextual (maxDischargeDepth := 9) [*])
@[simp] theorem State.pealFaultFail_wf (s : State) (k : PealSlot) (st : W32)  (hw : s.mem.wf = true) : (State.pealFaultFail s k st).mem.wf = true := by
  simp only [State.pealFaultFail]
  (repeat' split) <;> simp +contextual (maxDischargeDepth := 9) [*]
@[simp] theorem State.pealFaultRetry_wf (s : State) (k : PealSlot)  (hw : s.mem.wf = true) : (State.pealFaultRetry s k).mem.wf = true := by
  simp only [State.pealFaultRetry]
  (repeat' split) <;> simp +contextual (maxDischargeDepth := 9) [*]

/-! ### Clapper -/

@[simp] theorem State.readStreams_bytes (s : State) (u : Ctrl) (d : JobDesc) (lot : Nat)   : (State.readStreams s u d lot).1.mem.bytes = s.mem.bytes := by
  simp only [State.readStreams]
  refine foldl_keep (fun x : State × Except AccErr (Map Row) => x.1.mem.bytes) _ ?_ _ _
  intro s x
  (repeat' split) <;> simp

@[simp] theorem State.readStreams_wf (s : State) (u : Ctrl) (d : JobDesc) (lot : Nat)  (hw : s.mem.wf = true) : (State.readStreams s u d lot).1.mem.wf = true := by
  exact MemS.wf_of_bytes (State.readStreams_bytes _ _ _ _ ) hw
@[simp] theorem State.lotBegin_bytes (s : State) (u : Ctrl)   : (State.lotBegin s u).mem.bytes = s.mem.bytes := by
  simp only [State.lotBegin]
  (repeat' split) <;> simp

@[simp] theorem State.lotBegin_wf (s : State) (u : Ctrl)  (hw : s.mem.wf = true) : (State.lotBegin s u).mem.wf = true := by
  exact MemS.wf_of_bytes (State.lotBegin_bytes _ _ ) hw
@[simp] theorem State.dispatch_bytes (s : State) (u : Ctrl) (fuel : Nat)   : (State.dispatch s u fuel).mem.bytes = s.mem.bytes := by
  induction fuel generalizing s  with
  | zero => simp only [State.dispatch] <;> (repeat' split) <;> simp
  | succ n ih =>
    simp only [State.dispatch]
    (repeat' split) <;> simp [ih]

@[simp] theorem State.dispatch_wf (s : State) (u : Ctrl) (fuel : Nat)  (hw : s.mem.wf = true) : (State.dispatch s u fuel).mem.wf = true := by
  exact MemS.wf_of_bytes (State.dispatch_bytes _ _ _ ) hw
@[simp] theorem State.lotReady_bytes (s : State) (u : Ctrl)   : (State.lotReady s u).mem.bytes = s.mem.bytes := by
  simp only [State.lotReady]
  (repeat' split) <;> simp

@[simp] theorem State.lotReady_wf (s : State) (u : Ctrl)  (hw : s.mem.wf = true) : (State.lotReady s u).mem.wf = true := by
  exact MemS.wf_of_bytes (State.lotReady_bytes _ _ ) hw
@[simp] theorem State.writeStream_wf (s : State) (u : Ctrl) (d : JobDesc) (lot k : Nat) (xs : List (Option Nat))  (hw : s.mem.wf = true) : (State.writeStream s u d lot k xs).1.mem.wf = true := by
  simp only [State.writeStream]
  refine foldl_inv (fun x : State × Option AccErr => x.1.mem.wf = true) _ ?_ _ _ (by simp [*])
  intro s x h
  (repeat' split) <;> simp +contextual (maxDischargeDepth := 9) [*]
@[simp] theorem State.undefinedStream_wf (s : State) (u : Ctrl) (d : JobDesc) (lot k : Nat) (xs : List (Option Nat))  (hw : s.mem.wf = true) : (State.undefinedStream s u d lot k xs).mem.wf = true := by
  simp only [State.undefinedStream]
  (repeat' split) <;> simp +contextual (maxDischargeDepth := 9) [*]
@[simp] theorem State.writeLot_wf (s : State) (u : Ctrl) (fuel : Nat)  (hw : s.mem.wf = true) : (State.writeLot s u fuel).mem.wf = true := by
  induction fuel generalizing s  with
  | zero => simp only [State.writeLot] <;> (repeat' split) <;> simp [*]
  | succ n ih =>
    simp only [State.writeLot]
    (repeat' split) <;> simp [*]
theorem execLotRun_wf (u : Ctrl) (s : State) {post : State} (h : execLotRun u s = .next post) (hw : s.mem.wf = true) : post.mem.wf = true := by
  simp only [execLotRun, Host.Outcome.next.injEq] at h
  subst h
  (repeat' split) <;> simp +contextual (maxDischargeDepth := 9) [*]
@[simp] theorem State.clapOne_bytes (s : State) (u : Ctrl) (want : ClapOp → Bool)   : (State.clapOne s u want).mem.bytes = s.mem.bytes := by
  simp only [State.clapOne]
  (repeat' split) <;> simp

@[simp] theorem State.clapOne_wf (s : State) (u : Ctrl) (want : ClapOp → Bool)  (hw : s.mem.wf = true) : (State.clapOne s u want).mem.wf = true := by
  exact MemS.wf_of_bytes (State.clapOne_bytes _ _ _ ) hw
theorem execVcnt_bytes (u : Ctrl) (msk : Fin 8) (s : State) {post : State} (h : execVcnt u msk s = .next post)  : post.mem.bytes = s.mem.bytes := by
  simp only [execVcnt, Host.Outcome.next.injEq] at h
  subst h
  (repeat' split) <;> simp

theorem execVcnt_wf (u : Ctrl) (msk : Fin 8) (s : State) {post : State} (h : execVcnt u msk s = .next post) (hw : s.mem.wf = true) : post.mem.wf = true := by
  exact MemS.wf_of_bytes (execVcnt_bytes _ _ _ h) hw
theorem execClapperVld_bytes (u : Ctrl) (vd : Fin 64) (msk stream : Fin 8) (s : State) {post : State} (h : execClapperVld u vd msk stream s = .next post)  : post.mem.bytes = s.mem.bytes := by
  simp only [execClapperVld, Host.Outcome.next.injEq] at h
  subst h
  (repeat' split) <;> simp

theorem execClapperVld_wf (u : Ctrl) (vd : Fin 64) (msk stream : Fin 8) (s : State) {post : State} (h : execClapperVld u vd msk stream s = .next post) (hw : s.mem.wf = true) : post.mem.wf = true := by
  exact MemS.wf_of_bytes (execClapperVld_bytes _ _ _ _ _ h) hw
theorem execClapperVst_bytes (u : Ctrl) (vc : Fin 64) (msk stream : Fin 8) (rtz : Bool) (s : State) {post : State} (h : execClapperVst u vc msk stream rtz s = .next post)  : post.mem.bytes = s.mem.bytes := by
  simp only [execClapperVst, Host.Outcome.next.injEq] at h
  subst h
  (repeat' split) <;> simp

theorem execClapperVst_wf (u : Ctrl) (vc : Fin 64) (msk stream : Fin 8) (rtz : Bool) (s : State) {post : State} (h : execClapperVst u vc msk stream rtz s = .next post) (hw : s.mem.wf = true) : post.mem.wf = true := by
  exact MemS.wf_of_bytes (execClapperVst_bytes _ _ _ _ _ _ h) hw
theorem execClapperVbcast_bytes (u : Ctrl) (vd : Fin 64) (msk : Fin 8) (sa : Fin 24) (s : State) {post : State} (h : execClapperVbcast u vd msk sa s = .next post)  : post.mem.bytes = s.mem.bytes := by
  simp only [execClapperVbcast, Host.Outcome.next.injEq] at h
  subst h
  (repeat' split) <;> simp

theorem execClapperVbcast_wf (u : Ctrl) (vd : Fin 64) (msk : Fin 8) (sa : Fin 24) (s : State) {post : State} (h : execClapperVbcast u vd msk sa s = .next post) (hw : s.mem.wf = true) : post.mem.wf = true := by
  exact MemS.wf_of_bytes (execClapperVbcast_bytes _ _ _ _ _ h) hw
@[simp] theorem State.jobStatus_wf (s : State) (addr : Nat) (st : W32) (ext : Nat)  (hw : s.mem.wf = true) : (State.jobStatus s addr st ext).mem.wf = true := by
  simp only [State.jobStatus]
  (repeat' split) <;> simp +contextual (maxDischargeDepth := 9) [*]
@[simp] theorem State.jobAccept_wf (s : State)  (hw : s.mem.wf = true) : (State.jobAccept s).mem.wf = true := by
  simp only [State.jobAccept]
  (repeat' split) <;> simp +contextual (maxDischargeDepth := 9) [*]
theorem execJobAccept_wf (s : State) {post : State} (h : execJobAccept s = .next post) (hw : s.mem.wf = true) : post.mem.wf = true := by
  simp only [execJobAccept, Host.Outcome.next.injEq] at h
  subst h
  (repeat' split) <;> simp +contextual (maxDischargeDepth := 9) [*]
theorem execJobComplete_wf (k : JobSlot) (s : State) {post : State} (h : execJobComplete k s = .next post) (hw : s.mem.wf = true) : post.mem.wf = true := by
  simp only [execJobComplete] at h
  (repeat' split at h) <;> (simp only [Host.Outcome.next.injEq] at h; subst h; (repeat' split) <;> simp +contextual (maxDischargeDepth := 9) [*])
@[simp] theorem State.clapAnswered_wf (s : State) (u : Ctrl) (fail : Option W32)  (hw : s.mem.wf = true) : (State.clapAnswered s u fail).mem.wf = true := by
  simp only [State.clapAnswered]
  (repeat' split) <;> simp +contextual (maxDischargeDepth := 9) [*]

/-! ### Faults -/

@[simp] theorem State.answerFault_wf (s : State) (fid : Nat) (fail : Option W32)  (hw : s.mem.wf = true) : (State.answerFault s fid fail).mem.wf = true := by
  simp only [State.answerFault]
  (repeat' split) <;> simp +contextual (maxDischargeDepth := 9) [*]
@[simp] theorem State.faultAnswer_wf (s : State) (forward : Bool) (v : W64)  (hw : s.mem.wf = true) : (State.faultAnswer s forward v).mem.wf = true := by
  simp only [State.faultAnswer]
  (repeat' split) <;> simp +contextual (maxDischargeDepth := 9) [*]
theorem execFaultResp_wf (v : W64) (s : State) {post : State} (h : execFaultResp v s = .next post) (hw : s.mem.wf = true) : post.mem.wf = true := by
  simp only [execFaultResp, Host.Outcome.next.injEq] at h
  subst h
  (repeat' split) <;> simp +contextual (maxDischargeDepth := 9) [*]
@[simp] theorem execFaultResp_after_wf (v : W64) (s : State) (hw : s.mem.wf = true) : (s.after (execFaultResp v)).mem.wf = true := by
  unfold State.after
  split
  · exact execFaultResp_wf _ _ ‹_› hw
  · exact hw
  · exact hw
theorem execFqResp_wf (v : W64) (s : State) {post : State} (h : execFqResp v s = .next post) (hw : s.mem.wf = true) : post.mem.wf = true := by
  simp only [execFqResp, Host.Outcome.next.injEq] at h
  subst h
  (repeat' split) <;> simp +contextual (maxDischargeDepth := 9) [*]
@[simp] theorem execFqResp_after_wf (v : W64) (s : State) (hw : s.mem.wf = true) : (s.after (execFqResp v)).mem.wf = true := by
  unfold State.after
  split
  · exact execFqResp_wf _ _ ‹_› hw
  · exact hw
  · exact hw
@[simp] theorem State.loseForwarded_wf (s : State)  (hw : s.mem.wf = true) : (State.loseForwarded s).mem.wf = true := by
  simp only [State.loseForwarded]
  (repeat' split) <;> simp +contextual (maxDischargeDepth := 9) [*]

/-! ### Hoop -/

@[simp] theorem State.fence_wf (s : State) (l : LinkId) (cause : Nat)  (hw : s.mem.wf = true) : (State.fence s l cause).mem.wf = true := by
  simp only [State.fence]
  (repeat' split) <;> simp +contextual (maxDischargeDepth := 9) [*]
@[simp] theorem State.hoopRetrain_wf (s : State) (l : LinkId)  (hw : s.mem.wf = true) : (State.hoopRetrain s l).mem.wf = true := by
  simp only [State.hoopRetrain]
  (repeat' split) <;> simp +contextual (maxDischargeDepth := 9) [*]
@[simp] theorem State.hoopCrc_wf (s : State) (l : LinkId) (rev : Bool)  (hw : s.mem.wf = true) : (State.hoopCrc s l rev).mem.wf = true := by
  simp only [State.hoopCrc]
  (repeat' split) <;> simp +contextual (maxDischargeDepth := 9) [*]
@[simp] theorem State.hoopViolation_wf (s : State) (l : LinkId) (rev : Bool) (word : Nat)  (hw : s.mem.wf = true) : (State.hoopViolation s l rev word).mem.wf = true := by
  simp only [State.hoopViolation]
  (repeat' split) <;> simp +contextual (maxDischargeDepth := 9) [*]
theorem execRetrain_wf (l : LinkId) (s : State) {post : State} (h : execRetrain l s = .next post) (hw : s.mem.wf = true) : post.mem.wf = true := by
  simp only [execRetrain, Host.Outcome.next.injEq] at h
  subst h
  (repeat' split) <;> simp +contextual (maxDischargeDepth := 9) [*]
theorem execHoopPacket_wf (l : LinkId) (rev : Bool) (p : HoopPkt) (s : State) {post : State} (h : execHoopPacket l rev p s = .next post) (hw : s.mem.wf = true) : post.mem.wf = true := by
  simp only [execHoopPacket, Host.Outcome.next.injEq] at h
  subst h
  (repeat' split) <;> simp +contextual (maxDischargeDepth := 9) [*]
@[simp] theorem State.hoopReplay_wf (s : State) (l : LinkId) (cls : Nat) (rev : Bool) (seq : BitVec 12)  (hw : s.mem.wf = true) : (State.hoopReplay s l cls rev seq).mem.wf = true := by
  simp only [State.hoopReplay]
  (repeat' split) <;> simp +contextual (maxDischargeDepth := 9) [*]
theorem execLinkControl_wf (l : LinkId) (rev : Bool) (p : HoopCtl) (s : State) {post : State} (h : execLinkControl l rev p s = .next post) (hw : s.mem.wf = true) : post.mem.wf = true := by
  simp only [execLinkControl, Host.Outcome.next.injEq] at h
  subst h
  (repeat' split) <;> simp +contextual (maxDischargeDepth := 9) [*]
@[simp] theorem State.maskDisagree_wf (s : State) (l : LinkId)  (hw : s.mem.wf = true) : (State.maskDisagree s l).mem.wf = true := by
  simp only [State.maskDisagree]
  (repeat' split) <;> simp +contextual (maxDischargeDepth := 9) [*]
@[simp] theorem State.linkTrained_wf (s : State) (l : LinkId) (attempts : Nat) (mask : BitVec 512)  (hw : s.mem.wf = true) : (State.linkTrained s l attempts mask).mem.wf = true := by
  simp only [State.linkTrained]
  (repeat' split) <;> simp +contextual (maxDischargeDepth := 9) [*]
@[simp] theorem State.training_wf (s : State) (l : LinkId) (f : TrainFindings)  (hw : s.mem.wf = true) : (State.training s l f).mem.wf = true := by
  simp only [State.training]
  (repeat' split) <;> simp +contextual (maxDischargeDepth := 9) [*]
theorem execTrainingComplete_wf (l : LinkId) (f : TrainFindings) (s : State) {post : State} (h : execTrainingComplete l f s = .next post) (hw : s.mem.wf = true) : post.mem.wf = true := by
  simp only [execTrainingComplete, Host.Outcome.next.injEq] at h
  subst h
  (repeat' split) <;> simp +contextual (maxDischargeDepth := 9) [*]
@[simp] theorem State.writeLinkCtrl_wf (s : State) (l : LinkId) (v : W32)  (hw : s.mem.wf = true) : (State.writeLinkCtrl s l v).mem.wf = true := by
  simp only [State.writeLinkCtrl]
  (repeat' split) <;> simp +contextual (maxDischargeDepth := 9) [*]

/-! ### Cxl -/

theorem execForwardQueuePost_wf (i : Nat) (s : State) {post : State} (h : execForwardQueuePost i s = .next post) (hw : s.mem.wf = true) : post.mem.wf = true := by
  simp only [execForwardQueuePost] at h
  (repeat' split at h) <;> (simp only [Host.Outcome.next.injEq] at h; subst h; (repeat' split) <;> simp +contextual (maxDischargeDepth := 9) [*])
theorem execCxlMemRead_bytes (addr len : Nat) (s : State) {post : State} (h : execCxlMemRead addr len s = .next post)  : post.mem.bytes = s.mem.bytes := by
  simp only [execCxlMemRead, Host.Outcome.next.injEq] at h
  subst h
  (repeat' split) <;> simp

theorem execCxlMemRead_wf (addr len : Nat) (s : State) {post : State} (h : execCxlMemRead addr len s = .next post) (hw : s.mem.wf = true) : post.mem.wf = true := by
  exact MemS.wf_of_bytes (execCxlMemRead_bytes _ _ _ h) hw
theorem execCxlMemWrite_wf (addr : Nat) (bytes : List Byte) (s : State) {post : State} (h : execCxlMemWrite addr bytes s = .next post) (hw : s.mem.wf = true) : post.mem.wf = true := by
  simp only [execCxlMemWrite, Host.Outcome.next.injEq] at h
  subst h
  (repeat' split) <;> simp +contextual (maxDischargeDepth := 9) [*]
theorem execHostSnoop_wf (kind : SnoopKind) (addr : Nat) (s : State) {post : State} (h : execHostSnoop kind addr s = .next post) (hw : s.mem.wf = true) : post.mem.wf = true := by
  simp only [execHostSnoop, Host.Outcome.next.injEq] at h
  subst h
  (repeat' split) <;> simp +contextual (maxDischargeDepth := 9) [*]
theorem execApertureWrite_wf (off : Nat) (bytes : List Byte) (requester : W16) (s : State) {post : State} (h : execApertureWrite off bytes requester s = .next post) (hw : s.mem.wf = true) : post.mem.wf = true := by
  simp only [execApertureWrite, Host.Outcome.next.injEq] at h
  subst h
  (repeat' split) <;> simp +contextual (maxDischargeDepth := 9) [*]
theorem execApertureRead_bytes (off len : Nat) (requester : W16) (s : State) {post : State} (h : execApertureRead off len requester s = .next post)  : post.mem.bytes = s.mem.bytes := by
  simp only [execApertureRead, Host.Outcome.next.injEq] at h
  subst h
  (repeat' split) <;> simp

theorem execApertureRead_wf (off len : Nat) (requester : W16) (s : State) {post : State} (h : execApertureRead off len requester s = .next post) (hw : s.mem.wf = true) : post.mem.wf = true := by
  exact MemS.wf_of_bytes (execApertureRead_bytes _ _ _ _ h) hw
@[simp] theorem State.resumePeals_wf (s : State)  (hw : s.mem.wf = true) : (State.resumePeals s).mem.wf = true := by
  simp only [State.resumePeals]
  (repeat' split) <;> simp +contextual (maxDischargeDepth := 9) [*]
theorem execLinkReturnToL0_wf (rate : LinkRate) (s : State) {post : State} (h : execLinkReturnToL0 rate s = .next post) (hw : s.mem.wf = true) : post.mem.wf = true := by
  simp only [execLinkReturnToL0, Host.Outcome.next.injEq] at h
  subst h
  (repeat' split) <;> simp +contextual (maxDischargeDepth := 9) [*]
@[simp] theorem State.loseHost_wf (s : State) (cause : LossCause)  (hw : s.mem.wf = true) : (State.loseHost s cause).mem.wf = true := by
  simp only [State.loseHost]
  (repeat' split) <;> simp +contextual (maxDischargeDepth := 9) [*]
theorem execHostLoss_wf (cause : LossCause) (s : State) {post : State} (h : execHostLoss cause s = .next post) (hw : s.mem.wf = true) : post.mem.wf = true := by
  simp only [execHostLoss, Host.Outcome.next.injEq] at h
  subst h
  (repeat' split) <;> simp +contextual (maxDischargeDepth := 9) [*]
theorem execIdeKm_wf (activate : Bool) (key : List Byte) (integrityFault : Bool) (s : State) {post : State} (h : execIdeKm activate key integrityFault s = .next post) (hw : s.mem.wf = true) : post.mem.wf = true := by
  simp only [execIdeKm, Host.Outcome.next.injEq] at h
  subst h
  (repeat' split) <;> simp +contextual (maxDischargeDepth := 9) [*]

/-! ### Stream -/

@[simp] theorem State.readSlot_bytes (s : State) (k : StreamId) (j : Nat)   : (State.readSlot s k j).1.mem.bytes = s.mem.bytes := by
  simp only [State.readSlot]
  (repeat' split) <;> simp

@[simp] theorem State.readSlot_wf (s : State) (k : StreamId) (j : Nat)  (hw : s.mem.wf = true) : (State.readSlot s k j).1.mem.wf = true := by
  exact MemS.wf_of_bytes (State.readSlot_bytes _ _ _ ) hw
@[simp] theorem State.slotReady_bytes (s : State) (k : StreamId) (j : Nat)   : (State.slotReady s k j).1.mem.bytes = s.mem.bytes := by
  simp only [State.slotReady]
  (repeat' split) <;> simp

@[simp] theorem State.slotReady_wf (s : State) (k : StreamId) (j : Nat)  (hw : s.mem.wf = true) : (State.slotReady s k j).1.mem.wf = true := by
  exact MemS.wf_of_bytes (State.slotReady_bytes _ _ _ ) hw
@[simp] theorem State.notReady_bytes (s : State) (k : StreamId) (js : List Nat)   : (State.notReady s k js).1.mem.bytes = s.mem.bytes := by
  simp only [State.notReady]
  (repeat' split) <;> simp

@[simp] theorem State.notReady_wf (s : State) (k : StreamId) (js : List Nat)  (hw : s.mem.wf = true) : (State.notReady s k js).1.mem.wf = true := by
  exact MemS.wf_of_bytes (State.notReady_bytes _ _ _ ) hw
@[simp] theorem State.streamWidth_bytes (s : State) (k : StreamId)   : (State.streamWidth s k).1.mem.bytes = s.mem.bytes := by
  simp only [State.streamWidth]
  (repeat' split) <;> simp

@[simp] theorem State.streamWidth_wf (s : State) (k : StreamId)  (hw : s.mem.wf = true) : (State.streamWidth s k).1.mem.wf = true := by
  exact MemS.wf_of_bytes (State.streamWidth_bytes _ _ ) hw
@[simp] theorem State.readyRun_bytes (s : State) (k : StreamId) (j fuel : Nat)   : (State.readyRun s k j fuel).1.mem.bytes = s.mem.bytes := by
  induction fuel generalizing s j with
  | zero => simp only [State.readyRun] <;> (repeat' split) <;> simp
  | succ n ih =>
    simp only [State.readyRun]
    (repeat' split) <;> simp [ih]

@[simp] theorem State.readyRun_wf (s : State) (k : StreamId) (j fuel : Nat)  (hw : s.mem.wf = true) : (State.readyRun s k j fuel).1.mem.wf = true := by
  exact MemS.wf_of_bytes (State.readyRun_bytes _ _ _ _ ) hw
@[simp] theorem State.chainData_bytes (s : State) (k : StreamId) (n : Nat)   : (State.chainData s k n).1.mem.bytes = s.mem.bytes := by
  simp only [State.chainData]
  (repeat' split) <;> simp

@[simp] theorem State.chainData_wf (s : State) (k : StreamId) (n : Nat)  (hw : s.mem.wf = true) : (State.chainData s k n).1.mem.wf = true := by
  exact MemS.wf_of_bytes (State.chainData_bytes _ _ _ ) hw
@[simp] theorem State.takeHead_bytes (s : State) (k : StreamId) (bs : List Byte)   : (State.takeHead s k bs).mem.bytes = s.mem.bytes := by
  simp only [State.takeHead]
  (repeat' split) <;> simp

@[simp] theorem State.takeHead_wf (s : State) (k : StreamId) (bs : List Byte)  (hw : s.mem.wf = true) : (State.takeHead s k bs).mem.wf = true := by
  exact MemS.wf_of_bytes (State.takeHead_bytes _ _ _ ) hw
@[simp] theorem State.proceed_bytes (s : State) (k : StreamId)   : (State.proceed s k).mem.bytes = s.mem.bytes := by
  simp only [State.proceed]
  (repeat' split) <;> simp

@[simp] theorem State.proceed_wf (s : State) (k : StreamId)  (hw : s.mem.wf = true) : (State.proceed s k).mem.wf = true := by
  exact MemS.wf_of_bytes (State.proceed_bytes _ _ ) hw
theorem execSlotRead_bytes (k : StreamId) (s : State) {post : State} (h : execSlotRead k s = .next post)  : post.mem.bytes = s.mem.bytes := by
  simp only [execSlotRead, Host.Outcome.next.injEq] at h
  subst h
  (repeat' split) <;> simp

theorem execSlotRead_wf (k : StreamId) (s : State) {post : State} (h : execSlotRead k s = .next post) (hw : s.mem.wf = true) : post.mem.wf = true := by
  exact MemS.wf_of_bytes (execSlotRead_bytes _ _ h) hw
theorem execSlotReread_bytes (k : StreamId) (s : State) {post : State} (h : execSlotReread k s = .next post)  : post.mem.bytes = s.mem.bytes := by
  simp only [execSlotReread, Host.Outcome.next.injEq] at h
  subst h
  (repeat' split) <;> simp

theorem execSlotReread_wf (k : StreamId) (s : State) {post : State} (h : execSlotReread k s = .next post) (hw : s.mem.wf = true) : post.mem.wf = true := by
  exact MemS.wf_of_bytes (execSlotReread_bytes _ _ h) hw
@[simp] theorem State.inlineWrite_wf (s : State) (k : StreamId) (i op : Nat) (data : StreamCmd → List Byte)  (hw : s.mem.wf = true) : (State.inlineWrite s k i op data).mem.wf = true := by
  simp only [State.inlineWrite]
  (repeat' split) <;> simp +contextual (maxDischargeDepth := 9) [*]
theorem execStreamInline_wf (k : StreamId) (i : Nat) (s : State) {post : State} (h : execStreamInline k i s = .next post) (hw : s.mem.wf = true) : post.mem.wf = true := by
  simp only [execStreamInline, Host.Outcome.next.injEq] at h
  subst h
  (repeat' split) <;> simp +contextual (maxDischargeDepth := 9) [*]
theorem execInlineChain_wf (k : StreamId) (i : Nat) (s : State) {post : State} (h : execInlineChain k i s = .next post) (hw : s.mem.wf = true) : post.mem.wf = true := by
  simp only [execInlineChain, Host.Outcome.next.injEq] at h
  subst h
  (repeat' split) <;> simp +contextual (maxDischargeDepth := 9) [*]
@[simp] theorem State.copyStart_bytes (s : State) (k : StreamId) (i : Nat) (c : StreamCmd)   : (State.copyStart s k i c).mem.bytes = s.mem.bytes := by
  simp only [State.copyStart]
  (repeat' split) <;> simp

@[simp] theorem State.copyStart_wf (s : State) (k : StreamId) (i : Nat) (c : StreamCmd)  (hw : s.mem.wf = true) : (State.copyStart s k i c).mem.wf = true := by
  exact MemS.wf_of_bytes (State.copyStart_bytes _ _ _ _ ) hw
@[simp] theorem State.copySpoil_wf (s : State) (c : StreamCmd)  (hw : s.mem.wf = true) : (State.copySpoil s c).mem.wf = true := by
  simp only [State.copySpoil]
  (repeat' split) <;> simp +contextual (maxDischargeDepth := 9) [*]
@[simp] theorem State.copyMove_wf (s : State) (k : StreamId) (i : Nat) (c : StreamCmd)  (hw : s.mem.wf = true) : (State.copyMove s k i c).mem.wf = true := by
  simp only [State.copyMove]
  (repeat' split) <;> simp +contextual (maxDischargeDepth := 9) [*]
theorem execStreamCopy_wf (k : StreamId) (i : Nat) (s : State) {post : State} (h : execStreamCopy k i s = .next post) (hw : s.mem.wf = true) : post.mem.wf = true := by
  simp only [execStreamCopy, Host.Outcome.next.injEq] at h
  subst h
  (repeat' split) <;> simp +contextual (maxDischargeDepth := 9) [*]
theorem execStreamLaunch_wf (k : StreamId) (i : Nat) (prefTiles : List TileId) (prefBells : List BellId) (s : State) {post : State} (h : execStreamLaunch k i prefTiles prefBells s = .next post) (hw : s.mem.wf = true) : post.mem.wf = true := by
  simp only [execStreamLaunch, Host.Outcome.next.injEq] at h
  subst h
  (repeat' split) <;> simp +contextual (maxDischargeDepth := 9) [*]
@[simp] theorem State.writeEntry_wf (s : State) (k : StreamId) (i : Nat) (c : StreamCmd) (e : W32 × W32)  (hw : s.mem.wf = true) : (State.writeEntry s k i c e).mem.wf = true := by
  simp only [State.writeEntry]
  (repeat' split) <;> simp +contextual (maxDischargeDepth := 9) [*]
theorem execCompletionEntry_wf (k : StreamId) (i : Nat) (s : State) {post : State} (h : execCompletionEntry k i s = .next post) (hw : s.mem.wf = true) : post.mem.wf = true := by
  simp only [execCompletionEntry, Host.Outcome.next.injEq] at h
  subst h
  (repeat' split) <;> simp +contextual (maxDischargeDepth := 9) [*]

/-! ### Kettle -/

@[simp] theorem State.railsOff_wf (s : State)  (hw : s.mem.wf = true) : (State.railsOff s).mem.wf = true := by
  simp only [State.railsOff]
  (repeat' split) <;> simp +contextual (maxDischargeDepth := 9) [*]
@[simp] theorem State.powerLost_wf (s : State)  (hw : s.mem.wf = true) : (State.powerLost s).mem.wf = true := by
  simp only [State.powerLost]
  (repeat' split) <;> simp +contextual (maxDischargeDepth := 9) [*]
@[simp] theorem State.thermalTrip_wf (s : State) (sensor : Nat) (reading : Int)  (hw : s.mem.wf = true) : (State.thermalTrip s sensor reading).mem.wf = true := by
  simp only [State.thermalTrip]
  (repeat' split) <;> simp +contextual (maxDischargeDepth := 9) [*]
@[simp] theorem State.hotStack_bytes (s : State) (p : Ctrl × Int)   : (State.hotStack s p).mem.bytes = s.mem.bytes := by
  simp only [State.hotStack]
  (repeat' split) <;> simp

@[simp] theorem State.hotStack_wf (s : State) (p : Ctrl × Int)  (hw : s.mem.wf = true) : (State.hotStack s p).mem.wf = true := by
  exact MemS.wf_of_bytes (State.hotStack_bytes _ _ ) hw
@[simp] theorem State.kettleCycle_wf (s : State) (r : KettleIn)  (hw : s.mem.wf = true) : (State.kettleCycle s r).mem.wf = true := by
  simp only [State.kettleCycle]
  (repeat' split) <;> simp +contextual (maxDischargeDepth := 9) [*]
theorem execKettleCycle_wf (r : KettleIn) (s : State) {post : State} (h : execKettleCycle r s = .next post) (hw : s.mem.wf = true) : post.mem.wf = true := by
  simp only [execKettleCycle, Host.Outcome.next.injEq] at h
  subst h
  (repeat' split) <;> simp +contextual (maxDischargeDepth := 9) [*]
theorem execInputReport_wf (volt10mV : Nat) (watts : Nat) (s : State) {post : State} (h : execInputReport volt10mV watts s = .next post) (hw : s.mem.wf = true) : post.mem.wf = true := by
  simp only [execInputReport, Host.Outcome.next.injEq] at h
  subst h
  (repeat' split) <;> simp +contextual (maxDischargeDepth := 9) [*]

/-! ### Service -/

@[simp] theorem State.coldClear_wf (s : State)  (hw : s.mem.wf = true) : (State.coldClear s).mem.wf = true := by
  simp only [State.coldClear]
  (repeat' split) <;> simp +contextual (maxDischargeDepth := 9) [*]
@[simp] theorem State.coldReset_wf (s : State)  (hw : s.mem.wf = true) : (State.coldReset s).mem.wf = true := by
  simp only [State.coldReset]
  (repeat' split) <;> simp +contextual (maxDischargeDepth := 9) [*]
theorem execEnBreak_wf (micros : Nat) (s : State) {post : State} (h : execEnBreak micros s = .next post) (hw : s.mem.wf = true) : post.mem.wf = true := by
  simp only [execEnBreak, Host.Outcome.next.injEq] at h
  subst h
  (repeat' split) <;> simp +contextual (maxDischargeDepth := 9) [*]
theorem execResetN_wf (low : Bool) (micros : Nat) (s : State) {post : State} (h : execResetN low micros s = .next post) (hw : s.mem.wf = true) : post.mem.wf = true := by
  simp only [execResetN, Host.Outcome.next.injEq] at h
  subst h
  (repeat' split) <;> simp +contextual (maxDischargeDepth := 9) [*]
@[simp] theorem State.verifyRuntime_wf (s : State)  (hw : s.mem.wf = true) : (State.verifyRuntime s).mem.wf = true := by
  simp only [State.verifyRuntime]
  (repeat' split) <;> simp +contextual (maxDischargeDepth := 9) [*]
theorem execStackInitComplete_wf (c : Ctrl) (passed : Bool) (s : State) {post : State} (h : execStackInitComplete c passed s = .next post) (hw : s.mem.wf = true) : post.mem.wf = true := by
  simp only [execStackInitComplete, Host.Outcome.next.injEq] at h
  subst h
  (repeat' split) <;> simp +contextual (maxDischargeDepth := 9) [*]
@[simp] theorem State.retireGroup_wf (s : State) (l : LinkId) (g : Nat)  (hw : s.mem.wf = true) : (State.retireGroup s l g).mem.wf = true := by
  simp only [State.retireGroup]
  (repeat' split) <;> simp +contextual (maxDischargeDepth := 9) [*]
@[simp] theorem State.takeOut_wf (s : State) (u : ServiceUnit) (force : Bool)  (hw : s.mem.wf = true) : (State.takeOut s u force).mem.wf = true := by
  simp only [State.takeOut]
  (repeat' split) <;> simp +contextual (maxDischargeDepth := 9) [*]
@[simp] theorem State.flushCore_wf (s : State) (c : CoreId)  (hw : s.mem.wf = true) : (State.flushCore s c).mem.wf = true := by
  simp only [State.flushCore]
  refine foldl_inv (fun x : State => x.mem.wf = true) _ ?_ _ _ (by simp [*])
  intro s x h
  (repeat' split) <;> simp +contextual (maxDischargeDepth := 9) [*]
@[simp] theorem State.putOut_wf (s : State) (u : ServiceUnit)  (hw : s.mem.wf = true) : (State.putOut s u).mem.wf = true := by
  simp only [State.putOut]
  (repeat' split) <;> simp +contextual (maxDischargeDepth := 9) [*]
@[simp] theorem State.resetUnit_wf (s : State) (u : ServiceUnit)  (hw : s.mem.wf = true) : (State.resetUnit s u).mem.wf = true := by
  simp only [State.resetUnit]
  (repeat' split) <;> simp +contextual (maxDischargeDepth := 9) [*]
@[simp] theorem State.rejoin_bytes (s : State) (u : ServiceUnit)   : (State.rejoin s u).mem.bytes = s.mem.bytes := by
  simp only [State.rejoin]
  (repeat' split) <;> simp

@[simp] theorem State.rejoin_wf (s : State) (u : ServiceUnit)  (hw : s.mem.wf = true) : (State.rejoin s u).mem.wf = true := by
  exact MemS.wf_of_bytes (State.rejoin_bytes _ _ ) hw
@[simp] theorem State.stayOut_bytes (s : State) (u : ServiceUnit)   : (State.stayOut s u).mem.bytes = s.mem.bytes := by
  simp only [State.stayOut]
  (repeat' split) <;> simp

@[simp] theorem State.stayOut_wf (s : State) (u : ServiceUnit)  (hw : s.mem.wf = true) : (State.stayOut s u).mem.wf = true := by
  exact MemS.wf_of_bytes (State.stayOut_bytes _ _ ) hw
@[simp] theorem State.actTakeOut_wf (s : State) (u : ServiceUnit) (force : Bool)  (hw : s.mem.wf = true) : (State.actTakeOut s u force).mem.wf = true := by
  simp only [State.actTakeOut]
  (repeat' split) <;> simp +contextual (maxDischargeDepth := 9) [*]
@[simp] theorem State.actReturn_wf (s : State) (u : ServiceUnit)  (hw : s.mem.wf = true) : (State.actReturn s u).mem.wf = true := by
  simp only [State.actReturn]
  (repeat' split) <;> simp +contextual (maxDischargeDepth := 9) [*]
@[simp] theorem State.dieLeaves_wf (s : State) (d : Nat)  (hw : s.mem.wf = true) : (State.dieLeaves s d).mem.wf = true := by
  simp only [State.dieLeaves]
  (repeat' split) <;> simp +contextual (maxDischargeDepth := 9) [*]
@[simp] theorem State.dieClears_wf (s : State) (d : Nat)  (hw : s.mem.wf = true) : (State.dieClears s d).mem.wf = true := by
  simp only [State.dieClears]
  (repeat' split) <;> simp +contextual (maxDischargeDepth := 9) [*]
@[simp] theorem State.actDieReset_wf (s : State) (d : Nat)  (hw : s.mem.wf = true) : (State.actDieReset s d).mem.wf = true := by
  simp only [State.actDieReset]
  (repeat' split) <;> simp +contextual (maxDischargeDepth := 9) [*]
@[simp] theorem State.actionRuns_wf (s : State) (w : W64)  (hw : s.mem.wf = true) : (State.actionRuns s w).mem.wf = true := by
  simp only [State.actionRuns]
  (repeat' split) <;> simp +contextual (maxDischargeDepth := 9) [*]
@[simp] theorem State.actionStarts_wf (s : State) (w : W64)  (hw : s.mem.wf = true) : (State.actionStarts s w).mem.wf = true := by
  simp only [State.actionStarts]
  (repeat' split) <;> simp +contextual (maxDischargeDepth := 9) [*]
@[simp] theorem State.writeAction_wf (s : State) (who : Principal) (w : W64)  (hw : s.mem.wf = true) : (State.writeAction s who w).mem.wf = true := by
  simp only [State.writeAction]
  (repeat' split) <;> simp +contextual (maxDischargeDepth := 9) [*]
theorem execActNone_wf (who : Principal) (s : State) {post : State} (h : execActNone who s = .next post) (hw : s.mem.wf = true) : post.mem.wf = true := by
  simp only [execActNone, Host.Outcome.next.injEq] at h
  subst h
  (repeat' split) <;> simp +contextual (maxDischargeDepth := 9) [*]
theorem execColdReset_wf (who : Principal) (s : State) {post : State} (h : execColdReset who s = .next post) (hw : s.mem.wf = true) : post.mem.wf = true := by
  simp only [execColdReset, Host.Outcome.next.injEq] at h
  subst h
  (repeat' split) <;> simp +contextual (maxDischargeDepth := 9) [*]
theorem execBringupDone_wf (who : Principal) (s : State) {post : State} (h : execBringupDone who s = .next post) (hw : s.mem.wf = true) : post.mem.wf = true := by
  simp only [execBringupDone, Host.Outcome.next.injEq] at h
  subst h
  (repeat' split) <;> simp +contextual (maxDischargeDepth := 9) [*]
theorem execTakeOut_wf (who : Principal) (u : ServiceUnit) (force : Bool) (s : State) {post : State} (h : execTakeOut who u force s = .next post) (hw : s.mem.wf = true) : post.mem.wf = true := by
  simp only [execTakeOut, Host.Outcome.next.injEq] at h
  subst h
  (repeat' split) <;> simp +contextual (maxDischargeDepth := 9) [*]
theorem execBringBack_wf (who : Principal) (u : ServiceUnit) (s : State) {post : State} (h : execBringBack who u s = .next post) (hw : s.mem.wf = true) : post.mem.wf = true := by
  simp only [execBringBack, Host.Outcome.next.injEq] at h
  subst h
  (repeat' split) <;> simp +contextual (maxDischargeDepth := 9) [*]
theorem execRetest_wf (who : Principal) (t : TileId) (s : State) {post : State} (h : execRetest who t s = .next post) (hw : s.mem.wf = true) : post.mem.wf = true := by
  simp only [execRetest, Host.Outcome.next.injEq] at h
  subst h
  (repeat' split) <;> simp +contextual (maxDischargeDepth := 9) [*]
theorem execDieReset_wf (who : Principal) (die : ADie) (s : State) {post : State} (h : execDieReset who die s = .next post) (hw : s.mem.wf = true) : post.mem.wf = true := by
  simp only [execDieReset, Host.Outcome.next.injEq] at h
  subst h
  (repeat' split) <;> simp +contextual (maxDischargeDepth := 9) [*]
theorem execWriteSlot_wf (who : Principal) (slot : Fin 6) (chunk : BitVec 12) (len16 : W16) (s : State) {post : State} (h : execWriteSlot who slot chunk len16 s = .next post) (hw : s.mem.wf = true) : post.mem.wf = true := by
  simp only [execWriteSlot, Host.Outcome.next.injEq] at h
  subst h
  (repeat' split) <;> simp +contextual (maxDischargeDepth := 9) [*]
theorem execDebugOpen_wf (who : Principal) (set : BitVec 3) (s : State) {post : State} (h : execDebugOpen who set s = .next post) (hw : s.mem.wf = true) : post.mem.wf = true := by
  simp only [execDebugOpen, Host.Outcome.next.injEq] at h
  subst h
  (repeat' split) <;> simp +contextual (maxDischargeDepth := 9) [*]
theorem execDebugClose_wf (who : Principal) (s : State) {post : State} (h : execDebugClose who s = .next post) (hw : s.mem.wf = true) : post.mem.wf = true := by
  simp only [execDebugClose, Host.Outcome.next.injEq] at h
  subst h
  (repeat' split) <;> simp +contextual (maxDischargeDepth := 9) [*]
theorem execUnitOutOfService_wf (u : ServiceUnit) (s : State) {post : State} (h : execUnitOutOfService u s = .next post) (hw : s.mem.wf = true) : post.mem.wf = true := by
  simp only [execUnitOutOfService, Host.Outcome.next.injEq] at h
  subst h
  (repeat' split) <;> simp +contextual (maxDischargeDepth := 9) [*]
@[simp] theorem State.reintegrated_bytes (s : State) (u : ServiceUnit)   : (State.reintegrated s u).mem.bytes = s.mem.bytes := by
  simp only [State.reintegrated]
  (repeat' split) <;> simp

@[simp] theorem State.reintegrated_wf (s : State) (u : ServiceUnit)  (hw : s.mem.wf = true) : (State.reintegrated s u).mem.wf = true := by
  exact MemS.wf_of_bytes (State.reintegrated_bytes _ _ ) hw
theorem execReintegration_bytes (u : ServiceUnit) (passed : Bool) (s : State) {post : State} (h : execReintegration u passed s = .next post)  : post.mem.bytes = s.mem.bytes := by
  simp only [execReintegration, Host.Outcome.next.injEq] at h
  subst h
  (repeat' split) <;> simp

theorem execReintegration_wf (u : ServiceUnit) (passed : Bool) (s : State) {post : State} (h : execReintegration u passed s = .next post) (hw : s.mem.wf = true) : post.mem.wf = true := by
  exact MemS.wf_of_bytes (execReintegration_bytes _ _ _ h) hw
theorem execRomEnd_wf (s : State) {post : State} (h : execRomEnd s = .next post) (hw : s.mem.wf = true) : post.mem.wf = true := by
  simp only [execRomEnd, Host.Outcome.next.injEq] at h
  subst h
  (repeat' split) <;> simp +contextual (maxDischargeDepth := 9) [*]
theorem execLatchOpened_wf (bay : Fin 2) (s : State) {post : State} (h : execLatchOpened bay s = .next post) (hw : s.mem.wf = true) : post.mem.wf = true := by
  simp only [execLatchOpened, Host.Outcome.next.injEq] at h
  subst h
  (repeat' split) <;> simp +contextual (maxDischargeDepth := 9) [*]

/-! ### Custody -/

@[simp] theorem State.sealPorts_wf (s : State)  (hw : s.mem.wf = true) : (State.sealPorts s).mem.wf = true := by
  simp only [State.sealPorts]
  refine foldl_inv (fun x : State => x.mem.wf = true) _ ?_ _ _ (by simp [*])
  intro s x h
  (repeat' split) <;> simp +contextual (maxDischargeDepth := 9) [*]
@[simp] theorem State.sealBegins_wf (s : State)  (hw : s.mem.wf = true) : (State.sealBegins s).mem.wf = true := by
  simp only [State.sealBegins]
  (repeat' split) <;> simp +contextual (maxDischargeDepth := 9) [*]
theorem execEndSession_wf (p : SpdmPath) (s : State) {post : State} (h : execEndSession p s = .next post) (hw : s.mem.wf = true) : post.mem.wf = true := by
  simp only [execEndSession, State.spdmAt] at h
  (repeat' split at h) <;> (simp only [Host.Outcome.next.injEq] at h; subst h; (repeat' split) <;> simp +contextual (maxDischargeDepth := 9) [*])

/-! ### Dict -/

@[simp] theorem State.takesEffect_wf (s : State) (write : Bool) (items : List Item)  (hw : s.mem.wf = true) : (State.takesEffect s write items).mem.wf = true := by
  simp only [State.takesEffect]
  (repeat' split) <;> simp +contextual (maxDischargeDepth := 9) [*]
@[simp] theorem State.frame_wf (s : State) (p : Path) (f : Pdu) (op : Nat) (act : Option SessionS → List Byte → State) (hw : s.mem.wf = true)
    (hd : ∀ x y, (act x y).mem.wf = true) : (State.frame s p f op act).mem.wf = true := by
  simp only [State.frame]
  (repeat' split) <;> simp [*]
@[simp] theorem State.dictCommit_wf (s : State) (p : Path) (f : Pdu) (ses : Option SessionS) (key : List Byte) (logged : Bool) (check : Item → Nat)
    (apply : State → Item → State) (hw : s.mem.wf = true) (hd : ∀ t i, t.mem.wf = true → (apply t i).mem.wf = true) :
    (State.dictCommit s p f ses key logged check apply).mem.wf = true := by
  simp only [State.dictCommit]
  split
  · simp [hw]
  · split
    · simp [hw]
    · apply State.takesEffect_wf
      simp only [State.finish_frame]
      exact foldl_inv (fun x : State => x.mem.wf = true) apply hd _ _ hw
@[simp] theorem State.dictWrite_wf (s : State) (p : Path) (f : Pdu) (hw : s.mem.wf = true) : (State.dictWrite s p f).mem.wf = true := by
  simp only [State.dictWrite]
  refine State.frame_wf _ _ _ _ _ hw fun x y => ?_
  refine State.dictCommit_wf _ _ _ _ _ _ _ _ hw fun t i ht => ?_
  simp +contextual (maxDischargeDepth := 9) [*]
@[simp] theorem State.dictFreeze_wf (s : State) (p : Path) (f : Pdu) (hw : s.mem.wf = true) : (State.dictFreeze s p f).mem.wf = true := by
  simp only [State.dictFreeze]
  refine State.frame_wf _ _ _ _ _ hw fun x y => ?_
  refine State.dictCommit_wf _ _ _ _ _ _ _ _ hw fun t i ht => ?_
  simp +contextual (maxDischargeDepth := 9) [*]
@[simp] theorem State.dictRelease_wf (s : State) (p : Path) (f : Pdu) (hw : s.mem.wf = true) : (State.dictRelease s p f).mem.wf = true := by
  simp only [State.dictRelease]
  refine State.frame_wf _ _ _ _ _ hw fun x y => ?_
  refine State.dictCommit_wf _ _ _ _ _ _ _ _ hw fun t i ht => ?_
  simp +contextual (maxDischargeDepth := 9) [*]
theorem execDictWrite_wf (p : Path) (f : Pdu) (s : State) {post : State} (h : execDictWrite p f s = .next post) (hw : s.mem.wf = true) : post.mem.wf = true := by
  simp only [execDictWrite, Host.Outcome.next.injEq] at h
  subst h
  (repeat' split) <;> simp +contextual (maxDischargeDepth := 9) [*]
theorem execDictFreeze_wf (p : Path) (f : Pdu) (s : State) {post : State} (h : execDictFreeze p f s = .next post) (hw : s.mem.wf = true) : post.mem.wf = true := by
  simp only [execDictFreeze, Host.Outcome.next.injEq] at h
  subst h
  (repeat' split) <;> simp +contextual (maxDischargeDepth := 9) [*]
theorem execDictRelease_wf (p : Path) (f : Pdu) (s : State) {post : State} (h : execDictRelease p f s = .next post) (hw : s.mem.wf = true) : post.mem.wf = true := by
  simp only [execDictRelease, Host.Outcome.next.injEq] at h
  subst h
  (repeat' split) <;> simp +contextual (maxDischargeDepth := 9) [*]
theorem execMydarRequest_wf (f : Pdu) (s : State) {post : State} (h : execMydarRequest f s = .next post) (hw : s.mem.wf = true) : post.mem.wf = true := by
  simp only [execMydarRequest, Host.Outcome.next.injEq] at h
  subst h
  (repeat' split) <;> simp +contextual (maxDischargeDepth := 9) [*]

/-! ### Regs -/

@[simp] theorem State.putCtrlReg_bytes (s : State) (c o v : Nat)   : (State.putCtrlReg s c o v).mem.bytes = s.mem.bytes := by
  simp only [State.putCtrlReg]
  (repeat' split) <;> simp

@[simp] theorem State.putCtrlReg_wf (s : State) (c o v : Nat)  (hw : s.mem.wf = true) : (State.putCtrlReg s c o v).mem.wf = true := by
  exact MemS.wf_of_bytes (State.putCtrlReg_bytes _ _ _ _ ) hw
@[simp] theorem State.putA_bytes (s : State) (who : Option CoreId) (d o v : Nat)   : (State.putA s who d o v).mem.bytes = s.mem.bytes := by
  simp only [State.putA]
  (repeat' split) <;> simp

@[simp] theorem State.putA_wf (s : State) (who : Option CoreId) (d o v : Nat)  (hw : s.mem.wf = true) : (State.putA s who d o v).mem.wf = true := by
  exact MemS.wf_of_bytes (State.putA_bytes _ _ _ _ _ ) hw
@[simp] theorem State.putMemReg_wf (s : State) (o v : Nat)  (hw : s.mem.wf = true) : (State.putMemReg s o v).mem.wf = true := by
  simp only [State.putMemReg]
  (repeat' split) <;> simp +contextual (maxDischargeDepth := 9) [*]
@[simp] theorem State.putXlatReg_wf (s : State) (o v : Nat)  (hw : s.mem.wf = true) : (State.putXlatReg s o v).mem.wf = true := by
  simp only [State.putXlatReg]
  (repeat' split) <;> simp +contextual (maxDischargeDepth := 9) [*]
@[simp] theorem State.putC_wf (s : State) (o v : Nat)  (hw : s.mem.wf = true) : (State.putC s o v).mem.wf = true := by
  simp only [State.putC]
  (repeat' split) <;> simp +contextual (maxDischargeDepth := 9) [*]
@[simp] theorem State.putNet_wf (s : State) (o v : Nat)  (hw : s.mem.wf = true) : (State.putNet s o v).mem.wf = true := by
  simp only [State.putNet]
  (repeat' split) <;> simp +contextual (maxDischargeDepth := 9) [*]
@[simp] theorem State.putHoop_wf (s : State) (o v : Nat)  (hw : s.mem.wf = true) : (State.putHoop s o v).mem.wf = true := by
  simp only [State.putHoop]
  (repeat' split) <;> simp +contextual (maxDischargeDepth := 9) [*]
@[simp] theorem State.putHostReg_wf (s : State) (o v : Nat)  (hw : s.mem.wf = true) : (State.putHostReg s o v).mem.wf = true := by
  simp only [State.putHostReg]
  (repeat' split) <;> simp +contextual (maxDischargeDepth := 9) [*]
@[simp] theorem State.putX_wf (s : State) (o v : Nat)  (hw : s.mem.wf = true) : (State.putX s o v).mem.wf = true := by
  simp only [State.putX]
  (repeat' split) <;> simp +contextual (maxDischargeDepth := 9) [*]
@[simp] theorem State.putReg_wf (s : State) (who : Option CoreId) (b o v : Nat)  (hw : s.mem.wf = true) : (State.putReg s who b o v).mem.wf = true := by
  simp only [State.putReg]
  (repeat' split) <;> simp +contextual (maxDischargeDepth := 9) [*]
@[simp] theorem State.putWord_wf (s : State) (who : Option CoreId) (b o v : Nat)  (hw : s.mem.wf = true) : (State.putWord s who b o v).mem.wf = true := by
  simp only [State.putWord]
  (repeat' split) <;> simp +contextual (maxDischargeDepth := 9) [*]
@[simp] theorem State.regWrite_wf (s : State) (who : Option CoreId) (b o size v : Nat)  (hw : s.mem.wf = true) : (State.regWrite s who b o size v).mem.wf = true := by
  simp only [State.regWrite]
  (repeat' split) <;> simp +contextual (maxDischargeDepth := 9) [*]
@[simp] theorem State.writeBar0_wf (s : State) (o size v : Nat)  (hw : s.mem.wf = true) : (State.writeBar0 s o size v).mem.wf = true := by
  simp only [State.writeBar0]
  (repeat' split) <;> simp +contextual (maxDischargeDepth := 9) [*]
theorem execRegisterWrite_wf (addr : Nat) (wide : Bool) (v : W64) (s : State) {post : State} (h : execRegisterWrite addr wide v s = .next post) (hw : s.mem.wf = true) : post.mem.wf = true := by
  simp only [execRegisterWrite, Host.Outcome.next.injEq] at h
  subst h
  (repeat' split) <;> simp +contextual (maxDischargeDepth := 9) [*]
theorem execCoreLoad_wf (c : CoreId) (addr size : Nat) (fetch hint : Bool) (victims : List Victim) (s : State) {post : State} (h : execCoreLoad c addr size fetch hint victims s = .next post) (hw : s.mem.wf = true) : post.mem.wf = true := by
  simp only [execCoreLoad, Host.Outcome.next.injEq] at h
  subst h
  (repeat' split) <;> simp +contextual (maxDischargeDepth := 9) [*]
theorem execCoreStore_wf (c : CoreId) (addr : Nat) (bytes : List Byte) (hint : Bool) (victims : List Victim) (s : State) {post : State} (h : execCoreStore c addr bytes hint victims s = .next post) (hw : s.mem.wf = true) : post.mem.wf = true := by
  simp only [execCoreStore, Host.Outcome.next.injEq] at h
  subst h
  (repeat' split) <;> simp +contextual (maxDischargeDepth := 9) [*]
@[simp] theorem State.lotTimeout_wf (s : State) (u : Ctrl)  (hw : s.mem.wf = true) : (State.lotTimeout s u).mem.wf = true := by
  simp only [State.lotTimeout]
  (repeat' split) <;> simp +contextual (maxDischargeDepth := 9) [*]
@[simp] theorem State.cmdTimeout_wf (s : State) (k : StreamId) (i : Nat)  (hw : s.mem.wf = true) : (State.cmdTimeout s k i).mem.wf = true := by
  simp only [State.cmdTimeout]
  (repeat' split) <;> simp +contextual (maxDischargeDepth := 9) [*]
theorem execLowerTierTimeout_wf (a : Agent) (addr : Nat) (s : State) {post : State} (h : execLowerTierTimeout a addr s = .next post) (hw : s.mem.wf = true) : post.mem.wf = true := by
  simp only [execLowerTierTimeout, Host.Outcome.next.injEq] at h
  subst h
  (repeat' split) <;> simp +contextual (maxDischargeDepth := 9) [*]

end Sys2Proof.Machine
end

