-- ==== Sys2Proof/Laws/Dispatch.lean ====
section
/-! SUPPORT. Each arm of the dispatch, so that no proof unfolds the whole of it. -/

namespace Sys2Proof.Machine

theorem exec_instructionFetch (t : TileId) (post : State) : exec (.instructionFetch t) post = execInstructionFetch t post := rfl
theorem exec_nop (t : TileId) (k : Tok) (post : State) : exec (.nop t k) post = execNop t k post := rfl
theorem exec_halt (t : TileId) (k : Tok) (post : State) : exec (.halt t k) post = execHalt t k post := rfl
theorem exec_sadd (t : TileId) (k : Tok) (sd sa sb : Fin 32) (post : State) : exec (.sadd t k sd sa sb) post = execSadd t k sd sa sb post := rfl
theorem exec_ssub (t : TileId) (k : Tok) (sd sa sb : Fin 32) (post : State) : exec (.ssub t k sd sa sb) post = execSsub t k sd sa sb post := rfl
theorem exec_sand (t : TileId) (k : Tok) (sd sa sb : Fin 32) (post : State) : exec (.sand t k sd sa sb) post = execSand t k sd sa sb post := rfl
theorem exec_sor (t : TileId) (k : Tok) (sd sa sb : Fin 32) (post : State) : exec (.sor t k sd sa sb) post = execSor t k sd sa sb post := rfl
theorem exec_sxor (t : TileId) (k : Tok) (sd sa sb : Fin 32) (post : State) : exec (.sxor t k sd sa sb) post = execSxor t k sd sa sb post := rfl
theorem exec_sshl (t : TileId) (k : Tok) (sd sa sb : Fin 32) (post : State) : exec (.sshl t k sd sa sb) post = execSshl t k sd sa sb post := rfl
theorem exec_sshr (t : TileId) (k : Tok) (sd sa sb : Fin 32) (post : State) : exec (.sshr t k sd sa sb) post = execSshr t k sd sa sb post := rfl
theorem exec_smul (t : TileId) (k : Tok) (sd sa sb : Fin 32) (post : State) : exec (.smul t k sd sa sb) post = execSmul t k sd sa sb post := rfl
theorem exec_saddi (t : TileId) (k : Tok) (sd sa : Fin 32) (imm : W32) (post : State) : exec (.saddi t k sd sa imm) post = execSaddi t k sd sa imm post := rfl
theorem exec_sli (t : TileId) (k : Tok) (sd : Fin 32) (imm : W32) (post : State) : exec (.sli t k sd imm) post = execSli t k sd imm post := rfl
theorem exec_shi (t : TileId) (k : Tok) (sd : Fin 32) (imm : W32) (post : State) : exec (.shi t k sd imm) post = execShi t k sd imm post := rfl
theorem exec_sld (t : TileId) (k : Tok) (sd sa : Fin 32) (imm : W32) (post : State) : exec (.sld t k sd sa imm) post = execSld t k sd sa imm post := rfl
theorem exec_sst (t : TileId) (k : Tok) (sa sb : Fin 32) (imm : W32) (post : State) : exec (.sst t k sa sb imm) post = execSst t k sa sb imm post := rfl
theorem exec_beq (t : TileId) (k : Tok) (sa sb : Fin 32) (imm : W32) (post : State) : exec (.beq t k sa sb imm) post = execBeq t k sa sb imm post := rfl
theorem exec_bne (t : TileId) (k : Tok) (sa sb : Fin 32) (imm : W32) (post : State) : exec (.bne t k sa sb imm) post = execBne t k sa sb imm post := rfl
theorem exec_blt (t : TileId) (k : Tok) (sa sb : Fin 32) (imm : W32) (post : State) : exec (.blt t k sa sb imm) post = execBlt t k sa sb imm post := rfl
theorem exec_bltu (t : TileId) (k : Tok) (sa sb : Fin 32) (imm : W32) (post : State) : exec (.bltu t k sa sb imm) post = execBltu t k sa sb imm post := rfl
theorem exec_jmp (t : TileId) (k : Tok) (imm : W32) (post : State) : exec (.jmp t k imm) post = execJmp t k imm post := rfl
theorem exec_ring (t : TileId) (k : Tok) (bell : BitVec 12) (scope : Scope) (qmask : BitVec 3) (n : RingN) (post : State) : exec (.ring t k bell scope qmask n) post = execRing t k bell scope qmask n post := rfl
theorem exec_ringFire (t : TileId) (post : State) : exec (.ringFire t) post = execRingFire t post := rfl
theorem exec_wait (t : TileId) (k : Tok) (bell : BitVec 12) (scope : Scope) (treg : Fin 32) (post : State) : exec (.wait t k bell scope treg) post = execWait t k bell scope treg post := rfl
theorem exec_fence (t : TileId) (k : Tok) (scope : Scope) (qmask : BitVec 3) (post : State) : exec (.fence t k scope qmask) post = execFence t k scope qmask post := rfl
theorem exec_flags (t : TileId) (k : Tok) (sd : Fin 32) (clear : BitVec 7) (post : State) : exec (.flags t k sd clear) post = execFlags t k sd clear post := rfl
theorem exec_tally (t : TileId) (k : Tok) (sd : Fin 32) (post : State) : exec (.tally t k sd) post = execTally t k sd post := rfl
theorem exec_mma (t : TileId) (parity : Bool) (post : State) : exec (.mma t parity) post = execMma t parity post := rfl
theorem exec_drain (t : TileId) (parity : Bool) (post : State) : exec (.drain t parity) post = execDrain t parity post := rfl
theorem exec_sclr (t : TileId) (post : State) : exec (.sclr t) post = execSclr t post := rfl
theorem exec_ssto (t : TileId) (post : State) : exec (.ssto t) post = execSsto t post := rfl
theorem exec_seed (t : TileId) (post : State) : exec (.seed t) post = execSeed t post := rfl
theorem exec_vadd (t : TileId) (post : State) : exec (.vadd t) post = execVadd t post := rfl
theorem exec_vsub (t : TileId) (post : State) : exec (.vsub t) post = execVsub t post := rfl
theorem exec_vmul (t : TileId) (post : State) : exec (.vmul t) post = execVmul t post := rfl
theorem exec_vfma (t : TileId) (post : State) : exec (.vfma t) post = execVfma t post := rfl
theorem exec_vfnma (t : TileId) (post : State) : exec (.vfnma t) post = execVfnma t post := rfl
theorem exec_vmin (t : TileId) (post : State) : exec (.vmin t) post = execVmin t post := rfl
theorem exec_vmax (t : TileId) (post : State) : exec (.vmax t) post = execVmax t post := rfl
theorem exec_vabs (t : TileId) (post : State) : exec (.vabs t) post = execVabs t post := rfl
theorem exec_vneg (t : TileId) (post : State) : exec (.vneg t) post = execVneg t post := rfl
theorem exec_vdiv (t : TileId) (post : State) : exec (.vdiv t) post = execVdiv t post := rfl
theorem exec_vsqrt (t : TileId) (post : State) : exec (.vsqrt t) post = execVsqrt t post := rfl
theorem exec_vcmplt (t : TileId) (post : State) : exec (.vcmplt t) post = execVcmplt t post := rfl
theorem exec_vcmpeq (t : TileId) (post : State) : exec (.vcmpeq t) post = execVcmpeq t post := rfl
theorem exec_vclass (t : TileId) (post : State) : exec (.vclass t) post = execVclass t post := rfl
theorem exec_vsel (t : TileId) (post : State) : exec (.vsel t) post = execVsel t post := rfl
theorem exec_vbcast (t : TileId) (post : State) : exec (.vbcast t) post = execVbcast t post := rfl
theorem exec_vld (t : TileId) (post : State) : exec (.vld t) post = execVld t post := rfl
theorem exec_vst (t : TileId) (post : State) : exec (.vst t) post = execVst t post := rfl
theorem exec_vrsum (t : TileId) (post : State) : exec (.vrsum t) post = execVrsum t post := rfl
theorem exec_vrmax (t : TileId) (post : State) : exec (.vrmax t) post = execVrmax t post := rfl
theorem exec_viadd (t : TileId) (post : State) : exec (.viadd t) post = execViadd t post := rfl
theorem exec_visub (t : TileId) (post : State) : exec (.visub t) post = execVisub t post := rfl
theorem exec_vimul (t : TileId) (post : State) : exec (.vimul t) post = execVimul t post := rfl
theorem exec_vand (t : TileId) (post : State) : exec (.vand t) post = execVand t post := rfl
theorem exec_vor (t : TileId) (post : State) : exec (.vor t) post = execVor t post := rfl
theorem exec_vxor (t : TileId) (post : State) : exec (.vxor t) post = execVxor t post := rfl
theorem exec_vshl (t : TileId) (post : State) : exec (.vshl t) post = execVshl t post := rfl
theorem exec_vshr (t : TileId) (post : State) : exec (.vshr t) post = execVshr t post := rfl
theorem exec_vshra (t : TileId) (post : State) : exec (.vshra t) post = execVshra t post := rfl
theorem exec_vcvtif (t : TileId) (post : State) : exec (.vcvtif t) post = execVcvtif t post := rfl
theorem exec_vcvtfi (t : TileId) (post : State) : exec (.vcvtfi t) post = execVcvtfi t post := rfl
theorem exec_vmov (t : TileId) (post : State) : exec (.vmov t) post = execVmov t post := rfl
theorem exec_vcnt (u : Ctrl) (msk : Fin 8) (post : State) : exec (.vcnt u msk) post = execVcnt u msk post := rfl
theorem exec_clapperVld (u : Ctrl) (vd : Fin 64) (msk : Fin 8) (stream : Fin 8) (post : State) : exec (.clapperVld u vd msk stream) post = execClapperVld u vd msk stream post := rfl
theorem exec_clapperVst (u : Ctrl) (vc : Fin 64) (msk : Fin 8) (stream : Fin 8) (rtz : Bool) (post : State) : exec (.clapperVst u vc msk stream rtz) post = execClapperVst u vc msk stream rtz post := rfl
theorem exec_clapperVbcast (u : Ctrl) (vd : Fin 64) (msk : Fin 8) (sa : Fin 24) (post : State) : exec (.clapperVbcast u vd msk sa) post = execClapperVbcast u vd msk sa post := rfl
theorem exec_instructionCompletion (t : TileId) (e : Engine) (idx : Nat) (post : State) : exec (.instructionCompletion t e idx) post = execInstructionCompletion t e idx post := rfl
theorem exec_msub (t : TileId) (post : State) : exec (.msub t) post = execMsub t post := rfl
theorem exec_descriptorAccept (t : TileId) (post : State) : exec (.descriptorAccept t) post = execDescriptorAccept t post := rfl
theorem exec_copy (t : TileId) (i : Nat) (post : State) : exec (.copy t i) post = execCopy t i post := rfl
theorem exec_transpose (t : TileId) (i : Nat) (post : State) : exec (.transpose t i) post = execTranspose t i post := rfl
theorem exec_fill (t : TileId) (i : Nat) (post : State) : exec (.fill t i) post = execFill t i post := rfl
theorem exec_inline (t : TileId) (i : Nat) (post : State) : exec (.inline t i) post = execInline t i post := rfl
theorem exec_put (t : TileId) (i : Nat) (post : State) : exec (.put t i) post = execPut t i post := rfl
theorem exec_get (t : TileId) (i : Nat) (post : State) : exec (.get t i) post = execGet t i post := rfl
theorem exec_descriptorComplete (t : TileId) (i : Nat) (post : State) : exec (.descriptorComplete t i) post = execDescriptorComplete t i post := rfl
theorem exec_set (b : BellId) (v : W64) (post : State) : exec (.set b v) post = execSet b v post := rfl
theorem exec_ringRegisterWrite (c : CoreId) (b : BellId) (n : W64) (post : State) : exec (.ringRegisterWrite c b n) post = execRingRegisterWrite c b n post := rfl
theorem exec_bellBatch (die : ADie) (ops : List BellOp) (post : State) : exec (.bellBatch die ops) post = execBellBatch die ops post := rfl
theorem exec_launch (prefTiles : List TileId) (prefBells : List BellId) (post : State) : exec (.launch prefTiles prefBells) post = execLaunch prefTiles prefBells post := rfl
theorem exec_terminate (post : State) : exec (.terminate) post = execTerminate post := rfl
theorem exec_tileStop (t : TileId) (post : State) : exec (.tileStop t) post = execTileStop t post := rfl
theorem exec_tileProgramEnd (t : TileId) (post : State) : exec (.tileProgramEnd t) post = execTileProgramEnd t post := rfl
theorem exec_completionRecord (kid : Nat) (post : State) : exec (.completionRecord kid) post = execCompletionRecord kid post := rfl
theorem exec_tileClearEnd (t : TileId) (post : State) : exec (.tileClearEnd t) post = execTileClearEnd t post := rfl
theorem exec_arraySelfTest (t : TileId) (found : SelfTest) (post : State) : exec (.arraySelfTest t found) post = execArraySelfTest t found post := rfl
theorem exec_srSeedWrite (t : TileId) (v : W64) (post : State) : exec (.srSeedWrite t v) post = execSrSeedWrite t v post := rfl
theorem exec_memoryRead (a : Agent) (addr : Nat) (len : Nat) (post : State) : exec (.memoryRead a addr len) post = execMemoryRead a addr len post := rfl
theorem exec_memoryWrite (a : Agent) (addr : Nat) (bytes : List Byte) (post : State) : exec (.memoryWrite a addr bytes) post = execMemoryWrite a addr bytes post := rfl
theorem exec_patrolScrub (c : Ctrl) (post : State) : exec (.patrolScrub c) post = execPatrolScrub c post := rfl
theorem exec_ceInnerCollect (c : Ctrl) (n : Nat) (post : State) : exec (.ceInnerCollect c n) post = execCeInnerCollect c n post := rfl
theorem exec_lowerTierTimeout (a : Agent) (addr : Nat) (post : State) : exec (.lowerTierTimeout a addr) post = execLowerTierTimeout a addr post := rfl
theorem exec_lateResponseDiscard (a : Agent) (addr : Nat) (post : State) : exec (.lateResponseDiscard a addr) post = execLateResponseDiscard a addr post := rfl
theorem exec_writebackRetry (line : Nat) (post : State) : exec (.writebackRetry line) post = execWritebackRetry line post := rfl
theorem exec_coreLoad (c : CoreId) (addr : Nat) (size : Nat) (fetch hint : Bool) (victims : List Victim) (post : State) : exec (.coreLoad c addr size fetch hint victims) post = execCoreLoad c addr size fetch hint victims post := rfl
theorem exec_coreStore (c : CoreId) (addr : Nat) (bytes : List Byte) (hint : Bool) (victims : List Victim) (post : State) : exec (.coreStore c addr bytes hint victims) post = execCoreStore c addr bytes hint victims post := rfl
theorem exec_coreAmo (c : CoreId) (op : AmoOp) (addr : Nat) (wide : Bool) (v cmp : W64) (post : State) : exec (.coreAmo c op addr wide v cmp) post = execCoreAmo c op addr wide v cmp post := rfl
theorem exec_cacheSweepComplete (post : State) : exec (.cacheSweepComplete) post = execCacheSweepComplete post := rfl
theorem exec_qmodeWrite (hi : Bool) (v : W64) (post : State) : exec (.qmodeWrite hi v) post = execQmodeWrite hi v post := rfl
theorem exec_poolWrite (pool : Fin 6) (v : W64) (post : State) : exec (.poolWrite pool v) post = execPoolWrite pool v post := rfl
theorem exec_stackFailure (c : Ctrl) (post : State) : exec (.stackFailure c) post = execStackFailure c post := rfl
theorem exec_stackInitComplete (c : Ctrl) (passed : Bool) (post : State) : exec (.stackInitComplete c passed) post = execStackInitComplete c passed post := rfl
theorem exec_faultResp (v : W64) (post : State) : exec (.faultResp v) post = execFaultResp v post := rfl
theorem exec_fqResp (v : W64) (post : State) : exec (.fqResp v) post = execFqResp v post := rfl
theorem exec_ioinval (v : W64) (post : State) : exec (.ioinval v) post = execIoinval v post := rfl
theorem exec_ioinvalComplete (post : State) : exec (.ioinvalComplete) post = execIoinvalComplete post := rfl
theorem exec_tocsinPost (i : Nat) (post : State) : exec (.tocsinPost i) post = execTocsinPost i post := rfl
theorem exec_tqConsWrite (v : W32) (post : State) : exec (.tqConsWrite v) post = execTqConsWrite v post := rfl
theorem exec_tqEnable (v : W32) (post : State) : exec (.tqEnable v) post = execTqEnable v post := rfl
theorem exec_overflowMarkerRewrite (post : State) : exec (.overflowMarkerRewrite) post = execOverflowMarkerRewrite post := rfl
theorem exec_forwardQueuePost (i : Nat) (post : State) : exec (.forwardQueuePost i) post = execForwardQueuePost i post := rfl
theorem exec_counterDecay (post : State) : exec (.counterDecay) post = execCounterDecay post := rfl
theorem exec_migrationCopy (post : State) : exec (.migrationCopy) post = execMigrationCopy post := rfl
theorem exec_migrationZero (post : State) : exec (.migrationZero) post = execMigrationZero post := rfl
theorem exec_migrationAdvise (post : State) : exec (.migrationAdvise) post = execMigrationAdvise post := rfl
theorem exec_winCommit (v : W32) (post : State) : exec (.winCommit v) post = execWinCommit v post := rfl
theorem exec_unmapGo (v : W32) (post : State) : exec (.unmapGo v) post = execUnmapGo v post := rfl
theorem exec_unmapPhaseOneComplete (post : State) : exec (.unmapPhaseOneComplete) post = execUnmapPhaseOneComplete post := rfl
theorem exec_unmapDrained (post : State) : exec (.unmapDrained) post = execUnmapDrained post := rfl
theorem exec_coreStart (c : CoreId) (entry : W64) (post : State) : exec (.coreStart c entry) post = execCoreStart c entry post := rfl
theorem exec_cboClean (c : CoreId) (addr : Nat) (post : State) : exec (.cboClean c addr) post = execCboClean c addr post := rfl
theorem exec_cboFlush (c : CoreId) (addr : Nat) (post : State) : exec (.cboFlush c addr) post = execCboFlush c addr post := rfl
theorem exec_cboInval (c : CoreId) (addr : Nat) (post : State) : exec (.cboInval c addr) post = execCboInval c addr post := rfl
theorem exec_cleanByRange (c : CoreId) (post : State) : exec (.cleanByRange c) post = execCleanByRange c post := rfl
theorem exec_invalidateByRange (c : CoreId) (post : State) : exec (.invalidateByRange c) post = execInvalidateByRange c post := rfl
theorem exec_rangeOperationComplete (c : CoreId) (post : State) : exec (.rangeOperationComplete c) post = execRangeOperationComplete c post := rfl
theorem exec_machineTimerInterrupt (c : CoreId) (post : State) : exec (.machineTimerInterrupt c) post = execMachineTimerInterrupt c post := rfl
theorem exec_hostMsgFree (v : W32) (post : State) : exec (.hostMsgFree v) post = execHostMsgFree v post := rfl
theorem exec_rtMsgOffer (v : W32) (post : State) : exec (.rtMsgOffer v) post = execRtMsgOffer v post := rfl
theorem exec_monitorEvaluation (u : MonUnit) (margin : Nat) (inRange : Bool) (reading : W16) (post : State) : exec (.monitorEvaluation u margin inRange reading) post = execMonitorEvaluation u margin inRange reading post := rfl
theorem exec_trimSave (post : State) : exec (.trimSave) post = execTrimSave post := rfl
theorem exec_streamOpen (s : StreamId) (v : W32) (post : State) : exec (.streamOpen s v) post = execStreamOpen s v post := rfl
theorem exec_streamClose (s : StreamId) (v : W32) (post : State) : exec (.streamClose s v) post = execStreamClose s v post := rfl
theorem exec_doorbell (s : StreamId) (v : W32) (post : State) : exec (.doorbell s v) post = execDoorbell s v post := rfl
theorem exec_slotRead (s : StreamId) (post : State) : exec (.slotRead s) post = execSlotRead s post := rfl
theorem exec_slotReread (s : StreamId) (post : State) : exec (.slotReread s) post = execSlotReread s post := rfl
theorem exec_streamNop (s : StreamId) (i : Nat) (post : State) : exec (.streamNop s i) post = execStreamNop s i post := rfl
theorem exec_streamInline (s : StreamId) (i : Nat) (post : State) : exec (.streamInline s i) post = execStreamInline s i post := rfl
theorem exec_inlineChain (s : StreamId) (i : Nat) (post : State) : exec (.inlineChain s i) post = execInlineChain s i post := rfl
theorem exec_streamCopy (s : StreamId) (i : Nat) (post : State) : exec (.streamCopy s i) post = execStreamCopy s i post := rfl
theorem exec_streamLaunch (s : StreamId) (i : Nat) (prefTiles : List TileId) (prefBells : List BellId) (post : State) : exec (.streamLaunch s i prefTiles prefBells) post = execStreamLaunch s i prefTiles prefBells post := rfl
theorem exec_streamTerminate (s : StreamId) (i : Nat) (post : State) : exec (.streamTerminate s i) post = execStreamTerminate s i post := rfl
theorem exec_streamRing (s : StreamId) (i : Nat) (post : State) : exec (.streamRing s i) post = execStreamRing s i post := rfl
theorem exec_streamWait (s : StreamId) (i : Nat) (post : State) : exec (.streamWait s i) post = execStreamWait s i post := rfl
theorem exec_streamFence (s : StreamId) (i : Nat) (post : State) : exec (.streamFence s i) post = execStreamFence s i post := rfl
theorem exec_roll (s : StreamId) (i : Nat) (post : State) : exec (.roll s i) post = execRoll s i post := rfl
theorem exec_completionEntry (s : StreamId) (i : Nat) (post : State) : exec (.completionEntry s i) post = execCompletionEntry s i post := rfl
theorem exec_apertureWrite (off : Nat) (bytes : List Byte) (requester : W16) (post : State) : exec (.apertureWrite off bytes requester) post = execApertureWrite off bytes requester post := rfl
theorem exec_apertureRead (off len : Nat) (requester : W16) (post : State) : exec (.apertureRead off len requester) post = execApertureRead off len requester post := rfl
theorem exec_cxlMemRead (addr : Nat) (len : Nat) (post : State) : exec (.cxlMemRead addr len) post = execCxlMemRead addr len post := rfl
theorem exec_cxlMemWrite (addr : Nat) (bytes : List Byte) (post : State) : exec (.cxlMemWrite addr bytes) post = execCxlMemWrite addr bytes post := rfl
theorem exec_hdmCommit (i : Fin 2) (req : HdmReq) (post : State) : exec (.hdmCommit i req) post = execHdmCommit i req post := rfl
theorem exec_hostSnoop (kind : SnoopKind) (addr : Nat) (post : State) : exec (.hostSnoop kind addr) post = execHostSnoop kind addr post := rfl
theorem exec_getSupportedLogs (post : State) : exec (.getSupportedLogs) post = execGetSupportedLogs post := rfl
theorem exec_getLog (post : State) : exec (.getLog) post = execGetLog post := rfl
theorem exec_mydarRequest (f : Pdu) (post : State) : exec (.mydarRequest f) post = execMydarRequest f post := rfl
theorem exec_runtimeSend (bytes : List Byte) (post : State) : exec (.runtimeSend bytes) post = execRuntimeSend bytes post := rfl
theorem exec_runtimeRecv (post : State) : exec (.runtimeRecv) post = execRuntimeRecv post := rfl
theorem exec_linkRecovery (post : State) : exec (.linkRecovery) post = execLinkRecovery post := rfl
theorem exec_hostLoss (cause : LossCause) (post : State) : exec (.hostLoss cause) post = execHostLoss cause post := rfl
theorem exec_hostLinkUp (rate : LinkRate) (post : State) : exec (.hostLinkUp rate) post = execHostLinkUp rate post := rfl
theorem exec_kettleCycle (r : KettleIn) (post : State) : exec (.kettleCycle r) post = execKettleCycle r post := rfl
theorem exec_kettleRoll (v : W64) (post : State) : exec (.kettleRoll v) post = execKettleRoll v post := rfl
theorem exec_currentLimitAlert (die : ADie) (amps : W32) (post : State) : exec (.currentLimitAlert die amps) post = execCurrentLimitAlert die amps post := rfl
theorem exec_inputReport (volt10mV : Nat) (watts : Nat) (post : State) : exec (.inputReport volt10mV watts) post = execInputReport volt10mV watts post := rfl
theorem exec_railTargetReached (post : State) : exec (.railTargetReached) post = execRailTargetReached post := rfl
theorem exec_dictRead (p : Path) (f : Pdu) (post : State) : exec (.dictRead p f) post = execDictRead p f post := rfl
theorem exec_dictWrite (p : Path) (f : Pdu) (post : State) : exec (.dictWrite p f) post = execDictWrite p f post := rfl
theorem exec_dictFreeze (p : Path) (f : Pdu) (post : State) : exec (.dictFreeze p f) post = execDictFreeze p f post := rfl
theorem exec_dictRelease (p : Path) (f : Pdu) (post : State) : exec (.dictRelease p f) post = execDictRelease p f post := rfl
theorem exec_dictDescribe (p : Path) (f : Pdu) (post : State) : exec (.dictDescribe p f) post = execDictDescribe p f post := rfl
theorem exec_dictDiscover (p : Path) (f : Pdu) (post : State) : exec (.dictDiscover p f) post = execDictDiscover p f post := rfl
theorem exec_dictOpen (p : Path) (f : Pdu) (post : State) : exec (.dictOpen p f) post = execDictOpen p f post := rfl
theorem exec_dictClose (p : Path) (f : Pdu) (post : State) : exec (.dictClose p f) post = execDictClose p f post := rfl
theorem exec_sessionIdleTimeout (p : Path) (session : W32) (post : State) : exec (.sessionIdleTimeout p session) post = execSessionIdleTimeout p session post := rfl
theorem exec_frameDrop (why : FrameFault) (post : State) : exec (.frameDrop why) post = execFrameDrop why post := rfl
theorem exec_sealedComplete (post : State) : exec (.sealedComplete) post = execSealedComplete post := rfl
theorem exec_telemetryWindow (post : State) : exec (.telemetryWindow) post = execTelemetryWindow post := rfl
theorem exec_getVersion (p : SpdmPath) (post : State) : exec (.getVersion p) post = execGetVersion p post := rfl
theorem exec_getCapabilities (p : SpdmPath) (post : State) : exec (.getCapabilities p) post = execGetCapabilities p post := rfl
theorem exec_negotiateAlgorithms (p : SpdmPath) (common : Bool) (post : State) : exec (.negotiateAlgorithms p common) post = execNegotiateAlgorithms p common post := rfl
theorem exec_getDigests (p : SpdmPath) (post : State) : exec (.getDigests p) post = execGetDigests p post := rfl
theorem exec_getCertificate (p : SpdmPath) (slot : Nat) (offset len : Nat) (post : State) : exec (.getCertificate p slot offset len) post = execGetCertificate p slot offset len post := rfl
theorem exec_challenge (p : SpdmPath) (nonce : List Byte) (post : State) : exec (.challenge p nonce) post = execChallenge p nonce post := rfl
theorem exec_getMeasurements (p : SpdmPath) (nonce : List Byte) (post : State) : exec (.getMeasurements p nonce) post = execGetMeasurements p nonce post := rfl
theorem exec_keyExchange (p : SpdmPath) (exchange : List Byte) (post : State) : exec (.keyExchange p exchange) post = execKeyExchange p exchange post := rfl
theorem exec_finish (p : SpdmPath) (valid bothSides : Bool) (post : State) : exec (.finish p valid bothSides) post = execFinish p valid bothSides post := rfl
theorem exec_heartbeat (p : SpdmPath) (post : State) : exec (.heartbeat p) post = execHeartbeat p post := rfl
theorem exec_keyUpdate (p : SpdmPath) (post : State) : exec (.keyUpdate p) post = execKeyUpdate p post := rfl
theorem exec_endSession (p : SpdmPath) (post : State) : exec (.endSession p) post = execEndSession p post := rfl
theorem exec_romBegin (slot : Byte) (len : W32) (post : State) : exec (.romBegin slot len) post = execRomBegin slot len post := rfl
theorem exec_romData (offset : W32) (bytes : List Byte) (post : State) : exec (.romData offset bytes) post = execRomData offset bytes post := rfl
theorem exec_romEnd (post : State) : exec (.romEnd) post = execRomEnd post := rfl
theorem exec_powerOn (volt10mV : Nat) (post : State) : exec (.powerOn volt10mV) post = execPowerOn volt10mV post := rfl
theorem exec_resetN (low : Bool) (micros : Nat) (post : State) : exec (.resetN low micros) post = execResetN low micros post := rfl
theorem exec_enBreak (micros : Nat) (post : State) : exec (.enBreak micros) post = execEnBreak micros post := rfl
theorem exec_latchOpened (bay : Fin 2) (post : State) : exec (.latchOpened bay) post = execLatchOpened bay post := rfl
theorem exec_bayInserted (bay : Fin 2) (post : State) : exec (.bayInserted bay) post = execBayInserted bay post := rfl
theorem exec_actNone (who : Principal) (post : State) : exec (.actNone who) post = execActNone who post := rfl
theorem exec_coldReset (who : Principal) (post : State) : exec (.coldReset who) post = execColdReset who post := rfl
theorem exec_bringupDone (who : Principal) (post : State) : exec (.bringupDone who) post = execBringupDone who post := rfl
theorem exec_takeOut (who : Principal) (u : ServiceUnit) (force : Bool) (post : State) : exec (.takeOut who u force) post = execTakeOut who u force post := rfl
theorem exec_bringBack (who : Principal) (u : ServiceUnit) (post : State) : exec (.bringBack who u) post = execBringBack who u post := rfl
theorem exec_retest (who : Principal) (t : TileId) (post : State) : exec (.retest who t) post = execRetest who t post := rfl
theorem exec_dieReset (who : Principal) (die : ADie) (post : State) : exec (.dieReset who die) post = execDieReset who die post := rfl
theorem exec_writeSlot (who : Principal) (slot : Fin 6) (chunk : BitVec 12) (len16 : W16) (post : State) : exec (.writeSlot who slot chunk len16) post = execWriteSlot who slot chunk len16 post := rfl
theorem exec_debugOpen (who : Principal) (set : BitVec 3) (post : State) : exec (.debugOpen who set) post = execDebugOpen who set post := rfl
theorem exec_debugClose (who : Principal) (post : State) : exec (.debugClose who) post = execDebugClose who post := rfl
theorem exec_unitOutOfService (u : ServiceUnit) (post : State) : exec (.unitOutOfService u) post = execUnitOutOfService u post := rfl
theorem exec_reintegration (u : ServiceUnit) (passed : Bool) (post : State) : exec (.reintegration u passed) post = execReintegration u passed post := rfl
theorem exec_portEnable (p : PortId) (v : W32) (post : State) : exec (.portEnable p v) post = execPortEnable p v post := rfl
theorem exec_portDisable (p : PortId) (v : W32) (post : State) : exec (.portDisable p v) post = execPortDisable p v post := rfl
theorem exec_widthRequest (p : PortId) (v : W32) (post : State) : exec (.widthRequest p v) post = execWidthRequest p v post := rfl
theorem exec_widthLapse (p : PortId) (post : State) : exec (.widthLapse p) post = execWidthLapse p post := rfl
theorem exec_portBringup (p : PortId) (probe : PortProbe) (post : State) : exec (.portBringup p probe) post = execPortBringup p probe post := rfl
theorem exec_neighbourRecheck (p : PortId) (post : State) : exec (.neighbourRecheck p) post = execNeighbourRecheck p post := rfl
theorem exec_coordinateCheck (p : PortId) (post : State) : exec (.coordinateCheck p) post = execCoordinateCheck p post := rfl
theorem exec_linkHeartbeatTimeout (p : PortId) (post : State) : exec (.linkHeartbeatTimeout p) post = execLinkHeartbeatTimeout p post := rfl
theorem exec_flitDiscard (p : PortId) (f : Trailer) (post : State) : exec (.flitDiscard p f) post = execFlitDiscard p f post := rfl
theorem exec_linkReplay (p : PortId) (ackseq : BitVec 12) (post : State) : exec (.linkReplay p ackseq) post = execLinkReplay p ackseq post := rfl
theorem exec_caps (p : PortId) (m : Caps) (post : State) : exec (.caps p m) post = execCaps p m post := rfl
theorem exec_width (p : PortId) (half : Fin 2) (post : State) : exec (.width p half) post = execWidth p half post := rfl
theorem exec_key (p : PortId) (post : State) : exec (.key p) post = execKey p post := rfl
theorem exec_spdm (p : PortId) (m : PeerProof) (post : State) : exec (.spdm p m) post = execSpdm p m post := rfl
theorem exec_rekey (p : PortId) (tx : Bool) (post : State) : exec (.rekey p tx) post = execRekey p tx post := rfl
theorem exec_putData (p : PortId) (m : Msg) (post : State) : exec (.putData p m) post = execPutData p m post := rfl
theorem exec_getReq (p : PortId) (m : Msg) (post : State) : exec (.getReq p m) post = execGetReq p m post := rfl
theorem exec_remoteRing (p : PortId) (m : Msg) (post : State) : exec (.remoteRing p m) post = execRemoteRing p m post := rfl
theorem exec_putAck (p : PortId) (m : Msg) (post : State) : exec (.putAck p m) post = execPutAck p m post := rfl
theorem exec_getData (p : PortId) (m : Msg) (post : State) : exec (.getData p m) post = execGetData p m post := rfl
theorem exec_nack (p : PortId) (m : Msg) (post : State) : exec (.nack p m) post = execNack p m post := rfl
theorem exec_peal (p : PortId) (m : Msg) (post : State) : exec (.peal p m) post = execPeal p m post := rfl
theorem exec_messageTimeout (p : PortId) (slot : Fin 2048) (post : State) : exec (.messageTimeout p slot) post = execMessageTimeout p slot post := rfl
theorem exec_slotEpochAdvance (p : PortId) (slot : Fin 2048) (post : State) : exec (.slotEpochAdvance p slot) post = execSlotEpochAdvance p slot post := rfl
theorem exec_violationHalving (post : State) : exec (.violationHalving) post = execViolationHalving post := rfl
theorem exec_qclear (p : PortId) (v : W32) (post : State) : exec (.qclear p v) post = execQclear p v post := rfl
theorem exec_rs (s : PealSlot) (post : State) : exec (.rs s) post = execRs s post := rfl
theorem exec_ag (s : PealSlot) (post : State) : exec (.ag s) post = execAg s post := rfl
theorem exec_ar (s : PealSlot) (post : State) : exec (.ar s) post = execAr s post := rfl
theorem exec_pealTimeout (s : PealSlot) (post : State) : exec (.pealTimeout s) post = execPealTimeout s post := rfl
theorem exec_pealDescriptorComplete (s : PealSlot) (post : State) : exec (.pealDescriptorComplete s) post = execPealDescriptorComplete s post := rfl
theorem exec_pealBind (s : PealSlot) (post : State) : exec (.pealBind s) post = execPealBind s post := rfl
theorem exec_lotHandover (s : PealSlot) (lot : Nat) (post : State) : exec (.lotHandover s lot) post = execLotHandover s lot post := rfl
theorem exec_jobAccept (post : State) : exec (.jobAccept) post = execJobAccept post := rfl
theorem exec_lotRun (u : Ctrl) (post : State) : exec (.lotRun u) post = execLotRun u post := rfl
theorem exec_jobComplete (j : JobSlot) (post : State) : exec (.jobComplete j) post = execJobComplete j post := rfl
theorem exec_cadAdv (v : W32) (post : State) : exec (.cadAdv v) post = execCadAdv v post := rfl
theorem exec_cadSetC (v : W64) (post : State) : exec (.cadSetC v) post = execCadSetC v post := rfl
theorem exec_cadCommit (v : W32) (post : State) : exec (.cadCommit v) post = execCadCommit v post := rfl
theorem exec_cadenceDelivery (post : State) : exec (.cadenceDelivery) post = execCadenceDelivery post := rfl
theorem exec_hoopPacket (l : LinkId) (rev : Bool) (p : HoopPkt) (post : State) : exec (.hoopPacket l rev p) post = execHoopPacket l rev p post := rfl
theorem exec_linkControl (l : LinkId) (rev : Bool) (p : HoopCtl) (post : State) : exec (.linkControl l rev p) post = execLinkControl l rev p post := rfl
theorem exec_linkControlSend (l : LinkId) (rev : Bool) (post : State) : exec (.linkControlSend l rev) post = execLinkControlSend l rev post := rfl
theorem exec_retrain (l : LinkId) (post : State) : exec (.retrain l) post = execRetrain l post := rfl
theorem exec_trainingComplete (l : LinkId) (f : TrainFindings) (post : State) : exec (.trainingComplete l f) post = execTrainingComplete l f post := rfl
theorem exec_registerWrite (addr : Nat) (wide : Bool) (v : W64) (post : State) : exec (.registerWrite addr wide v) post = execRegisterWrite addr wide v post := rfl
theorem exec_linkReturnToL0 (rate : LinkRate) (post : State) : exec (.linkReturnToL0 rate) post = execLinkReturnToL0 rate post := rfl
theorem exec_supervisorTimerInterrupt (c : CoreId) (virt : Bool) (post : State) : exec (.supervisorTimerInterrupt c virt) post = execSupervisorTimerInterrupt c virt post := rfl
theorem exec_idleFlit (p : PortId) (f : Trailer) (post : State) : exec (.idleFlit p f) post = execIdleFlit p f post := rfl
theorem exec_fqConsWrite (v : W32) (post : State) : exec (.fqConsWrite v) post = execFqConsWrite v post := rfl
theorem exec_fqEnable (v : W32) (post : State) : exec (.fqEnable v) post = execFqEnable v post := rfl
theorem exec_migrationDescriptorComplete (post : State) : exec (.migrationDescriptorComplete) post = execMigrationDescriptorComplete post := rfl
theorem exec_writeSlotEnded (ok : Bool) (post : State) : exec (.writeSlotEnded ok) post = execWriteSlotEnded ok post := rfl
theorem exec_doeDiscovery (index : Byte) (post : State) : exec (.doeDiscovery index) post = execDoeDiscovery index post := rfl
theorem exec_ideKm (activate : Bool) (key : List Byte) (integrityFault : Bool) (post : State) : exec (.ideKm activate key integrityFault) post = execIdeKm activate key integrityFault post := rfl
theorem exec_enTied (millis : Nat) (post : State) : exec (.enTied millis) post = execEnTied millis post := rfl

end Sys2Proof.Machine
end

