-- ==== Sys2Proof/Laws/State.lean ====
section
/-! SUPPORT. What each update of the state leaves at the place updated, at other places of the same unit, and in the tile and state
records, so that no later proof unfolds an update. -/

namespace Sys2Proof.Machine

/-! ### A unit read back where it was stored, and at another place -/

@[simp] theorem State.setTile_tile_self (s : State) (i : TileId) (v : Tile) : (s.setTile i v).tile i = v := by
  simp [State.setTile, State.tile]
theorem State.setTile_tile_ne (s : State) (i j : TileId) (v : Tile) (h : j ≠ i) : (s.setTile i v).tile j = s.tile j := by
  simp only [State.setTile, State.tile]
  exact Map.get_set_ne _ _ _ _ _ _ fun e => h (Fin.ext e)
@[simp] theorem State.setBell_bell_self (s : State) (i : Nat) (v : Bell) : (s.setBell i v).bell i = v := by
  simp [State.setBell, State.bell]
theorem State.setBell_bell_ne (s : State) (i j : Nat) (v : Bell) (h : j ≠ i) : (s.setBell i v).bell j = s.bell j := by
  simp only [State.setBell, State.bell]
  exact Map.get_set_ne _ _ _ _ _ _ h
@[simp] theorem State.setCore_core_self (s : State) (i : CoreId) (v : Core) : (s.setCore i v).core i = v := by
  simp [State.setCore, State.core]
theorem State.setCore_core_ne (s : State) (i j : CoreId) (v : Core) (h : j ≠ i) : (s.setCore i v).core j = s.core j := by
  simp only [State.setCore, State.core]
  exact Map.get_set_ne _ _ _ _ _ _ fun e => h (Fin.ext e)
@[simp] theorem State.setKernel_kernel_self (s : State) (i : Nat) (v : Option Kernel) : (s.setKernel i v).kernel i = v := by
  simp [State.setKernel, State.kernel]
theorem State.setKernel_kernel_ne (s : State) (i j : Nat) (v : Option Kernel) (h : j ≠ i) : (s.setKernel i v).kernel j = s.kernel j := by
  simp only [State.setKernel, State.kernel]
  exact Map.get_set_ne _ _ _ _ _ _ h
@[simp] theorem State.setPort_port_self (s : State) (i : PortId) (v : Port) : (s.setPort i v).port i = v := by
  simp [State.setPort, State.port, NetS.port, NetS.setPort]
theorem State.setPort_port_ne (s : State) (i j : PortId) (v : Port) (h : j ≠ i) : (s.setPort i v).port j = s.port j := by
  simp only [State.setPort, State.port, NetS.port, NetS.setPort]
  exact Map.get_set_ne _ _ _ _ _ _ fun e => h (Fin.ext e)
@[simp] theorem State.setHoop_hoop_self (s : State) (i : LinkId) (v : HoopLink) : (s.setHoop i v).hoop i = v := by
  simp [State.setHoop, State.hoop, NetS.hoop, NetS.setHoop]
theorem State.setHoop_hoop_ne (s : State) (i j : LinkId) (v : HoopLink) (h : j ≠ i) : (s.setHoop i v).hoop j = s.hoop j := by
  simp only [State.setHoop, State.hoop, NetS.hoop, NetS.setHoop]
  exact Map.get_set_ne _ _ _ _ _ _ fun e => h (Fin.ext e)
@[simp] theorem State.setPeal_peal_self (s : State) (i : PealSlot) (v : PealS) : (s.setPeal i v).peal i = v := by
  simp [State.setPeal, State.peal, NetS.peal, NetS.setPeal]
theorem State.setPeal_peal_ne (s : State) (i j : PealSlot) (v : PealS) (h : j ≠ i) : (s.setPeal i v).peal j = s.peal j := by
  simp only [State.setPeal, State.peal, NetS.peal, NetS.setPeal]
  exact Map.get_set_ne _ _ _ _ _ _ fun e => h (Fin.ext e)
@[simp] theorem State.setStream_stream_self (s : State) (i : StreamId) (v : StreamS) : (s.setStream i v).stream i = v := by
  simp [State.setStream, State.stream, State.setCxl, CxlS.setStream]
theorem State.setStream_stream_ne (s : State) (i j : StreamId) (v : StreamS) (h : j ≠ i) : (s.setStream i v).stream j = s.stream j := by
  simp only [State.setStream, State.stream, State.setCxl, CxlS.setStream]
  exact Map.get_set_ne _ _ _ _ _ _ fun e => h (Fin.ext e)

@[simp] theorem MemS.setCtrl_ctrl_self (m : MemS) (c : Nat) (v : MemCtrl) : (m.setCtrl c v).ctrl c = v := by
  simp [MemS.setCtrl, MemS.ctrl]
theorem MemS.setCtrl_ctrl_ne (m : MemS) (c d : Nat) (v : MemCtrl) (h : d ≠ c) : (m.setCtrl c v).ctrl d = m.ctrl d := by
  simp [MemS.setCtrl, MemS.ctrl, Map.get_set, h]

/-! ### The part an update writes -/

@[simp] theorem State.discard_tele (s : State) : s.discard.tele = s.tele.discard := rfl
@[simp] theorem State.answer_reply (s : State) (c : W32) (d : List Byte) : (s.answer c d).reply = ⟨c, d⟩ := rfl
@[simp] theorem State.drawn_fresh (s : State) : s.drawn.fresh = s.fresh + 1 := rfl
@[simp] theorem State.when_true (s : State) (f : State → State) : s.when true f = f s := rfl
@[simp] theorem State.when_false (s : State) (f : State → State) : s.when false f = s := rfl

/-! ### The fields of a tile under its updates -/

@[simp] theorem Tile.setSreg_health (x : Tile) (r : Nat) (v : W64) : (x.setSreg r v).health = x.health := rfl
@[simp] theorem Tile.setSreg_qmask (x : Tile) (r : Nat) (v : W64) : (x.setSreg r v).qmask = x.qmask := rfl
@[simp] theorem Tile.setSreg_phys (x : Tile) (r : Nat) (v : W64) : (x.setSreg r v).phys = x.phys := rfl
@[simp] theorem Tile.setSreg_repairRow (x : Tile) (r : Nat) (v : W64) : (x.setSreg r v).repairRow = x.repairRow := rfl
@[simp] theorem Tile.setSreg_repairCol (x : Tile) (r : Nat) (v : W64) : (x.setSreg r v).repairCol = x.repairCol := rfl
@[simp] theorem Tile.setSreg_failRows0 (x : Tile) (r : Nat) (v : W64) : (x.setSreg r v).failRows0 = x.failRows0 := rfl
@[simp] theorem Tile.setSreg_failRows1 (x : Tile) (r : Nat) (v : W64) : (x.setSreg r v).failRows1 = x.failRows1 := rfl
@[simp] theorem Tile.setSreg_failCols0 (x : Tile) (r : Nat) (v : W64) : (x.setSreg r v).failCols0 = x.failCols0 := rfl
@[simp] theorem Tile.setSreg_failCols1 (x : Tile) (r : Nat) (v : W64) : (x.setSreg r v).failCols1 = x.failCols1 := rfl
@[simp] theorem Tile.setSreg_xflags (x : Tile) (r : Nat) (v : W64) : (x.setSreg r v).xflags = x.xflags := rfl
@[simp] theorem Tile.setSreg_srSeed (x : Tile) (r : Nat) (v : W64) : (x.setSreg r v).srSeed = x.srSeed := rfl
@[simp] theorem Tile.setSreg_scale (x : Tile) (r : Nat) (v : W64) : (x.setSreg r v).scale = x.scale := rfl
@[simp] theorem Tile.setSreg_scaleNan (x : Tile) (r : Nat) (v : W64) : (x.setSreg r v).scaleNan = x.scaleNan := rfl
@[simp] theorem Tile.setSreg_bank0 (x : Tile) (r : Nat) (v : W64) : (x.setSreg r v).bank0 = x.bank0 := rfl
@[simp] theorem Tile.setSreg_bank1 (x : Tile) (r : Nat) (v : W64) : (x.setSreg r v).bank1 = x.bank1 := rfl
@[simp] theorem Tile.setSreg_seq (x : Tile) (r : Nat) (v : W64) : (x.setSreg r v).seq = x.seq := rfl
@[simp] theorem Tile.setSreg_pc (x : Tile) (r : Nat) (v : W64) : (x.setSreg r v).pc = x.pc := rfl
@[simp] theorem Tile.setSreg_vregs (x : Tile) (r : Nat) (v : W64) : (x.setSreg r v).vregs = x.vregs := rfl
@[simp] theorem Tile.setSreg_mregs (x : Tile) (r : Nat) (v : W64) : (x.setSreg r v).mregs = x.mregs := rfl
@[simp] theorem Tile.setSreg_tokens (x : Tile) (r : Nat) (v : W64) : (x.setSreg r v).tokens = x.tokens := rfl
@[simp] theorem Tile.setSreg_appended (x : Tile) (r : Nat) (v : W64) : (x.setSreg r v).appended = x.appended := rfl
@[simp] theorem Tile.setSreg_matrixQ (x : Tile) (r : Nat) (v : W64) : (x.setSreg r v).matrixQ = x.matrixQ := rfl
@[simp] theorem Tile.setSreg_vectorQ (x : Tile) (r : Nat) (v : W64) : (x.setSreg r v).vectorQ = x.vectorQ := rfl
@[simp] theorem Tile.setSreg_moveQ (x : Tile) (r : Nat) (v : W64) : (x.setSreg r v).moveQ = x.moveQ := rfl
@[simp] theorem Tile.setSreg_running (x : Tile) (r : Nat) (v : W64) : (x.setSreg r v).running = x.running := rfl
@[simp] theorem Tile.setSreg_rings (x : Tile) (r : Nat) (v : W64) : (x.setSreg r v).rings = x.rings := rfl
@[simp] theorem Tile.setSreg_waiting (x : Tile) (r : Nat) (v : W64) : (x.setSreg r v).waiting = x.waiting := rfl
@[simp] theorem Tile.setSreg_vdin (x : Tile) (r : Nat) (v : W64) : (x.setSreg r v).vdin = x.vdin := rfl
@[simp] theorem Tile.setSreg_drains (x : Tile) (r : Nat) (v : W64) : (x.setSreg r v).drains = x.drains := rfl
@[simp] theorem Tile.setSreg_descs (x : Tile) (r : Nat) (v : W64) : (x.setSreg r v).descs = x.descs := rfl
@[simp] theorem Tile.setSreg_sram (x : Tile) (r : Nat) (v : W64) : (x.setSreg r v).sram = x.sram := rfl
@[simp] theorem Tile.setSreg_xheld (x : Tile) (r : Nat) (v : W64) : (x.setSreg r v).xheld = x.xheld := rfl
@[simp] theorem Tile.setSreg_kernel (x : Tile) (r : Nat) (v : W64) : (x.setSreg r v).kernel = x.kernel := rfl
@[simp] theorem Tile.setSreg_logical (x : Tile) (r : Nat) (v : W64) : (x.setSreg r v).logical = x.logical := rfl
@[simp] theorem Tile.setSreg_tag (x : Tile) (r : Nat) (v : W64) : (x.setSreg r v).tag = x.tag := rfl
@[simp] theorem Tile.setSreg_recBase (x : Tile) (r : Nat) (v : W64) : (x.setSreg r v).recBase = x.recBase := rfl
@[simp] theorem Tile.setSreg_sramBytes (x : Tile) (r : Nat) (v : W64) : (x.setSreg r v).sramBytes = x.sramBytes := rfl
@[simp] theorem Tile.setSreg_stop (x : Tile) (r : Nat) (v : W64) : (x.setSreg r v).stop = x.stop := rfl
@[simp] theorem Tile.setSreg_failPc (x : Tile) (r : Nat) (v : W64) : (x.setSreg r v).failPc = x.failPc := rfl
@[simp] theorem Tile.setSreg_ownStop (x : Tile) (r : Nat) (v : W64) : (x.setSreg r v).ownStop = x.ownStop := rfl
@[simp] theorem Tile.setSreg_stopDue (x : Tile) (r : Nat) (v : W64) : (x.setSreg r v).stopDue = x.stopDue := rfl
@[simp] theorem Tile.setMreg_health (x : Tile) (r : Nat) (v : BitVec 128) : (x.setMreg r v).health = x.health := rfl
@[simp] theorem Tile.setMreg_qmask (x : Tile) (r : Nat) (v : BitVec 128) : (x.setMreg r v).qmask = x.qmask := rfl
@[simp] theorem Tile.setMreg_phys (x : Tile) (r : Nat) (v : BitVec 128) : (x.setMreg r v).phys = x.phys := rfl
@[simp] theorem Tile.setMreg_repairRow (x : Tile) (r : Nat) (v : BitVec 128) : (x.setMreg r v).repairRow = x.repairRow := rfl
@[simp] theorem Tile.setMreg_repairCol (x : Tile) (r : Nat) (v : BitVec 128) : (x.setMreg r v).repairCol = x.repairCol := rfl
@[simp] theorem Tile.setMreg_failRows0 (x : Tile) (r : Nat) (v : BitVec 128) : (x.setMreg r v).failRows0 = x.failRows0 := rfl
@[simp] theorem Tile.setMreg_failRows1 (x : Tile) (r : Nat) (v : BitVec 128) : (x.setMreg r v).failRows1 = x.failRows1 := rfl
@[simp] theorem Tile.setMreg_failCols0 (x : Tile) (r : Nat) (v : BitVec 128) : (x.setMreg r v).failCols0 = x.failCols0 := rfl
@[simp] theorem Tile.setMreg_failCols1 (x : Tile) (r : Nat) (v : BitVec 128) : (x.setMreg r v).failCols1 = x.failCols1 := rfl
@[simp] theorem Tile.setMreg_xflags (x : Tile) (r : Nat) (v : BitVec 128) : (x.setMreg r v).xflags = x.xflags := rfl
@[simp] theorem Tile.setMreg_srSeed (x : Tile) (r : Nat) (v : BitVec 128) : (x.setMreg r v).srSeed = x.srSeed := rfl
@[simp] theorem Tile.setMreg_scale (x : Tile) (r : Nat) (v : BitVec 128) : (x.setMreg r v).scale = x.scale := rfl
@[simp] theorem Tile.setMreg_scaleNan (x : Tile) (r : Nat) (v : BitVec 128) : (x.setMreg r v).scaleNan = x.scaleNan := rfl
@[simp] theorem Tile.setMreg_bank0 (x : Tile) (r : Nat) (v : BitVec 128) : (x.setMreg r v).bank0 = x.bank0 := rfl
@[simp] theorem Tile.setMreg_bank1 (x : Tile) (r : Nat) (v : BitVec 128) : (x.setMreg r v).bank1 = x.bank1 := rfl
@[simp] theorem Tile.setMreg_seq (x : Tile) (r : Nat) (v : BitVec 128) : (x.setMreg r v).seq = x.seq := rfl
@[simp] theorem Tile.setMreg_pc (x : Tile) (r : Nat) (v : BitVec 128) : (x.setMreg r v).pc = x.pc := rfl
@[simp] theorem Tile.setMreg_sregs (x : Tile) (r : Nat) (v : BitVec 128) : (x.setMreg r v).sregs = x.sregs := rfl
@[simp] theorem Tile.setMreg_vregs (x : Tile) (r : Nat) (v : BitVec 128) : (x.setMreg r v).vregs = x.vregs := rfl
@[simp] theorem Tile.setMreg_tokens (x : Tile) (r : Nat) (v : BitVec 128) : (x.setMreg r v).tokens = x.tokens := rfl
@[simp] theorem Tile.setMreg_appended (x : Tile) (r : Nat) (v : BitVec 128) : (x.setMreg r v).appended = x.appended := rfl
@[simp] theorem Tile.setMreg_matrixQ (x : Tile) (r : Nat) (v : BitVec 128) : (x.setMreg r v).matrixQ = x.matrixQ := rfl
@[simp] theorem Tile.setMreg_vectorQ (x : Tile) (r : Nat) (v : BitVec 128) : (x.setMreg r v).vectorQ = x.vectorQ := rfl
@[simp] theorem Tile.setMreg_moveQ (x : Tile) (r : Nat) (v : BitVec 128) : (x.setMreg r v).moveQ = x.moveQ := rfl
@[simp] theorem Tile.setMreg_running (x : Tile) (r : Nat) (v : BitVec 128) : (x.setMreg r v).running = x.running := rfl
@[simp] theorem Tile.setMreg_rings (x : Tile) (r : Nat) (v : BitVec 128) : (x.setMreg r v).rings = x.rings := rfl
@[simp] theorem Tile.setMreg_waiting (x : Tile) (r : Nat) (v : BitVec 128) : (x.setMreg r v).waiting = x.waiting := rfl
@[simp] theorem Tile.setMreg_vdin (x : Tile) (r : Nat) (v : BitVec 128) : (x.setMreg r v).vdin = x.vdin := rfl
@[simp] theorem Tile.setMreg_drains (x : Tile) (r : Nat) (v : BitVec 128) : (x.setMreg r v).drains = x.drains := rfl
@[simp] theorem Tile.setMreg_descs (x : Tile) (r : Nat) (v : BitVec 128) : (x.setMreg r v).descs = x.descs := rfl
@[simp] theorem Tile.setMreg_sram (x : Tile) (r : Nat) (v : BitVec 128) : (x.setMreg r v).sram = x.sram := rfl
@[simp] theorem Tile.setMreg_xheld (x : Tile) (r : Nat) (v : BitVec 128) : (x.setMreg r v).xheld = x.xheld := rfl
@[simp] theorem Tile.setMreg_kernel (x : Tile) (r : Nat) (v : BitVec 128) : (x.setMreg r v).kernel = x.kernel := rfl
@[simp] theorem Tile.setMreg_logical (x : Tile) (r : Nat) (v : BitVec 128) : (x.setMreg r v).logical = x.logical := rfl
@[simp] theorem Tile.setMreg_tag (x : Tile) (r : Nat) (v : BitVec 128) : (x.setMreg r v).tag = x.tag := rfl
@[simp] theorem Tile.setMreg_recBase (x : Tile) (r : Nat) (v : BitVec 128) : (x.setMreg r v).recBase = x.recBase := rfl
@[simp] theorem Tile.setMreg_sramBytes (x : Tile) (r : Nat) (v : BitVec 128) : (x.setMreg r v).sramBytes = x.sramBytes := rfl
@[simp] theorem Tile.setMreg_stop (x : Tile) (r : Nat) (v : BitVec 128) : (x.setMreg r v).stop = x.stop := rfl
@[simp] theorem Tile.setMreg_failPc (x : Tile) (r : Nat) (v : BitVec 128) : (x.setMreg r v).failPc = x.failPc := rfl
@[simp] theorem Tile.setMreg_ownStop (x : Tile) (r : Nat) (v : BitVec 128) : (x.setMreg r v).ownStop = x.ownStop := rfl
@[simp] theorem Tile.setMreg_stopDue (x : Tile) (r : Nat) (v : BitVec 128) : (x.setMreg r v).stopDue = x.stopDue := rfl
@[simp] theorem Tile.store_health (x : Tile) (a : Nat) (bs : List Byte) : (x.store a bs).health = x.health := rfl
@[simp] theorem Tile.store_qmask (x : Tile) (a : Nat) (bs : List Byte) : (x.store a bs).qmask = x.qmask := rfl
@[simp] theorem Tile.store_phys (x : Tile) (a : Nat) (bs : List Byte) : (x.store a bs).phys = x.phys := rfl
@[simp] theorem Tile.store_repairRow (x : Tile) (a : Nat) (bs : List Byte) : (x.store a bs).repairRow = x.repairRow := rfl
@[simp] theorem Tile.store_repairCol (x : Tile) (a : Nat) (bs : List Byte) : (x.store a bs).repairCol = x.repairCol := rfl
@[simp] theorem Tile.store_failRows0 (x : Tile) (a : Nat) (bs : List Byte) : (x.store a bs).failRows0 = x.failRows0 := rfl
@[simp] theorem Tile.store_failRows1 (x : Tile) (a : Nat) (bs : List Byte) : (x.store a bs).failRows1 = x.failRows1 := rfl
@[simp] theorem Tile.store_failCols0 (x : Tile) (a : Nat) (bs : List Byte) : (x.store a bs).failCols0 = x.failCols0 := rfl
@[simp] theorem Tile.store_failCols1 (x : Tile) (a : Nat) (bs : List Byte) : (x.store a bs).failCols1 = x.failCols1 := rfl
@[simp] theorem Tile.store_xflags (x : Tile) (a : Nat) (bs : List Byte) : (x.store a bs).xflags = x.xflags := rfl
@[simp] theorem Tile.store_srSeed (x : Tile) (a : Nat) (bs : List Byte) : (x.store a bs).srSeed = x.srSeed := rfl
@[simp] theorem Tile.store_scale (x : Tile) (a : Nat) (bs : List Byte) : (x.store a bs).scale = x.scale := rfl
@[simp] theorem Tile.store_scaleNan (x : Tile) (a : Nat) (bs : List Byte) : (x.store a bs).scaleNan = x.scaleNan := rfl
@[simp] theorem Tile.store_bank0 (x : Tile) (a : Nat) (bs : List Byte) : (x.store a bs).bank0 = x.bank0 := rfl
@[simp] theorem Tile.store_bank1 (x : Tile) (a : Nat) (bs : List Byte) : (x.store a bs).bank1 = x.bank1 := rfl
@[simp] theorem Tile.store_seq (x : Tile) (a : Nat) (bs : List Byte) : (x.store a bs).seq = x.seq := rfl
@[simp] theorem Tile.store_pc (x : Tile) (a : Nat) (bs : List Byte) : (x.store a bs).pc = x.pc := rfl
@[simp] theorem Tile.store_sregs (x : Tile) (a : Nat) (bs : List Byte) : (x.store a bs).sregs = x.sregs := rfl
@[simp] theorem Tile.store_vregs (x : Tile) (a : Nat) (bs : List Byte) : (x.store a bs).vregs = x.vregs := rfl
@[simp] theorem Tile.store_mregs (x : Tile) (a : Nat) (bs : List Byte) : (x.store a bs).mregs = x.mregs := rfl
@[simp] theorem Tile.store_tokens (x : Tile) (a : Nat) (bs : List Byte) : (x.store a bs).tokens = x.tokens := rfl
@[simp] theorem Tile.store_appended (x : Tile) (a : Nat) (bs : List Byte) : (x.store a bs).appended = x.appended := rfl
@[simp] theorem Tile.store_matrixQ (x : Tile) (a : Nat) (bs : List Byte) : (x.store a bs).matrixQ = x.matrixQ := rfl
@[simp] theorem Tile.store_vectorQ (x : Tile) (a : Nat) (bs : List Byte) : (x.store a bs).vectorQ = x.vectorQ := rfl
@[simp] theorem Tile.store_moveQ (x : Tile) (a : Nat) (bs : List Byte) : (x.store a bs).moveQ = x.moveQ := rfl
@[simp] theorem Tile.store_running (x : Tile) (a : Nat) (bs : List Byte) : (x.store a bs).running = x.running := rfl
@[simp] theorem Tile.store_rings (x : Tile) (a : Nat) (bs : List Byte) : (x.store a bs).rings = x.rings := rfl
@[simp] theorem Tile.store_waiting (x : Tile) (a : Nat) (bs : List Byte) : (x.store a bs).waiting = x.waiting := rfl
@[simp] theorem Tile.store_vdin (x : Tile) (a : Nat) (bs : List Byte) : (x.store a bs).vdin = x.vdin := rfl
@[simp] theorem Tile.store_drains (x : Tile) (a : Nat) (bs : List Byte) : (x.store a bs).drains = x.drains := rfl
@[simp] theorem Tile.store_descs (x : Tile) (a : Nat) (bs : List Byte) : (x.store a bs).descs = x.descs := rfl
@[simp] theorem Tile.store_kernel (x : Tile) (a : Nat) (bs : List Byte) : (x.store a bs).kernel = x.kernel := rfl
@[simp] theorem Tile.store_logical (x : Tile) (a : Nat) (bs : List Byte) : (x.store a bs).logical = x.logical := rfl
@[simp] theorem Tile.store_tag (x : Tile) (a : Nat) (bs : List Byte) : (x.store a bs).tag = x.tag := rfl
@[simp] theorem Tile.store_recBase (x : Tile) (a : Nat) (bs : List Byte) : (x.store a bs).recBase = x.recBase := rfl
@[simp] theorem Tile.store_sramBytes (x : Tile) (a : Nat) (bs : List Byte) : (x.store a bs).sramBytes = x.sramBytes := rfl
@[simp] theorem Tile.store_stop (x : Tile) (a : Nat) (bs : List Byte) : (x.store a bs).stop = x.stop := rfl
@[simp] theorem Tile.store_failPc (x : Tile) (a : Nat) (bs : List Byte) : (x.store a bs).failPc = x.failPc := rfl
@[simp] theorem Tile.store_ownStop (x : Tile) (a : Nat) (bs : List Byte) : (x.store a bs).ownStop = x.ownStop := rfl
@[simp] theorem Tile.store_stopDue (x : Tile) (a : Nat) (bs : List Byte) : (x.store a bs).stopDue = x.stopDue := rfl
@[simp] theorem Tile.storeOwn_health (x : Tile) (a : Nat) (bs : List Byte) : (x.storeOwn a bs).health = x.health := rfl
@[simp] theorem Tile.storeOwn_qmask (x : Tile) (a : Nat) (bs : List Byte) : (x.storeOwn a bs).qmask = x.qmask := rfl
@[simp] theorem Tile.storeOwn_phys (x : Tile) (a : Nat) (bs : List Byte) : (x.storeOwn a bs).phys = x.phys := rfl
@[simp] theorem Tile.storeOwn_repairRow (x : Tile) (a : Nat) (bs : List Byte) : (x.storeOwn a bs).repairRow = x.repairRow := rfl
@[simp] theorem Tile.storeOwn_repairCol (x : Tile) (a : Nat) (bs : List Byte) : (x.storeOwn a bs).repairCol = x.repairCol := rfl
@[simp] theorem Tile.storeOwn_failRows0 (x : Tile) (a : Nat) (bs : List Byte) : (x.storeOwn a bs).failRows0 = x.failRows0 := rfl
@[simp] theorem Tile.storeOwn_failRows1 (x : Tile) (a : Nat) (bs : List Byte) : (x.storeOwn a bs).failRows1 = x.failRows1 := rfl
@[simp] theorem Tile.storeOwn_failCols0 (x : Tile) (a : Nat) (bs : List Byte) : (x.storeOwn a bs).failCols0 = x.failCols0 := rfl
@[simp] theorem Tile.storeOwn_failCols1 (x : Tile) (a : Nat) (bs : List Byte) : (x.storeOwn a bs).failCols1 = x.failCols1 := rfl
@[simp] theorem Tile.storeOwn_xflags (x : Tile) (a : Nat) (bs : List Byte) : (x.storeOwn a bs).xflags = x.xflags := rfl
@[simp] theorem Tile.storeOwn_srSeed (x : Tile) (a : Nat) (bs : List Byte) : (x.storeOwn a bs).srSeed = x.srSeed := rfl
@[simp] theorem Tile.storeOwn_scale (x : Tile) (a : Nat) (bs : List Byte) : (x.storeOwn a bs).scale = x.scale := rfl
@[simp] theorem Tile.storeOwn_scaleNan (x : Tile) (a : Nat) (bs : List Byte) : (x.storeOwn a bs).scaleNan = x.scaleNan := rfl
@[simp] theorem Tile.storeOwn_bank0 (x : Tile) (a : Nat) (bs : List Byte) : (x.storeOwn a bs).bank0 = x.bank0 := rfl
@[simp] theorem Tile.storeOwn_bank1 (x : Tile) (a : Nat) (bs : List Byte) : (x.storeOwn a bs).bank1 = x.bank1 := rfl
@[simp] theorem Tile.storeOwn_seq (x : Tile) (a : Nat) (bs : List Byte) : (x.storeOwn a bs).seq = x.seq := rfl
@[simp] theorem Tile.storeOwn_pc (x : Tile) (a : Nat) (bs : List Byte) : (x.storeOwn a bs).pc = x.pc := rfl
@[simp] theorem Tile.storeOwn_sregs (x : Tile) (a : Nat) (bs : List Byte) : (x.storeOwn a bs).sregs = x.sregs := rfl
@[simp] theorem Tile.storeOwn_vregs (x : Tile) (a : Nat) (bs : List Byte) : (x.storeOwn a bs).vregs = x.vregs := rfl
@[simp] theorem Tile.storeOwn_mregs (x : Tile) (a : Nat) (bs : List Byte) : (x.storeOwn a bs).mregs = x.mregs := rfl
@[simp] theorem Tile.storeOwn_tokens (x : Tile) (a : Nat) (bs : List Byte) : (x.storeOwn a bs).tokens = x.tokens := rfl
@[simp] theorem Tile.storeOwn_appended (x : Tile) (a : Nat) (bs : List Byte) : (x.storeOwn a bs).appended = x.appended := rfl
@[simp] theorem Tile.storeOwn_matrixQ (x : Tile) (a : Nat) (bs : List Byte) : (x.storeOwn a bs).matrixQ = x.matrixQ := rfl
@[simp] theorem Tile.storeOwn_vectorQ (x : Tile) (a : Nat) (bs : List Byte) : (x.storeOwn a bs).vectorQ = x.vectorQ := rfl
@[simp] theorem Tile.storeOwn_moveQ (x : Tile) (a : Nat) (bs : List Byte) : (x.storeOwn a bs).moveQ = x.moveQ := rfl
@[simp] theorem Tile.storeOwn_running (x : Tile) (a : Nat) (bs : List Byte) : (x.storeOwn a bs).running = x.running := rfl
@[simp] theorem Tile.storeOwn_rings (x : Tile) (a : Nat) (bs : List Byte) : (x.storeOwn a bs).rings = x.rings := rfl
@[simp] theorem Tile.storeOwn_waiting (x : Tile) (a : Nat) (bs : List Byte) : (x.storeOwn a bs).waiting = x.waiting := rfl
@[simp] theorem Tile.storeOwn_vdin (x : Tile) (a : Nat) (bs : List Byte) : (x.storeOwn a bs).vdin = x.vdin := rfl
@[simp] theorem Tile.storeOwn_drains (x : Tile) (a : Nat) (bs : List Byte) : (x.storeOwn a bs).drains = x.drains := rfl
@[simp] theorem Tile.storeOwn_descs (x : Tile) (a : Nat) (bs : List Byte) : (x.storeOwn a bs).descs = x.descs := rfl
@[simp] theorem Tile.storeOwn_xheld (x : Tile) (a : Nat) (bs : List Byte) : (x.storeOwn a bs).xheld = x.xheld := rfl
@[simp] theorem Tile.storeOwn_kernel (x : Tile) (a : Nat) (bs : List Byte) : (x.storeOwn a bs).kernel = x.kernel := rfl
@[simp] theorem Tile.storeOwn_logical (x : Tile) (a : Nat) (bs : List Byte) : (x.storeOwn a bs).logical = x.logical := rfl
@[simp] theorem Tile.storeOwn_tag (x : Tile) (a : Nat) (bs : List Byte) : (x.storeOwn a bs).tag = x.tag := rfl
@[simp] theorem Tile.storeOwn_recBase (x : Tile) (a : Nat) (bs : List Byte) : (x.storeOwn a bs).recBase = x.recBase := rfl
@[simp] theorem Tile.storeOwn_sramBytes (x : Tile) (a : Nat) (bs : List Byte) : (x.storeOwn a bs).sramBytes = x.sramBytes := rfl
@[simp] theorem Tile.storeOwn_stop (x : Tile) (a : Nat) (bs : List Byte) : (x.storeOwn a bs).stop = x.stop := rfl
@[simp] theorem Tile.storeOwn_failPc (x : Tile) (a : Nat) (bs : List Byte) : (x.storeOwn a bs).failPc = x.failPc := rfl
@[simp] theorem Tile.storeOwn_ownStop (x : Tile) (a : Nat) (bs : List Byte) : (x.storeOwn a bs).ownStop = x.ownStop := rfl
@[simp] theorem Tile.storeOwn_stopDue (x : Tile) (a : Nat) (bs : List Byte) : (x.storeOwn a bs).stopDue = x.stopDue := rfl
@[simp] theorem Tile.raise_health (x : Tile) (f : BitVec 7) : (x.raise f).health = x.health := rfl
@[simp] theorem Tile.raise_qmask (x : Tile) (f : BitVec 7) : (x.raise f).qmask = x.qmask := rfl
@[simp] theorem Tile.raise_phys (x : Tile) (f : BitVec 7) : (x.raise f).phys = x.phys := rfl
@[simp] theorem Tile.raise_repairRow (x : Tile) (f : BitVec 7) : (x.raise f).repairRow = x.repairRow := rfl
@[simp] theorem Tile.raise_repairCol (x : Tile) (f : BitVec 7) : (x.raise f).repairCol = x.repairCol := rfl
@[simp] theorem Tile.raise_failRows0 (x : Tile) (f : BitVec 7) : (x.raise f).failRows0 = x.failRows0 := rfl
@[simp] theorem Tile.raise_failRows1 (x : Tile) (f : BitVec 7) : (x.raise f).failRows1 = x.failRows1 := rfl
@[simp] theorem Tile.raise_failCols0 (x : Tile) (f : BitVec 7) : (x.raise f).failCols0 = x.failCols0 := rfl
@[simp] theorem Tile.raise_failCols1 (x : Tile) (f : BitVec 7) : (x.raise f).failCols1 = x.failCols1 := rfl
@[simp] theorem Tile.raise_srSeed (x : Tile) (f : BitVec 7) : (x.raise f).srSeed = x.srSeed := rfl
@[simp] theorem Tile.raise_scale (x : Tile) (f : BitVec 7) : (x.raise f).scale = x.scale := rfl
@[simp] theorem Tile.raise_scaleNan (x : Tile) (f : BitVec 7) : (x.raise f).scaleNan = x.scaleNan := rfl
@[simp] theorem Tile.raise_bank0 (x : Tile) (f : BitVec 7) : (x.raise f).bank0 = x.bank0 := rfl
@[simp] theorem Tile.raise_bank1 (x : Tile) (f : BitVec 7) : (x.raise f).bank1 = x.bank1 := rfl
@[simp] theorem Tile.raise_seq (x : Tile) (f : BitVec 7) : (x.raise f).seq = x.seq := rfl
@[simp] theorem Tile.raise_pc (x : Tile) (f : BitVec 7) : (x.raise f).pc = x.pc := rfl
@[simp] theorem Tile.raise_sregs (x : Tile) (f : BitVec 7) : (x.raise f).sregs = x.sregs := rfl
@[simp] theorem Tile.raise_vregs (x : Tile) (f : BitVec 7) : (x.raise f).vregs = x.vregs := rfl
@[simp] theorem Tile.raise_mregs (x : Tile) (f : BitVec 7) : (x.raise f).mregs = x.mregs := rfl
@[simp] theorem Tile.raise_tokens (x : Tile) (f : BitVec 7) : (x.raise f).tokens = x.tokens := rfl
@[simp] theorem Tile.raise_appended (x : Tile) (f : BitVec 7) : (x.raise f).appended = x.appended := rfl
@[simp] theorem Tile.raise_matrixQ (x : Tile) (f : BitVec 7) : (x.raise f).matrixQ = x.matrixQ := rfl
@[simp] theorem Tile.raise_vectorQ (x : Tile) (f : BitVec 7) : (x.raise f).vectorQ = x.vectorQ := rfl
@[simp] theorem Tile.raise_moveQ (x : Tile) (f : BitVec 7) : (x.raise f).moveQ = x.moveQ := rfl
@[simp] theorem Tile.raise_running (x : Tile) (f : BitVec 7) : (x.raise f).running = x.running := rfl
@[simp] theorem Tile.raise_rings (x : Tile) (f : BitVec 7) : (x.raise f).rings = x.rings := rfl
@[simp] theorem Tile.raise_waiting (x : Tile) (f : BitVec 7) : (x.raise f).waiting = x.waiting := rfl
@[simp] theorem Tile.raise_vdin (x : Tile) (f : BitVec 7) : (x.raise f).vdin = x.vdin := rfl
@[simp] theorem Tile.raise_drains (x : Tile) (f : BitVec 7) : (x.raise f).drains = x.drains := rfl
@[simp] theorem Tile.raise_descs (x : Tile) (f : BitVec 7) : (x.raise f).descs = x.descs := rfl
@[simp] theorem Tile.raise_sram (x : Tile) (f : BitVec 7) : (x.raise f).sram = x.sram := rfl
@[simp] theorem Tile.raise_xheld (x : Tile) (f : BitVec 7) : (x.raise f).xheld = x.xheld := rfl
@[simp] theorem Tile.raise_kernel (x : Tile) (f : BitVec 7) : (x.raise f).kernel = x.kernel := rfl
@[simp] theorem Tile.raise_logical (x : Tile) (f : BitVec 7) : (x.raise f).logical = x.logical := rfl
@[simp] theorem Tile.raise_tag (x : Tile) (f : BitVec 7) : (x.raise f).tag = x.tag := rfl
@[simp] theorem Tile.raise_recBase (x : Tile) (f : BitVec 7) : (x.raise f).recBase = x.recBase := rfl
@[simp] theorem Tile.raise_sramBytes (x : Tile) (f : BitVec 7) : (x.raise f).sramBytes = x.sramBytes := rfl
@[simp] theorem Tile.raise_stop (x : Tile) (f : BitVec 7) : (x.raise f).stop = x.stop := rfl
@[simp] theorem Tile.raise_failPc (x : Tile) (f : BitVec 7) : (x.raise f).failPc = x.failPc := rfl
@[simp] theorem Tile.raise_ownStop (x : Tile) (f : BitVec 7) : (x.raise f).ownStop = x.ownStop := rfl
@[simp] theorem Tile.raise_stopDue (x : Tile) (f : BitVec 7) : (x.raise f).stopDue = x.stopDue := rfl
@[simp] theorem Tile.takeTok_health (x : Tile) (k : Tok) : (x.takeTok k).health = x.health := by unfold Tile.takeTok; split <;> rfl
@[simp] theorem Tile.takeTok_qmask (x : Tile) (k : Tok) : (x.takeTok k).qmask = x.qmask := by unfold Tile.takeTok; split <;> rfl
@[simp] theorem Tile.takeTok_phys (x : Tile) (k : Tok) : (x.takeTok k).phys = x.phys := by unfold Tile.takeTok; split <;> rfl
@[simp] theorem Tile.takeTok_repairRow (x : Tile) (k : Tok) : (x.takeTok k).repairRow = x.repairRow := by unfold Tile.takeTok; split <;> rfl
@[simp] theorem Tile.takeTok_repairCol (x : Tile) (k : Tok) : (x.takeTok k).repairCol = x.repairCol := by unfold Tile.takeTok; split <;> rfl
@[simp] theorem Tile.takeTok_failRows0 (x : Tile) (k : Tok) : (x.takeTok k).failRows0 = x.failRows0 := by unfold Tile.takeTok; split <;> rfl
@[simp] theorem Tile.takeTok_failRows1 (x : Tile) (k : Tok) : (x.takeTok k).failRows1 = x.failRows1 := by unfold Tile.takeTok; split <;> rfl
@[simp] theorem Tile.takeTok_failCols0 (x : Tile) (k : Tok) : (x.takeTok k).failCols0 = x.failCols0 := by unfold Tile.takeTok; split <;> rfl
@[simp] theorem Tile.takeTok_failCols1 (x : Tile) (k : Tok) : (x.takeTok k).failCols1 = x.failCols1 := by unfold Tile.takeTok; split <;> rfl
@[simp] theorem Tile.takeTok_xflags (x : Tile) (k : Tok) : (x.takeTok k).xflags = x.xflags := by unfold Tile.takeTok; split <;> rfl
@[simp] theorem Tile.takeTok_srSeed (x : Tile) (k : Tok) : (x.takeTok k).srSeed = x.srSeed := by unfold Tile.takeTok; split <;> rfl
@[simp] theorem Tile.takeTok_scale (x : Tile) (k : Tok) : (x.takeTok k).scale = x.scale := by unfold Tile.takeTok; split <;> rfl
@[simp] theorem Tile.takeTok_scaleNan (x : Tile) (k : Tok) : (x.takeTok k).scaleNan = x.scaleNan := by unfold Tile.takeTok; split <;> rfl
@[simp] theorem Tile.takeTok_bank0 (x : Tile) (k : Tok) : (x.takeTok k).bank0 = x.bank0 := by unfold Tile.takeTok; split <;> rfl
@[simp] theorem Tile.takeTok_bank1 (x : Tile) (k : Tok) : (x.takeTok k).bank1 = x.bank1 := by unfold Tile.takeTok; split <;> rfl
@[simp] theorem Tile.takeTok_seq (x : Tile) (k : Tok) : (x.takeTok k).seq = x.seq := by unfold Tile.takeTok; split <;> rfl
@[simp] theorem Tile.takeTok_pc (x : Tile) (k : Tok) : (x.takeTok k).pc = x.pc := by unfold Tile.takeTok; split <;> rfl
@[simp] theorem Tile.takeTok_sregs (x : Tile) (k : Tok) : (x.takeTok k).sregs = x.sregs := by unfold Tile.takeTok; split <;> rfl
@[simp] theorem Tile.takeTok_vregs (x : Tile) (k : Tok) : (x.takeTok k).vregs = x.vregs := by unfold Tile.takeTok; split <;> rfl
@[simp] theorem Tile.takeTok_mregs (x : Tile) (k : Tok) : (x.takeTok k).mregs = x.mregs := by unfold Tile.takeTok; split <;> rfl
@[simp] theorem Tile.takeTok_appended (x : Tile) (k : Tok) : (x.takeTok k).appended = x.appended := by unfold Tile.takeTok; split <;> rfl
@[simp] theorem Tile.takeTok_matrixQ (x : Tile) (k : Tok) : (x.takeTok k).matrixQ = x.matrixQ := by unfold Tile.takeTok; split <;> rfl
@[simp] theorem Tile.takeTok_vectorQ (x : Tile) (k : Tok) : (x.takeTok k).vectorQ = x.vectorQ := by unfold Tile.takeTok; split <;> rfl
@[simp] theorem Tile.takeTok_moveQ (x : Tile) (k : Tok) : (x.takeTok k).moveQ = x.moveQ := by unfold Tile.takeTok; split <;> rfl
@[simp] theorem Tile.takeTok_running (x : Tile) (k : Tok) : (x.takeTok k).running = x.running := by unfold Tile.takeTok; split <;> rfl
@[simp] theorem Tile.takeTok_rings (x : Tile) (k : Tok) : (x.takeTok k).rings = x.rings := by unfold Tile.takeTok; split <;> rfl
@[simp] theorem Tile.takeTok_waiting (x : Tile) (k : Tok) : (x.takeTok k).waiting = x.waiting := by unfold Tile.takeTok; split <;> rfl
@[simp] theorem Tile.takeTok_vdin (x : Tile) (k : Tok) : (x.takeTok k).vdin = x.vdin := by unfold Tile.takeTok; split <;> rfl
@[simp] theorem Tile.takeTok_drains (x : Tile) (k : Tok) : (x.takeTok k).drains = x.drains := by unfold Tile.takeTok; split <;> rfl
@[simp] theorem Tile.takeTok_descs (x : Tile) (k : Tok) : (x.takeTok k).descs = x.descs := by unfold Tile.takeTok; split <;> rfl
@[simp] theorem Tile.takeTok_sram (x : Tile) (k : Tok) : (x.takeTok k).sram = x.sram := by unfold Tile.takeTok; split <;> rfl
@[simp] theorem Tile.takeTok_xheld (x : Tile) (k : Tok) : (x.takeTok k).xheld = x.xheld := by unfold Tile.takeTok; split <;> rfl
@[simp] theorem Tile.takeTok_kernel (x : Tile) (k : Tok) : (x.takeTok k).kernel = x.kernel := by unfold Tile.takeTok; split <;> rfl
@[simp] theorem Tile.takeTok_logical (x : Tile) (k : Tok) : (x.takeTok k).logical = x.logical := by unfold Tile.takeTok; split <;> rfl
@[simp] theorem Tile.takeTok_tag (x : Tile) (k : Tok) : (x.takeTok k).tag = x.tag := by unfold Tile.takeTok; split <;> rfl
@[simp] theorem Tile.takeTok_recBase (x : Tile) (k : Tok) : (x.takeTok k).recBase = x.recBase := by unfold Tile.takeTok; split <;> rfl
@[simp] theorem Tile.takeTok_sramBytes (x : Tile) (k : Tok) : (x.takeTok k).sramBytes = x.sramBytes := by unfold Tile.takeTok; split <;> rfl
@[simp] theorem Tile.takeTok_stop (x : Tile) (k : Tok) : (x.takeTok k).stop = x.stop := by unfold Tile.takeTok; split <;> rfl
@[simp] theorem Tile.takeTok_failPc (x : Tile) (k : Tok) : (x.takeTok k).failPc = x.failPc := by unfold Tile.takeTok; split <;> rfl
@[simp] theorem Tile.takeTok_ownStop (x : Tile) (k : Tok) : (x.takeTok k).ownStop = x.ownStop := by unfold Tile.takeTok; split <;> rfl
@[simp] theorem Tile.takeTok_stopDue (x : Tile) (k : Tok) : (x.takeTok k).stopDue = x.stopDue := by unfold Tile.takeTok; split <;> rfl
@[simp] theorem Tile.setQueue_health (x : Tile) (e : Engine) (q : List QEntry) : (x.setQueue e q).health = x.health := by cases e <;> rfl
@[simp] theorem Tile.setQueue_qmask (x : Tile) (e : Engine) (q : List QEntry) : (x.setQueue e q).qmask = x.qmask := by cases e <;> rfl
@[simp] theorem Tile.setQueue_phys (x : Tile) (e : Engine) (q : List QEntry) : (x.setQueue e q).phys = x.phys := by cases e <;> rfl
@[simp] theorem Tile.setQueue_repairRow (x : Tile) (e : Engine) (q : List QEntry) : (x.setQueue e q).repairRow = x.repairRow := by cases e <;> rfl
@[simp] theorem Tile.setQueue_repairCol (x : Tile) (e : Engine) (q : List QEntry) : (x.setQueue e q).repairCol = x.repairCol := by cases e <;> rfl
@[simp] theorem Tile.setQueue_failRows0 (x : Tile) (e : Engine) (q : List QEntry) : (x.setQueue e q).failRows0 = x.failRows0 := by cases e <;> rfl
@[simp] theorem Tile.setQueue_failRows1 (x : Tile) (e : Engine) (q : List QEntry) : (x.setQueue e q).failRows1 = x.failRows1 := by cases e <;> rfl
@[simp] theorem Tile.setQueue_failCols0 (x : Tile) (e : Engine) (q : List QEntry) : (x.setQueue e q).failCols0 = x.failCols0 := by cases e <;> rfl
@[simp] theorem Tile.setQueue_failCols1 (x : Tile) (e : Engine) (q : List QEntry) : (x.setQueue e q).failCols1 = x.failCols1 := by cases e <;> rfl
@[simp] theorem Tile.setQueue_xflags (x : Tile) (e : Engine) (q : List QEntry) : (x.setQueue e q).xflags = x.xflags := by cases e <;> rfl
@[simp] theorem Tile.setQueue_srSeed (x : Tile) (e : Engine) (q : List QEntry) : (x.setQueue e q).srSeed = x.srSeed := by cases e <;> rfl
@[simp] theorem Tile.setQueue_scale (x : Tile) (e : Engine) (q : List QEntry) : (x.setQueue e q).scale = x.scale := by cases e <;> rfl
@[simp] theorem Tile.setQueue_scaleNan (x : Tile) (e : Engine) (q : List QEntry) : (x.setQueue e q).scaleNan = x.scaleNan := by cases e <;> rfl
@[simp] theorem Tile.setQueue_bank0 (x : Tile) (e : Engine) (q : List QEntry) : (x.setQueue e q).bank0 = x.bank0 := by cases e <;> rfl
@[simp] theorem Tile.setQueue_bank1 (x : Tile) (e : Engine) (q : List QEntry) : (x.setQueue e q).bank1 = x.bank1 := by cases e <;> rfl
@[simp] theorem Tile.setQueue_seq (x : Tile) (e : Engine) (q : List QEntry) : (x.setQueue e q).seq = x.seq := by cases e <;> rfl
@[simp] theorem Tile.setQueue_pc (x : Tile) (e : Engine) (q : List QEntry) : (x.setQueue e q).pc = x.pc := by cases e <;> rfl
@[simp] theorem Tile.setQueue_sregs (x : Tile) (e : Engine) (q : List QEntry) : (x.setQueue e q).sregs = x.sregs := by cases e <;> rfl
@[simp] theorem Tile.setQueue_vregs (x : Tile) (e : Engine) (q : List QEntry) : (x.setQueue e q).vregs = x.vregs := by cases e <;> rfl
@[simp] theorem Tile.setQueue_mregs (x : Tile) (e : Engine) (q : List QEntry) : (x.setQueue e q).mregs = x.mregs := by cases e <;> rfl
@[simp] theorem Tile.setQueue_tokens (x : Tile) (e : Engine) (q : List QEntry) : (x.setQueue e q).tokens = x.tokens := by cases e <;> rfl
@[simp] theorem Tile.setQueue_appended (x : Tile) (e : Engine) (q : List QEntry) : (x.setQueue e q).appended = x.appended := by cases e <;> rfl
@[simp] theorem Tile.setQueue_running (x : Tile) (e : Engine) (q : List QEntry) : (x.setQueue e q).running = x.running := by cases e <;> rfl
@[simp] theorem Tile.setQueue_rings (x : Tile) (e : Engine) (q : List QEntry) : (x.setQueue e q).rings = x.rings := by cases e <;> rfl
@[simp] theorem Tile.setQueue_waiting (x : Tile) (e : Engine) (q : List QEntry) : (x.setQueue e q).waiting = x.waiting := by cases e <;> rfl
@[simp] theorem Tile.setQueue_vdin (x : Tile) (e : Engine) (q : List QEntry) : (x.setQueue e q).vdin = x.vdin := by cases e <;> rfl
@[simp] theorem Tile.setQueue_drains (x : Tile) (e : Engine) (q : List QEntry) : (x.setQueue e q).drains = x.drains := by cases e <;> rfl
@[simp] theorem Tile.setQueue_descs (x : Tile) (e : Engine) (q : List QEntry) : (x.setQueue e q).descs = x.descs := by cases e <;> rfl
@[simp] theorem Tile.setQueue_sram (x : Tile) (e : Engine) (q : List QEntry) : (x.setQueue e q).sram = x.sram := by cases e <;> rfl
@[simp] theorem Tile.setQueue_xheld (x : Tile) (e : Engine) (q : List QEntry) : (x.setQueue e q).xheld = x.xheld := by cases e <;> rfl
@[simp] theorem Tile.setQueue_kernel (x : Tile) (e : Engine) (q : List QEntry) : (x.setQueue e q).kernel = x.kernel := by cases e <;> rfl
@[simp] theorem Tile.setQueue_logical (x : Tile) (e : Engine) (q : List QEntry) : (x.setQueue e q).logical = x.logical := by cases e <;> rfl
@[simp] theorem Tile.setQueue_tag (x : Tile) (e : Engine) (q : List QEntry) : (x.setQueue e q).tag = x.tag := by cases e <;> rfl
@[simp] theorem Tile.setQueue_recBase (x : Tile) (e : Engine) (q : List QEntry) : (x.setQueue e q).recBase = x.recBase := by cases e <;> rfl
@[simp] theorem Tile.setQueue_sramBytes (x : Tile) (e : Engine) (q : List QEntry) : (x.setQueue e q).sramBytes = x.sramBytes := by cases e <;> rfl
@[simp] theorem Tile.setQueue_stop (x : Tile) (e : Engine) (q : List QEntry) : (x.setQueue e q).stop = x.stop := by cases e <;> rfl
@[simp] theorem Tile.setQueue_failPc (x : Tile) (e : Engine) (q : List QEntry) : (x.setQueue e q).failPc = x.failPc := by cases e <;> rfl
@[simp] theorem Tile.setQueue_ownStop (x : Tile) (e : Engine) (q : List QEntry) : (x.setQueue e q).ownStop = x.ownStop := by cases e <;> rfl
@[simp] theorem Tile.setQueue_stopDue (x : Tile) (e : Engine) (q : List QEntry) : (x.setQueue e q).stopDue = x.stopDue := by cases e <;> rfl

/-! ### Scalar registers (R140) -/

@[simp] theorem Tile.sreg_zero (x : Tile) : x.sreg 0 = 0#64 := rfl
theorem Tile.setSreg_zero (x : Tile) (v : W64) : x.setSreg 0 v = x := rfl
theorem Tile.setSreg_sreg (x : Tile) (r q : Nat) (v : W64) :
    (x.setSreg r v).sreg q = if q = 0 then 0#64 else if q = r then v else x.sreg q := by
  by_cases hq : q = 0
  · simp [Tile.sreg, hq]
  · by_cases hr : r = 0
    · subst hr; simp [Tile.sreg, Tile.setSreg, hq]
    · simp [Tile.sreg, Tile.setSreg, hq, hr, Map.get_set]
theorem Tile.sreg_of_sregs {x y : Tile} (h : y.sregs = x.sregs) (q : Nat) : y.sreg q = x.sreg q := by simp only [Tile.sreg, h]

/-! ### Tile SRAM (R141, R142) -/

@[simp] theorem Tile.load_store_self (x : Tile) (a : Nat) (bs : List Byte) : (x.store a bs).load a bs.length = bs :=
  Map.getRun_setRun_self 0#8 x.sram a bs
theorem Tile.load_store_out (x : Tile) (a : Nat) (bs : List Byte) (b n : Nat) (h : b + n ≤ a ∨ a + bs.length ≤ b) :
    (x.store a bs).load b n = x.load b n := Map.getRunBy_setRunBy_out (fun _ => 0#8) x.sram a bs b n h

/-! ### What an instruction of the sequencer may do (R136 to R139) -/

/-- A signal leaves every field but the tokens, unless the channel is full. -/
theorem Tile.signal_room (x : Tile) (k : Tok) (pc cut : Nat) (h : ∀ c, k.signal = some c → x.tokens.get 0 c.val < 255) :
    x.signal k pc cut = { x with tokens := match k.signal with
      | none => x.tokens
      | some c => x.tokens.set 0 c.val (x.tokens.get 0 c.val + 1) } := by
  cases hk : k.signal with
  | none => simp [Tile.signal, hk]
  | some c => simp [Tile.signal, hk, h c hk]

end Sys2Proof.Machine
end

