-- ==== Sys2Proof/Laws/Sequencer.lean ====
section
/-! SUPPORT. How a tile command's answer is put together: the sequencer's step, its stop, and what storing a tile keeps. -/

namespace Sys2Proof.Machine

theorem setTile_only (t : TileId) (s : State) (x : Tile) : TileOnly t s (s.setTile t x) := by simp [TileOnly]
theorem takeTok_get (x : Tile) (k : Tok) (c : Fin 8) : (x.takeTok k).tokens.get 0 c.val = x.tokens.get 0 c.val - (if k.wait = some c then 1 else 0) := by
  unfold Tile.takeTok
  split
  · simp [*]
  · rename_i d hd
    simp only [hd, Option.some.injEq, Map.get_set]
    by_cases h : d = c
    · subst h; simp
    · rw [if_neg (fun e => h (Fin.ext e.symm)), if_neg h]; rfl
theorem seqStep_eq (x : Tile) (k : Tok) (next : Nat) (f : Tile → Tile) (h : x.goes k) (hf : ∀ y : Tile, (f y).tokens = y.tokens) :
    x.seqStep k next f = { f (x.takeTok k) with pc := next, tokens := match k.signal with
      | none => (x.takeTok k).tokens
      | some c => (x.takeTok k).tokens.set 0 c.val ((x.takeTok k).tokens.get 0 c.val + 1) } := by
  unfold Tile.seqStep
  rw [Tile.signal_room]
  · cases k.signal <;> simp [hf]
  · intro c hc; simpa [hf] using h.2 c hc
theorem seqStep_tokens (x : Tile) (k : Tok) (next : Nat) (f : Tile → Tile) (h : x.goes k) (hf : ∀ y : Tile, (f y).tokens = y.tokens) :
    x.tokensMove (x.seqStep k next f) k := by
  intro c
  rw [seqStep_eq x k next f h hf]
  cases hk : k.signal with
  | none => simp [takeTok_get]
  | some d =>
    simp only [Map.get_set, takeTok_get]
    by_cases e : c = d
    · subst e; simp
    · have : ¬ c.val = d.val := fun h => e (Fin.ext h)
      simp [this, Ne.symm e]
theorem seqStep_running (x : Tile) (k : Tok) (next : Nat) (f : Tile → Tile) (h : x.goes k) (hf : ∀ y : Tile, (f y).tokens = y.tokens)
    (hs : ∀ y : Tile, y.seq = .running → (f y).seq ≠ .stopped) : (x.seqStep k next f).stopped = false := by
  rw [seqStep_eq x k next f h hf]
  have : x.seq = .running := by have := h.1; simp [Tile.seqReady] at this; exact this.1.1
  simpa [Tile.stopped] using hs (x.takeTok k) (by simpa using this)
theorem seqPlain_eq (s : State) (t : TileId) (k : Tok) (next : Nat) (f : Tile → Tile) (h : (s.tile t).goes k) (hf : ∀ y : Tile, (f y).tokens = y.tokens)
    (hs : ∀ y : Tile, y.seq = .running → (f y).seq ≠ .stopped) : s.seqRun t k none next f = s.setTile t ((s.tile t).seqStep k next f) := by
  simp only [State.seqRun, h.1, if_true, State.putTile, seqStep_running _ _ _ _ h hf hs]
  simp
theorem SeqOnly_of (s : State) (t : TileId) (k : Tok) (next : Nat) (f : Tile → Tile) (h : (s.tile t).goes k) (hf : ∀ y : Tile, (f y).tokens = y.tokens)
    (hfr : ∀ y : Tile, { f y with sregs := y.sregs } = y) :
    SeqOnly t k s (s.setTile t ((s.tile t).seqStep k next f)) := by
  refine ⟨setTile_only _ _ _, by simpa using seqStep_tokens _ _ _ _ h hf, ?_⟩
  simp only [State.setTile_tile_self]
  rw [seqStep_eq _ _ _ _ h hf]
  have e := hfr ((s.tile t).takeTok k)
  generalize hy : f ((s.tile t).takeTok k) = y at e ⊢
  have e2 : { (s.tile t).takeTok k with tokens := (s.tile t).tokens } = s.tile t := by
    unfold Tile.takeTok; split <;> rfl
  have e3 : y.pc = (s.tile t).pc := by have := congrArg Tile.pc e; simpa using this
  rw [← e] at e2
  simpa [e3] using e2
theorem takeTok_sreg (x : Tile) (k : Tok) (r : Nat) : (x.takeTok k).sreg r = x.sreg r := Tile.sreg_of_sregs (by simp) r
theorem wrote_of (s : State) (t : TileId) (k : Tok) (next : Nat) (f : Tile → Tile) (h : (s.tile t).goes k) (hf : ∀ y : Tile, (f y).tokens = y.tokens)
    (r : Nat) (v : W64) (hv : (f ((s.tile t).takeTok k)).sregs = ((s.tile t).setSreg r v).sregs) :
    (s.tile t).wrote ((s.setTile t ((s.tile t).seqStep k next f)).tile t) r v := by
  intro q
  simp only [State.setTile_tile_self]
  rw [seqStep_eq _ _ _ _ h hf, ← Tile.setSreg_sreg]
  exact Tile.sreg_of_sregs (by simpa using hv) q
theorem run_seq (s : State) (t : TileId) (k : Tok) (next : Nat) (f : Tile → Tile) (h : (s.tile t).goes k) (hf : ∀ y : Tile, (f y).tokens = y.tokens)
    (hfr : ∀ y : Tile, { f y with sregs := y.sregs } = y) :
    s.seqRun t k none next f = s.setTile t ((s.tile t).seqStep k next f) ∧ SeqOnly t k s (s.setTile t ((s.tile t).seqStep k next f))
     ∧ ((s.setTile t ((s.tile t).seqStep k next f)).tile t).pc = next := by
  refine ⟨seqPlain_eq _ _ _ _ _ h hf ?_, SeqOnly_of _ _ _ _ _ h hf hfr, ?_⟩
  · intro y hy
    have := congrArg Tile.seq (hfr y)
    simp only at this
    rw [this, hy]; decide
  · simp only [State.setTile_tile_self]
    rw [seqStep_eq _ _ _ _ h hf]

theorem run_wr (s : State) (t : TileId) (k : Tok) (sd : Nat) (g : Tile → W64) (v : W64) (h : (s.tile t).goes k)
    (hg : g ((s.tile t).takeTok k) = v) : ∃ u, s.seqPlain t k (fun x => x.setSreg sd (g x)) = u ∧ SeqOnly t k s u ∧ (u.tile t).pc = (s.tile t).pc + 8
      ∧ (s.tile t).wrote (u.tile t) sd v := by
  obtain ⟨h1, h2, h3⟩ := run_seq s t k ((s.tile t).pc + 8) (fun x => x.setSreg sd (g x)) h (fun _ => rfl) (fun _ => rfl)
  refine ⟨_, ?_, h2, h3, ?_⟩
  · unfold State.seqPlain; exact h1
  · apply wrote_of s t k _ (fun x => x.setSreg sd (g x)) h (fun _ => rfl)
    simp only [Tile.setSreg, hg, Tile.takeTok_sregs]
theorem gives_of {c : Instr} {s : State} {P : State → Prop} {v : State} (h : exec c s = .next v) (hp : ∃ u, v = u ∧ P u) : Gives c s P := by
  obtain ⟨u, rfl, hp⟩ := hp; exact ⟨_, h, hp⟩
theorem fs_none (l : List (Bool × W32)) (h : ∀ e ∈ l, e.1 = false) : firstStatus l = none := by
  have : l.filter Prod.fst = [] := by rw [List.filter_eq_nil_iff]; intro e he; simp [h e he]
  simp [firstStatus, this]
theorem run_gen (s : State) (t : TileId) (k : Tok) (next : Nat) (f : Tile → Tile) (h : (s.tile t).goes k) (hf : ∀ y : Tile, (f y).tokens = y.tokens)
    (hs : ∀ y : Tile, y.seq = .running → (f y).seq ≠ .stopped) : ∃ u, s.seqRun t k none next f = u ∧ TileOnly t s u ∧ (s.tile t).tokensMove (u.tile t) k ∧
      (u.tile t).pc = next ∧ ∃ m, u.tile t = { f (s.tile t |>.takeTok k) with pc := next, tokens := m } := by
  refine ⟨_, seqPlain_eq s t k next f h hf hs, setTile_only _ _ _, ?_, ?_, ?_⟩
  · simpa using seqStep_tokens _ _ _ _ h hf
  · simp only [State.setTile_tile_self]; rw [seqStep_eq _ _ _ _ h hf]
  · simp only [State.setTile_tile_self]; rw [seqStep_eq _ _ _ _ h hf]; exact ⟨_, rfl⟩
theorem takeTok_back (x : Tile) (k : Tok) : ∃ m, x.takeTok k = { x with tokens := m } := by
  unfold Tile.takeTok; split
  · exact ⟨x.tokens, rfl⟩
  · exact ⟨_, rfl⟩
theorem bytesOfNat_length (n v : Nat) : (bytesOfNat n v).length = n := by simp [bytesOfNat]
theorem drainUndefined_keep {α : Type} (g : Tile → α) (hst : ∀ x a bs, g (Tile.store x a bs) = g x) (x : Tile) (o : DrainOp) (r : OpRec) (d : Nat) : g (x.drainUndefined o r d) = g x := by
  unfold Tile.drainUndefined
  split
  · rfl
  · refine foldl_keep g _ (fun x p => foldl_keep g _ (fun x i => ?_) _ _) _ _
    dsimp only
    split <;> simp only [hst]
theorem settle_keep {α : Type} (g : Tile → α) (hst : ∀ x a bs, g (Tile.store x a bs) = g x) (hr : ∀ x : Tile, g { x with matrixQ := [], vectorQ := [], moveQ := [], running := [], drains := [], vdin := [] } = g x) (x : Tile) (d : Nat) : g (x.settle d) = g x := by
  unfold Tile.settle
  split
  · dsimp only
    rw [hr]
    exact foldl_keep g _ (fun x d => drainUndefined_keep g hst _ _ _ _) _ _
  · rfl
theorem markStop_get (st : W32) (m : Map Tile) (u t : TileId) (h : t ≠ u) : (markStop st m u).get Tile.reset t.val = m.get Tile.reset t.val := by
  unfold markStop
  dsimp only
  split
  · exact Map.get_set_ne _ _ _ _ _ _ (fun e => h (Fin.ext e))
  · rfl
theorem putTile_stop {α : Type} (g : Tile → α) (hst : ∀ x a bs, g (Tile.store x a bs) = g x) (hr : ∀ x : Tile, g { x with matrixQ := [], vectorQ := [], moveQ := [], running := [], drains := [], vdin := [] } = g x)
    (hd : ∀ (x : Tile) ds, g { x with descs := ds } = g x) (s : State) (t : TileId) (x : Tile) :
    g ((s.putTile t x).tile t) = g x := by
  unfold State.putTile
  split
  · dsimp only [State.tile]
    have hm : ∀ (l : List TileId) (m : Map Tile), (∀ u ∈ l, u ≠ t) → (l.foldl (markStop x.stop) m).get Tile.reset t.val = m.get Tile.reset t.val := by
      intro l
      induction l with
      | nil => intros; rfl
      | cons a l ih => intro m h; rw [List.foldl_cons, ih _ (fun u hu => h u (by simp [hu])), markStop_get _ _ _ _ (h a (by simp)).symm]
    rw [hm]
    · rw [Map.get_set_self, settle_keep g hst hr]
      split
      · unfold Tile.dropFault; rw [hd]
      · rfl
    · intro u hu
      split at hu
      · unfold State.kernelMates at hu
        split at hu
        · simp at hu
        · simpa using (List.mem_filter.mp hu).2
      · simp at hu
  · simp
theorem stop_of (s : State) (t : TileId) (x : Tile) (k : Tok) (st : W32) (hx : x = s.tile t) (hr : x.seqReady k = true) :
    ((s.putTile t (x.seqFail k st)).tile t).stoppedWith st x.pc ∧ ((s.putTile t (x.seqFail k st)).tile t).sregs = x.sregs := by
  have hs : x.stopped = false := by simp [Tile.seqReady] at hr; simp [Tile.stopped, hr.1.1]
  have hs2 : (x.takeTok k).stopped = false := by simpa [Tile.stopped] using hs
  simp only [Tile.stoppedWith]
  have e : x.seqFail k st = { (x.takeTok k).cutQueues x.appended with seq := .stopped, stop := st, failPc := x.pc, ownStop := true, waiting := none, stopDue := none } := by
    simp [Tile.seqFail, Tile.fail, Tile.halt, hs2]
  refine ⟨⟨?_, ?_, ?_, ?_⟩, ?_⟩
  · rw [putTile_stop Tile.seq (fun _ _ _ => rfl) (fun _ => rfl) (fun _ _ => rfl), e]
  · rw [putTile_stop Tile.stop (fun _ _ _ => rfl) (fun _ => rfl) (fun _ _ => rfl), e]
  · rw [putTile_stop Tile.failPc (fun _ _ _ => rfl) (fun _ => rfl) (fun _ _ => rfl), e]
  · rw [putTile_stop Tile.ownStop (fun _ _ _ => rfl) (fun _ => rfl) (fun _ _ => rfl), e]
  · rw [putTile_stop Tile.sregs (fun _ _ _ => rfl) (fun _ => rfl) (fun _ _ => rfl), e]; simp [Tile.cutQueues]
theorem run_bad (s : State) (t : TileId) (k : Tok) (st : W32) (next : Nat) (f : Tile → Tile) (hr : (s.tile t).seqReady k = true) :
    ∃ u, s.seqRun t k (some st) next f = u ∧ (u.tile t).stoppedWith st (s.tile t).pc ∧ (u.tile t).sregs = (s.tile t).sregs := by
  refine ⟨_, rfl, ?_⟩
  simp only [State.seqRun, hr, if_true]
  exact stop_of s t _ k st rfl hr
theorem seqOnly_id (s : State) (t : TileId) (k : Tok) (next : Nat) (h : (s.tile t).goes k) : ∃ u, s.seqRun t k none next id = u ∧ SeqOnly t k s u ∧ (u.tile t).sregs = (s.tile t).sregs ∧ (u.tile t).pc = next := by
  obtain ⟨h1, h2, h3⟩ := run_seq s t k next id h (fun _ => rfl) (fun _ => rfl)
  refine ⟨_, h1, h2, ?_, h3⟩
  simp only [State.setTile_tile_self]; rw [seqStep_eq (s.tile t) k next id h (fun _ => rfl)]; simp
theorem jmp_run (s : State) (t : TileId) (k : Tok) (imm : W32) (h : (s.tile t).goes k) (g : Nat) (hg : (g : Int) = (s.tile t).pc + imm.toInt * 8) (hb : g < (s.tile t).sramBytes) :
    ∃ u, s.seqJmp t k imm = u ∧ SeqOnly t k s u ∧ (u.tile t).sregs = (s.tile t).sregs ∧ (u.tile t).pc = g := by
  have : (s.tile t).branchCheck imm = none := by
    simp only [Tile.branchCheck, branchTarget, ← hg]
    have h1 : ¬ ((g : Int) < 0) := by omega
    have h2 : ¬ ((g : Int) ≥ (s.tile t).sramBytes) := by omega
    simp [h1, h2, hb]
  simp only [State.seqJmp, this, branchTarget, ← hg, Int.toNat_natCast]
  exact seqOnly_id s t k g h
theorem gives_next {c : Instr} {s v : State} {P : State → Prop} (h : exec c s = .next v) (hp : P v) : Gives c s P := ⟨v, h, hp⟩

end Sys2Proof.Machine
end

