-- ==== Sys2Proof/Laws/Access.lean ====
section
/-! SUPPORT. One access at the home of an address: what a read and a write of a sound, served span answer and leave (`readMem_ok`, `writeMem_ok`), and what folds and lists keep. -/

namespace Sys2Proof.Machine

theorem natOfBytes_lt (l : List Byte) : natOfBytes l < 256 ^ l.length := by
  induction l with
  | nil => decide
  | cons b l ih =>
    have hb := b.isLt
    simp only [natOfBytes, List.foldr_cons, List.length_cons, Nat.pow_succ] at *
    omega
theorem foldl_frame {α β : Type} (f : State → α → State) (g : State → β) (h : ∀ s a, g (f s a) = g s) (l : List α) (x : State) : g (l.foldl f x) = g x := by
  induction l generalizing x with
  | nil => rfl
  | cons a l ih => rw [List.foldl_cons, ih, h]
theorem get_filter_none {α : Type} (d : α) (m : Map α) (p : Nat × α → Bool) (i : Nat) (h : ∀ v, p (i, v) = false) : Map.get d (m.filter p) i = d := by
  induction m with
  | nil => rfl
  | cons e m ih =>
    obtain ⟨k, v⟩ := e
    by_cases hp : p (k, v) = true
    · rw [List.filter_cons_of_pos hp]
      have : k ≠ i := by intro e; subst e; rw [h v] at hp; simp at hp
      simp [Map.get, this, ih]
    · rw [List.filter_cons_of_neg hp]; exact ih
theorem load_one (m : MemS) (b : Nat) : m.load b 1 = [Map.get (m.base b) m.mem b] := by
  simp [MemS.load, Map.getRunBy_eq, List.range_succ]
theorem load_ext (m : MemS) (a : Nat) (bs : List Byte) (h : ∀ i (hi : i < bs.length), m.load (a + i) 1 = [bs[i]]) : m.load a bs.length = bs := by
  rw [MemS.load, Map.getRunBy_eq]
  apply List.ext_getElem (by simp)
  intro i h1 h2
  have := h i h2
  rw [load_one] at this
  simpa using this
/-- a codeword that reads well -/
def okCw (m : MemS) (cw : Nat) : Prop := m.poison.get false cw = false ∧ m.cwErr.get CwErr.none cw = CwErr.none
theorem readCodeword_ok (s : State) (cw f : Nat) (r : Bool) (h : okCw s.mem cw) : s.readCodeword cw f r = (s, true) := by
  simp [State.readCodeword, h.1, h.2]
theorem readPieces_ok (s : State) (f : Nat) (ps : List (Nat × Nat)) (h : ∀ p ∈ ps, okCw s.mem (p.1 / 64)) : s.readPieces f ps = (s, true) := by
  unfold State.readPieces
  induction ps with
  | nil => rfl
  | cons p ps ih =>
    rw [List.foldl_cons, readCodeword_ok _ _ _ _ (h p (by simp))]
    exact ih fun q hq => h q (by simp [hq])
theorem writeCodeword_ok (s : State) (a : Nat) (bs : List Byte) (h : okCw s.mem (a / 64)) :
    ∃ u, s.writeCodeword a bs = (u, true) ∧ u.mem.mem = (s.mem.store a bs).mem ∧ u.mem.undef = s.mem.undef ∧ u.mem.qmode = s.mem.qmode
      ∧ u.mem.host = s.mem.host ∧ u.mem.ctrls = s.mem.ctrls ∧ ∀ cw, okCw s.mem cw → okCw u.mem cw := by
  unfold State.writeCodeword
  dsimp only
  split
  · refine ⟨_, rfl, rfl, rfl, rfl, rfl, rfl, fun cw hc => ⟨?_, ?_⟩⟩
    · simp only [Map.get_set, hc.1]; simp [MemS.store, hc.1]
    · simp only [Map.get_set, hc.2]; simp [MemS.store, hc.2]
  · rw [if_neg (by simp [h.1]), readCodeword_ok _ _ _ _ h]
    exact ⟨_, rfl, rfl, rfl, rfl, rfl, rfl, fun cw hc => hc⟩
theorem store_one (m n : MemS) (a : Nat) (bs : List Byte) (hm : n.mem = (m.store a bs).mem) (hu : n.undef = m.undef) (hq : n.qmode = m.qmode) (b : Nat) :
    n.load b 1 = if h : a ≤ b ∧ b < a + bs.length then [bs[b - a]'(by omega)] else m.load b 1 := by
  have hb : n.base = m.base := MemS.base_congr hu hq
  simp only [load_one, hb, hm]
  split
  · rename_i h
    have := Map.get_setRunBy_in m.base m.mem a bs (b - a) (by omega)
    rw [show a + (b - a) = b by omega] at this
    simp only [MemS.store, this]
  · rename_i h
    rw [show (m.store a bs).mem = m.mem.setRunBy m.base a bs from rfl, Map.get_setRunBy_out _ _ _ _ _ _ (by omega)]
theorem writePieces_go (a : Nat) (bs : List Byte) (fuel o : Nat) (s : State) (ho : o ≤ bs.length) (hf : bs.length - o < fuel)
    (h : ∀ p ∈ codewordPieces (a + o) (bs.length - o) fuel, okCw s.mem (p.1 / 64)) :
    ∃ u, s.writePieces a bs (codewordPieces (a + o) (bs.length - o) fuel) = (u, true) ∧ u.mem.undef = s.mem.undef ∧ u.mem.qmode = s.mem.qmode
      ∧ u.mem.host = s.mem.host ∧ u.mem.ctrls = s.mem.ctrls
      ∧ ∀ b, u.mem.load b 1 = if h : a + o ≤ b ∧ b < a + bs.length then [bs[b - a]'(by omega)] else s.mem.load b 1 := by
  induction fuel generalizing o s with
  | zero => omega
  | succ fuel ih =>
    unfold codewordPieces
    split
    · rename_i h0
      refine ⟨s, rfl, rfl, rfl, rfl, rfl, fun b => ?_⟩
      rw [dif_neg (by omega)]
    · rename_i h0
      unfold codewordPieces at h
      rw [if_neg h0] at h
      dsimp only at h ⊢
      set k := min (bs.length - o) (64 - (a + o) % 64) with hk
      have hk0 : 0 < k := by omega
      have hk1 : k ≤ bs.length - o := by omega
      obtain ⟨u, e1, e2, e3, e4, e5, e6, e7⟩ := writeCodeword_ok s (a + o) ((bs.drop (a + o - a)).take k) (h (a + o, k) (by simp))
      have hlen : ((bs.drop (a + o - a)).take k).length = k := by simp; omega
      have hn : bs.length - o - k = bs.length - (o + k) := by omega
      have ha : a + o + k = a + (o + k) := by omega
      rw [hn, ha] at h ⊢
      obtain ⟨v, f1, f2, f3, f4, f5, f6⟩ := ih (o + k) u (by omega) (by omega) fun p hp => e7 _ (h p (by simp [hp]))
      refine ⟨v, ?_, f2.trans e3, f3.trans e4, f4.trans e5, f5.trans e6, fun b => ?_⟩
      · unfold State.writePieces at f1 ⊢
        rw [List.foldl_cons]
        dsimp only
        rw [e1]
        exact f1
      · rw [f6, store_one s.mem u.mem (a + o) _ e2 e3 e4 b]
        by_cases h1 : a + (o + k) ≤ b ∧ b < a + bs.length
        · rw [dif_pos h1, dif_pos (by omega)]
        · rw [dif_neg h1]
          by_cases h2 : a + o ≤ b ∧ b < a + o + k
          · rw [dif_pos (by rw [hlen]; exact h2), dif_pos (by omega)]
            simp only [List.getElem_take, List.getElem_drop]
            congr 2; omega
          · rw [dif_neg (by rw [hlen]; exact h2), dif_neg (by omega)]
theorem writePieces_ok (a : Nat) (bs : List Byte) (s : State) (h : ∀ p ∈ codewordPieces a bs.length (bs.length + 1), okCw s.mem (p.1 / 64)) :
    ∃ u, s.writePieces a bs (codewordPieces a bs.length (bs.length + 1)) = (u, true) ∧ u.mem.undef = s.mem.undef ∧ u.mem.qmode = s.mem.qmode
      ∧ u.mem.host = s.mem.host ∧ u.mem.ctrls = s.mem.ctrls ∧ u.mem.load a bs.length = bs ∧ ∀ b, b < a ∨ a + bs.length ≤ b → u.mem.load b 1 = s.mem.load b 1 := by
  obtain ⟨u, e1, e2, e3, e4, e5, e6⟩ := writePieces_go a bs (bs.length + 1) 0 s (by omega) (by omega) (by simpa using h)
  refine ⟨u, by simpa using e1, e2, e3, e4, e5, load_ext _ _ _ fun i hi => ?_, fun b hb => ?_⟩
  · rw [e6, dif_pos (by omega)]; congr 2; omega
  · rw [e6, dif_neg (by omega)]
theorem engineRange_some {a n : Nat} {r : Region} (h : engineRange a n = some r) : regionOf a = r ∧ r.isMem = true := by
  unfold engineRange at h
  split at h
  · rename_i hc; simp only [Option.some.injEq] at h; simp at hc; subst h; exact ⟨rfl, hc.1⟩
  · simp at h
theorem countSpan_mem (s : State) (c : Bool) (a n d : Nat) (w : Bool) : (s.when c fun s => s.countSpan a n d w).mem = s.mem := by
  cases c
  · rfl
  · have := (State.countSpan_frame s a n d w).2.2.2.1; simpa [State.when] using this
theorem readMem_ok (s : State) (cnt : Bool) (a n d : Nat) (r : Region) (hr : engineRange a n = some r) (hh : r ≠ .host) (hs : s.serves a d = true)
    (hc : s.mem.clean a n) : s.readMemBy cnt a n d = ⟨s.when cnt fun s => s.countSpan a n d false, stOk, s.mem.load a n⟩ := by
  unfold State.readMemBy
  rw [hr]
  have : ∀ p ∈ codewordPieces a n (n + 1), okCw ((s.when cnt fun s => s.countSpan a n d false)).mem (p.1 / 64) := by
    rw [countSpan_mem]; exact hc
  cases r <;> first | exact absurd rfl hh | (simp only [hs, readPieces_ok _ _ _ this]; rfl)
theorem writeMem_ok (s : State) (cnt : Bool) (a d : Nat) (bs : List Byte) (r : Region) (hr : engineRange a bs.length = some r) (hh : r ≠ .host) (hs : s.serves a d = true)
    (hc : s.mem.clean a bs.length) : ∃ u, s.writeMemBy cnt a bs d = ⟨u, stOk, []⟩ ∧ u.mem.undef = s.mem.undef ∧ u.mem.qmode = s.mem.qmode
      ∧ u.mem.host = s.mem.host ∧ u.mem.ctrls = s.mem.ctrls ∧ u.mem.load a bs.length = bs ∧ ∀ b, b < a ∨ a + bs.length ≤ b → u.mem.load b 1 = s.mem.load b 1 := by
  unfold State.writeMemBy
  rw [hr]
  have hm := countSpan_mem s cnt a bs.length d true
  obtain ⟨u, e1, e2, e3, e4, e5, e6, e7⟩ := writePieces_ok a bs (s.when cnt fun s => s.countSpan a bs.length d true) (by rw [hm]; exact hc)
  rw [hm] at e2 e3 e4 e5 e7
  refine ⟨u, ?_, e2, e3, e4, e5, e6, e7⟩
  cases r <;> first | exact absurd rfl hh | (simp only [hs, e1]; rfl)
@[simp] theorem answer_core (s : State) (x : W32) (d : List Byte) (c : CoreId) : (s.answer x d).core c = s.core c := rfl
theorem stOk_eq : stOk = 0#32 := by decide
theorem notWaits {s : State} {a : Nat} {r : Region} (h : regionOf a = r) (hr : r ≠ .host) : s.hostWaits a = false := by
  simp [State.hostWaits, h, hr]
theorem region_host (a : Nat) : regionOf a = .host ↔ 0x100000000000 ≤ a ∧ a < 0x200000000000 := by
  unfold regionOf; (repeat' split) <;> simp <;> omega
theorem range_host (h n : Nat) (h0 : 0 < n) (hn : h + n ≤ 2 ^ 44) : engineRange (0x100000000000 + h) n = some .host := by
  have h1 : regionOf (0x100000000000 + h) = .host := (region_host _).2 (by omega)
  have h2 : regionOf (0x100000000000 + h + (n - 1)) = .host := (region_host _).2 (by omega)
  unfold engineRange; rw [h1, h2]; rfl
theorem hostAddr_add (h : Nat) : hostAddr (0x100000000000 + h) = h := by unfold hostAddr; omega
theorem nearStack_lt16 (q : BitVec 128) (a : Nat) : nearStack q a < 16 := by
  have hb : ∀ x l w, bitsOf x l w < 2 ^ w := fun x l w => Nat.mod_lt _ (Nat.two_pow_pos w)
  unfold nearStack
  dsimp only
  split
  · have := Nat.xor_lt_two_pow (Nat.xor_lt_two_pow (Nat.xor_lt_two_pow (hb (a % 2 ^ 30) 11 2) (hb (a % 2 ^ 30) 13 2)) (hb (a % 2 ^ 30) 15 2)) (hb (a % 2 ^ 30) 17 2)
    omega
  · exact Nat.xor_lt_two_pow (Nat.xor_lt_two_pow (Nat.xor_lt_two_pow (hb _ 11 4) (hb _ 15 4)) (hb _ 19 4)) (hb _ 23 4)
theorem serves_home (m : MemS) (a : Nat) (h : (m.ctrl (m.homeOf a)).state ≠ 0) : m.serves a = false := by
  have hb : ∀ x l w, bitsOf x l w < 2 ^ w := fun x l w => Nat.mod_lt _ (Nat.two_pow_pos w)
  unfold MemS.homeOf at h
  unfold MemS.serves
  by_cases hd : regionOf a = .deep
  · simp only [hd, if_true] at h ⊢
    rw [List.all_eq_false]
    refine ⟨deepStack a, List.mem_range.2 ?_, by simp [MemS.inService, h]⟩
    unfold deepStack
    exact Nat.xor_lt_two_pow (n := 3) (Nat.xor_lt_two_pow (Nat.xor_lt_two_pow (hb _ 11 3) (hb _ 14 3)) (hb _ 17 3)) (hb _ 20 3)
  · simp only [hd, if_false] at h ⊢
    by_cases hq : m.qmode.getLsbD (a / 2 ^ 32) = true
    · rw [if_pos hq, List.all_eq_false]
      have hlt := Nat.xor_lt_two_pow (Nat.xor_lt_two_pow (Nat.xor_lt_two_pow (hb (a % 2 ^ 30) 11 2) (hb (a % 2 ^ 30) 13 2)) (hb (a % 2 ^ 30) 15 2)) (hb (a % 2 ^ 30) 17 2)
      have h' : m.inService (4 * (a / 2 ^ 30 % 4) + (bitsOf (a % 2 ^ 30) 11 2 ^^^ bitsOf (a % 2 ^ 30) 13 2 ^^^ bitsOf (a % 2 ^ 30) 15 2 ^^^ bitsOf (a % 2 ^ 30) 17 2)) = false := by
        unfold nearStack at h
        rw [if_pos hq] at h
        exact decide_eq_false h
      exact ⟨_, List.mem_range.2 hlt, by rw [h']; decide⟩
    · rw [if_neg hq, List.all_eq_false]
      exact ⟨_, List.mem_range.2 (nearStack_lt16 m.qmode a), by simp [MemS.inService, h]⟩

end Sys2Proof.Machine
end

