-- ==== Sys2Proof/Laws/Bells.lean ====
section
/-! SUPPORT. What bell operations leave of a bell, and what placing and ending kernels leave of tiles and bells. -/

namespace Sys2Proof.Machine

def BI (b : Nat) (P : Bell → Prop) (s : State) : Prop := P (s.bell b)
theorem bell_of_bells {s u : State} (h : u.bells = s.bells) (b : Nat) : u.bell b = s.bell b := by simp only [State.bell, h]
theorem raise_bell (s : State) (c t d k u : Nat) (p : List Byte) (b : Nat) : (s.raise c t d k u p).bell b = s.bell b := bell_of_bells (by simp) b
theorem putTile_bell (s : State) (t : TileId) (x : Tile) (b : Nat) : (s.putTile t x).bell b = s.bell b := bell_of_bells (by simp) b
theorem setTile_bell (s : State) (t : TileId) (x : Tile) (b : Nat) : (s.setTile t x).bell b = s.bell b := rfl
/-- a property of the bell that MISMATCH and POISON by flam mismatch leave -/
def Stable (P : Bell → Prop) : Prop := (∀ x n, P x → P { x with mismatch := n }) ∧ (∀ x, P x → x.mismatched = true → P { x with poison := true })
theorem bellCheck_P (P : Bell → Prop) (hP : Stable P) (s : State) (w b : Nat) (h : P (s.bell b)) : P ((s.bellCheck w).bell b) := by
  unfold State.bellCheck
  dsimp only
  by_cases hm : (s.bell w).mismatched = true
  · simp only [hm, State.when_true, State.bellFault, raise_bell]
    have : ((s.setBell w { s.bell w with poison := true }).flamMismatch).bell b = (s.setBell w { s.bell w with poison := true }).bell b := bell_of_bells (by simp) b
    rw [this]
    by_cases e : b = w
    · subst e; simpa using hP.2 _ h hm
    · rw [State.setBell_bell_ne _ _ _ _ e]; exact h
  · simp only [Bool.not_eq_true] at hm
    simpa [hm] using h
theorem judge_P (P : Bell → Prop) (hP : Stable P) (s : State) (w b : Nat) (a : Acquirer) (sc : Scope) (h : P (s.bell b)) : P ((s.judge w a sc).bell b) := by
  unfold State.judge
  dsimp only
  split
  · exact h
  · have : ∀ c f, (∀ s, (f s : State).bells = s.bells) → P ((State.when (s.setBell w { s.bell w with mismatch := satInc32 (s.bell w).mismatch }) c f).bell b) := by
      intro c f hf
      have e : (State.when (s.setBell w { s.bell w with mismatch := satInc32 (s.bell w).mismatch }) c f).bell b = (s.setBell w { s.bell w with mismatch := satInc32 (s.bell w).mismatch }).bell b := by
        apply bell_of_bells; cases c
        · rfl
        · exact hf _
      rw [e]
      by_cases e : b = w
      · subst e; simpa using hP.1 _ _ h
      · rw [State.setBell_bell_ne _ _ _ _ e]; exact h
    exact this _ _ (fun s => by simp)
theorem evalWait_P (P : Bell → Prop) (hP : Stable P) (s : State) (t : TileId) (b : Nat) (h : P (s.bell b)) : P ((s.evalWait t).bell b) := by
  unfold State.evalWait
  split
  · exact h
  · rename_i w _
    have h1 := bellCheck_P P hP s w.bell b h
    dsimp only
    split
    · rw [putTile_bell]; exact h1
    · split
      · rw [putTile_bell]; exact judge_P P hP _ _ _ _ _ h1
      · exact h1
theorem evalWaits_P (P : Bell → Prop) (hP : Stable P) (s : State) (d b : Nat) (h : P (s.bell b)) : P ((s.evalWaits d).bell b) := by
  unfold State.evalWaits
  generalize s.waiters d = l
  induction l generalizing s with
  | nil => exact h
  | cons a l ih => exact ih _ (evalWait_P P hP s a b h)
theorem sound_check (s : State) (b : Nat) (h : (s.bell b).sound) : s.bellCheck b = s := by
  have : (s.bell b).mismatched = false := by simp [Bell.mismatched, h.2]
  simp [State.bellCheck, this]
theorem ring_sound (x : Bell) (n : W64) (k : BitVec 3) (u : Byte) (sc : Scope) (h : x.sound) (hn : x.count.toNat + n.toNat < 2 ^ 64) :
    x.ring n k u sc = { x with count := x.count + n, compl := ~~~ (x.count + n), lrel := u, lkind := k, lscope := sc } := by
  have : ¬ (2 ^ 64 ≤ x.count.toNat + n.toNat) := by omega
  simp [Bell.ring]
  exact ⟨fun h => absurd h (by omega), fun h => absurd h (by omega)⟩
theorem ringBell_sound (s : State) (b : Nat) (n : W64) (k : BitVec 3) (u : Byte) (sc : Scope) (h : (s.bell b).sound) (hn : (s.bell b).count.toNat + n.toNat < 2 ^ 64) :
    s.ringBell b n k u sc = s.setBell b { s.bell b with count := (s.bell b).count + n, compl := ~~~ ((s.bell b).count + n), lrel := u, lkind := k, lscope := sc } := by
  simp only [State.ringBell, sound_check s b h, h.1, ring_sound _ _ _ _ _ h hn]
  cases (s.bell b).sat <;> simp
theorem putTile_tile_keep {α : Type} (g : Tile → α) (hst : ∀ x a bs, g (Tile.store x a bs) = g x)
    (hr : ∀ x : Tile, g { x with matrixQ := [], vectorQ := [], moveQ := [], running := [], drains := [], vdin := [] } = g x)
    (hd : ∀ (x : Tile) ds, g { x with descs := ds } = g x) (hdue : ∀ (x : Tile) d, g { x with stopDue := d } = g x) (s : State) (t u : TileId) (x : Tile) :
    g ((s.putTile t x).tile u) = if u = t then g x else g (s.tile u) := by
  by_cases h : u = t
  · subst h; rw [if_pos rfl]; exact putTile_stop g hst hr hd s u x
  · rw [if_neg h]
    unfold State.putTile
    split
    · dsimp only [State.tile]
      have hm : ∀ (l : List TileId) (m : Map Tile), g ((l.foldl (markStop x.stop) m).get Tile.reset u.val) = g (m.get Tile.reset u.val) := by
        intro l
        induction l with
        | nil => intro m; rfl
        | cons a l ih =>
          intro m; rw [List.foldl_cons, ih]
          by_cases e : u = a
          · subst e; unfold markStop; dsimp only; split
            · rw [Map.get_set_self, hdue]
            · rfl
          · rw [markStop_get _ _ _ _ e]
      rw [hm, Map.get_set_ne _ _ _ _ _ _ (fun e => h (Fin.ext e))]
    · rw [State.setTile_tile_ne _ _ _ _ h]
theorem putTile_kernel (s : State) (t u : TileId) (x : Tile) : ((s.putTile t x).tile u).kernel = if u = t then x.kernel else (s.tile u).kernel :=
  putTile_tile_keep (fun x => x.kernel) (fun _ _ _ => rfl) (fun _ => rfl) (fun _ _ => rfl) (fun _ _ => rfl) s t u x
theorem readVirt_tile (s : State) (d c v n f) (u : TileId) : (s.readVirt d c v n f).1.tile u = s.tile u := by
  unfold State.tile; rw [(State.readVirt_frame s d c v n f).1]
theorem placeTile_kernel (s : State) (kid : Nat) (r : LaunchReq) (m : Image) (t : TileId × Nat) (u : TileId) :
    ((s.placeTile kid r m t).tile u).kernel = if u = t.1 then some kid else (s.tile u).kernel := by
  unfold State.placeTile
  dsimp only
  split
  · by_cases h : u = t.1
    · subst h; rw [if_pos rfl, State.setTile_tile_self]; rfl
    · rw [if_neg h, State.setTile_tile_ne _ _ _ _ h, readVirt_tile]
  · rw [putTile_kernel, readVirt_tile]
    split
    · unfold Tile.fail Tile.halt; split <;> rfl
    · rw [readVirt_tile]
theorem place_all (kid : Nat) (r : LaunchReq) (m : Image) (l : List (TileId × Nat)) (s : State) (u : TileId) :
    ((l.foldl (fun s t => s.placeTile kid r m t) s).tile u).kernel = if u ∈ l.map Prod.fst then some kid else (s.tile u).kernel := by
  induction l generalizing s with
  | nil => simp
  | cons a l ih =>
    rw [List.foldl_cons, ih, placeTile_kernel]
    by_cases h : u = a.1
    · simp [h]
    · simp only [h, if_false, List.map_cons, List.mem_cons, false_or]
theorem bells_all (P : Bell → Prop) (f : Bell → Bell) (hf : ∀ x, P (f x)) (l : List Nat) (m : Map Bell) (b : Nat) (hb : b ∈ l) :
    P ((l.foldl (fun m i => m.modify Bell.reset i f) m).get Bell.reset b) := by
  have keep : ∀ (l : List Nat) (m : Map Bell), P (m.get Bell.reset b) → P ((l.foldl (fun m i => m.modify Bell.reset i f) m).get Bell.reset b) := by
    intro l
    induction l with
    | nil => intro m h; exact h
    | cons a l ih =>
      intro m h; rw [List.foldl_cons]; apply ih
      by_cases e : b = a
      · subst e; rw [Map.get_modify_self]; exact hf _
      · rw [Map.get_modify_ne _ _ _ _ _ e]; exact h
  induction l generalizing m with
  | nil => simp at hb
  | cons a l ih =>
    rw [List.foldl_cons]
    by_cases e : b = a
    · subst e; apply keep; rw [Map.get_modify_self]; exact hf _
    · exact ih _ (by simpa [e] using hb)
theorem tiles_all (P : Tile → Prop) (f : Tile → Tile) (hf : ∀ x, P (f x)) (l : List TileId) (m : Map Tile) (b : TileId) (hb : b ∈ l) :
    P ((l.foldl (fun m (i : TileId) => m.modify Tile.reset i.val f) m).get Tile.reset b.val) := by
  have keep : ∀ (l : List TileId) (m : Map Tile), P (m.get Tile.reset b.val) → P ((l.foldl (fun m (i : TileId) => m.modify Tile.reset i.val f) m).get Tile.reset b.val) := by
    intro l
    induction l with
    | nil => intro m h; exact h
    | cons a l ih =>
      intro m h; rw [List.foldl_cons]; apply ih
      by_cases e : b = a
      · subst e; rw [Map.get_modify_self]; exact hf _
      · rw [Map.get_modify_ne _ _ _ _ _ (fun h => e (Fin.ext h))]; exact h
  induction l generalizing m with
  | nil => simp at hb
  | cons a l ih =>
    rw [List.foldl_cons]
    by_cases e : b = a
    · subst e; apply keep; rw [Map.get_modify_self]; exact hf _
    · exact ih _ (by simpa [e] using hb)
theorem placeAll_frame (kid : Nat) (r : LaunchReq) (m : Image) (l : List (TileId × Nat)) (s : State) :
    Touch.tTMXQGF (l.foldl (fun s t => s.placeTile kid r m t) s) s := by
  induction l generalizing s with
  | nil => simp [Touch.tTMXQGF]
  | cons a l ih =>
    have h1 := ih (s.placeTile kid r m a)
    have h2 := State.placeTile_frame s kid r m a
    simp only [List.foldl_cons, Touch.tTMXQGF] at *
    simp [h1, h2]
theorem zipIdx_mem {α : Type} (l : List α) (u : α) : u ∈ l.zipIdx.map Prod.fst ↔ u ∈ l := by rw [List.zipIdx_map_fst]
theorem terminateOne_kernel (s : State) (i : Nat) (k : Kernel) (j : Nat) : (s.terminateOne i k).kernel j = if j = i then some { k with terminated := true } else s.kernel j := by
  by_cases h : j = i
  · subst h; simp [State.terminateOne, State.kernel, State.setKernel]
  · rw [if_neg h]; exact State.setKernel_kernel_ne s i j _ h
theorem terminate_all (l : List (Nat × Kernel)) (s : State) (j : Nat) (k : Kernel) (hn : (l.map Prod.fst).Nodup) (h : (j, k) ∈ l) :
    (l.foldl (fun s h => s.terminateOne h.1 h.2) s).kernel j = some { k with terminated := true } := by
  have keep : ∀ (l : List (Nat × Kernel)) (s : State), j ∉ l.map Prod.fst → (l.foldl (fun s h => s.terminateOne h.1 h.2) s).kernel j = s.kernel j := by
    intro l
    induction l with
    | nil => intros; rfl
    | cons a l ih =>
      intro s h; simp only [List.map_cons, List.mem_cons, not_or] at h
      rw [List.foldl_cons, ih _ h.2, terminateOne_kernel, if_neg h.1]
  induction l generalizing s with
  | nil => simp at h
  | cons a l ih =>
    rw [List.foldl_cons]
    simp only [List.map_cons, List.nodup_cons] at hn
    rcases List.mem_cons.mp h with e | e
    · subst e; rw [keep _ _ hn.1, terminateOne_kernel, if_pos rfl]
    · exact ih _ hn.2 e
theorem mem_hits (l : List (Nat × Option Kernel)) (tag : W64) (j : Nat) (k : Kernel) :
    (j, k) ∈ (l.filterMap fun e => match e.2 with | some k => if k.tag = tag then some (e.1, k) else none | none => none) ↔ (j, some k) ∈ l ∧ k.tag = tag := by
  simp only [List.mem_filterMap]
  constructor
  · rintro ⟨⟨a, o⟩, ha, h⟩
    cases o with
    | none => simp at h
    | some x =>
      simp only at h
      split at h
      · simp only [Option.some.injEq, Prod.mk.injEq] at h; obtain ⟨rfl, rfl⟩ := h; exact ⟨ha, by assumption⟩
      · simp at h
  · rintro ⟨h, ht⟩
    exact ⟨(j, some k), h, by simp [ht]⟩
theorem nodup_hits (l : List (Nat × Option Kernel)) (tag : W64) (h : (l.map Prod.fst).Nodup) :
    ((l.filterMap fun e => match e.2 with | some k => if k.tag = tag then some (e.1, k) else none | none => none).map Prod.fst).Nodup := by
  refine List.Nodup.sublist ?_ h
  induction l with
  | nil => simp
  | cons a l ih =>
    have ih := ih (by simp only [List.map_cons, List.nodup_cons] at h; exact h.2)
    rw [List.filterMap_cons]
    split
    · exact List.Sublist.cons _ ih
    · rename_i b hb
      have : b.1 = a.1 := by
        revert hb; split
        · split
          · intro h; cases h; rfl
          · simp
        · simp
      simp only [List.map_cons, this]
      exact List.Sublist.cons_cons _ ih

end Sys2Proof.Machine
end

