-- ==== Sys2Proof/Laws/PerInstr.lean ====
section
/-! SUPPORT. The family `Parts`, one lemma per command: `partsOf` lists no part of the state twice, so that the frame of a command
(`ChangesOnly`) names each part that it may change once. -/

namespace Sys2Proof.Laws.Parts
open Sys2Proof.Machine

/-- The parts listed for a command are listed once each. -/
def Statement (i : Instr) : Prop := (partsOf i).all (fun p => (partsOf i).count p = 1) = true

theorem instructionFetch (t : TileId) : Statement (.instructionFetch t) := rfl
theorem nop (t : TileId) (k : Tok) : Statement (.nop t k) := rfl
theorem halt (t : TileId) (k : Tok) : Statement (.halt t k) := rfl
theorem sadd (t : TileId) (k : Tok) (sd sa sb : Fin 32) : Statement (.sadd t k sd sa sb) := rfl
theorem ssub (t : TileId) (k : Tok) (sd sa sb : Fin 32) : Statement (.ssub t k sd sa sb) := rfl
theorem sand (t : TileId) (k : Tok) (sd sa sb : Fin 32) : Statement (.sand t k sd sa sb) := rfl
theorem sor (t : TileId) (k : Tok) (sd sa sb : Fin 32) : Statement (.sor t k sd sa sb) := rfl
theorem sxor (t : TileId) (k : Tok) (sd sa sb : Fin 32) : Statement (.sxor t k sd sa sb) := rfl
theorem sshl (t : TileId) (k : Tok) (sd sa sb : Fin 32) : Statement (.sshl t k sd sa sb) := rfl
theorem sshr (t : TileId) (k : Tok) (sd sa sb : Fin 32) : Statement (.sshr t k sd sa sb) := rfl
theorem smul (t : TileId) (k : Tok) (sd sa sb : Fin 32) : Statement (.smul t k sd sa sb) := rfl
theorem saddi (t : TileId) (k : Tok) (sd sa : Fin 32) (imm : W32) : Statement (.saddi t k sd sa imm) := rfl
theorem sli (t : TileId) (k : Tok) (sd : Fin 32) (imm : W32) : Statement (.sli t k sd imm) := rfl
theorem shi (t : TileId) (k : Tok) (sd : Fin 32) (imm : W32) : Statement (.shi t k sd imm) := rfl
theorem sld (t : TileId) (k : Tok) (sd sa : Fin 32) (imm : W32) : Statement (.sld t k sd sa imm) := rfl
theorem sst (t : TileId) (k : Tok) (sa sb : Fin 32) (imm : W32) : Statement (.sst t k sa sb imm) := rfl
theorem beq (t : TileId) (k : Tok) (sa sb : Fin 32) (imm : W32) : Statement (.beq t k sa sb imm) := rfl
theorem bne (t : TileId) (k : Tok) (sa sb : Fin 32) (imm : W32) : Statement (.bne t k sa sb imm) := rfl
theorem blt (t : TileId) (k : Tok) (sa sb : Fin 32) (imm : W32) : Statement (.blt t k sa sb imm) := rfl
theorem bltu (t : TileId) (k : Tok) (sa sb : Fin 32) (imm : W32) : Statement (.bltu t k sa sb imm) := rfl
theorem jmp (t : TileId) (k : Tok) (imm : W32) : Statement (.jmp t k imm) := rfl
theorem ring (t : TileId) (k : Tok) (bell : BitVec 12) (scope : Scope) (qmask : BitVec 3) (n : RingN) : Statement (.ring t k bell scope qmask n) := rfl
theorem ringFire (t : TileId) : Statement (.ringFire t) := rfl
theorem wait (t : TileId) (k : Tok) (bell : BitVec 12) (scope : Scope) (treg : Fin 32) : Statement (.wait t k bell scope treg) := rfl
theorem fence (t : TileId) (k : Tok) (scope : Scope) (qmask : BitVec 3) : Statement (.fence t k scope qmask) := rfl
theorem flags (t : TileId) (k : Tok) (sd : Fin 32) (clear : BitVec 7) : Statement (.flags t k sd clear) := rfl
theorem tally (t : TileId) (k : Tok) (sd : Fin 32) : Statement (.tally t k sd) := rfl
theorem mma (t : TileId) (parity : Bool) : Statement (.mma t parity) := rfl
theorem drain (t : TileId) (parity : Bool) : Statement (.drain t parity) := rfl
theorem sclr (t : TileId) : Statement (.sclr t) := rfl
theorem ssto (t : TileId) : Statement (.ssto t) := rfl
theorem seed (t : TileId) : Statement (.seed t) := rfl
theorem vadd (t : TileId) : Statement (.vadd t) := rfl
theorem vsub (t : TileId) : Statement (.vsub t) := rfl
theorem vmul (t : TileId) : Statement (.vmul t) := rfl
theorem vfma (t : TileId) : Statement (.vfma t) := rfl
theorem vfnma (t : TileId) : Statement (.vfnma t) := rfl
theorem vmin (t : TileId) : Statement (.vmin t) := rfl
theorem vmax (t : TileId) : Statement (.vmax t) := rfl
theorem vabs (t : TileId) : Statement (.vabs t) := rfl
theorem vneg (t : TileId) : Statement (.vneg t) := rfl
theorem vdiv (t : TileId) : Statement (.vdiv t) := rfl
theorem vsqrt (t : TileId) : Statement (.vsqrt t) := rfl
theorem vcmplt (t : TileId) : Statement (.vcmplt t) := rfl
theorem vcmpeq (t : TileId) : Statement (.vcmpeq t) := rfl
theorem vclass (t : TileId) : Statement (.vclass t) := rfl
theorem vsel (t : TileId) : Statement (.vsel t) := rfl
theorem vbcast (t : TileId) : Statement (.vbcast t) := rfl
theorem vld (t : TileId) : Statement (.vld t) := rfl
theorem vst (t : TileId) : Statement (.vst t) := rfl
theorem vrsum (t : TileId) : Statement (.vrsum t) := rfl
theorem vrmax (t : TileId) : Statement (.vrmax t) := rfl
theorem viadd (t : TileId) : Statement (.viadd t) := rfl
theorem visub (t : TileId) : Statement (.visub t) := rfl
theorem vimul (t : TileId) : Statement (.vimul t) := rfl
theorem vand (t : TileId) : Statement (.vand t) := rfl
theorem vor (t : TileId) : Statement (.vor t) := rfl
theorem vxor (t : TileId) : Statement (.vxor t) := rfl
theorem vshl (t : TileId) : Statement (.vshl t) := rfl
theorem vshr (t : TileId) : Statement (.vshr t) := rfl
theorem vshra (t : TileId) : Statement (.vshra t) := rfl
theorem vcvtif (t : TileId) : Statement (.vcvtif t) := rfl
theorem vcvtfi (t : TileId) : Statement (.vcvtfi t) := rfl
theorem vmov (t : TileId) : Statement (.vmov t) := rfl
theorem vcnt (u : Ctrl) (msk : Fin 8) : Statement (.vcnt u msk) := rfl
theorem clapperVld (u : Ctrl) (vd : Fin 64) (msk : Fin 8) (stream : Fin 8) : Statement (.clapperVld u vd msk stream) := rfl
theorem clapperVst (u : Ctrl) (vc : Fin 64) (msk : Fin 8) (stream : Fin 8) (rtz : Bool) : Statement (.clapperVst u vc msk stream rtz) := rfl
theorem clapperVbcast (u : Ctrl) (vd : Fin 64) (msk : Fin 8) (sa : Fin 24) : Statement (.clapperVbcast u vd msk sa) := rfl
theorem instructionCompletion (t : TileId) (e : Engine) (idx : Nat) : Statement (.instructionCompletion t e idx) := rfl
theorem msub (t : TileId) : Statement (.msub t) := rfl
theorem descriptorAccept (t : TileId) : Statement (.descriptorAccept t) := rfl
theorem copy (t : TileId) (i : Nat) : Statement (.copy t i) := rfl
theorem transpose (t : TileId) (i : Nat) : Statement (.transpose t i) := rfl
theorem fill (t : TileId) (i : Nat) : Statement (.fill t i) := rfl
theorem inline (t : TileId) (i : Nat) : Statement (.inline t i) := rfl
theorem put (t : TileId) (i : Nat) : Statement (.put t i) := rfl
theorem get (t : TileId) (i : Nat) : Statement (.get t i) := rfl
theorem descriptorComplete (t : TileId) (i : Nat) : Statement (.descriptorComplete t i) := rfl
theorem set (b : BellId) (v : W64) : Statement (.set b v) := rfl
theorem ringRegisterWrite (c : CoreId) (b : BellId) (n : W64) : Statement (.ringRegisterWrite c b n) := rfl
theorem bellBatch (die : ADie) (ops : List BellOp) : Statement (.bellBatch die ops) := rfl
theorem launch (prefTiles : List TileId) (prefBells : List BellId) : Statement (.launch prefTiles prefBells) := rfl
theorem terminate : Statement (.terminate) := rfl
theorem tileStop (t : TileId) : Statement (.tileStop t) := rfl
theorem tileProgramEnd (t : TileId) : Statement (.tileProgramEnd t) := rfl
theorem completionRecord (kid : Nat) : Statement (.completionRecord kid) := rfl
theorem tileClearEnd (t : TileId) : Statement (.tileClearEnd t) := rfl
theorem arraySelfTest (t : TileId) (found : SelfTest) : Statement (.arraySelfTest t found) := rfl
theorem srSeedWrite (t : TileId) (v : W64) : Statement (.srSeedWrite t v) := rfl
theorem memoryRead (a : Agent) (addr : Nat) (len : Nat) : Statement (.memoryRead a addr len) := rfl
theorem memoryWrite (a : Agent) (addr : Nat) (bytes : List Byte) : Statement (.memoryWrite a addr bytes) := rfl
theorem patrolScrub (c : Ctrl) : Statement (.patrolScrub c) := rfl
theorem ceInnerCollect (c : Ctrl) (n : Nat) : Statement (.ceInnerCollect c n) := rfl
theorem lowerTierTimeout (a : Agent) (addr : Nat) : Statement (.lowerTierTimeout a addr) := rfl
theorem lateResponseDiscard (a : Agent) (addr : Nat) : Statement (.lateResponseDiscard a addr) := rfl
theorem writebackRetry (line : Nat) : Statement (.writebackRetry line) := rfl
theorem coreLoad (c : CoreId) (addr : Nat) (size : Nat) (fetch hint : Bool) (victims : List Victim) : Statement (.coreLoad c addr size fetch hint victims) := rfl
theorem coreStore (c : CoreId) (addr : Nat) (bytes : List Byte) (hint : Bool) (victims : List Victim) : Statement (.coreStore c addr bytes hint victims) := rfl
theorem coreAmo (c : CoreId) (op : AmoOp) (addr : Nat) (wide : Bool) (v cmp : W64) : Statement (.coreAmo c op addr wide v cmp) := rfl
theorem cacheSweepComplete : Statement (.cacheSweepComplete) := rfl
theorem qmodeWrite (hi : Bool) (v : W64) : Statement (.qmodeWrite hi v) := rfl
theorem poolWrite (pool : Fin 6) (v : W64) : Statement (.poolWrite pool v) := rfl
theorem stackFailure (c : Ctrl) : Statement (.stackFailure c) := rfl
theorem stackInitComplete (c : Ctrl) (passed : Bool) : Statement (.stackInitComplete c passed) := rfl
theorem faultResp (v : W64) : Statement (.faultResp v) := rfl
theorem fqResp (v : W64) : Statement (.fqResp v) := rfl
theorem ioinval (v : W64) : Statement (.ioinval v) := rfl
theorem ioinvalComplete : Statement (.ioinvalComplete) := rfl
theorem tocsinPost (i : Nat) : Statement (.tocsinPost i) := rfl
theorem tqConsWrite (v : W32) : Statement (.tqConsWrite v) := rfl
theorem tqEnable (v : W32) : Statement (.tqEnable v) := rfl
theorem overflowMarkerRewrite : Statement (.overflowMarkerRewrite) := rfl
theorem forwardQueuePost (i : Nat) : Statement (.forwardQueuePost i) := rfl
theorem counterDecay : Statement (.counterDecay) := rfl
theorem migrationCopy : Statement (.migrationCopy) := rfl
theorem migrationZero : Statement (.migrationZero) := rfl
theorem migrationAdvise : Statement (.migrationAdvise) := rfl
theorem winCommit (v : W32) : Statement (.winCommit v) := rfl
theorem unmapGo (v : W32) : Statement (.unmapGo v) := rfl
theorem unmapPhaseOneComplete : Statement (.unmapPhaseOneComplete) := rfl
theorem unmapDrained : Statement (.unmapDrained) := rfl
theorem coreStart (c : CoreId) (entry : W64) : Statement (.coreStart c entry) := rfl
theorem cboClean (c : CoreId) (addr : Nat) : Statement (.cboClean c addr) := rfl
theorem cboFlush (c : CoreId) (addr : Nat) : Statement (.cboFlush c addr) := rfl
theorem cboInval (c : CoreId) (addr : Nat) : Statement (.cboInval c addr) := rfl
theorem cleanByRange (c : CoreId) : Statement (.cleanByRange c) := rfl
theorem invalidateByRange (c : CoreId) : Statement (.invalidateByRange c) := rfl
theorem rangeOperationComplete (c : CoreId) : Statement (.rangeOperationComplete c) := rfl
theorem machineTimerInterrupt (c : CoreId) : Statement (.machineTimerInterrupt c) := rfl
theorem hostMsgFree (v : W32) : Statement (.hostMsgFree v) := rfl
theorem rtMsgOffer (v : W32) : Statement (.rtMsgOffer v) := rfl
theorem monitorEvaluation (u : MonUnit) (margin : Nat) (inRange : Bool) (reading : W16) : Statement (.monitorEvaluation u margin inRange reading) := rfl
theorem trimSave : Statement (.trimSave) := rfl
theorem streamOpen (s : StreamId) (v : W32) : Statement (.streamOpen s v) := rfl
theorem streamClose (s : StreamId) (v : W32) : Statement (.streamClose s v) := rfl
theorem doorbell (s : StreamId) (v : W32) : Statement (.doorbell s v) := rfl
theorem slotRead (s : StreamId) : Statement (.slotRead s) := rfl
theorem slotReread (s : StreamId) : Statement (.slotReread s) := rfl
theorem streamNop (s : StreamId) (i : Nat) : Statement (.streamNop s i) := rfl
theorem streamInline (s : StreamId) (i : Nat) : Statement (.streamInline s i) := rfl
theorem inlineChain (s : StreamId) (i : Nat) : Statement (.inlineChain s i) := rfl
theorem streamCopy (s : StreamId) (i : Nat) : Statement (.streamCopy s i) := rfl
theorem streamLaunch (s : StreamId) (i : Nat) (prefTiles : List TileId) (prefBells : List BellId) : Statement (.streamLaunch s i prefTiles prefBells) := rfl
theorem streamTerminate (s : StreamId) (i : Nat) : Statement (.streamTerminate s i) := rfl
theorem streamRing (s : StreamId) (i : Nat) : Statement (.streamRing s i) := rfl
theorem streamWait (s : StreamId) (i : Nat) : Statement (.streamWait s i) := rfl
theorem streamFence (s : StreamId) (i : Nat) : Statement (.streamFence s i) := rfl
theorem roll (s : StreamId) (i : Nat) : Statement (.roll s i) := rfl
theorem completionEntry (s : StreamId) (i : Nat) : Statement (.completionEntry s i) := rfl
theorem apertureWrite (off : Nat) (bytes : List Byte) (requester : W16) : Statement (.apertureWrite off bytes requester) := rfl
theorem apertureRead (off len : Nat) (requester : W16) : Statement (.apertureRead off len requester) := rfl
theorem cxlMemRead (addr : Nat) (len : Nat) : Statement (.cxlMemRead addr len) := rfl
theorem cxlMemWrite (addr : Nat) (bytes : List Byte) : Statement (.cxlMemWrite addr bytes) := rfl
theorem hdmCommit (i : Fin 2) (req : HdmReq) : Statement (.hdmCommit i req) := rfl
theorem hostSnoop (kind : SnoopKind) (addr : Nat) : Statement (.hostSnoop kind addr) := rfl
theorem getSupportedLogs : Statement (.getSupportedLogs) := rfl
theorem getLog : Statement (.getLog) := rfl
theorem mydarRequest (f : Pdu) : Statement (.mydarRequest f) := rfl
theorem runtimeSend (bytes : List Byte) : Statement (.runtimeSend bytes) := rfl
theorem runtimeRecv : Statement (.runtimeRecv) := rfl
theorem linkRecovery : Statement (.linkRecovery) := rfl
theorem hostLoss (cause : LossCause) : Statement (.hostLoss cause) := rfl
theorem hostLinkUp (rate : LinkRate) : Statement (.hostLinkUp rate) := rfl
theorem kettleCycle (r : KettleIn) : Statement (.kettleCycle r) := rfl
theorem kettleRoll (v : W64) : Statement (.kettleRoll v) := rfl
theorem currentLimitAlert (die : ADie) (amps : W32) : Statement (.currentLimitAlert die amps) := rfl
theorem inputReport (volt10mV : Nat) (watts : Nat) : Statement (.inputReport volt10mV watts) := rfl
theorem railTargetReached : Statement (.railTargetReached) := rfl
theorem dictRead (p : Path) (f : Pdu) : Statement (.dictRead p f) := rfl
theorem dictWrite (p : Path) (f : Pdu) : Statement (.dictWrite p f) := rfl
theorem dictFreeze (p : Path) (f : Pdu) : Statement (.dictFreeze p f) := rfl
theorem dictRelease (p : Path) (f : Pdu) : Statement (.dictRelease p f) := rfl
theorem dictDescribe (p : Path) (f : Pdu) : Statement (.dictDescribe p f) := rfl
theorem dictDiscover (p : Path) (f : Pdu) : Statement (.dictDiscover p f) := rfl
theorem dictOpen (p : Path) (f : Pdu) : Statement (.dictOpen p f) := rfl
theorem dictClose (p : Path) (f : Pdu) : Statement (.dictClose p f) := rfl
theorem sessionIdleTimeout (p : Path) (session : W32) : Statement (.sessionIdleTimeout p session) := rfl
theorem frameDrop (why : FrameFault) : Statement (.frameDrop why) := rfl
theorem sealedComplete : Statement (.sealedComplete) := rfl
theorem telemetryWindow : Statement (.telemetryWindow) := rfl
theorem getVersion (p : SpdmPath) : Statement (.getVersion p) := rfl
theorem getCapabilities (p : SpdmPath) : Statement (.getCapabilities p) := rfl
theorem negotiateAlgorithms (p : SpdmPath) (common : Bool) : Statement (.negotiateAlgorithms p common) := rfl
theorem getDigests (p : SpdmPath) : Statement (.getDigests p) := rfl
theorem getCertificate (p : SpdmPath) (slot : Nat) (offset len : Nat) : Statement (.getCertificate p slot offset len) := rfl
theorem challenge (p : SpdmPath) (nonce : List Byte) : Statement (.challenge p nonce) := rfl
theorem getMeasurements (p : SpdmPath) (nonce : List Byte) : Statement (.getMeasurements p nonce) := rfl
theorem keyExchange (p : SpdmPath) (exchange : List Byte) : Statement (.keyExchange p exchange) := rfl
theorem finish (p : SpdmPath) (valid bothSides : Bool) : Statement (.finish p valid bothSides) := rfl
theorem heartbeat (p : SpdmPath) : Statement (.heartbeat p) := rfl
theorem keyUpdate (p : SpdmPath) : Statement (.keyUpdate p) := rfl
theorem endSession (p : SpdmPath) : Statement (.endSession p) := rfl
theorem romBegin (slot : Byte) (len : W32) : Statement (.romBegin slot len) := rfl
theorem romData (offset : W32) (bytes : List Byte) : Statement (.romData offset bytes) := rfl
theorem romEnd : Statement (.romEnd) := rfl
theorem powerOn (volt10mV : Nat) : Statement (.powerOn volt10mV) := rfl
theorem resetN (low : Bool) (micros : Nat) : Statement (.resetN low micros) := rfl
theorem enBreak (micros : Nat) : Statement (.enBreak micros) := rfl
theorem latchOpened (bay : Fin 2) : Statement (.latchOpened bay) := rfl
theorem bayInserted (bay : Fin 2) : Statement (.bayInserted bay) := rfl
theorem actNone (who : Principal) : Statement (.actNone who) := rfl
theorem coldReset (who : Principal) : Statement (.coldReset who) := rfl
theorem bringupDone (who : Principal) : Statement (.bringupDone who) := rfl
theorem takeOut (who : Principal) (u : ServiceUnit) (force : Bool) : Statement (.takeOut who u force) := rfl
theorem bringBack (who : Principal) (u : ServiceUnit) : Statement (.bringBack who u) := rfl
theorem retest (who : Principal) (t : TileId) : Statement (.retest who t) := rfl
theorem dieReset (who : Principal) (die : ADie) : Statement (.dieReset who die) := rfl
theorem writeSlot (who : Principal) (slot : Fin 6) (chunk : BitVec 12) (len16 : W16) : Statement (.writeSlot who slot chunk len16) := rfl
theorem debugOpen (who : Principal) (set : BitVec 3) : Statement (.debugOpen who set) := rfl
theorem debugClose (who : Principal) : Statement (.debugClose who) := rfl
theorem unitOutOfService (u : ServiceUnit) : Statement (.unitOutOfService u) := rfl
theorem reintegration (u : ServiceUnit) (passed : Bool) : Statement (.reintegration u passed) := rfl
theorem portEnable (p : PortId) (v : W32) : Statement (.portEnable p v) := rfl
theorem portDisable (p : PortId) (v : W32) : Statement (.portDisable p v) := rfl
theorem widthRequest (p : PortId) (v : W32) : Statement (.widthRequest p v) := rfl
theorem widthLapse (p : PortId) : Statement (.widthLapse p) := rfl
theorem portBringup (p : PortId) (probe : PortProbe) : Statement (.portBringup p probe) := rfl
theorem neighbourRecheck (p : PortId) : Statement (.neighbourRecheck p) := rfl
theorem coordinateCheck (p : PortId) : Statement (.coordinateCheck p) := rfl
theorem linkHeartbeatTimeout (p : PortId) : Statement (.linkHeartbeatTimeout p) := rfl
theorem flitDiscard (p : PortId) (f : Trailer) : Statement (.flitDiscard p f) := rfl
theorem linkReplay (p : PortId) (ackseq : BitVec 12) : Statement (.linkReplay p ackseq) := rfl
theorem caps (p : PortId) (m : Caps) : Statement (.caps p m) := rfl
theorem width (p : PortId) (half : Fin 2) : Statement (.width p half) := rfl
theorem key (p : PortId) : Statement (.key p) := rfl
theorem spdm (p : PortId) (m : PeerProof) : Statement (.spdm p m) := rfl
theorem rekey (p : PortId) (tx : Bool) : Statement (.rekey p tx) := rfl
theorem putData (p : PortId) (m : Msg) : Statement (.putData p m) := rfl
theorem getReq (p : PortId) (m : Msg) : Statement (.getReq p m) := rfl
theorem remoteRing (p : PortId) (m : Msg) : Statement (.remoteRing p m) := rfl
theorem putAck (p : PortId) (m : Msg) : Statement (.putAck p m) := rfl
theorem getData (p : PortId) (m : Msg) : Statement (.getData p m) := rfl
theorem nack (p : PortId) (m : Msg) : Statement (.nack p m) := rfl
theorem peal (p : PortId) (m : Msg) : Statement (.peal p m) := rfl
theorem messageTimeout (p : PortId) (slot : Fin 2048) : Statement (.messageTimeout p slot) := rfl
theorem slotEpochAdvance (p : PortId) (slot : Fin 2048) : Statement (.slotEpochAdvance p slot) := rfl
theorem violationHalving : Statement (.violationHalving) := rfl
theorem qclear (p : PortId) (v : W32) : Statement (.qclear p v) := rfl
theorem rs (s : PealSlot) : Statement (.rs s) := rfl
theorem ag (s : PealSlot) : Statement (.ag s) := rfl
theorem ar (s : PealSlot) : Statement (.ar s) := rfl
theorem pealTimeout (s : PealSlot) : Statement (.pealTimeout s) := rfl
theorem pealDescriptorComplete (s : PealSlot) : Statement (.pealDescriptorComplete s) := rfl
theorem pealBind (s : PealSlot) : Statement (.pealBind s) := rfl
theorem lotHandover (s : PealSlot) (lot : Nat) : Statement (.lotHandover s lot) := rfl
theorem jobAccept : Statement (.jobAccept) := rfl
theorem lotRun (u : Ctrl) : Statement (.lotRun u) := rfl
theorem jobComplete (j : JobSlot) : Statement (.jobComplete j) := rfl
theorem cadAdv (v : W32) : Statement (.cadAdv v) := rfl
theorem cadSetC (v : W64) : Statement (.cadSetC v) := rfl
theorem cadCommit (v : W32) : Statement (.cadCommit v) := rfl
theorem cadenceDelivery : Statement (.cadenceDelivery) := rfl
theorem hoopPacket (l : LinkId) (rev : Bool) (p : HoopPkt) : Statement (.hoopPacket l rev p) := rfl
theorem linkControl (l : LinkId) (rev : Bool) (p : HoopCtl) : Statement (.linkControl l rev p) := rfl
theorem linkControlSend (l : LinkId) (rev : Bool) : Statement (.linkControlSend l rev) := rfl
theorem retrain (l : LinkId) : Statement (.retrain l) := rfl
theorem trainingComplete (l : LinkId) (f : TrainFindings) : Statement (.trainingComplete l f) := rfl
theorem registerWrite (addr : Nat) (wide : Bool) (v : W64) : Statement (.registerWrite addr wide v) := rfl
theorem linkReturnToL0 (rate : LinkRate) : Statement (.linkReturnToL0 rate) := rfl
theorem supervisorTimerInterrupt (c : CoreId) (virt : Bool) : Statement (.supervisorTimerInterrupt c virt) := rfl
theorem idleFlit (p : PortId) (f : Trailer) : Statement (.idleFlit p f) := rfl
theorem fqConsWrite (v : W32) : Statement (.fqConsWrite v) := rfl
theorem fqEnable (v : W32) : Statement (.fqEnable v) := rfl
theorem migrationDescriptorComplete : Statement (.migrationDescriptorComplete) := rfl
theorem writeSlotEnded (ok : Bool) : Statement (.writeSlotEnded ok) := rfl
theorem doeDiscovery (index : Byte) : Statement (.doeDiscovery index) := rfl
theorem ideKm (activate : Bool) (key : List Byte) (integrityFault : Bool) : Statement (.ideKm activate key integrityFault) := rfl
theorem enTied (millis : Nat) : Statement (.enTied millis) := rfl

end Sys2Proof.Laws.Parts
end

