-- ==== Sys2Proof/Laws/Ports.lean ====
section
/-! SUPPORT. What a link that goes down, the transfers and the loss of the host leave of ports and streams. -/

namespace Sys2Proof.Machine

/-- The ports agree but for their link layers and key counts. -/
structure SamePorts (s u : State) : Prop where
  same : ∀ q, { u.port q with link := LinkLayer.fresh, txCount := 0#64 } = { s.port q with link := LinkLayer.fresh, txCount := 0#64 }
theorem SamePorts.refl (s : State) : SamePorts s s := ⟨fun _ => rfl⟩
theorem SamePorts.trans {s u v : State} (h : SamePorts s u) (g : SamePorts u v) : SamePorts s v := ⟨fun q => (g.same q).trans (h.same q)⟩
theorem SamePorts.of_ports {s u : State} (h : u.net.ports = s.net.ports) : SamePorts s u := ⟨fun q => by simp only [State.port, NetS.port, h]⟩
theorem SamePorts.of_net {s u : State} (h : u.net = s.net) : SamePorts s u := .of_ports (by rw [h])
theorem SamePorts.set (s : State) (p : PortId) (l : LinkLayer) (c : W64) : SamePorts s (s.setPort p { s.port p with link := l, txCount := c }) := by
  refine ⟨fun q => ?_⟩
  by_cases e : q = p
  · subst e; rw [State.setPort_port_self]
  · rw [State.setPort_port_ne _ _ _ _ e]
theorem SamePorts.get {s u : State} (h : SamePorts s u) {α : Type} (f : Port → α) (hf : ∀ x l c, f { x with link := l, txCount := c } = f x) (q : PortId) : f (u.port q) = f (s.port q) := by
  rw [← hf (u.port q) LinkLayer.fresh 0#64, h.same q, hf]
theorem SamePorts.foldl {α : Type} (f : State → α → State) (h : ∀ s a, SamePorts s (f s a)) (l : List α) (s : State) : SamePorts s (l.foldl f s) := by
  induction l generalizing s with
  | nil => exact .refl s
  | cons a l ih => exact (h s a).trans (ih _)
theorem same_when (s : State) (c : Bool) (f : State → State) (h : SamePorts s (f s)) : SamePorts s (s.when c f) := by
  cases c
  · exact .refl s
  · exact h
theorem same_flushPort (s : State) (p : PortId) : SamePorts s (s.flushPort p) := .set ..
theorem same_enqueue (s : State) (p : PortId) (i : TxItem) : SamePorts s (s.enqueue p i) :=
  (SamePorts.set s p _ (s.port p).txCount).trans (same_flushPort _ p)
theorem same_raise (s : State) (c t d k u : Nat) (p : List Byte) : SamePorts s (s.raise c t d k u p) := .of_net (by simp)
theorem same_respond (s : State) (m : Msg) (t n : Nat) (b : List Byte) : SamePorts s (s.respond m t n b) := by
  unfold State.respond; dsimp only
  split
  · exact .refl s
  · exact same_enqueue ..
theorem same_ownMessage (s : State) (x : Xfer) (q : Pending) : SamePorts s (s.ownMessage x q).1 := by
  unfold State.ownMessage; dsimp only
  split
  · exact .of_net (by simp)
  · split
    · exact .of_net (by simp)
    · exact .of_net (by simp)
  · exact .of_net (by simp)
theorem same_sendRequest (s : State) (x : Xfer) (q : Pending) (p : PortId) (m : Msg) (k : Nat) : SamePorts s (s.sendRequest x q p m k) := by
  unfold State.sendRequest; dsimp only
  refine SamePorts.trans ?_ (same_enqueue ..)
  exact .of_ports rfl
theorem same_pumpOne (s : State) (x : Xfer) : SamePorts s (s.pumpOne x).1 := by
  unfold State.pumpOne
  split
  · exact .refl s
  · split
    · split <;> exact .refl s
    · dsimp only
      split
      · exact same_ownMessage ..
      · split
        · exact .refl s
        · split
          · exact .refl s
          · exact same_sendRequest ..
theorem same_pump (fuel : Nat) (s : State) (x : Xfer) : SamePorts s (s.pump x fuel).1 := by
  induction fuel generalizing s x with
  | zero => exact .refl s
  | succ n ih =>
    unfold State.pump; dsimp only
    split
    · exact (same_pumpOne s x).trans (ih _ _)
    · exact same_pumpOne s x
theorem same_xferEnd (s : State) (x : Xfer) : SamePorts s (s.xferEnd x) := by
  unfold State.xferEnd; dsimp only
  split
  · exact .of_ports rfl
  · split
    · exact .of_ports rfl
    · split
      · exact .of_ports (by simp [NetS.dropXfer])
      · refine SamePorts.trans ?_ (.of_net (State.setDesc_frame _ _ _ _ |>.2.2.2.2.2.2.2.2.2.2.1))
        refine SamePorts.trans (u := { s with net := s.net.dropXfer x.tile x.idx }) (.of_ports rfl) ?_
        exact same_when _ _ _ (.of_net (by simp))
theorem same_xferStep (s : State) (x : Xfer) : SamePorts s (s.xferStep x) := by
  unfold State.xferStep; dsimp only
  split
  · exact (same_pump _ s x).trans (same_xferEnd ..)
  · exact (same_pump _ s x).trans (.of_ports rfl)
theorem same_answerXfer (s : State) (p : PortId) (k n : Nat) (d : Option (List Byte)) : SamePorts s (s.answerXfer p k n d) := by
  unfold State.answerXfer; dsimp only
  refine SamePorts.trans (u := { s with net := s.net.setTracker p k { s.net.tracker p k with busy := false } }) (.of_ports rfl) ?_
  split
  · exact .refl _
  · split
    · exact same_xferStep ..
    · exact SamePorts.trans (.of_net (by simp)) (same_xferStep ..)
theorem same_refuseMsg (s : State) (m : Msg) (n : Nat) : SamePorts s (s.refuseMsg m n) := by
  unfold State.refuseMsg
  split
  · exact same_answerXfer ..
  · exact same_respond ..
theorem same_reroute (s : State) (q : List TxItem) : SamePorts s (s.reroute q) := by
  unfold State.reroute
  refine .foldl _ (fun s i => ?_) _ _
  split
  · exact .refl s
  · split
    · exact .refl s
    · split
      · exact same_enqueue ..
      · exact same_refuseMsg ..
theorem same_pealFail (s : State) (k : PealSlot) (st : W32) : SamePorts s (s.pealFail k st) := by
  unfold State.pealFail; dsimp only
  split
  · exact .refl s
  · split
    · exact .refl s
    · refine SamePorts.trans ?_ (same_raise ..)
      refine SamePorts.trans ?_ (same_when _ _ _ (.of_net (by simp)))
      exact .of_ports rfl
theorem same_pealPortDown (s : State) (p : PortId) : SamePorts s (s.pealPortDown p) := by
  unfold State.pealPortDown
  refine .foldl _ (fun s k => ?_) _ _
  split
  · exact .refl s
  · split
    · exact same_pealFail ..
    · exact .refl s
theorem linkDown_same (s : State) (p : PortId) (c : Nat) (h : (s.port p).linked = true) : SamePorts (s.setPort p { (s.port p).drop with downs := satInc32 (s.port p).downs }) (s.linkDown p c) := by
  unfold State.linkDown; dsimp only
  rw [if_neg (by simp [h])]
  refine SamePorts.trans ?_ (same_reroute ..)
  refine SamePorts.trans ?_ (same_pealPortDown ..)
  exact .of_net (by simp [State.raisePort])
theorem drop_linked (x : Port) (n : W32) : ({ x.drop with downs := n } : Port).linked = false := by
  unfold Port.linked Port.drop; cases x.en <;> simp
theorem linkDown_linked (s : State) (p : PortId) (c : Nat) : ((s.linkDown p c).port p).linked = false := by
  by_cases h : (s.port p).linked = true
  · rw [(linkDown_same s p c h).get Port.linked (fun _ _ _ => rfl), State.setPort_port_self]; exact drop_linked ..
  · have : s.linkDown p c = s := by unfold State.linkDown; simp [h]
    rw [this]; simpa using h
theorem linkDown_other (s : State) (p q : PortId) (c : Nat) (hq : q ≠ p) {α : Type} (f : Port → α) (hf : ∀ x l c, f { x with link := l, txCount := c } = f x) :
    f ((s.linkDown p c).port q) = f (s.port q) := by
  by_cases h : (s.port p).linked = true
  · rw [(linkDown_same s p c h).get f hf, State.setPort_port_ne _ _ _ _ hq]
  · have : s.linkDown p c = s := by unfold State.linkDown; simp [h]
    rw [this]
theorem linkDown_self (s : State) (p : PortId) (c : Nat) (h : (s.port p).linked = true) {α : Type} (f : Port → α) (hf : ∀ x l c, f { x with link := l, txCount := c } = f x) :
    f ((s.linkDown p c).port p) = f { (s.port p).drop with downs := satInc32 (s.port p).downs } := by
  rw [(linkDown_same s p c h).get f hf, State.setPort_port_self]
theorem loseHost_facts (s : State) (c : LossCause) (h : s.cxl.state = 1 ∨ s.cxl.state = 2) :
    (s.loseHost c).cxl = (((((s.setCxl { s.cxl with state := 3, losses := min (s.cxl.losses + 1) 255, lanes := 0, gts := 0, ideKey := [], ideOn := false }).loseHostPages).loseForwarded).dropHostLines).setCxl
      (((((s.setCxl { s.cxl with state := 3, losses := min (s.cxl.losses + 1) 255, lanes := 0, gts := 0, ideKey := [], ideOn := false }).loseHostPages).loseForwarded).dropHostLines).cxl.mapStreams StreamS.lose) |>.hostLog 6 0 0 0 (lossCode c)).cxl := by
  unfold State.loseHost
  rw [if_neg (by rcases h with h | h <;> simp [h])]
  dsimp only
  have h1 : ∀ x : State, x.resumePeals.cxl = x.cxl := fun x => by simp
  rw [h1]
  rfl
theorem mapStreams_keep {α : Type} (g : CxlS → α) (hg : ∀ c m, g { c with streams := m } = g c) (c : CxlS) (f : StreamS → StreamS) : g (c.mapStreams f) = g c := by
  unfold CxlS.mapStreams
  exact foldl_keep g _ (fun c i => hg c _) _ _
theorem mapStreams_stream (c : CxlS) (f : StreamS → StreamS) (i : StreamId) : (c.mapStreams f).stream i = f (c.stream i) := by
  have go : ∀ (l : List StreamId) (c : CxlS), l.Nodup → (l.foldl (fun c i => c.setStream i (f (c.stream i))) c).stream i = if i ∈ l then f (c.stream i) else c.stream i := by
    intro l
    induction l with
    | nil => intro c _; simp
    | cons a l ih =>
      intro c hn
      rw [List.foldl_cons, ih _ (List.nodup_cons.mp hn).2]
      have hs : (c.setStream a (f (c.stream a))).stream i = if i = a then f (c.stream a) else c.stream i := by
        unfold CxlS.setStream CxlS.stream
        dsimp only
        rw [Map.get_set]
        by_cases e : i = a
        · subst e; simp
        · have : ¬ i.val = a.val := fun h => e (Fin.ext h)
          simp [e, this]
      rw [hs]
      by_cases e : i = a
      · subst e; simp [(List.nodup_cons.mp hn).1]
      · simp [e]
  unfold CxlS.mapStreams
  have := go (List.finRange 256) c (List.nodup_finRange 256)
  rw [if_pos (List.mem_finRange i)] at this
  exact this
theorem hostLog_cxl {α : Type} (g : CxlS → α) (hg : ∀ c l t m, g { c with logs := l, logTotal := t, msix := m } = g c) (s : State) (k a b c d : Nat) : g (s.hostLog k a b c d).cxl = g s.cxl := by
  unfold State.hostLog State.vector State.setCxl
  dsimp only
  exact hg s.cxl _ _ _
theorem lostCxl (x : State) : (x.loseHostPages.loseForwarded.dropHostLines).cxl = x.cxl := by
  have a : ∀ y : State, y.dropHostLines.cxl = y.cxl := fun _ => rfl
  have b : ∀ y : State, y.loseForwarded.cxl = y.cxl := fun y => by simp
  have c : x.loseHostPages.cxl = x.cxl := rfl
  rw [a, b, c]
theorem route_hostMsg (c : CoreS) (n : Nat) : (c.route n).hostMsg = c.hostMsg ∧ (c.route n).hostMsgLen = c.hostMsgLen := by
  unfold CoreS.route
  dsimp only
  split
  · unfold CoreS.deliver
    dsimp only
    split <;> exact ⟨rfl, rfl⟩
  · exact ⟨rfl, rfl⟩
theorem setCxl_cxl (s : State) (c : CxlS) : (s.setCxl c).cxl = c := rfl
theorem lose_keep {α : Type} (g : CxlS → α) (hg : ∀ c l t m, g { c with logs := l, logTotal := t, msix := m } = g c) (hm : ∀ c m, g { c with streams := m } = g c)
    (s : State) (c : LossCause) (h : s.cxl.state = 1 ∨ s.cxl.state = 2) :
    g (s.loseHost c).cxl = g { s.cxl with state := 3, losses := min (s.cxl.losses + 1) 255, lanes := 0, gts := 0, ideKey := [], ideOn := false } := by
  rw [loseHost_facts s c h, hostLog_cxl g hg]
  rw [setCxl_cxl, mapStreams_keep g hm, lostCxl, setCxl_cxl]

end Sys2Proof.Machine
end

