-- ==== Sys2Proof/Laws/Registers.lean ====
section
/-! SUPPORT. A write of a device register by its block and offset. -/

namespace Sys2Proof.Machine

theorem element_some (off base stride n i p : Nat) (h : element off base stride n = some (i, p)) :
    base ≤ off ∧ off < base + stride * n ∧ i = (off - base) / stride ∧ p = (off - base) % stride := by
  unfold element at h
  split at h
  · rename_i hc
    simp only [Bool.and_eq_true, decide_eq_true_eq] at hc
    have h2 := Option.some.inj h
    exact ⟨hc.1, hc.2, (congrArg Prod.fst h2).symm, (congrArg Prod.snd h2).symm⟩
  · exact absurd h (by simp)
theorem element_none (off base stride n : Nat) (h : off < base ∨ base + stride * n ≤ off) : element off base stride n = none := by
  unfold element
  have : ¬ ((decide (base ≤ off) && decide (off < base + stride * n)) = true) := by
    simp only [Bool.and_eq_true, decide_eq_true_eq]; omega
  exact if_neg this
theorem element_of (off base stride n i p : Nat) (h : off = base + stride * i + p) (hp : p < stride) (hi : i < n) : element off base stride n = some (i, p) := by
  subst h
  unfold element
  have hlt : stride * i + p < stride * n := by
    calc stride * i + p < stride * i + stride := by omega
      _ = stride * (i + 1) := by rw [Nat.mul_add, Nat.mul_one]
      _ ≤ stride * n := Nat.mul_le_mul_left _ hi
  have h1 : (decide (base ≤ base + stride * i + p) && decide (base + stride * i + p < base + stride * n)) = true := by
    simp only [Bool.and_eq_true, decide_eq_true_eq]; omega
  rw [if_pos h1]
  have h2 : base + stride * i + p - base = stride * i + p := by omega
  rw [h2, Nat.mul_add_div (by omega), Nat.mul_add_mod, Nat.div_eq_of_lt hp, Nat.mod_eq_of_lt hp, Nat.add_zero]
theorem blockOf_eq (a : Nat) : blockOf a = element a 0x3F0000000000 0x100000000 9 := by
  unfold blockOf
  generalize element a 0x3F0000000000 0x100000000 9 = e
  cases e <;> rfl
theorem blockOf_iff (a b o : Nat) (h : blockOf a = some (b, o)) : a = devAddr b o ∧ b < 9 ∧ o < 2 ^ 32 := by
  rw [blockOf_eq] at h
  obtain ⟨h1, h2, h3, h4⟩ := element_some _ _ _ _ _ _ h
  generalize hk : a - 0x3F0000000000 = k at h3 h4
  have ha : a = 0x3F0000000000 + k := by omega
  unfold devAddr
  clear h
  omega
theorem blockOf_dev (b o : Nat) (hb : b < 9) (ho : o < 2 ^ 32) : blockOf (devAddr b o) = some (b, o) := by
  rw [blockOf_eq]
  exact element_of _ _ _ _ _ _ (by unfold devAddr; omega) ho hb
theorem dev_csr (b o : Nat) (hb : b < 9) (ho : o < 2 ^ 32) : element (devAddr b o) csrSpace 4096 96 = none := by
  apply element_none
  left
  unfold csrSpace devAddr
  omega
theorem dev_bar2 (b o : Nat) (hb : b < 9) (ho : o < 2 ^ 32) : element (devAddr b o) bar2Space 0x20000 1 = none := by
  apply element_none
  left
  unfold bar2Space devAddr
  omega
theorem dev_bar0 (b o : Nat) (hb : b < 9) (ho : o < 2 ^ 32) : element (devAddr b o) bar0Space (2 ^ 20) 1 = none := by
  apply element_none
  left
  unfold bar0Space devAddr
  omega
theorem regw_at (a : Nat) (e1 : element a csrSpace 4096 96 = none) (e2 : element a bar2Space 0x20000 1 = none) (e3 : element a bar0Space (2 ^ 20) 1 = none)
    (s : State) (b o : Nat) (h : blockOf a = some (b, o)) (wide : Bool) (v : W64) :
    execRegisterWrite a wide v s = .next (if o % (if wide then 8 else 4) = 0 then
      s.regWrite none b o (if wide then 8 else 4) (if wide then v.toNat else v.toNat % 2 ^ 32) else s) := by
  unfold execRegisterWrite
  simp only [e1, e2, e3, h]
theorem regw_dev (s : State) (b o : Nat) (hb : b < 9) (ho : o < 2 ^ 32) (wide : Bool) (v : W64) :
    exec (.registerWrite (devAddr b o) wide v) s = .next (if o % (if wide then 8 else 4) = 0 then
      s.regWrite none b o (if wide then 8 else 4) (if wide then v.toNat else v.toNat % 2 ^ 32) else s) := by
  rw [exec_registerWrite]
  exact regw_at _ (dev_csr b o hb ho) (dev_bar2 b o hb ho) (dev_bar0 b o hb ho) s b o (blockOf_dev b o hb ho) wide v
theorem w8 (v : W64) (x : Nat) (s : State) (b o : Nat) (h1 : b < 9) (h2 : o < 2 ^ 32) (ho : o % 8 = 0) (hr : s.reg b o = some (8, x)) :
    exec (.registerWrite (devAddr b o) true v) s = .next (s.putReg none b o v.toNat) := by
  rw [regw_dev s b o h1 h2]
  simp only [if_true, ho]
  unfold State.regWrite
  rw [if_neg (by decide), hr]
  rfl
theorem w4 (v : W64) (s : State) (b o : Nat) (h1 : b < 9) (h2 : o < 2 ^ 32) (ho : o % 4 = 0) :
    exec (.registerWrite (devAddr b o) false v) s = .next (s.putWord none b o (v.toNat % 2 ^ 32)) := by
  rw [regw_dev s b o h1 h2]
  simp only [Bool.false_eq_true, if_false, ho, if_true]
  unfold State.regWrite
  rw [if_pos rfl, Nat.mod_mod]
theorem put_self (s : State) (b o x n w : Nat) (hr : s.reg b o = some (n, x)) (hn : n ≠ 8) : s.putWord none b o w = s.putReg none b o w := by
  unfold State.putWord
  rw [hr]
  split
  · rename_i h; cases h; exact absurd rfl hn
  · rfl
  · rename_i h; cases h
theorem put_half (s : State) (b o x w : Nat) (hr : s.reg b o = some (8, x)) : s.putWord none b o w = s.putReg none b o (w + x / 2 ^ 32 * 2 ^ 32) := by
  unfold State.putWord
  simp only [hr]
theorem put_high (s : State) (b o x w : Nat) (ho : o % 8 = 4) (hr : s.reg b o = none) (hr2 : s.reg b (o - 4) = some (8, x)) :
    s.putWord none b o w = s.putReg none b (o - 4) (x % 2 ^ 32 + w * 2 ^ 32) := by
  unfold State.putWord
  simp only [hr, hr2, ho, if_true]
theorem put_none (s : State) (b o w : Nat) (hr : s.reg b o = none) (hn : o % 8 = 4 → ∀ w, s.reg b (o - 4) ≠ some (8, w)) :
    s.putWord none b o w = if w = 0 then s else s.discard := by
  unfold State.putWord
  rw [hr]
  dsimp only
  by_cases hc : o % 8 = 4
  · rw [if_pos hc]
    split
    · rename_i w hw
      exact absurd hw (hn hc w)
    · rfl
  · rw [if_neg hc]
theorem toNat_lt (n : Nat) (h : n < 2 ^ 64) : (BitVec.ofNat 64 n).toNat = n := by rw [BitVec.toNat_ofNat, Nat.mod_eq_of_lt h]
theorem low_lt (a b : Nat) (hb : b < 2 ^ 64) : a % 2 ^ 32 + b / 2 ^ 32 * 2 ^ 32 < 2 ^ 64 := by
  have := Nat.mod_lt a (show 0 < 2 ^ 32 by decide)
  generalize a % 2 ^ 32 = k at *
  omega
theorem high_lt (a b : Nat) : a % 2 ^ 32 + b % 2 ^ 32 * 2 ^ 32 < 2 ^ 64 := by
  have := Nat.mod_lt b (show 0 < 2 ^ 32 by decide)
  have := Nat.mod_lt a (show 0 < 2 ^ 32 by decide)
  generalize a % 2 ^ 32 = k at *
  generalize b % 2 ^ 32 = k2 at *
  omega
theorem dev_sub (b o : Nat) (h : 4 ≤ o) : devAddr b o - 4 = devAddr b (o - 4) := by unfold devAddr; omega
theorem dev_add (b o : Nat) : devAddr b o + 4 = devAddr b (o + 4) := by unfold devAddr; omega
theorem half_mask (x y m : Nat) (h : x % 2 ^ 32 &&& (m % 2 ^ 32) ≠ 0) : (x % 2 ^ 32 + y * 2 ^ 32) &&& m ≠ 0 := by
  intro he
  apply h
  have : ((x % 2 ^ 32 + y * 2 ^ 32) &&& m) % 2 ^ 32 = 0 := by rw [he]; exact Nat.zero_mod _
  rw [Nat.and_mod_two_pow] at this
  rwa [Nat.add_mul_mod_self_right, Nat.mod_mod] at this
theorem high_mask (x y m : Nat) (h : y % 2 ^ 32 &&& (m / 2 ^ 32) ≠ 0) : (x % 2 ^ 32 + y % 2 ^ 32 * 2 ^ 32) &&& m ≠ 0 := by
  intro he
  apply h
  have : ((x % 2 ^ 32 + y % 2 ^ 32 * 2 ^ 32) &&& m) / 2 ^ 32 = 0 := by rw [he]; rfl
  rw [Nat.and_div_two_pow] at this
  rwa [Nat.add_mul_div_right _ _ (by decide), Nat.div_eq_of_lt (Nat.mod_lt _ (by decide)), Nat.zero_add] at this

end Sys2Proof.Machine
end

