-- ==== Sys2Proof/Laws/Total.lean ====
section
/-! SUPPORT. Every meaning answers a next state: no command faults or is refused. -/

namespace Sys2Proof.Machine

theorem execInstructionFetch_total (t : TileId) (pre : State) : ∃ post, execInstructionFetch t pre = .next post := by
  simp only [execInstructionFetch]
  (repeat' split) <;> exact ⟨_, rfl⟩
theorem execNop_total (t : TileId) (k : Tok) (pre : State) : ∃ post, execNop t k pre = .next post := ⟨_, rfl⟩
theorem execHalt_total (t : TileId) (k : Tok) (pre : State) : ∃ post, execHalt t k pre = .next post := ⟨_, rfl⟩
theorem execSadd_total (t : TileId) (k : Tok) (sd sa sb : Fin 32) (pre : State) : ∃ post, execSadd t k sd sa sb pre = .next post := ⟨_, rfl⟩
theorem execSsub_total (t : TileId) (k : Tok) (sd sa sb : Fin 32) (pre : State) : ∃ post, execSsub t k sd sa sb pre = .next post := ⟨_, rfl⟩
theorem execSand_total (t : TileId) (k : Tok) (sd sa sb : Fin 32) (pre : State) : ∃ post, execSand t k sd sa sb pre = .next post := ⟨_, rfl⟩
theorem execSor_total (t : TileId) (k : Tok) (sd sa sb : Fin 32) (pre : State) : ∃ post, execSor t k sd sa sb pre = .next post := ⟨_, rfl⟩
theorem execSxor_total (t : TileId) (k : Tok) (sd sa sb : Fin 32) (pre : State) : ∃ post, execSxor t k sd sa sb pre = .next post := ⟨_, rfl⟩
theorem execSshl_total (t : TileId) (k : Tok) (sd sa sb : Fin 32) (pre : State) : ∃ post, execSshl t k sd sa sb pre = .next post := ⟨_, rfl⟩
theorem execSshr_total (t : TileId) (k : Tok) (sd sa sb : Fin 32) (pre : State) : ∃ post, execSshr t k sd sa sb pre = .next post := ⟨_, rfl⟩
theorem execSmul_total (t : TileId) (k : Tok) (sd sa sb : Fin 32) (pre : State) : ∃ post, execSmul t k sd sa sb pre = .next post := ⟨_, rfl⟩
theorem execSaddi_total (t : TileId) (k : Tok) (sd sa : Fin 32) (imm : W32) (pre : State) : ∃ post, execSaddi t k sd sa imm pre = .next post := ⟨_, rfl⟩
theorem execSli_total (t : TileId) (k : Tok) (sd : Fin 32) (imm : W32) (pre : State) : ∃ post, execSli t k sd imm pre = .next post := ⟨_, rfl⟩
theorem execShi_total (t : TileId) (k : Tok) (sd : Fin 32) (imm : W32) (pre : State) : ∃ post, execShi t k sd imm pre = .next post := ⟨_, rfl⟩
theorem execSld_total (t : TileId) (k : Tok) (sd sa : Fin 32) (imm : W32) (pre : State) : ∃ post, execSld t k sd sa imm pre = .next post := ⟨_, rfl⟩
theorem execSst_total (t : TileId) (k : Tok) (sa sb : Fin 32) (imm : W32) (pre : State) : ∃ post, execSst t k sa sb imm pre = .next post := ⟨_, rfl⟩
theorem execBeq_total (t : TileId) (k : Tok) (sa sb : Fin 32) (imm : W32) (pre : State) : ∃ post, execBeq t k sa sb imm pre = .next post := ⟨_, rfl⟩
theorem execBne_total (t : TileId) (k : Tok) (sa sb : Fin 32) (imm : W32) (pre : State) : ∃ post, execBne t k sa sb imm pre = .next post := ⟨_, rfl⟩
theorem execBlt_total (t : TileId) (k : Tok) (sa sb : Fin 32) (imm : W32) (pre : State) : ∃ post, execBlt t k sa sb imm pre = .next post := ⟨_, rfl⟩
theorem execBltu_total (t : TileId) (k : Tok) (sa sb : Fin 32) (imm : W32) (pre : State) : ∃ post, execBltu t k sa sb imm pre = .next post := ⟨_, rfl⟩
theorem execJmp_total (t : TileId) (k : Tok) (imm : W32) (pre : State) : ∃ post, execJmp t k imm pre = .next post := ⟨_, rfl⟩
theorem execRing_total (t : TileId) (k : Tok) (bell : BitVec 12) (scope : Scope) (qmask : BitVec 3) (n : RingN) (pre : State) : ∃ post, execRing t k bell scope qmask n pre = .next post := ⟨_, rfl⟩
theorem execRingFire_total (t : TileId) (pre : State) : ∃ post, execRingFire t pre = .next post := by
  simp only [execRingFire]
  (repeat' split) <;> exact ⟨_, rfl⟩
theorem execWait_total (t : TileId) (k : Tok) (bell : BitVec 12) (scope : Scope) (treg : Fin 32) (pre : State) : ∃ post, execWait t k bell scope treg pre = .next post := ⟨_, rfl⟩
theorem execFence_total (t : TileId) (k : Tok) (scope : Scope) (qmask : BitVec 3) (pre : State) : ∃ post, execFence t k scope qmask pre = .next post := ⟨_, rfl⟩
theorem execFlags_total (t : TileId) (k : Tok) (sd : Fin 32) (clear : BitVec 7) (pre : State) : ∃ post, execFlags t k sd clear pre = .next post := ⟨_, rfl⟩
theorem execTally_total (t : TileId) (k : Tok) (sd : Fin 32) (pre : State) : ∃ post, execTally t k sd pre = .next post := ⟨_, rfl⟩
theorem execMma_total (t : TileId) (parity : Bool) (pre : State) : ∃ post, execMma t parity pre = .next post := ⟨_, rfl⟩
theorem execDrain_total (t : TileId) (parity : Bool) (pre : State) : ∃ post, execDrain t parity pre = .next post := ⟨_, rfl⟩
theorem execSclr_total (t : TileId) (pre : State) : ∃ post, execSclr t pre = .next post := ⟨_, rfl⟩
theorem execSsto_total (t : TileId) (pre : State) : ∃ post, execSsto t pre = .next post := ⟨_, rfl⟩
theorem execSeed_total (t : TileId) (pre : State) : ∃ post, execSeed t pre = .next post := ⟨_, rfl⟩
theorem execVadd_total (t : TileId) (pre : State) : ∃ post, execVadd t pre = .next post := ⟨_, rfl⟩
theorem execVsub_total (t : TileId) (pre : State) : ∃ post, execVsub t pre = .next post := ⟨_, rfl⟩
theorem execVmul_total (t : TileId) (pre : State) : ∃ post, execVmul t pre = .next post := ⟨_, rfl⟩
theorem execVfma_total (t : TileId) (pre : State) : ∃ post, execVfma t pre = .next post := ⟨_, rfl⟩
theorem execVfnma_total (t : TileId) (pre : State) : ∃ post, execVfnma t pre = .next post := ⟨_, rfl⟩
theorem execVmin_total (t : TileId) (pre : State) : ∃ post, execVmin t pre = .next post := ⟨_, rfl⟩
theorem execVmax_total (t : TileId) (pre : State) : ∃ post, execVmax t pre = .next post := ⟨_, rfl⟩
theorem execVabs_total (t : TileId) (pre : State) : ∃ post, execVabs t pre = .next post := ⟨_, rfl⟩
theorem execVneg_total (t : TileId) (pre : State) : ∃ post, execVneg t pre = .next post := ⟨_, rfl⟩
theorem execVdiv_total (t : TileId) (pre : State) : ∃ post, execVdiv t pre = .next post := ⟨_, rfl⟩
theorem execVsqrt_total (t : TileId) (pre : State) : ∃ post, execVsqrt t pre = .next post := ⟨_, rfl⟩
theorem execVcmplt_total (t : TileId) (pre : State) : ∃ post, execVcmplt t pre = .next post := ⟨_, rfl⟩
theorem execVcmpeq_total (t : TileId) (pre : State) : ∃ post, execVcmpeq t pre = .next post := ⟨_, rfl⟩
theorem execVclass_total (t : TileId) (pre : State) : ∃ post, execVclass t pre = .next post := ⟨_, rfl⟩
theorem execVsel_total (t : TileId) (pre : State) : ∃ post, execVsel t pre = .next post := ⟨_, rfl⟩
theorem execVbcast_total (t : TileId) (pre : State) : ∃ post, execVbcast t pre = .next post := ⟨_, rfl⟩
theorem execVld_total (t : TileId) (pre : State) : ∃ post, execVld t pre = .next post := ⟨_, rfl⟩
theorem execVst_total (t : TileId) (pre : State) : ∃ post, execVst t pre = .next post := ⟨_, rfl⟩
theorem execVrsum_total (t : TileId) (pre : State) : ∃ post, execVrsum t pre = .next post := ⟨_, rfl⟩
theorem execVrmax_total (t : TileId) (pre : State) : ∃ post, execVrmax t pre = .next post := ⟨_, rfl⟩
theorem execViadd_total (t : TileId) (pre : State) : ∃ post, execViadd t pre = .next post := ⟨_, rfl⟩
theorem execVisub_total (t : TileId) (pre : State) : ∃ post, execVisub t pre = .next post := ⟨_, rfl⟩
theorem execVimul_total (t : TileId) (pre : State) : ∃ post, execVimul t pre = .next post := ⟨_, rfl⟩
theorem execVand_total (t : TileId) (pre : State) : ∃ post, execVand t pre = .next post := ⟨_, rfl⟩
theorem execVor_total (t : TileId) (pre : State) : ∃ post, execVor t pre = .next post := ⟨_, rfl⟩
theorem execVxor_total (t : TileId) (pre : State) : ∃ post, execVxor t pre = .next post := ⟨_, rfl⟩
theorem execVshl_total (t : TileId) (pre : State) : ∃ post, execVshl t pre = .next post := ⟨_, rfl⟩
theorem execVshr_total (t : TileId) (pre : State) : ∃ post, execVshr t pre = .next post := ⟨_, rfl⟩
theorem execVshra_total (t : TileId) (pre : State) : ∃ post, execVshra t pre = .next post := ⟨_, rfl⟩
theorem execVcvtif_total (t : TileId) (pre : State) : ∃ post, execVcvtif t pre = .next post := ⟨_, rfl⟩
theorem execVcvtfi_total (t : TileId) (pre : State) : ∃ post, execVcvtfi t pre = .next post := ⟨_, rfl⟩
theorem execVmov_total (t : TileId) (pre : State) : ∃ post, execVmov t pre = .next post := ⟨_, rfl⟩
theorem execVcnt_total (u : Ctrl) (msk : Fin 8) (pre : State) : ∃ post, execVcnt u msk pre = .next post := ⟨_, rfl⟩
theorem execClapperVld_total (u : Ctrl) (vd : Fin 64) (msk : Fin 8) (stream : Fin 8) (pre : State) : ∃ post, execClapperVld u vd msk stream pre = .next post := ⟨_, rfl⟩
theorem execClapperVst_total (u : Ctrl) (vc : Fin 64) (msk : Fin 8) (stream : Fin 8) (rtz : Bool) (pre : State) : ∃ post, execClapperVst u vc msk stream rtz pre = .next post := ⟨_, rfl⟩
theorem execClapperVbcast_total (u : Ctrl) (vd : Fin 64) (msk : Fin 8) (sa : Fin 24) (pre : State) : ∃ post, execClapperVbcast u vd msk sa pre = .next post := ⟨_, rfl⟩
theorem execInstructionCompletion_total (t : TileId) (e : Engine) (idx : Nat) (pre : State) : ∃ post, execInstructionCompletion t e idx pre = .next post := ⟨_, rfl⟩
theorem execMsub_total (t : TileId) (pre : State) : ∃ post, execMsub t pre = .next post := ⟨_, rfl⟩
theorem execDescriptorAccept_total (t : TileId) (pre : State) : ∃ post, execDescriptorAccept t pre = .next post := by
  simp only [execDescriptorAccept]
  (repeat' split) <;> exact ⟨_, rfl⟩
theorem execCopy_total (t : TileId) (i : Nat) (pre : State) : ∃ post, execCopy t i pre = .next post := ⟨_, rfl⟩
theorem execTranspose_total (t : TileId) (i : Nat) (pre : State) : ∃ post, execTranspose t i pre = .next post := ⟨_, rfl⟩
theorem execFill_total (t : TileId) (i : Nat) (pre : State) : ∃ post, execFill t i pre = .next post := ⟨_, rfl⟩
theorem execInline_total (t : TileId) (i : Nat) (pre : State) : ∃ post, execInline t i pre = .next post := ⟨_, rfl⟩
theorem execPut_total (t : TileId) (i : Nat) (pre : State) : ∃ post, execPut t i pre = .next post := ⟨_, rfl⟩
theorem execGet_total (t : TileId) (i : Nat) (pre : State) : ∃ post, execGet t i pre = .next post := ⟨_, rfl⟩
theorem execDescriptorComplete_total (t : TileId) (i : Nat) (pre : State) : ∃ post, execDescriptorComplete t i pre = .next post := by
  simp only [execDescriptorComplete]
  (repeat' split) <;> exact ⟨_, rfl⟩
theorem execSet_total (b : BellId) (v : W64) (pre : State) : ∃ post, execSet b v pre = .next post := ⟨_, rfl⟩
theorem execRingRegisterWrite_total (c : CoreId) (b : BellId) (n : W64) (pre : State) : ∃ post, execRingRegisterWrite c b n pre = .next post := ⟨_, rfl⟩
theorem execBellBatch_total (die : ADie) (ops : List BellOp) (pre : State) : ∃ post, execBellBatch die ops pre = .next post := ⟨_, rfl⟩
theorem execLaunch_total (prefTiles : List TileId) (prefBells : List BellId) (pre : State) : ∃ post, execLaunch prefTiles prefBells pre = .next post := by
  simp only [execLaunch]
  (repeat' split) <;> exact ⟨_, rfl⟩
theorem execTerminate_total (pre : State) : ∃ post, execTerminate pre = .next post := by
  simp only [execTerminate]
  (repeat' split) <;> exact ⟨_, rfl⟩
theorem execTileStop_total (t : TileId) (pre : State) : ∃ post, execTileStop t pre = .next post := ⟨_, rfl⟩
theorem execTileProgramEnd_total (t : TileId) (pre : State) : ∃ post, execTileProgramEnd t pre = .next post := ⟨_, rfl⟩
theorem execCompletionRecord_total (kid : Nat) (pre : State) : ∃ post, execCompletionRecord kid pre = .next post := by
  simp only [execCompletionRecord]
  (repeat' split) <;> exact ⟨_, rfl⟩
theorem execTileClearEnd_total (t : TileId) (pre : State) : ∃ post, execTileClearEnd t pre = .next post := ⟨_, rfl⟩
theorem execArraySelfTest_total (t : TileId) (found : SelfTest) (pre : State) : ∃ post, execArraySelfTest t found pre = .next post := ⟨_, rfl⟩
theorem execSrSeedWrite_total (t : TileId) (v : W64) (pre : State) : ∃ post, execSrSeedWrite t v pre = .next post := ⟨_, rfl⟩
theorem execMemoryRead_total (a : Agent) (addr : Nat) (len : Nat) (pre : State) : ∃ post, execMemoryRead a addr len pre = .next post := ⟨_, rfl⟩
theorem execMemoryWrite_total (a : Agent) (addr : Nat) (bytes : List Byte) (pre : State) : ∃ post, execMemoryWrite a addr bytes pre = .next post := ⟨_, rfl⟩
theorem execPatrolScrub_total (c : Ctrl) (pre : State) : ∃ post, execPatrolScrub c pre = .next post := by
  simp only [execPatrolScrub]
  (repeat' split) <;> exact ⟨_, rfl⟩
theorem execCeInnerCollect_total (c : Ctrl) (n : Nat) (pre : State) : ∃ post, execCeInnerCollect c n pre = .next post := ⟨_, rfl⟩
theorem execLowerTierTimeout_total (a : Agent) (addr : Nat) (pre : State) : ∃ post, execLowerTierTimeout a addr pre = .next post := ⟨_, rfl⟩
theorem execLateResponseDiscard_total (a : Agent) (addr : Nat) (pre : State) : ∃ post, execLateResponseDiscard a addr pre = .next post := ⟨_, rfl⟩
theorem execWritebackRetry_total (line : Nat) (pre : State) : ∃ post, execWritebackRetry line pre = .next post := ⟨_, rfl⟩
theorem execCoreLoad_total (c : CoreId) (addr : Nat) (size : Nat) (fetch hint : Bool) (victims : List Victim) (pre : State) : ∃ post, execCoreLoad c addr size fetch hint victims pre = .next post := ⟨_, rfl⟩
theorem execCoreStore_total (c : CoreId) (addr : Nat) (bytes : List Byte) (hint : Bool) (victims : List Victim) (pre : State) : ∃ post, execCoreStore c addr bytes hint victims pre = .next post := ⟨_, rfl⟩
theorem execCoreAmo_total (c : CoreId) (op : AmoOp) (addr : Nat) (wide : Bool) (v cmp : W64) (pre : State) : ∃ post, execCoreAmo c op addr wide v cmp pre = .next post := ⟨_, rfl⟩
theorem execCacheSweepComplete_total (pre : State) : ∃ post, execCacheSweepComplete pre = .next post := ⟨_, rfl⟩
theorem execQmodeWrite_total (hi : Bool) (v : W64) (pre : State) : ∃ post, execQmodeWrite hi v pre = .next post := by
  simp only [execQmodeWrite]
  (repeat' split) <;> exact ⟨_, rfl⟩
theorem execPoolWrite_total (pool : Fin 6) (v : W64) (pre : State) : ∃ post, execPoolWrite pool v pre = .next post := ⟨_, rfl⟩
theorem execStackFailure_total (c : Ctrl) (pre : State) : ∃ post, execStackFailure c pre = .next post := ⟨_, rfl⟩
theorem execStackInitComplete_total (c : Ctrl) (passed : Bool) (pre : State) : ∃ post, execStackInitComplete c passed pre = .next post := ⟨_, rfl⟩
theorem execFaultResp_total (v : W64) (pre : State) : ∃ post, execFaultResp v pre = .next post := ⟨_, rfl⟩
theorem execFqResp_total (v : W64) (pre : State) : ∃ post, execFqResp v pre = .next post := ⟨_, rfl⟩
theorem execIoinval_total (v : W64) (pre : State) : ∃ post, execIoinval v pre = .next post := by
  simp only [execIoinval]
  (repeat' split) <;> exact ⟨_, rfl⟩
theorem execIoinvalComplete_total (pre : State) : ∃ post, execIoinvalComplete pre = .next post := ⟨_, rfl⟩
theorem execTocsinPost_total (i : Nat) (pre : State) : ∃ post, execTocsinPost i pre = .next post := by
  simp only [execTocsinPost]
  (repeat' split) <;> exact ⟨_, rfl⟩
theorem execTqConsWrite_total (v : W32) (pre : State) : ∃ post, execTqConsWrite v pre = .next post := ⟨_, rfl⟩
theorem execTqEnable_total (v : W32) (pre : State) : ∃ post, execTqEnable v pre = .next post := ⟨_, rfl⟩
theorem execOverflowMarkerRewrite_total (pre : State) : ∃ post, execOverflowMarkerRewrite pre = .next post := ⟨_, rfl⟩
theorem execForwardQueuePost_total (i : Nat) (pre : State) : ∃ post, execForwardQueuePost i pre = .next post := by
  simp only [execForwardQueuePost]
  (repeat' split) <;> exact ⟨_, rfl⟩
theorem execCounterDecay_total (pre : State) : ∃ post, execCounterDecay pre = .next post := ⟨_, rfl⟩
theorem execMigrationCopy_total (pre : State) : ∃ post, execMigrationCopy pre = .next post := ⟨_, rfl⟩
theorem execMigrationZero_total (pre : State) : ∃ post, execMigrationZero pre = .next post := ⟨_, rfl⟩
theorem execMigrationAdvise_total (pre : State) : ∃ post, execMigrationAdvise pre = .next post := ⟨_, rfl⟩
theorem execWinCommit_total (v : W32) (pre : State) : ∃ post, execWinCommit v pre = .next post := ⟨_, rfl⟩
theorem execUnmapGo_total (v : W32) (pre : State) : ∃ post, execUnmapGo v pre = .next post := by
  simp only [execUnmapGo]
  (repeat' split) <;> exact ⟨_, rfl⟩
theorem execUnmapPhaseOneComplete_total (pre : State) : ∃ post, execUnmapPhaseOneComplete pre = .next post := by
  simp only [execUnmapPhaseOneComplete]
  (repeat' split) <;> exact ⟨_, rfl⟩
theorem execUnmapDrained_total (pre : State) : ∃ post, execUnmapDrained pre = .next post := by
  simp only [execUnmapDrained]
  (repeat' split) <;> exact ⟨_, rfl⟩
theorem execCoreStart_total (c : CoreId) (entry : W64) (pre : State) : ∃ post, execCoreStart c entry pre = .next post := ⟨_, rfl⟩
theorem execCboClean_total (c : CoreId) (addr : Nat) (pre : State) : ∃ post, execCboClean c addr pre = .next post := ⟨_, rfl⟩
theorem execCboFlush_total (c : CoreId) (addr : Nat) (pre : State) : ∃ post, execCboFlush c addr pre = .next post := ⟨_, rfl⟩
theorem execCboInval_total (c : CoreId) (addr : Nat) (pre : State) : ∃ post, execCboInval c addr pre = .next post := ⟨_, rfl⟩
theorem execCleanByRange_total (c : CoreId) (pre : State) : ∃ post, execCleanByRange c pre = .next post := ⟨_, rfl⟩
theorem execInvalidateByRange_total (c : CoreId) (pre : State) : ∃ post, execInvalidateByRange c pre = .next post := ⟨_, rfl⟩
theorem execRangeOperationComplete_total (c : CoreId) (pre : State) : ∃ post, execRangeOperationComplete c pre = .next post := ⟨_, rfl⟩
theorem execMachineTimerInterrupt_total (c : CoreId) (pre : State) : ∃ post, execMachineTimerInterrupt c pre = .next post := ⟨_, rfl⟩
theorem execHostMsgFree_total (v : W32) (pre : State) : ∃ post, execHostMsgFree v pre = .next post := ⟨_, rfl⟩
theorem execRtMsgOffer_total (v : W32) (pre : State) : ∃ post, execRtMsgOffer v pre = .next post := ⟨_, rfl⟩
theorem execMonitorEvaluation_total (u : MonUnit) (margin : Nat) (inRange : Bool) (reading : W16) (pre : State) : ∃ post, execMonitorEvaluation u margin inRange reading pre = .next post := ⟨_, rfl⟩
theorem execTrimSave_total (pre : State) : ∃ post, execTrimSave pre = .next post := ⟨_, rfl⟩
theorem execStreamOpen_total (s : StreamId) (v : W32) (pre : State) : ∃ post, execStreamOpen s v pre = .next post := ⟨_, rfl⟩
theorem execStreamClose_total (s : StreamId) (v : W32) (pre : State) : ∃ post, execStreamClose s v pre = .next post := ⟨_, rfl⟩
theorem execDoorbell_total (s : StreamId) (v : W32) (pre : State) : ∃ post, execDoorbell s v pre = .next post := ⟨_, rfl⟩
theorem execSlotRead_total (s : StreamId) (pre : State) : ∃ post, execSlotRead s pre = .next post := ⟨_, rfl⟩
theorem execSlotReread_total (s : StreamId) (pre : State) : ∃ post, execSlotReread s pre = .next post := ⟨_, rfl⟩
theorem execStreamNop_total (s : StreamId) (i : Nat) (pre : State) : ∃ post, execStreamNop s i pre = .next post := ⟨_, rfl⟩
theorem execStreamInline_total (s : StreamId) (i : Nat) (pre : State) : ∃ post, execStreamInline s i pre = .next post := ⟨_, rfl⟩
theorem execInlineChain_total (s : StreamId) (i : Nat) (pre : State) : ∃ post, execInlineChain s i pre = .next post := ⟨_, rfl⟩
theorem execStreamCopy_total (s : StreamId) (i : Nat) (pre : State) : ∃ post, execStreamCopy s i pre = .next post := ⟨_, rfl⟩
theorem execStreamLaunch_total (s : StreamId) (i : Nat) (prefTiles : List TileId) (prefBells : List BellId) (pre : State) : ∃ post, execStreamLaunch s i prefTiles prefBells pre = .next post := ⟨_, rfl⟩
theorem execStreamTerminate_total (s : StreamId) (i : Nat) (pre : State) : ∃ post, execStreamTerminate s i pre = .next post := ⟨_, rfl⟩
theorem execStreamRing_total (s : StreamId) (i : Nat) (pre : State) : ∃ post, execStreamRing s i pre = .next post := ⟨_, rfl⟩
theorem execStreamWait_total (s : StreamId) (i : Nat) (pre : State) : ∃ post, execStreamWait s i pre = .next post := ⟨_, rfl⟩
theorem execStreamFence_total (s : StreamId) (i : Nat) (pre : State) : ∃ post, execStreamFence s i pre = .next post := ⟨_, rfl⟩
theorem execRoll_total (s : StreamId) (i : Nat) (pre : State) : ∃ post, execRoll s i pre = .next post := ⟨_, rfl⟩
theorem execCompletionEntry_total (s : StreamId) (i : Nat) (pre : State) : ∃ post, execCompletionEntry s i pre = .next post := ⟨_, rfl⟩
theorem execApertureWrite_total (off : Nat) (bytes : List Byte) (requester : W16) (pre : State) : ∃ post, execApertureWrite off bytes requester pre = .next post := ⟨_, rfl⟩
theorem execApertureRead_total (off len : Nat) (requester : W16) (pre : State) : ∃ post, execApertureRead off len requester pre = .next post := ⟨_, rfl⟩
theorem execCxlMemRead_total (addr : Nat) (len : Nat) (pre : State) : ∃ post, execCxlMemRead addr len pre = .next post := ⟨_, rfl⟩
theorem execCxlMemWrite_total (addr : Nat) (bytes : List Byte) (pre : State) : ∃ post, execCxlMemWrite addr bytes pre = .next post := ⟨_, rfl⟩
theorem execHdmCommit_total (i : Fin 2) (req : HdmReq) (pre : State) : ∃ post, execHdmCommit i req pre = .next post := ⟨_, rfl⟩
theorem execHostSnoop_total (kind : SnoopKind) (addr : Nat) (pre : State) : ∃ post, execHostSnoop kind addr pre = .next post := ⟨_, rfl⟩
theorem execGetSupportedLogs_total (pre : State) : ∃ post, execGetSupportedLogs pre = .next post := ⟨_, rfl⟩
theorem execGetLog_total (pre : State) : ∃ post, execGetLog pre = .next post := ⟨_, rfl⟩
theorem execMydarRequest_total (f : Pdu) (pre : State) : ∃ post, execMydarRequest f pre = .next post := ⟨_, rfl⟩
theorem execRuntimeSend_total (bytes : List Byte) (pre : State) : ∃ post, execRuntimeSend bytes pre = .next post := ⟨_, rfl⟩
theorem execRuntimeRecv_total (pre : State) : ∃ post, execRuntimeRecv pre = .next post := ⟨_, rfl⟩
theorem execLinkRecovery_total (pre : State) : ∃ post, execLinkRecovery pre = .next post := ⟨_, rfl⟩
theorem execHostLoss_total (cause : LossCause) (pre : State) : ∃ post, execHostLoss cause pre = .next post := ⟨_, rfl⟩
theorem execHostLinkUp_total (rate : LinkRate) (pre : State) : ∃ post, execHostLinkUp rate pre = .next post := ⟨_, rfl⟩
theorem execKettleCycle_total (r : KettleIn) (pre : State) : ∃ post, execKettleCycle r pre = .next post := ⟨_, rfl⟩
theorem execKettleRoll_total (v : W64) (pre : State) : ∃ post, execKettleRoll v pre = .next post := ⟨_, rfl⟩
theorem execCurrentLimitAlert_total (die : ADie) (amps : W32) (pre : State) : ∃ post, execCurrentLimitAlert die amps pre = .next post := ⟨_, rfl⟩
theorem execInputReport_total (volt10mV : Nat) (watts : Nat) (pre : State) : ∃ post, execInputReport volt10mV watts pre = .next post := ⟨_, rfl⟩
theorem execRailTargetReached_total (pre : State) : ∃ post, execRailTargetReached pre = .next post := ⟨_, rfl⟩
theorem execDictRead_total (p : Path) (f : Pdu) (pre : State) : ∃ post, execDictRead p f pre = .next post := ⟨_, rfl⟩
theorem execDictWrite_total (p : Path) (f : Pdu) (pre : State) : ∃ post, execDictWrite p f pre = .next post := ⟨_, rfl⟩
theorem execDictFreeze_total (p : Path) (f : Pdu) (pre : State) : ∃ post, execDictFreeze p f pre = .next post := ⟨_, rfl⟩
theorem execDictRelease_total (p : Path) (f : Pdu) (pre : State) : ∃ post, execDictRelease p f pre = .next post := ⟨_, rfl⟩
theorem execDictDescribe_total (p : Path) (f : Pdu) (pre : State) : ∃ post, execDictDescribe p f pre = .next post := ⟨_, rfl⟩
theorem execDictDiscover_total (p : Path) (f : Pdu) (pre : State) : ∃ post, execDictDiscover p f pre = .next post := ⟨_, rfl⟩
theorem execDictOpen_total (p : Path) (f : Pdu) (pre : State) : ∃ post, execDictOpen p f pre = .next post := ⟨_, rfl⟩
theorem execDictClose_total (p : Path) (f : Pdu) (pre : State) : ∃ post, execDictClose p f pre = .next post := ⟨_, rfl⟩
theorem execSessionIdleTimeout_total (p : Path) (session : W32) (pre : State) : ∃ post, execSessionIdleTimeout p session pre = .next post := ⟨_, rfl⟩
theorem execFrameDrop_total (why : FrameFault) (pre : State) : ∃ post, execFrameDrop why pre = .next post := ⟨_, rfl⟩
theorem execSealedComplete_total (pre : State) : ∃ post, execSealedComplete pre = .next post := ⟨_, rfl⟩
theorem execTelemetryWindow_total (pre : State) : ∃ post, execTelemetryWindow pre = .next post := ⟨_, rfl⟩
theorem execGetVersion_total (p : SpdmPath) (pre : State) : ∃ post, execGetVersion p pre = .next post := ⟨_, rfl⟩
theorem execGetCapabilities_total (p : SpdmPath) (pre : State) : ∃ post, execGetCapabilities p pre = .next post := ⟨_, rfl⟩
theorem execNegotiateAlgorithms_total (p : SpdmPath) (common : Bool) (pre : State) : ∃ post, execNegotiateAlgorithms p common pre = .next post := ⟨_, rfl⟩
theorem execGetDigests_total (p : SpdmPath) (pre : State) : ∃ post, execGetDigests p pre = .next post := ⟨_, rfl⟩
theorem execGetCertificate_total (p : SpdmPath) (slot : Nat) (offset len : Nat) (pre : State) : ∃ post, execGetCertificate p slot offset len pre = .next post := ⟨_, rfl⟩
theorem execChallenge_total (p : SpdmPath) (nonce : List Byte) (pre : State) : ∃ post, execChallenge p nonce pre = .next post := ⟨_, rfl⟩
theorem execGetMeasurements_total (p : SpdmPath) (nonce : List Byte) (pre : State) : ∃ post, execGetMeasurements p nonce pre = .next post := ⟨_, rfl⟩
theorem execKeyExchange_total (p : SpdmPath) (exchange : List Byte) (pre : State) : ∃ post, execKeyExchange p exchange pre = .next post := ⟨_, rfl⟩
theorem execFinish_total (p : SpdmPath) (valid bothSides : Bool) (pre : State) : ∃ post, execFinish p valid bothSides pre = .next post := ⟨_, rfl⟩
theorem execHeartbeat_total (p : SpdmPath) (pre : State) : ∃ post, execHeartbeat p pre = .next post := ⟨_, rfl⟩
theorem execKeyUpdate_total (p : SpdmPath) (pre : State) : ∃ post, execKeyUpdate p pre = .next post := ⟨_, rfl⟩
theorem execEndSession_total (p : SpdmPath) (pre : State) : ∃ post, execEndSession p pre = .next post := ⟨_, rfl⟩
theorem execRomBegin_total (slot : Byte) (len : W32) (pre : State) : ∃ post, execRomBegin slot len pre = .next post := ⟨_, rfl⟩
theorem execRomData_total (offset : W32) (bytes : List Byte) (pre : State) : ∃ post, execRomData offset bytes pre = .next post := ⟨_, rfl⟩
theorem execRomEnd_total (pre : State) : ∃ post, execRomEnd pre = .next post := ⟨_, rfl⟩
theorem execPowerOn_total (volt10mV : Nat) (pre : State) : ∃ post, execPowerOn volt10mV pre = .next post := ⟨_, rfl⟩
theorem execResetN_total (low : Bool) (micros : Nat) (pre : State) : ∃ post, execResetN low micros pre = .next post := ⟨_, rfl⟩
theorem execEnBreak_total (micros : Nat) (pre : State) : ∃ post, execEnBreak micros pre = .next post := ⟨_, rfl⟩
theorem execLatchOpened_total (bay : Fin 2) (pre : State) : ∃ post, execLatchOpened bay pre = .next post := ⟨_, rfl⟩
theorem execBayInserted_total (bay : Fin 2) (pre : State) : ∃ post, execBayInserted bay pre = .next post := ⟨_, rfl⟩
theorem execActNone_total (who : Principal) (pre : State) : ∃ post, execActNone who pre = .next post := ⟨_, rfl⟩
theorem execColdReset_total (who : Principal) (pre : State) : ∃ post, execColdReset who pre = .next post := ⟨_, rfl⟩
theorem execBringupDone_total (who : Principal) (pre : State) : ∃ post, execBringupDone who pre = .next post := ⟨_, rfl⟩
theorem execTakeOut_total (who : Principal) (u : ServiceUnit) (force : Bool) (pre : State) : ∃ post, execTakeOut who u force pre = .next post := ⟨_, rfl⟩
theorem execBringBack_total (who : Principal) (u : ServiceUnit) (pre : State) : ∃ post, execBringBack who u pre = .next post := ⟨_, rfl⟩
theorem execRetest_total (who : Principal) (t : TileId) (pre : State) : ∃ post, execRetest who t pre = .next post := ⟨_, rfl⟩
theorem execDieReset_total (who : Principal) (die : ADie) (pre : State) : ∃ post, execDieReset who die pre = .next post := ⟨_, rfl⟩
theorem execWriteSlot_total (who : Principal) (slot : Fin 6) (chunk : BitVec 12) (len16 : W16) (pre : State) : ∃ post, execWriteSlot who slot chunk len16 pre = .next post := ⟨_, rfl⟩
theorem execDebugOpen_total (who : Principal) (set : BitVec 3) (pre : State) : ∃ post, execDebugOpen who set pre = .next post := ⟨_, rfl⟩
theorem execDebugClose_total (who : Principal) (pre : State) : ∃ post, execDebugClose who pre = .next post := ⟨_, rfl⟩
theorem execUnitOutOfService_total (u : ServiceUnit) (pre : State) : ∃ post, execUnitOutOfService u pre = .next post := ⟨_, rfl⟩
theorem execReintegration_total (u : ServiceUnit) (passed : Bool) (pre : State) : ∃ post, execReintegration u passed pre = .next post := ⟨_, rfl⟩
theorem execPortEnable_total (p : PortId) (v : W32) (pre : State) : ∃ post, execPortEnable p v pre = .next post := ⟨_, rfl⟩
theorem execPortDisable_total (p : PortId) (v : W32) (pre : State) : ∃ post, execPortDisable p v pre = .next post := ⟨_, rfl⟩
theorem execWidthRequest_total (p : PortId) (v : W32) (pre : State) : ∃ post, execWidthRequest p v pre = .next post := ⟨_, rfl⟩
theorem execWidthLapse_total (p : PortId) (pre : State) : ∃ post, execWidthLapse p pre = .next post := ⟨_, rfl⟩
theorem execPortBringup_total (p : PortId) (probe : PortProbe) (pre : State) : ∃ post, execPortBringup p probe pre = .next post := ⟨_, rfl⟩
theorem execNeighbourRecheck_total (p : PortId) (pre : State) : ∃ post, execNeighbourRecheck p pre = .next post := ⟨_, rfl⟩
theorem execCoordinateCheck_total (p : PortId) (pre : State) : ∃ post, execCoordinateCheck p pre = .next post := ⟨_, rfl⟩
theorem execLinkHeartbeatTimeout_total (p : PortId) (pre : State) : ∃ post, execLinkHeartbeatTimeout p pre = .next post := ⟨_, rfl⟩
theorem execFlitDiscard_total (p : PortId) (f : Trailer) (pre : State) : ∃ post, execFlitDiscard p f pre = .next post := ⟨_, rfl⟩
theorem execLinkReplay_total (p : PortId) (ackseq : BitVec 12) (pre : State) : ∃ post, execLinkReplay p ackseq pre = .next post := ⟨_, rfl⟩
theorem execCaps_total (p : PortId) (m : Caps) (pre : State) : ∃ post, execCaps p m pre = .next post := ⟨_, rfl⟩
theorem execWidth_total (p : PortId) (half : Fin 2) (pre : State) : ∃ post, execWidth p half pre = .next post := ⟨_, rfl⟩
theorem execKey_total (p : PortId) (pre : State) : ∃ post, execKey p pre = .next post := ⟨_, rfl⟩
theorem execSpdm_total (p : PortId) (m : PeerProof) (pre : State) : ∃ post, execSpdm p m pre = .next post := ⟨_, rfl⟩
theorem execRekey_total (p : PortId) (tx : Bool) (pre : State) : ∃ post, execRekey p tx pre = .next post := ⟨_, rfl⟩
theorem execPutData_total (p : PortId) (m : Msg) (pre : State) : ∃ post, execPutData p m pre = .next post := ⟨_, rfl⟩
theorem execGetReq_total (p : PortId) (m : Msg) (pre : State) : ∃ post, execGetReq p m pre = .next post := ⟨_, rfl⟩
theorem execRemoteRing_total (p : PortId) (m : Msg) (pre : State) : ∃ post, execRemoteRing p m pre = .next post := ⟨_, rfl⟩
theorem execPutAck_total (p : PortId) (m : Msg) (pre : State) : ∃ post, execPutAck p m pre = .next post := ⟨_, rfl⟩
theorem execGetData_total (p : PortId) (m : Msg) (pre : State) : ∃ post, execGetData p m pre = .next post := ⟨_, rfl⟩
theorem execNack_total (p : PortId) (m : Msg) (pre : State) : ∃ post, execNack p m pre = .next post := ⟨_, rfl⟩
theorem execPeal_total (p : PortId) (m : Msg) (pre : State) : ∃ post, execPeal p m pre = .next post := ⟨_, rfl⟩
theorem execMessageTimeout_total (p : PortId) (slot : Fin 2048) (pre : State) : ∃ post, execMessageTimeout p slot pre = .next post := ⟨_, rfl⟩
theorem execSlotEpochAdvance_total (p : PortId) (slot : Fin 2048) (pre : State) : ∃ post, execSlotEpochAdvance p slot pre = .next post := ⟨_, rfl⟩
theorem execViolationHalving_total (pre : State) : ∃ post, execViolationHalving pre = .next post := ⟨_, rfl⟩
theorem execQclear_total (p : PortId) (v : W32) (pre : State) : ∃ post, execQclear p v pre = .next post := ⟨_, rfl⟩
theorem execRs_total (s : PealSlot) (pre : State) : ∃ post, execRs s pre = .next post := ⟨_, rfl⟩
theorem execAg_total (s : PealSlot) (pre : State) : ∃ post, execAg s pre = .next post := ⟨_, rfl⟩
theorem execAr_total (s : PealSlot) (pre : State) : ∃ post, execAr s pre = .next post := ⟨_, rfl⟩
theorem execPealTimeout_total (s : PealSlot) (pre : State) : ∃ post, execPealTimeout s pre = .next post := by
  simp only [execPealTimeout]
  (repeat' split) <;> exact ⟨_, rfl⟩
theorem execPealDescriptorComplete_total (s : PealSlot) (pre : State) : ∃ post, execPealDescriptorComplete s pre = .next post := by
  simp only [execPealDescriptorComplete]
  (repeat' split) <;> exact ⟨_, rfl⟩
theorem execPealBind_total (s : PealSlot) (pre : State) : ∃ post, execPealBind s pre = .next post := by
  simp only [execPealBind]
  (repeat' split) <;> exact ⟨_, rfl⟩
theorem execLotHandover_total (s : PealSlot) (lot : Nat) (pre : State) : ∃ post, execLotHandover s lot pre = .next post := by
  simp only [execLotHandover]
  (repeat' split) <;> exact ⟨_, rfl⟩
theorem execJobAccept_total (pre : State) : ∃ post, execJobAccept pre = .next post := ⟨_, rfl⟩
theorem execLotRun_total (u : Ctrl) (pre : State) : ∃ post, execLotRun u pre = .next post := ⟨_, rfl⟩
theorem execJobComplete_total (j : JobSlot) (pre : State) : ∃ post, execJobComplete j pre = .next post := by
  simp only [execJobComplete]
  (repeat' split) <;> exact ⟨_, rfl⟩
theorem execCadAdv_total (v : W32) (pre : State) : ∃ post, execCadAdv v pre = .next post := ⟨_, rfl⟩
theorem execCadSetC_total (v : W64) (pre : State) : ∃ post, execCadSetC v pre = .next post := ⟨_, rfl⟩
theorem execCadCommit_total (v : W32) (pre : State) : ∃ post, execCadCommit v pre = .next post := ⟨_, rfl⟩
theorem execCadenceDelivery_total (pre : State) : ∃ post, execCadenceDelivery pre = .next post := ⟨_, rfl⟩
theorem execHoopPacket_total (l : LinkId) (rev : Bool) (p : HoopPkt) (pre : State) : ∃ post, execHoopPacket l rev p pre = .next post := ⟨_, rfl⟩
theorem execLinkControl_total (l : LinkId) (rev : Bool) (p : HoopCtl) (pre : State) : ∃ post, execLinkControl l rev p pre = .next post := ⟨_, rfl⟩
theorem execLinkControlSend_total (l : LinkId) (rev : Bool) (pre : State) : ∃ post, execLinkControlSend l rev pre = .next post := ⟨_, rfl⟩
theorem execRetrain_total (l : LinkId) (pre : State) : ∃ post, execRetrain l pre = .next post := ⟨_, rfl⟩
theorem execTrainingComplete_total (l : LinkId) (f : TrainFindings) (pre : State) : ∃ post, execTrainingComplete l f pre = .next post := ⟨_, rfl⟩
theorem execRegisterWrite_total (addr : Nat) (wide : Bool) (v : W64) (pre : State) : ∃ post, execRegisterWrite addr wide v pre = .next post := ⟨_, rfl⟩
theorem execLinkReturnToL0_total (rate : LinkRate) (pre : State) : ∃ post, execLinkReturnToL0 rate pre = .next post := ⟨_, rfl⟩
theorem execSupervisorTimerInterrupt_total (c : CoreId) (virt : Bool) (pre : State) : ∃ post, execSupervisorTimerInterrupt c virt pre = .next post := ⟨_, rfl⟩
theorem execIdleFlit_total (p : PortId) (f : Trailer) (pre : State) : ∃ post, execIdleFlit p f pre = .next post := ⟨_, rfl⟩
theorem execFqConsWrite_total (v : W32) (pre : State) : ∃ post, execFqConsWrite v pre = .next post := ⟨_, rfl⟩
theorem execFqEnable_total (v : W32) (pre : State) : ∃ post, execFqEnable v pre = .next post := ⟨_, rfl⟩
theorem execMigrationDescriptorComplete_total (pre : State) : ∃ post, execMigrationDescriptorComplete pre = .next post := by
  simp only [execMigrationDescriptorComplete]
  (repeat' split) <;> exact ⟨_, rfl⟩
theorem execWriteSlotEnded_total (ok : Bool) (pre : State) : ∃ post, execWriteSlotEnded ok pre = .next post := ⟨_, rfl⟩
theorem execDoeDiscovery_total (index : Byte) (pre : State) : ∃ post, execDoeDiscovery index pre = .next post := ⟨_, rfl⟩
theorem execIdeKm_total (activate : Bool) (key : List Byte) (integrityFault : Bool) (pre : State) : ∃ post, execIdeKm activate key integrityFault pre = .next post := ⟨_, rfl⟩
theorem execEnTied_total (millis : Nat) (pre : State) : ∃ post, execEnTied millis pre = .next post := ⟨_, rfl⟩

/-- Every command answers a next state in every state. -/
theorem exec_total (c : Instr) (pre : State) : ∃ post, exec c pre = .next post := by
  cases c
  · exact execInstructionFetch_total ..
  · exact execNop_total ..
  · exact execHalt_total ..
  · exact execSadd_total ..
  · exact execSsub_total ..
  · exact execSand_total ..
  · exact execSor_total ..
  · exact execSxor_total ..
  · exact execSshl_total ..
  · exact execSshr_total ..
  · exact execSmul_total ..
  · exact execSaddi_total ..
  · exact execSli_total ..
  · exact execShi_total ..
  · exact execSld_total ..
  · exact execSst_total ..
  · exact execBeq_total ..
  · exact execBne_total ..
  · exact execBlt_total ..
  · exact execBltu_total ..
  · exact execJmp_total ..
  · exact execRing_total ..
  · exact execRingFire_total ..
  · exact execWait_total ..
  · rename_i a b c d
    exact execFence_total a b c d pre
  · exact execFlags_total ..
  · exact execTally_total ..
  · exact execMma_total ..
  · exact execDrain_total ..
  · exact execSclr_total ..
  · exact execSsto_total ..
  · exact execSeed_total ..
  · exact execVadd_total ..
  · exact execVsub_total ..
  · exact execVmul_total ..
  · exact execVfma_total ..
  · exact execVfnma_total ..
  · exact execVmin_total ..
  · exact execVmax_total ..
  · exact execVabs_total ..
  · exact execVneg_total ..
  · exact execVdiv_total ..
  · exact execVsqrt_total ..
  · exact execVcmplt_total ..
  · exact execVcmpeq_total ..
  · exact execVclass_total ..
  · exact execVsel_total ..
  · exact execVbcast_total ..
  · exact execVld_total ..
  · exact execVst_total ..
  · exact execVrsum_total ..
  · exact execVrmax_total ..
  · exact execViadd_total ..
  · exact execVisub_total ..
  · exact execVimul_total ..
  · exact execVand_total ..
  · exact execVor_total ..
  · exact execVxor_total ..
  · exact execVshl_total ..
  · exact execVshr_total ..
  · exact execVshra_total ..
  · exact execVcvtif_total ..
  · exact execVcvtfi_total ..
  · exact execVmov_total ..
  · exact execVcnt_total ..
  · exact execClapperVld_total ..
  · exact execClapperVst_total ..
  · exact execClapperVbcast_total ..
  · exact execInstructionCompletion_total ..
  · exact execMsub_total ..
  · exact execDescriptorAccept_total ..
  · exact execCopy_total ..
  · exact execTranspose_total ..
  · exact execFill_total ..
  · exact execInline_total ..
  · exact execPut_total ..
  · exact execGet_total ..
  · exact execDescriptorComplete_total ..
  · exact execSet_total ..
  · exact execRingRegisterWrite_total ..
  · exact execBellBatch_total ..
  · exact execLaunch_total ..
  · exact execTerminate_total ..
  · exact execTileStop_total ..
  · exact execTileProgramEnd_total ..
  · exact execCompletionRecord_total ..
  · exact execTileClearEnd_total ..
  · exact execArraySelfTest_total ..
  · exact execSrSeedWrite_total ..
  · exact execMemoryRead_total ..
  · exact execMemoryWrite_total ..
  · exact execPatrolScrub_total ..
  · exact execCeInnerCollect_total ..
  · exact execLowerTierTimeout_total ..
  · exact execLateResponseDiscard_total ..
  · exact execWritebackRetry_total ..
  · exact execCoreLoad_total ..
  · exact execCoreStore_total ..
  · exact execCoreAmo_total ..
  · exact execCacheSweepComplete_total ..
  · exact execQmodeWrite_total ..
  · exact execPoolWrite_total ..
  · exact execStackFailure_total ..
  · exact execStackInitComplete_total ..
  · exact execFaultResp_total ..
  · exact execFqResp_total ..
  · exact execIoinval_total ..
  · exact execIoinvalComplete_total ..
  · exact execTocsinPost_total ..
  · exact execTqConsWrite_total ..
  · exact execTqEnable_total ..
  · exact execOverflowMarkerRewrite_total ..
  · exact execForwardQueuePost_total ..
  · exact execCounterDecay_total ..
  · exact execMigrationCopy_total ..
  · exact execMigrationZero_total ..
  · exact execMigrationAdvise_total ..
  · exact execWinCommit_total ..
  · rename_i a
    exact execUnmapGo_total a pre
  · exact execUnmapPhaseOneComplete_total ..
  · exact execUnmapDrained_total ..
  · exact execCoreStart_total ..
  · exact execCboClean_total ..
  · exact execCboFlush_total ..
  · exact execCboInval_total ..
  · exact execCleanByRange_total ..
  · exact execInvalidateByRange_total ..
  · exact execRangeOperationComplete_total ..
  · exact execMachineTimerInterrupt_total ..
  · exact execHostMsgFree_total ..
  · exact execRtMsgOffer_total ..
  · exact execMonitorEvaluation_total ..
  · exact execTrimSave_total ..
  · exact execStreamOpen_total ..
  · exact execStreamClose_total ..
  · exact execDoorbell_total ..
  · exact execSlotRead_total ..
  · exact execSlotReread_total ..
  · exact execStreamNop_total ..
  · exact execStreamInline_total ..
  · exact execInlineChain_total ..
  · exact execStreamCopy_total ..
  · exact execStreamLaunch_total ..
  · exact execStreamTerminate_total ..
  · exact execStreamRing_total ..
  · exact execStreamWait_total ..
  · exact execStreamFence_total ..
  · exact execRoll_total ..
  · exact execCompletionEntry_total ..
  · exact execApertureWrite_total ..
  · exact execApertureRead_total ..
  · exact execCxlMemRead_total ..
  · exact execCxlMemWrite_total ..
  · exact execHdmCommit_total ..
  · exact execHostSnoop_total ..
  · exact execGetSupportedLogs_total ..
  · exact execGetLog_total ..
  · exact execMydarRequest_total ..
  · exact execRuntimeSend_total ..
  · exact execRuntimeRecv_total ..
  · exact execLinkRecovery_total ..
  · exact execHostLoss_total ..
  · exact execHostLinkUp_total ..
  · exact execKettleCycle_total ..
  · exact execKettleRoll_total ..
  · exact execCurrentLimitAlert_total ..
  · exact execInputReport_total ..
  · exact execRailTargetReached_total ..
  · exact execDictRead_total ..
  · exact execDictWrite_total ..
  · exact execDictFreeze_total ..
  · exact execDictRelease_total ..
  · exact execDictDescribe_total ..
  · exact execDictDiscover_total ..
  · exact execDictOpen_total ..
  · exact execDictClose_total ..
  · exact execSessionIdleTimeout_total ..
  · rename_i a
    exact execFrameDrop_total a pre
  · exact execSealedComplete_total ..
  · exact execTelemetryWindow_total ..
  · exact execGetVersion_total ..
  · exact execGetCapabilities_total ..
  · exact execNegotiateAlgorithms_total ..
  · exact execGetDigests_total ..
  · exact execGetCertificate_total ..
  · exact execChallenge_total ..
  · exact execGetMeasurements_total ..
  · exact execKeyExchange_total ..
  · exact execFinish_total ..
  · exact execHeartbeat_total ..
  · exact execKeyUpdate_total ..
  · exact execEndSession_total ..
  · exact execRomBegin_total ..
  · exact execRomData_total ..
  · exact execRomEnd_total ..
  · exact execPowerOn_total ..
  · exact execResetN_total ..
  · exact execEnBreak_total ..
  · exact execLatchOpened_total ..
  · exact execBayInserted_total ..
  · exact execActNone_total ..
  · exact execColdReset_total ..
  · exact execBringupDone_total ..
  · exact execTakeOut_total ..
  · exact execBringBack_total ..
  · exact execRetest_total ..
  · exact execDieReset_total ..
  · exact execWriteSlot_total ..
  · exact execDebugOpen_total ..
  · exact execDebugClose_total ..
  · exact execUnitOutOfService_total ..
  · exact execReintegration_total ..
  · exact execPortEnable_total ..
  · exact execPortDisable_total ..
  · exact execWidthRequest_total ..
  · exact execWidthLapse_total ..
  · exact execPortBringup_total ..
  · exact execNeighbourRecheck_total ..
  · exact execCoordinateCheck_total ..
  · exact execLinkHeartbeatTimeout_total ..
  · exact execFlitDiscard_total ..
  · exact execLinkReplay_total ..
  · exact execCaps_total ..
  · exact execWidth_total ..
  · exact execKey_total ..
  · exact execSpdm_total ..
  · exact execRekey_total ..
  · exact execPutData_total ..
  · exact execGetReq_total ..
  · exact execRemoteRing_total ..
  · exact execPutAck_total ..
  · exact execGetData_total ..
  · exact execNack_total ..
  · exact execPeal_total ..
  · exact execMessageTimeout_total ..
  · exact execSlotEpochAdvance_total ..
  · exact execViolationHalving_total ..
  · exact execQclear_total ..
  · exact execRs_total ..
  · exact execAg_total ..
  · exact execAr_total ..
  · exact execPealTimeout_total ..
  · exact execPealDescriptorComplete_total ..
  · exact execPealBind_total ..
  · exact execLotHandover_total ..
  · exact execJobAccept_total ..
  · exact execLotRun_total ..
  · exact execJobComplete_total ..
  · rename_i a
    exact execCadAdv_total a pre
  · exact execCadSetC_total ..
  · rename_i a
    exact execCadCommit_total a pre
  · exact execCadenceDelivery_total ..
  · exact execHoopPacket_total ..
  · exact execLinkControl_total ..
  · exact execLinkControlSend_total ..
  · exact execRetrain_total ..
  · exact execTrainingComplete_total ..
  · exact execRegisterWrite_total ..
  · exact execLinkReturnToL0_total ..
  · exact execSupervisorTimerInterrupt_total ..
  · exact execIdleFlit_total ..
  · exact execFqConsWrite_total ..
  · exact execFqEnable_total ..
  · exact execMigrationDescriptorComplete_total ..
  · exact execWriteSlotEnded_total ..
  · exact execDoeDiscovery_total ..
  · exact execIdeKm_total ..
  · exact execEnTied_total ..

end Sys2Proof.Machine
end

