-- ==== Sys2Proof/Laws/Windows.lean ====
section
/-! SUPPORT. A commit leaves a legal window table, and nothing else writes its words (R243, R244). -/

namespace Sys2Proof.Machine

set_option linter.unnecessarySeqFocus false
set_option linter.unreachableTactic false
set_option linter.unusedTactic false
set_option maxRecDepth 20000
set_option linter.unusedSimpArgs false
set_option linter.unusedVariables false

/-- A read of a run of words written gives the word written, and elsewhere what it gave. -/
theorem WinS.word_commit (x : WinS) (v w j : Nat) (g : Nat → W64) (l : BitVec 8) (hj : j < 8) :
    ({ x with words := x.words.setRun 0#64 (8 * v) ((List.range 8).map g), last := l } : WinS).word w j
      = if w = v then g j else x.word w j := by
  simp only [WinS.word, Map.setRun]
  split
  · subst w
    have h := Map.get_setRunBy_in (fun _ => 0#64) x.words (8 * v) ((List.range 8).map g) j (by simpa using hj)
    simpa using h
  · apply Map.get_setRunBy_out
    simp only [List.length_map, List.length_range]
    omega

theorem WinS.reset_ok : WinS.reset.ok := fun w _ => Or.inl fun j _ => by simp [WinS.word, WinS.reset]

/-- Only the words decide whether the table is legal. -/
theorem WinS.ok_of_words {x y : WinS} (h : y.words = x.words) (hx : x.ok) : y.ok := by
  have hw : ∀ w j, y.word w j = x.word w j := fun w j => by simp only [WinS.word, h]
  intro w hl
  simpa only [WinS.entryOk, hw] using hx w hl

/-- A commit writes an entry whose pairs agree and whose fields keep the rules, or nothing (R244). -/
theorem execWinCommit_winOk (v : W32) (s : State) {post : State} (h : execWinCommit v s = .next post) (hw : s.win.ok) : post.win.ok := by
  simp only [execWinCommit, Host.Outcome.next.injEq] at h
  subst h
  split
  · simpa using hw
  · split
    · rename_i hc
      simp only [Bool.and_eq_true, List.all_eq_true] at hc
      intro w hl
      simp only [WinS.entryOk]
      by_cases e : w = v.toNat
      · right
        refine ⟨fun j hj => ?_, ?_⟩
        · rw [WinS.word_commit _ _ _ _ _ _ (by omega), WinS.word_commit _ _ _ _ _ _ (by omega), if_pos e, if_pos e]
          exact hc.1 j (by simpa using hj)
        · rw [WinS.word_commit _ _ _ _ _ _ (by omega), WinS.word_commit _ _ _ _ _ _ (by omega),
            WinS.word_commit _ _ _ _ _ _ (by omega), WinS.word_commit _ _ _ _ _ _ (by omega)]
          simp only [if_pos e]
          exact hc.2
      · have hk : ∀ j, j < 8 → _ := fun j hj => WinS.word_commit s.win v.toNat w j
          (fun j => s.win.stage.get 0#64 j) (BitVec.ofNat 8 v.toNat) hj
        simp only [if_neg e] at hk
        rcases hw w hl with h0 | ⟨h1, h2⟩
        · exact Or.inl fun j hj => by rw [hk j hj]; exact h0 j hj
        · refine Or.inr ⟨fun j hj => ?_, ?_⟩
          · rw [hk j (by omega), hk (4 + j) (by omega)]
            exact h1 j hj
          · rw [hk 0 (by omega), hk 1 (by omega), hk 2 (by omega), hk 3 (by omega)]
            exact h2
    · exact WinS.ok_of_words rfl hw

@[simp] theorem execWinCommit_after_winOk (v : W32) (s : State) (hw : s.win.ok) : (s.after (execWinCommit v)).win.ok := by
  unfold State.after
  split
  · exact execWinCommit_winOk _ _ ‹_› hw
  · exact hw
  · exact hw

@[simp] theorem WinS.ok_mk (x : WinS) (g e d l) (h : x.ok) : (WinS.mk x.words g e d l).ok := WinS.ok_of_words (x := x) rfl h
@[simp] theorem WinS.ok_reset : WinS.reset.ok := WinS.reset_ok
@[simp] theorem WinS.ok_ite (b : Prop) [Decidable b] (m n : WinS) (hm : m.ok) (hn : n.ok) : (if b then m else n).ok := by split <;> assumption
@[simp] theorem foldl_win_ok {β : Type} (f : State → β → State) (l : List β) (s : State) (hs : s.win.ok)
    (h : ∀ s x, s.win.ok → (f s x).win.ok) : (l.foldl f s).win.ok := foldl_inv (fun x : State => x.win.ok) f h l s hs
@[simp] theorem when_win_ok (s : State) (b : Bool) (f : State → State) (hs : s.win.ok) (h : ∀ t, t.win.ok → (f t).win.ok) :
    (s.when b f).win.ok := by
  cases b <;> simp [State.when, h, hs]
@[simp] theorem State.putNet_winOk (s : State) (o v : Nat) (hw : s.win.ok) : (State.putNet s o v).win.ok := by
  simp only [State.putNet]
  (repeat' split) <;> simp +contextual (maxDischargeDepth := 9) [*]
@[simp] theorem State.railsOff_winOk (s : State) : (State.railsOff s).win.ok := WinS.reset_ok
@[simp] theorem State.powerLost_winOk (s : State) : (State.powerLost s).win.ok := WinS.reset_ok

@[simp] theorem State.thermalTrip_winOk (s : State) (sensor : Nat) (reading : Int)  (hw : s.win.ok) : (State.thermalTrip s sensor reading).win.ok := by
  simp only [State.thermalTrip]
  (repeat' split) <;> simp +contextual (maxDischargeDepth := 9) [*]

@[simp] theorem State.kettleCycle_winOk (s : State) (r : KettleIn)  (hw : s.win.ok) : (State.kettleCycle s r).win.ok := by
  simp only [State.kettleCycle]
  (repeat' split) <;> simp +contextual (maxDischargeDepth := 9) [*]

theorem execKettleCycle_winOk (r : KettleIn) (s : State) {post : State} (h : execKettleCycle r s = .next post) (hw : s.win.ok) : post.win.ok := by
  simp only [execKettleCycle, Host.Outcome.next.injEq] at h
  subst h
  (repeat' split) <;> simp +contextual (maxDischargeDepth := 9) [*]

theorem execInputReport_winOk (volt10mV : Nat) (watts : Nat) (s : State) {post : State} (h : execInputReport volt10mV watts s = .next post) (hw : s.win.ok) : post.win.ok := by
  simp only [execInputReport, Host.Outcome.next.injEq] at h
  subst h
  (repeat' split) <;> simp +contextual (maxDischargeDepth := 9) [*]

@[simp] theorem State.coldClear_winOk (s : State)  (hw : s.win.ok) : (State.coldClear s).win.ok := by
  simp only [State.coldClear]
  (repeat' split) <;> simp +contextual (maxDischargeDepth := 9) [*]

@[simp] theorem State.coldReset_winOk (s : State)  (hw : s.win.ok) : (State.coldReset s).win.ok := by
  simp only [State.coldReset]
  (repeat' split) <;> simp +contextual (maxDischargeDepth := 9) [*]

theorem execEnBreak_winOk (micros : Nat) (s : State) {post : State} (h : execEnBreak micros s = .next post) (hw : s.win.ok) : post.win.ok := by
  simp only [execEnBreak, Host.Outcome.next.injEq] at h
  subst h
  (repeat' split) <;> simp +contextual (maxDischargeDepth := 9) [*]

theorem execResetN_winOk (low : Bool) (micros : Nat) (s : State) {post : State} (h : execResetN low micros s = .next post) (hw : s.win.ok) : post.win.ok := by
  simp only [execResetN, Host.Outcome.next.injEq] at h
  subst h
  (repeat' split) <;> simp +contextual (maxDischargeDepth := 9) [*]

@[simp] theorem State.actionRuns_winOk (s : State) (w : W64)  (hw : s.win.ok) : (State.actionRuns s w).win.ok := by
  simp only [State.actionRuns]
  (repeat' split) <;> simp +contextual (maxDischargeDepth := 9) [*]

@[simp] theorem State.actionStarts_winOk (s : State) (w : W64)  (hw : s.win.ok) : (State.actionStarts s w).win.ok := by
  simp only [State.actionStarts]
  (repeat' split) <;> simp +contextual (maxDischargeDepth := 9) [*]

@[simp] theorem State.writeAction_winOk (s : State) (who : Principal) (w : W64)  (hw : s.win.ok) : (State.writeAction s who w).win.ok := by
  simp only [State.writeAction]
  (repeat' split) <;> simp +contextual (maxDischargeDepth := 9) [*]

theorem execActNone_winOk (who : Principal) (s : State) {post : State} (h : execActNone who s = .next post) (hw : s.win.ok) : post.win.ok := by
  simp only [execActNone, Host.Outcome.next.injEq] at h
  subst h
  (repeat' split) <;> simp +contextual (maxDischargeDepth := 9) [*]

theorem execColdReset_winOk (who : Principal) (s : State) {post : State} (h : execColdReset who s = .next post) (hw : s.win.ok) : post.win.ok := by
  simp only [execColdReset, Host.Outcome.next.injEq] at h
  subst h
  (repeat' split) <;> simp +contextual (maxDischargeDepth := 9) [*]

theorem execBringupDone_winOk (who : Principal) (s : State) {post : State} (h : execBringupDone who s = .next post) (hw : s.win.ok) : post.win.ok := by
  simp only [execBringupDone, Host.Outcome.next.injEq] at h
  subst h
  (repeat' split) <;> simp +contextual (maxDischargeDepth := 9) [*]

theorem execTakeOut_winOk (who : Principal) (u : ServiceUnit) (force : Bool) (s : State) {post : State} (h : execTakeOut who u force s = .next post) (hw : s.win.ok) : post.win.ok := by
  simp only [execTakeOut, Host.Outcome.next.injEq] at h
  subst h
  (repeat' split) <;> simp +contextual (maxDischargeDepth := 9) [*]

theorem execBringBack_winOk (who : Principal) (u : ServiceUnit) (s : State) {post : State} (h : execBringBack who u s = .next post) (hw : s.win.ok) : post.win.ok := by
  simp only [execBringBack, Host.Outcome.next.injEq] at h
  subst h
  (repeat' split) <;> simp +contextual (maxDischargeDepth := 9) [*]

theorem execRetest_winOk (who : Principal) (t : TileId) (s : State) {post : State} (h : execRetest who t s = .next post) (hw : s.win.ok) : post.win.ok := by
  simp only [execRetest, Host.Outcome.next.injEq] at h
  subst h
  (repeat' split) <;> simp +contextual (maxDischargeDepth := 9) [*]

theorem execDieReset_winOk (who : Principal) (die : ADie) (s : State) {post : State} (h : execDieReset who die s = .next post) (hw : s.win.ok) : post.win.ok := by
  simp only [execDieReset, Host.Outcome.next.injEq] at h
  subst h
  (repeat' split) <;> simp +contextual (maxDischargeDepth := 9) [*]

theorem execWriteSlot_winOk (who : Principal) (slot : Fin 6) (chunk : BitVec 12) (len16 : W16) (s : State) {post : State} (h : execWriteSlot who slot chunk len16 s = .next post) (hw : s.win.ok) : post.win.ok := by
  simp only [execWriteSlot, Host.Outcome.next.injEq] at h
  subst h
  (repeat' split) <;> simp +contextual (maxDischargeDepth := 9) [*]

theorem execDebugOpen_winOk (who : Principal) (set : BitVec 3) (s : State) {post : State} (h : execDebugOpen who set s = .next post) (hw : s.win.ok) : post.win.ok := by
  simp only [execDebugOpen, Host.Outcome.next.injEq] at h
  subst h
  (repeat' split) <;> simp +contextual (maxDischargeDepth := 9) [*]

theorem execDebugClose_winOk (who : Principal) (s : State) {post : State} (h : execDebugClose who s = .next post) (hw : s.win.ok) : post.win.ok := by
  simp only [execDebugClose, Host.Outcome.next.injEq] at h
  subst h
  (repeat' split) <;> simp +contextual (maxDischargeDepth := 9) [*]

theorem execRomEnd_winOk (s : State) {post : State} (h : execRomEnd s = .next post) (hw : s.win.ok) : post.win.ok := by
  simp only [execRomEnd, Host.Outcome.next.injEq] at h
  subst h
  (repeat' split) <;> simp +contextual (maxDischargeDepth := 9) [*]

@[simp] theorem State.takesEffect_winOk (s : State) (write : Bool) (items : List Item)  (hw : s.win.ok) : (State.takesEffect s write items).win.ok := by
  simp only [State.takesEffect]
  (repeat' split) <;> simp +contextual (maxDischargeDepth := 9) [*]

@[simp] theorem State.frame_winOk (s : State) (p : Path) (f : Pdu) (op : Nat) (act : Option SessionS → List Byte → State) (hw : s.win.ok)
    (hd : ∀ x y, (act x y).win.ok) : (State.frame s p f op act).win.ok := by
  simp only [State.frame]
  (repeat' split) <;> simp [*]
@[simp] theorem State.dictCommit_winOk (s : State) (p : Path) (f : Pdu) (ses : Option SessionS) (key : List Byte) (logged : Bool) (check : Item → Nat)
    (apply : State → Item → State) (hw : s.win.ok) (hd : ∀ t i, t.win.ok → (apply t i).win.ok) :
    (State.dictCommit s p f ses key logged check apply).win.ok := by
  simp only [State.dictCommit]
  split
  · simp [hw]
  · split
    · simp [hw]
    · apply State.takesEffect_winOk
      simp only [State.finish_frame]
      exact foldl_inv (fun x : State => x.win.ok) apply hd _ _ hw

@[simp] theorem State.dictWrite_winOk (s : State) (p : Path) (f : Pdu) (hw : s.win.ok) : (State.dictWrite s p f).win.ok := by
  simp only [State.dictWrite]
  refine State.frame_winOk _ _ _ _ _ hw fun x y => ?_
  refine State.dictCommit_winOk _ _ _ _ _ _ _ _ hw fun t i ht => ?_
  simp +contextual (maxDischargeDepth := 9) [*]

@[simp] theorem State.dictFreeze_winOk (s : State) (p : Path) (f : Pdu) (hw : s.win.ok) : (State.dictFreeze s p f).win.ok := by
  simp only [State.dictFreeze]
  refine State.frame_winOk _ _ _ _ _ hw fun x y => ?_
  refine State.dictCommit_winOk _ _ _ _ _ _ _ _ hw fun t i ht => ?_
  simp +contextual (maxDischargeDepth := 9) [*]

@[simp] theorem State.dictRelease_winOk (s : State) (p : Path) (f : Pdu) (hw : s.win.ok) : (State.dictRelease s p f).win.ok := by
  simp only [State.dictRelease]
  refine State.frame_winOk _ _ _ _ _ hw fun x y => ?_
  refine State.dictCommit_winOk _ _ _ _ _ _ _ _ hw fun t i ht => ?_
  simp +contextual (maxDischargeDepth := 9) [*]

theorem execDictWrite_winOk (p : Path) (f : Pdu) (s : State) {post : State} (h : execDictWrite p f s = .next post) (hw : s.win.ok) : post.win.ok := by
  simp only [execDictWrite, Host.Outcome.next.injEq] at h
  subst h
  (repeat' split) <;> simp +contextual (maxDischargeDepth := 9) [*]

theorem execDictFreeze_winOk (p : Path) (f : Pdu) (s : State) {post : State} (h : execDictFreeze p f s = .next post) (hw : s.win.ok) : post.win.ok := by
  simp only [execDictFreeze, Host.Outcome.next.injEq] at h
  subst h
  (repeat' split) <;> simp +contextual (maxDischargeDepth := 9) [*]

theorem execDictRelease_winOk (p : Path) (f : Pdu) (s : State) {post : State} (h : execDictRelease p f s = .next post) (hw : s.win.ok) : post.win.ok := by
  simp only [execDictRelease, Host.Outcome.next.injEq] at h
  subst h
  (repeat' split) <;> simp +contextual (maxDischargeDepth := 9) [*]

theorem execMydarRequest_winOk (f : Pdu) (s : State) {post : State} (h : execMydarRequest f s = .next post) (hw : s.win.ok) : post.win.ok := by
  simp only [execMydarRequest, Host.Outcome.next.injEq] at h
  subst h
  (repeat' split) <;> simp +contextual (maxDischargeDepth := 9) [*]

@[simp] theorem State.putReg_winOk (s : State) (who : Option CoreId) (b o v : Nat)  (hw : s.win.ok) : (State.putReg s who b o v).win.ok := by
  simp only [State.putReg]
  (repeat' split) <;> simp +contextual (maxDischargeDepth := 9) [*]

@[simp] theorem State.putWord_winOk (s : State) (who : Option CoreId) (b o v : Nat)  (hw : s.win.ok) : (State.putWord s who b o v).win.ok := by
  simp only [State.putWord]
  (repeat' split) <;> simp +contextual (maxDischargeDepth := 9) [*]

@[simp] theorem State.regWrite_winOk (s : State) (who : Option CoreId) (b o size v : Nat)  (hw : s.win.ok) : (State.regWrite s who b o size v).win.ok := by
  simp only [State.regWrite]
  (repeat' split) <;> simp +contextual (maxDischargeDepth := 9) [*]

@[simp] theorem State.writeBar0_winOk (s : State) (o size v : Nat)  (hw : s.win.ok) : (State.writeBar0 s o size v).win.ok := by
  simp only [State.writeBar0]
  (repeat' split) <;> simp +contextual (maxDischargeDepth := 9) [*]

theorem execRegisterWrite_winOk (addr : Nat) (wide : Bool) (v : W64) (s : State) {post : State} (h : execRegisterWrite addr wide v s = .next post) (hw : s.win.ok) : post.win.ok := by
  simp only [execRegisterWrite, Host.Outcome.next.injEq] at h
  subst h
  (repeat' split) <;> simp +contextual (maxDischargeDepth := 9) [*]

theorem execCoreStore_winOk (c : CoreId) (addr : Nat) (bytes : List Byte) (hint : Bool) (victims : List Victim) (s : State) {post : State} (h : execCoreStore c addr bytes hint victims s = .next post) (hw : s.win.ok) : post.win.ok := by
  simp only [execCoreStore, Host.Outcome.next.injEq] at h
  subst h
  (repeat' split) <;> simp +contextual (maxDischargeDepth := 9) [*]

end Sys2Proof.Machine
end

