-- ==== Sys2Proof/Tests/Slice0.lean ====
section
/-! SUPPORT. Tests. For every statement with hypotheses, closed states and operands that meet them, clause by clause and at the
edges of their ranges; an ill-formed command for each check; words written out from the spec's encodings; single steps worked by
hand from the rules. -/

namespace Sys2Proof.Tests
open Sys2Proof Sys2Proof.Machine

/-! ### States of the tests -/

/-- A tile in whose 64 KiB a program runs. -/
def runTile : Tile := { Tile.reset with seq := .running, sramBytes := 65536, kernel := some 0, pc := 64 }
/-- The state after reset with that tile at 0. -/
def withTile (x : Tile) : State := State.reset.setTile 0 x
def noTok : Tok := ⟨none, none⟩
/-- An entry of an engine queue. -/
def entry (o : EngOp) : QEntry := { idx := 0, pc := 8, tok := noTok, op := o }
def mmaTile (o : MmaOp) : Tile := { runTile with matrixQ := [entry (.mma o)], appended := 1 }
def matrixTile (o : EngOp) : Tile := { runTile with matrixQ := [entry o], appended := 1 }
def vectorTile (op : VOp) (a : VecArgs) : Tile := { runTile with vectorQ := [entry (.vec op a)], appended := 1 }
def smallMma : MmaOp := { k := 0, shape := 0, pmask := 1, bank := false, zero := true, sparse := false, arec := 0, brec := 0 }
def smallDrain (v : Bool) : DrainOp :=
  { bank := false, shape := 0, pmask := 0, rm := 0, ds := 0, sen := false, sent := 0, viaVector := v, drec := 0, tag := 0#32 }
def smallVec : VecArgs :=
  { vd := 5, va := 1, vb := 2, vc := 3, msk := 0, md := 1, fmt := 0, rm := 0, imm := 0, sa := 0#64, sb := 0#64 }

/-! ### Tiles: the hypotheses of the statements are met -/

theorem test_scalar_goes : ((withTile runTile).tile 0).goes noTok ∧ ((withTile { runTile with tokens := [(3, 254)] }).tile 0).goes ⟨none, some 3⟩ :=
  ⟨⟨by decide, fun _ h => by cases h⟩, ⟨by decide, fun c h => by cases h; decide⟩⟩
/-- The last aligned word below SRAM_BYTES, a misaligned one, and the first beyond. -/
theorem test_scalar_memory : (0#64 + (65528#32).signExtend 64).toNat % 8 = 0 ∧ (0#64 + (65528#32).signExtend 64).toNat + 8 ≤ ((withTile runTile).tile 0).sramBytes
    ∧ (0#64 + (65529#32).signExtend 64).toNat % 8 ≠ 0 ∧ (0#64 + (65536#32).signExtend 64).toNat % 8 = 0
    ∧ ((withTile runTile).tile 0).sramBytes < (0#64 + (65536#32).signExtend 64).toNat + 8 ∧ ((withTile runTile).tile 0).seqReady noTok = true := by decide
/-- A branch to offset 0, one to the last word, one below 0 and one at SRAM_BYTES, from PC 64. -/
theorem test_branch : ((0 : Nat) : Int) = ((withTile runTile).tile 0).pc + (-8#32).toInt * 8 ∧ ((65528 : Nat) : Int) = ((withTile runTile).tile 0).pc + (8183#32).toInt * 8
    ∧ ((withTile runTile).tile 0).pc + (-9#32).toInt * 8 < 0 ∧ (((withTile runTile).tile 0).sramBytes : Int) ≤ ((withTile runTile).tile 0).pc + (8184#32).toInt * 8 := by decide
theorem test_fence : ((withTile runTile).tile 0).covers 7#3 0 = false
    ∧ ((withTile (matrixTile (.seed 0#64))).tile 0).covers 1#3 ((withTile (matrixTile (.seed 0#64))).tile 0).appended = true := by decide

/-- Record 0 holds FMT BF16, base 0 and stride 256: the operands of a matrix instruction. -/
def bf16Sram : Map Byte := [(3, 1#8), (5, 1#8)]
/-- Record 0 holds FMT FP32, base 0 and stride 512: the destination of a drain. -/
def fp32Sram : Map Byte := [(5, 2#8)]

theorem test_mma_starts : ((withTile { mmaTile smallMma with sram := bf16Sram }).tile 0).headIs .matrix (entry (.mma smallMma)) []
    ∧ ((({ mmaTile smallMma with sram := bf16Sram } : Tile).taken .matrix (entry (.mma smallMma)) []).mmaCheck smallMma = none)
    ∧ ({ mmaTile smallMma with sram := bf16Sram } : Tile).stopped = false
    ∧ (({ mmaTile { smallMma with k := 4 } with sram := bf16Sram } : Tile).taken .matrix (entry (.mma { smallMma with k := 4 })) []).mmaCheck
        { smallMma with k := 4 } = none := ⟨⟨rfl, by decide, by decide, by decide⟩, by decide, by decide, by decide⟩
theorem test_mma_refused : ((withTile (mmaTile smallMma)).tile 0).headIs .matrix (entry (.mma smallMma)) []
    ∧ (((mmaTile smallMma).taken .matrix (entry (.mma smallMma)) []).mmaCheck smallMma = some 0x01010000#32) :=
  ⟨⟨rfl, by decide, by decide, by decide⟩, by decide⟩
theorem test_drain_starts : (∀ v, ((withTile { matrixTile (.drain (smallDrain v)) with sram := fp32Sram }).tile 0).headIs .matrix (entry (.drain (smallDrain v))) [])
    ∧ ∀ v, (({ matrixTile (.drain (smallDrain v)) with sram := fp32Sram } : Tile).taken .matrix (entry (.drain (smallDrain v))) []).drainCheck (smallDrain v) = none :=
  ⟨fun v => ⟨rfl, by cases v <;> decide, by cases v <;> decide, by cases v <;> decide⟩, by decide⟩
theorem test_drain_refused : (((matrixTile (.drain (smallDrain false))).taken .matrix (entry (.drain (smallDrain false))) []).drainCheck (smallDrain false)
    = some 0x01010000#32) ∧ ((withTile (matrixTile (.drain (smallDrain false)))).tile 0).headIs .matrix (entry (.drain (smallDrain false))) [] :=
  ⟨by decide, rfl, by decide, by decide, by decide⟩
/-- SCLR of the last entry and of all 64; SSTO at the last place that holds 264 bytes. -/
theorem test_scale_starts : ((withTile (matrixTile (.sclr 63 1))).tile 0).headIs .matrix (entry (.sclr 63 1)) [] ∧ (64 : Nat) ≤ 64
    ∧ ((withTile (matrixTile (.ssto 65248#64))).tile 0).headIs .matrix (entry (.ssto 65248#64)) [] ∧ (65248#64).toNat % 32 = 0
    ∧ (65248#64).toNat + 264 ≤ ((matrixTile (.ssto 65248#64)).taken .matrix (entry (.ssto 65248#64)) []).sramBytes
    ∧ ((withTile (matrixTile (.seed 9#64))).tile 0).headIs .matrix (entry (.seed 9#64)) [] :=
  ⟨⟨rfl, by decide, by decide, by decide⟩, by decide, ⟨rfl, by decide, by decide, by decide⟩, by decide, by decide, rfl, by decide, by decide, by decide⟩
theorem test_vector_starts : (∀ op, ((withTile (vectorTile op smallVec)).tile 0).headIs .vector (entry (.vec op smallVec)) [])
    ∧ (∀ op, ((vectorTile op smallVec).taken .vector (entry (.vec op smallVec)) []).vecCheck op smallVec = none) ∧ (∀ op, smallVec.readsVdin op = false)
    ∧ smallVec.vd ≠ 63 :=
  ⟨fun op => ⟨rfl, by cases op <;> decide, by cases op <;> decide, by cases op <;> decide⟩, fun op => by cases op <;> decide, fun op => by cases op <;> decide, by decide⟩
theorem test_vector_refused : ((vectorTile .vld { smallVec with sa := 8#64 }).taken .vector (entry (.vec .vld { smallVec with sa := 8#64 })) []).vecCheck .vld
    { smallVec with sa := 8#64 } = some 0x01010000#32 := by decide
/-- A word of zeros is a NOP; a word with Q = 1 and OP 4 is a SEED of register 0. -/
theorem test_fetch : ((withTile runTile).tile 0).seq = .running ∧ ((withTile runTile).tile 0).stopDue = none
    ∧ ((withTile runTile).tile 0).pc + 8 ≤ ((withTile runTile).tile 0).sramBytes ∧ ((withTile { runTile with pc := 65528 }).tile 0).pc + 8 ≤ runTile.sramBytes
    ∧ decodeWord runTile.sreg runTile.word = .ok (noTok, .seq .nop) := by decide
/-- A queue with room for one more; MSUB at the last offset that holds a descriptor; an instruction that may complete. -/
def oneRunning : Tile := { runTile with running := [(.matrix, entry (.seed 0#64))] }
theorem test_engine_queue : (((withTile { runTile with matrixQ := List.replicate 31 (entry (.seed 0#64)) }).tile 0).queue .matrix).length < 32
    ∧ (65408#64).toNat % 128 = 0 ∧ (65408#64).toNat + 128 ≤ ((withTile runTile).tile 0).sramBytes
    ∧ ((withTile oneRunning).tile 0).running.find? (fun q => q.2.idx = (entry (.seed 0#64)).idx) = some (.matrix, entry (.seed 0#64))
    ∧ ((withTile oneRunning).tile 0).canComplete .matrix (entry (.seed 0#64)).idx = true := by decide
theorem test_msub_starts : ((withTile { runTile with moveQ := [entry (.msub 65408#64)], appended := 1 }).tile 0).headIs .move (entry (.msub 65408#64)) [] :=
  ⟨rfl, by decide, by decide, by decide⟩
/-- A tile whose kernel is being terminated, one whose work has drained after HALT, and one being cleared. -/
theorem test_tile_life : ((withTile { runTile with seq := .draining }).tile 0).seq = .draining ∧ ((withTile { runTile with seq := .draining }).tile 0).drained = true
    ∧ ((withTile { runTile with seq := .clearing }).tile 0).seq = .clearing ∧ ((withTile runTile).tile 0).live = true ∧ ((withTile runTile).tile 0).stopped = false
    ∧ ((withTile { runTile with stopDue := some 0x07010000#32 }).tile 0).stopDue = some 0x07010000#32 := by decide
theorem test_seed_register : ((withTile Tile.reset).tile 0).kernel = none ∧ ((withTile runTile).tile 0).kernel ≠ none := by decide

/-! ### A module in service -/

/-- The bytes of a list from an address on, those that are zero left out. -/
def bytesAt (a : Nat) (bs : List Byte) : Map Byte := (bs.zipIdx a).filterMap fun p => if p.1 = 0#8 then none else some (p.2, p.1)
/-- A device context at 0x1000, its root table at 0x2000 and one leaf of 1 GiB at 0x3000 that maps the lowest addresses onto
themselves, for read and write (R217 to R219). -/
def tables : Map Byte := [(0x1000, 0x01#8), (0x1018, 0x02#8), (0x101F, 0x90#8), (0x2000, 0x01#8), (0x2001, 0x0C#8), (0x3000, 0xD7#8)]
/-- Every stack in service, the host link up, firmware running and core 0 running. -/
def up : State :=
  { State.reset with
      mem := { MemS.reset with mem := tables, ctrls := (List.range 24).map fun c => (c, { MemCtrl.reset with state := 0 }) }
      cxl := { CxlS.reset with state := 1, lanes := 16, gts := 32 }
      xlat := { XlatS.reset with ddtp := 0x402#64 }
      cache := { CacheS.reset with swept := true }
      cores := { CoreS.reset with cores := [(0, { Core.reset with state := 1 })] }
      svc := { SvcS.reset with running := true, phase := 3 } }

/-! ### Bells, kernels and moves: the hypotheses of the statements are met -/

def heldBell : State := { up with bells := [(5, { Bell.reset with held := true })] }
/-- A bell one below all ones. -/
def highBell : State := { up with bells := [(5, { Bell.reset with count := 0xFFFFFFFFFFFFFFFE#64, compl := 1#64 })] }
def ringKernel : Kernel :=
  { tag := 7#64, compl := 0x5000, ctx := 0#32, src := .queue, tiles := [0], bells := [5], draws := [], hostWindow := false, streams := 2,
    terminated := false, clearing := false }
/-- Tile 0 runs a program of kernel 0, which holds bell 5. -/
def inKernel (x : Tile) : State := { (heldBell.setTile 0 x) with kern := { KernS.reset with kernels := [(0, some ringKernel)], nextKid := 1 } }
def posted : PostedRing := { bell := 5, scope := .die, qmask := 7, n := 3#64, upto := 0, pc := 8, tok := noTok }

theorem test_bells : ((up.bell 5).held = false ∧ (up.bell 5).sound) ∧ (heldBell.bell 5).held = true
    ∧ (highBell.bell 5).sound ∧ (highBell.bell 5).count.toNat + (1#64).toNat < 2 ^ 64 ∧ 2 ^ 64 ≤ (highBell.bell 5).count.toNat + (2#64).toNat
    ∧ (({ up with bells := [(5, { Bell.reset with poison := true })] } : State).bell 5).poison = true
    ∧ (8191 : BellId).val / 4096 = (1 : ADie).val ∧ (0xFFFFFFFFFFFFFFFE#64).toNat + (1#64).toNat < 2 ^ 64 := by
  simp only [Bell.sound]; decide
theorem test_ring : ((inKernel runTile).tile 0).seqReady noTok = true ∧ (inKernel runTile).localBell 0 (0#12).toNat = some 5
    ∧ ((inKernel runTile).tile 0).rings.length < 16
    ∧ ((inKernel { runTile with rings := List.replicate 15 posted }).tile 0).rings.length < 16
    ∧ ((inKernel { runTile with rings := [posted] }).tile 0).dueRing = some posted := by decide
/-- A threshold of 0 is reached at once, and one of 1 is not. -/
theorem test_wait : ((inKernel runTile).tile 0).goes noTok ∧ ((inKernel runTile).bell 5).sound ∧ ((inKernel runTile).bell 5).count.toNat = 0
    ∧ (((inKernel runTile).tile 0).sreg 0).toNat = 0 ∧ (((inKernel { runTile with sregs := [(1, 1#64)] }).tile 0).sreg 1).toNat = 1 :=
  ⟨⟨by decide, fun _ h => by cases h⟩, by simp only [Bell.sound]; decide, by decide, by decide, by decide⟩

/-- An image of one tile and one bell at 0x4000 (R168), and a launch entry that names it at 0x8000 (R389). -/
def smallImage : List Byte :=
  [0x49#8, 0x4B#8, 0x42#8, 0x5A#8, 1#8, 0#8, 0#8, 0#8, 0#8, 0x10#8, 0#8, 0#8, 0#8, 0#8, 0#8, 0#8] ++ [0x80#8, 0#8, 0#8, 0#8, 64#8, 0#8, 0#8, 0#8]
    ++ [0#8, 0#8, 0#8, 0#8, 0#8, 0#8, 0#8, 0#8] ++ [0#8, 0#8, 1#8, 0#8, 1#8, 0#8, 0#8, 0#8, 1#8, 0#8, 0#8, 0#8, 0#8, 0#8, 0#8, 0#8] ++ List.replicate 80 0#8
def lqEntry (kind : Byte) (tail : List Byte) : List Byte :=
  [kind, 0#8, 0#8, 0#8, 0#8, 0#8, 0#8, 0#8, ~~~ kind, 0xFF#8, 0xFF#8, 0xFF#8, 0xFF#8, 0xFF#8, 0xFF#8, 0xFF#8] ++ tail
def launchEntry : List Byte :=
  lqEntry 0x01#8 ([0#8, 0x40#8] ++ List.replicate 14 0#8 ++ [7#8, 0#8, 0#8, 0#8, 0#8, 0#8, 0#8, 0#8, 0#8, 0x50#8] ++ List.replicate 22 0#8)
def terminateEntry : List Byte := lqEntry 0x11#8 (List.replicate 16 0#8 ++ [7#8] ++ List.replicate 31 0#8)
/-- The launch queue holds one entry at 0x8000. -/
def queued (e : List Byte) (ks : Map (Option Kernel)) : State :=
  { up with
      mem := { up.mem with mem := tables ++ bytesAt 0x4000 smallImage ++ bytesAt 0x8000 e }
      kern := { KernS.reset with lq := { Ring.reset with base := 0x8000, tail := 1, en := true }, kernels := ks, nextKid := ks.length } }

theorem test_launch_entry : ((queued launchEntry []).lqTake 0).2 = some launchEntry := by decide
theorem test_launch_context : (((queued launchEntry []).lqTake 0).1.launchCtx (w32At launchEntry 0x30)).2 = true := by decide
def launchRead : State × W32 × List Byte :=
  (((queued launchEntry []).lqTake 0).1.launchCtx (w32At launchEntry 0x30)).1.readVirt 4 (w32At launchEntry 0x30) (w64At launchEntry 0x10).toNat 128 3
theorem test_launch_header : launchRead.2 = (stOk, smallImage) := by decide
theorem pair_eq {α β : Type} {p : α × β} {b : β} (h : p.2 = b) : p = (p.1, b) := by subst h; rfl
theorem test_launch_admitted : launchRead.1.admission (Image.ofBytes smallImage) [3] [5] = .ok ([3], [5]) := by decide +kernel
/-- A launch entry with a sound context, a header that passes the checks, and a free tile and bell. -/
theorem test_launch : ∃ s1 s2 s3, (queued launchEntry []).lqTake 0 = (s1, some launchEntry)
    ∧ s1.launchCtx (w32At launchEntry 0x30) = (s2, true)
    ∧ s2.readVirt 4 (w32At launchEntry 0x30) (w64At launchEntry 0x10).toNat 128 3 = (s3, stOk, smallImage)
    ∧ s3.admission (Image.ofBytes smallImage) [3] [5] = .ok ([3], [5]) :=
  ⟨_, _, launchRead.1, pair_eq test_launch_entry, pair_eq test_launch_context, pair_eq test_launch_header, test_launch_admitted⟩
theorem test_launch_tiles : (Image.ofBytes smallImage).tileCount ≠ 0 := by decide
theorem test_terminate : ((queued terminateEntry [(0, some ringKernel)]).lqTake 1).2 = some terminateEntry
    ∧ ringKernel.tag = w64At terminateEntry 0x20 ∧ ((queued terminateEntry [(0, some { ringKernel with tag := 8#64 })]).lqTake 1).2 = some terminateEntry := by
  decide
theorem test_completion : (inKernel { runTile with seq := .idle }).kernel 0 = some ringKernel
    ∧ (ringKernel.tiles.all fun t => ((inKernel { runTile with seq := .idle }).tile t).ended) = true := by decide

def smallMove (k : MoveKind) (src dst : Bool) : MoveDesc :=
  { kind := k, esize := 1, srcSram := src, dstSram := dst, stream := 0, src := 0#64, dst := 0x400#64, cols := 4, rows := 1, srcStride := 0,
    dstStride := 4, bell := 0, scope := .die, ringEn := false, n := 1#16, fill := 0#32, remoteCoord := 0#19, remoteWindow := 0#8,
    remoteMulti := false, data := List.replicate 64 9#8 }
def inFlight (p : DescPhase) (d : MoveDesc) : InFlight :=
  { InFlight.submitted (entry (.seed 0#64)) 0x80 with phase := p, d := some d }
def moving (f : InFlight) : State := inKernel { runTile with descs := [f], sram := bytesAt 0 (List.replicate 16 5#8) }

theorem test_moves_start : ∀ k ∈ [MoveKind.copy, .transpose, .fill, .inline],
    ((moving (inFlight .accepted (smallMove k true true))).tile 0).mayStart 0 k = some (inFlight .accepted (smallMove k true true), smallMove k true true) := by
  decide
theorem test_moves_run : ∀ k ∈ [MoveKind.copy, .transpose, .fill, .inline], ∀ d, d = smallMove k (k = .copy || k = .transpose) true →
    ((moving (inFlight .accepted d)).readRows 0 (inFlight .accepted d) d).2.1 = stOk
      ∧ (((moving (inFlight .accepted d)).readRows 0 (inFlight .accepted d) d).1.writeRows 0 (inFlight .accepted d) d
          (d.output ((moving (inFlight .accepted d)).readRows 0 (inFlight .accepted d) d).2.2)).2 = stOk := by
  intro k h d e; subst e
  simp only [List.mem_cons, List.not_mem_nil, or_false] at h
  rcases h with rfl | rfl | rfl | rfl <;> decide
theorem test_inline_runs : (smallMove .inline false true).cols ≠ 0 ∧ (smallMove .inline false true).cols ≤ (smallMove .inline false true).data.length := by
  decide
/-- A COPY descriptor at offset 0x80 of tile SRAM: four bytes from 0 to 0x400 (R155). -/
def copyBytes : List Byte :=
  [0x01#8, 0x0D#8, 0#8, 0#8, 0#8, 0#8, 0#8, 0#8, 0xFE#8, 0xF2#8, 0xFF#8, 0xFF#8, 0xFF#8, 0xFF#8, 0xFF#8, 0xFF#8] ++ List.replicate 8 0#8
    ++ [0#8, 0x04#8, 0#8, 0#8, 0#8, 0#8, 0#8, 0#8] ++ [4#8, 0#8, 1#8, 0#8, 0#8, 0#8, 0#8, 0#8] ++ [4#8] ++ List.replicate 87 0#8
def submittedMove : State :=
  inKernel { runTile with descs := [InFlight.submitted (entry (.seed 0#64)) 0x80], sram := bytesAt 0x80 copyBytes }
theorem test_descriptor_accept : (submittedMove.tile 0).descs.findIdx? (fun f => f.phase = .submitted) = some 0
    ∧ (submittedMove.tile 0).kernel.bind submittedMove.kernel = some ringKernel ∧ ((submittedMove.tile 0).descs.any fun f => f.phase = .faulted) = false := by decide
theorem test_descriptor_checks : submittedMove.descCheck ringKernel (submittedMove.tile 0).sramBytes ((submittedMove.tile 0).load 0x80 128)
      = .ok { MoveDesc.ofBytes .copy copyBytes with kind := .copy } ∧ (MoveDesc.ofBytes .copy copyBytes).virtSide = none := by decide
/-- A descriptor that is done, without and with a ring of the kernel's bell 0, on a signal channel at its last count but one. -/
def ended (d : MoveDesc) : State := inKernel { runTile with descs := [{ inFlight .done d with tok := ⟨none, some 3⟩ }], tokens := [(3, 254)] }
theorem test_descriptor_ends : ∀ e ∈ [false, true], ∀ d, d = { smallMove .copy true true with ringEn := e } →
    ((ended d).tile 0).descs[0]? = some { inFlight .done d with tok := ⟨none, some 3⟩ } ∧ (inFlight .done d).outcome = some 0#32
      ∧ ((ended d).tile 0).turn 0 { inFlight .done d with tok := ⟨none, some 3⟩ } = true ∧ ((ended d).tile 0).stopped = false
      ∧ ((ended d).tile 0).tokens.get 0 3 < 255 ∧ (ended d).localBell 0 d.bell = some 5 ∧ (MoveKind.copy ≠ .put) := by
  intro e h d q; subst q
  simp only [List.mem_cons, List.not_mem_nil, or_false] at h
  rcases h with rfl | rfl <;> decide

/-! ### Memory and cores: the hypotheses of the statements are met -/

/-- One near stack out of service. -/
def oneDown : State := { up with mem := up.mem.setCtrl 3 { MemCtrl.reset with state := 2 } }
def someLine (d p : Bool) (hs : List CoreId) : CacheLine :=
  { data := List.replicate 128 7#8, dirty := d, poison0 := p, poison1 := false, holders := hs, excl := d, inSystem := false, hint := false, amoBy := none }
/-- The caches hold the line at 0x9000. -/
def lined (l : CacheLine) : State := { up with cache := up.cache.setLine 0x9000 (some l) }

/-- The last line of near memory, the last byte of deep memory, and addresses below and beyond the memories. -/
theorem test_memory_served : engineRange 0x7FFFFFFF80 128 = some .near ∧ up.serves 0x7FFFFFFF80 4 = true ∧ up.mem.clean 0x7FFFFFFF80 128
    ∧ engineRange 0xFFFFFFFFFF 1 = some .deep ∧ up.serves 0xFFFFFFFFFF 4 = true ∧ up.mem.clean 0xFFFFFFFFFF 1
    ∧ engineRange 0x10000000000 1 = none ∧ up.hostWaits 0x10000000000 = false := by
  unfold MemS.clean; decide
theorem test_memory_refused : engineRange 0x9000 4 = some .near ∧ oneDown.serves 0x9000 4 = false ∧ oneDown.mem.serves 0x9000 = false
    ∧ (oneDown.mem.ctrl (oneDown.mem.homeOf 0x1800)).state ≠ 0 := by decide
/-- The first and the last byte of the host window. -/
theorem test_host_window : engineRange 0x100000000000 1 = some .host ∧ up.routed 0x100000000000 4 = true ∧ up.cxl.state = 1
    ∧ up.mem.hostPoisoned 0 1 = false ∧ engineRange (0x100000000000 + (2 ^ 44 - 1)) 1 = some .host ∧ up.mem.hostPoisoned (2 ^ 44 - 1) 1 = false
    ∧ up.routed (0x100000000000 + (2 ^ 44 - 1)) 4 = true := by decide
theorem test_pool : (262144#64).toNat ≤ poolCapacity 0 ∧ poolCapacity 0 < w64Bits 262145#64 0 19 ∧ (65536#64).toNat ≤ poolCapacity 1 := by decide
theorem test_patrol : (up.mem.ctrl 0).period ≠ 0#8 ∧ (up.mem.ctrl 0).state = 0 ∧ up.mem.patrolNext 0 (max (up.mem.ctrl 0).patrol (tierBase 0)) 64 = 0
    ∧ 0 + 1 < tierEnd 0 ∧ up.mem.poison.get false 0 = false ∧ up.mem.homeOf 0 = 0 ∧ up.mem.cwErr.get CwErr.none 0 ≠ .uncorrectable
    ∧ ({ up.mem with cwErr := [(0, .uncorrectable)] } : MemS).cwErr.get CwErr.none 0 = .uncorrectable ∧ (up.mem.ctrl 0).state ≠ 2 := by decide
theorem test_timeout : (Agent.cache, 64) ∈ ({ up.mem with timedOut := [(Agent.cache, 64)] } : MemS).timedOut
    ∧ (lined (someLine true false [0])).cache.line 0x9000 = some (someLine true false [0])
    ∧ (lined (someLine true false [0])).cache.retry.contains (0x9000 / 128) = false := by decide

theorem test_core_may : up.coreMay 0 0x907F 1 ∧ up.coreMay 0 0x9000 8 ∧ up.goodLine 0x9000 ∧ (lined (someLine true false [0])).goodLine 0x9000
    ∧ 0x9000 % 8 = 0 ∧ up.writeBackWaits 0x9000 = false ∧ up.cache.predicted 0 (0x9000 / 128) < 2 := by
  refine ⟨?_, ?_, ?_, ?_, by decide, by decide, by decide⟩
  · unfold State.coreMay; decide
  · unfold State.coreMay; decide
  · show up.homeGood _ ∧ up.homeGood _
    exact ⟨⟨by decide, by decide, by decide⟩, ⟨by decide, by decide, by decide⟩⟩
  · exact ⟨rfl, rfl⟩
theorem test_core_poisoned : (lined (someLine false true [0])).cache.line 0x9000 = some (someLine false true [0])
    ∧ (someLine false true [0]).poisonAt 0x9000 = true ∧ (lined (someLine false true [0])).coreMay 0 0x9000 4 := by
  unfold State.coreMay; decide
theorem test_amo_misaligned : (up.core 0).state = 1 ∧ 0x9004 % (if true then 8 else 4) ≠ 0 := by decide
/-- An atomic that its home performs: the predictor counts two for a line that no cache holds. -/
theorem test_amo_home : ({ up with cache := { up.cache with predictor := [(0, [(0x120, 2)])] } } : State).cache.predicted 0 (0x9000 / 128) = 2
    ∧ up.cache.line 0x9000 = none ∧ regionOf 0x9000 = .near ∧ up.serves 0x9000 4 = true ∧ up.mem.clean 0x9000 8 := by
  unfold MemS.clean; decide
/-- A home that takes its line, and one that cannot. -/
theorem test_cache_blocks : (up.core 0).state = 1 ∧ (regionOf 0x9000).isMem = true ∧ (lined (someLine true false [0])).writeBackWaits 0x9000 = false
    ∧ (lined (someLine true false [0])).homeTakes 0x9000 = 0#32
    ∧ ({ lined (someLine true false [0]) with mem := oneDown.mem } : State).homeTakes 0x9000 ≠ 0#32
    ∧ ({ up with cache := { up.cache with retry := [0x120] } } : State).cache.retry.contains (0x9000 / 128) = true := by decide
def ranged (l : W64) : Core := { Core.reset with state := 1, crBase := 0x9000#64, crLen := l }
theorem test_range : rangeCheck (ranged 128#64).crBase (ranged 128#64).crLen false = 0#32 ∧ rangeCheck (ranged 0#64).crBase (ranged 0#64).crLen false = 0#32
    ∧ rangeCheck (ranged 1#64).crBase (ranged 1#64).crLen false ≠ 0#32
    ∧ (({ lined (someLine true false [0]) with cores := { up.cores with cores := [(0, { ranged 128#64 with crBusy := true, crCmd := 2 })] } } : State).core 0).crBusy
        = true
    ∧ (∀ a ∈ (lined (someLine true false [0])).cache.linesIn 0x9000 128, (lined (someLine true false [0])).writeBackWaits a = false) := by decide
theorem test_core_start : (up.core 1).state = 0 ∧ (4#64).toNat % 4 = 0 ∧ up.cache.swept = true ∧ (2#64).toNat % 4 ≠ 0 ∧ (up.core 0).state ≠ 0 := by decide

/-! ### Translation, events, migration and windows: the hypotheses of the statements are met -/

def anUnmap (len : Nat) (k : Option W32) : Unmap := { device := 0, process := none, base := 0, len := len, ticket := k }
def unmapping (us : List Unmap) : State := { up with xlat := { up.xlat with unmaps := us, unmapLen := 0x1000#64, ioBusy := true } }
/-- IOINVAL of kind 3, and one with the lowest reserved bit set; an eighth unmap and a ninth; an unmap of length zero. -/
theorem test_unmap : w64Bits 3#64 2 6 = 0 ∧ w64Bits 3#64 33 31 = 0 ∧ w64Bits 4#64 2 6 ≠ 0
    ∧ (unmapping []).xlat.unmapLen ≠ BitVec.allOnes 64 ∧ (unmapping []).xlat.unmapBase.toNat % 4096 = 0 ∧ (unmapping []).xlat.unmapLen.toNat % 4096 = 0
    ∧ (unmapping (List.replicate 7 (anUnmap 4096 none))).xlat.unmaps.length < 8 ∧ 8 ≤ (unmapping (List.replicate 8 (anUnmap 4096 none))).xlat.unmaps.length
    ∧ (unmapping [anUnmap 4096 (some 1#32), anUnmap 0 none]).xlat.unmaps.findIdx? (fun u => u.ticket.isNone) = some 1
    ∧ (unmapping [anUnmap 4096 (some 1#32), anUnmap 0 none]).xlat.unmaps[1]? = some (anUnmap 0 none)
    ∧ ((unmapping [anUnmap 4096 (some 1#32)]).tiles.any fun e => e.2.startedIn (anUnmap 4096 (some 1#32)) ((unmapping []).tileCtx e.2)) = false := by decide

theorem test_unmap_length : ({ up.xlat with unmapLen := BitVec.allOnes 64 } : XlatS).unmapLen = BitVec.allOnes 64 ∧ (anUnmap 0 (some 1#32)).len = 0
    ∧ (unmapping [anUnmap 4096 none, anUnmap 0 none]).xlat.unmaps = [anUnmap 4096 none, anUnmap 0 none] := by decide

def aFault (fwd : Bool) : FaultReg :=
  { seq := 9#32, forward := fwd, cause := 2, write := false, ctx := 0#32, locator := 0#32, va := 0#64, last := 0#64, level := 0 }
def faulted (fwd : Bool) : State := { up with xlat := { up.xlat with faults := [(3, some (aFault fwd))] } }
/-- The answers RETRY and FAIL to tile 3, one that names another record, and one to a tile that holds no fault. -/
theorem test_fault_answers : ∀ fwd, (faulted fwd).xlat.faults.get none (3 : TileId).val = some (aFault fwd) ∧ (aFault fwd).forward = fwd
    ∧ (faulted fwd).tocsin.posted (faultSrc 3) (aFault fwd).seq = true
    ∧ w64Bits 0x900000003#64 0 16 = 3 ∧ (aFault fwd).seq.toNat = w64Bits 0x900000003#64 32 32 ∧ w64Bits 0x900000003#64 16 16 = 0
    ∧ w64Bits 0x900010003#64 16 16 = 1 ∧ (aFault fwd).seq.toNat ≠ w64Bits 0x800000003#64 32 32
    ∧ (faulted fwd).xlat.faults.get none (w64Bits 0x900000004#64 0 16) = none := by decide

def aRec : Rec := { cls := 0, type := 1, die := 4, kind := 0, unit := 0, seq := 1#32, tally := 0#64, src := 7, payload := List.replicate 44 0#8 }
def queueUp (q : TocsinS) : State := { up with tocsin := { q with en := true, base := 0x40000 } }
/-- A record posted at the last entry, whose PROD goes on to the turn of the ring. -/
theorem test_events_post : (queueUp { TocsinS.reset with accepted := [aRec], prod := 8189 }).tocsin.accepted[0]? = some aRec
    ∧ (queueUp { TocsinS.reset with accepted := [aRec], prod := 8189 }).tocsin.needBase = false
    ∧ (queueUp { TocsinS.reset with accepted := [aRec], prod := 8189 }).nearSpan (0x40000 + 64 * (8189 % 4095)) aRec.bytes.length := by
  unfold State.nearSpan MemS.clean; decide
/-- TQ_CONS to PROD and one beyond; EN set with every flag and the largest RESERVE, and cleared. -/
theorem test_events_registers : (3#32).toNat < 8190 ∧ ((3#32).toNat + 8190 - 8189) % 8190 ≤ (queueUp { TocsinS.reset with prod := 3, cons := 8189 }).tocsin.occupancy
    ∧ (queueUp { TocsinS.reset with prod := 3, cons := 8189 }).tocsin.occupancy < ((4#32).toNat + 8190 - 8189) % 8190 ∧ 8190 ≤ (8190#32).toNat
    ∧ (0x0FFE0007#32).toNat % 2 ^ 16 < 8 ∧ (0x0FFE0007#32).toNat / 2 ^ 16 ≤ 4094 ∧ (0x0FFE0007#32).toNat % 2 = 1 ∧ up.tocsin.en = false
    ∧ up.nearSpan up.tocsin.markerAddr 64 ∧ (0x0FFE0006#32).toNat % 2 = 0 ∧ (queueUp { TocsinS.reset with markerDue := true }).tocsin.en = true
    ∧ (queueUp { TocsinS.reset with markerDue := true }).nearSpan (queueUp { TocsinS.reset with markerDue := true }).tocsin.markerAddr 64 := by
  unfold State.nearSpan MemS.clean; decide
def forwarding : State :=
  { up with cxl := { up.cxl with fqEn := true, fqProd := 511, fqCons := 256, fqBase := 0x10000 }, tocsin := { up.tocsin with forward := [aRec] } }
theorem test_events_forward : forwarding.tocsin.forward[0]? = some aRec ∧ forwarding.cxl.state = 1 ∧ forwarding.cxl.fqEn = true ∧ forwarding.cxl.fqHeld ≠ 256
    ∧ engineRange (hostWin (0x10000 + 64 * (511 % 256))) aRec.bytes.length = some .host ∧ (511#32).toNat < 512
    ∧ ((511#32).toNat + 512 - forwarding.cxl.fqCons) % 512 ≤ forwarding.cxl.fqHeld
    ∧ forwarding.cxl.fqHeld < ((0#32).toNat + 512 - forwarding.cxl.fqCons) % 512 ∧ up.cxl.fqEn = false := by decide

/-- A migration descriptor of 4 KiB from 0x20000 to 0x30000, or of 64 KiB for ADVISE (R241). -/
def migBytes (kind : Byte) (unit : Byte) (src len : List Byte) : List Byte :=
  [kind, unit, 0#8, 0#8, 0#8, 0#8, 0#8, 0#8, ~~~ kind, ~~~ unit, 0xFF#8, 0xFF#8, 0xFF#8, 0xFF#8, 0xFF#8, 0xFF#8] ++ src ++ List.replicate 5 0#8
    ++ [0#8, 0#8, 3#8, 0#8, 0#8, 0#8, 0#8, 0#8] ++ len ++ List.replicate 29 0#8
def migrating (bs : List Byte) : State :=
  { up with
      mem := { up.mem with mem := tables ++ bytesAt 0x8000 bs }
      mig := { up.mig with mq := { Ring.reset with base := 0x8000, tail := 1, en := true } } }
def migCopyBytes : List Byte := migBytes 0x01#8 0#8 [0#8, 0#8, 2#8] [0#8, 0x10#8, 0#8]
def migZeroBytes : List Byte := migBytes 0x11#8 0#8 [0#8, 0#8, 0#8] [0#8, 0x10#8, 0#8]
def migAdviseBytes (h : Bool) : List Byte := migBytes 0x21#8 (if h then 0x0A#8 else 0x02#8) [0#8, 0#8, 0#8] [0#8, 0#8, 1#8]
theorem test_migration_heads : ∀ bs ∈ [migCopyBytes, migZeroBytes, migAdviseBytes true, migAdviseBytes false],
    (migrating bs).migHead (MigDesc.ofBytes bs) ∧ (MigDesc.ofBytes bs).len ≠ 0 := by
  intro bs h
  simp only [List.mem_cons, List.not_mem_nil, or_false] at h
  have e : ∀ bs ∈ [migCopyBytes, migZeroBytes, migAdviseBytes true, migAdviseBytes false], (migrating bs).mem.load 0x8000 64 = bs := by decide
  rcases h with rfl | rfl | rfl | rfl <;>
    exact ⟨⟨by decide, by decide, ⟨.near, by decide, by decide, by decide, by unfold MemS.clean; decide⟩, by decide, (congrArg MigDesc.ofBytes (e _ (by simp))).symm, by decide⟩, by decide⟩
theorem test_migration_kinds : (MigDesc.ofBytes migCopyBytes).kind = 0 ∧ (MigDesc.ofBytes migZeroBytes).kind = 1 ∧ (MigDesc.ofBytes (migAdviseBytes true)).kind = 2
    ∧ (MigDesc.ofBytes (migAdviseBytes true)).unitHost = true ∧ (MigDesc.ofBytes (migAdviseBytes false)).unitHost = false := by decide
theorem test_migration_span : (migrating migCopyBytes).memSpan 0x20000 4096 ∧ (migrating migCopyBytes).memSpan 0x30000 4096 :=
  ⟨⟨.near, by decide, by decide, by decide, by unfold MemS.clean; decide +kernel⟩, ⟨.near, by decide, by decide, by decide, by unfold MemS.clean; decide +kernel⟩⟩
theorem test_migration_completes : ({ up with mig := { up.mig with cur := some ⟨0x8000, 0#32, true, 5, 1#16⟩ } } : State).mig.cur = some ⟨0x8000, 0#32, true, 5, 1#16⟩
    ∧ up.memSpan (0x8000 + 0x30) 8 ∧ (up.bell 5).sound ∧ up.mig.decay ≠ 0 :=
  ⟨rfl, ⟨.near, by decide, by decide, by decide, by unfold MemS.clean; decide⟩, by simp only [Bell.sound]; decide, by decide⟩

def staged (c : W64) : State :=
  { up with win := { up.win with stage := [(0, 1#64), (4, c), (5, BitVec.allOnes 64), (6, BitVec.allOnes 64), (7, BitVec.allOnes 64)] } }
/-- Entry 255 and the first that does not exist; a staged entry that keeps the rules and one whose complement does not agree. -/
theorem test_window : (255#32).toNat < 256 ∧ 256 ≤ (256#32).toNat
    ∧ (∀ j < 4, (staged (~~~ 1#64)).win.stage.get 0#64 (4 + j) = ~~~ (staged (~~~ 1#64)).win.stage.get 0#64 j)
    ∧ winLegal ((staged (~~~ 1#64)).win.stage.get 0#64 0) ((staged (~~~ 1#64)).win.stage.get 0#64 1) ((staged (~~~ 1#64)).win.stage.get 0#64 2)
        ((staged (~~~ 1#64)).win.stage.get 0#64 3) = true
    ∧ (∃ j < 4, (staged 0#64).win.stage.get 0#64 (4 + j) ≠ ~~~ (staged 0#64).win.stage.get 0#64 j) :=
  ⟨by decide, by decide, by decide, by decide, 0, by decide, by decide⟩

/-! ### Streams and the host: the hypotheses of the statements are met -/

/-- A stream of 64 slots and 16 entries with nothing announced. -/
def openStream : StreamS :=
  { StreamS.reset with state := 1, level := 1, sqBase := 0x100000, cqBase := 0x200000, evec := 3, cvec := 3 }
def streaming (x : StreamS) : State := { up with cxl := { up.cxl with streams := [(3, x)] } }
/-- An open with the right version bits, and one of another. -/
theorem test_stream_open : (0x20001#32).toNat % 4 = 1 ∧ ((1#32).toNat % 4 = 1 ∧ (1#32).toNat % 2 ^ 16 < 4)
    ∧ ((streaming { openStream with state := 0 }).stream 3).state = 0
    ∧ (((streaming { openStream with state := 0 }).stream 3).openCheck 0x20001#32 = none ∧ (0x20001#32).toNat % 2 ^ 16 < 4)
    ∧ ((streaming { openStream with state := 0 }).stream 3).openCheck 1#32 = some stVersion := by decide
def aCmd (op : Nat) (p : CmdPhase) : StreamCmd :=
  { uid := 0, seq := 0#16, op := op, cmpl := true, irq := false, fence := false, len := 0, operand := 0#64, body := List.replicate 48 0#8, chain := [],
    phase := p, status := 0#32, ext := 0#32, srcPs := [], dstPs := [], pages := [], revoked := false, kids := [] }
def holding (c : StreamCmd) : State := streaming { openStream with cmds := [c] }
theorem test_stream_close : (2#32).toNat % 4 = 2 ∧ (2#32).toNat % 2 ^ 16 < 4 ∧ ((holding (aCmd 0 .accepted)).stream 3).state = 1
    ∧ (∀ c ∈ ((holding (aCmd 0 .accepted)).stream 3).cmds, c.phase = .accepted)
    ∧ (∃ c ∈ ((holding (aCmd 3 .translated)).stream 3).cmds, c.phase = .translated ∧ c.op ≠ 4 ∧ c.op ≠ 7) := by decide
/-- A tail that announces every slot, and one beyond. -/
theorem test_doorbell : (64#32).toNat < 2 ^ 13 ∧ ((streaming openStream).stream 3).state = 1 ∧ (64#32).toNat < ((streaming openStream).stream 3).span
    ∧ ((64#32).toNat + openStream.span - openStream.sqHead) % openStream.span ≤ openStream.slots
    ∧ openStream.slots < ((65#32).toNat + openStream.span - openStream.sqHead) % openStream.span ∧ openStream.span ≤ (128#32).toNat
    ∧ ¬ ((up.stream 3).state = 1 ∨ (up.stream 3).state = 2) := by decide

/-- The head slot of a NOP of SEQ 0 that asks for an entry (R404), and one that is not ready. -/
def nopSlot : List Byte := [0#8, 0#8, 0xFF#8, 0xFF#8, 0#8, 0x11#8] ++ List.replicate 58 0#8
def emptySlot : List Byte := List.replicate 64 0#8
def announcing (bs : List Byte) (w : List (Nat × Nat)) : State :=
  { streaming { openStream with tail := 1, waits := w } with mem := { up.mem with host := bytesAt 0x100000 bs } }
theorem test_slot_holds : (announcing nopSlot []).slotHolds 3 0 nopSlot ∧ (announcing emptySlot []).slotHolds 3 0 emptySlot
    ∧ (announcing nopSlot []).streamReads 3 = true ∧ ((announcing nopSlot []).stream 3).announced ≠ 0 := by
  unfold State.slotHolds; decide
theorem test_slot_tags : ((announcing nopSlot []).stream 3).tagged 0 nopSlot = true ∧ ((announcing emptySlot []).stream 3).tagged 0 emptySlot = false
    ∧ ((announcing emptySlot []).stream 3).seen = 0 ∧ ((announcing emptySlot []).stream 3).waits = []
    ∧ ((announcing emptySlot [(0, 7)]).stream 3).waits = [(0, 7)] ∧ 8 ≤ 7 + 1 := by decide
theorem test_slot_admitted : ∀ w ∈ [[], [(0, 6)]],
    ((announcing nopSlot w).setStream 3 { (announcing nopSlot w).stream 3 with waits := [] }).admitsHead 3 nopSlot (StreamCmd.ofHead 0 nopSlot)
      (((announcing nopSlot w).setStream 3 { (announcing nopSlot w).stream 3 with waits := [] }).streamWidth 3).1 := by
  intro w h
  simp only [List.mem_cons, List.not_mem_nil, or_false] at h
  rcases h with rfl | rfl <;> exact ⟨rfl, by decide, _, rfl, by decide⟩

def inlineCmd (op : Nat) : StreamCmd := { aCmd op .accepted with len := 48, operand := 0x9000#64, chain := List.replicate 48 3#8 }
/-- Commands of every kind that may start, alone in their stream. -/
theorem test_commands_start : ∀ op ∈ [0, 3, 6, 7, 8, 9], (holding (aCmd op .accepted)).starting 3 0 op = some (aCmd op .accepted) := by decide
theorem test_commands_handed : ∀ op ∈ [4, 5], (holding (aCmd op .accepted)).handed 3 0 op = some (aCmd op .accepted) := by decide
theorem test_inline_starts : ∀ op ∈ [1, 2], (holding (inlineCmd op)).starting 3 0 op = some (inlineCmd op) := by decide
theorem test_inline_translated : ∀ op ∈ [1, 2], ∃ s1 l, (holding (inlineCmd op)).translate 4 ((holding (inlineCmd op)).stream 3).ctx (inlineCmd op).operand true
      = (s1, .inl l) ∧ l.pbase + ((inlineCmd op).operand.toNat - l.vbase) = 0x9000 ∧ (inlineCmd op).operand.toNat - l.vbase + (inlineCmd op).len ≤ l.size
    ∧ inMem 0x9000 (inlineCmd op).len = true ∧ s1.memSpan 0x9000 48 := by
  intro op h
  simp only [List.mem_cons, List.not_mem_nil, or_false] at h
  rcases h with rfl | rfl <;>
    exact ⟨_, _, rfl, by decide, by decide, by decide, .near, by decide, by decide, by decide, by unfold MemS.clean; decide⟩
/-- A COPY of one piece whose spans are translated, and one to be translated. -/
theorem test_copy : (holding { aCmd 3 .translated with srcPs := [(0x20000, 64)], dstPs := [(0x30000, 64)] }).cmdAt 3 0 3 .translated
      = some { aCmd 3 .translated with srcPs := [(0x20000, 64)], dstPs := [(0x30000, 64)] }
    ∧ (holding { aCmd 3 .accepted with body := (bytesOfNat 8 0x20000 ++ bytesOfNat 8 0x30000 ++ bytesOfNat 8 64 ++ List.replicate 24 0#8) }).starting 3 0 3
      = some { aCmd 3 .accepted with body := (bytesOfNat 8 0x20000 ++ bytesOfNat 8 0x30000 ++ bytesOfNat 8 64 ++ List.replicate 24 0#8) }
    ∧ ((holding (aCmd 3 .accepted)).virtPages 4 0#32 0x20000 64 false).2.toOption = some [(0x20000, 64)]
    ∧ (((holding (aCmd 3 .accepted)).virtPages 4 0#32 0x20000 64 false).1.virtPages 4 0#32 0x30000 64 true).2.toOption = some [(0x30000, 64)] := by decide
theorem test_stream_bells : (up.bell (aCmd 6 .accepted).bell).sound ∧ (up.bell (aCmd 6 .accepted).bell).count.toNat + w64Bits (aCmd 6 .accepted).operand 16 16 < 2 ^ 64
    ∧ (aCmd 7 .accepted).word 0 ≤ (up.bell (aCmd 7 .accepted).bell).count.toNat
    ∧ (up.bell 0).count.toNat < ({ aCmd 7 .accepted with body := 1#8 :: List.replicate 47 0#8 } : StreamCmd).word 0 := by
  simp only [Bell.sound]; decide

/-- A LAUNCH of a stream that names the image at 0x4000. -/
def launchCmd : StreamCmd := { aCmd 4 .accepted with body := [0#8, 0x40#8] ++ List.replicate 46 0#8 }
def launching : State := { holding launchCmd with mem := { up.mem with mem := tables ++ bytesAt 0x4000 smallImage } }
def launchStarted : State := (launching.served 3).setCmd 3 0 { launchCmd with phase := .started }
theorem test_stream_launch_handed : launching.handed 3 0 4 = some launchCmd ∧ launching.launchDenied launchCmd = false := by decide
theorem test_stream_launch_context : (launchStarted.launchCtx 0#32).2 = true := by decide
theorem test_stream_launch_header : ((launchStarted.launchCtx 0#32).1.readVirt 4 0#32 (w64At launchCmd.body 0).toNat 128 3).2 = (stOk, smallImage) := by decide
theorem test_stream_launch_admitted : ((launchStarted.launchCtx 0#32).1.readVirt 4 0#32 (w64At launchCmd.body 0).toNat 128 3).1.admission (Image.ofBytes smallImage)
    [3] [5] = .ok ([3], [5]) := by decide +kernel
/-- A command that has ended, whose entry is due at the last entry of the ring. -/
theorem test_entry : ∃ e, (streaming { openStream with cmds := [aCmd 0 .done], cqTail := 31, cqHead := 31 }).cmdEnd 3 (aCmd 0 .done) = some e ∧ (aCmd 0 .done).entryDue e = true
    ∧ (streaming { openStream with cmds := [aCmd 0 .done], cqTail := 31, cqHead := 31 }).cxl.state = 1
    ∧ ((streaming { openStream with cmds := [aCmd 0 .done], cqTail := 31, cqHead := 31 }).stream 3).cqFull = false
    ∧ engineRange (hostWin (0x200000 + 16 * (31 % 2 ^ 4))) 16 = some .host := ⟨_, rfl, by decide, by decide, by decide, by decide⟩

/-- A decoder of 1 GiB at deep memory's base, which answers at host address 0x40000000. -/
def aDecoder : HdmReq := { base := 0x40000000#64, size := 0x40000000#64, ways := 1 }
def decoding (c : Bool) : State :=
  { up with
      cxl := { up.cxl with
        hdmMap := [(0, 0x0000008000000001#64)]
        hdm := [(0, some aDecoder)]
        region := [(0, 0x8000000007#64), (1, 0x1000#64)] }
      cust := { up.cust with latched := c } }
theorem test_hdm : aDecoder.ways = 1 ∧ aDecoder.size.toNat = hdmSize ((decoding false).cxl.hdmMap.get 0#64 0) ∧ aDecoder.size.toNat ≠ 0
    ∧ ¬ (({ aDecoder with ways := 2 } : HdmReq).ways = 1) := by decide
/-- The last 64 B that the decoder covers and the first that it does not; the last bytes of a region and the first beyond. -/
theorem test_host_memory : ∀ c, (decoding c).cust.sealed = c ∧ (decoding c).cxl.state = 1
    ∧ (decoding c).cxl.windowOf 0x7FFFFFC0 64 = some 0x803FFFFFC0 ∧ (decoding c).memSpan 0x803FFFFFC0 64 ∧ (decoding c).cxl.windowOf 0x80000000 64 = none
    ∧ (decoding c).cxl.regionAt 0xFF0 16 false = some 0x8000000FF0 ∧ (decoding c).memSpan 0x8000000FF0 16 ∧ (decoding c).cxl.regionAt 0xFF1 16 false = none
    ∧ (decoding c).cxl.regionAt 0xFF0 16 true = some 0x8000000FF0 ∧ (decoding c).cxl.regionAt 0xFF1 16 true = none := by
  intro c
  cases c <;>
  exact ⟨by decide, by decide, by decide, ⟨.deep, by decide, by decide, by decide, by unfold MemS.clean; decide⟩, by decide, by decide,
    ⟨.deep, by decide, by decide, by decide, by unfold MemS.clean; decide⟩, by decide, by decide, by decide⟩
theorem test_snoop : regionOf (hostWin 0x40) = .host
    ∧ ({ up with cache := up.cache.setLine (hostWin 0x40) (some (someLine true false [0])) } : State).cache.line (hostWin 0x40) = some (someLine true false [0])
    ∧ up.cache.line (hostWin 0x40) = none := by decide
theorem test_link : rateOk { lanes := 16, gts := 32 } = true ∧ ({ up with cxl := { up.cxl with state := 2 } } : State).cxl.state = 2 ∧ State.reset.cxl.state = 0
    ∧ ({ State.reset with cust := { CustS.reset with verified := true } } : State).cust.verified = true ∧ State.reset.cxl.state ≠ 1 ∧ State.reset.cxl.state ≠ 2 := by
  decide
theorem test_mailbox : up.cores.hostMsgLen = 0 ∧ up.cores.rtMsgOffered = false ∧ (2#8).toNat < 3 ∧ 3 ≤ (3#8).toNat ∧ (up.cust.spdm.get SpdmS.reset 0).sessions = []
    ∧ (({ up.cust with spdm := [(0, { SpdmS.reset with sessions := [⟨7#32, [], true, 0⟩] })] } : CustS).spdm.get SpdmS.reset 0).sessions ≠ [] := by decide

/-! ### Carillon: the hypotheses of the statements are met -/

/-- A module at coordinate 0 of a torus of two modules along axis 0, whose port 0 is as given. -/
def fabric (x : Port) : State :=
  { up with net := { NetS.reset with ports := [(0, { x with coordCopy := 0xFFFFFFFF00000000#64 })], frozen := true, shape := 1#19 } }
def upPort : Port := { Port.reset with state := 3, step := 8, width := 3, lanes := 0xFFFF#16 }
/-- The CAPS of the neighbour at coordinate 1. -/
def caps (l : W16) (p : Nat) : Caps :=
  { levels := 2#16, lanes := l, port := p, pair := 0xFFFFFFFE00000001#64, shape := 1#19, isSwitch := false, encCap := true, encReq := false }
theorem test_port_control : (2 : Nat) < 3 ∧ ((fabric { upPort with en := false }).port 0).en = false
    ∧ ((fabric { upPort with peer := some (caps 0xFF00#16 1) }).port 0).en = true ∧ ((fabric upPort).port 0).state = 3
    ∧ ((fabric upPort).port 0).wreq ≠ (1 : Fin 2).val + 1 ∧ ((fabric upPort).port 0).width ≠ (1 : Fin 2).val + 1
    ∧ ((fabric upPort).port 0).widthGot ≠ some 1 ∧ ((fabric { upPort with widthGot := some 1 }).port 0).widthGot = some 1
    ∧ 16 ≤ (16#32).toNat ∧ bitsOf (6#32).toNat 1 2 = 3 ∧ ((fabric { upPort with wreq := 1 }).port 0).wreq ≠ 0
    ∧ ((fabric { upPort with wreq := 1 }).port 0).wreq ≠ ((fabric { upPort with wreq := 1 }).port 0).width := by decide
theorem test_port_half : ((fabric { upPort with peer := some (caps 0xFF00#16 1) }).port 0).halfReady 1 := ⟨by decide, _, rfl, by decide⟩
def training (n : Nat) : Port := { Port.reset with state := 1, step := n, lanes := 0xFFFF#16 }
def lit (s : State) : State := { s with cust := { s.cust with verified := true } }
theorem test_port_bringup : ((lit (fabric (training 1))).port 0).linked = false ∧ ((lit (fabric (training 1))).port 0).en = true
    ∧ (lit (fabric (training 1))).net.coordFault = false ∧ pairGood ((fabric (training 1)).port 0).coordCopy = true
    ∧ 2 ≤ (fabric (training 1)).net.len ((0 : PortId).val / 2) ∧ (1#16 &&& (lit up).svc.lit) ≠ 0#16 ∧ (0#16 &&& (lit up).svc.lit) = 0#16 := by decide
/-- Full width, the upper half alone, and no half; the neighbour expected, and one at the wrong port. -/
theorem test_port_caps : ((fabric (training 4)).port 0).state = 1 ∧ ((fabric (training 4)).port 0).step = 4 ∧ ((fabric (training 4)).port 0).enc = false
    ∧ commonWidth 0xFFFF#16 0xFFFF#16 = some 3 ∧ commonWidth 0xFFFF#16 0xFF7F#16 = some 2 ∧ commonWidth 0xFFFF#16 0x7F7F#16 = none
    ∧ (caps 0xFFFF#16 1).levels.getLsbD 1 = true ∧ (fabric (training 4)).net.neighbourOk 0 (caps 0xFFFF#16 1) = true
    ∧ (fabric (training 4)).net.neighbourOk 0 (caps 0xFFFF#16 2) = false ∧ (fabric (training 4)).mustEncrypt (training 4) (caps 0xFFFF#16 1) = false
    ∧ (fabric (training 4)).mustEncrypt { training 4 with encReq := true } (caps 0xFFFF#16 1) = true ∧ (caps 0xFFFF#16 1).encCap = true := by decide
def proof : PeerProof :=
  { bothSides := true, chainVendor := true, chainSwitchRoot := false, runtimeMeas := [], svn := 0, sealed := false, ownerDigest := [] }
theorem test_port_spdm : ((fabric (training 7)).port 0).step = 7 ∧ (fabric (training 7)).cust.sealed = false
    ∧ ({ fabric (training 7) with cust := { up.cust with latched := true } } : State).admits 0 proof = false
    ∧ ((fabric { training 4 with state := 2, peer := some (caps 0xFFFF#16 1) }).port 0).peer = some (caps 0xFFFF#16 1) := by decide
theorem test_port_key : ((fabric { upPort with enc := true, rxNewKey := 1 }).port 0).enc = true ∧ ((fabric { upPort with enc := true, rxNewKey := 1 }).port 0).linked = true
    ∧ ((fabric { upPort with enc := true, rxNewKey := 1 }).port 0).rxNewKey ≠ ((fabric { upPort with enc := true, rxNewKey := 1 }).port 0).rxKey := by decide
theorem test_coordinates : pairGood ((({ up with net := { NetS.reset with frozen := true } } : State).port 0).coordCopy) = false
    ∧ pairGood (NetS.reset.coordC ++ NetS.reset.coord) = true ∧ pairGood (0#32 ++ 0#32 : BitVec 64) = false := by decide

def trailer : Trailer :=
  { fseq := 0#12, ltype := 1#4, ackseq := 0#12, ackv := false, retry := false, vc := 0#3, cv := false, cvc := 0#3, credits := 0#12, gen := 1#4,
    rsv := false, crcGood := true, authGood := true, ctrlCode := 0#8 }
theorem test_flits : ((fabric upPort).port 0).linked = true ∧ ((fabric upPort).port 0).goodFlit { trailer with crcGood := false } = false
    ∧ ((fabric upPort).port 0).goodFlit { trailer with vc := 5#3 } = true ∧ ((fabric upPort).port 0).trailerBad { trailer with vc := 5#3 } = true
    ∧ ((fabric upPort).port 0).goodFlit { trailer with ltype := 0#4 } = true ∧ ((fabric upPort).port 0).trailerBad { trailer with ltype := 0#4 } = false := by decide
/-- Two flits sent: both acknowledged, one left, and one left after its sixteenth replay. -/
def twoSent : LinkLayer := { LinkLayer.fresh with txNext := 2#12, replays := 16, replayed := 1#12 }
theorem test_replay : (twoSent.ack 1#12).inFlight = 0 ∧ (twoSent.ack 0#12).inFlight ≠ 0 ∧ twoSent.replays = 16 ∧ twoSent.replayed = (twoSent.ack 0#12).acked + 1#12
    ∧ ({ twoSent with replays := 0 } : LinkLayer).replays = 0 := by decide

/-- A message of four bytes at offset 0x9000 of window 2, from the neighbour. -/
def aMsg (k : BitVec 4) : Msg :=
  { vc := 0#3, gen := 1#4, ttype := k, cont := 0, ringop := false, detour := 0#3, dst := 0#19, src := 1#19, tag := 0#16, len := 4, offset := 0x9000#64,
    window := 2#8, ncode := 0#8, bell := 0#12, n := 5#16, rsv := false, contBroken := false, payload := [1#8, 2#8, 3#8, 4#8] }
/-- Window 2 admits reads, writes and rings, 4 GiB from address 0, and one bell. -/
def opened (w0 : W64) : State :=
  { fabric upPort with win := { up.win with words := [(16, w0), (18, 0x100000000#64), (20, ~~~ w0), (21, ~~~ 0#64), (22, ~~~ 0x100000000#64), (23, ~~~ 0#64)] } }
def openWord : W64 := 0x8000000000F1#64
theorem test_message_here : ∀ k ∈ [0#4, 1#4, 2#4, 3#4, 4#4, 5#4], (opened openWord).forHere 0 (aMsg k) := by
  unfold State.forHere; decide
theorem test_window_admits : (opened openWord).winCheck ((opened openWord).portVia 0) 2 1 false true false 0x9000 4 0 = none
    ∧ (opened openWord).winCheck ((opened openWord).portVia 0) 2 1 true false false 0x9000 4 0 = none
    ∧ (opened openWord).winCheck ((opened openWord).portVia 0) 2 1 false false true 0 0 0 = none
    ∧ (opened openWord).winCheck ((opened openWord).portVia 0) 2 1 false true false 0xFFFFFFFD 4 0 = some 5
    ∧ (opened 0x800000000091#64).winCheck ((opened openWord).portVia 0) 2 1 true false false 0x9000 4 0 = some 4
    ∧ (opened openWord).winCheck ((opened openWord).portVia 0) 2 1 false false true 0 0 1 = some 6 := by decide
theorem test_window_span : ((opened openWord).winSpan ((opened openWord).portVia 0) 2 0x9000 4 true).2.toOption = some [(0x9000, 4)]
    ∧ ((opened openWord).winSpan ((opened openWord).portVia 0) 2 0x9000 4 false).2.toOption = some [(0x9000, 4)]
    ∧ engineRange 0x9000 4 = some .near ∧ (opened openWord).serves 0x9000 (portDie 0) = true ∧ (opened openWord).mem.clean 0x9000 4 := by
  unfold MemS.clean; decide
theorem test_message_refused : ((fabric { upPort with qent := [(0, some ⟨1, 40⟩)] }).port 0).quarantines (aMsg 0#4).src.toNat = true
    ∧ (fabric upPort).headerBad 0 { aMsg 0#4 with gen := 0#4 } = some 0x26 ∧ ((fabric upPort).port 0).quarantines (aMsg 0#4).src.toNat = false
    ∧ (fabric (training 1)).carries 0 = false := by decide

def remote (k : MoveKind) : MoveDesc :=
  { smallMove k (k = .put) (k = .get) with remoteCoord := 1#19, remoteWindow := 2#8, dst := 0x400#64 }
def remoteIn (k : MoveKind) (c : Nat) : State :=
  { (fabric upPort).setTile 0 { runTile with descs := [inFlight .accepted { remote k with cols := c }] } with kern := (inKernel runTile).kern }
theorem test_remote_empty : ∀ k ∈ [MoveKind.put, .get],
    ((remoteIn k 0).tile 0).mayStart 0 k = some (inFlight .accepted { remote k with cols := 0 }, { remote k with cols := 0 })
      ∧ (remoteIn k 0).cxl.state ≠ 2 ∧ ({ remote k with cols := 0 } : MoveDesc).empty = true ∧ (remote k).ringEn = false := by
  intro k h; simp only [List.mem_cons, List.not_mem_nil, or_false] at h; rcases h with rfl | rfl <;> decide
def aXfer (k : MoveKind) (q : Machine.Pending) : Xfer :=
  { tile := 0, idx := 0, d := remote k, vbase := 0, pbase := 0, todo := [q], out := 0, nack := none, timedOut := false, failed := none, ringDue := false }
def putOf : Machine.Pending := { kind := 0, offset := 0x400, len := 4, row := 0, col := 0, payload := List.replicate 4 0#8 }
def getOf : Machine.Pending := { kind := 1, offset := 0, len := 4, row := 0, col := 0, payload := [] }
theorem test_remote_starts : (remote .put).messages [List.replicate 4 0#8] = [putOf] ∧ (remote .get).messages [] = [getOf]
    ∧ ((remoteIn .put 4).readRows 0 (inFlight .accepted (remote .put)) (remote .put)).2 = (stOk, [List.replicate 4 0#8])
    ∧ ((remoteIn .put 4).routeMsg ((aXfer .put putOf).message (remoteIn .put 4).net putOf) none).isSome
    ∧ ((remoteIn .get 4).routeMsg ((aXfer .get getOf).message (remoteIn .get 4).net getOf) none).isSome
    ∧ (remote .put).empty = false ∧ (remote .put).remoteCoord.toNat ≠ (remoteIn .put 4).net.here := by decide
theorem test_remote_tracker : (remoteIn .put 4).net.freeSlot 0 = some 0 := by decide +kernel
/-- A transfer whose last message is to be answered on tracker 0. -/
def answering (k : MoveKind) (n : Nat) : State :=
  { remoteIn k 4 with
      net := { (remoteIn k 4).net with
        xfers := [{ aXfer k putOf with todo := [], out := 1 }]
        trackers := [(0, { Tracker.reset with busy := true, kind := n, len := 4, offset := 0x9000 })] } }
theorem test_remote_answers : (answering .put 0).lastAnswer (aMsg 3#4) 0 0 { aXfer .put putOf with todo := [], out := 1 }
    ∧ (answering .put 0).lastAnswer (aMsg 5#4) 0 0 { aXfer .put putOf with todo := [], out := 1 }
    ∧ (answering .get 1).lastAnswer (aMsg 4#4) 0 0 { aXfer .get putOf with todo := [], out := 1 } ∧ (remote .get).dstSide = .sram
    ∧ (fabric upPort).net.answers (aMsg 3#4) = none := by
  unfold State.lastAnswer; decide
theorem test_remote_slots : ((answering .put 0).net.tracker 0 0).busy = true
    ∧ (({ NetS.reset with trackers := [(0, { Tracker.reset with cooling := true })] } : NetS).tracker 0 0).cooling = true := by decide

/-! ### Peal: the hypotheses of the statements are met -/

/-- The bytes of a descriptor of slot 0 (R303): op and direction, from 0x20000 to 0x30000, of so many elements. -/
def pealBytesOf (h0 h1 count : Byte) : List Byte :=
  [h0, h1, 0#8, 0#8, 0#8, 0#8, 0#8, 0#8, ~~~ h0, ~~~ h1, 0xFF#8, 0xFF#8, 0xFF#8, 0xFF#8, 0xFF#8, 0xFF#8] ++ [0#8, 0#8, 2#8, 0#8, 0#8, 0#8, 0#8, 0#8]
    ++ [0#8, 0#8, 3#8, 0#8, 0#8, 0#8, 0#8, 0#8] ++ [count] ++ List.replicate 31 0#8
def pealing (bs : List Byte) (sh : BitVec 19) (x : Port) : State :=
  { fabric x with
      mem := { up.mem with mem := tables ++ bytesAt 0x8000 bs }
      net := { (fabric x).net with
        shape := sh
        ports := [(0, (fabric x).port 0), (1, (fabric x).port 0)]
        peals := [(0, { PealS.reset with ring := { Ring.reset with base := 0x8000, tail := 1, en := true } })] } }
def pealTaken (bs : List Byte) (sh : BitVec 19) (x : Port) : State :=
  ((pealing bs sh x).readMem 0x8000 64 0).st.setRun 0 (PealRun.taken 0x8000 (PealDesc.ofBytes bs))
/-- The state with the context known. -/
def pealCached (bs : List Byte) (sh : BitVec 19) (x : Port) : State :=
  { pealing bs sh x with xlat := { up.xlat with ctxs := [{ die := 0, device := 0, process := 0, pscid := 0, root := 0x2000, levels := 4 }] } }
theorem test_peal_refused : ((pealing (pealBytesOf 0x31#8 0#8 1#8) 1#19 upPort).peal 0).run = none
    ∧ ((pealing (pealBytesOf 0x31#8 0#8 1#8) 1#19 upPort).peal 0).ring.ready = true ∧ pealCheck (pealBytesOf 0x31#8 0#8 1#8) = some stReserved
    ∧ ((pealing (pealBytesOf 0x31#8 0#8 1#8) 1#19 upPort).readMem 0x8000 64 (pealAxis 0)).data = pealBytesOf 0x31#8 0#8 1#8
    ∧ ((pealing (pealBytesOf 0x31#8 0#8 1#8) 1#19 upPort).readMem 0x8000 64 (pealAxis 0)).status = 0#32 := by decide
theorem resp_eq {r : Resp} {bs : List Byte} (h1 : r.status = 0#32) (h2 : r.data = bs) : r = ⟨r.st, 0#32, bs⟩ := by
  cases r; simp only at h1 h2; subst h1 h2; rfl
theorem test_peal_takes : ∀ e ∈ [(0, 0x01#8, 1#8, 1#19), (1, 0x11#8, 1#8, 1#19), (2, 0x21#8, 1#8, 1#19), (0, 0x01#8, 0#8, 1#19), (0, 0x01#8, 1#8, 0#19)],
    ∃ v, (pealCached (pealBytesOf e.2.1 0#8 e.2.2.1) e.2.2.2 upPort).pealTakes v 0 e.1 (PealDesc.ofBytes (pealBytesOf e.2.1 0#8 e.2.2.1)) := by
  intro e h
  simp only [List.mem_cons, List.not_mem_nil, or_false] at h
  rcases h with rfl | rfl | rfl | rfl | rfl <;>
    exact ⟨_, by decide, by decide, by decide, ⟨_, _, resp_eq (by decide) (by decide), by decide, rfl, rfl⟩, by decide, by decide, by decide, by decide,
      _, rfl, by decide, by decide⟩
theorem test_peal_ring : (PealDesc.ofBytes (pealBytesOf 0x01#8 0#8 1#8)).dirs = [true] ∧ 1 < (pealing (pealBytesOf 0x01#8 0#8 1#8) 1#19 upPort).net.ringLen 0
    ∧ (pealing (pealBytesOf 0x01#8 0#8 1#8) 0#19 upPort).net.ringLen 0 < 2 ∧ (PealDesc.ofBytes (pealBytesOf 0x01#8 0#8 0#8)).count = 0
    ∧ (PealDesc.ofBytes (pealBytesOf 0x01#8 0#8 1#8)).count ≠ 0
    ∧ (pealing (pealBytesOf 0x01#8 0#8 1#8) 1#19 upPort).carries (pealPort 0 true) = true ∧ (pealing (pealBytesOf 0x01#8 0#8 1#8) 1#19 upPort).carries (pealPort 0 false) = true
    ∧ (pealing (pealBytesOf 0x01#8 0#8 1#8) 1#19 (training 1)).carries (pealPort 0 true) = false
    ∧ ∀ q, ((pealing (pealBytesOf 0x01#8 0#8 1#8) 1#19 upPort).port q).waiting = [] := by decide
theorem test_peal_data : ((pealTaken (pealBytesOf 0x01#8 0#8 1#8) 1#19 upPort).virtRead 0 0#32 0x20000 4).2.toOption = some (List.replicate 4 0#8)
    ∧ (((pealTaken (pealBytesOf 0x01#8 0#8 1#8) 1#19 upPort).virtRead 0 0#32 0x20000 4).1.virtWrite 0 0#32 0x30000 (List.replicate 4 0#8)).2 = none
    ∧ ((pealTaken (pealBytesOf 0x01#8 0#8 1#8) 1#19 upPort).virtRead 0 0#32 0x20000 4).1.net = (pealTaken (pealBytesOf 0x01#8 0#8 1#8) 1#19 upPort).net := by decide

def runOf (d : PealDesc) (ph : PealPhase) : PealRun := { PealRun.taken 0x8000 d with phase := ph }
def rsDesc : PealDesc := PealDesc.ofBytes (pealBytesOf 0x01#8 0#8 1#8)
def peals (r : PealRun) : State :=
  { pealing [] 1#19 upPort with net := { (pealing [] 1#19 upPort).net with peals := [(0, { PealS.reset with run := some r })] } }
/-- Step data of the chunk that this module owns, from the neighbour at negative distance; and of another descriptor. -/
def step6 (op : W64) : Msg := { aMsg 6#4 with vc := 4#3, offset := op, window := 0#8, n := 0#16 }
theorem test_peal_message : (peals (runOf rsDesc .running)).forHere 1 (step6 0#64) ∧ bitsOf (step6 0#64).tag.toNat 0 11 = (0 : PealSlot).val % 4
    ∧ pealAxis 0 = (1 : PortId).val / 2 := by unfold State.forHere; decide
theorem test_peal_running : ((peals (runOf rsDesc .running)).peal 0).run = some (runOf rsDesc .running) ∧ (peals (runOf rsDesc .running)).pealFaulted 0 = false
    ∧ (peals (runOf rsDesc .running)).net.dirDone 0 (runOf rsDesc .running) (decide ((1 : PortId).val % 2 = 1)) = false
    ∧ (peals (runOf rsDesc .running)).net.rsNeed 0 rsDesc 0 = 1 ∧ (peals (runOf rsDesc .running)).net.pealFits 0 (runOf rsDesc .running) true false (step6 0#64) = true
    ∧ 0 ≠ (peals (runOf rsDesc .running)).net.firstChunk 0 rsDesc true
    ∧ (peals (runOf rsDesc .running)).net.pealFits 0 (runOf rsDesc .running) true false (step6 0x7000000000000#64) = false
    ∧ rsDesc.dirs.contains true = true ∧ ((pealing [] 1#19 upPort).peal 0).run = none ∧ (runOf rsDesc .ended).phase = .ended := by decide

/-! ### The update path: the hypotheses of the statements are met -/

def jobDesc : JobDesc :=
  { gsrc := 0, doneEn := false, smask := 3, swmask := 2, n := 1, step := 0#64, prog := 0x20000, plen := 0, opid := 0, ctx := 0#32, sfmt := 0, done := 9,
    pro := 0, sbase := [0, 0x30000, 0, 0, 0, 0, 0, 0] }
def aJob (ws : List W64) : Job :=
  { addr := 0x8000, d := jobDesc, consts := List.replicate 16 0#32, words := ws, counter := 0#64, next := 0, doneLots := 0, failed := none, lastUnit := none, bound := none }
def jobs (j : Job) (x : ClapUnit) (c : CadS) : State :=
  { up with net := { NetS.reset with cad := { c with jobs := [(0, some j)], units := [(6, x)] } } }
theorem test_peal_binds : (jobs (aJob []) ClapUnit.reset CadS.reset).net.cad.bindable rsDesc = some (0, aJob []) ∧ (aJob []).d.n = rsDesc.owned
    ∧ (aJob []).d.n ≠ ({ rsDesc with count := 2 } : PealDesc).owned := by decide
def handing : PealRun := { runOf { rsDesc with toClapper := true } .running with job := some 0, sums := [(0, some 1#32)] }
def handState : State :=
  { jobs (aJob []) ClapUnit.reset CadS.reset with net := { (jobs (aJob []) ClapUnit.reset CadS.reset).net with peals := [(0, { PealS.reset with run := some handing })] } }
theorem test_lot_handover : (handState.peal 0).run = some handing ∧ handing.job = some 0 ∧ handState.net.cad.job 0 = some (aJob []) ∧ 0 < (aJob []).d.lots
    ∧ handing.gradient (aJob []).d 0 = some [1#32] ∧ handing.handed.get false 0 = false ∧ handState.pealFaulted 0 = false
    ∧ (∃ t lf, handState.translate (pealAxis 0) handing.d.ctx (BitVec.ofNat 64 ((aJob []).d.anchor 0)) false = (t, .inl lf)
        ∧ (t.lotUnit (lf.pbase + ((aJob []).d.anchor 0 - lf.vbase))).toOption = some 6) ∧ (handState.net.cad.unit 6).held < 24
    ∧ 24 ≤ ({ ClapUnit.reset with buffers := List.replicate 24 ⟨0, 0, none⟩ } : ClapUnit).held :=
  ⟨rfl, rfl, by decide, by decide, by decide, by decide, by decide, ⟨_, _, rfl, by decide⟩, by decide, by decide⟩

/-- The words of a program of one instruction each: VCNT of mask 0; VLD of V1 from stream 0; VST of V1 to stream 1; VBCAST of S16. -/
def clapStates (j : Job) : State :=
  jobs j { ClapUnit.reset with cur := some ⟨⟨0, 0, none⟩, [], 0, [], 0⟩, outsC := [(0, 0xFFFFFFFF#32)] } CadS.reset
def lotRun : LotRun := ⟨⟨0, 0, none⟩, [], 0, [], 0⟩
theorem test_lot_at (ws : List W64) : (clapStates (aJob ws)).lotAt 6 lotRun (aJob ws) := ⟨rfl, (by decide : up.mem.inService 6 = true), rfl, rfl⟩
theorem test_lot_body : ∀ ws ∈ [[], [0x0000000000001013#64]], ∃ q, clapRun (fun _ => false) ((aJob ws).d.lanes 0) 257
    ((clapStates (aJob ws)).net.cad.unit 6) lotRun (aJob ws) = some q := by
  intro ws h
  simp only [List.mem_cons, List.not_mem_nil, or_false] at h
  rcases h with rfl | rfl <;> exact ⟨_, rfl⟩
def waitingLot (c : CadS) (x : ClapUnit) : State := jobs (aJob []) { x with buffers := [⟨0, 0, none⟩] } c
theorem test_lot_waits : (waitingLot CadS.reset ClapUnit.reset).xlat.faults.get none (clapFid 6) = none ∧ (waitingLot CadS.reset ClapUnit.reset).unitServes 6 = true
    ∧ ((waitingLot CadS.reset ClapUnit.reset).net.cad.unit 6).cur = none ∧ ((waitingLot CadS.reset ClapUnit.reset).net.cad.unit 6).buffers = [⟨0, 0, none⟩]
    ∧ (waitingLot CadS.reset ClapUnit.reset).net.cad.job 0 = some (aJob []) ∧ (waitingLot { CadS.reset with step := 1#64 } ClapUnit.reset).net.cad.step ≠ (aJob []).d.step
    ∧ (waitingLot { CadS.reset with fault := true } ClapUnit.reset).net.cad.fault = true
    ∧ (waitingLot { CadS.reset with valid := true } { ClapUnit.reset with valid := some 0#64 }).net.cad.ready 6 (aJob []).d = .runs := by decide
/-- A stream on a stack out of service cannot be read. -/
theorem test_lot_streams : (({ jobs (aJob []) ClapUnit.reset CadS.reset with mem := oneDown.mem } : State).readStreams 6 { jobDesc with plen := 1 } 0).2.toOption = none := by decide
/-- A job descriptor of one element, of GSRC ARRIVAL, with its image at 0x20000 (R330). -/
def jobBytes (n step : Byte) : List Byte :=
  [0x01#8, 0x03#8, 0x02#8, 0#8, 0#8, 0#8, 0#8, 0#8, 0xFE#8, 0xFC#8, 0xFD#8, 0xFF#8, 0xFF#8, 0xFF#8, 0xFF#8, 0xFF#8] ++ (n :: List.replicate 7 0#8)
    ++ (step :: List.replicate 7 0#8) ++ [0#8, 0#8, 2#8, 0#8, 0#8, 0#8, 0#8, 0#8] ++ List.replicate 24 0#8 ++ List.replicate 8 0#8
    ++ [0#8, 0#8, 3#8, 0#8, 0#8, 0#8, 0#8, 0#8] ++ List.replicate 48 0#8
def queueing (bs : List Byte) (c : CadS) : State :=
  { up with
      mem := { up.mem with mem := tables ++ bytesAt 0x8000 bs }
      xlat := { up.xlat with ctxs := [{ die := 4, device := 0, process := 0, pscid := 0, root := 0x2000, levels := 4 }] }
      net := { NetS.reset with cad := { c with uq := { Ring.reset with base := 0x8000, tail := 1, en := true } } } }
theorem test_job_taken : ∀ e ∈ [(1#8, 0#8), (0#8, 0#8)], ∃ v x, (queueing (jobBytes e.1 e.2) CadS.reset).jobTaken v (jobBytes e.1 e.2) x := by
  intro e h
  simp only [List.mem_cons, List.not_mem_nil, or_false] at h
  rcases h with rfl | rfl <;>
    exact ⟨_, _, by decide, by decide, by decide, by decide, _, resp_eq (by decide) (by decide), rfl, rfl⟩
theorem test_job_checks : CadS.reset.jobCheck (jobBytes 1#8 0#8) (some 48) = none ∧ CadS.reset.jobCheck (jobBytes 0#8 0#8) (some 48) = none
    ∧ ({ CadS.reset with step := 1#64 } : CadS).jobCheck (jobBytes 1#8 0#8) (some 48) = some 0x07060000#32 ∧ 0x07060000#32 ≠ 0x07050000#32
    ∧ ((queueing (jobBytes 1#8 0#8) CadS.reset).virtRead 4 0#32 0x20000 64).2.toOption = some (List.replicate 64 0#8)
    ∧ (JobDesc.ofBytes (jobBytes 1#8 0#8)).imageOk (List.replicate 16 0#32) [] = true ∧ (JobDesc.ofBytes (jobBytes 0#8 0#8)).n = 0
    ∧ (JobDesc.ofBytes (jobBytes 1#8 0#8)).imageOk [1#32] [] = false := by decide
theorem test_job_ends : (jobs { aJob [] with doneLots := 1 } ClapUnit.reset CadS.reset).net.cad.job 0 = some { aJob [] with doneLots := 1 }
    ∧ ({ aJob [] with doneLots := 1 } : Job).d.lots ≤ ({ aJob [] with doneLots := 1 } : Job).doneLots ∧ (aJob []).doneLots < (aJob []).d.lots
    ∧ (aJob []).d.done = (9 : BellId).val ∧ (up.bell 9).count.toNat + 1 < 2 ^ 64 ∧ engineRange (0x8000 + 0x38) 8 = some .near := by decide
theorem test_cadence : CadS.reset.stepC = ~~~ CadS.reset.step ∧ CadS.reset.pend = false ∧ CadS.reset.fault = false ∧ CadS.reset.stepBusy = false
    ∧ CadS.reset.step ≠ BitVec.allOnes 64 ∧ (jobs (aJob []) ClapUnit.reset CadS.reset).net.cad.stepBusy = true ∧ BitVec.allOnes 64 = ~~~ CadS.reset.setVal
    ∧ CadS.reset.active = 0 ∧ (Table.ofWords CadS.reset.stage).valid = false ∧ ({ CadS.reset with step := 1#64 } : CadS).stepC ≠ ~~~ (1#64) := by decide

/-! ### Hoop links: the hypotheses of the statements are met -/

def hoopUp (y : HoopLane) : State :=
  { up with net := { NetS.reset with hoops := [(2, { HoopLink.reset with state := 2, lanes := [(laneKey 0 false, y), (laneKey 1 false, y)] })] } }
def packet (q : BitVec 12) : HoopPkt := { gen := 1#4, cls := 0#2, seq := q, rsv := 0#14, crcGood := true, payload := [1#8] }
/-- The packet expected, one that completes what is held, the last that lies ahead and the first that lies behind. -/
theorem test_hoop_packets : ((hoopUp HoopLane.fresh).hoop 2).state = 2 ∧ ((hoopUp HoopLane.fresh).hoop 2).lane 0 false = HoopLane.fresh
    ∧ (packet 0#12).seq = HoopLane.fresh.rxNext ∧ ({ HoopLane.fresh with held := [1#12] } : HoopLane).held = [(packet 0#12).seq + 1#12]
    ∧ 0 < ((packet 2046#12).seq - HoopLane.fresh.rxNext).toNat ∧ ((packet 2046#12).seq - HoopLane.fresh.rxNext).toNat < 2047
    ∧ 2047 ≤ ((packet 2047#12).seq - HoopLane.fresh.rxNext).toNat ∧ ((hoopUp HoopLane.fresh).hoop 2).crcFwd < 7 ∧ ((hoopUp HoopLane.fresh).hoop 2).recent < 16 := by decide
/-- A replay asked for the packet in flight; a lane that owes its acknowledgement. -/
def sentLane : HoopLane := { HoopLane.fresh with txNext := 1#12, rxNext := 1#12, owed := true }
theorem test_hoop_control : (0#12 - sentLane.acked - 1#12).toNat < sentLane.inFlight ∧ sentLane.replays < 7 ∧ ((hoopUp sentLane).hoop 2).lane 0 (!true) = sentLane
    ∧ ((hoopUp sentLane).hoop 2).lane 1 (!true) = sentLane ∧ sentLane.owed = true ∧ sentLane.replayOwed = false ∧ sentLane.rxNext ≠ 0#12
    ∧ (State.reset.hoop 2).state ≠ 2 := by decide
def trainingLink : State := { up with net := { NetS.reset with hoops := [(2, { HoopLink.reset with state := 1 })] } }
theorem test_hoop_training : (trainingLink.hoop 2).state = 1 ∧ (2#16).getLsbD 1 = true ∧ (0#16).getLsbD 1 = false
    ∧ ((trainingLink.hoop 2).retiredAt ((trainingLink.hoop 2).receiver 511)).getLsbD 511 = false ∧ (trainingLink.hoop 2).spares.get 0 0 = 0 := by decide +kernel
theorem test_hoop_mask : floorOf (trainingLink.hoop 2).nf ≤ countGroups ((trainingLink.hoop 2).ownMask 0 &&& (trainingLink.hoop 2).ownMask 1) 0 (trainingLink.hoop 2).nf
    ∧ floorOf (512 - (trainingLink.hoop 2).nf) ≤ countGroups ((trainingLink.hoop 2).ownMask 0 &&& (trainingLink.hoop 2).ownMask 1) (trainingLink.hoop 2).nf 512
    ∧ countGroups 0#512 0 (trainingLink.hoop 2).nf < floorOf (trainingLink.hoop 2).nf := by decide +kernel

/-! ### Power, service, the dictionary and custody: the hypotheses of the statements are met -/

theorem test_kettle : rollBad 0#64 = false ∧ rollBad 8#64 = true ∧ up.svc.running = true ∧ ({ up.kettle with ramp := true } : KettleS).ramp = true
    ∧ (({ up with kettle := { up.kettle with tiles := [(0, { TilePwr.reset with ceiling := false })] } } : State).kettle.tile 0).ceiling = false
    ∧ up.kettle.point ≠ 2 ∧ up.kettle.tiles.all (fun e => !e.2.boost) = true
    ∧ (({ up with cores := { up.cores with cores := [(0, { Core.reset with ceiling := false })] } } : State).core 0).ceiling = false ∧ up.firmwareRuns = true := by decide
def readings (x : Int) : KettleIn :=
  { ungated := 0, eta := 1000, estimate := 0, tileBeats := [], tileCould := [], clapBeats := [], clapCould := [], tileEnergy := [], clapEnergy := [], tileFull := 1,
    made := [], dieEstimate := [], railLimit := [], alerts := [], logic := [(5, x)], dram := [], worked := [], workedClap := [], pacer := 0, pacerClap := 0,
    boostRoom := [] }
/-- 110 °C trips, and an eighth below does not. -/
def powered (s : State) : State := { s with svc := { s.svc with railsOn := true } }
def romState : State := { up with svc := { up.svc with romImage := some (0, 4, [1#8, 2#8]) } }
theorem test_kettle_cycle : (powered up).svc.railsOn = true ∧ tripSensor (readings 880) = some (5, 880) ∧ tripSensor (readings 879) = none
    ∧ (readings 880).ok = true := by decide
/-- That an image, a signature or a tag verifies is an open function of Config (assumption 1): no closed witness shows good firmware. -/
theorem test_power : State.reset.svc.running = false ∧ State.reset.svc.enTied = true ∧ up.kettle.tooHot = false
    ∧ ({ up.svc with resetLow := true } : SvcS).resetLow = true ∧ ({ up.svc with rom := true } : SvcS).rom = true
    ∧ (0 : Fin 2) ∉ up.svc.baysOut ∧ (romState.svc.romImage = some (0, 4, [1#8, 2#8])) ∧ (2#32).toNat = 2 ∧ 2 + 2 ≤ 4 ∧ 4 < 2 + 3
    ∧ (2 ^ 22 : Nat) ≤ 2 ^ 22 := by decide
theorem test_memory_phase : (powered { up with svc := { up.svc with phase := 2 } }).memPhase = true ∧ (up.tile 0).kernel = none
    ∧ ((powered State.reset).mem.ctrl 23).state = 1 ∧ ServiceUnit.ctrl 23 ∉ up.svc.returning ∧ ServiceUnit.tile 0 ∉ up.svc.returning := by decide

/-- Bring-up is done, and nothing is out of service. -/
def served : State := { up with svc := { up.svc with phase := 5 } }
theorem test_actions : ∀ w ∈ [actionWord 0 0 0 0, actionWord 1 0 0 0, actionWord 0x10 1 255 1, actionWord 0x10 4 7 0, actionWord 0x10 5 7 1, actionWord 0x12 1 255 0,
      actionWord 0x13 0 3 0, actionWord 0x20 0 4096 (5 + 16 * 4095), actionWord 0x31 0 0 0],
    ∀ who ∈ [Principal.runtime], served.actionGoes who w := by
  intro w h who e
  simp only [List.mem_cons, List.not_mem_nil, or_false] at h e
  subst e
  rcases h with rfl | rfl | rfl | rfl | rfl | rfl | rfl | rfl | rfl <;> exact ⟨by decide, by decide, by decide⟩
theorem test_actions_more : ({ served with svc := { served.svc with phase := 4 } } : State).actionGoes .runtime (actionWord 2 0 0 0)
    ∧ served.actionGoes .owner (actionWord 0x30 0 0 7) ∧ served.actionCheck .host (actionWord 1 0 0 0) ≠ abNone
    ∧ (served.setTile 9 { Tile.reset with health := .outOfService }).actionGoes .runtime (actionWord 0x11 1 9 0)
    ∧ (served.setTile 9 { Tile.reset with health := .outOfService }).unitNamed 0x11 1 9 = some (.tile 9) ∧ served.unitNamed 0x10 1 255 = some (.tile 255)
    ∧ served.unitOut (.tile 255) = false ∧ (served.setTile 9 { Tile.reset with health := .outOfService }).unitOut (.tile 9) = true := by
  refine ⟨⟨by decide, by decide, by decide⟩, ⟨by decide, by decide, by decide⟩, by decide, ⟨by decide, by decide, by decide⟩, by decide, by decide, by decide, by decide⟩
def leaving : State := { served with svc := { served.svc with leaving := [(.tile 3, true)], returning := [.core 2], result := 1, writing := some (2, 0, [5#8]) } }
theorem test_service_ends : (ServiceUnit.tile 3, true) ∈ leaving.svc.leaving ∧ leaving.unitDrained (.tile 3) = true ∧ leaving.svc.returning = [.core 2]
    ∧ leaving.svc.result = 1 ∧ leaving.testPassed (.core 2) = true ∧ leaving.svc.detail = 0 ∧ leaving.svc.writing = some (2, 0, [5#8]) := by decide

/-- A request in a session on the segment whose principal is the tray. -/
def item (i : W16) (sub ty : Byte) (v : List Byte) : Item := { index := i, sub := sub, type := ty, vlen := v.length, rsv := 0#16, value := v, padZero := true }
def pdu (op : Byte) (is : List Item) : Pdu :=
  { gen := 1#4, kind := 0#4, rsv1 := 0#8, len := 1000, session := 7#32, seq := 1#32, op := op, count := is.length, principal := 4, rsv2 := 0#8, items := is,
    auth := none, tag := [], received := 1000, body := 0#64, broadcast := false, bytes := [] }
def session : SessionS := { path := 0, id := 7#32, key := [], last := 0#32, lastTag := [], lastResp := [], fails := 0 }
def talking : State := { served with svc := { served.svc with node := 1 }, dict := { up.dict with sessions := [session] } }
theorem test_dictionary_accepts : ∀ e ∈ [pdu 1#8 [item 0x3000#16 1#8 0#8 []], pdu 2#8 [item 0x3000#16 4#8 3#8 (entryDefault 0x3000 4)],
      pdu 2#8 [item 0x3000#16 2#8 3#8 (entryDefault 0x3000 2)], pdu 2#8 [item 0x1000#16 1#8 3#8 []], pdu 3#8 [item 0x3000#16 1#8 0#8 []],
      pdu 4#8 [item 0x3000#16 2#8 0#8 []], pdu 5#8 [item 0x3000#16 1#8 0#8 []], pdu 6#8 [], pdu 8#8 [], pdu 2#8 [item 0x9000#16 1#8 0x0D#8 (bytesOfNat 8 0 ++ List.replicate 8 0xFF#8)]],
    talking.accepts .segment e e.op.toNat (some session) := by
  unfold State.accepts; decide
theorem test_dictionary_items : talking.readAbort 4 (item 0x3000#16 1#8 0#8 []) = abNone
    ∧ talking.writeAbort [item 0x3000#16 4#8 3#8 (entryDefault 0x3000 4)] 4 (item 0x3000#16 4#8 3#8 (entryDefault 0x3000 4)) = abNone
    ∧ talking.writeAbort [item 0x3000#16 2#8 3#8 (entryDefault 0x3000 2)] 4 (item 0x3000#16 2#8 3#8 (entryDefault 0x3000 2)) = abNone
    ∧ talking.writeAbort [item 0x1000#16 1#8 3#8 []] 4 (item 0x1000#16 1#8 3#8 []) ≠ abNone
    ∧ talking.freezeAbort 4 (item 0x3000#16 1#8 0#8 []) = abNone
    ∧ ({ talking with dict := { talking.dict with entries := [(entryKey 0x3000 2, { EntryS.empty with claims := [(4, entryDefault 0x3000 2)] })] } } : State).releaseAbort 4
        (item 0x3000#16 2#8 0#8 []) = abNone
    ∧ talking.writeAbort [item 0x9000#16 1#8 0x0D#8 (bytesOfNat 8 0 ++ List.replicate 8 0xFF#8)] 4 (item 0x9000#16 1#8 0x0D#8 (bytesOfNat 8 0 ++ List.replicate 8 0xFF#8)) = abNone := by
  decide
theorem test_dictionary_refused : talking.pduCheck { pdu 1#8 [] with gen := 0#4 } = some stVersion ∧ talking.reached .segment = true
    ∧ talking.pduCheck (pdu 7#8 []) = none := by decide
theorem test_custody : up.responds .doe 0 ∧ ({ up with cust := { up.cust with spdm := [(0, { SpdmS.reset with level := 3, sessions := [⟨7#32, [], true, 0⟩], handshake := some ⟨8#32, [], true, 0⟩ })] } } : State).responds .doe 3
    ∧ ({ up with cust := { up.cust with entering := true } } : State).sealDone = true := by
  unfold State.responds; decide

/-! ### Device registers: the hypotheses of the statements are met -/

/-- The upper half of a register of 8 B; a reserved offset. -/
theorem test_registers : blockOf (devAddr 4 0x400000) = some (4, 0x400000) ∧ (∃ w, up.reg 4 0x400000 = some (8, w)) ∧ up.reg 4 0x400004 = none
    ∧ blockOf (devAddr 4 0x401004) = some (4, 0x401004) ∧ up.reg 4 0x401004 = none ∧ (∀ w, up.reg 4 0x401000 ≠ some (8, w)) ∧ regionOf (devAddr 4 0x400000) = .device
    ∧ devAddr 4 0x400000 % 8 = 0 := by
  refine ⟨by decide, ⟨_, rfl⟩, by decide, by decide, by decide, ?_, by decide, by decide⟩
  intro w h; exact absurd h (by simp [show up.reg 4 0x401000 = none by decide])
theorem test_register_reserved : (∃ w, up.reg 4 0x600090 = some (4, w)) ∧ ((2#64).toNat % 2 ^ 32) &&& rsvMask 4 0x600090 ≠ 0 ∧ (0#64).toNat &&& rsvMask 5 0x200018 = 0
    ∧ bitsOf (0x401#32).toNat 8 4 = 4 ∧ bitsOf (0xA01#32).toNat 8 4 = 10 ∧ (0xA01#32).toNat &&& rsvMask 4 0x600090 = 0 ∧ bitsOf (0xA01#32).toNat 0 1 = 1 :=
  ⟨⟨_, rfl⟩, by decide, by decide, by decide, by decide, by decide, by decide⟩

/-! ### Words of the spec's encodings -/

/-- R135, R146: SADD S3, S1, S2 that waits on channel 5 and signals channel 6. -/
theorem test_word_sadd : (decodeWord (fun _ => 0#64) 0x02DE000000000823#64).toOption = some (⟨some 5, some 6⟩, .seq (.alu .add 3 1 2)) := by decide
/-- SLI S4, −1, whose immediate is bits 46 to 15. -/
theorem test_word_sli : (decodeWord (fun _ => 0#64) 0x0B007FFFFFFF8004#64).toOption = some (noTok, .seq (.li 4 0xFFFFFFFF#32)) := by decide
/-- R146: bit 47 and OP 0x19 are reserved. -/
theorem test_word_reserved : (decodeWord (fun _ => 0#64) 0x0200800000000823#64).toOption = none ∧ (decodeWord (fun _ => 0#64) 0x1900000000000000#64).toOption = none := by
  decide
/-- R147: MMA of K 4, SHAPE 1, PMASK 0x3, bank 1, records 2 and 3; SHAPE 1 has two problems, so PMASK 0xF is reserved. -/
theorem test_word_mma : (decodeWord (fun _ => 0#64) 0x4000000030226404#64).toOption = some (noTok, .eng .matrix (.mma
    { k := 4, shape := 1, pmask := 3, bank := true, zero := false, sparse := false, arec := 2, brec := 3 }))
    ∧ (decodeWord (fun _ => 0#64) 0x400000003023E404#64).toOption = none := by decide
/-- R150, R134: SEED takes the register's value at the append. -/
theorem test_word_seed : (decodeWord (fun r => BitVec.ofNat 64 (100 + r)) 0x4400000000000002#64).toOption = some (noTok, .eng .matrix (.seed 102#64)) := by decide
/-- R151, R152: VFMA V5, V1, V2, V3. -/
theorem test_word_vfma : (decodeWord (fun _ => 0#64) 0x83000000000C2045#64).toOption
    = some (noTok, .eng .vector (.vec .vfma { vd := 5, va := 1, vb := 2, vc := 3, msk := 0, md := 0, fmt := 0, rm := 0, imm := 0, sa := 0#64, sb := 0#64 })) := by decide
/-- R153: MSUB S7. -/
theorem test_word_msub : (decodeWord (fun r => BitVec.ofNat 64 (128 * r)) 0xC000000000000007#64).toOption = some (noTok, .eng .move (.msub 896#64)) := by decide
/-- R326: VCNT M1, VLD V5 from stream 1, VST V3 to stream 1, VBCAST V4 of S16; a VST to a stream that is not writable. -/
theorem test_clapper_words : (aJob [0xA000000001000000#64]).instr 0 = some (.cnt 1) ∧ (aJob [0x91000000000C0000#64]).instr 0 = none := by decide
theorem test_clapper_operands :
    (aJob [0x9000001000000005#64]).instr 0 = some (.vec .vld { vd := 5, va := 0, vb := 0, vc := 0, msk := 0, md := 0, fmt := 0, rm := 0, imm := 1, sa := 0#64, sb := 0#64 })
    ∧ (aJob [0x91000010000C0000#64]).instr 0 = some (.vec .vst { vd := 0, va := 0, vb := 0, vc := 3, msk := 0, md := 0, fmt := 0, rm := 0, imm := 1, sa := 0#64, sb := 0#64 })
    ∧ (aJob [0x8F00000000000404#64]).instr 0 = some (.vec .vbcast { vd := 4, va := 16, vb := 0, vc := 0, msk := 0, md := 0, fmt := 0, rm := 0, imm := 0, sa := 0#64, sb := 0#64 })
    ∧ Fmt.ofCode ((aJob []).d.fmt 1) = some .fp32 := by decide
/-- S16 with a sound pair, and with one that mismatches. -/
theorem test_clapper_pair : ((clapStates (aJob [])).net.cad.unit 6).outsC.get 0#32 0 = ~~~ (((clapStates (aJob [])).net.cad.unit 6).outs.get 0#32 0)
    ∧ ClapUnit.reset.outsC.get 0#32 0 ≠ ~~~ (ClapUnit.reset.outs.get 0#32 0) := by decide

/-! ### The queue and the invariant -/

/-- A state with one command waiting that the invariant holds of, and whose step answers a next state. -/
theorem test_safe : Safe { withTile runTile with pending := [.nop 0 noTok] } ∧ ∃ t, step { withTile runTile with pending := [.nop 0 noTok] } = .next t :=
  ⟨⟨by decide, by unfold MemoryOk; decide, fun _ _ => .inl fun _ _ => rfl⟩, _, rfl⟩
/-- Memory that lists a byte as it would read unlisted, or addresses out of order, is not in its canonical form. -/
theorem test_unsafe_memory : ({ MemS.reset with mem := [(3, 0#8)] } : MemS).wf = false ∧ ({ MemS.reset with mem := [(3, 1#8), (2, 1#8)] } : MemS).wf = false := by decide

/-! ### Ill-formed commands, one for each check -/

theorem test_ill_bell : Instr.wf (.bellBatch 1 [.set 4095 0#64]) = false ∧ Instr.wf (.bellBatch 1 [.coreRing 0 8192 0#64]) = false := by decide
theorem test_ill_kernel : Instr.wf (.launch [3, 3] []) = false ∧ Instr.wf (.launch [] [7, 7]) = false ∧ Instr.wf (.streamLaunch 0 0 [3, 3] []) = false
    ∧ Instr.wf (.streamLaunch 0 0 [] [7, 7]) = false := by decide
theorem test_ill_selftest : Instr.wf (.arraySelfTest 0 { rows := [(0, 1), (0, 1)], cols := [], outside := false }) = false
    ∧ Instr.wf (.arraySelfTest 0 { rows := [], cols := [(1, 65), (1, 65)], outside := false }) = false := by decide
theorem test_ill_memory : Instr.wf (.memoryRead (.core 0) 127 2) = false ∧ Instr.wf (.memoryRead (.core 0) 0 0) = false ∧ Instr.wf (.memoryRead (.core 0) 0 129) = false
    ∧ Instr.wf (.memoryWrite (.core 0) 127 [0#8, 0#8]) = false ∧ Instr.wf (.apertureWrite 0 [] 0#16) = false ∧ Instr.wf (.apertureRead 64 65 0#16) = false := by decide
theorem test_ill_core : Instr.wf (.coreLoad 0 0 3 false false []) = false ∧ Instr.wf (.coreLoad 0 (2 ^ 56) 1 false false []) = false
    ∧ Instr.wf (.coreStore 0 0 [] false []) = false ∧ Instr.wf (.coreStore 0 0 [0#8] false [⟨5, true⟩, ⟨5, false⟩]) = false
    ∧ Instr.wf (.coreAmo 0 .swap 0 false 0x100000000#64 0#64) = false ∧ Instr.wf (.coreAmo 0 .cas 0 false 0#64 0x100000000#64) = false
    ∧ Instr.wf (.coreAmo 0 .add (2 ^ 56) true 0#64 0#64) = false := by decide
theorem test_ill_cbo : Instr.wf (.cboClean 0 (2 ^ 56)) = false ∧ Instr.wf (.cboFlush 0 (2 ^ 56)) = false ∧ Instr.wf (.cboInval 0 (2 ^ 56)) = false := by decide
theorem test_ill_host : Instr.wf (.cxlMemRead 32 64) = false ∧ Instr.wf (.cxlMemRead 0 32) = false ∧ Instr.wf (.cxlMemWrite 0 [0#8]) = false
    ∧ Instr.wf (.hostSnoop .data 32) = false ∧ Instr.wf (.hostLinkUp ⟨2, 32⟩) = false ∧ Instr.wf (.linkReturnToL0 ⟨16, 64⟩) = false
    ∧ Instr.wf (.ideKm false [] false) = false := by decide
theorem test_ill_send : Instr.wf (.runtimeSend (List.replicate 4097 0#8)) = false := by decide +kernel
theorem test_ill_kettle : Instr.wf (.kettleCycle { readings 0 with eta := 0 }) = false ∧ Instr.wf (.kettleCycle { readings 0 with eta := 1001 }) = false
    ∧ Instr.wf (.kettleCycle { readings 0 with tileBeats := [(1, 0), (1, 0)] }) = false ∧ Instr.wf (.kettleCycle { readings 0 with clapBeats := [(1, 0), (1, 0)] }) = false
    ∧ Instr.wf (.kettleCycle { readings 0 with dieEstimate := [(1, 0), (1, 0)] }) = false ∧ Instr.wf (.kettleCycle { readings 0 with alerts := [1, 1] }) = false
    ∧ Instr.wf (.kettleCycle { readings 0 with logic := [(1, 0), (1, 0)] }) = false ∧ Instr.wf (.kettleCycle { readings 0 with dram := [(1, 0), (1, 0)] }) = false := by decide
theorem test_ill_frame : ∀ f ∈ [{ pdu 1#8 [] with len := 2 ^ 16 }, { pdu 1#8 [] with count := 256 }, { pdu 1#8 [] with principal := 256 }, { pdu 1#8 [] with tag := [0#8] },
      { pdu 1#8 [] with bytes := [0#8] }, { pdu 1#8 [{ item 0#16 0#8 0#8 [] with vlen := 1 }] with received := 0 }],
    Instr.wf (.dictRead .segment f) = false ∧ Instr.wf (.mydarRequest f) = false := by decide
theorem test_ill_operation : ∀ f, f = { pdu 0#8 [] with received := 0 } → f.ok = true ∧ ∀ c ∈ [Instr.dictRead .segment f, .dictWrite .segment f, .dictFreeze .segment f,
    .dictRelease .segment f, .dictDescribe .segment f, .dictDiscover .segment f, .dictOpen .segment f, .dictClose .segment f], c.wf = false := by
  intro f e; subst e; decide
theorem test_ill_session : Instr.wf (.sessionIdleTimeout .segment 0#32) = false ∧ Instr.wf (.challenge .doe []) = false ∧ Instr.wf (.getMeasurements .doe [0#8]) = false := by
  decide
theorem test_ill_image : Instr.wf (.romData 0#32 (List.replicate 1473 0#8)) = false ∧ Instr.wf (.enBreak 0) = false := by decide +kernel
theorem test_ill_port : Instr.wf (.caps 0 (caps 0#16 8)) = false ∧ Instr.wf (.spdm 0 { proof with svn := 2 ^ 32 }) = false := by decide
theorem test_ill_message : Msg.ok { aMsg 0#4 with cont := 32 } = false ∧ Msg.ok { aMsg 0#4 with len := 2 ^ 16 } = false
    ∧ Msg.ok { aMsg 0#4 with payload := List.replicate 193 0#8 } = false := ⟨by decide, by decide, by decide +kernel⟩
theorem test_ill_messages (p : PortId) (m : Msg) (h : m.ok = false) : Instr.wf (.putData p m) = false ∧ Instr.wf (.getReq p m) = false
    ∧ Instr.wf (.remoteRing p m) = false ∧ Instr.wf (.putAck p m) = false ∧ Instr.wf (.getData p m) = false ∧ Instr.wf (.nack p m) = false
    ∧ Instr.wf (.peal p m) = false := ⟨h, h, h, h, h, h, h⟩
theorem test_ill_hoop : Instr.wf (.hoopPacket 0 false { packet 0#12 with payload := [] }) = false
    ∧ Instr.wf (.trainingComplete 0 { failed := [], level0 := 2#16, level1 := 2#16, damaged := [] }) = false
    ∧ Instr.wf (.trainingComplete 0 { failed := [(3, []), (3, [])], level0 := 2#16, level1 := 2#16, damaged := [false, false, false] }) = false := by decide
theorem test_ill_register : Instr.wf (.registerWrite 4 true 0#64) = false ∧ Instr.wf (.registerWrite 2 false 0#64) = false
    ∧ Instr.wf (.registerWrite 0 false 0x100000000#64) = false := by decide

/-! ### What the commands do, on values worked by hand from the rules -/

/-- The scalar registers 1 and 2 after a command on tile 0. -/
def after (x : Tile) (c : Instr) (r : Nat) : Option W64 :=
  match exec c (withTile x) with
  | .next u => some ((u.tile 0).sreg r)
  | _ => none
def regs (a b : W64) : Tile := { runTile with sregs := [(1, a), (2, b)] }
/-- R146: addition wraps, shifts use six bits, SMUL keeps the low half, SHI keeps the low half; S0 reads zero and takes no write (R140). -/
theorem test_scalar_wraps : after (regs (BitVec.allOnes 64) 2#64) (.sadd 0 noTok 3 1 2) 3 = some 1#64 ∧ after (regs 1#64 2#64) (.ssub 0 noTok 3 1 2) 3 = some (BitVec.allOnes 64) := by decide
theorem test_scalar_shifts : after (regs 3#64 65#64) (.sshl 0 noTok 3 1 2) 3 = some 6#64 ∧ after (regs (BitVec.allOnes 64) 127#64) (.sshr 0 noTok 3 1 2) 3 = some 1#64 := by decide
theorem test_scalar_halves : after (regs 0x100000000#64 0x100000001#64) (.smul 0 noTok 3 1 2) 3 = some 0x100000000#64
    ∧ after (regs 0x1111111122222222#64 0#64) (.shi 0 noTok 1 0xAAAAAAAA#32) 1 = some 0xAAAAAAAA22222222#64 := by decide
theorem test_scalar_zero : after (regs 7#64 7#64) (.sadd 0 noTok 0 1 2) 0 = some 0#64 ∧ after (regs 5#64 0#64) (.saddi 0 noTok 2 1 0xFFFFFFFF#32) 2 = some 4#64 := by decide

end Sys2Proof.Tests
end

/-! ## Writes of the device registers

The rules of `registerWrite` at an address of the device range, and the statements O57, O58 and O59 settled from them. -/

namespace Sys2Proof.Machine

/-! ### A write by block and offset -/

/-- R19: a write that sets a reserved bit of its register is discarded. -/
theorem putReg_reserved {s : State} {who : Option CoreId} {b o v : Nat} (h : v &&& rsvMask b o ≠ 0) : s.putReg who b o v = s.discard := by
  unfold State.putReg
  exact if_pos h

theorem putReg_cDie {s : State} {who : Option CoreId} {o v : Nat} (h : v &&& rsvMask 4 o = 0) : s.putReg who 4 o v = s.putC o v := by
  unfold State.putReg
  exact if_neg (not_not_intro h)

theorem putReg_belfry {s : State} {who : Option CoreId} {o v : Nat} (h : v &&& rsvMask 5 o = 0) : s.putReg who 5 o v = s.putB o v := by
  unfold State.putReg
  exact if_neg (not_not_intro h)

theorem putReg_ports {s : State} {who : Option CoreId} {o v : Nat} (h : v &&& rsvMask 6 o = 0) : s.putReg who 6 o v = s.putNet o v := by
  unfold State.putReg
  exact if_neg (not_not_intro h)

/-- A 4 B register takes a 4 B write whole. -/
theorem registerWrite_word {s : State} {b o x : Nat} (hb : b < 9) (ho : o < 2 ^ 32) (h4 : o % 4 = 0) (hr : s.reg b o = some (4, x)) (v : W64) :
    exec (.registerWrite (devAddr b o) false v) s = .next (s.putReg none b o (v.toNat % 2 ^ 32)) := by
  rw [w4 v s b o hb ho h4, put_self s b o x 4 _ hr (by decide)]

/-- A 4 B write of the low half of an 8 B register writes the register with its high half as before. -/
theorem registerWrite_lowHalf {s : State} {b o old : Nat} (hb : b < 9) (ho : o < 2 ^ 32) (h8 : o % 8 = 0) (hr : s.reg b o = some (8, old))
    (v : W64) : exec (.registerWrite (devAddr b o) false v) s
      = .next (s.putReg none b o (v.toNat % 2 ^ 32 + old / 2 ^ 32 * 2 ^ 32)) := by
  rw [w4 v s b o hb ho (by omega), put_half s b o old _ hr]

/-- A 4 B write of the high half of an 8 B register writes the register with its low half as before. -/
theorem registerWrite_highHalf {s : State} {b o old : Nat} (hb : b < 9) (ho : o < 2 ^ 32) (h8 : o % 8 = 4) (hn : s.reg b o = none)
    (hr : s.reg b (o - 4) = some (8, old)) (v : W64) : exec (.registerWrite (devAddr b o) false v) s
      = .next (s.putReg none b (o - 4) (old % 2 ^ 32 + v.toNat % 2 ^ 32 * 2 ^ 32)) := by
  rw [w4 v s b o hb ho (by omega), put_high s b o old _ h8 hn hr]

/-- R52: an 8 B write where no 8 B register begins is two writes of 4 B, the lower first. -/
theorem registerWrite_pair {s : State} {b o : Nat} (hb : b < 9) (ho : o < 2 ^ 32) (h8 : o % 8 = 0) (hr : ∀ x, s.reg b o ≠ some (8, x))
    (v : W64) : exec (.registerWrite (devAddr b o) true v) s
      = .next ((s.putWord none b o (v.toNat % 2 ^ 32)).putWord none b (o + 4) (v.toNat / 2 ^ 32)) := by
  have hs : s.regWrite none b o 8 v.toNat
      = (s.putWord none b o (v.toNat % 2 ^ 32)).putWord none b (o + 4) (v.toNat / 2 ^ 32) := by
    unfold State.regWrite
    rw [if_neg (by decide)]
    split
    · next x hx => exact absurd hx (hr x)
    · rfl
  rw [regw_dev s b o hb ho]
  simp only [if_true, h8, hs]

/-! ### Reserved fields and widths -/

/-- Settles O57: each of the four forms writes one whole register, whose mask the value meets. -/
theorem reservedFieldWrite : Obligations.ReservedFieldWrite := by
  intro s a b o v ha
  obtain ⟨rfl, hb, ho⟩ := blockOf_iff a b o ha
  refine ⟨fun old h8 hr hm => ?_, fun old h4 hr hm => ?_, fun old h8 hr _ hm => ?_, fun old h8 hn hr _ hm => ?_⟩
  · rw [w8 v old s b o hb ho h8 hr, putReg_reserved hm]
    rfl
  · rw [registerWrite_word hb ho h4 hr, putReg_reserved hm]
    rfl
  · rw [registerWrite_lowHalf hb ho h8 hr, putReg_reserved (half_mask _ _ _ hm)]
    rfl
  · rw [registerWrite_highHalf hb ho h8 hn hr, putReg_reserved (high_mask _ _ _ hm)]
    rfl

/-- Settles O58: a half is written as the whole register that keeps the other half, and a pair word by word. -/
theorem registerWrites : Obligations.RegisterWrites := by
  intro s a b o v ha
  obtain ⟨rfl, hb, ho⟩ := blockOf_iff a b o ha
  refine ⟨fun h4 hn hlow => ?_, fun old h8 hr hold => ?_, fun old h8 hn hr hold => ?_, fun h8 hr => ?_⟩
  · exact ⟨_, w4 v s b o hb ho h4, put_none s b o _ hn hlow⟩
  · rw [registerWrite_lowHalf hb ho h8 hr, w8 _ old s b o hb ho h8 hr, toNat_lt _ (low_lt _ _ hold)]
  · rw [registerWrite_highHalf hb ho h8 hn hr, dev_sub b o (by omega), w8 _ old s b (o - 4) hb (by omega) (by omega) hr,
      toNat_lt _ (high_lt _ _)]
  · have hhigh : (v >>> 32).toNat % 2 ^ 32 = v.toNat / 2 ^ 32 := by
      rw [BitVec.toNat_ushiftRight, Nat.shiftRight_eq_div_pow]
      exact Nat.mod_eq_of_lt (by omega)
    refine ⟨_, w4 v s b o hb ho (by omega), ?_⟩
    rw [registerWrite_pair hb ho h8 hr, dev_add, w4 _ _ b (o + 4) hb (by omega) (by omega), hhigh]

/-! ### What a write of one register does -/

/-- A meaning that answers a next state answers the one that `after` leaves. -/
theorem next_after {s : State} {f : State → Host.Outcome State Fault Refusal} (h : ∃ t, f s = .next t) : f s = .next (s.after f) := by
  obtain ⟨t, ht⟩ := h
  unfold State.after
  rw [ht]

theorem toNat_setWidth_word (w : W32) : (w.setWidth 64).toNat % 2 ^ 32 = w.toNat := by
  rw [BitVec.toNat_setWidth]
  omega

/-- An 8 B write of an 8 B register, by what the register's own write leaves. -/
theorem wideWrite_gives {s : State} {b o x : Nat} {v : W64} {P : State → Prop} (hb : b < 9) (ho : o < 2 ^ 32 ∧ o % 8 = 0)
    (hr : s.reg b o = some (8, x)) (hP : P (s.putReg none b o v.toNat)) : Gives (.registerWrite (devAddr b o) true v) s P :=
  ⟨_, w8 v x s b o hb ho.1 ho.2 hr, hP⟩

/-- A 4 B write of a 4 B register, by what the register's own write leaves. -/
theorem wordWrite_gives {s : State} {b o x : Nat} {w : W32} {P : State → Prop} (hb : b < 9) (ho : o < 2 ^ 32 ∧ o % 4 = 0)
    (hr : s.reg b o = some (4, x)) (hP : P (s.putReg none b o w.toNat)) :
    Gives (.registerWrite (devAddr b o) false (w.setWidth 64)) s P :=
  ⟨_, registerWrite_word hb ho.1 ho.2 hr _, by rwa [toNat_setWidth_word]⟩

/-- An 8 B register that stands for a command does the command when written. -/
theorem wideWrite_does {s : State} {b o x : Nat} {v : W64} (f : W64 → State → Host.Outcome State Fault Refusal) (hb : b < 9)
    (ho : o < 2 ^ 32 ∧ o % 8 = 0) (hr : s.reg b o = some (8, x))
    (hput : s.putReg none b o v.toNat = s.after (f (BitVec.ofNat 64 v.toNat))) (hf : ∃ t, f v s = .next t) :
    Gives (.registerWrite (devAddr b o) true v) s fun u => f v s = .next u := by
  rw [BitVec.ofNat_toNat, BitVec.setWidth_eq] at hput
  exact wideWrite_gives hb ho hr (hput ▸ next_after hf)

/-- A 4 B register that stands for a command does the command when written. -/
theorem wordWrite_does {s : State} {b o x : Nat} {w : W32} (f : W32 → State → Host.Outcome State Fault Refusal) (hb : b < 9)
    (ho : o < 2 ^ 32 ∧ o % 4 = 0) (hr : s.reg b o = some (4, x))
    (hput : s.putReg none b o w.toNat = s.after (f (BitVec.ofNat 32 w.toNat))) (hf : ∃ t, f w s = .next t) :
    Gives (.registerWrite (devAddr b o) false (w.setWidth 64)) s fun u => f w s = .next u := by
  rw [BitVec.ofNat_toNat, BitVec.setWidth_eq] at hput
  exact wordWrite_gives hb ho hr (hput ▸ next_after hf)

/-- An 8 B register reads back what it holds. -/
theorem regRead_wide {s : State} {b o x : Nat} (hr : s.reg b o = some (8, x)) : s.regRead b o 8 = x := by
  simp [State.regRead, hr]

/-- An 8 B register that holds what was written reads it back, and the tiles, bells and memory stay. -/
theorem wideWrite_readsBack {s : State} {b o x : Nat} {v : W64} (u : W64 → State) (hb : b < 9) (ho : o < 2 ^ 32 ∧ o % 8 = 0)
    (hr : s.reg b o = some (8, x)) (hput : s.putReg none b o v.toNat = u (BitVec.ofNat 64 v.toNat))
    (hread : (u v).reg b o = some (8, v.toNat)) (hframe : (u v).mem = s.mem ∧ (u v).tiles = s.tiles ∧ (u v).bells = s.bells) :
    Gives (.registerWrite (devAddr b o) true v) s fun t => t.regRead b o 8 = v.toNat
      ∧ t.mem = s.mem ∧ t.tiles = s.tiles ∧ t.bells = s.bells := by
  rw [BitVec.ofNat_toNat, BitVec.setWidth_eq] at hput
  exact wideWrite_gives hb ho hr (hput ▸ ⟨regRead_wide hread, hframe⟩)

/-! ### Rings -/

/-- EN going to 1 takes the ring's size and resets both indices (R329). -/
theorem putCtrl_enables {r : Ring} {top v : Nat} (h4 : 4 ≤ bitsOf v 8 4) (htop : bitsOf v 8 4 ≤ top) (hoff : r.en = false)
    (hon : bitsOf v 0 1 = 1) : r.putCtrl top v = some { r with log2 := bitsOf v 8 4, en := true, head := 0, tail := 0 } := by
  have hlow : ¬ bitsOf v 8 4 < 4 := by omega
  have hhigh : ¬ bitsOf v 8 4 > top := by omega
  simp [Ring.putCtrl, hoff, hon, hlow, hhigh]

/-- The base of an enabled ring takes no write (R329). -/
theorem putBase_enabled {r : Ring} {grain v : Nat} (hon : r.en = true) : r.putBase grain v = none := by
  simp [Ring.putBase, hon]

/-! ### Registers that stand for a command, read back, or enable a ring -/

/-- The 8 B command registers. -/
theorem wideCommandRegisters (s : State) (v : W64) :
    ∀ e ∈ ([(4, 0x400000, .qmodeWrite false v), (4, 0x400008, .qmodeWrite true v), (4, 0x500008, .ioinval v), (4, 0x500058, .faultResp v),
        (4, 0x600018, .cadSetC v), (5, 0x200018, .kettleRoll v)] : List (Nat × Nat × Instr)),
      v.toNat &&& rsvMask e.1 e.2.1 = 0 → Gives (.registerWrite (devAddr e.1 e.2.1) true v) s fun u => exec e.2.2 s = .next u := by
  simp only [List.forall_mem_cons, List.not_mem_nil, false_implies, implies_true, and_true]
  refine ⟨fun h => ?_, fun h => ?_, fun h => ?_, fun h => ?_, fun h => ?_, fun h => ?_⟩
  · exact wideWrite_does (execQmodeWrite false) (by decide) (by decide) rfl (putReg_cDie h) (execQmodeWrite_total ..)
  · exact wideWrite_does (execQmodeWrite true) (by decide) (by decide) rfl (putReg_cDie h) (execQmodeWrite_total ..)
  · exact wideWrite_does execIoinval (by decide) (by decide) rfl (putReg_cDie h) (execIoinval_total ..)
  · exact wideWrite_does execFaultResp (by decide) (by decide) rfl (putReg_cDie h) (execFaultResp_total ..)
  · exact wideWrite_does execCadSetC (by decide) (by decide) rfl (putReg_cDie h) (execCadSetC_total ..)
  · exact wideWrite_does execKettleRoll (by decide) (by decide) rfl (putReg_belfry h) (execKettleRoll_total ..)

/-- The 4 B command registers. -/
theorem wordCommandRegisters (s : State) (w : W32) :
    ∀ e ∈ ([(4, 0x500040, .unmapGo w), (4, 0x50006C, .tqConsWrite w), (4, 0x600020, .cadAdv w), (4, 0x600028, .cadCommit w),
        (4, 0x700A00, .hostMsgFree w), (6, 0x110040, .winCommit w)] : List (Nat × Nat × Instr)),
      w.toNat &&& rsvMask e.1 e.2.1 = 0 →
        Gives (.registerWrite (devAddr e.1 e.2.1) false (w.setWidth 64)) s fun u => exec e.2.2 s = .next u := by
  simp only [List.forall_mem_cons, List.not_mem_nil, false_implies, implies_true, and_true]
  refine ⟨fun h => ?_, fun h => ?_, fun h => ?_, fun h => ?_, fun h => ?_, fun h => ?_⟩
  · exact wordWrite_does execUnmapGo (by decide) (by decide) rfl (putReg_cDie h) (execUnmapGo_total ..)
  · exact wordWrite_does execTqConsWrite (by decide) (by decide) rfl (putReg_cDie h) (execTqConsWrite_total ..)
  · exact wordWrite_does execCadAdv (by decide) (by decide) rfl (putReg_cDie h) (execCadAdv_total ..)
  · exact wordWrite_does execCadCommit (by decide) (by decide) rfl (putReg_cDie h) (execCadCommit_total ..)
  · exact wordWrite_does execHostMsgFree (by decide) (by decide) rfl (putReg_cDie h) (execHostMsgFree_total ..)
  · exact wordWrite_does execWinCommit (by decide) (by decide) rfl (putReg_ports h) (execWinCommit_total ..)

/-- The registers of operands and the first words of the two staging areas. -/
theorem readBackRegisters (s : State) (v : W64) :
    ∀ e ∈ ([(4, 0x500010), (4, 0x500018), (4, 0x500028), (4, 0x500030), (4, 0x500038), (4, 0x600100), (6, 0x110000)] : List (Nat × Nat)),
      v.toNat &&& rsvMask e.1 e.2 = 0 → Gives (.registerWrite (devAddr e.1 e.2) true v) s fun u => u.regRead e.1 e.2 8 = v.toNat
        ∧ u.mem = s.mem ∧ u.tiles = s.tiles ∧ u.bells = s.bells := by
  simp only [List.forall_mem_cons, List.not_mem_nil, false_implies, implies_true, and_true]
  refine ⟨fun h => ?_, fun h => ?_, fun h => ?_, fun h => ?_, fun h => ?_, fun h => ?_, fun h => ?_⟩
  · exact wideWrite_readsBack (fun x => { s with xlat := { s.xlat with ioBase := x } }) (by decide) (by decide) rfl
      (putReg_cDie h) rfl ⟨rfl, rfl, rfl⟩
  · exact wideWrite_readsBack (fun x => { s with xlat := { s.xlat with ioLen := x } }) (by decide) (by decide) rfl
      (putReg_cDie h) rfl ⟨rfl, rfl, rfl⟩
  · exact wideWrite_readsBack (fun x => { s with xlat := { s.xlat with unmapCtx := x } }) (by decide) (by decide) rfl
      (putReg_cDie h) rfl ⟨rfl, rfl, rfl⟩
  · exact wideWrite_readsBack (fun x => { s with xlat := { s.xlat with unmapBase := x } }) (by decide) (by decide) rfl
      (putReg_cDie h) rfl ⟨rfl, rfl, rfl⟩
  · exact wideWrite_readsBack (fun x => { s with xlat := { s.xlat with unmapLen := x } }) (by decide) (by decide) rfl
      (putReg_cDie h) rfl ⟨rfl, rfl, rfl⟩
  · exact wideWrite_readsBack (fun x => s.setCad { s.net.cad with stage := s.net.cad.stage.set 0#64 0 x }) (by decide) (by decide) rfl
      (putReg_cDie h) (congrArg (fun x : W64 => some (8, x.toNat)) (Map.get_set_self ..)) ⟨rfl, rfl, rfl⟩
  · exact wideWrite_readsBack (fun x => { s with win := { s.win with stage := s.win.stage.set 0#64 0 x } }) (by decide) (by decide) rfl
      (putReg_ports h) (congrArg (fun x : W64 => some (8, x.toNat)) (Map.get_set_self ..)) ⟨rfl, rfl, rfl⟩

/-- UQ_CTRL enables the ring of update jobs with both indices 0. -/
theorem uqCtrl_enables (s : State) (w : W32) (h4 : 4 ≤ bitsOf w.toNat 8 4) (h10 : bitsOf w.toNat 8 4 ≤ 10)
    (hm : w.toNat &&& rsvMask 4 0x600090 = 0) (hoff : s.net.cad.uq.en = false) (hon : bitsOf w.toNat 0 1 = 1) :
    Gives (.registerWrite (devAddr 4 0x600090) false (w.setWidth 64)) s fun u =>
      u.net.cad.uq = { s.net.cad.uq with log2 := bitsOf w.toNat 8 4, en := true, head := 0, tail := 0 } := by
  have hput : s.putC 0x600090 w.toNat = s.putRing s.net.cad.uq 2 128 10 w.toNat fun r => s.setCad { s.net.cad with uq := r } := rfl
  refine wordWrite_gives (by decide) (by decide) rfl ?_
  rw [putReg_cDie hm, hput]
  simp only [State.putRing, putCtrl_enables h4 h10 hoff hon]
  rfl

/-- UQ_BASE takes no write while the ring of update jobs is enabled. -/
theorem uqBase_enabled (s : State) (v : W64) (hon : s.net.cad.uq.en = true) (hm : v.toNat &&& rsvMask 4 0x600080 = 0) :
    Gives (.registerWrite (devAddr 4 0x600080) true v) s fun u => u = s.discard := by
  have hput : s.putC 0x600080 v.toNat = s.putRing s.net.cad.uq 0 128 10 v.toNat fun r => s.setCad { s.net.cad with uq := r } := rfl
  refine wideWrite_gives (by decide) (by decide) rfl ?_
  rw [putReg_cDie hm, hput]
  simp only [State.putRing, putBase_enabled hon]

/-- Settles O59: register by register, each by the write of its block. -/
theorem registerEffects : Obligations.RegisterEffects := fun s v w =>
  ⟨wideCommandRegisters s v, wordCommandRegisters s w, readBackRegisters s v, uqCtrl_enables s w, uqBase_enabled s v⟩

end Sys2Proof.Machine

/-! ## Requests at the home of an address, and the accesses of cores to device registers

The outcomes of one MEMORY_READ or MEMORY_WRITE, a lemma for each, and the statements O19 and O20 settled from them; the device
arms of CORE_LOAD and CORE_STORE, and the statement O60. -/

namespace Sys2Proof.Machine

/-! ### What one access at the home answers -/

section
variable {s : State} {a n d : Nat} {bs : List Byte} {r : Region}

/-- R51: a read of a span outside the memories. -/
theorem readMem_outside (h : engineRange a n = none) : s.readMem a n d = ⟨s, stBounds, []⟩ := by
  unfold State.readMem State.readMemBy
  rw [h]

/-- R51: a write of a span outside the memories. -/
theorem writeMem_outside (h : engineRange a bs.length = none) : s.writeMem a bs d = ⟨s, stBounds, []⟩ := by
  unfold State.writeMem State.writeMemBy
  rw [h]

/-- R198: a read of near or deep memory that is not served. -/
theorem readMem_unserved (h : engineRange a n = some r) (hr : r ≠ .host) (hs : s.serves a d = false) :
    s.readMem a n d = ⟨s, stTierError, []⟩ := by
  unfold State.readMem State.readMemBy
  rw [h]
  cases r with
  | host => exact absurd rfl hr
  | near | deep | device | absent => simp only [hs, Bool.not_false, if_true]

/-- R198: a write of near or deep memory that is not served. -/
theorem writeMem_unserved (h : engineRange a bs.length = some r) (hr : r ≠ .host) (hs : s.serves a d = false) :
    s.writeMem a bs d = ⟨s, stTierError, []⟩ := by
  unfold State.writeMem State.writeMemBy
  rw [h]
  cases r with
  | host => exact absurd rfl hr
  | near | deep | device | absent => simp only [hs, Bool.not_false, if_true]

/-- A link that is up answers (R421). -/
theorem hostServes_of_up (h : s.cxl.state = 1) : s.hostServes = true := by simp [State.hostServes, h]

/-- No request waits for a link that is up (R421). -/
theorem hostWaits_of_up (h : s.cxl.state = 1) : s.hostWaits a = false := by simp [State.hostWaits, h]

/-- R50: a read of the host window reads host memory. -/
theorem readMem_host (h : engineRange a n = some .host) (hroute : s.routed a d = true) (hup : s.cxl.state = 1)
    (hp : s.mem.hostPoisoned (hostAddr a) n = false) :
    s.readMem a n d = ⟨s.countSpan a n d false, stOk, s.mem.host.getRun 0#8 (hostAddr a) n⟩ := by
  unfold State.readMem State.readMemBy
  rw [h]
  simp [hroute, hostServes_of_up hup, hp]

/-- R50: a write of the host window writes host memory. -/
theorem writeMem_host (h : engineRange a bs.length = some .host) (hroute : s.routed a d = true) (hup : s.cxl.state = 1) :
    s.writeMem a bs d
      = ⟨{ s.countSpan a bs.length d true with mem := s.mem.writeHost (hostAddr a) bs }, stOk, []⟩ := by
  unfold State.writeMem State.writeMemBy
  rw [h]
  simp [hroute, hostServes_of_up hup]

end

@[simp] theorem MemS.getRun_writeHost (m : MemS) (a : Nat) (bs : List Byte) :
    (m.writeHost a bs).host.getRun 0#8 a bs.length = bs := Map.getRun_setRun_self ..

/-! ### What MEMORY_READ and MEMORY_WRITE give -/

section
variable {ag : Agent} {a n : Nat} {bs : List Byte} {r : Region} {s : State}

/-- A MEMORY_READ that need not wait answers what the access at the home answers. -/
theorem memoryRead_gives {x : Resp} {P : State → Prop} (hw : s.hostWaits a = false) (hx : s.readMem a n (agentDie ag) = x)
    (hP : P (x.st.answer x.status x.data)) : Gives (.memoryRead ag a n) s P := by
  subst hx
  exact ⟨_, by simp [exec_memoryRead, execMemoryRead, hw], hP⟩

/-- A MEMORY_WRITE that need not wait answers the status of the access at the home. -/
theorem memoryWrite_gives {x : Resp} {P : State → Prop} (hw : s.hostWaits a = false) (hx : s.writeMem a bs (agentDie ag) = x)
    (hP : P (x.st.answer x.status [])) : Gives (.memoryWrite ag a bs) s P := by
  subst hx
  exact ⟨_, by simp [exec_memoryWrite, execMemoryWrite, hw], hP⟩

/-- A span of the near or deep range waits for no link. -/
theorem hostWaits_of_range (h : engineRange a n = some r) (hr : r ≠ .host) : s.hostWaits a = false :=
  notWaits (engineRange_some h).1 hr

theorem memoryRead_sound (h : engineRange a n = some r) (hr : r ≠ .host) (hs : s.serves a (agentDie ag) = true)
    (hc : s.mem.clean a n) :
    Gives (.memoryRead ag a n) s fun u => u.reply = ⟨0#32, s.mem.load a n⟩ ∧ u.mem = s.mem :=
  memoryRead_gives (hostWaits_of_range h hr) (readMem_ok s true a n _ r h hr hs hc) ⟨rfl, countSpan_mem s true a n _ false⟩

theorem memoryWrite_sound (h : engineRange a bs.length = some r) (hr : r ≠ .host) (hs : s.serves a (agentDie ag) = true)
    (hc : s.mem.clean a bs.length) :
    Gives (.memoryWrite ag a bs) s fun u => u.reply = ⟨0#32, []⟩ ∧ u.mem.load a bs.length = bs
      ∧ ∀ b, b < a ∨ a + bs.length ≤ b → u.mem.load b 1 = s.mem.load b 1 := by
  obtain ⟨u, hu, -, -, -, -, hin, hout⟩ := writeMem_ok s true a (agentDie ag) bs r h hr hs hc
  exact memoryWrite_gives (hostWaits_of_range h hr) hu ⟨rfl, hin, hout⟩

theorem memoryRead_unserved (h : engineRange a n = some r) (hr : r ≠ .host) (hs : s.serves a (agentDie ag) = false) :
    Gives (.memoryRead ag a n) s fun u => u = s.answer stTierError [] :=
  memoryRead_gives (hostWaits_of_range h hr) (readMem_unserved h hr hs) rfl

theorem memoryWrite_unserved (h : engineRange a bs.length = some r) (hr : r ≠ .host) (hs : s.serves a (agentDie ag) = false) :
    Gives (.memoryWrite ag a bs) s fun u => u = s.answer stTierError [] :=
  memoryWrite_gives (hostWaits_of_range h hr) (writeMem_unserved h hr hs) rfl

theorem memoryRead_host (h : engineRange a n = some .host) (hroute : s.routed a (agentDie ag) = true) (hup : s.cxl.state = 1)
    (hp : s.mem.hostPoisoned (hostAddr a) n = false) :
    Gives (.memoryRead ag a n) s fun u => u.reply = ⟨0#32, s.mem.host.getRun 0#8 (hostAddr a) n⟩ ∧ u.mem = s.mem :=
  memoryRead_gives (hostWaits_of_up hup) (readMem_host h hroute hup hp) ⟨rfl, countSpan_mem s true a n _ false⟩

theorem memoryWrite_host (h : engineRange a bs.length = some .host) (hroute : s.routed a (agentDie ag) = true)
    (hup : s.cxl.state = 1) :
    Gives (.memoryWrite ag a bs) s fun u => u.reply = ⟨0#32, []⟩ ∧ u.mem.host.getRun 0#8 (hostAddr a) bs.length = bs
      ∧ u.mem.mem = s.mem.mem :=
  memoryWrite_gives (hostWaits_of_up hup) (writeMem_host h hroute hup) ⟨rfl, s.mem.getRun_writeHost .., rfl⟩

end

/-- What a command gives may be weakened. -/
theorem Gives.mono {c : Instr} {s : State} {P Q : State → Prop} (h : Gives c s P) (hPQ : ∀ u, P u → Q u) : Gives c s Q :=
  let ⟨u, hu, hP⟩ := h
  ⟨u, hu, hPQ u hP⟩

/-- Settles O19: outside the memories, in near or deep memory served or not, and in the host window. -/
theorem memoryReadWrite : Obligations.MemoryReadWrite := by
  intro ag a s
  have refused : ∀ u, u = s.answer stTierError [] → u.reply.code = 0x03010000#32 ∧ u.mem = s.mem := by
    rintro _ rfl
    exact ⟨rfl, rfl⟩
  refine ⟨fun n h hw => ?_, fun bs h hw => ?_, fun n r h hr => ⟨?_, fun hs => ?_⟩, fun bs r h hr => ⟨?_, fun hs => ?_⟩,
    fun n => memoryRead_host, fun bs => memoryWrite_host⟩
  · exact memoryRead_gives hw (readMem_outside h) rfl
  · exact memoryWrite_gives hw (writeMem_outside h) rfl
  · exact memoryRead_sound h hr
  · exact (memoryRead_unserved h hr hs).mono refused
  · exact memoryWrite_sound h hr
  · exact (memoryWrite_unserved h hr hs).mono refused

/-! ### The host window -/

/-- Settles O20: the range of the window, and the accesses of O19 at its addresses. -/
theorem hostWindowMap : Obligations.HostWindowMap := by
  refine ⟨fun a => ?_, fun ag h s hroute hup => ⟨fun n hn hle hp => ?_, fun bs hbs hle => ?_⟩⟩
  · rw [region_host]
    constructor
    · rintro ⟨hlow, hhigh⟩
      exact ⟨a - 0x100000000000, by omega, by omega⟩
    · rintro ⟨h, hh, rfl⟩
      omega
  · have hread := memoryRead_host (range_host h n hn hle) hroute hup (by rwa [hostAddr_add])
    rwa [hostAddr_add] at hread
  · have hwrite := memoryWrite_host (range_host h bs.length (List.length_pos_of_ne_nil hbs) hle) hroute hup
    rwa [hostAddr_add] at hwrite

/-! ### A core's access to the device range -/

/-- An aligned access of 4 B or 8 B is made where its block is not reserved (R52). -/
theorem deviceAccess_aligned {a n : Nat} (hn : n = 4 ∨ n = 8) (ha : a % n = 0) : deviceAccess a n = blockOf a := by
  simp [deviceAccess, hn, ha]

/-- An access of another size or misaligned, or to a reserved block, is not made (R51, R52). -/
theorem deviceAccess_refused {a n : Nat} (h : ¬ (n = 4 ∨ n = 8) ∨ a % n ≠ 0 ∨ blockOf a = none) : deviceAccess a n = none := by
  rcases h with hn | ha | hb
  · simp [deviceAccess, hn]
  · simp [deviceAccess, ha]
  · simp [deviceAccess, hb]

/-- A read of any register but TALLY leaves the counters as they stand. -/
theorem beforeRead_of_not_tally {s : State} {b o : Nat} (h : ¬ (b < 6 ∧ (o = 8 ∨ o = 12))) : s.beforeRead b o = s := by
  simp [State.beforeRead, h]

@[simp] theorem coreValue_reply (s : State) (c : CoreId) (bs : List Byte) : (s.coreValue c bs).reply = ⟨stOk, bs⟩ := rfl

@[simp] theorem coreValue_trap (s : State) (c : CoreId) (bs : List Byte) : ((s.coreValue c bs).core c).trap = none := by
  simp [State.coreValue]

section
variable {c : CoreId} {a n b o : Nat} {fetch hint : Bool} {bs : List Byte} {vs : List Victim} {s : State}

/-- A load of a register that is made. -/
theorem exec_coreLoad_device (hrun : (s.core c).state = 1) (hdev : regionOf a = .device) (hn : n ≠ 0)
    (hacc : deviceAccess a n = some (b, o)) : exec (.coreLoad c a n false hint vs) s
      = .next ((s.beforeRead b o).coreValue c (bytesOfNat n ((s.beforeRead b o).regRead b o n))) := by
  simp [exec_coreLoad, execCoreLoad, hrun, hdev, hn, hacc]

/-- A fetch, or a load that is not made. -/
theorem exec_coreLoad_device_refused (hrun : (s.core c).state = 1) (hdev : regionOf a = .device) (hn : n ≠ 0)
    (hacc : fetch = true ∨ deviceAccess a n = none) : exec (.coreLoad c a n fetch hint vs) s
      = .next (s.coreTrap c (if fetch then .fetchFault else .loadFault)) := by
  have hnone : (if fetch then none else deviceAccess a n) = none := by
    rcases hacc with hf | hnone
    · exact if_pos hf
    · rw [hnone, ite_self]
  simp [exec_coreLoad, execCoreLoad, hrun, hdev, hn, hnone]

/-- A store to a register that is made. -/
theorem exec_coreStore_device (hrun : (s.core c).state = 1) (hdev : regionOf a = .device) (hbs : bs ≠ [])
    (hacc : deviceAccess a bs.length = some (b, o)) : exec (.coreStore c a bs hint vs) s
      = .next ((s.setCore c { s.core c with trap := none }).regWrite (some c) b o bs.length (natOfBytes bs)) := by
  simp [exec_coreStore, execCoreStore, hrun, hdev, hbs, hacc]

/-- A store that is not made. -/
theorem exec_coreStore_device_refused (hrun : (s.core c).state = 1) (hdev : regionOf a = .device) (hbs : bs ≠ [])
    (hacc : deviceAccess a bs.length = none) : exec (.coreStore c a bs hint vs) s = .next (s.coreTrap c .storeFault) := by
  simp [exec_coreStore, execCoreStore, hrun, hdev, hbs, hacc]

end

/-! ### A core's store is a register write -/

/-- Beyond the blocks of the A-dies no register asks which core writes it. -/
theorem putReg_anyWriter (s : State) (who : Option CoreId) {b : Nat} (hb : 4 ≤ b) (hb9 : b < 9) (o v : Nat) :
    s.putReg who b o v = s.putReg none b o v := by
  unfold State.putReg
  interval_cases b <;> rfl

theorem putWord_anyWriter (s : State) (who : Option CoreId) {b : Nat} (hb : 4 ≤ b) (hb9 : b < 9) (o v : Nat) :
    s.putWord who b o v = s.putWord none b o v := by
  unfold State.putWord
  simp only [putReg_anyWriter _ who hb hb9]

theorem regWrite_anyWriter (s : State) (who : Option CoreId) {b : Nat} (hb : 4 ≤ b) (hb9 : b < 9) (o n v : Nat) :
    s.regWrite who b o n v = s.regWrite none b o n v := by
  unfold State.regWrite
  simp only [putReg_anyWriter _ who hb hb9, putWord_anyWriter _ who hb hb9]

/-- REGISTER_WRITE of 4 or 8 bytes given as a number. -/
theorem registerWrite_bytes {s : State} {b o : Nat} {bs : List Byte} (hb : b < 9) (ho : o < 2 ^ 32)
    (hlen : bs.length = 4 ∨ bs.length = 8) (hal : o % bs.length = 0) :
    exec (.registerWrite (devAddr b o) (bs.length = 8) (BitVec.ofNat 64 (natOfBytes bs))) s
      = .next (s.regWrite none b o bs.length (natOfBytes bs)) := by
  have hlt := natOfBytes_lt bs
  rw [regw_dev s b o hb ho]
  rcases hlen with h4 | h8
  · rw [h4] at hlt hal
    have hv : natOfBytes bs % 4294967296 = natOfBytes bs := Nat.mod_eq_of_lt (by omega)
    simp [h4, hal, hv]
  · rw [h8] at hlt hal
    simp [h8, hal, toNat_lt _ hlt]

/-- Register blocks begin at multiples of 8 B, so an aligned address has an aligned offset. -/
theorem offset_aligned {b o n : Nat} (hn : n = 4 ∨ n = 8) (h : devAddr b o % n = 0) : o % n = 0 := by
  unfold devAddr at h
  rcases hn with rfl | rfl <;> omega

/-- Settles O60: loads made and refused, then stores, which write as REGISTER_WRITE does, and stores refused. -/
theorem coreRegisterAccess : Obligations.CoreRegisterAccess := by
  intro c a hint vs s hrun hdev
  refine ⟨fun n b o hn ha hblock htally => ?_, fun n fetch hn hbad => ?_, fun bs b o hlen ha hblock hb => ?_, fun bs hbs hbad => ?_⟩
  · have hacc : deviceAccess a n = some (b, o) := (deviceAccess_aligned hn ha).trans hblock
    refine ⟨_, exec_coreLoad_device hrun hdev (by omega) hacc, ?_, coreValue_trap ..⟩
    rw [coreValue_reply, beforeRead_of_not_tally htally, stOk_eq]
  · exact ⟨_, exec_coreLoad_device_refused hrun hdev hn (hbad.imp_right deviceAccess_refused), rfl⟩
  · have hbs : bs ≠ [] := List.ne_nil_of_length_pos (by omega)
    have hacc : deviceAccess a bs.length = some (b, o) := (deviceAccess_aligned hlen ha).trans hblock
    obtain ⟨rfl, hb9, ho⟩ := blockOf_iff a b o hblock
    rw [exec_coreStore_device hrun hdev hbs hacc, regWrite_anyWriter _ _ hb hb9,
      registerWrite_bytes hb9 ho hlen (offset_aligned hlen ha)]
  · exact ⟨_, exec_coreStore_device_refused hrun hdev hbs (deviceAccess_refused hbad), rfl⟩

end Sys2Proof.Machine

/-! ## SR_SEED

What the commands of R84 leave in SR_SEED, the service actions that reset a tile, and the statement O15 settled from them. -/

namespace Sys2Proof.Machine

/-! ### SR_SEED where a tile is stored, placed or changed -/

theorem tile_of_tiles {s u : State} (h : u.tiles = s.tiles) (t : TileId) : u.tile t = s.tile t := by simp only [State.tile, h]

@[simp] theorem Tile.fail_srSeed (x : Tile) (st : W32) (pc cut : Nat) : (x.fail st pc cut).srSeed = x.srSeed := by
  unfold Tile.fail Tile.halt
  split <;> rfl

@[simp] theorem Tile.place_srSeed (x : Tile) (kid logical : Nat) (r : LaunchReq) (m : Image) (bs : List Byte) :
    (x.place kid logical r m bs).srSeed = x.srSeed := rfl

theorem putTile_srSeed (s : State) (t u : TileId) (x : Tile) :
    ((s.putTile t x).tile u).srSeed = if u = t then x.srSeed else (s.tile u).srSeed :=
  putTile_tile_keep (fun x => x.srSeed) (fun _ _ _ => rfl) (fun _ => rfl) (fun _ _ => rfl) (fun _ _ => rfl) s t u x

theorem setTile_srSeed (s : State) (t u : TileId) (x : Tile) :
    ((s.setTile t x).tile u).srSeed = if u = t then x.srSeed else (s.tile u).srSeed := by
  split
  next h => rw [h, State.setTile_tile_self]
  next h => rw [State.setTile_tile_ne _ _ _ _ h]

/-- Changes of tiles that keep their SR_SEED keep that of every tile. -/
theorem foldl_modify_srSeed (f : TileId → Tile → Tile) (hf : ∀ i x, (f i x).srSeed = x.srSeed) (l : List TileId) (m : Map Tile)
    (t : TileId) :
    ((l.foldl (fun m i => m.modify Tile.reset i.val (f i)) m).get Tile.reset t.val).srSeed = (m.get Tile.reset t.val).srSeed := by
  refine foldl_keep (fun m : Map Tile => (m.get Tile.reset t.val).srSeed) _ (fun m i => ?_) l m
  by_cases h : t.val = i.val
  · rw [h, Map.get_modify_self, hf]
  · rw [Map.get_modify_ne _ _ _ _ _ h]

/-! ### SEED (R150) -/

/-- A head that may start is taken by the command that wants it (R133). -/
theorem startHead_of_headIs {x : Tile} {e : Engine} {h : QEntry} {rest : List QEntry} {want : EngOp → Bool}
    (hh : x.headIs e h rest) (hw : want h.op = true) : x.startHead e want = some (h, x.taken e h rest) := by
  obtain ⟨hq, hlive, htok, hfree⟩ := hh
  simp [Tile.startHead, Tile.headStarts, Tile.taken, hq, hlive, htok, hfree, hw]

/-- SEED has no check of its own, and leaves its operand in SR_SEED. -/
theorem start_seed_srSeed {s : State} {t : TileId} {h : QEntry} {rest : List QEntry} {v : W64}
    (hh : (s.tile t).headIs .matrix h rest) (hv : h.op = .seed v) : ((s.start t .matrix EngOp.isSeed).tile t).srSeed = v := by
  have hhead := startHead_of_headIs (want := EngOp.isSeed) hh (by rw [hv]; rfl)
  have hcheck : ((s.tile t).taken .matrix h rest).opCheck h.op = none := by rw [hv]; rfl
  have hrun : (((s.tile t).taken .matrix h rest).opRun .matrix h s.fresh).srSeed = v := by simp only [Tile.opRun, hv]
  simp only [State.start, hhead, hcheck]
  rw [tile_of_tiles (State.drawn_frame _).1, putTile_srSeed, if_pos rfl, hrun]

/-! ### A core's write (R84) -/

section
variable {s : State} {t : TileId}

theorem exec_srSeedWrite_free (hk : (s.tile t).kernel = none) (v : W64) :
    exec (.srSeedWrite t v) s = .next (s.setTile t { s.tile t with srSeed := v }) := by
  simp [exec_srSeedWrite, execSrSeedWrite, hk]

theorem exec_srSeedWrite_held (hk : (s.tile t).kernel ≠ none) (v : W64) : exec (.srSeedWrite t v) s = .next s.discard := by
  simp [exec_srSeedWrite, execSrSeedWrite, Option.isSome_iff_ne_none.mpr hk]

end

/-! ### Admission and completion -/

theorem placeTile_srSeed (s : State) (kid : Nat) (r : LaunchReq) (m : Image) (p : TileId × Nat) (u : TileId) :
    ((s.placeTile kid r m p).tile u).srSeed = (s.tile u).srSeed := by
  unfold State.placeTile
  dsimp only
  split
  · rw [setTile_srSeed, readVirt_tile, readVirt_tile]
    split
    next h => rw [h, Tile.place_srSeed]
    next => rfl
  · rw [putTile_srSeed, readVirt_tile, readVirt_tile]
    split
    next h => rw [h, Tile.fail_srSeed, Tile.place_srSeed]
    next => rfl

theorem writeRecord_tile (s : State) (compl : Nat) (src : LaunchSrc) (st : W32) (ext : Nat) (tag : W64) (xflags : Nat)
    (failTile : Option (TileId × Nat)) (u : TileId) : (s.writeRecord compl src st ext tag xflags failTile).tile u = s.tile u :=
  tile_of_tiles (State.writeRecord_frame ..).1 u

theorem enrol_srSeed (s : State) (r : LaunchReq) (m : Image) (ts : List TileId) (bs : List Nat) (u : TileId) :
    ((s.enrol r m ts bs).tile u).srSeed = (s.tile u).srSeed := by
  unfold State.enrol
  split
  · rw [writeRecord_tile]
  · exact foldl_frame _ (fun s => (s.tile u).srSeed) (fun s p => placeTile_srSeed s _ r m p u) _ _

theorem launchReq_srSeed (s : State) (r : LaunchReq) (pt : List TileId) (pb : List BellId) (u : TileId) :
    ((s.launchReq r pt pb).tile u).srSeed = (s.tile u).srSeed := by
  have hctx : (s.launchCtx r.ctx).1.tile u = s.tile u := tile_of_tiles (State.launchCtx_frame ..).1 u
  unfold State.launchReq
  dsimp only
  split
  · rw [writeRecord_tile, hctx]
  · split
    · rw [writeRecord_tile, readVirt_tile, hctx]
    · split
      · rw [writeRecord_tile, readVirt_tile, hctx]
      · rw [enrol_srSeed, readVirt_tile, hctx]

theorem launch_srSeed (s : State) (t : TileId) (pt : List TileId) (pb : List BellId) :
    Gives (.launch pt pb) s fun u => (u.tile t).srSeed = (s.tile t).srSeed := by
  have htake : (s.lqTake 0).1.tile t = s.tile t := tile_of_tiles (State.lqTake_frame s 0).1 t
  unfold Gives
  simp only [exec_launch, execLaunch]
  split
  · exact ⟨_, rfl, by rw [htake]⟩
  · exact ⟨_, rfl, by rw [launchReq_srSeed, htake]⟩

theorem completionRecord_srSeed (s : State) (t : TileId) (kid : Nat) :
    Gives (.completionRecord kid) s fun u => (u.tile t).srSeed = (s.tile t).srSeed := by
  unfold Gives
  simp only [exec_completionRecord, execCompletionRecord]
  split
  · exact ⟨s, rfl, rfl⟩
  · split
    · exact ⟨s, rfl, rfl⟩
    · refine ⟨_, rfl, (foldl_modify_srSeed _ ?_ _ _ t).trans ?_⟩
      · exact fun _ _ => rfl
      · exact congrArg Tile.srSeed ((writeRecord_tile ..).trans (tile_of_tiles (State.releaseKernel_frame s kid _).1 t))

theorem tileClearEnd_srSeed (s : State) (t : TileId) :
    Gives (.tileClearEnd t) s fun u => (u.tile t).srSeed = (s.tile t).srSeed := by
  refine ⟨_, rfl, ?_⟩
  split
  · rw [State.setTile_tile_self]
    rfl
  · rfl

/-! ### The fields of an action word (R516) -/

theorem actionWord_fields {c k n a : Nat} (hc : c < 2 ^ 8) (hk : k < 2 ^ 8) (hn : n < 2 ^ 16) (ha : a < 2 ^ 16) :
    actCode (actionWord c k n a) = c ∧ actKind (actionWord c k n a) = k ∧ actUnit (actionWord c k n a) = n
      ∧ actArg (actionWord c k n a) = a := by
  have hw : (actionWord c k n a).toNat = c + 2 ^ 8 * k + 2 ^ 16 * n + 2 ^ 32 * a := by
    rw [actionWord, BitVec.toNat_ofNat]
    omega
  simp only [actCode, actKind, actUnit, actArg, w64Bits, bitsOf, hw]
  omega

/-! ### An action that passes its checks runs (R517, R518) -/

/-- The state in which an action word runs: committed and answered, its code and commit in the service registers, RESULT 1. -/
def State.actionTaken (s : State) (w : W64) : State :=
  let t := (s.belfryCommit [((0x9000, 1), bytesOfNat 8 w.toNat ++ bytesOfNat 8 (~~~ w).toNat)]).answer 0#32 []
  t.setSvc { t.svc with code := actCode w, result := 1, detail := 0, action := w, actionCsn := t.dict.csn }

theorem writeAction_goes {s : State} {who : Principal} {w : W64} (h : s.actionGoes who w) (hw : actCode w ≠ 0) :
    s.writeAction who w = (s.actionTaken w).actionRuns w := by
  obtain ⟨hphase, htrip, hcheck⟩ := h
  have hrun : ¬ s.svc.phase < 2 := Nat.not_lt.mpr hphase
  have hopen : ¬ (decide (s.svc.phase < 2) || s.svc.tripped && decide (actCode w ≠ 1)) = true := by
    rcases htrip with ht | hc
    · simp [hrun, ht]
    · simp [hrun, hc]
  unfold State.writeAction
  rw [if_neg hopen]
  simp only [hcheck, ne_eq, not_true_eq_false, if_false, State.actionStarts, hw]
  rfl

section
variable {s : State} {who : Principal} {t : TileId} {d : ADie}

theorem unitNamed_tile (s : State) (code : Nat) (t : TileId) : s.unitNamed code 1 t.val = some (.tile t) := by
  simp [State.unitNamed, t.isLt]

theorem exec_coldReset_goes (h : s.actionGoes who (actionWord 1 0 0 0)) :
    exec (.coldReset who) s = .next (s.actionTaken (actionWord 1 0 0 0)).coldReset := by
  obtain ⟨hc, -⟩ := actionWord_fields (c := 1) (k := 0) (n := 0) (a := 0) (by decide) (by decide) (by decide) (by decide)
  simp only [exec_coldReset, execColdReset, writeAction_goes h (by omega), State.actionRuns, hc]

theorem exec_bringBack_tile_goes (h : s.actionGoes who (actionWord 0x11 1 t.val 0)) :
    exec (.bringBack who (.tile t)) s = .next ((s.actionTaken (actionWord 0x11 1 t.val 0)).actReturn (.tile t)) := by
  obtain ⟨hc, hk, hn, -⟩ := actionWord_fields (c := 0x11) (k := 1) (n := t.val) (a := 0) (by decide) (by decide)
    (by omega) (by decide)
  simp only [exec_bringBack, execBringBack, unitKind, unitNumber, writeAction_goes h (by omega), State.actionRuns, hc, hk, hn,
    unitNamed_tile]

theorem exec_retest_goes (h : s.actionGoes who (actionWord 0x12 1 t.val 0)) :
    exec (.retest who t) s = .next ((s.actionTaken (actionWord 0x12 1 t.val 0)).actReturn (.tile t)) := by
  obtain ⟨hc, hk, hn, -⟩ := actionWord_fields (c := 0x12) (k := 1) (n := t.val) (a := 0) (by decide) (by decide)
    (by omega) (by decide)
  simp only [exec_retest, execRetest, writeAction_goes h (by omega), State.actionRuns, hc, hk, hn, unitNamed_tile]

theorem exec_dieReset_goes (h : s.actionGoes who (actionWord 0x13 0 d.val 0)) :
    exec (.dieReset who d) s = .next ((s.actionTaken (actionWord 0x13 0 d.val 0)).actDieReset d.val) := by
  obtain ⟨hc, -, hn, -⟩ := actionWord_fields (c := 0x13) (k := 0) (n := d.val) (a := 0) (by decide) (by decide)
    (by omega) (by decide)
  simp only [exec_dieReset, execDieReset, writeAction_goes h (by omega), State.actionRuns, hc, hn]

end

/-! ### The resets of a tile clear SR_SEED -/

theorem loadSettings_srSeed (s : State) (t : TileId) : (s.loadSettings.tile t).srSeed = (s.tile t).srSeed := by
  simp only [State.loadSettings, State.tile]
  exact foldl_modify_srSeed _ (by intros; rfl) _ _ t

theorem bringUp_srSeed (s : State) (t : TileId) : (s.bringUp.tile t).srSeed = (s.tile t).srSeed := by
  have hrails : ∀ u : State, u.tiles = s.tiles → (u.loadSettings.raiseRails.tile t).srSeed = (s.tile t).srSeed := by
    intro u hu
    rw [tile_of_tiles (State.raiseRails_frame _).1, loadSettings_srSeed, tile_of_tiles hu]
  unfold State.bringUp
  dsimp only
  split
  · exact congrArg Tile.srSeed (tile_of_tiles rfl t)
  · split
    · rw [tile_of_tiles (State.bootFails_frame _).1]
      exact hrails _ rfl
    · exact hrails _ rfl

theorem coldReset_srSeed (s : State) (t : TileId) : (s.coldReset.tile t).srSeed = 0#64 :=
  (bringUp_srSeed s.coldClear t).trans rfl

/-- A tile that is reset keeps its health record, its physical place and its repairs (R521). -/
def Tile.serviceReset (x : Tile) : Tile :=
  { Tile.reset with
    health := .outOfService, qmask := x.qmask, phys := x.phys, repairRow := x.repairRow, repairCol := x.repairCol,
    failRows0 := x.failRows0, failRows1 := x.failRows1, failCols0 := x.failCols0, failCols1 := x.failCols1 }

theorem resetUnit_tile_tiles (s : State) (t : TileId) :
    (s.resetUnit (.tile t)).tiles = (s.setTile t (s.tile t).serviceReset).tiles := by
  simp [State.resetUnit, State.tileCeiling, Tile.serviceReset]

theorem resetUnit_tile_srSeed (s : State) (t : TileId) : ((s.resetUnit (.tile t)).tile t).srSeed = 0#64 := by
  rw [tile_of_tiles (resetUnit_tile_tiles s t), State.setTile_tile_self]
  rfl

theorem actReturn_tile_srSeed (s : State) (t : TileId) : ((s.actReturn (.tile t)).tile t).srSeed = 0#64 := by
  unfold State.actReturn
  rw [tile_of_tiles (State.setSvc_frame ..).1]
  exact resetUnit_tile_srSeed _ t

/-- The units of a die are tiles, controllers and ports; the reset of none of them brings back a seed. -/
theorem resetUnit_dieUnit_srSeed {d : Nat} {v : ServiceUnit} (hv : v ∈ dieUnits d) (s : State) (t : TileId)
    (h : (s.tile t).srSeed = 0#64) : ((s.resetUnit v).tile t).srSeed = 0#64 := by
  cases v with
  | tile w =>
    by_cases hw : t = w
    · rw [hw]
      exact resetUnit_tile_srSeed s w
    · rw [tile_of_tiles (resetUnit_tile_tiles s w), State.setTile_tile_ne _ _ _ _ hw, h]
  | ctrl c => exact h
  | port p => rwa [State.resetUnit, tile_of_tiles (State.setPort_frame ..).1]
  | core c | group l g | link l => simp [dieUnits] at hv

theorem tile_mem_dieUnits {t : TileId} {d : Nat} (h : tileDie t = d) : ServiceUnit.tile t ∈ dieUnits d := by
  simp [dieUnits, h]

/-- One step of a fold over the die's units that brings a fact about, and steps that keep it. -/
theorem foldl_reaches {σ β : Type} (P : σ → Prop) (f : σ → β → σ) {l : List β} {x : β} (hx : x ∈ l) (hreach : ∀ s, P (f s x))
    (hkeep : ∀ y ∈ l, ∀ s, P s → P (f s y)) (s : σ) : P (l.foldl f s) := by
  obtain ⟨before, after, rfl⟩ := List.append_of_mem hx
  rw [List.foldl_append, List.foldl_cons]
  exact List.foldlRecOn after f (hreach _) fun u hu y hy => hkeep y (by simp [hy]) u hu

theorem dieClears_srSeed (s : State) {t : TileId} {d : Nat} (h : tileDie t = d) : ((s.dieClears d).tile t).srSeed = 0#64 := by
  unfold State.dieClears
  refine foldl_reaches (fun u : State => (u.tile t).srSeed = 0#64) _ (tile_mem_dieUnits h) (fun u => ?_) (fun v hv u hu => ?_) _
  · exact resetUnit_tile_srSeed _ t
  · refine resetUnit_dieUnit_srSeed hv _ t ?_
    rwa [tile_of_tiles (State.unitLeft_frame ..).1]

theorem actDieReset_srSeed (s : State) {t : TileId} {d : Nat} (h : tileDie t = d) : ((s.actDieReset d).tile t).srSeed = 0#64 := by
  have htiles : (s.actDieReset d).tiles = ((s.dieLeaves d).dieClears d).tiles := by simp [State.actDieReset]
  rw [tile_of_tiles htiles]
  exact dieClears_srSeed _ h

/-- Settles O15: SEED, a core's write with the tile free and held, the resets of the tile one by one, admission, completion and
clear. -/
theorem seedRegister : Obligations.SeedRegister := by
  intro t s
  exact ⟨fun h rest v hh hv => ⟨_, exec_seed t s, start_seed_srSeed hh hv⟩,
    fun v hk => ⟨_, exec_srSeedWrite_free hk v, congrArg Tile.srSeed (State.setTile_tile_self ..)⟩,
    fun v hk => ⟨_, exec_srSeedWrite_held hk v, rfl⟩, rfl,
    fun who hgo => ⟨_, exec_coldReset_goes hgo, coldReset_srSeed _ t⟩,
    fun who hgo _ => ⟨_, exec_bringBack_tile_goes hgo, actReturn_tile_srSeed _ t⟩,
    fun who hgo => ⟨_, exec_retest_goes hgo, actReturn_tile_srSeed _ t⟩,
    fun who d hgo hd => ⟨_, exec_dieReset_goes hgo, actDieReset_srSeed _ hd⟩,
    launch_srSeed s t, completionRecord_srSeed s t, tileClearEnd_srSeed s t⟩

end Sys2Proof.Machine

/-! ## Bring-up of the arrays, the stacks and the caches

What array self-test leaves of a tile, what the end of a stack's initialisation and of the cache sweep leave of the controllers and
of core 0, and the statement O53 settled from them. -/

namespace Sys2Proof.Machine

/-! ### PHASE (R514) -/

theorem enterMem_phase {s : State} (h : s.memPhase = true) : s.enterMem.svc.phase = 3 := by
  have hphase : s.svc.phase = 2 ∨ s.svc.phase = 3 := by
    simp only [State.memPhase, Bool.and_eq_true, Bool.or_eq_true, decide_eq_true_eq] at h
    obtain ⟨⟨-, hphase⟩, -⟩ := h
    exact hphase
  unfold State.enterMem
  split
  · rfl
  · omega

/-! ### Array self-test (R96, R97) -/

/-- The bits of a mask of four flags. -/
theorem maskOfFour_getLsbD (usable : Nat → Bool) (q : Fin 4) :
    (BitVec.ofNat 4 ((List.range 4).foldl (fun a i => if usable i then a + 2 ^ i else a) 0)).getLsbD q.val = usable q.val := by
  have hstep : ∀ a i, (if usable i then a + 2 ^ i else a) = a + 2 ^ i * (usable i).toNat := by
    intro a i
    cases usable i <;> simp
  have hbits : ∀ b0 b1 b2 b3 : Bool, ∀ q : Fin 4,
      (BitVec.ofNat 4 (0 + 2 ^ 0 * b0.toNat + 2 ^ 1 * b1.toNat + 2 ^ 2 * b2.toNat + 2 ^ 3 * b3.toNat)).getLsbD q.val
        = ![b0, b1, b2, b3] q := by decide
  simp only [hstep]
  exact (hbits (usable 0) (usable 1) (usable 2) (usable 3) q).trans (by fin_cases q <;> rfl)

theorem failedIn_le_three (w : W64) (found : List (Fin 2 × Fin 66)) (half : Nat) : failedIn w found half ≤ 3 := Nat.min_le_left ..

/-- A half has at most two failures exactly where its count of two bits is not 3 (R100). -/
theorem ofNat_failed_ne_three {n : Nat} (h : n ≤ 3) : BitVec.ofNat 2 n ≠ 3#2 ↔ n ≤ 2 := by
  interval_cases n <;> decide

/-- R96: a quadrant is usable while neither its rows nor its columns hold more than two failures. -/
theorem tested_qmask (x : Tile) (f : SelfTest) (q : Fin 4) :
    (x.tested f).qmask.getLsbD q.val =
      (decide ((if q.val < 2 then (x.tested f).failRows0 else (x.tested f).failRows1) ≠ 3#2)
        && decide ((if q.val % 2 = 0 then (x.tested f).failCols0 else (x.tested f).failCols1) ≠ 3#2)) := by
  simp only [Tile.tested, maskOfFour_getLsbD]
  fin_cases q <;> simp [ofNat_failed_ne_three, failedIn_le_three]

theorem selfTested_tiles (s : State) (t : TileId) (f : SelfTest) :
    (s.selfTested t f false).tiles
      = (s.setTile t { (s.tile t).tested f with health := healthOf ((s.tile t).tested f).qmask f.outside }).tiles := by
  simp [State.selfTested]

/-- The command runs at bring-up on a tile that no kernel holds and that is not being returned (R99, R521). -/
theorem exec_arraySelfTest_bringUp {s : State} {t : TileId} (hs : s.memPhase = true) (hk : (s.tile t).kernel = none)
    (hr : ServiceUnit.tile t ∉ s.svc.returning) (f : SelfTest) :
    exec (.arraySelfTest t f) s = .next (s.enterMem.selfTested t f false) := by
  simp [exec_arraySelfTest, execArraySelfTest, hk, hr, hs]

/-- What array self-test at bring-up leaves in the tile, in the other tiles and in PHASE. -/
theorem arraySelfTest_gives {s : State} {t : TileId} (hs : s.memPhase = true) (hk : (s.tile t).kernel = none)
    (hr : ServiceUnit.tile t ∉ s.svc.returning) (f : SelfTest) :
    Gives (.arraySelfTest t f) s fun u =>
      u.tile t = { (s.tile t).tested f with health := healthOf ((s.tile t).tested f).qmask f.outside }
      ∧ (∀ v, v ≠ t → u.tile v = s.tile v) ∧ u.svc.phase = 3 := by
  have htile : ∀ v, s.enterMem.tile v = s.tile v := tile_of_tiles (State.enterMem_frame s).1
  have htested := tile_of_tiles (selfTested_tiles s.enterMem t f)
  refine ⟨_, exec_arraySelfTest_bringUp hs hk hr f, ?_, fun v hv => ?_, ?_⟩
  · rw [htested, State.setTile_tile_self, htile]
  · rw [htested, State.setTile_tile_ne _ _ _ _ hv, htile]
  · have hsvc : (s.enterMem.selfTested t f false).svc = s.enterMem.svc := by simp
    rw [hsvc, enterMem_phase hs]

/-! ### Initialisation of a stack (R216) -/

theorem verifyRuntime_ctrls (s : State) : s.verifyRuntime.mem.ctrls = s.mem.ctrls := by
  unfold State.verifyRuntime
  dsimp only
  split
  · rfl
  · split
    · rfl
    · simp [MemS.store]

section
variable {s : State} {c : Ctrl}

/-- The state once a stack has passed, before the runtime is verified: the stack is in service. -/
def State.stackPassed (s : State) (c : Ctrl) : State :=
  { s.enterMem with mem := (s.enterMem.mem.initStack c.val).setCtrl c.val { s.mem.ctrl c.val with state := 0 } }

/-- The state once a stack has failed: it is out of service, and software is told. -/
def State.stackFailed (s : State) (c : Ctrl) : State :=
  (s.enterMem.stackOut c.val).unitLeft (ctrlKind c.val) (ctrlUnit c.val) 2

/-- A stack in initialisation that is not being returned passes at bring-up (R216, R521). -/
theorem exec_stackInitComplete_passed (hs : s.memPhase = true) (hc : (s.mem.ctrl c.val).state = 1)
    (hr : ServiceUnit.ctrl c ∉ s.svc.returning) : exec (.stackInitComplete c true) s = .next
      (if c.val ≥ 16 && (s.stackPassed c).mem.deepReady then (s.stackPassed c).verifyRuntime else s.stackPassed c) := by
  simp [exec_stackInitComplete, execStackInitComplete, State.stackPassed, hs, hc, hr]

/-- A stack in initialisation that is not being returned fails at bring-up (R216, R521). -/
theorem exec_stackInitComplete_failed (hs : s.memPhase = true) (hc : (s.mem.ctrl c.val).state = 1)
    (hr : ServiceUnit.ctrl c ∉ s.svc.returning) : exec (.stackInitComplete c false) s = .next
      (if c.val ≥ 16 then (s.stackFailed c).bootFails else s.stackFailed c) := by
  simp [exec_stackInitComplete, execStackInitComplete, State.stackFailed, hs, hc, hr]

theorem stackPassed_inService (s : State) (c : Ctrl) : ((s.stackPassed c).mem.ctrl c.val).state = 0 := by
  rw [State.stackPassed, MemS.setCtrl_ctrl_self]

theorem stackFailed_mem (hc : (s.mem.ctrl c.val).state = 1) :
    (s.stackFailed c).mem = { s.mem.setCtrl c.val { s.mem.ctrl c.val with state := 2 } with mapGen := s.mem.mapGen + 1#32 } := by
  simp [State.stackFailed, State.stackOut, hc]

/-- A stack that passes enters service, whatever comes of the runtime. -/
theorem stackInitComplete_passed (hs : s.memPhase = true) (hc : (s.mem.ctrl c.val).state = 1)
    (hr : ServiceUnit.ctrl c ∉ s.svc.returning) :
    Gives (.stackInitComplete c true) s fun u => (u.mem.ctrl c.val).state = 0 := by
  refine ⟨_, exec_stackInitComplete_passed hs hc hr, ?_⟩
  split
  · rw [MemS.ctrl, verifyRuntime_ctrls]
    exact stackPassed_inService s c
  · exact stackPassed_inService s c

/-- A stack that fails stays out, and a deep one ends bring-up with the alert (R515). -/
theorem stackInitComplete_failed (hs : s.memPhase = true) (hc : (s.mem.ctrl c.val).state = 1)
    (hr : ServiceUnit.ctrl c ∉ s.svc.returning) :
    Gives (.stackInitComplete c false) s fun u => (u.mem.ctrl c.val).state = 2 ∧ u.mem.mapGen = s.mem.mapGen + 1#32
      ∧ (16 ≤ c.val → u.svc.alert = true) := by
  refine ⟨_, exec_stackInitComplete_failed hs hc hr, ?_⟩
  have hmem : (if c.val ≥ 16 then (s.stackFailed c).bootFails else s.stackFailed c).mem = (s.stackFailed c).mem := by
    split <;> rfl
  beta_reduce
  rw [hmem, stackFailed_mem hc]
  refine ⟨congrArg MemCtrl.state (MemS.setCtrl_ctrl_self ..), rfl, fun hdeep => ?_⟩
  rw [if_pos hdeep]
  rfl

end

/-! ### The cache sweep and the start of core 0 (R203, R387) -/

/-- The state once the caches are swept. -/
def State.cachesSwept (s : State) : State :=
  { s.enterMem with cache := { s.enterMem.cache with swept := true, sweepStep := 32768 } }

theorem exec_cacheSweepComplete_bringUp {s : State} (hs : s.memPhase = true) :
    exec .cacheSweepComplete s = .next s.cachesSwept.startRuntime := by
  simp [exec_cacheSweepComplete, execCacheSweepComplete, State.cachesSwept, hs]

theorem startRuntime_unverified {s : State} (h : s.cust.verified = false) : s.startRuntime = s := by
  simp [State.startRuntime, h]

/-- R387: with the runtime verified and the caches swept, core 0 starts at the runtime's entry. -/
theorem startRuntime_verified {s : State} (hv : s.cust.verified = true) (hc : s.cache.swept = true) (hp : s.svc.phase = 3) :
    s.startRuntime.svc.phase = 4 ∧ s.startRuntime.core 0 = (s.core 0).start 0 (BitVec.ofNat 64 s.cust.entry) := by
  have hstart : s.startRuntime
      = (s.setCore 0 ((s.core 0).start 0 (BitVec.ofNat 64 s.cust.entry))).setSvc { s.svc with phase := 4 } := by
    simp [State.startRuntime, hv, hc, hp]
  rw [hstart]
  exact ⟨rfl, State.setCore_core_self ..⟩

theorem cacheSweepComplete_gives {s : State} (hs : s.memPhase = true) :
    Gives .cacheSweepComplete s fun u => u.cache.swept = true ∧ u.cache.sweepStep = 32768
      ∧ (s.cust.verified = false → u.svc.phase = 3 ∧ u.cores = s.cores)
      ∧ (s.cust.verified = true → u.svc.phase = 4 ∧ (u.core 0).state = 1 ∧ (u.core 0).pc = BitVec.ofNat 64 s.cust.entry) := by
  have hcust : s.cachesSwept.cust = s.cust := by simp [State.cachesSwept]
  have hphase : s.cachesSwept.svc.phase = 3 := enterMem_phase hs
  have hcache : s.cachesSwept.startRuntime.cache = s.cachesSwept.cache := by simp
  refine ⟨_, exec_cacheSweepComplete_bringUp hs, ?_, ?_, fun hv => ?_, fun hv => ?_⟩
  · rw [hcache]
    rfl
  · rw [hcache]
    rfl
  · rw [startRuntime_unverified (hcust ▸ hv)]
    exact ⟨hphase, by simp [State.cachesSwept]⟩
  · obtain ⟨hfour, hcore⟩ := startRuntime_verified (hcust ▸ hv) rfl hphase
    rw [hcore, hcust]
    exact ⟨hfour, rfl, rfl⟩

/-- Settles O53: self-test, a stack that passes and one that fails, and the end of the sweep. -/
theorem memoryBringUp : Obligations.MemoryBringUp := by
  intro s hs
  refine ⟨fun t f hk hr => (arraySelfTest_gives hs hk hr f).mono ?_,
    fun c hc hr => ⟨stackInitComplete_passed hs hc hr, stackInitComplete_failed hs hc hr⟩, cacheSweepComplete_gives hs⟩
  rintro u ⟨htile, hothers, hphase⟩
  rw [htile]
  exact ⟨tested_qmask (s.tile t) f, rfl, hothers, hphase⟩

end Sys2Proof.Machine

/-! ## The sequencer's instructions

What the instructions that the sequencer executes itself leave of their tile, and the statements O6, O8 and O9 settled from it. -/

namespace Sys2Proof.Machine

/-! ### Scalar registers (R146) -/

/-- What the scalar operations leave: the frame of a sequencer instruction, the next word, one register written. -/
def SeqWrites (t : TileId) (k : Tok) (s : State) (sd : Nat) (v : W64) (u : State) : Prop :=
  SeqOnly t k s u ∧ (u.tile t).pc = (s.tile t).pc + 8 ∧ (s.tile t).wrote (u.tile t) sd v

section
variable {s : State} {t : TileId} {k : Tok}

theorem seqAlu_gives {c : Instr} {op : AluOp} {sd sa sb : Nat} (hk : (s.tile t).goes k)
    (hc : exec c s = .next (s.seqAlu t k op sd sa sb)) :
    Gives c s (SeqWrites t k s sd (op.eval ((s.tile t).sreg sa) ((s.tile t).sreg sb))) :=
  gives_of hc (run_wr s t k sd (fun x => op.eval (x.sreg sa) (x.sreg sb)) _ hk (by simp only [takeTok_sreg]))

end

/-- Settles O6: each is `run_wr` at its own value. -/
theorem scalarArithmetic : Obligations.ScalarArithmetic := by
  refine ⟨fun t k sd sa sb s hk => ?_, fun t k sd sa imm s hk => ?_⟩
  · simp only [List.forall_mem_cons]
    exact ⟨seqAlu_gives (op := .add) hk rfl, seqAlu_gives (op := .sub) hk rfl, seqAlu_gives (op := .and) hk rfl,
      seqAlu_gives (op := .or) hk rfl, seqAlu_gives (op := .xor) hk rfl, seqAlu_gives (op := .shl) hk rfl,
      seqAlu_gives (op := .shr) hk rfl, seqAlu_gives (op := .mul) hk rfl, List.forall_mem_nil _⟩
  · simp only [List.forall_mem_cons]
    exact ⟨gives_of rfl (run_wr s t k sd (fun x => x.sreg sa + imm.signExtend 64) _ hk (by simp only [takeTok_sreg])),
      gives_of rfl (run_wr s t k sd (fun _ => imm.signExtend 64) _ hk rfl),
      gives_of rfl (run_wr s t k sd (fun x => imm ++ (x.sreg sd).truncate 32) _ hk (by simp only [takeTok_sreg])),
      List.forall_mem_nil _⟩

/-! ### Branches and JMP (R146) -/

section
variable {s : State} {t : TileId} {k : Tok} {imm : W32}

/-- R146: a branch target at or past SRAM_BYTES, or below 0, refuses the branch. -/
theorem branchCheck_outside {x : Tile} (h : (x.pc : Int) + imm.toInt * 8 < 0 ∨ (x.sramBytes : Int) ≤ x.pc + imm.toInt * 8) :
    x.branchCheck imm = some stBounds := by
  unfold Tile.branchCheck
  exact if_pos (Bool.or_eq_true_iff.2 (h.imp decide_eq_true decide_eq_true))

theorem seqJmp_outside (hr : (s.tile t).seqReady k = true)
    (h : ((s.tile t).pc : Int) + imm.toInt * 8 < 0 ∨ ((s.tile t).sramBytes : Int) ≤ (s.tile t).pc + imm.toInt * 8) :
    ((s.seqJmp t k imm).tile t).stoppedWith 0x01030000#32 (s.tile t).pc := by
  obtain ⟨u, hu, hstop, -⟩ := run_bad s t k stBounds (branchTarget (s.tile t).pc imm).toNat id hr
  rw [State.seqJmp, branchCheck_outside h, hu]
  exact hstop

variable {c : Cond} {sa sb : Nat}

theorem seqBranch_taken (h : c.holds ((s.tile t).sreg sa) ((s.tile t).sreg sb) = true) :
    s.seqBranch t k c sa sb imm = s.seqJmp t k imm := if_pos h

theorem seqBranch_untaken (h : c.holds ((s.tile t).sreg sa) ((s.tile t).sreg sb) ≠ true) :
    s.seqBranch t k c sa sb imm = s.seqPlain t k id := if_neg h

/-- A branch instruction of the model with the proposition that the spec gives as its condition (R146). -/
def IsBranch (s : State) (t : TileId) (k : Tok) (imm : W32) (i : Instr) (P : Prop) : Prop :=
  (P → exec i s = .next (s.seqJmp t k imm)) ∧ (¬ P → exec i s = .next (s.seqPlain t k id))

theorem isBranch_of_cond {i : Instr} {P : Prop} (hi : exec i s = .next (s.seqBranch t k c sa sb imm))
    (hP : c.holds ((s.tile t).sreg sa) ((s.tile t).sreg sb) = true ↔ P) : IsBranch s t k imm i P :=
  ⟨fun h => hi.trans (congrArg _ (seqBranch_taken (hP.2 h))), fun h => hi.trans (congrArg _ (seqBranch_untaken (hP.not.2 h)))⟩

/-- The four branches and JMP with their conditions. -/
theorem isBranch_all (s : State) (t : TileId) (k : Tok) (sa sb : Fin 32) (imm : W32) :
    ∀ e ∈ ([(.beq t k sa sb imm, (s.tile t).sreg sa = (s.tile t).sreg sb),
        (.bne t k sa sb imm, (s.tile t).sreg sa ≠ (s.tile t).sreg sb),
        (.blt t k sa sb imm, ((s.tile t).sreg sa).toInt < ((s.tile t).sreg sb).toInt),
        (.bltu t k sa sb imm, ((s.tile t).sreg sa).toNat < ((s.tile t).sreg sb).toNat),
        (.jmp t k imm, True)] : List (Instr × Prop)), IsBranch s t k imm e.1 e.2 := by
  simp only [List.forall_mem_cons]
  exact ⟨isBranch_of_cond (c := .eq) rfl decide_eq_true_iff, isBranch_of_cond (c := .ne) rfl decide_eq_true_iff,
    isBranch_of_cond (c := .lt) rfl BitVec.slt_iff_toInt_lt, isBranch_of_cond (c := .ltu) rfl BitVec.ult_iff_toNat_lt,
    ⟨fun _ => rfl, fun h => absurd trivial h⟩, List.forall_mem_nil _⟩

end

/-- Settles O8: a branch is a jump or goes on, and a jump whose target lies outside is refused. -/
theorem branchAndJump : Obligations.BranchAndJump := by
  refine ⟨fun t k sa sb imm s hk e he => ?_, fun t k sa sb imm s hr hout e he hP => ?_⟩
  · obtain ⟨htaken, huntaken⟩ := isBranch_all s t k sa sb imm e he
    exact ⟨fun hP g hg hin => gives_of (htaken hP) (jmp_run s t k imm hk g hg hin),
      fun hP => gives_of (huntaken hP) (seqOnly_id s t k _ hk)⟩
  · exact gives_next ((isBranch_all s t k sa sb imm e he).1 hP) (seqJmp_outside hr hout)

/-! ### NOP, HALT, FENCE, FLAGS and TALLY (R41, R146, R162, R174) -/

section
variable {s : State} {t : TileId} {k : Tok}

theorem halt_gives (hk : (s.tile t).goes k) :
    Gives (.halt t k) s fun u => TileOnly t s u ∧ (s.tile t).tokensMove (u.tile t) k ∧ (u.tile t).seq = .draining
      ∧ (u.tile t).pc = (s.tile t).pc + 8
      ∧ { u.tile t with seq := (s.tile t).seq, pc := (s.tile t).pc, tokens := (s.tile t).tokens } = s.tile t := by
  obtain ⟨u, hu, honly, htok, hpc, m, htile⟩ :=
    run_gen s t k ((s.tile t).pc + 8) (fun x => { x with seq := .draining }) hk (fun _ => rfl) (fun _ _ => nofun)
  obtain ⟨m', htake⟩ := takeTok_back (s.tile t) k
  refine gives_of rfl ⟨u, hu, honly, htok, ?_, hpc, ?_⟩
  · rw [htile]
  · rw [htile, htake]

theorem fence_gives {scope : Scope} {qmask : BitVec 3} (hk : (s.tile t).goes k)
    (hc : (s.tile t).covers qmask (s.tile t).appended = false) :
    Gives (.fence t k scope qmask) s fun u =>
      SeqOnly t k s u ∧ (u.tile t).sregs = (s.tile t).sregs ∧ (u.tile t).pc = (s.tile t).pc + 8 :=
  gives_of (congrArg Host.Outcome.next (if_neg (hc ▸ Bool.false_ne_true))) (seqOnly_id s t k _ hk)

/-- A FENCE waits while an instruction it covers has not completed (R162). -/
theorem exec_fence_waits {scope : Scope} {qmask : BitVec 3} (hc : (s.tile t).covers qmask (s.tile t).appended = true) :
    exec (.fence t k scope qmask) s = .next s := congrArg Host.Outcome.next (if_pos hc)

theorem flags_gives (hk : (s.tile t).goes k) (sd : Fin 32) (clear : BitVec 7) :
    Gives (.flags t k sd clear) s fun u =>
      TileOnly t s u ∧ (s.tile t).tokensMove (u.tile t) k ∧ (u.tile t).pc = (s.tile t).pc + 8
        ∧ (s.tile t).wrote (u.tile t) sd ((s.tile t).xflags.zeroExtend 64)
        ∧ (u.tile t).xflags = (s.tile t).xflags &&& ~~~ clear
        ∧ { u.tile t with pc := (s.tile t).pc, sregs := (s.tile t).sregs, tokens := (s.tile t).tokens,
                          xflags := (s.tile t).xflags } = s.tile t := by
  obtain ⟨u, hu, honly, htok, hpc, m, htile⟩ := run_gen s t k ((s.tile t).pc + 8)
    (fun x => { x.setSreg sd (x.xflags.zeroExtend 64) with xflags := x.xflags &&& ~~~ clear }) hk (fun _ => rfl)
    (fun y hy => by simp [hy])
  obtain ⟨m', htake⟩ := takeTok_back (s.tile t) k
  rw [htake] at htile
  refine gives_of rfl ⟨u, hu, honly, htok, hpc, fun q => ?_, ?_, ?_⟩
  · rw [htile, ← Tile.setSreg_sreg]
    exact Tile.sreg_of_sregs rfl q
  · rw [htile]
  · rw [htile]
    rfl

/-- The state whose tally of the tile's die has run on, before a TALLY reads it (R41). -/
def State.tallied (s : State) (t : TileId) : State :=
  { s with tocsin := s.tocsin.tick s.fresh (tileDie t), fresh := s.fresh + 1 }

theorem tally_tick (q : TocsinS) (draw die : Nat) :
    (q.tick draw die).tally die = q.tally die + BitVec.ofNat 64 (Config.tallyStep draw) := Map.get_set_self ..

/-- A tally that does not wrap does not go back. -/
theorem tally_le_tick {q : TocsinS} {draw die : Nat} (h : (q.tally die).toNat + Config.tallyStep draw < 2 ^ 64) :
    (q.tally die).toNat ≤ ((q.tick draw die).tally die).toNat := by
  rw [tally_tick]
  generalize Config.tallyStep draw = d at h ⊢
  rw [BitVec.toNat_add, BitVec.toNat_ofNat]
  omega

theorem exec_tally_goes (hk : (s.tile t).goes k) (sd : Fin 32) : exec (.tally t k sd) s
    = .next ((s.tallied t).seqPlain t k fun x => x.setSreg sd ((s.tallied t).tocsin.tally (tileDie t))) :=
  congrArg Host.Outcome.next (if_pos hk.1)

theorem tally_gives (hk : (s.tile t).goes k) (sd : Fin 32) :
    Gives (.tally t k sd) s fun u =>
      (s.tile t).wrote (u.tile t) sd (u.tocsin.tally (t.val / 64)) ∧ (u.tile t).pc = (s.tile t).pc + 8
        ∧ (s.tile t).tokensMove (u.tile t) k
        ∧ ((s.tocsin.tally (t.val / 64)).toNat + Config.tallyStep s.fresh < 2 ^ 64 →
          (s.tocsin.tally (t.val / 64)).toNat ≤ (u.tocsin.tally (t.val / 64)).toNat)
        ∧ (∀ t', t' ≠ t → u.tile t' = s.tile t')
        ∧ { u.tile t with pc := (s.tile t).pc, sregs := (s.tile t).sregs, tokens := (s.tile t).tokens } = s.tile t := by
  obtain ⟨u, hu, ⟨honly, htok, hframe⟩, hpc, hwrote⟩ :=
    run_wr (s.tallied t) t k sd (fun _ => (s.tallied t).tocsin.tally (tileDie t)) _ hk rfl
  have htocsin : u.tocsin = (s.tallied t).tocsin := by rw [show u = _ from honly]; rfl
  refine gives_of (exec_tally_goes hk sd) ⟨u, hu, ?_, hpc, htok, fun h => ?_, fun t' ht' => ?_, hframe⟩
  · rw [htocsin]
    exact hwrote
  · rw [htocsin]
    exact tally_le_tick h
  · rw [show u = _ from honly]
    exact State.setTile_tile_ne _ _ _ _ ht'

end

/-- Settles O9: each instruction by its own lemma. -/
theorem sequencerControl : Obligations.SequencerControl :=
  ⟨fun _ _ _ hk =>
      ⟨gives_of rfl (seqOnly_id _ _ _ _ hk), halt_gives hk, fun _ _ => ⟨fence_gives hk, exec_fence_waits⟩, flags_gives hk⟩,
    fun _ _ sd _ hk => tally_gives hk sd⟩

end Sys2Proof.Machine

/-! ## The engines

How the head of an engine's queue starts, is refused or meets a parity error, what the matrix and the vector instructions leave of
their tile, how a tile's program ends, and the statements O10 to O14 settled from it. -/

namespace Sys2Proof.Machine

/-! ### The head of a queue that may start (R133, R136) -/

section
variable {s : State} {t : TileId} {e : Engine} {h : QEntry} {rest : List QEntry} {want : EngOp → Bool}

/-- The tile with its head taken, and that instruction running, is `begun`. -/
theorem taken_running (x : Tile) (e : Engine) (h : QEntry) (rest : List QEntry) :
    { x.taken e h rest with running := (x.taken e h rest).running ++ [(e, h)] } = x.begun e h rest := by
  simp [Tile.begun, Tile.taken]

theorem start_passed (hh : (s.tile t).headIs e h rest) (hw : want h.op = true)
    (hc : ((s.tile t).taken e h rest).opCheck h.op = none) :
    s.start t e want = (s.putTile t (((s.tile t).taken e h rest).opRun e h s.fresh)).drawn := by
  simp only [State.start, startHead_of_headIs hh hw, hc]

theorem start_refused {st : W32} (hh : (s.tile t).headIs e h rest) (hw : want h.op = true)
    (hc : ((s.tile t).taken e h rest).opCheck h.op = some st) :
    s.start t e want = s.putTile t (((s.tile t).taken e h rest).fail st h.pc h.idx) := by
  simp only [State.start, startHead_of_headIs hh hw, hc]

/-- A refusal comes before any parity error is found. -/
theorem startParity_refused {st : W32} (hh : (s.tile t).headIs .matrix h rest) (hw : want h.op = true)
    (hc : ((s.tile t).taken .matrix h rest).opCheck h.op = some st) :
    s.startParity t want = s.putTile t (((s.tile t).taken .matrix h rest).fail st h.pc h.idx) := by
  simp only [State.startParity, startHead_of_headIs hh hw, hc]

theorem startParity_mma {o : MmaOp} (hh : (s.tile t).headIs .matrix h rest) (ho : h.op = .mma o)
    (hc : ((s.tile t).taken .matrix h rest).mmaCheck o = none) :
    s.startParity t EngOp.isMma = s.parityError t h o.bank ((s.tile t).taken .matrix h rest) := by
  have hhead := startHead_of_headIs (want := EngOp.isMma) hh (by rw [ho]; rfl)
  have hcheck : ((s.tile t).taken .matrix h rest).opCheck (.mma o) = none := hc
  simp only [State.startParity, hhead, ho, hcheck]

/-- What an operation does with the tile on which it runs as the instruction `h`, MSUB apart. -/
def Tile.opEffect (y : Tile) (h : QEntry) (op : EngOp) (draw : Nat) : Tile :=
  match op with
  | .mma o => y.mmaRun o
  | .drain o => if o.viaVector then y.drainStart h o else y.drainRun o draw
  | .sclr first count => y.clearScale first count
  | .ssto a => y.store a.toNat y.scaleImage
  | .seed v => { y with srSeed := v }
  | .vec op a => y.vecRun op a
  | .msub _ => y

theorem opRun_taken (x : Tile) (rest : List QEntry) (draw : Nat) {op : EngOp} (ho : h.op = op) (hm : op.isMsub = false) :
    (x.taken e h rest).opRun e h draw = (x.begun e h rest).opEffect h op draw := by
  unfold Tile.opRun Tile.opEffect
  rw [taken_running, ho]
  cases op with
  | msub a => exact nomatch hm
  | _ => rfl

/-- An instruction that passes its checks starts: its effect lands on the tile with it running. -/
theorem gives_effect {c : Instr} {op : EngOp} {P : State → Prop} (hexec : exec c s = .next (s.start t e want))
    (hh : (s.tile t).headIs e h rest) (ho : h.op = op) (hw : want op = true) (hm : op.isMsub = false)
    (hc : ((s.tile t).taken e h rest).opCheck op = none)
    (hP : P (s.putTile t (((s.tile t).begun e h rest).opEffect h op s.fresh)).drawn) : Gives c s P := by
  refine gives_next (hexec.trans (congrArg _ ?_)) hP
  rw [start_passed hh (ho ▸ hw) (ho ▸ hc), opRun_taken _ _ _ ho hm]

end

/-! ### MMA (R147) -/

@[simp] theorem Tile.setBank_bank_self (x : Tile) (b : Bool) : x.setBank b (x.bank b) = x := by cases b <;> rfl

@[simp] theorem Tile.raise_zero (x : Tile) : x.raise 0#7 = x := by simp [Tile.raise]

/-- An MMA changes the cells and the tag of its bank, and flags. -/
theorem mmaRun_frame (y : Tile) (o : MmaOp) :
    ∃ c i f, y.mmaRun o = (y.setBank o.bank { y.bank o.bank with cells := c, int := i }).raise f := by
  have hkeep : ∃ c i f, y = (y.setBank o.bank { y.bank o.bank with cells := c, int := i }).raise f :=
    ⟨(y.bank o.bank).cells, (y.bank o.bank).int, 0#7, by rw [Tile.raise_zero]; exact (y.setBank_bank_self o.bank).symm⟩
  unfold Tile.mmaRun
  dsimp only
  split
  · split
    · exact hkeep
    · exact ⟨_, _, _, rfl⟩
  · exact hkeep

/-- R71, R76: an MMA with K = 0 or with no problem enabled changes nothing. -/
theorem mmaRun_idle {y : Tile} {o : MmaOp} (h : o.k = 0 ∨ enabledProblems o.shape o.pmask = []) : y.mmaRun o = y := by
  have hidle : (o.k = 0 || (enabledProblems o.shape o.pmask).isEmpty) = true := by simpa using h
  unfold Tile.mmaRun
  dsimp only
  split
  · rw [if_pos hidle]
  · rfl

/-! ### DRAIN (R148) -/

/-- What of a tile a drain to tile SRAM leaves. -/
def Tile.outsideDrain (x : Tile) : Tile := { x with sram := [], xheld := [], scale := [], scaleNan := 0#64, xflags := 0#7 }

@[simp] theorem outsideDrain_store (x : Tile) (a : Nat) (bs : List Byte) : (x.store a bs).outsideDrain = x.outsideDrain := rfl
@[simp] theorem outsideDrain_raise (x : Tile) (f : BitVec 7) : (x.raise f).outsideDrain = x.outsideDrain := rfl
@[simp] theorem outsideDrain_track (x : Tile) (e : Nat) (vs : List W32) : (x.track e vs).outsideDrain = x.outsideDrain := rfl

theorem outsideDrain_drainWrite (x : Tile) (o : DrainOp) (r : OpRec) (f : Fmt) (int : Bool) (seed : W64) (raised : BitVec 7) (i : Nat)
    (row : Row) : (x.drainWrite o r f int seed raised i row).1.outsideDrain = x.outsideDrain := by
  unfold Tile.drainWrite
  refine foldl_keep (fun st : Tile × BitVec 7 => st.1.outsideDrain) _ (fun st p => ?_) _ _
  simp only [outsideDrain_raise, outsideDrain_store]
  split
  · rw [outsideDrain_track]
  · rfl

theorem outsideDrain_drainRun (x : Tile) (o : DrainOp) (draw : Nat) : (x.drainRun o draw).outsideDrain = x.outsideDrain := by
  unfold Tile.drainRun
  dsimp only
  split
  · exact drainUndefined_keep Tile.outsideDrain (fun _ _ _ => rfl) ..
  · split
    · rfl
    · refine foldl_keep (fun st : Tile × BitVec 7 => st.1.outsideDrain) _ (fun st i => ?_) _ _
      rw [outsideDrain_drainWrite, outsideDrain_raise]

theorem drainRun_frame (y : Tile) (o : DrainOp) (draw : Nat) :
    { y.drainRun o draw with sram := y.sram, xheld := y.xheld, scale := y.scale, scaleNan := y.scaleNan, xflags := y.xflags } = y :=
  congrArg (fun z : Tile => { z with sram := y.sram, xheld := y.xheld, scale := y.scale, scaleNan := y.scaleNan, xflags := y.xflags })
    (outsideDrain_drainRun y o draw)

/-! ### SCLR and SSTO (R150) -/

theorem clearScale_scale (y : Tile) (first count e : Nat) :
    (y.clearScale first count).scale.get 0#32 e = if first ≤ e ∧ e < first + count then 0#32 else y.scale.get 0#32 e := by
  split
  next h =>
    obtain ⟨i, rfl⟩ := Nat.exists_eq_add_of_le h.1
    exact (Map.get_setRunBy_in (fun _ => 0#32) y.scale first (List.replicate count 0#32) i
      (by rw [List.length_replicate]; omega)).trans (List.getElem_replicate _)
  next h => exact Map.get_setRunBy_out _ _ _ _ _ _ (by rw [List.length_replicate]; omega)

theorem clearScale_scaleNan (y : Tile) {first count e : Nat} (hc : count ≤ 64) (he : e < 64) :
    (y.clearScale first count).scaleNan.getLsbD e
      = (!(decide (first ≤ e) && decide (e < first + count)) && y.scaleNan.getLsbD e) := by
  have hmask : ((BitVec.allOnes 64 >>> (64 - count)) <<< first).getLsbD e = (decide (first ≤ e) && decide (e < first + count)) := by
    rw [BitVec.getLsbD_shiftLeft, BitVec.getLsbD_ushiftRight, BitVec.getLsbD_allOnes]
    by_cases hf : first ≤ e
    · simp only [he, hf, decide_true, Bool.true_and, Nat.not_lt.2 hf, decide_false, Bool.not_false]
      exact decide_eq_decide.2 (by omega)
    · simp [hf, Nat.not_le.1 hf]
  simp only [Tile.clearScale, BitVec.getLsbD_and, BitVec.getLsbD_not, hmask, he, decide_true, Bool.true_and]
  exact Bool.and_comm ..

theorem scaleImage_length (x : Tile) : x.scaleImage.length = 264 := by
  have hlen (l : List W32) : (l.flatMap fun w => bytesOfNat 4 w.toNat).length = 4 * l.length := by
    induction l with
    | nil => rfl
    | cons w l ih => rw [List.flatMap_cons, List.length_append, ih, bytesOfNat_length, List.length_cons]; omega
  rw [Tile.scaleImage, List.length_append, hlen, bytesOfNat_length, Map.getRun, Map.getRunBy_length]

theorem sstoCheck_none {x : Tile} {a : W64} (ha : a.toNat % 32 = 0) (hb : a.toNat + 264 ≤ x.sramBytes) : x.sstoCheck a = none :=
  fs_none _ (by simp [ha, hb, Tile.within])

theorem store_frame (y : Tile) (a : Nat) (bs : List Byte) : { y.store a bs with sram := y.sram, xheld := y.xheld } = y := rfl

/-- Settles O10: each instruction passes its checks, and its effect is the lemma of its own above. -/
theorem matrixStarts : Obligations.MatrixStarts := by
  intro t s h rest hh x y
  refine ⟨fun o ho hc => ?mma, fun o ho hc => ⟨fun hv => ?drainToSram, fun hv => ?drainViaVector⟩,
    fun first count ho hcount => ?sclr, fun a ho ha hb => ?ssto, fun v ho => ?seed⟩
  case mma =>
    exact gives_effect rfl hh ho rfl rfl hc ⟨rfl, mmaRun_frame y o, 
      fun hidle => congrArg (fun z => (s.putTile t z).drawn) (mmaRun_idle hidle)⟩
  case drainToSram =>
    have heffect : y.opEffect h (.drain o) s.fresh = y.drainRun o s.fresh := if_neg (hv ▸ Bool.false_ne_true)
    exact gives_effect rfl hh ho rfl rfl hc ⟨_, congrArg (fun z => (s.putTile t z).drawn) heffect, rfl, drainRun_frame y o s.fresh⟩
  case drainViaVector =>
    have heffect : y.opEffect h (.drain o) s.fresh = y.drainStart h o := if_pos hv
    exact gives_effect rfl hh ho rfl rfl hc (congrArg (fun z => (s.putTile t z).drawn) heffect)
  case sclr =>
    exact gives_effect rfl hh ho rfl rfl rfl
      ⟨_, rfl, clearScale_scale y first count, fun e he => clearScale_scaleNan y hcount he, rfl⟩
  case ssto =>
    have himage : y.scaleImage = x.scaleImage := rfl
    refine gives_effect rfl hh ho rfl rfl (sstoCheck_none ha hb) ⟨_, rfl, ?_, fun b hb => ?_, store_frame y _ _⟩
    · have hload := Tile.load_store_self y a.toNat y.scaleImage
      rwa [scaleImage_length] at hload
    · exact Tile.load_store_out y _ _ _ _ (by rw [scaleImage_length]; omega)
  case seed => exact gives_effect rfl hh ho rfl rfl rfl rfl

/-! ### The vector operations (R151, R152) -/

section
variable {y : Tile} {op : VOp} {a : VecArgs}

theorem source_of_ne (y : Tile) {v : Nat} (h : v ≠ 62) : y.source v = y.vreg v := if_neg h

theorem writeVd_register (hvd : a.vd ≠ 63) (row : Row) : y.writeVd op a row
    = { y with vregs := y.vregs.set zeroRow a.vd (if op = .vsel then row else maskedRow 128 (y.mreg a.msk) (y.vreg a.vd) row) } :=
  if_neg hvd

theorem set_vreg (y : Tile) (d v : Nat) (row : Row) :
    ({ y with vregs := y.vregs.set zeroRow d row } : Tile).vreg v = if v = d then row else y.vreg v := Map.get_set ..

/-- A vector operation that writes a register under the mask, and no flag. -/
theorem writeVd_masked (hvd : a.vd ≠ 63) (hsel : op ≠ .vsel) (row : Row) :
    { y.writeVd op a row with vregs := y.vregs } = y
      ∧ ∀ v, (y.writeVd op a row).vreg v = if v = a.vd then maskedRow 128 (y.mreg a.msk) (y.vreg v) row else y.vreg v := by
  rw [writeVd_register hvd, if_neg hsel]
  refine ⟨rfl, fun v => ?_⟩
  rw [set_vreg]
  split
  next h => rw [h]
  next => rfl

theorem writeVd_select (hvd : a.vd ≠ 63) (row : Row) (v : Nat) :
    (y.writeVd .vsel a row).vreg v = if v = a.vd then row else y.vreg v := by
  rw [writeVd_register hvd, if_pos rfl, set_vreg]

theorem setMreg_mreg (y : Tile) (d m : Nat) (v : BitVec 128) : (y.setMreg d v).mreg m = if m = d ∧ m ≠ 0 then v else y.mreg m := by
  by_cases hm : m = 0
  · simp [Tile.mreg, hm]
  · by_cases hd : d = 0
    · simp [Tile.mreg, Tile.setMreg, hm, hd]
    · simp [Tile.mreg, Tile.setMreg, hm, hd, Map.get_set]

end

/-- The operations that write the lanes of `laneResult` under their mask, and raise no flag. -/
def VOp.lanewise : List VOp :=
  [.vadd, .vsub, .vmul, .vfma, .vfnma, .vmin, .vmax, .vabs, .vneg, .vdiv, .vsqrt, .vbcast, .vrsum, .vrmax, .viadd, .visub, .vimul,
    .vand, .vor, .vxor, .vshl, .vshr, .vshra, .vcvtif, .vmov]

/-- The operations that write a mask register. -/
def VOp.masking : List VOp := [.vcmplt, .vcmpeq, .vclass]

section
variable {y : Tile} {op : VOp} {a : VecArgs}

theorem vecRun_lanewise (ho : op ∈ VOp.lanewise) (hr : a.readsVdin op = false) : y.vecRun op a
    = y.writeVd op a (laneResult 7 op a.rm a.imm a.sa (y.source a.va) (y.source a.vb) (y.source a.vc)) := by
  unfold Tile.vecRun
  simp only [hr, Bool.false_eq_true, if_false]
  cases op with
  | vst | vld | vsel | vcvtfi | vcmplt | vcmpeq | vclass => exact absurd ho (by decide)
  | _ => rfl

theorem vecRun_masking (ho : op ∈ VOp.masking) (hr : a.readsVdin op = false) : y.vecRun op a
    = y.setMreg a.md ((y.mreg a.md &&& ~~~ y.mreg a.msk)
        ||| (maskOf 128 (laneMask op a.imm (y.source a.va) (y.source a.vb)) &&& y.mreg a.msk)) := by
  unfold Tile.vecRun
  simp only [hr, Bool.false_eq_true, if_false]
  cases op with
  | vcmplt | vcmpeq | vclass => rfl
  | _ => exact absurd ho (by decide)

theorem vecRun_vsel (hr : a.readsVdin .vsel = false) : y.vecRun .vsel a
    = y.writeVd .vsel a (selectRow 128 (y.mreg a.msk) (y.source a.va) (y.source a.vb)) := by
  unfold Tile.vecRun
  simp only [hr, Bool.false_eq_true, if_false]

theorem vecRun_vcvtfi (hr : a.readsVdin .vcvtfi = false) :
    ∃ f, y.vecRun .vcvtfi a = (y.writeVd .vcvtfi a ((y.source a.va).map fun v => (cvtToInt a.rm v).1)).raise f := by
  unfold Tile.vecRun
  simp only [hr, Bool.false_eq_true, if_false, List.map_map]
  exact ⟨_, rfl⟩

/-- An operation that does not read VDIN finds its sources in their registers (R149). -/
theorem laneResult_source (hr : a.readsVdin op = false) (ho : op ∈ VOp.lanewise) :
    laneResult 7 op a.rm a.imm a.sa (y.source a.va) (y.source a.vb) (y.source a.vc)
      = laneResult 7 op a.rm a.imm a.sa (y.vreg a.va) (y.vreg a.vb) (y.vreg a.vc) := by
  cases op with
  | vst | vld | vsel | vcvtfi | vcmplt | vcmpeq | vclass => exact absurd ho (by decide)
  | _ =>
    simp only [VecArgs.readsVdin, Bool.or_eq_false_iff, decide_eq_false_iff_not] at hr
    simp only [laneResult, source_of_ne, hr, not_false_eq_true, ne_eq]

theorem laneMask_source (hr : a.readsVdin op = false) (ho : op ∈ VOp.masking) :
    laneMask op a.imm (y.source a.va) (y.source a.vb) = laneMask op a.imm (y.vreg a.va) (y.vreg a.vb) := by
  cases op with
  | vcmplt | vcmpeq | vclass =>
    simp only [VecArgs.readsVdin, Bool.or_eq_false_iff, decide_eq_false_iff_not] at hr
    simp only [laneMask, source_of_ne, hr, not_false_eq_true, ne_eq]
  | _ => exact absurd ho (by decide)

end

theorem exec_vecCommand (t : TileId) (op : VOp) (s : State) :
    exec (vecCommand t op) s = .next (s.start t .vector (EngOp.isVec op)) := by cases op <;> rfl

/-- Settles O11: the operations by what they write, lanes under the mask, mask bits, or one of two sources. -/
theorem vectorStarts : Obligations.VectorStarts := by
  intro t s h rest op a hh ho hc y va vb vc
  refine ⟨?starts, fun hr hvd e he hop => ?lanewise, fun hr e he hop => ?masking, fun hr hvd => ⟨?vsel, ?vcvtfi⟩⟩
  case starts =>
    exact gives_effect (exec_vecCommand t op s) hh ho (decide_eq_true rfl) rfl hc rfl
  case lanewise =>
    obtain ⟨o, hmem, rfl⟩ := List.mem_map.1
      (show e ∈ VOp.lanewise.map fun o => (o, laneResult 7 o a.rm a.imm a.sa va vb vc) from he)
    subst hop
    rw [vecRun_lanewise hmem hr, laneResult_source hr hmem]
    exact writeVd_masked hvd (fun hsel => absurd (hsel ▸ hmem) (by decide)) _
  case masking =>
    obtain ⟨o, hmem, rfl⟩ := List.mem_map.1 (show e ∈ VOp.masking.map fun o => (o, laneMask o a.imm va vb) from he)
    subst hop
    rw [vecRun_masking hmem hr, laneMask_source hr hmem]
    refine ⟨rfl, fun m => ?_⟩
    rw [setMreg_mreg]
    split
    next hm => rw [hm.1]
    next => rfl
  case vsel =>
    rintro rfl v
    obtain ⟨hva, hvb⟩ : a.va ≠ 62 ∧ a.vb ≠ 62 := by simpa [VecArgs.readsVdin] using hr
    rw [vecRun_vsel hr, writeVd_select hvd, source_of_ne y hva, source_of_ne y hvb]
  case vcvtfi =>
    rintro rfl v
    have hva : a.va ≠ 62 := by simpa [VecArgs.readsVdin] using hr
    obtain ⟨f, hrun⟩ := vecRun_vcvtfi (y := y) hr
    rw [hrun, source_of_ne y hva]
    exact (writeVd_masked hvd (by decide) _).2 v

/-! ### Refusals and parity errors (R92, R136) -/

theorem fail_running {x : Tile} (h : x.stopped = false) (st : W32) (pc cut : Nat) : x.fail st pc cut
    = { x.cutQueues cut with seq := .stopped, stop := st, failPc := pc, ownStop := true, waiting := none, stopDue := none } :=
  if_neg (h ▸ Bool.false_ne_true)

theorem fail_stoppedWith {x : Tile} (h : x.stopped = false) (st : W32) (pc cut : Nat) : (x.fail st pc cut).stoppedWith st pc := by
  rw [fail_running h]
  exact ⟨rfl, rfl, rfl, rfl⟩

/-- A part of a tile that no queue, engine, descriptor or byte of tile SRAM belongs to. -/
def Aside {α : Type} (g : Tile → α) : Prop :=
  ∀ (x : Tile) mq vq kq run dr vd ds sr xh, g { x with
    matrixQ := mq, vectorQ := vq, moveQ := kq, running := run, drains := dr, vdin := vd, descs := ds, sram := sr, xheld := xh } = g x

/-- Storing a tile leaves every such part of it, also where the tile has just stopped (R136). -/
theorem putTile_aside {α : Type} (g : Tile → α) (s : State) (t : TileId) (x : Tile)
    (hg : Aside g := by unfold Aside; intros; rfl) : g ((s.putTile t x).tile t) = g x :=
  putTile_stop g (fun _ _ _ => hg _ _ _ _ _ _ _ _ _ _) (fun _ => hg _ _ _ _ _ _ _ _ _ _) (fun _ _ => hg _ _ _ _ _ _ _ _ _ _) s t x

theorem putTile_stoppedWith {x : Tile} {st : W32} {pc : Nat} (h : x.stoppedWith st pc) (s : State) (t : TileId) :
    ((s.putTile t x).tile t).stoppedWith st pc :=
  (putTile_aside (fun x => x.stoppedWith st pc) s t x).mpr h

theorem foldl_markStop_get (st : W32) {t : TileId} (l : List TileId) (hl : t ∉ l) (m : Map Tile) :
    (l.foldl (markStop st) m).get Tile.reset t.val = m.get Tile.reset t.val := by
  induction l generalizing m with
  | nil => rfl
  | cons u l ih =>
    obtain ⟨hu, hl⟩ := not_or.1 (List.mem_cons.not.1 hl)
    rw [List.foldl_cons, ih hl, markStop_get _ _ _ _ hu]

theorem not_mem_kernelMates (s : State) (t : TileId) : t ∉ s.kernelMates t := by
  unfold State.kernelMates
  split <;> simp

/-- The tile that is stored: as it is, or, where it has stopped, settled, and with its fault dropped if it stopped just now. -/
theorem putTile_tile_self (s : State) (t : TileId) (x : Tile) : (s.putTile t x).tile t
    = if x.stopped then (if !(s.tile t).stopped then x.dropFault else x).settle s.fresh else x := by
  unfold State.putTile
  split
  · have hmates : t ∉ if (!(s.tile t).stopped && x.ownStop) = true then s.kernelMates t else [] := by
      split
      · exact not_mem_kernelMates s t
      · exact List.not_mem_nil
    exact (foldl_markStop_get x.stop _ hmates _).trans (Map.get_set_self ..)
  · exact State.setTile_tile_self ..

theorem settle_matrixQ {x : Tile} (h : x.matrixQ = []) (draw : Nat) : (x.settle draw).matrixQ = [] := by
  unfold Tile.settle
  split
  · rfl
  · exact h

theorem putTile_matrixQ_nil {x : Tile} (h : x.matrixQ = []) (s : State) (t : TileId) : ((s.putTile t x).tile t).matrixQ = [] := by
  rw [putTile_tile_self]
  split
  · refine settle_matrixQ ?_ _
    split <;> exact h
  · exact h

/-- The tile that a parity error in a bank leaves before it is stored (R92). -/
def Tile.parityHit (x : Tile) (h : QEntry) (bank : Bool) : Tile :=
  { ((x.setBank bank { x.bank bank with poisoned := true }).raise flagPar).fail stParity h.pc h.idx with
    matrixQ := [], health := .outOfService }

section
variable {s : State} {t : TileId} {h : QEntry} {rest : List QEntry}

/-- The records of a parity error change no tile. -/
theorem parityError_tile (s : State) (t : TileId) (h : QEntry) (bank : Bool) (x : Tile) :
    (s.parityError t h bank x).tile t = (s.putTile t (x.parityHit h bank)).tile t := by
  have htiles : (s.parityError t h bank x).tiles = (s.putTile t (x.parityHit h bank)).tiles := by
    unfold State.parityError
    simp only [when_tiles, State.raise_frame, State.tileChanged_frame, State.unitLeft_frame, ite_self]
    rfl
  exact tile_of_tiles htiles t

theorem parityHit_eq {x : Tile} (hx : x.stopped = false) (h : QEntry) (bank : Bool) : x.parityHit h bank
    = { ((x.setBank bank { x.bank bank with poisoned := true }).raise flagPar).cutQueues h.idx with
        seq := .stopped, stop := stParity, failPc := h.pc, ownStop := true, waiting := none, stopDue := none, matrixQ := [],
        health := .outOfService } := by
  have hraised : ((x.setBank bank { x.bank bank with poisoned := true }).raise flagPar).stopped = false := by cases bank <;> exact hx
  rw [Tile.parityHit, fail_running hraised]

theorem parity_gives {o : MmaOp} (hh : (s.tile t).headIs .matrix h rest) (hs : (s.tile t).stopped = false) (ho : h.op = .mma o)
    (hc : ((s.tile t).taken .matrix h rest).mmaCheck o = none) :
    Gives (.mma t true) s fun u =>
      ((u.tile t).bank o.bank).poisoned = true ∧ (u.tile t).xflags = (s.tile t).xflags ||| 0x40#7
        ∧ (u.tile t).matrixQ = [] ∧ (u.tile t).stoppedWith 0x07020001#32 h.pc ∧ (u.tile t).health = .outOfService
        ∧ (u.tile t).bank (!o.bank) = (s.tile t).bank (!o.bank) ∧ (u.tile t).sregs = (s.tile t).sregs := by
  refine gives_next (congrArg Host.Outcome.next (startParity_mma hh ho hc)) ?_
  have htaken : ((s.tile t).taken .matrix h rest).stopped = false := by simpa [Tile.stopped, Tile.taken] using hs
  rw [parityError_tile]
  have hhit := parityHit_eq htaken h o.bank
  refine ⟨?_, ?_, putTile_matrixQ_nil rfl s t, putTile_stoppedWith ?_ s t, ?_, ?_, ?_⟩
  · rw [putTile_aside (fun x => (x.bank o.bank).poisoned), hhit]
    cases o.bank <;> rfl
  · rw [putTile_aside Tile.xflags, hhit]
    cases o.bank <;> simp [Tile.raise, Tile.setBank, Tile.cutQueues, Tile.taken, flagPar]
  · rw [hhit]
    exact ⟨rfl, rfl, rfl, rfl⟩
  · rw [putTile_aside Tile.health, hhit]
  · rw [putTile_aside (fun x => x.bank !o.bank), hhit]
    cases o.bank <;> simp [Tile.bank, Tile.raise, Tile.setBank, Tile.cutQueues, Tile.taken]
  · rw [putTile_aside Tile.sregs, hhit]
    cases o.bank <;> simp [Tile.raise, Tile.setBank, Tile.cutQueues, Tile.taken]

end

/-- Settles O12: a refusal comes first, with or without a parity error. -/
theorem engineRefusal : Obligations.EngineRefusal := by
  refine ⟨fun t s h rest st => ⟨fun o ho hh hc p => ?_, fun o ho hh hc p => ?_, fun op a ho hh hc => ?_, fun x hx => ?_⟩,
    fun t s h rest o hh hs ho hc => parity_gives hh hs ho hc⟩
  · refine congrArg Host.Outcome.next ?_
    cases p
    · exact start_refused hh (ho ▸ rfl) (ho ▸ hc)
    · exact startParity_refused hh (ho ▸ rfl) (ho ▸ hc)
  · refine congrArg Host.Outcome.next ?_
    cases p
    · exact start_refused hh (ho ▸ rfl) (ho ▸ hc)
    · exact startParity_refused hh (ho ▸ rfl) (ho ▸ hc)
  · exact (exec_vecCommand t op s).trans (congrArg _ (start_refused hh (ho ▸ decide_eq_true rfl) (ho ▸ hc)))
  · exact fail_stoppedWith hx st h.pc h.idx

/-! ### Fetch, MSUB and completion (R132, R138, R153) -/

section
variable {s : State} {t : TileId}

/-- A fetched engine word is appended while its queue has room (R132). -/
theorem exec_fetch_engine (hrun : (s.tile t).seq = .running) (hdue : (s.tile t).stopDue = none)
    (hin : (s.tile t).pc + 8 ≤ (s.tile t).sramBytes) {k : Tok} {e : Engine} {o : EngOp}
    (hd : decodeWord (s.tile t).sreg (s.tile t).word = .ok (k, .eng e o)) (hroom : ((s.tile t).queue e).length < 32) :
    exec (.instructionFetch t) s = .next (s.setTile t ((s.tile t).append e k o)) := by
  simp [exec_instructionFetch, execInstructionFetch, hrun, hdue, Tile.within, hin, hd, hroom]

/-- A fetched sequencer word is executed (R132). -/
theorem exec_fetch_sequencer (hrun : (s.tile t).seq = .running) (hdue : (s.tile t).stopDue = none)
    (hin : (s.tile t).pc + 8 ≤ (s.tile t).sramBytes) {k : Tok} {o : SeqOp}
    (hd : decodeWord (s.tile t).sreg (s.tile t).word = .ok (k, .seq o)) :
    exec (.instructionFetch t) s = .next (s.seqExec t k o) := by
  simp [exec_instructionFetch, execInstructionFetch, hrun, hdue, Tile.within, hin, hd]

theorem append_queue (x : Tile) (e : Engine) (k : Tok) (o : EngOp) : (x.append e k o).queue e
    = x.queue e ++ [{ idx := x.appended, pc := x.pc, tok := k, op := o }] := by cases e <;> rfl

@[simp] theorem Tile.halt_running (x : Tile) (st : W32) (pc cut : Nat) (own : Bool) : (x.halt st pc cut own).running = x.running := by
  unfold Tile.halt
  split <;> rfl

@[simp] theorem Tile.signal_running (x : Tile) (k : Tok) (pc cut : Nat) : (x.signal k pc cut).running = x.running := by
  unfold Tile.signal
  split
  · rfl
  · split
    · rfl
    · exact Tile.halt_running ..

/-- A completed instruction is no longer in its engine (R138). -/
theorem complete_running {x : Tile} {e : Engine} {r : QEntry} (hr : x.running.find? (fun q => q.2.idx = r.idx) = some (e, r)) :
    ∀ q ∈ (x.complete r.idx).running, q.2.idx ≠ r.idx := by
  simp only [Tile.complete, hr, Tile.signal_running]
  exact fun q hq => of_decide_eq_true (List.mem_filter.1 hq).2

/-- MSUB hands its descriptor on and is done with its queue (R153). -/
theorem msub_gives {h : QEntry} {rest : List QEntry} {a : W64} (hh : (s.tile t).headIs .move h rest) (ho : h.op = .msub a)
    (ha : a.toNat % 128 = 0) (hb : a.toNat + 128 ≤ (s.tile t).sramBytes) :
    Gives (.msub t) s fun u => u = (s.putTile t { (s.tile t).taken .move h rest with
      descs := (s.tile t).descs ++ [InFlight.submitted h a.toNat] }).drawn := by
  have hcheck : ((s.tile t).taken .move h rest).opCheck (.msub a) = none :=
    fs_none _ (by simp [Tile.within, Tile.taken, ha, hb])
  have hrun : ((s.tile t).taken .move h rest).opRun .move h s.fresh
      = { (s.tile t).taken .move h rest with descs := (s.tile t).descs ++ [InFlight.submitted h a.toNat] } := by
    simp [Tile.opRun, ho, Tile.taken]
  refine gives_next (congrArg Host.Outcome.next (start_passed hh (ho ▸ rfl) (ho ▸ hcheck))) ?_
  rw [hrun]

end

/-- Settles O13: what is fetched is appended or executed, MSUB hands on, and a completed instruction leaves. -/
theorem fetchSubmitComplete : Obligations.FetchSubmitComplete := by
  intro t s
  refine ⟨fun hrun hdue hin => ⟨fun k e o hd hroom => ?_, fun k o hd => ?_⟩, fun h rest a hh ho ha hb => msub_gives hh ho ha hb,
    fun e r hr hcan => ?_⟩
  · refine gives_next (exec_fetch_engine hrun hdue hin hd hroom) ⟨rfl, ?_, ?_⟩
    · rw [State.setTile_tile_self, append_queue]
    · rw [State.setTile_tile_self]
      rfl
  · exact gives_next (exec_fetch_sequencer hrun hdue hin hd) rfl
  · exact gives_next (congrArg Host.Outcome.next (if_pos hcan)) ⟨rfl, complete_running hr⟩

/-! ### The end of a tile's program (R174, R175) -/

section
variable {s : State} {t : TileId}

/-- A stop that is due is taken with its status at the PC, not as the tile's own (R174). -/
theorem takeStop_live {x : Tile} {st : W32} (hdue : x.stopDue = some st) (hlive : x.live = true) (hs : x.stopped = false) :
    x.takeStop = { x.cutQueues x.appended with
      seq := .stopped, stop := st, failPc := x.pc, ownStop := false, waiting := none, stopDue := none } := by
  simp [Tile.takeStop, hdue, hlive, Tile.halt, hs]

theorem tileStop_gives {st : W32} (hdue : (s.tile t).stopDue = some st) (hlive : (s.tile t).live = true)
    (hs : (s.tile t).stopped = false) :
    Gives (.tileStop t) s fun u => (u.tile t).seq = .stopped ∧ (u.tile t).stop = st ∧ (u.tile t).failPc = (s.tile t).pc
      ∧ (u.tile t).ownStop = false := by
  have hexec : exec (.tileStop t) s = .next (s.putTile t (s.tile t).takeStop) :=
    congrArg Host.Outcome.next (if_pos (by rw [hdue]; rfl))
  refine gives_next hexec ?_
  rw [takeStop_live hdue hlive hs]
  exact (putTile_aside (fun x => x.seq = .stopped ∧ x.stop = st ∧ x.failPc = (s.tile t).pc ∧ x.ownStop = false) s t _).mpr
    ⟨rfl, rfl, rfl, rfl⟩

end

/-- Settles O14: the stop that is due, the end of a program that has drained, and the tile clear. -/
theorem tileLifeCycle : Obligations.TileLifeCycle := by
  intro t s
  refine ⟨fun st hdue hlive hs => tileStop_gives hdue hlive hs, fun hseq hdrained => ?_, fun hseq => ?_⟩
  · exact gives_next (congrArg Host.Outcome.next (if_pos (by simp [hseq, hdrained]))) rfl
  · refine gives_next (congrArg Host.Outcome.next (if_pos hseq)) ⟨setTile_only _ _ _, ?_⟩
    rw [State.setTile_tile_self]
    exact ⟨rfl, rfl, fun _ => rfl, fun r => ite_self _, fun _ => rfl, fun r hr => if_neg hr, rfl, fun _ => rfl, rfl, rfl, fun _ => rfl,
      rfl, rfl, rfl, rfl⟩

end Sys2Proof.Machine

/-! ## Bells

What the operations of bells leave of the count that they are about, and the statement O16 settled from it. -/

namespace Sys2Proof.Machine

/-! ### SET and RING at the home (R164, R165, R167, R259) -/

section
variable {s : State} {b : Nat} {n : W64}

/-- The flam check changes no bell that is poisoned already (R164). -/
theorem bellCheck_poisoned (h : (s.bell b).poison = true) : s.bellCheck b = s := by
  simp [State.bellCheck, Bell.mismatched, h]

/-- A RING at a poisoned bell is dropped and counted (R164). -/
theorem ringBell_poisoned (h : (s.bell b).poison = true) (k : BitVec 3) (u : Byte) (sc : Scope) : s.ringBell b n k u sc = s.discard := by
  simp only [State.ringBell, bellCheck_poisoned h, h, if_true]

/-- A RING past all ones leaves all ones and SAT (R164). -/
theorem ringBell_saturates (h : (s.bell b).sound) (hn : 2 ^ 64 ≤ (s.bell b).count.toNat + n.toNat) (k : BitVec 3) (u : Byte)
    (sc : Scope) : ((s.ringBell b n k u sc).bell b).count = BitVec.allOnes 64 ∧ ((s.ringBell b n k u sc).bell b).sat = true := by
  have hcount : ((s.bell b).ring n k u sc).count = BitVec.allOnes 64 := if_pos hn
  have hsat : ((s.bell b).ring n k u sc).sat = true := Bool.or_eq_true_iff.2 (.inr (decide_eq_true hn))
  have hbell (c : Bool) : ((s.setBell b ((s.bell b).ring n k u sc)).when c fun s => s.bellFault b 1).bell b
      = (s.bell b).ring n k u sc := by
    cases c
    · exact State.setBell_bell_self ..
    · exact (raise_bell ..).trans (State.setBell_bell_self ..)
  simp only [State.ringBell, sound_check s b h, h.1, Bool.false_eq_true, if_false, hbell]
  exact ⟨hcount, hsat⟩

theorem setBellCount_free (h : (s.bell b).held = false) (v : W64) : s.setBellCount b v = s.setBell b ((s.bell b).set v) :=
  if_neg (h ▸ Bool.false_ne_true)

theorem setBellCount_held (h : (s.bell b).held = true) (v : W64) : s.setBellCount b v = s.discard := if_pos h

theorem set_sound (x : Bell) (v : W64) : (x.set v).sound := ⟨rfl, rfl⟩

/-- Soundness with any part of a bell that a MISMATCH leaves is kept by the evaluation of WAITs. -/
theorem stable_sound {P : Bell → Prop} (hP : ∀ x n, P x → P { x with mismatch := n }) : Stable fun x => P x ∧ x.sound := by
  refine ⟨fun x n h => ⟨hP x n h.1, h.2⟩, fun x h hm => ?_⟩
  obtain ⟨-, -, hcompl⟩ := h
  simp [Bell.mismatched, hcompl] at hm

theorem stable_count (v : W64) : Stable fun x => x.count = v := ⟨fun _ _ h => h, fun _ h _ => h⟩

/-- A batch of one RING by a core, at the bell's own die. -/
theorem batch_coreRing (s : State) (c : CoreId) (b : BellId) (n : W64) : s.batch (bellDie b.val) [.coreRing c b n]
    = (s.ringBell b.val n 2#3 (BitVec.ofNat 8 c.val) .package).evalWaits (bellDie b.val) := by
  simp [State.batch, State.batchSet, State.batchRing]

theorem batch_set (s : State) (b : BellId) (v : W64) :
    s.batch (bellDie b.val) [.set b v] = (s.setBellCount b.val v).evalWaits (bellDie b.val) := by
  simp [State.batch, State.batchSet, State.batchRing]

/-- In a batch the SET comes before the RING, whichever stands first (R259). -/
theorem batch_set_coreRing (s : State) (c : CoreId) (b : BellId) (n v : W64) {ops : List BellOp}
    (ho : ops = [.set b v, .coreRing c b n] ∨ ops = [.coreRing c b n, .set b v]) : s.batch (bellDie b.val) ops
    = ((s.setBellCount b.val v).ringBell b.val n 2#3 (BitVec.ofNat 8 c.val) .package).evalWaits (bellDie b.val) := by
  rcases ho with rfl | rfl <;> simp [State.batch, State.batchSet, State.batchRing]

end

section
variable {s : State} {b : BellId} {n v : W64} {c : CoreId}

theorem set_free_gives (h : (s.bell b).held = false) :
    Gives (.set b v) s fun u => (u.bell b).count = v ∧ (u.bell b).sat = false ∧ (u.bell b).sound := by
  refine gives_next (congrArg Host.Outcome.next (batch_set s b v)) ?_
  have hkeep := evalWaits_P (fun x => (x.count = v ∧ x.sat = false) ∧ x.sound) (stable_sound fun _ _ h => h)
    (s.setBellCount b.val v) (bellDie b.val) b (by
      rw [setBellCount_free h, State.setBell_bell_self]
      exact ⟨⟨rfl, rfl⟩, set_sound ..⟩)
  exact and_assoc.1 hkeep

theorem set_held_gives (h : (s.bell b).held = true) : Gives (.set b v) s fun u => (u.bell b).count = (s.bell b).count := by
  refine gives_next (congrArg Host.Outcome.next (batch_set s b v)) (evalWaits_P _ (stable_count _) _ _ _ ?_)
  rw [setBellCount_held h]
  rfl

theorem ring_gives (hsound : (s.bell b).sound) (hn : (s.bell b).count.toNat + n.toNat < 2 ^ 64) :
    Gives (.ringRegisterWrite c b n) s fun u => (u.bell b).count = (s.bell b).count + n ∧ (u.bell b).sound
      ∧ (u.bell b).sat = (s.bell b).sat ∧ (u.bell b).lkind = 2#3 ∧ (u.bell b).lrel = BitVec.ofNat 8 c.val
      ∧ (u.bell b).lscope = .package := by
  refine gives_next (congrArg Host.Outcome.next (batch_coreRing s c b n)) ?_
  obtain ⟨⟨hcount, hsat, hkind, hrel, hscope⟩, hsound'⟩ := evalWaits_P
    (fun x => (x.count = (s.bell b).count + n ∧ x.sat = (s.bell b).sat ∧ x.lkind = 2#3 ∧ x.lrel = BitVec.ofNat 8 c.val
      ∧ x.lscope = .package) ∧ x.sound) (stable_sound fun _ _ h => h)
    (s.ringBell b.val n 2#3 (BitVec.ofNat 8 c.val) .package) (bellDie b.val) b (by
      rw [ringBell_sound _ _ _ _ _ _ hsound hn, State.setBell_bell_self]
      exact ⟨⟨rfl, rfl, rfl, rfl, rfl⟩, hsound.1, rfl⟩)
  exact ⟨hcount, hsound', hsat, hkind, hrel, hscope⟩

theorem ring_saturates_gives (hsound : (s.bell b).sound) (hn : 2 ^ 64 ≤ (s.bell b).count.toNat + n.toNat) :
    Gives (.ringRegisterWrite c b n) s fun u => (u.bell b).count = BitVec.allOnes 64 ∧ (u.bell b).sat = true :=
  gives_next (congrArg Host.Outcome.next (batch_coreRing s c b n))
    (evalWaits_P (fun x => x.count = BitVec.allOnes 64 ∧ x.sat = true) ⟨fun _ _ h => h, fun _ h _ => h⟩ _ _ _
      (ringBell_saturates hsound hn _ _ _))

theorem ring_poisoned_gives (hp : (s.bell b).poison = true) :
    Gives (.ringRegisterWrite c b n) s fun u => (u.bell b).count = (s.bell b).count := by
  refine gives_next (congrArg Host.Outcome.next (batch_coreRing s c b n)) (evalWaits_P _ (stable_count _) _ _ _ ?_)
  rw [ringBell_poisoned hp]
  rfl

theorem batch_gives {die : ADie} {ops : List BellOp} (hdie : b.val / 4096 = die.val) (h : (s.bell b).held = false)
    (hn : v.toNat + n.toNat < 2 ^ 64) (ho : ops = [.set b v, .coreRing c b n] ∨ ops = [.coreRing c b n, .set b v]) :
    Gives (.bellBatch die ops) s fun u => (u.bell b).count = v + n ∧ (u.bell b).sound := by
  have hexec : exec (.bellBatch die ops) s = .next (s.batch (bellDie b.val) ops) := by
    rw [exec_bellBatch, execBellBatch, ← hdie]
    rfl
  have hset : (s.setBellCount b.val v).bell b.val = (s.bell b).set v := by
    rw [setBellCount_free h, State.setBell_bell_self]
  refine gives_next (hexec.trans (congrArg _ (batch_set_coreRing s c b n v ho))) 
    (evalWaits_P (fun x => x.count = v + n ∧ x.sound) (stable_sound fun _ _ h => h) _ _ _ ?_)
  rw [ringBell_sound _ _ _ _ _ _ (hset ▸ set_sound ..) (by rw [hset]; exact hn), State.setBell_bell_self, hset]
  exact ⟨rfl, rfl, rfl⟩

end

/-! ### RING, its firing, and WAIT, by a tile (R160, R161) -/

section
variable {s : State} {t : TileId} {k : Tok} {b i : Nat} {scope : Scope}

theorem running_of_ready {x : Tile} (h : x.seqReady k = true) : x.seq = .running := by
  simp only [Tile.seqReady, Bool.and_eq_true, decide_eq_true_eq] at h
  exact h.1.1

/-- A tile that has not stopped is stored as it is. -/
theorem putTile_going {x : Tile} (h : x.stopped = false) : s.putTile t x = s.setTile t x := if_neg (h ▸ Bool.false_ne_true)

theorem seqRing_goes {qmask : BitVec 3} {n : RingN} (hk : (s.tile t).seqReady k = true) (hb : s.localBell t i = some b)
    (hroom : (s.tile t).rings.length < 16) : s.seqRing t k i scope qmask n
    = s.setTile t { (s.tile t).takeTok k with
        pc := (s.tile t).pc + 8
        rings := (s.tile t).rings ++
          [{ bell := b, scope := scope, qmask := qmask, n := (s.tile t).ringN n, upto := (s.tile t).appended,
             pc := (s.tile t).pc, tok := k }] } := by
  simp only [State.seqRing, hk, hb, Bool.not_true, Bool.false_eq_true, if_false, Nat.not_le.2 hroom]
  exact putTile_going (by simp [Tile.stopped, running_of_ready hk])

/-- A posted RING that is due and whose bell is sound leaves its increment, as a release by its tile (R160). -/
theorem ringFire_gives {r : PostedRing} (hr : (s.tile t).dueRing = some r) (hsound : (s.bell r.bell).sound)
    (hn : (s.bell r.bell).count.toNat + r.n.toNat < 2 ^ 64) :
    Gives (.ringFire t) s fun u => (u.bell r.bell).count = (s.bell r.bell).count + r.n ∧ (u.bell r.bell).lkind = 1#3
      ∧ (u.bell r.bell).lrel = BitVec.ofNat 8 t.val ∧ (u.bell r.bell).lscope = r.scope := by
  have hexec : exec (.ringFire t) s = .next ((s.fireRing t).evalWaits (bellDie r.bell)) := by
    simp [exec_ringFire, execRingFire, State.batch, State.batchSet, State.batchRing, hr]
  refine gives_next hexec (evalWaits_P (fun x => x.count = (s.bell r.bell).count + r.n ∧ x.lkind = 1#3
    ∧ x.lrel = BitVec.ofNat 8 t.val ∧ x.lscope = r.scope) ⟨fun _ _ h => h, fun _ h _ => h⟩ _ _ _ ?_)
  simp only [State.fireRing, hr, putTile_bell, ringBell_sound _ _ _ _ _ _ hsound hn, State.setBell_bell_self, and_self]

/-- A WAIT that the tile at its PC makes of a bell. -/
def Tile.waitOn (x : Tile) (k : Tok) (b : Nat) (scope : Scope) (treg : Nat) : WaitRec :=
  { bell := b, scope := scope, thresh := x.sreg treg, pc := x.pc, tok := k }

/-- The tile that a WAIT leaves waiting. -/
def Tile.inWaitOn (x : Tile) (k : Tok) (b : Nat) (scope : Scope) (treg : Nat) : Tile :=
  { x.takeTok k with seq := .inWait, waiting := some (x.waitOn k b scope treg) }

theorem seqWait_goes {treg : Nat} (hk : (s.tile t).seqReady k = true) (hb : s.localBell t i = some b) :
    s.seqWait t k i scope treg = (s.setTile t ((s.tile t).inWaitOn k b scope treg)).evalWait t := by
  simp only [State.seqWait, hk, hb, Bool.not_true, Bool.false_eq_true, if_false]
  exact congrArg (State.evalWait · t) (putTile_going rfl)

theorem evalWait_waits {w : WaitRec} (hw : (s.tile t).waiting = some w) (hsound : (s.bell w.bell).sound)
    (hlt : (s.bell w.bell).count.toNat < w.thresh.toNat) : s.evalWait t = s := by
  simp only [State.evalWait, hw, sound_check _ _ hsound, hsound.1, Bool.false_eq_true, if_false, Nat.not_le.2 hlt]

theorem evalWait_done {w : WaitRec} (hw : (s.tile t).waiting = some w) (hsound : (s.bell w.bell).sound)
    (hle : w.thresh.toNat ≤ (s.bell w.bell).count.toNat) : s.evalWait t
    = (s.judge w.bell (tileAcquirer t) w.scope).putTile t ((s.tile t).waitDone w) := by
  have htile : (s.judge w.bell (tileAcquirer t) w.scope).tile t = s.tile t := tile_of_tiles (State.judge_frame ..).1 t
  simp only [State.evalWait, hw, sound_check _ _ hsound, hsound.1, Bool.false_eq_true, if_false, hle, if_true, htile]

/-- R161: a WAIT whose threshold the count has reached goes on at once. -/
theorem wait_goes_gives {bell : BitVec 12} {treg : Fin 32} (hk : (s.tile t).goes k) (hb : s.localBell t bell.toNat = some b)
    (hsound : (s.bell b).sound) (hle : ((s.tile t).sreg treg).toNat ≤ (s.bell b).count.toNat) :
    Gives (.wait t k bell scope treg) s fun u => (u.tile t).seq = .running ∧ (u.tile t).pc = (s.tile t).pc + 8
      ∧ (u.tile t).sregs = (s.tile t).sregs ∧ (u.bell b).count = (s.bell b).count := by
  obtain ⟨hready, hroom⟩ := hk
  have hdone := evalWait_done (s := s.setTile t ((s.tile t).inWaitOn k b scope treg)) (t := t)
    (w := (s.tile t).waitOn k b scope treg) (by rw [State.setTile_tile_self]; rfl) hsound hle
  refine gives_next (congrArg Host.Outcome.next ((seqWait_goes hready hb).trans hdone)) ?_
  have hstep : Tile.waitDone ((s.setTile t ((s.tile t).inWaitOn k b scope treg)).tile t)
      ((s.tile t).waitOn k b scope treg)
      = { (s.tile t).takeTok k with
          seq := .running, waiting := none, pc := (s.tile t).pc + 8,
          tokens := match k.signal with
            | none => ((s.tile t).takeTok k).tokens
            | some c => ((s.tile t).takeTok k).tokens.set 0 c.val (((s.tile t).takeTok k).tokens.get 0 c.val + 1) } := by
    rw [State.setTile_tile_self]
    exact Tile.signal_room _ _ _ _ hroom
  rw [hstep, putTile_going rfl]
  refine ⟨?_, ?_, ?_, ?_⟩
  · rw [State.setTile_tile_self]
  · rw [State.setTile_tile_self]
  · rw [State.setTile_tile_self]
    exact Tile.takeTok_sregs ..
  · exact judge_P _ (stable_count _) _ _ _ _ _ rfl

/-- R161: a WAIT whose threshold the count has not reached stops the sequencer. -/
theorem wait_waits_gives {bell : BitVec 12} {treg : Fin 32} (hk : (s.tile t).goes k) (hb : s.localBell t bell.toNat = some b)
    (hsound : (s.bell b).sound) (hlt : (s.bell b).count.toNat < ((s.tile t).sreg treg).toNat) :
    Gives (.wait t k bell scope treg) s fun u => (u.tile t).seq = .inWait ∧ (u.tile t).pc = (s.tile t).pc
      ∧ (u.tile t).sregs = (s.tile t).sregs ∧ (u.bell b).count = (s.bell b).count := by
  have hwaits := evalWait_waits (s := s.setTile t ((s.tile t).inWaitOn k b scope treg)) (t := t)
    (w := (s.tile t).waitOn k b scope treg) (by rw [State.setTile_tile_self]; rfl) hsound hlt
  refine gives_next (congrArg Host.Outcome.next ((seqWait_goes hk.1 hb).trans hwaits)) ?_
  rw [State.setTile_tile_self]
  exact ⟨rfl, Tile.takeTok_pc .., Tile.takeTok_sregs .., rfl⟩

end

/-- Settles O16: what the batch leaves of the bell rung or set is kept by the WAITs that it then evaluates. -/
theorem bellOperations : Obligations.BellOperations := by
  refine ⟨fun b s => ⟨fun v => ⟨set_free_gives, set_held_gives⟩, fun c n hs hn => ring_gives hs hn,
      fun c n hs hn => ring_saturates_gives hs hn, fun c n hp => ring_poisoned_gives hp,
      fun die c n v hdie hh hn ops ho => batch_gives hdie hh hn ho⟩,
    fun t s => ⟨fun k bell scope qmask n b hk hb hroom => ?_, fun r hr hs hn => ringFire_gives hr hs hn,
      fun k bell scope treg b hk hb hs => ⟨wait_goes_gives hk hb hs, wait_waits_gives hk hb hs⟩⟩⟩
  refine gives_next (congrArg Host.Outcome.next (seqRing_goes hk hb hroom)) ⟨setTile_only .., ?_⟩
  rw [State.setTile_tile_self]
  exact ⟨rfl, rfl, Tile.takeTok_sregs .., Tile.takeTok_sram ..⟩

end Sys2Proof.Machine

/-! ## Kernels

Admission, TERMINATE and the completion record, and the statement O17 settled from them. -/

namespace Sys2Proof.Machine

/-! ### Admission (R170, R173, R390) -/

/-- The kernel that a launch request enrols on tiles and bells. -/
def LaunchReq.kernel (r : LaunchReq) (m : Image) (ts : List TileId) (bs : List Nat) : Kernel :=
  { tag := r.tag, compl := r.compl, ctx := r.ctx, src := r.src, tiles := ts, bells := bs, draws := m.nearDraws ++ m.deepDraws,
    hostWindow := m.hostWindow, streams := m.streams, terminated := false, clearing := false }

/-- The state in which a kernel holds its pools and bells, before its tiles are placed. -/
def State.admitted (s : State) (r : LaunchReq) (m : Image) (ts : List TileId) (bs : List Nat) : State :=
  let s1 := { s.setKernel s.kern.nextKid (some (r.kernel m ts bs)) with
    mem := (m.nearDraws ++ m.deepDraws).foldl MemS.draw s.mem
    bells := bs.foldl (fun b i => b.modify Bell.reset i fun x => { x.set 0#64 with held := true }) s.bells
    xlat := { s.xlat with ctxs := s.xlat.ctxs.filter fun c => !(c.device = ctxDevice r.ctx && c.process = ctxProcess r.ctx) } }
  { s1 with kern := { s1.kern with nextKid := s.kern.nextKid + 1 } }

section
variable {s : State} {r : LaunchReq} {m : Image} {ts : List TileId} {bs : List Nat}

theorem enrol_tiled (hm : m.tileCount ≠ 0) : s.enrol r m ts bs
    = ts.zipIdx.foldl (fun u t => u.placeTile s.kern.nextKid r m t) (s.admitted r m ts bs) := if_neg hm

theorem enrol_kern (hm : m.tileCount ≠ 0) : (s.enrol r m ts bs).kern = (s.admitted r m ts bs).kern := by
  rw [enrol_tiled hm]
  exact foldl_kern _ (fun u t => (State.placeTile_frame ..).2.1) _ _

theorem enrol_bells (hm : m.tileCount ≠ 0) : (s.enrol r m ts bs).bells = (s.admitted r m ts bs).bells := by
  rw [enrol_tiled hm]
  exact foldl_bells _ (fun u t => (State.placeTile_frame ..).1) _ _

theorem admitted_kernel : (s.admitted r m ts bs).kernel s.kern.nextKid = some (r.kernel m ts bs) := Map.get_set_self ..

theorem enrol_tile_kernel (hm : m.tileCount ≠ 0) (t : TileId) :
    ((s.enrol r m ts bs).tile t).kernel = if t ∈ ts then some s.kern.nextKid else (s.tile t).kernel := by
  rw [enrol_tiled hm, place_all]
  simp only [zipIdx_mem]
  rfl

theorem enrol_bell_held (hm : m.tileCount ≠ 0) {b : Nat} (hb : b ∈ bs) :
    ((s.enrol r m ts bs).bell b).held = true ∧ ((s.enrol r m ts bs).bell b).count = 0#64 := by
  rw [bell_of_bells (enrol_bells hm)]
  exact bells_all (fun x => x.held = true ∧ x.count = 0#64) (fun x => { x.set 0#64 with held := true }) (fun _ => ⟨rfl, rfl⟩) bs s.bells
    b hb

end

/-- A request whose context, header and image pass is enrolled (R170). -/
theorem launchReq_admitted {s1 s2 s3 : State} {r : LaunchReq} {pt : List TileId} {pb : List BellId} {hdr : List Byte}
    {ts : List TileId} {bells : List Nat} (hctx : s1.launchCtx r.ctx = (s2, true))
    (hread : s2.readVirt 4 r.ctx r.image.toNat 128 3 = (s3, stOk, hdr))
    (hadm : s3.admission (Image.ofBytes hdr) pt pb = .ok (ts, bells)) :
    s1.launchReq r pt pb = s3.enrol r (Image.ofBytes hdr) ts bells := by
  simp only [State.launchReq, hctx, hread, hadm, Bool.not_true, Bool.false_eq_true, if_false, ne_eq, not_true_eq_false]

/-- The launch request of an entry of the launch queue (R390). -/
def LaunchReq.ofEntry (bs : List Byte) : LaunchReq :=
  { image := w64At bs 0x10, arg := w64At bs 0x18, tag := w64At bs 0x20, compl := (w64At bs 0x28).toNat, ctx := w32At bs 0x30,
    src := .queue }

theorem exec_launch_taken {s s1 : State} {bs : List Byte} (htake : s.lqTake 0 = (s1, some bs)) (pt : List TileId) (pb : List BellId) :
    exec (.launch pt pb) s = .next (s1.launchReq (.ofEntry bs) pt pb) := by
  simp only [exec_launch, execLaunch, htake]
  rfl

/-! ### TERMINATE (R174, R390) -/

section
variable {s s1 : State} {bs : List Byte}

/-- The kernels with a tag. -/
def State.tagged (s : State) (tag : W64) : List (Nat × Kernel) :=
  s.kern.kernels.filterMap fun e => match e.2 with
    | some k => if k.tag = tag then some (e.1, k) else none
    | none => none

theorem mem_tagged {tag : W64} {kid : Nat} {k : Kernel} : (kid, k) ∈ s.tagged tag ↔ (kid, some k) ∈ s.kern.kernels ∧ k.tag = tag :=
  mem_hits ..

theorem terminateTag_eq (s : State) (tag : W64) : s.terminateTag tag
    = ((s.tagged tag).foldl (fun s h => s.terminateOne h.1 h.2) s, (s.tagged tag).length) := rfl

theorem exec_terminate_hits (htake : s.lqTake 1 = (s1, some bs)) (hhit : s1.tagged (w64At bs 0x20) ≠ []) :
    exec .terminate s = .next ((s1.tagged (w64At bs 0x20)).foldl (fun s h => s.terminateOne h.1 h.2) s1) := by
  have hlen : (s1.tagged (w64At bs 0x20)).length ≠ 0 := fun h => hhit (List.length_eq_zero_iff.1 h)
  simp only [exec_terminate, execTerminate, htake, terminateTag_eq, hlen, if_false]

theorem exec_terminate_misses (htake : s.lqTake 1 = (s1, some bs)) (hmiss : s1.tagged (w64At bs 0x20) = []) :
    exec .terminate s = .next { s1 with kern := { s1.kern with lqNoMatch := true, lqErrIndex := s.kern.lq.head } } := by
  simp only [exec_terminate, execTerminate, htake, terminateTag_eq, hmiss, List.length_nil, if_true, List.foldl_nil]

end

/-! ### The completion record (R175) -/

section
variable {s : State} {kid : Nat} {k : Kernel}

/-- The state in which an ended kernel has released what it held and its record has been written. -/
def State.completed (s : State) (kid : Nat) (k : Kernel) : State :=
  (s.releaseKernel kid k).writeRecord k.compl k.src (s.kernelStatus k).1 0 k.tag
    (k.tiles.foldl (fun a t => a ||| (s.tile t).xflags) 0#7).toNat (s.kernelStatus k).2

theorem exec_completionRecord_ended (hk : s.kernel kid = some k) (hend : (k.tiles.all fun t => (s.tile t).ended) = true) :
    exec (.completionRecord kid) s = .next { s.completed kid k with
      tiles := k.tiles.foldl (fun m t => m.modify Tile.reset t.val fun x => { x with seq := .clearing, kernel := none })
        (s.completed kid k).tiles } := by
  simp only [exec_completionRecord, execCompletionRecord, hk, hend, Bool.not_true, Bool.false_eq_true, if_false]
  rfl

/-- A record tells a stream of its launch, and changes no kernel (R176). -/
theorem writeRecord_kernels (s : State) (compl : Nat) (src : LaunchSrc) (st : W32) (ext : Nat) (tag : W64) (xflags : Nat)
    (failTile : Option (TileId × Nat)) :
    (s.writeRecord compl src st ext tag xflags failTile).kern.kernels = s.kern.kernels := by
  unfold State.writeRecord
  dsimp only
  split
  · simp
  · simp [apply_ite KernS.kernels]

theorem completed_kernel (s : State) (kid : Nat) (k : Kernel) : (s.completed kid k).kernel kid = none := by
  unfold State.kernel State.completed
  rw [writeRecord_kernels]
  exact Map.get_set_self ..

theorem completed_bells (s : State) (kid : Nat) (k : Kernel) : (s.completed kid k).bells
    = k.bells.foldl (fun b i => b.modify Bell.reset i fun x => { x with held := false }) s.bells := by
  rw [State.completed, (State.writeRecord_frame ..).2.1]
  rfl

theorem completionRecord_gives (hk : s.kernel kid = some k) (hend : (k.tiles.all fun t => (s.tile t).ended) = true) :
    Gives (.completionRecord kid) s fun u => u.kernel kid = none
      ∧ (∀ t ∈ k.tiles, (u.tile t).seq = .clearing ∧ (u.tile t).kernel = none) ∧ (∀ b ∈ k.bells, (u.bell b).held = false) := by
  refine gives_next (exec_completionRecord_ended hk hend) ⟨completed_kernel s kid k, fun t ht => ?_, fun b hb => ?_⟩
  · exact tiles_all (fun x => x.seq = .clearing ∧ x.kernel = none) _ (fun _ => ⟨rfl, rfl⟩) k.tiles _ t ht
  · have hheld := bells_all (fun x => x.held = false) (fun x => { x with held := false }) (fun _ => rfl) k.bells s.bells b hb
    rwa [← completed_bells s kid k] at hheld

end

/-- Settles O17: admission, TERMINATE with kernels of its tag and without, and the completion record. -/
theorem kernelLifeCycle : Obligations.KernelLifeCycle := by
  refine ⟨fun s pt pb s1 bs s2 ctx s3 hdr ts bells htake hctx hlaunch hread hadm hm => ?launch,
    fun s s1 bs htake hsome hnodup => ?terminate, fun s s1 bs htake hnone => ?noMatch,
    fun s kid k hk hend => completionRecord_gives hk hend⟩
  case launch =>
    subst hctx
    have hreq : s1.launchReq (.ofEntry bs) pt pb = s3.enrol (.ofEntry bs) (Image.ofBytes hdr) ts bells :=
      launchReq_admitted hlaunch hread hadm
    refine gives_next ((exec_launch_taken htake pt pb).trans (congrArg _ hreq))
      ⟨⟨(LaunchReq.ofEntry bs).kernel (Image.ofBytes hdr) ts bells, ?_, rfl, rfl, rfl, rfl, rfl⟩, ?_, fun t ht => ?_,
        fun t ht => ?_, fun b hb => enrol_bell_held hm hb⟩
    · rw [State.kernel, enrol_kern hm]
      exact admitted_kernel
    · rw [enrol_kern hm]
      rfl
    · rw [enrol_tile_kernel hm, if_pos ht]
    · rw [enrol_tile_kernel hm, if_neg ht]
  case terminate =>
    obtain ⟨kid, k, hmem, htag⟩ := hsome
    have hhit : s1.tagged (w64At bs 0x20) ≠ [] := List.ne_nil_of_mem (mem_tagged.2 ⟨hmem, htag⟩)
    exact gives_next (exec_terminate_hits htake hhit) fun kid k hmem htag =>
      terminate_all _ s1 kid k (nodup_hits _ _ hnodup) (mem_tagged.2 ⟨hmem, htag⟩)
  case noMatch =>
    have hmiss : s1.tagged (w64At bs 0x20) = [] := List.eq_nil_iff_forall_not_mem.2 fun e he => by
      obtain ⟨hmem, htag⟩ := mem_tagged.1 he
      exact hnone e.1 e.2 hmem htag
    exact gives_next (exec_terminate_misses htake hmiss) ⟨rfl, rfl, rfl⟩

end Sys2Proof.Machine

/-! ## Move descriptors

How a descriptor is accepted, executed and completed, and the statement O18 settled from it. -/

namespace Sys2Proof.Machine

/-! ### Writing a place twice -/

/-- A value written over another is as if written alone. -/
theorem Map.set_set {α : Type} [DecidableEq α] (d : α) (m : Map α) (i : Nat) (x y : α) : (m.set d i x).set d i y = m.set d i y := by
  have hcells : ∀ e ∈ Map.cells (fun _ => d) i [x], e.1 = i := fun e he => by
    obtain ⟨hlo, hhi, -⟩ := Map.mem_cells he
    simp only [List.length_singleton] at hhi
    omega
  have hbelow : Map.below (m.set d i x) i = m.below i := by
    rw [Map.set, Map.setRun, Map.setRunBy, Map.below, List.filter_append, List.filter_append]
    rw [List.filter_eq_self.2 fun e he => decide_eq_true (Map.mem_below he),
      List.filter_eq_nil_iff.2 fun e he => by simp [hcells e he],
      List.filter_eq_nil_iff.2 fun e he => by have := Map.mem_from he; simp at this ⊢; omega]
    simp
  have hfrom : Map.from (m.set d i x) (i + 1) = m.from (i + 1) := by
    rw [Map.set, Map.setRun, Map.setRunBy, Map.from, List.filter_append, List.filter_append]
    rw [List.filter_eq_nil_iff.2 fun e he => by have := Map.mem_below he; simp; omega,
      List.filter_eq_nil_iff.2 fun e he => by simp [hcells e he],
      List.filter_eq_self.2 fun e he => decide_eq_true (Map.mem_from he)]
    simp
  rw [Map.set, Map.setRun, Map.setRunBy, hbelow, List.length_singleton, hfrom]
  rfl

theorem setTile_setTile (s : State) (t : TileId) (x y : Tile) : (s.setTile t x).setTile t y = s.setTile t y := by
  simp only [State.setTile, Map.set_set]

/-! ### Execution (R154, R156) -/

section
variable {s : State} {t : TileId} {i : Nat} {f : InFlight} {d : MoveDesc}

theorem exec_moveCommand {c : Instr} {k : MoveKind} (hc : moveCommand t i k = some c) (s : State) :
    exec c s = .next (s.runDesc t i k) := by
  cases k with
  | put | get => exact nomatch hc
  | _ =>
    obtain rfl := Option.some.inj hc
    rfl

/-- A descriptor at its turn, whose link is not in recovery, is transferred (R154, R421). -/
theorem runDesc_starts {k : MoveKind} (hm : (s.tile t).mayStart i k = some (f, d)) (hw : ¬ (f.host = true ∧ s.cxl.state = 2)) :
    s.runDesc t i k = s.transfer t i f d := by
  simp only [State.runDesc, hm]
  exact if_neg (by simpa using hw)

/-- A descriptor without columns or rows makes no access (R157). -/
theorem transfer_empty (h : d.cols = 0 ∨ d.rows = 0) : s.transfer t i f d = s.setDesc t i { f with phase := .done } :=
  if_pos (by simpa [MoveDesc.empty] using h)

theorem transfer_done (hc : d.cols ≠ 0) (hr : d.rows ≠ 0) (hread : (s.readRows t f d).2.1 = stOk)
    (hwrite : ((s.readRows t f d).1.writeRows t f d (d.output (s.readRows t f d).2.2)).2 = stOk) :
    s.transfer t i f d = ((s.readRows t f d).1.writeRows t f d (d.output (s.readRows t f d).2.2)).1.setDesc t i
      { f with phase := .done } := by
  have hfull : d.empty = false := by simp [MoveDesc.empty, hc, hr]
  simp only [State.transfer, hfull, hread, hwrite, Bool.false_eq_true, if_false, ne_eq, not_true_eq_false]

@[simp] theorem setDesc_sram (s : State) (t : TileId) (i : Nat) (f : InFlight) : ((s.setDesc t i f).tile t).sram = (s.tile t).sram := by
  rw [State.setDesc, State.setTile_tile_self]
  rfl

theorem Tile.load_length (x : Tile) (a n : Nat) : (x.load a n).length = n := Map.getRunBy_length (fun _ => 0#8) x.sram a n

theorem load_of_sram {x y : Tile} (h : y.sram = x.sram) (a n : Nat) : y.load a n = x.load a n := by rw [Tile.load, Tile.load, h]

/-- One row written to tile SRAM. -/
theorem writeRows_sram_one (hd : d.dstSide = .sram) (bs : List Byte) :
    s.writeRows t f d [bs] = (s.setTile t ((s.tile t).store d.dst.toNat bs), stOk) := by
  simp [State.writeRows, hd]

/-- A transfer whose one row is written to tile SRAM leaves the row there, and every other byte as it was. -/
theorem sramRow_gives {c : Instr} {k : MoveKind} {row : List Byte} (hc : moveCommand t i k = some c)
    (hm : (s.tile t).mayStart i k = some (f, d)) (hhost : f.host = false) (hcols : d.cols ≠ 0) (hrows : d.rows ≠ 0)
    (hread : ∃ rows, s.readRows t f d = (s, stOk, rows) ∧ d.output rows = [row]) (hdst : d.dstSide = .sram) :
    Gives c s fun u => (u.tile t).load d.dst.toNat row.length = row
      ∧ ∀ b, b < d.dst.toNat ∨ d.dst.toNat + row.length ≤ b → (u.tile t).load b 1 = (s.tile t).load b 1 := by
  obtain ⟨rows, hread, hout⟩ := hread
  have hwrite := writeRows_sram_one (s := s) (t := t) (f := f) hdst row
  have hdone := transfer_done (s := s) (t := t) (i := i) (f := f) hcols hrows (by rw [hread])
    (by simp only [hread, hout, hwrite])
  simp only [hread, hout, hwrite] at hdone
  refine gives_next ((exec_moveCommand hc s).trans (congrArg _ ((runDesc_starts hm (by simp [hhost])).trans hdone))) ?_
  have hload (a n : Nat) : ∀ g, (((s.setTile t ((s.tile t).store d.dst.toNat row)).setDesc t i g).tile t).load a n
      = ((s.tile t).store d.dst.toNat row).load a n := fun g =>
    load_of_sram ((setDesc_sram ..).trans (congrArg Tile.sram (State.setTile_tile_self ..))) a n
  simp only [hload]
  exact ⟨Tile.load_store_self .., fun b hb => Tile.load_store_out _ _ _ _ _ (by omega)⟩

/-- INLINE reads nothing. -/
theorem readRows_inline (hk : d.kind = .inline) : s.readRows t f d = (s, stOk, []) := by
  have hside : d.srcSide = .none := by rw [MoveDesc.srcSide, hk]
  simp only [State.readRows, hside]
  exact foldl_keep id _ (fun _ _ => rfl) _ _

/-- One row read from tile SRAM. -/
theorem readRows_sram_one (hs : d.srcSide = .sram) (hr : d.rows = 1) :
    s.readRows t f d = (s, stOk, [(s.tile t).load d.src.toNat d.rowBytes]) := by
  simp [State.readRows, hs, hr, List.range_succ]

theorem inline_gives (hm : (s.tile t).mayStart i .inline = some (f, d)) (hhost : f.host = false) (hdst : d.dstSram = true)
    (hcols : d.cols ≠ 0) (hrows : d.rows = 1) (hlen : d.cols ≤ d.data.length) (hk : d.kind = .inline) :
    Gives (.inline t i) s fun u => (u.tile t).load d.dst.toNat d.cols = d.data.take d.cols
      ∧ ∀ b, b < d.dst.toNat ∨ d.dst.toNat + d.cols ≤ b → (u.tile t).load b 1 = (s.tile t).load b 1 := by
  have hrow := sramRow_gives (row := d.data.take d.cols) (k := .inline) rfl hm hhost hcols (hrows ▸ Nat.one_ne_zero)
    ⟨_, readRows_inline hk, by rw [MoveDesc.output, hk]⟩ (by rw [MoveDesc.dstSide, hk]; exact if_pos hdst)
  rwa [List.length_take_of_le hlen] at hrow

theorem copy_gives (hm : (s.tile t).mayStart i .copy = some (f, d)) (hhost : f.host = false) (hk : d.kind = .copy)
    (hsrc : d.srcSram = true) (hdst : d.dstSram = true) (hcols : d.cols ≠ 0) (hrows : d.rows = 1) :
    Gives (.copy t i) s fun u => (u.tile t).load d.dst.toNat d.rowBytes = (s.tile t).load d.src.toNat d.rowBytes
      ∧ ∀ b, b < d.dst.toNat ∨ d.dst.toNat + d.rowBytes ≤ b → (u.tile t).load b 1 = (s.tile t).load b 1 := by
  have hsrc : d.srcSide = .sram := by rw [MoveDesc.srcSide, hk]; exact if_pos hsrc
  have hrow := sramRow_gives (row := (s.tile t).load d.src.toNat d.rowBytes) (k := .copy) rfl hm hhost hcols
    (hrows ▸ Nat.one_ne_zero) ⟨_, readRows_sram_one hsrc hrows, by rw [MoveDesc.output, hk]⟩
    (by rw [MoveDesc.dstSide, hk]; exact if_pos hdst)
  rwa [Tile.load_length] at hrow

end

/-! ### Acceptance (R157) -/

section
variable {s : State} {t : TileId} {i : Nat} {f : InFlight}

theorem descAccept_local {k : Kernel} {d : MoveDesc} (hf : f.d = none)
    (hd : s.descCheck k (s.tile t).sramBytes ((s.tile t).load f.off 128) = .ok d) (hv : d.virtSide = none) :
    s.descAccept t i f k = s.setDesc t i { f with d := some d, phase := .accepted } := by
  simp only [State.descAccept, hf, hd, hv]

theorem exec_descriptorAccept_submitted {k : Kernel} (hi : (s.tile t).descs.findIdx? (fun f => f.phase = .submitted) = some i)
    (hf : (s.tile t).descs[i]? = some f) (hk : (s.tile t).kernel.bind s.kernel = some k)
    (hfault : ((s.tile t).descs.any fun f => f.phase = .faulted) = false) :
    exec (.descriptorAccept t) s = .next (s.descAccept t i f k) := by
  simp only [exec_descriptorAccept, execDescriptorAccept, hi, hf, hk, hfault, Bool.false_eq_true, if_false]

/-! ### Completion (R138, R158) -/

theorem exec_descriptorComplete_turn {st : W32} (hf : (s.tile t).descs[i]? = some f) (ho : f.outcome = some st)
    (hturn : (s.tile t).turn i f = true) : exec (.descriptorComplete t i) s = .next (s.descFinish t i f st) := by
  simp only [exec_descriptorComplete, execDescriptorComplete, hf, ho, hturn, if_true]

/-- The STATUS word and its extension at offset 0x38 of a descriptor (R158). -/
def InFlight.statusBytes (f : InFlight) (st : W32) : List Byte := bytesOfNat 4 st.toNat ++ bytesOfNat 4 f.ext.toNat

theorem statusBytes_length (f : InFlight) (st : W32) : (f.statusBytes st).length = 8 := by
  rw [InFlight.statusBytes, List.length_append, bytesOfNat_length, bytesOfNat_length]

/-- No ring follows a descriptor that asks for none or has not succeeded (R158). -/
theorem descRing_none {st : W32} (h : ∀ d, f.d = some d → d.ringEn = false ∨ st ≠ 0#32) : s.descRing t f.d st = s := by
  unfold State.descRing
  split
  · rfl
  next d hd =>
    refine if_pos ?_
    rcases h d hd with h | h <;> simp [h, stOk_eq]

theorem load_storeOwn_self (x : Tile) (a : Nat) (bs : List Byte) : (x.storeOwn a bs).load a bs.length = bs :=
  Map.getRun_setRun_self ..

theorem load_storeOwn_out (x : Tile) (a : Nat) (bs : List Byte) (b n : Nat) (h : b + n ≤ a ∨ a + bs.length ≤ b) :
    (x.storeOwn a bs).load b n = x.load b n := Map.getRunBy_setRunBy_out (fun _ => 0#8) x.sram a bs b n h

/-- The tile that a completed descriptor leaves, its ring apart. -/
def Tile.descDone (x : Tile) (i : Nat) (f : InFlight) (st : W32) : Tile :=
  { x.storeOwn (f.off + 0x38) (f.statusBytes st) with
    descs := x.descs.eraseIdx i
    tokens := match f.tok.signal with
      | none => x.tokens
      | some c => x.tokens.set 0 c.val (x.tokens.get 0 c.val + 1) }

theorem descFinish_quiet {st : W32} (hs : (s.tile t).stopped = false) (hring : ∀ d, f.d = some d → d.ringEn = false ∨ st ≠ 0#32)
    (hroom : ∀ c, f.tok.signal = some c → (s.tile t).tokens.get 0 c.val < 255) :
    s.descFinish t i f st = s.setTile t ((s.tile t).descDone i f st) := by
  have hsignal : Tile.signal { (s.tile t).storeOwn (f.off + 0x38) (f.statusBytes st) with descs := (s.tile t).descs.eraseIdx i }
      f.tok f.pc f.idx = (s.tile t).descDone i f st := Tile.signal_room _ _ _ _ hroom
  unfold State.descFinish
  dsimp only
  rw [descRing_none hring, State.setTile_tile_self]
  refine (congrArg (State.putTile _ t) hsignal).trans ?_
  rw [putTile_going (show ((s.tile t).descDone i f st).stopped = false from hs), setTile_setTile]

theorem descDone_load_status (x : Tile) (i : Nat) (f : InFlight) (st : W32) :
    (x.descDone i f st).load (f.off + 0x38) 8 = f.statusBytes st := by
  have hload := load_storeOwn_self x (f.off + 0x38) (f.statusBytes st)
  rwa [statusBytes_length] at hload

theorem descDone_load_out {x : Tile} {i : Nat} {f : InFlight} {st : W32} {b : Nat} (hb : b < f.off + 0x38 ∨ f.off + 0x40 ≤ b) :
    (x.descDone i f st).load b 1 = x.load b 1 :=
  load_storeOwn_out x _ _ b 1 (by rw [statusBytes_length]; omega)

theorem descDone_tokens (x : Tile) (i : Nat) (f : InFlight) (st : W32) (c : Fin 8) : (x.descDone i f st).tokens.get 0 c.val
    = x.tokens.get 0 c.val + (if f.tok.signal = some c then 1 else 0) := by
  unfold Tile.descDone
  dsimp only
  split
  next h => simp [h]
  next d h =>
    rw [Map.get_set, h]
    by_cases hcd : c = d
    · simp [hcd]
    · simp [Ne.symm hcd, Fin.val_ne_of_ne hcd]

theorem descriptorComplete_quiet {st : W32} (hf : (s.tile t).descs[i]? = some f) (ho : f.outcome = some st)
    (hturn : (s.tile t).turn i f = true) (hs : (s.tile t).stopped = false)
    (hring : ∀ d, f.d = some d → d.ringEn = false ∨ st ≠ 0#32)
    (hroom : ∀ c, f.tok.signal = some c → (s.tile t).tokens.get 0 c.val < 255) :
    Gives (.descriptorComplete t i) s fun u => TileOnly t s u
      ∧ (u.tile t).load (f.off + 0x38) 8 = bytesOfNat 4 st.toNat ++ bytesOfNat 4 f.ext.toNat
      ∧ (u.tile t).descs = (s.tile t).descs.eraseIdx i
      ∧ (∀ b, b < f.off + 0x38 ∨ f.off + 0x40 ≤ b → (u.tile t).load b 1 = (s.tile t).load b 1)
      ∧ (∀ c : Fin 8, (u.tile t).tokens.get 0 c.val
          = (s.tile t).tokens.get 0 c.val + (if f.tok.signal = some c then 1 else 0)) := by
  refine gives_next ((exec_descriptorComplete_turn hf ho hturn).trans (congrArg _ (descFinish_quiet hs hring hroom)))
    ⟨setTile_only .., ?_⟩
  rw [State.setTile_tile_self]
  exact ⟨descDone_load_status .., rfl, fun b hb => descDone_load_out hb, descDone_tokens _ i f st⟩

/-- R158: a descriptor that succeeded and asks for a ring rings its bell, as a release by its tile. -/
theorem descFinish_bell {d : MoveDesc} {b : Nat} (hd : f.d = some d) (hen : d.ringEn = true) (hput : d.kind ≠ .put)
    (hb : s.localBell t d.bell = some b) : (s.descFinish t i f 0#32).bell b
    = (((s.setTile t ((s.tile t).storeOwn (f.off + 0x38) (f.statusBytes 0#32))).ringBell b (d.n.zeroExtend 64) 1#3
        (BitVec.ofNat 8 t.val) d.scope).evalWaits (bellDie b)).bell b := by
  have hlocal : (s.setTile t ((s.tile t).storeOwn (f.off + 0x38) (f.statusBytes 0#32))).localBell t d.bell = some b := by
    rw [← hb, State.localBell, State.setTile_tile_self]
    rfl
  have hring : (s.setTile t ((s.tile t).storeOwn (f.off + 0x38) (f.statusBytes 0#32))).descRing t f.d 0#32
      = ((s.setTile t ((s.tile t).storeOwn (f.off + 0x38) (f.statusBytes 0#32))).ringBell b (d.n.zeroExtend 64) 1#3
        (BitVec.ofNat 8 t.val) d.scope).evalWaits (bellDie b) := by
    simp [State.descRing, hd, hen, hput, hlocal, stOk_eq]
  rw [State.descFinish, putTile_bell]
  exact congrArg (State.bell · b) hring

theorem descriptorComplete_rings {d : MoveDesc} {b : Nat} (hf : (s.tile t).descs[i]? = some f) (ho : f.outcome = some 0#32)
    (hturn : (s.tile t).turn i f = true) (hd : f.d = some d) (hen : d.ringEn = true) (hput : d.kind ≠ .put)
    (hb : s.localBell t d.bell = some b) (hsound : (s.bell b).sound)
    (hn : (s.bell b).count.toNat + d.n.toNat < 2 ^ 64) :
    Gives (.descriptorComplete t i) s fun u => (u.bell b).count = (s.bell b).count + d.n.zeroExtend 64
      ∧ (u.bell b).lkind = 1#3 ∧ (u.bell b).lrel = BitVec.ofNat 8 t.val ∧ (u.bell b).lscope = d.scope := by
  refine gives_next (exec_descriptorComplete_turn hf ho hturn) ?_
  have hn : (s.bell b).count.toNat + (d.n.zeroExtend 64).toNat < 2 ^ 64 := by
    rwa [BitVec.toNat_setWidth_of_le (by decide)]
  rw [descFinish_bell hd hen hput hb]
  refine evalWaits_P (fun x => x.count = (s.bell b).count + d.n.zeroExtend 64 ∧ x.lkind = 1#3
    ∧ x.lrel = BitVec.ofNat 8 t.val ∧ x.lscope = d.scope) ⟨fun _ _ h => h, fun _ h _ => h⟩ _ _ _ ?_
  rw [ringBell_sound (s.setTile t _) _ _ _ _ _ hsound hn, State.setBell_bell_self]
  exact ⟨rfl, rfl, rfl, rfl⟩

end

/-- Settles O18: execution by its transfer, acceptance, and completion without a ring and with one. -/
theorem moveDescriptors : Obligations.MoveDescriptors := by
  refine ⟨⟨fun t i s f d c hc hm hw => ⟨fun he => ?_, fun hcols hrows hread hwrite => ?_⟩, ?_, ?_, ?_⟩, ?_⟩
  · exact gives_next (exec_moveCommand hc s) (by rw [runDesc_starts hm hw, transfer_empty he])
  · exact gives_next (exec_moveCommand hc s) (by rw [runDesc_starts hm hw, transfer_done hcols hrows hread hwrite])
  · exact fun t i s f d hm hhost hdst hcols hrows hlen hk => inline_gives hm hhost hdst hcols hrows hlen hk
  · exact fun t i s f d hm hhost hk hsrc hdst hcols hrows => copy_gives hm hhost hk hsrc hdst hcols hrows
  · exact fun t s i f k d hi hf hk hfault hfd hd hv =>
      gives_next (exec_descriptorAccept_submitted hi hf hk hfault) (descAccept_local hfd hd hv)
  · refine fun t i s f st hf ho hturn => ⟨descriptorComplete_quiet hf ho hturn, ?_⟩
    rintro d b hd hen hput rfl hb hsound hn
    exact descriptorComplete_rings hf ho hturn hd hen hput hb hsound hn

end Sys2Proof.Machine

/-! ## Requests that arrive on a Carillon port

What PUT_DATA, GET_REQ and the remote RING do where they are delivered, refused or turned away, and the statement O41 settled from
it. -/

namespace Sys2Proof.Machine

/-! ### The way of a message to its delivery (R290, R310, R311) -/

section
variable {s : State} {p : PortId} {m : Msg} {deliver : State → State}

theorem inbound_idle (h : s.carries p = false) : s.inbound p m deliver = s := if_pos (h ▸ rfl)

theorem inbound_here (h : s.forHere p m) : s.inbound p m deliver = deliver (s.acceptFlits p (1 + m.cont)) := by
  obtain ⟨hcarries, hquar, hhead, hdst⟩ := h
  simp only [State.inbound, hcarries, hquar, hhead, hdst, Bool.not_true, Bool.false_eq_true, if_false, if_true]

theorem inbound_quarantined (hc : s.carries p = true) (hq : (s.port p).quarantines m.src.toNat = true) (hr : msgClass m = 0) :
    s.inbound p m deliver = (s.acceptFlits p (1 + m.cont)).respond m 5 0x22 [] := by
  simp [State.inbound, hc, hq, hr]

theorem inbound_badHeader {c : Nat} (hc : s.carries p = true) (hq : (s.port p).quarantines m.src.toNat = false)
    (hb : s.headerBad p m = some c) (hr : msgClass m = 0) :
    s.inbound p m deliver = ((s.acceptFlits p (1 + m.cont)).violate p m.src.toNat c).respond m 5 c [] := by
  simp [State.inbound, hc, hq, hb, hr]

end

/-! ### The window's checks and accesses (R245, R299) -/

section
variable {s : State} {via : Via} {w src off len bell : Nat} {rd wr ring : Bool} {c : Nat}

/-- A check that fails has a code of its own, never 0 (R245). -/
theorem winCheck_ne_zero (h : s.winCheck via w src rd wr ring off len bell = some c) : c ≠ 0 := by
  rintro rfl
  unfold State.winCheck at h
  dsimp only at h
  repeat' split at h
  all_goals exact absurd h (by simp)

theorem putAt_refused {bs : List Byte} (h : s.winCheck via w src false true ring off bs.length bell = some c) :
    s.putAt via w src off bell ring bs = (s.countEntry c, c) := by
  simp only [State.putAt, h]

theorem getAt_refused (h : s.winCheck via w src true false false off len 0 = some c) :
    s.getAt via w src off len = (s.countEntry c, c, []) := by
  simp only [State.getAt, h]

theorem ringAt_refused {n : W16} (h : s.winCheck via w src false false true 0 0 bell = some c) :
    s.ringAt via w src bell n = (s.countEntry c, c) := by
  simp only [State.ringAt, h]

/-- A PUT whose span is one piece of sound, served memory writes its bytes there. -/
theorem putAt_near {t : State} {a : Nat} {bs : List Byte} (hc : s.winCheck via w src false true ring off bs.length bell = none)
    (hspan : s.winSpan via w off bs.length true = (t, .ok [(a, bs.length)])) (hr : engineRange a bs.length = some .near)
    (hs : t.serves a via.die = true) (hm : t.mem.clean a bs.length) :
    ∃ r, s.putAt via w src off bell ring bs = (r, 0) ∧ r.mem.load a bs.length = bs
      ∧ ∀ b, b < a ∨ a + bs.length ≤ b → r.mem.load b 1 = t.mem.load b 1 := by
  obtain ⟨r, hwrite, -, -, -, -, hin, hout⟩ := writeMem_ok t true a via.die bs .near hr nofun hs hm
  have hwrite : t.writeMem a bs via.die = ⟨r, stOk, []⟩ := hwrite
  refine ⟨r, ?_, hin, hout⟩
  simp only [State.putAt, hc, hspan, List.foldl_cons, List.foldl_nil, List.take_length, hwrite, if_true]

/-- A GET whose span is one piece of sound, served memory reads its bytes, and changes no memory. -/
theorem getAt_near {t : State} {a : Nat} (hc : s.winCheck via w src true false false off len 0 = none)
    (hspan : s.winSpan via w off len false = (t, .ok [(a, len)])) (hr : engineRange a len = some .near)
    (hs : t.serves a via.die = true) (hm : t.mem.clean a len) :
    ∃ r, s.getAt via w src off len = (r, 0, t.mem.load a len) ∧ r.mem = t.mem := by
  have hread : t.readMem a len via.die = ⟨t.countSpan a len via.die false, stOk, t.mem.load a len⟩ :=
    readMem_ok t true a len via.die .near hr nofun hs hm
  refine ⟨t.countSpan a len via.die false, ?_, countSpan_mem t true a len via.die false⟩
  simp only [State.getAt, hc, hspan, List.foldl_cons, List.foldl_nil, hread, if_true, List.nil_append]

/-- A remote RING that passes its checks adds its increment at the bell (R166). -/
theorem ringAt_rings {n : W16} {b : Nat} (hc : s.winCheck via w src false false true 0 0 bell = none)
    (hb : b = (w64Bits (s.win.word w 0) 33 14 + bell) % 16384) (hsound : (s.bell b).sound)
    (hn : (s.bell b).count.toNat + n.toNat < 2 ^ 64) :
    ∃ r, s.ringAt via w src bell n = (r, 0) ∧ r.mem = s.mem ∧ (r.bell b).count = (s.bell b).count + n.zeroExtend 64 := by
  have hn : (s.bell b).count.toNat + (n.zeroExtend 64).toNat < 2 ^ 64 := by rwa [BitVec.toNat_setWidth_of_le (by decide)]
  refine ⟨(s.ringBell b (n.zeroExtend 64) 5#3 (BitVec.ofNat 8 w) .system).evalWaits (bellDie b), ?_, by simp,
    evalWaits_P _ (stable_count _) _ _ _ ?_⟩
  · simp only [State.ringAt, hc, ← hb]
  rw [ringBell_sound _ _ _ _ _ _ hsound hn, State.setBell_bell_self]

end

/-! ### The answers to a request (R276, R299) -/

section
variable {s r : State} {p : PortId} {m : Msg} {c : Nat} {bs : List Byte}

theorem exec_putData_here (hm : s.forHere p { m with ttype := 0#4 })
    (hr : (s.acceptFlits p (1 + m.cont)).putAt ((s.acceptFlits p (1 + m.cont)).portVia p) m.window.toNat m.src.toNat m.offset.toNat
      m.bell.toNat m.ringop (m.payload.take m.len) = (r, c)) :
    exec (.putData p m) s = .next (if c = 0 then r.respond { m with ringop := false } 3 0 []
      else (r.countCheck p m c).respond m 5 c []) := by
  refine congrArg Host.Outcome.next ((inbound_here hm).trans ?_)
  simp only [hr]

theorem exec_getReq_here (hm : s.forHere p { m with ttype := 1#4 })
    (hr : (s.acceptFlits p (1 + m.cont)).getAt ((s.acceptFlits p (1 + m.cont)).portVia p) m.window.toNat m.src.toNat m.offset.toNat
      m.len = (r, c, bs)) :
    exec (.getReq p m) s = .next (if c = 0 then r.respond m 4 0 bs else (r.countCheck p m c).respond m 5 c []) := by
  refine congrArg Host.Outcome.next ((inbound_here hm).trans ?_)
  simp only [hr]

theorem exec_remoteRing_here (hm : s.forHere p { m with ttype := 2#4 })
    (hr : (s.acceptFlits p (1 + m.cont)).ringAt ((s.acceptFlits p (1 + m.cont)).portVia p) m.window.toNat m.src.toNat m.bell.toNat m.n
      = (r, c)) :
    exec (.remoteRing p m) s = .next (if c = 0 then r.respond { m with ringop := true } 3 0 []
      else (r.countCheck p m c).respond m 5 c []) := by
  refine congrArg Host.Outcome.next ((inbound_here hm).trans ?_)
  simp only [hr]

/-- A request that a check of its window refuses is answered by NACK and has no effect (R299, R310); `k` is its TTYPE, which the
answer does not carry. -/
theorem refused_gives {i : Instr} {good : State} (hc : c ≠ 0) (k : BitVec 4)
    (hi : exec i s = .next (if c = 0 then good
      else ((((s.acceptFlits p (1 + m.cont)).countEntry c).countCheck p m c).respond m 5 c []))) :
    Gives i s fun u => ∃ r, u = State.respond r { m with ttype := k } 5 c [] ∧ r.mem = s.mem ∧ r.bells = s.bells := by
  refine gives_next (hi.trans (congrArg _ (if_neg hc))) ⟨_, rfl, ?_, ?_⟩
  · simp
  · simp

/-- The three requests, each with its TTYPE, go by `inbound`. -/
theorem exec_request {k : BitVec 4} {i : Instr}
    (h : (k, i) ∈ ([(0#4, .putData p m), (1#4, .getReq p m), (2#4, .remoteRing p m)] : List (BitVec 4 × Instr))) :
    msgClass { m with ttype := k } = 0 ∧ ∃ deliver, ∀ s, exec i s = .next (s.inbound p { m with ttype := k } deliver) := by
  simp only [List.mem_cons, Prod.mk.injEq, List.not_mem_nil, or_false] at h
  obtain ⟨rfl, rfl⟩ | ⟨rfl, rfl⟩ | ⟨rfl, rfl⟩ := h
  · exact ⟨rfl, _, fun _ => rfl⟩
  · exact ⟨rfl, _, fun _ => rfl⟩
  · exact ⟨rfl, _, fun _ => rfl⟩

/-- Every message goes by `inbound`. -/
theorem exec_message {i : Instr}
    (h : i ∈ ([.putData p m, .getReq p m, .remoteRing p m, .putAck p m, .getData p m, .nack p m] : List Instr)) :
    ∃ k deliver, ∀ s, exec i s = .next (s.inbound p { m with ttype := k } deliver) := by
  simp only [List.mem_cons, List.not_mem_nil, or_false] at h
  obtain rfl | rfl | rfl | rfl | rfl | rfl := h
  · exact ⟨0#4, _, fun _ => rfl⟩
  · exact ⟨1#4, _, fun _ => rfl⟩
  · exact ⟨2#4, _, fun _ => rfl⟩
  · exact ⟨3#4, _, fun _ => rfl⟩
  · exact ⟨4#4, _, fun _ => rfl⟩
  · exact ⟨5#4, _, fun _ => rfl⟩

end

/-- Settles O41: the three requests that pass, the three refused at the window, what is turned away before, and a port that does not
carry. -/
theorem carillonRequests : Obligations.CarillonRequests := by
  rintro p m s _ rfl
  refine ⟨fun t a hm hc hspan hr hs hclean => ?put, fun t a hm hc hspan hr hs hclean => ?get, fun b hm hc hb hsound hn => ?ring,
    fun c hm hc => ?putRefused, fun c hm hc => ?getRefused, fun c hm hc => ?ringRefused, fun k i hi hcarries => ?turnedAway,
    fun i hi hcarries => ?idle⟩
  case put =>
    obtain ⟨r, hput, hin, hout⟩ := putAt_near (src := m.src.toNat) hc hspan hr hs hclean
    exact gives_next (exec_putData_here hm hput) ⟨r, rfl, hin, hout⟩
  case get =>
    obtain ⟨r, hget, hmem⟩ := getAt_near hc hspan hr hs hclean
    exact gives_next (exec_getReq_here hm hget) ⟨r, rfl, hmem⟩
  case ring =>
    obtain ⟨r, hring, hmem, hcount⟩ := ringAt_rings hc hb hsound hn
    exact gives_next (exec_remoteRing_here hm hring) ⟨r, rfl, hmem, hcount⟩
  case putRefused => exact refused_gives (winCheck_ne_zero hc) 0#4 (exec_putData_here hm (putAt_refused hc))
  case getRefused => exact refused_gives (winCheck_ne_zero hc) 1#4 (exec_getReq_here hm (getAt_refused hc))
  case ringRefused => exact refused_gives (winCheck_ne_zero hc) 2#4 (exec_remoteRing_here hm (ringAt_refused hc))
  case turnedAway =>
    obtain ⟨hreq, deliver, hexec⟩ := exec_request hi
    exact ⟨fun hq => gives_next ((hexec s).trans (congrArg _ (inbound_quarantined hcarries hq hreq))) rfl,
      fun c hq hbad => gives_next ((hexec s).trans (congrArg _ (inbound_badHeader hcarries hq hbad hreq))) rfl⟩
  case idle =>
    obtain ⟨k, deliver, hexec⟩ := exec_message hi
    exact gives_next ((hexec s).trans (congrArg _ (inbound_idle hcarries))) rfl

end Sys2Proof.Machine

/-! ## The upkeep of the memory system

What the commands of the memory system itself write: the interleave modes, the pools, the patrol, the corrections, the timeouts and a
stack's failure; and the statement O22 settled from them. -/

namespace Sys2Proof.Machine

/-! ### The interleave modes and the pools (R183, R211, R214) -/

/-- The interleave modes with one half replaced by the word written. -/
def MemS.qmodeWith (m : MemS) (hi : Bool) (v : W64) : BitVec 128 :=
  if hi then v ++ m.qmode.truncate 64 else (m.qmode >>> 64).truncate 64 ++ v

/-- QMODE takes the word written, and MAP_GEN counts the write where it changes a bit. -/
theorem qmodeWrite_gives (hi : Bool) (v : W64) (s : State) :
    Gives (.qmodeWrite hi v) s fun u => u.mem.qmode = s.mem.qmodeWith hi v
      ∧ u.mem.mapGen = s.mem.mapGen + (if u.mem.qmode = s.mem.qmode then 0#32 else 1#32) := by
  by_cases hsame : s.mem.qmodeWith hi v = s.mem.qmode
  · exact ⟨s, if_pos hsame, hsame.symm, by simp⟩
  · exact ⟨_, if_neg hsame, rfl, congrArg (s.mem.mapGen + ·) (if_neg hsame).symm⟩

/-- A word that fits its low field is that field. -/
theorem w64Bits_low {v : W64} {w : Nat} (h : v.toNat < 2 ^ w) : w64Bits v 0 w = v.toNat := by
  rw [w64Bits, bitsOf, Nat.pow_zero, Nat.div_one, Nat.mod_eq_of_lt h]

/-- A field above a word's highest bit is 0. -/
theorem w64Bits_above {v : W64} {lo : Nat} (w : Nat) (h : v.toNat < 2 ^ lo) : w64Bits v lo w = 0 := by
  rw [w64Bits, bitsOf, Nat.div_eq_of_lt h, Nat.zero_mod]

theorem poolCapacity_lt (p : Nat) : poolCapacity p < 2 ^ 19 := by
  unfold poolCapacity
  split <;> decide

section
variable {s : State} {p : Fin 6} {v : W64}

theorem poolWrite_within (h : v.toNat ≤ poolCapacity p.val) :
    Gives (.poolWrite p v) s fun u => u.mem.pools.get Pool.empty p.val
      = { size := v.toNat, held := (s.mem.pools.get Pool.empty p.val).held } := by
  have hlt : v.toNat < 2 ^ 19 := h.trans_lt (poolCapacity_lt p.val)
  have hhigh : v.toNat < 2 ^ 51 := hlt.trans (by decide)
  refine ⟨_, exec_poolWrite .., ?_⟩
  simp [w64Bits_low hlt, w64Bits_above 13 hlt, w64Bits_above 13 hhigh, Nat.not_lt.mpr h]

theorem poolWrite_beyond (h : poolCapacity p.val < w64Bits v 0 19) :
    Gives (.poolWrite p v) s fun u => u.mem = s.mem ∧ u.tele.discards = satInc64 s.tele.discards := by
  have hexec : exec (.poolWrite p v) s = .next s.discard := by
    simp [exec_poolWrite, execPoolWrite, h]
  exact ⟨_, hexec, rfl, rfl⟩

end

/-! ### The patrol (R190) -/

section
variable {s : State} {cw finder : Nat} {requester : Bool}

/-- A codeword that reads well is left in no error, one symbol corrected; no poison mark changes. -/
theorem readCodeword_corrects (hp : s.mem.poison.get false cw = false) (he : s.mem.cwErr.get CwErr.none cw ≠ .uncorrectable) :
    (s.readCodeword cw finder requester).1.mem.cwErr.get CwErr.none cw = .none
      ∧ (s.readCodeword cw finder requester).1.mem.poison = s.mem.poison := by
  cases hcw : s.mem.cwErr.get CwErr.none cw with
  | none => rw [readCodeword_ok _ _ _ _ ⟨hp, hcw⟩]; exact ⟨hcw, rfl⟩
  | oneSymbol => simp [State.readCodeword, hp, hcw, State.countOuter, MemS.setCtrl]
  | uncorrectable => exact absurd hcw he

theorem readCodeword_uncorrectable (hp : s.mem.poison.get false cw = false)
    (he : s.mem.cwErr.get CwErr.none cw = .uncorrectable) :
    s.readCodeword cw finder requester = (s.uncorrectable cw (s.mem.homeOf (cw * 64)) finder, false) := by
  simp [State.readCodeword, hp, he]

/-- R189, R192: the codeword is poisoned, and its controller counts the error and names the address. -/
theorem uncorrectable_mem (s : State) (cw c finder : Nat) :
    (s.uncorrectable cw c finder).mem.poison.get false cw = true
      ∧ (s.uncorrectable cw c finder).mem.ctrl c
        = { s.mem.ctrl c with ue := satInc32 (s.mem.ctrl c).ue, lastUe := cw * 64, lastUeValid := true } := by
  simp [State.uncorrectable, MemS.ctrl, MemS.setCtrl]

/-- Before the end of its tier a patrol goes on with the codeword behind. -/
theorem patrolled_within {c : Nat} (k : MemCtrl) (h : cw + 1 < tierEnd c) : k.patrolled c cw = { k with patrol := cw + 1 } :=
  if_neg (Nat.not_le.mpr h)

/-- A patrol that runs reads the codeword next in its turn, and its controller has passed it. -/
theorem exec_patrolScrub_due {c : Ctrl} (hperiod : (s.mem.ctrl c.val).period ≠ 0#8) (hstate : (s.mem.ctrl c.val).state = 0)
    (hcw : cw = s.mem.patrolNext c.val (max (s.mem.ctrl c.val).patrol (tierBase c.val)) 64) :
    exec (.patrolScrub c) s = .next { (s.readCodeword cw 1 false).1 with
      mem := (s.readCodeword cw 1 false).1.mem.setCtrl c.val (((s.readCodeword cw 1 false).1.mem.ctrl c.val).patrolled c.val cw) } := by
  subst hcw
  simp [exec_patrolScrub, execPatrolScrub, hperiod, hstate]

end

/-! ### Corrections, timeouts and a stack's failure (R187, R197, R215, R545) -/

theorem countInner_ceInner (s : State) (c n : Nat) :
    ((s.countInner c n).mem.ctrl c).ceInner = satAdd64 (s.mem.ctrl c).ceInner n := by
  simp [State.countInner]

theorem keepForRetry_dirty {k : CacheS} {a : Nat} {l : CacheLine} (hl : k.line a = some l) (hd : l.dirty = true)
    (hr : k.retry.contains (a / 128) = false) : k.keepForRetry a = { k with retry := k.retry ++ [a / 128] } := by
  simp only [CacheS.keepForRetry, hl, hd, hr, Bool.not_false, Bool.and_self, if_true]

theorem mem_timeOut (m : MemS) (ag : Agent) (a : Nat) : (ag, a) ∈ (m.timeOut ag a).timedOut := by simp [MemS.timeOut]

theorem exec_lowerTierTimeout_cache (a : Nat) (s : State) : exec (.lowerTierTimeout .cache a) s
    = .next { s with mem := s.mem.timeOut .cache a, cache := s.cache.keepForRetry a } := rfl

theorem exec_lowerTierTimeout_port (p : PortId) (a : Nat) (s : State) : exec (.lowerTierTimeout (.port p) a) s
    = .next (State.answer { s with mem := s.mem.timeOut (.port p) a } stTierTimeout []) := rfl

theorem stTierTimeout_eq : stTierTimeout = 0x03020000#32 := by decide

theorem stackOut_mem {s : State} {c : Nat} (h : (s.mem.ctrl c).state ≠ 2) :
    (s.stackOut c).mem = { s.mem.setCtrl c { s.mem.ctrl c with state := 2 } with mapGen := s.mem.mapGen + 1#32 } := by
  simp only [State.stackOut, if_neg h]

theorem exec_stackFailure_fails {s : State} {c : Ctrl} (h : (s.mem.ctrl c.val).state ≠ 2) :
    exec (.stackFailure c) s = .next ((s.stackOut c.val).unitLeft (ctrlKind c.val) (ctrlUnit c.val) 2) := by
  simp only [exec_stackFailure, execStackFailure, if_neg h]

/-- Settles O22: the modes, the pools, the patrol over a codeword that reads well and over one that does not, then the rest. -/
theorem memoryUpkeep : Obligations.MemoryUpkeep := by
  intro s
  refine ⟨fun v => qmodeWrite_gives true v s, fun v => qmodeWrite_gives false v s, fun p v => poolWrite_within,
    fun p v => poolWrite_beyond, fun c cw hperiod hstate hcw hend hp hhome => ?patrol, fun c n => ?inner, fun ag a _ => ?late,
    fun a l hl hd hr => ?cacheTimeout, fun p a => ?portTimeout, fun c hc => ?stack⟩
  case patrol =>
    have hexec := exec_patrolScrub_due hperiod hstate hcw
    rw [patrolled_within _ hend] at hexec
    refine ⟨fun he => gives_next hexec ?_, fun he => gives_next hexec ?_⟩
    · obtain ⟨herr, hpoison⟩ := readCodeword_corrects (finder := 1) (requester := false) hp he
      refine ⟨congrArg MemCtrl.patrol (MemS.setCtrl_ctrl_self ..), herr, ?_, State.readCodeword_bytes ..⟩
      exact (congrArg (Map.get false · cw) hpoison).trans hp
    · rw [readCodeword_uncorrectable hp he, hhome]
      obtain ⟨hpoison, hctrl⟩ := uncorrectable_mem s cw c.val 1
      simp only [MemS.setCtrl_ctrl_self, hctrl, true_and]
      exact ⟨hpoison, State.uncorrectable_bytes s cw c.val 1⟩
  case inner => exact gives_next (exec_ceInnerCollect ..) ⟨countInner_ceInner s c.val n, State.countInner_bytes ..⟩
  case late => exact gives_next (exec_lateResponseDiscard ..) ⟨rfl, rfl, rfl⟩
  case cacheTimeout =>
    refine gives_next (exec_lowerTierTimeout_cache a s) ?_
    rw [keepForRetry_dirty hl hd hr]
    exact ⟨rfl, hl, mem_timeOut ..⟩
  case portTimeout => exact gives_next (exec_lowerTierTimeout_port p a s) ⟨stTierTimeout_eq, mem_timeOut ..⟩
  case stack =>
    refine gives_next (exec_stackFailure_fails hc) ?_
    have hmem : ((s.stackOut c.val).unitLeft (ctrlKind c.val) (ctrlUnit c.val) 2).mem = (s.stackOut c.val).mem := by simp
    rw [hmem, stackOut_mem hc]
    exact ⟨congrArg MemCtrl.state (MemS.setCtrl_ctrl_self ..), rfl, rfl⟩

end Sys2Proof.Machine

/-! ## The cores' accesses to memory

What a core's load, store and atomic leave in the caches and at the home, where the access lies in one line; and the statement O23
settled from it. -/

namespace Sys2Proof.Machine

/-! ### The caches (R205) -/

@[simp] theorem CacheS.setLine_line_self (k : CacheS) (a : Nat) (l : Option CacheLine) : (k.setLine a l).line a = l :=
  Map.get_set_self ..

@[simp] theorem State.setLine_line_self (s : State) (a : Nat) (l : Option CacheLine) : (s.setLine a l).cache.line a = l :=
  CacheS.setLine_line_self ..

@[simp] theorem CacheS.forget_line (k : CacheS) (c : CoreId) (n a : Nat) : (k.forget c n).line a = k.line a := rfl

/-- A line that no cache holds is taken from nobody. -/
theorem CacheS.takeFrom_absent {k : CacheS} {a : Nat} (h : k.line a = none) (c : CoreId) : k.takeFrom c a = k := by
  simp only [CacheS.takeFrom, h, Option.bind_none]

/-- A sound line holds no poison at any of its addresses. -/
theorem CacheLine.poisonAt_of_sound {l : CacheLine} (h : l.poison0 = false ∧ l.poison1 = false) (a : Nat) : l.poisonAt a = false := by
  rw [CacheLine.poisonAt, h.1, h.2, ite_self]

/-- A piece of a cached line is read from its bytes, and is bad where its first or last byte is poisoned. -/
theorem CacheS.read_cached {k : CacheS} {a : Nat} {l : CacheLine} (h : k.line a = some l) (n : Nat) :
    k.read (a, n) = ((l.data.drop (a % 128)).take n, !l.poisonAt a && !l.poisonAt (a + (n - 1))) := by
  simp only [CacheS.read, h]

/-- An access within one line is one piece. -/
theorem corePieces_inLine {a n : Nat} (h0 : 0 < n) (h : a % 128 + n ≤ 128) : corePieces a n (n + 1) = [(a, n)] := by
  have hk : min n (128 - a % 128) = n := by omega
  obtain ⟨m, rfl⟩ := Nat.exists_eq_succ_of_ne_zero h0.ne'
  simp [corePieces, hk]

/-! ### A line fetched from its home (R188, R196) -/

section
variable {s u : State} {a : Nat}

theorem homeBytes_congr (h : u.mem.bytes = s.mem.bytes) (a n : Nat) : u.homeBytes a n = s.homeBytes a n := by
  simp only [MemS.bytes, Prod.mk.injEq] at h
  obtain ⟨hmem, hundef, hhost, hqmode⟩ := h
  simp only [State.homeBytes, MemS.load, hmem, hhost, MemS.base_congr hundef hqmode]

theorem homeGood_congr (hm : u.mem = s.mem) (hn : u.net = s.net) (hc : u.cxl = s.cxl) : u.homeGood a ↔ s.homeGood a := by
  simp only [State.homeGood, State.hostServes, State.serves, State.routed, hm, hn, hc]

/-- A codeword is fetched with the bytes that its home holds, good or not. -/
theorem fetchCodeword_data (s : State) (a : Nat) : (s.fetchCodeword a).2.1 = s.homeBytes a 64 := by
  unfold State.fetchCodeword State.homeBytes
  split
  · next h => rw [if_pos h]
  · next h =>
    rw [if_neg h]
    split <;> rfl

/-- A good codeword is fetched good, and the fetch changes nothing. -/
theorem fetchCodeword_good (h : s.homeGood a) : s.fetchCodeword a = (s, s.homeBytes a 64, true) := by
  unfold State.homeGood at h
  unfold State.fetchCodeword State.homeBytes
  split
  · next hr =>
    rw [if_pos hr] at h
    simp [hr, h]
  · next hr =>
    rw [if_neg hr] at h
    obtain ⟨hserves, hsound⟩ := h
    rw [if_neg hr, hserves, readCodeword_ok s (a / 64) 0 true hsound]
    rfl

theorem missLine_data (s : State) (a : Nat) :
    (s.missLine a).2.data = s.homeBytes (lineOf a) 64 ++ s.homeBytes (lineOf a + 64) 64 := by
  have hcount : (s.countAccess (lineOf a) 4 false).mem.bytes = s.mem.bytes := by simp
  have hfetch : ((s.countAccess (lineOf a) 4 false).fetchCodeword (lineOf a)).1.mem.bytes = s.mem.bytes := by simp
  simp only [State.missLine, fetchCodeword_data, homeBytes_congr hcount, homeBytes_congr hfetch]

theorem missLine_sound (h0 : s.homeGood (lineOf a)) (h1 : s.homeGood (lineOf a + 64)) :
    (s.missLine a).2.poison0 = false ∧ (s.missLine a).2.poison1 = false := by
  have hcount (b : Nat) (h : s.homeGood b) : (s.countAccess (lineOf a) 4 false).homeGood b :=
    (homeGood_congr (by simp) (by simp) (by simp)).mpr h
  simp only [State.missLine, fetchCodeword_good (hcount _ h0), fetchCodeword_good (hcount _ h1), Bool.not_true, and_self]

end

/-! ### A line obtained by a core (R205) -/

section
variable {s : State} {a : Nat}

/-- The line that a core obtains, before its marks change: as the caches hold it, else as a miss fills it. -/
def State.lineSource (s : State) (a : Nat) : CacheLine := (s.cache.line a).getD (s.missLine a).2

theorem lineSource_cached {l : CacheLine} (h : s.cache.line a = some l) : s.lineSource a = l := by
  rw [State.lineSource, h, Option.getD_some]

theorem lineSource_missed (h : s.cache.line a = none) : s.lineSource a = (s.missLine a).2 := by
  rw [State.lineSource, h, Option.getD_none]

/-- It holds the bytes that the cores see. -/
theorem lineSource_data (s : State) (a : Nat) : (s.lineSource a).data = s.seenLine a := by
  cases h : s.cache.line a with
  | none => simp only [lineSource_missed h, missLine_data, State.seenLine, h]
  | some l => simp only [lineSource_cached h, State.seenLine, h]

theorem lineSource_sound (hgood : s.goodLine a) : (s.lineSource a).poison0 = false ∧ (s.lineSource a).poison1 = false := by
  cases h : s.cache.line a with
  | none =>
    simp only [State.goodLine, h] at hgood
    rw [lineSource_missed h]
    exact missLine_sound hgood.1 hgood.2
  | some l =>
    simp only [State.goodLine, h] at hgood
    rwa [lineSource_cached h]

/-- The line obtained keeps the bytes and the poison of its source, and one obtained to be written has the core as its only holder. -/
theorem obtain_line (s : State) (c : CoreId) (a : Nat) (excl hint : Bool) :
    ∃ l, (s.obtain c a excl hint).cache.line a = some l ∧ l.data = s.seenLine a
      ∧ (∀ b, l.poisonAt b = (s.lineSource a).poisonAt b) ∧ (excl = true → l.holders = [c]) := by
  rw [← lineSource_data]
  refine ⟨_, State.setLine_line_self .., ?_, fun b => ?_, fun he => if_pos he⟩
  · cases h : s.cache.line a <;> simp [State.lineSource, h]
  · cases h : s.cache.line a <;> simp [State.lineSource, h, CacheLine.poisonAt]

/-- A piece of a sound line is read as the cores see it. -/
theorem obtain_read_sound (hgood : s.goodLine a) (c : CoreId) (excl hint : Bool) (n : Nat) :
    (s.obtain c a excl hint).cache.read (a, n) = (((s.seenLine a).drop (a % 128)).take n, true) := by
  obtain ⟨l, hl, hdata, hpoison, -⟩ := obtain_line s c a excl hint
  have hsound := CacheLine.poisonAt_of_sound (lineSource_sound hgood)
  rw [CacheS.read_cached hl, hdata, hpoison, hpoison, hsound, hsound]
  rfl

/-- A piece that begins in a poisoned codeword is bad. -/
theorem obtain_read_poisoned {l : CacheLine} (hl : s.cache.line a = some l) (hp : l.poisonAt a = true) (c : CoreId)
    (excl hint : Bool) (n : Nat) : ((s.obtain c a excl hint).cache.read (a, n)).2 = false := by
  obtain ⟨m, hm, -, hpoison, -⟩ := obtain_line s c a excl hint
  rw [CacheS.read_cached hm, hpoison, lineSource_cached hl, hp]
  rfl

end

/-! ### A load and a store (R196) -/

section
variable {s : State} {c : CoreId} {a n : Nat}

/-- Memory that bars no piece is no device range. -/
theorem region_not_device (h : s.pieceBarred a = false) : regionOf a ≠ .device := by
  intro hdev
  simp [State.pieceBarred, hdev, Region.isMem] at h

/-- The state after a load has obtained its line and its victims have made room. -/
def State.loaded (s : State) (c : CoreId) (a : Nat) (hint : Bool) (victims : List Victim) : State :=
  victims.foldl (fun s v => s.evict c v) (s.obtain c a false hint)

theorem exec_coreLoad_memory (h : s.coreMay c a n) (fetch hint : Bool) (victims : List Victim) :
    exec (.coreLoad c a n fetch hint victims) s = .next (if ((s.obtain c a false hint).cache.read (a, n)).2
      then (s.loaded c a hint victims).coreValue c ((s.obtain c a false hint).cache.read (a, n)).1
      else (s.loaded c a hint victims).coreTrap c (if fetch then .fetchFault else .loadFault)) := by
  obtain ⟨hrun, h0, hline, hbar, hwait⟩ := h
  simp [exec_coreLoad, execCoreLoad, hrun, h0.ne', region_not_device hbar, State.coreLoadMem, corePieces_inLine h0 hline, hbar, hwait,
    State.loaded]

theorem loaded_reply (s : State) (c : CoreId) (a : Nat) (hint : Bool) (victims : List Victim) :
    (s.loaded c a hint victims).reply = s.reply := by
  simp [State.loaded]

theorem coreValue_value (s : State) (c : CoreId) (bs : List Byte) :
    ((s.coreValue c bs).core c).value = BitVec.ofNat 64 (natOfBytes (bs.take 8)) := by
  simp [State.coreValue]

theorem coreTrap_trap (s : State) (c : CoreId) (t : CoreTrap) : ((s.coreTrap c t).core c).trap = some t := by
  simp [State.coreTrap]

theorem coreLoad_sound (h : s.coreMay c a n) (hgood : s.goodLine a) (fetch hint : Bool) (victims : List Victim) :
    Gives (.coreLoad c a n fetch hint victims) s fun u => u.reply = ⟨0#32, ((s.seenLine a).drop (a % 128)).take n⟩
      ∧ (u.core c).trap = none
      ∧ (u.core c).value = BitVec.ofNat 64 (natOfBytes (((s.seenLine a).drop (a % 128)).take n |>.take 8)) := by
  have hexec := exec_coreLoad_memory h fetch hint victims
  rw [obtain_read_sound hgood, if_pos rfl] at hexec
  exact gives_next hexec ⟨by rw [coreValue_reply, stOk_eq], coreValue_trap .., coreValue_value ..⟩

theorem coreLoad_poisoned {l : CacheLine} (h : s.coreMay c a n) (hl : s.cache.line a = some l) (hp : l.poisonAt a = true)
    (fetch hint : Bool) (victims : List Victim) :
    Gives (.coreLoad c a n fetch hint victims) s fun u =>
      (u.core c).trap = some (if fetch then .fetchFault else .loadFault) ∧ u.reply = s.reply := by
  have hexec := exec_coreLoad_memory h fetch hint victims
  rw [obtain_read_poisoned hl hp, if_neg Bool.false_ne_true] at hexec
  exact gives_next hexec ⟨coreTrap_trap .., loaded_reply ..⟩

/-- The state after a store has put its bytes into its line. -/
def State.stored (s : State) (c : CoreId) (a : Nat) (bs : List Byte) (hint : Bool) : State :=
  (s.obtain c a true hint).setLine a (((s.obtain c a true hint).cache.line a).map fun l => l.put (a % 128) bs)

theorem exec_coreStore_memory {bs : List Byte} (h : s.coreMay c a bs.length) (hint : Bool) :
    exec (.coreStore c a bs hint []) s
      = .next ((s.stored c a bs hint).setCore c { (s.stored c a bs hint).core c with trap := none }) := by
  obtain ⟨hrun, h0, hline, hbar, hwait⟩ := h
  have hne : bs ≠ [] := List.ne_nil_of_length_pos h0
  simp [exec_coreStore, execCoreStore, hrun, hne, region_not_device hbar, State.coreStoreMem, corePieces_inLine h0 hline, hbar, hwait,
    State.stored]

theorem coreStore_gives {bs : List Byte} (h : s.coreMay c a bs.length) (hint : Bool) :
    Gives (.coreStore c a bs hint []) s fun u => (u.core c).trap = none
      ∧ ∃ l, u.cache.line a = some l ∧ l.dirty = true ∧ l.holders = [c] ∧ l.data
          = (s.seenLine a).take (a % 128) ++ (bs ++ (s.seenLine a).drop (a % 128 + bs.length)) := by
  obtain ⟨l, hl, hdata, -, hholders⟩ := obtain_line s c a true hint
  refine gives_next (exec_coreStore_memory h hint) ⟨by rw [State.setCore_core_self], l.put (a % 128) bs, ?_, rfl, hholders rfl, ?_⟩
  · exact (State.setLine_line_self ..).trans (congrArg (Option.map _) hl)
  · rw [← hdata]
    rfl

end

/-! ### An atomic in the cache (R208) -/

theorem amoBytes_length (op : AmoOp) (wide : Bool) (old : List Byte) (v cmp : W64) :
    (amoBytes op wide old v cmp).length = if wide then 8 else 4 := by
  cases wide <;> exact bytesOfNat_length ..

section
variable {s : State} {c : CoreId} {a n : Nat} {op : AmoOp} {wide : Bool} {v cmp : W64}

/-- The answer of an atomic to its core. -/
theorem amoDone_answers (s : State) (c : CoreId) (wide : Bool) (old : List Byte) :
    (s.amoDone c wide old).reply = ⟨0#32, old⟩ ∧ ((s.amoDone c wide old).core c).value = amoOld wide old
      ∧ ((s.amoDone c wide old).core c).trap = none := by
  simp [State.amoDone, stOk_eq]

theorem exec_coreAmo_misaligned (hrun : (s.core c).state = 1) (ha : a % (if wide then 8 else 4) ≠ 0) :
    exec (.coreAmo c op a wide v cmp) s = .next (s.coreTrap c .storeMisaligned) := by
  simp only [exec_coreAmo, execCoreAmo, hrun, ha, ne_eq, not_true_eq_false, not_false_eq_true, if_true, if_false]

/-- An aligned atomic that may proceed is performed as the predictor says (R210). -/
theorem exec_coreAmo_aligned (hn : n = if wide then 8 else 4) (h : s.coreMay c a n) (ha : a % n = 0) (hw : s.writeBackWaits a = false) :
    exec (.coreAmo c op a wide v cmp) s
      = .next (if s.cache.predicted c (a / 128) ≥ 2 then s.amoHome c op a wide v cmp else s.amoCache c op a wide v cmp) := by
  obtain ⟨hrun, -, -, hbar, hwait⟩ := h
  subst hn
  simp [exec_coreAmo, execCoreAmo, hrun, ha, hbar, hwait, hw]

/-- An atomic performed in the cache replaces the operand in the line obtained, and marks the line as touched by the core. -/
theorem amoCache_sound (hgood : s.goodLine a) (old : List Byte)
    (hold : old = ((s.seenLine a).drop (a % 128)).take (if wide then 8 else 4)) :
    ∃ l : CacheLine, l.data = s.seenLine a
      ∧ s.amoCache c op a wide v cmp = ((s.obtain c a true false).setLine a
        (some { l.put (a % 128) (amoBytes op wide old v cmp) with amoBy := some c })).amoDone c wide old := by
  obtain ⟨l, hl, hdata, -, -⟩ := obtain_line s c a true false
  refine ⟨l, hdata, ?_⟩
  simp [State.amoCache, obtain_read_sound hgood, hl, ← hold]

theorem coreAmo_cached (hn : n = if wide then 8 else 4) (h : s.coreMay c a n) (ha : a % n = 0) (hgood : s.goodLine a)
    (hw : s.writeBackWaits a = false) (hp : s.cache.predicted c (a / 128) < 2) (old : List Byte)
    (hold : old = ((s.seenLine a).drop (a % 128)).take n) :
    Gives (.coreAmo c op a wide v cmp) s fun u => u.reply = ⟨0#32, old⟩ ∧ (u.core c).value = amoOld wide old
      ∧ (u.core c).trap = none
      ∧ ∃ l, u.cache.line a = some l ∧ l.dirty = true ∧ l.amoBy = some c ∧ l.data
          = (s.seenLine a).take (a % 128) ++ (amoBytes op wide old v cmp ++ (s.seenLine a).drop (a % 128 + n)) := by
  have hexec := exec_coreAmo_aligned (op := op) (v := v) (cmp := cmp) hn h ha hw
  obtain ⟨l, hdata, hamo⟩ := amoCache_sound (c := c) (op := op) (v := v) (cmp := cmp) hgood old (hn ▸ hold)
  rw [if_neg (Nat.not_le.mpr hp), hamo] at hexec
  obtain ⟨hreply, hvalue, htrap⟩ := amoDone_answers ((s.obtain c a true false).setLine a
    (some { l.put (a % 128) (amoBytes op wide old v cmp) with amoBy := some c })) c wide old
  refine gives_next hexec ⟨hreply, hvalue, htrap, _, State.setLine_line_self .., rfl, rfl, ?_⟩
  rw [← hdata, hn, ← amoBytes_length op wide old v cmp]
  rfl

end

/-! ### An atomic at the home (R208, R210) -/

section
variable {s : State} {c : CoreId} {a n : Nat} {op : AmoOp} {wide : Bool} {v cmp : W64}

/-- An aligned operand lies in one range. -/
theorem engineRange_aligned (hn : n = 4 ∨ n = 8) (ha : a % n = 0) (hr : (regionOf a).isMem = true) :
    engineRange a n = some (regionOf a) := by
  have hsame : regionOf a = regionOf (a + (n - 1)) := by
    unfold regionOf
    rcases hn with rfl | rfl <;> grind
  simp [engineRange, hr, ← hsame]

theorem serves_congr {u : State} (hm : u.mem = s.mem) (hn : u.net = s.net) (d : Nat) : u.serves a d = s.serves a d := by
  simp only [State.serves, State.routed, hm, hn]

/-- The state in which the home operates on a line that no cache holds: the predictor counts the entry down (R210). -/
def State.atHome (s : State) (c : CoreId) (a : Nat) : State :=
  { s with cache := (s.cache.forget c (a / 128)).setLine a none }

/-- Where the home reads the old operand and writes the new one, the core receives the old one. -/
theorem amoHome_uncached (hl : s.cache.line a = none) {x u : State} {old : List Byte}
    (hread : (s.atHome c a).readMem a (if wide then 8 else 4) 4 = ⟨x, stOk, old⟩)
    (hwrite : x.writeMem a (amoBytes op wide old v cmp) 4 = ⟨u, stOk, []⟩) :
    s.amoHome c op a wide v cmp = (u.setCore c ((u.core c).event 6)).amoDone c wide old := by
  have hback : (State.writeBack { s with cache := s.cache.forget c (a / 128) } false a).1
      = { s with cache := s.cache.forget c (a / 128) } := by
    simp only [State.writeBack, CacheS.forget_line, hl]
  have hline : ({ s with cache := s.cache.forget c (a / 128) } : State).setLine a none = s.atHome c a := rfl
  simp only [State.amoHome, hl, CacheS.takeFrom_absent hl, if_true, hback, hline, hread, hwrite, ne_eq, not_true_eq_false, if_false]

/-- At a home that serves the sound operand, a read and then a write of it succeed, and change its bytes alone. -/
theorem atHome_operates {r : Region} {new : List Byte} (hr : engineRange a n = some r) (hhost : r ≠ .host) (hs : s.serves a 4 = true)
    (hclean : s.mem.clean a n) (hlen : new.length = n) (c : CoreId) :
    ∃ x u, (s.atHome c a).readMem a n 4 = ⟨x, stOk, s.mem.load a n⟩ ∧ x.writeMem a new 4 = ⟨u, stOk, []⟩
      ∧ u.cache.line a = none ∧ u.mem.load a n = new ∧ ∀ b, b < a ∨ a + n ≤ b → u.mem.load b 1 = s.mem.load b 1 := by
  have hread : (s.atHome c a).readMem a n 4 = ⟨(s.atHome c a).countSpan a n 4 false, stOk, s.mem.load a n⟩ :=
    readMem_ok (s.atHome c a) true a n 4 r hr hhost hs hclean
  generalize hx : (s.atHome c a).countSpan a n 4 false = x at hread
  have hmem : x.mem = s.mem := by simp [← hx, State.atHome]
  have hnet : x.net = s.net := by simp [← hx, State.atHome]
  have hline : x.cache.line a = none := by simp [← hx, State.atHome]
  subst hlen
  obtain ⟨u, hwrite, -, -, -, -, hin, hout⟩ := writeMem_ok x true a 4 new r hr hhost (by rwa [serves_congr hmem hnet]) (by rwa [hmem])
  have hkeep : (x.writeMemBy true a new 4).st.cache = x.cache := by simp
  rw [hwrite] at hkeep
  exact ⟨x, u, hread, hwrite, (congrArg (CacheS.line · a) hkeep).trans hline, hin, hmem ▸ hout⟩

theorem coreAmo_home (hn : n = if wide then 8 else 4) (h : s.coreMay c a n) (ha : a % n = 0) (hl : s.cache.line a = none)
    (hr : regionOf a = .near ∨ regionOf a = .deep) (hs : s.serves a 4 = true) (hclean : s.mem.clean a n)
    (hp : 2 ≤ s.cache.predicted c (a / 128)) :
    Gives (.coreAmo c op a wide v cmp) s fun u => u.reply = ⟨0#32, s.mem.load a n⟩
      ∧ (u.core c).value = amoOld wide (s.mem.load a n) ∧ u.mem.load a n = amoBytes op wide (s.mem.load a n) v cmp
      ∧ u.cache.line a = none ∧ ∀ b, b < a ∨ a + n ≤ b → u.mem.load b 1 = s.mem.load b 1 := by
  have hw : s.writeBackWaits a = false := by simp only [State.writeBackWaits, hl]
  have hexec := exec_coreAmo_aligned (op := op) (v := v) (cmp := cmp) hn h ha hw
  have hhost : regionOf a ≠ .host := by rcases hr with hr | hr <;> rw [hr] <;> decide
  have hrange : engineRange a n = some (regionOf a) :=
    engineRange_aligned (by cases wide <;> simp [hn]) ha (by rcases hr with hr | hr <;> rw [hr] <;> rfl)
  obtain ⟨x, u, hread, hwrite, hline, hin, hout⟩ := atHome_operates hrange hhost hs hclean
    ((amoBytes_length op wide (s.mem.load a n) v cmp).trans hn.symm) c
  rw [if_pos hp, amoHome_uncached hl (hn ▸ hread) hwrite] at hexec
  obtain ⟨hreply, hvalue, -⟩ := amoDone_answers (u.setCore c ((u.core c).event 6)) c wide (s.mem.load a n)
  exact gives_next hexec ⟨hreply, hvalue, hin, hline, hout⟩

end

/-- Settles O23: loads of a sound line and of a poisoned one, a store, the atomic in the cache and misaligned, and the atomic at the
home. -/
theorem coreAccess : Obligations.CoreAccess := by
  refine ⟨fun c s a => ⟨fun n fetch hint victims hmay hgood => coreLoad_sound hmay hgood fetch hint victims,
    fun n fetch hint victims l hmay hl hp => coreLoad_poisoned hmay hl hp fetch hint victims,
    fun bs hint hmay => coreStore_gives hmay hint,
    fun op wide v cmp n old hn hmay ha hgood hw hp hold => coreAmo_cached hn hmay ha hgood hw hp old hold,
    fun op wide v cmp hrun ha => gives_next (exec_coreAmo_misaligned hrun ha) ⟨coreTrap_trap .., rfl⟩⟩,
    fun c op a wide v cmp s n hn hmay ha hl hr hs hclean hp => coreAmo_home hn hmay ha hl hr hs hclean hp⟩

end Sys2Proof.Machine

/-! ## The invariant of the queue, memory and the window table

That the state after reset is safe and that a step keeps it safe: the statements O3 and O4. -/

namespace Sys2Proof.Machine

/-- What every command keeps of the invariant `Safe`: the queue as it is, memory's canonical form and the legality of every window. -/
structure Kept (s t : State) : Prop where
  pending : t.pending = s.pending
  memoryOk : MemoryOk s → MemoryOk t
  windowsOk : WindowsOk s → WindowsOk t

section
variable {s t : State}

theorem Kept.of_frame (h : t.pending = s.pending ∧ t.mem = s.mem ∧ t.win = s.win) : Kept s t := by
  obtain ⟨hpending, hmem, hwin⟩ := h
  exact ⟨hpending, fun h => by rwa [MemoryOk, hmem], fun h => by rwa [WindowsOk, hwin]⟩

theorem Kept.of_wf (h : t.pending = s.pending ∧ t.win = s.win) (hmem : MemoryOk s → MemoryOk t) : Kept s t := by
  obtain ⟨hpending, hwin⟩ := h
  exact ⟨hpending, hmem, fun h => by rwa [WindowsOk, hwin]⟩

theorem Kept.of_winOk (h : t.pending = s.pending ∧ t.mem = s.mem) (hwin : WindowsOk s → WindowsOk t) : Kept s t := by
  obtain ⟨hpending, hmem⟩ := h
  exact ⟨hpending, fun h => by rwa [MemoryOk, hmem], hwin⟩

/-- Every command keeps its part of the invariant: by its frame where it reaches neither memory nor the window table, by the laws of
the canonical form where it reaches memory, and by those of the window table where it can commit a window or reset the package. -/
theorem exec_kept (c : Instr) (h : exec c s = .next t) : Kept s t := by
  cases c with
  -- Neither memory nor the window table.
  | instructionFetch _ => exact .of_frame (by simp only [execInstructionFetch_frame _ _ h, and_self])
  | nop _ _ => exact .of_frame (by simp only [execNop_frame _ _ _ h, and_self])
  | halt _ _ => exact .of_frame (by simp only [execHalt_frame _ _ _ h, and_self])
  | sadd _ _ _ _ _ => exact .of_frame (by simp only [execSadd_frame _ _ _ _ _ _ h, and_self])
  | ssub _ _ _ _ _ => exact .of_frame (by simp only [execSsub_frame _ _ _ _ _ _ h, and_self])
  | sand _ _ _ _ _ => exact .of_frame (by simp only [execSand_frame _ _ _ _ _ _ h, and_self])
  | sor _ _ _ _ _ => exact .of_frame (by simp only [execSor_frame _ _ _ _ _ _ h, and_self])
  | sxor _ _ _ _ _ => exact .of_frame (by simp only [execSxor_frame _ _ _ _ _ _ h, and_self])
  | sshl _ _ _ _ _ => exact .of_frame (by simp only [execSshl_frame _ _ _ _ _ _ h, and_self])
  | sshr _ _ _ _ _ => exact .of_frame (by simp only [execSshr_frame _ _ _ _ _ _ h, and_self])
  | smul _ _ _ _ _ => exact .of_frame (by simp only [execSmul_frame _ _ _ _ _ _ h, and_self])
  | saddi _ _ _ _ _ => exact .of_frame (by simp only [execSaddi_frame _ _ _ _ _ _ h, and_self])
  | sli _ _ _ _ => exact .of_frame (by simp only [execSli_frame _ _ _ _ _ h, and_self])
  | shi _ _ _ _ => exact .of_frame (by simp only [execShi_frame _ _ _ _ _ h, and_self])
  | sld _ _ _ _ _ => exact .of_frame (by simp only [execSld_frame _ _ _ _ _ _ h, and_self])
  | sst _ _ _ _ _ => exact .of_frame (by simp only [execSst_frame _ _ _ _ _ _ h, and_self])
  | beq _ _ _ _ _ => exact .of_frame (by simp only [execBeq_frame _ _ _ _ _ _ h, and_self])
  | bne _ _ _ _ _ => exact .of_frame (by simp only [execBne_frame _ _ _ _ _ _ h, and_self])
  | blt _ _ _ _ _ => exact .of_frame (by simp only [execBlt_frame _ _ _ _ _ _ h, and_self])
  | bltu _ _ _ _ _ => exact .of_frame (by simp only [execBltu_frame _ _ _ _ _ _ h, and_self])
  | jmp _ _ _ => exact .of_frame (by simp only [execJmp_frame _ _ _ _ h, and_self])
  | ring _ _ _ _ _ _ => exact .of_frame (by simp only [execRing_frame _ _ _ _ _ _ _ h, and_self])
  | ringFire _ => exact .of_frame (by simp only [execRingFire_frame _ _ h, and_self])
  | wait _ _ _ _ _ => exact .of_frame (by simp only [execWait_frame _ _ _ _ _ _ h, and_self])
  | fence t k scope qmask => exact .of_frame (by simp only [execFence_frame t k scope qmask _ h, and_self])
  | flags _ _ _ _ => exact .of_frame (by simp only [execFlags_frame _ _ _ _ _ h, and_self])
  | tally _ _ _ => exact .of_frame (by simp only [execTally_frame _ _ _ _ h, and_self])
  | mma _ _ => exact .of_frame (by simp only [execMma_frame _ _ _ h, and_self])
  | drain _ _ => exact .of_frame (by simp only [execDrain_frame _ _ _ h, and_self])
  | sclr _ => exact .of_frame (by simp only [execSclr_frame _ _ h, and_self])
  | ssto _ => exact .of_frame (by simp only [execSsto_frame _ _ h, and_self])
  | seed _ => exact .of_frame (by simp only [execSeed_frame _ _ h, and_self])
  | vadd _ => exact .of_frame (by simp only [execVadd_frame _ _ h, and_self])
  | vsub _ => exact .of_frame (by simp only [execVsub_frame _ _ h, and_self])
  | vmul _ => exact .of_frame (by simp only [execVmul_frame _ _ h, and_self])
  | vfma _ => exact .of_frame (by simp only [execVfma_frame _ _ h, and_self])
  | vfnma _ => exact .of_frame (by simp only [execVfnma_frame _ _ h, and_self])
  | vmin _ => exact .of_frame (by simp only [execVmin_frame _ _ h, and_self])
  | vmax _ => exact .of_frame (by simp only [execVmax_frame _ _ h, and_self])
  | vabs _ => exact .of_frame (by simp only [execVabs_frame _ _ h, and_self])
  | vneg _ => exact .of_frame (by simp only [execVneg_frame _ _ h, and_self])
  | vdiv _ => exact .of_frame (by simp only [execVdiv_frame _ _ h, and_self])
  | vsqrt _ => exact .of_frame (by simp only [execVsqrt_frame _ _ h, and_self])
  | vcmplt _ => exact .of_frame (by simp only [execVcmplt_frame _ _ h, and_self])
  | vcmpeq _ => exact .of_frame (by simp only [execVcmpeq_frame _ _ h, and_self])
  | vclass _ => exact .of_frame (by simp only [execVclass_frame _ _ h, and_self])
  | vsel _ => exact .of_frame (by simp only [execVsel_frame _ _ h, and_self])
  | vbcast _ => exact .of_frame (by simp only [execVbcast_frame _ _ h, and_self])
  | vld _ => exact .of_frame (by simp only [execVld_frame _ _ h, and_self])
  | vst _ => exact .of_frame (by simp only [execVst_frame _ _ h, and_self])
  | vrsum _ => exact .of_frame (by simp only [execVrsum_frame _ _ h, and_self])
  | vrmax _ => exact .of_frame (by simp only [execVrmax_frame _ _ h, and_self])
  | viadd _ => exact .of_frame (by simp only [execViadd_frame _ _ h, and_self])
  | visub _ => exact .of_frame (by simp only [execVisub_frame _ _ h, and_self])
  | vimul _ => exact .of_frame (by simp only [execVimul_frame _ _ h, and_self])
  | vand _ => exact .of_frame (by simp only [execVand_frame _ _ h, and_self])
  | vor _ => exact .of_frame (by simp only [execVor_frame _ _ h, and_self])
  | vxor _ => exact .of_frame (by simp only [execVxor_frame _ _ h, and_self])
  | vshl _ => exact .of_frame (by simp only [execVshl_frame _ _ h, and_self])
  | vshr _ => exact .of_frame (by simp only [execVshr_frame _ _ h, and_self])
  | vshra _ => exact .of_frame (by simp only [execVshra_frame _ _ h, and_self])
  | vcvtif _ => exact .of_frame (by simp only [execVcvtif_frame _ _ h, and_self])
  | vcvtfi _ => exact .of_frame (by simp only [execVcvtfi_frame _ _ h, and_self])
  | vmov _ => exact .of_frame (by simp only [execVmov_frame _ _ h, and_self])
  | instructionCompletion _ _ _ => exact .of_frame (by simp only [execInstructionCompletion_frame _ _ _ _ h, and_self])
  | msub _ => exact .of_frame (by simp only [execMsub_frame _ _ h, and_self])
  | descriptorComplete _ _ => exact .of_frame (by simp only [execDescriptorComplete_frame _ _ _ h, and_self])
  | set _ _ => exact .of_frame (by simp only [execSet_frame _ _ _ h, and_self])
  | ringRegisterWrite _ _ _ => exact .of_frame (by simp only [execRingRegisterWrite_frame _ _ _ _ h, and_self])
  | bellBatch _ _ => exact .of_frame (by simp only [execBellBatch_frame _ _ _ h, and_self])
  | tileStop _ => exact .of_frame (by simp only [execTileStop_frame _ _ h, and_self])
  | tileProgramEnd _ => exact .of_frame (by simp only [execTileProgramEnd_frame _ _ h, and_self])
  | tileClearEnd _ => exact .of_frame (by simp only [execTileClearEnd_frame _ _ h, and_self])
  | arraySelfTest _ _ => exact .of_frame (by simp only [execArraySelfTest_frame _ _ _ h, and_self])
  | srSeedWrite _ _ => exact .of_frame (by simp only [execSrSeedWrite_frame _ _ _ h, and_self])
  | cacheSweepComplete => exact .of_frame (by simp only [execCacheSweepComplete_frame _ h, and_self])
  | ioinval _ => exact .of_frame (by simp only [execIoinval_frame _ _ h, and_self])
  | ioinvalComplete => exact .of_frame (by simp only [execIoinvalComplete_frame _ h, and_self])
  | tqConsWrite _ => exact .of_frame (by simp only [execTqConsWrite_frame _ _ h, and_self])
  | counterDecay => exact .of_frame (by simp only [execCounterDecay_frame _ h, and_self])
  | unmapGo v => exact .of_frame (by simp only [execUnmapGo_frame v _ h, and_self])
  | unmapPhaseOneComplete => exact .of_frame (by simp only [execUnmapPhaseOneComplete_frame _ h, and_self])
  | unmapDrained => exact .of_frame (by simp only [execUnmapDrained_frame _ h, and_self])
  | coreStart _ _ => exact .of_frame (by simp only [execCoreStart_frame _ _ _ h, and_self])
  | cleanByRange _ => exact .of_frame (by simp only [execCleanByRange_frame _ _ h, and_self])
  | invalidateByRange _ => exact .of_frame (by simp only [execInvalidateByRange_frame _ _ h, and_self])
  | machineTimerInterrupt _ => exact .of_frame (by simp only [execMachineTimerInterrupt_frame _ _ h, and_self])
  | hostMsgFree _ => exact .of_frame (by simp only [execHostMsgFree_frame _ _ h, and_self])
  | rtMsgOffer _ => exact .of_frame (by simp only [execRtMsgOffer_frame _ _ h, and_self])
  | monitorEvaluation _ _ _ _ => exact .of_frame (by simp only [execMonitorEvaluation_frame _ _ _ _ _ h, and_self])
  | trimSave => exact .of_frame (by simp only [execTrimSave_frame _ h, and_self])
  | streamOpen _ _ => exact .of_frame (by simp only [execStreamOpen_frame _ _ _ h, and_self])
  | streamClose _ _ => exact .of_frame (by simp only [execStreamClose_frame _ _ _ h, and_self])
  | doorbell _ _ => exact .of_frame (by simp only [execDoorbell_frame _ _ _ h, and_self])
  | streamNop _ _ => exact .of_frame (by simp only [execStreamNop_frame _ _ _ h, and_self])
  | streamTerminate _ _ => exact .of_frame (by simp only [execStreamTerminate_frame _ _ _ h, and_self])
  | streamRing _ _ => exact .of_frame (by simp only [execStreamRing_frame _ _ _ h, and_self])
  | streamWait _ _ => exact .of_frame (by simp only [execStreamWait_frame _ _ _ h, and_self])
  | streamFence _ _ => exact .of_frame (by simp only [execStreamFence_frame _ _ _ h, and_self])
  | roll _ _ => exact .of_frame (by simp only [execRoll_frame _ _ _ h, and_self])
  | hdmCommit _ _ => exact .of_frame (by simp only [execHdmCommit_frame _ _ _ h, and_self])
  | getSupportedLogs => exact .of_frame (by simp only [execGetSupportedLogs_frame _ h, and_self])
  | getLog => exact .of_frame (by simp only [execGetLog_frame _ h, and_self])
  | runtimeSend _ => exact .of_frame (by simp only [execRuntimeSend_frame _ _ h, and_self])
  | runtimeRecv => exact .of_frame (by simp only [execRuntimeRecv_frame _ h, and_self])
  | linkRecovery => exact .of_frame (by simp only [execLinkRecovery_frame _ h, and_self])
  | hostLinkUp _ => exact .of_frame (by simp only [execHostLinkUp_frame _ _ h, and_self])
  | kettleRoll _ => exact .of_frame (by simp only [execKettleRoll_frame _ _ h, and_self])
  | currentLimitAlert _ _ => exact .of_frame (by simp only [execCurrentLimitAlert_frame _ _ _ h, and_self])
  | railTargetReached => exact .of_frame (by simp only [execRailTargetReached_frame _ h, and_self])
  | dictRead _ _ => exact .of_frame (by simp only [execDictRead_frame _ _ _ h, and_self])
  | dictDescribe _ _ => exact .of_frame (by simp only [execDictDescribe_frame _ _ _ h, and_self])
  | dictDiscover _ _ => exact .of_frame (by simp only [execDictDiscover_frame _ _ _ h, and_self])
  | dictOpen _ _ => exact .of_frame (by simp only [execDictOpen_frame _ _ _ h, and_self])
  | dictClose _ _ => exact .of_frame (by simp only [execDictClose_frame _ _ _ h, and_self])
  | sessionIdleTimeout _ _ => exact .of_frame (by simp only [execSessionIdleTimeout_frame _ _ _ h, and_self])
  | frameDrop why => exact .of_frame (by simp only [execFrameDrop_frame why _ h, and_self])
  | sealedComplete => exact .of_frame (by simp only [execSealedComplete_frame _ h, and_self])
  | telemetryWindow => exact .of_frame (by simp only [execTelemetryWindow_frame _ h, and_self])
  | getVersion _ => exact .of_frame (by simp only [execGetVersion_frame _ _ h, and_self])
  | getCapabilities _ => exact .of_frame (by simp only [execGetCapabilities_frame _ _ h, and_self])
  | negotiateAlgorithms _ _ => exact .of_frame (by simp only [execNegotiateAlgorithms_frame _ _ _ h, and_self])
  | getDigests _ => exact .of_frame (by simp only [execGetDigests_frame _ _ h, and_self])
  | getCertificate _ _ _ _ => exact .of_frame (by simp only [execGetCertificate_frame _ _ _ _ _ h, and_self])
  | challenge _ _ => exact .of_frame (by simp only [execChallenge_frame _ _ _ h, and_self])
  | getMeasurements _ _ => exact .of_frame (by simp only [execGetMeasurements_frame _ _ _ h, and_self])
  | keyExchange _ _ => exact .of_frame (by simp only [execKeyExchange_frame _ _ _ h, and_self])
  | finish _ _ _ => exact .of_frame (by simp only [execFinish_frame _ _ _ _ h, and_self])
  | heartbeat _ => exact .of_frame (by simp only [execHeartbeat_frame _ _ h, and_self])
  | keyUpdate _ => exact .of_frame (by simp only [execKeyUpdate_frame _ _ h, and_self])
  | romBegin _ _ => exact .of_frame (by simp only [execRomBegin_frame _ _ _ h, and_self])
  | romData _ _ => exact .of_frame (by simp only [execRomData_frame _ _ _ h, and_self])
  | powerOn _ => exact .of_frame (by simp only [execPowerOn_frame _ _ h, and_self])
  | bayInserted _ => exact .of_frame (by simp only [execBayInserted_frame _ _ h, and_self])
  | widthLapse _ => exact .of_frame (by simp only [execWidthLapse_frame _ _ h, and_self])
  | neighbourRecheck _ => exact .of_frame (by simp only [execNeighbourRecheck_frame _ _ h, and_self])
  | caps _ _ => exact .of_frame (by simp only [execCaps_frame _ _ _ h, and_self])
  | width _ _ => exact .of_frame (by simp only [execWidth_frame _ _ _ h, and_self])
  | key _ => exact .of_frame (by simp only [execKey_frame _ _ h, and_self])
  | spdm _ _ => exact .of_frame (by simp only [execSpdm_frame _ _ _ h, and_self])
  | rekey _ _ => exact .of_frame (by simp only [execRekey_frame _ _ _ h, and_self])
  | remoteRing _ _ => exact .of_frame (by simp only [execRemoteRing_frame _ _ _ h, and_self])
  | violationHalving => exact .of_frame (by simp only [execViolationHalving_frame _ h, and_self])
  | qclear _ _ => exact .of_frame (by simp only [execQclear_frame _ _ _ h, and_self])
  | cadAdv v => exact .of_frame (by simp only [execCadAdv_frame v _ h, and_self])
  | cadSetC _ => exact .of_frame (by simp only [execCadSetC_frame _ _ h, and_self])
  | cadCommit v => exact .of_frame (by simp only [execCadCommit_frame v _ h, and_self])
  | cadenceDelivery => exact .of_frame (by simp only [execCadenceDelivery_frame _ h, and_self])
  | linkControlSend _ _ => exact .of_frame (by simp only [execLinkControlSend_frame _ _ _ h, and_self])
  | supervisorTimerInterrupt _ _ => exact .of_frame (by simp only [execSupervisorTimerInterrupt_frame _ _ _ h, and_self])
  | fqConsWrite _ => exact .of_frame (by simp only [execFqConsWrite_frame _ _ h, and_self])
  | fqEnable _ => exact .of_frame (by simp only [execFqEnable_frame _ _ h, and_self])
  | writeSlotEnded _ => exact .of_frame (by simp only [execWriteSlotEnded_frame _ _ h, and_self])
  | doeDiscovery _ => exact .of_frame (by simp only [execDoeDiscovery_frame _ _ h, and_self])
  | enTied _ => exact .of_frame (by simp only [execEnTied_frame _ _ h, and_self])
  -- Memory.
  | vcnt _ _ => exact .of_wf (by simp only [execVcnt_frame _ _ _ h, and_self]) (execVcnt_wf _ _ _ h)
  | clapperVld _ _ _ _ => exact .of_wf (by simp only [execClapperVld_frame _ _ _ _ _ h, and_self]) (execClapperVld_wf _ _ _ _ _ h)
  | clapperVst _ _ _ _ _ => exact .of_wf (by simp only [execClapperVst_frame _ _ _ _ _ _ h, and_self]) (execClapperVst_wf _ _ _ _ _ _ h)
  | clapperVbcast _ _ _ _ => exact .of_wf (by simp only [execClapperVbcast_frame _ _ _ _ _ h, and_self]) (execClapperVbcast_wf _ _ _ _ _ h)
  | descriptorAccept _ => exact .of_wf (by simp only [execDescriptorAccept_frame _ _ h, and_self]) (execDescriptorAccept_wf _ _ h)
  | copy _ _ => exact .of_wf (by simp only [execCopy_frame _ _ _ h, and_self]) (execCopy_wf _ _ _ h)
  | transpose _ _ => exact .of_wf (by simp only [execTranspose_frame _ _ _ h, and_self]) (execTranspose_wf _ _ _ h)
  | fill _ _ => exact .of_wf (by simp only [execFill_frame _ _ _ h, and_self]) (execFill_wf _ _ _ h)
  | inline _ _ => exact .of_wf (by simp only [execInline_frame _ _ _ h, and_self]) (execInline_wf _ _ _ h)
  | put _ _ => exact .of_wf (by simp only [execPut_frame _ _ _ h, and_self]) (execPut_wf _ _ _ h)
  | get _ _ => exact .of_wf (by simp only [execGet_frame _ _ _ h, and_self]) (execGet_wf _ _ _ h)
  | launch _ _ => exact .of_wf (by simp only [execLaunch_frame _ _ _ h, and_self]) (execLaunch_wf _ _ _ h)
  | terminate => exact .of_wf (by simp only [execTerminate_frame _ h, and_self]) (execTerminate_wf _ h)
  | completionRecord _ => exact .of_wf (by simp only [execCompletionRecord_frame _ _ h, and_self]) (execCompletionRecord_wf _ _ h)
  | memoryRead _ _ _ => exact .of_wf (by simp only [execMemoryRead_frame _ _ _ _ h, and_self]) (execMemoryRead_wf _ _ _ _ h)
  | memoryWrite _ _ _ => exact .of_wf (by simp only [execMemoryWrite_frame _ _ _ _ h, and_self]) (execMemoryWrite_wf _ _ _ _ h)
  | patrolScrub _ => exact .of_wf (by simp only [execPatrolScrub_frame _ _ h, and_self]) (execPatrolScrub_wf _ _ h)
  | ceInnerCollect _ _ => exact .of_wf (by simp only [execCeInnerCollect_frame _ _ _ h, and_self]) (execCeInnerCollect_wf _ _ _ h)
  | lowerTierTimeout _ _ => exact .of_wf (by simp only [execLowerTierTimeout_frame _ _ _ h, and_self]) (execLowerTierTimeout_wf _ _ _ h)
  | lateResponseDiscard _ _ => exact .of_wf (by simp only [execLateResponseDiscard_frame _ _ _ h, and_self]) (execLateResponseDiscard_wf _ _ _ h)
  | writebackRetry _ => exact .of_wf (by simp only [execWritebackRetry_frame _ _ h, and_self]) (execWritebackRetry_wf _ _ h)
  | coreLoad _ _ _ _ _ _ => exact .of_wf (by simp only [execCoreLoad_frame _ _ _ _ _ _ _ h, and_self]) (execCoreLoad_wf _ _ _ _ _ _ _ h)
  | coreAmo _ _ _ _ _ _ => exact .of_wf (by simp only [execCoreAmo_frame _ _ _ _ _ _ _ h, and_self]) (execCoreAmo_wf _ _ _ _ _ _ _ h)
  | qmodeWrite _ _ => exact .of_wf (by simp only [execQmodeWrite_frame _ _ _ h, and_self]) (execQmodeWrite_wf _ _ _ h)
  | poolWrite _ _ => exact .of_wf (by simp only [execPoolWrite_frame _ _ _ h, and_self]) (execPoolWrite_wf _ _ _ h)
  | stackFailure _ => exact .of_wf (by simp only [execStackFailure_frame _ _ h, and_self]) (execStackFailure_wf _ _ h)
  | stackInitComplete _ _ => exact .of_wf (by simp only [execStackInitComplete_frame _ _ _ h, and_self]) (execStackInitComplete_wf _ _ _ h)
  | faultResp _ => exact .of_wf (by simp only [execFaultResp_frame _ _ h, and_self]) (execFaultResp_wf _ _ h)
  | fqResp _ => exact .of_wf (by simp only [execFqResp_frame _ _ h, and_self]) (execFqResp_wf _ _ h)
  | tocsinPost _ => exact .of_wf (by simp only [execTocsinPost_frame _ _ h, and_self]) (execTocsinPost_wf _ _ h)
  | tqEnable _ => exact .of_wf (by simp only [execTqEnable_frame _ _ h, and_self]) (execTqEnable_wf _ _ h)
  | overflowMarkerRewrite => exact .of_wf (by simp only [execOverflowMarkerRewrite_frame _ h, and_self]) (execOverflowMarkerRewrite_wf _ h)
  | forwardQueuePost _ => exact .of_wf (by simp only [execForwardQueuePost_frame _ _ h, and_self]) (execForwardQueuePost_wf _ _ h)
  | migrationCopy => exact .of_wf (by simp only [execMigrationCopy_frame _ h, and_self]) (execMigrationCopy_wf _ h)
  | migrationZero => exact .of_wf (by simp only [execMigrationZero_frame _ h, and_self]) (execMigrationZero_wf _ h)
  | migrationAdvise => exact .of_wf (by simp only [execMigrationAdvise_frame _ h, and_self]) (execMigrationAdvise_wf _ h)
  | cboClean _ _ => exact .of_wf (by simp only [execCboClean_frame _ _ _ h, and_self]) (execCboClean_wf _ _ _ h)
  | cboFlush _ _ => exact .of_wf (by simp only [execCboFlush_frame _ _ _ h, and_self]) (execCboFlush_wf _ _ _ h)
  | cboInval _ _ => exact .of_wf (by simp only [execCboInval_frame _ _ _ h, and_self]) (execCboInval_wf _ _ _ h)
  | rangeOperationComplete _ => exact .of_wf (by simp only [execRangeOperationComplete_frame _ _ h, and_self]) (execRangeOperationComplete_wf _ _ h)
  | slotRead _ => exact .of_wf (by simp only [execSlotRead_frame _ _ h, and_self]) (execSlotRead_wf _ _ h)
  | slotReread _ => exact .of_wf (by simp only [execSlotReread_frame _ _ h, and_self]) (execSlotReread_wf _ _ h)
  | streamInline _ _ => exact .of_wf (by simp only [execStreamInline_frame _ _ _ h, and_self]) (execStreamInline_wf _ _ _ h)
  | inlineChain _ _ => exact .of_wf (by simp only [execInlineChain_frame _ _ _ h, and_self]) (execInlineChain_wf _ _ _ h)
  | streamCopy _ _ => exact .of_wf (by simp only [execStreamCopy_frame _ _ _ h, and_self]) (execStreamCopy_wf _ _ _ h)
  | streamLaunch _ _ _ _ => exact .of_wf (by simp only [execStreamLaunch_frame _ _ _ _ _ h, and_self]) (execStreamLaunch_wf _ _ _ _ _ h)
  | completionEntry _ _ => exact .of_wf (by simp only [execCompletionEntry_frame _ _ _ h, and_self]) (execCompletionEntry_wf _ _ _ h)
  | apertureWrite _ _ _ => exact .of_wf (by simp only [execApertureWrite_frame _ _ _ _ h, and_self]) (execApertureWrite_wf _ _ _ _ h)
  | apertureRead _ _ _ => exact .of_wf (by simp only [execApertureRead_frame _ _ _ _ h, and_self]) (execApertureRead_wf _ _ _ _ h)
  | cxlMemRead _ _ => exact .of_wf (by simp only [execCxlMemRead_frame _ _ _ h, and_self]) (execCxlMemRead_wf _ _ _ h)
  | cxlMemWrite _ _ => exact .of_wf (by simp only [execCxlMemWrite_frame _ _ _ h, and_self]) (execCxlMemWrite_wf _ _ _ h)
  | hostSnoop _ _ => exact .of_wf (by simp only [execHostSnoop_frame _ _ _ h, and_self]) (execHostSnoop_wf _ _ _ h)
  | hostLoss _ => exact .of_wf (by simp only [execHostLoss_frame _ _ h, and_self]) (execHostLoss_wf _ _ h)
  | endSession _ => exact .of_wf (by simp only [execEndSession_frame _ _ h, and_self]) (execEndSession_wf _ _ h)
  | latchOpened _ => exact .of_wf (by simp only [execLatchOpened_frame _ _ h, and_self]) (execLatchOpened_wf _ _ h)
  | unitOutOfService _ => exact .of_wf (by simp only [execUnitOutOfService_frame _ _ h, and_self]) (execUnitOutOfService_wf _ _ h)
  | reintegration _ _ => exact .of_wf (by simp only [execReintegration_frame _ _ _ h, and_self]) (execReintegration_wf _ _ _ h)
  | portEnable _ _ => exact .of_wf (by simp only [execPortEnable_frame _ _ _ h, and_self]) (execPortEnable_wf _ _ _ h)
  | portDisable _ _ => exact .of_wf (by simp only [execPortDisable_frame _ _ _ h, and_self]) (execPortDisable_wf _ _ _ h)
  | widthRequest _ _ => exact .of_wf (by simp only [execWidthRequest_frame _ _ _ h, and_self]) (execWidthRequest_wf _ _ _ h)
  | portBringup _ _ => exact .of_wf (by simp only [execPortBringup_frame _ _ _ h, and_self]) (execPortBringup_wf _ _ _ h)
  | coordinateCheck _ => exact .of_wf (by simp only [execCoordinateCheck_frame _ _ h, and_self]) (execCoordinateCheck_wf _ _ h)
  | linkHeartbeatTimeout _ => exact .of_wf (by simp only [execLinkHeartbeatTimeout_frame _ _ h, and_self]) (execLinkHeartbeatTimeout_wf _ _ h)
  | flitDiscard _ _ => exact .of_wf (by simp only [execFlitDiscard_frame _ _ _ h, and_self]) (execFlitDiscard_wf _ _ _ h)
  | linkReplay _ _ => exact .of_wf (by simp only [execLinkReplay_frame _ _ _ h, and_self]) (execLinkReplay_wf _ _ _ h)
  | putData _ _ => exact .of_wf (by simp only [execPutData_frame _ _ _ h, and_self]) (execPutData_wf _ _ _ h)
  | getReq _ _ => exact .of_wf (by simp only [execGetReq_frame _ _ _ h, and_self]) (execGetReq_wf _ _ _ h)
  | putAck _ _ => exact .of_wf (by simp only [execPutAck_frame _ _ _ h, and_self]) (execPutAck_wf _ _ _ h)
  | getData _ _ => exact .of_wf (by simp only [execGetData_frame _ _ _ h, and_self]) (execGetData_wf _ _ _ h)
  | nack _ _ => exact .of_wf (by simp only [execNack_frame _ _ _ h, and_self]) (execNack_wf _ _ _ h)
  | peal _ _ => exact .of_wf (by simp only [execPeal_frame _ _ _ h, and_self]) (execPeal_wf _ _ _ h)
  | messageTimeout _ _ => exact .of_wf (by simp only [execMessageTimeout_frame _ _ _ h, and_self]) (execMessageTimeout_wf _ _ _ h)
  | slotEpochAdvance _ _ => exact .of_wf (by simp only [execSlotEpochAdvance_frame _ _ _ h, and_self]) (execSlotEpochAdvance_wf _ _ _ h)
  | rs _ => exact .of_wf (by simp only [execRs_frame _ _ h, and_self]) (execRs_wf _ _ h)
  | ag _ => exact .of_wf (by simp only [execAg_frame _ _ h, and_self]) (execAg_wf _ _ h)
  | ar _ => exact .of_wf (by simp only [execAr_frame _ _ h, and_self]) (execAr_wf _ _ h)
  | pealTimeout _ => exact .of_wf (by simp only [execPealTimeout_frame _ _ h, and_self]) (execPealTimeout_wf _ _ h)
  | pealDescriptorComplete _ => exact .of_wf (by simp only [execPealDescriptorComplete_frame _ _ h, and_self]) (execPealDescriptorComplete_wf _ _ h)
  | pealBind _ => exact .of_wf (by simp only [execPealBind_frame _ _ h, and_self]) (execPealBind_wf _ _ h)
  | lotHandover _ _ => exact .of_wf (by simp only [execLotHandover_frame _ _ _ h, and_self]) (execLotHandover_wf _ _ _ h)
  | jobAccept => exact .of_wf (by simp only [execJobAccept_frame _ h, and_self]) (execJobAccept_wf _ h)
  | lotRun _ => exact .of_wf (by simp only [execLotRun_frame _ _ h, and_self]) (execLotRun_wf _ _ h)
  | jobComplete _ => exact .of_wf (by simp only [execJobComplete_frame _ _ h, and_self]) (execJobComplete_wf _ _ h)
  | hoopPacket _ _ _ => exact .of_wf (by simp only [execHoopPacket_frame _ _ _ _ h, and_self]) (execHoopPacket_wf _ _ _ _ h)
  | linkControl _ _ _ => exact .of_wf (by simp only [execLinkControl_frame _ _ _ _ h, and_self]) (execLinkControl_wf _ _ _ _ h)
  | retrain _ => exact .of_wf (by simp only [execRetrain_frame _ _ h, and_self]) (execRetrain_wf _ _ h)
  | trainingComplete _ _ => exact .of_wf (by simp only [execTrainingComplete_frame _ _ _ h, and_self]) (execTrainingComplete_wf _ _ _ h)
  | linkReturnToL0 _ => exact .of_wf (by simp only [execLinkReturnToL0_frame _ _ h, and_self]) (execLinkReturnToL0_wf _ _ h)
  | idleFlit _ _ => exact .of_wf (by simp only [execIdleFlit_frame _ _ _ h, and_self]) (execIdleFlit_wf _ _ _ h)
  | migrationDescriptorComplete => exact .of_wf (by simp only [execMigrationDescriptorComplete_frame _ h, and_self]) (execMigrationDescriptorComplete_wf _ h)
  | ideKm _ _ _ => exact .of_wf (by simp only [execIdeKm_frame _ _ _ _ h, and_self]) (execIdeKm_wf _ _ _ _ h)
  -- The window table: its commit, and what can write any register or start a cold reset.
  | coreStore _ _ _ _ _ => exact ⟨by simp only [execCoreStore_frame _ _ _ _ _ _ h], execCoreStore_wf _ _ _ _ _ _ h, execCoreStore_winOk _ _ _ _ _ _ h⟩
  | winCommit _ => exact .of_winOk (by simp only [execWinCommit_frame _ _ h, and_self]) (execWinCommit_winOk _ _ h)
  | mydarRequest _ => exact ⟨by simp only [execMydarRequest_frame _ _ h], execMydarRequest_wf _ _ h, execMydarRequest_winOk _ _ h⟩
  | kettleCycle _ => exact ⟨by simp only [execKettleCycle_frame _ _ h], execKettleCycle_wf _ _ h, execKettleCycle_winOk _ _ h⟩
  | inputReport _ _ => exact ⟨by simp only [execInputReport_frame _ _ _ h], execInputReport_wf _ _ _ h, execInputReport_winOk _ _ _ h⟩
  | dictWrite _ _ => exact ⟨by simp only [execDictWrite_frame _ _ _ h], execDictWrite_wf _ _ _ h, execDictWrite_winOk _ _ _ h⟩
  | dictFreeze _ _ => exact ⟨by simp only [execDictFreeze_frame _ _ _ h], execDictFreeze_wf _ _ _ h, execDictFreeze_winOk _ _ _ h⟩
  | dictRelease _ _ => exact ⟨by simp only [execDictRelease_frame _ _ _ h], execDictRelease_wf _ _ _ h, execDictRelease_winOk _ _ _ h⟩
  | romEnd => exact ⟨by simp only [execRomEnd_frame _ h], execRomEnd_wf _ h, execRomEnd_winOk _ h⟩
  | resetN _ _ => exact ⟨by simp only [execResetN_frame _ _ _ h], execResetN_wf _ _ _ h, execResetN_winOk _ _ _ h⟩
  | enBreak _ => exact ⟨by simp only [execEnBreak_frame _ _ h], execEnBreak_wf _ _ h, execEnBreak_winOk _ _ h⟩
  | actNone _ => exact ⟨by simp only [execActNone_frame _ _ h], execActNone_wf _ _ h, execActNone_winOk _ _ h⟩
  | coldReset _ => exact ⟨by simp only [execColdReset_frame _ _ h], execColdReset_wf _ _ h, execColdReset_winOk _ _ h⟩
  | bringupDone _ => exact ⟨by simp only [execBringupDone_frame _ _ h], execBringupDone_wf _ _ h, execBringupDone_winOk _ _ h⟩
  | takeOut _ _ _ => exact ⟨by simp only [execTakeOut_frame _ _ _ _ h], execTakeOut_wf _ _ _ _ h, execTakeOut_winOk _ _ _ _ h⟩
  | bringBack _ _ => exact ⟨by simp only [execBringBack_frame _ _ _ h], execBringBack_wf _ _ _ h, execBringBack_winOk _ _ _ h⟩
  | retest _ _ => exact ⟨by simp only [execRetest_frame _ _ _ h], execRetest_wf _ _ _ h, execRetest_winOk _ _ _ h⟩
  | dieReset _ _ => exact ⟨by simp only [execDieReset_frame _ _ _ h], execDieReset_wf _ _ _ h, execDieReset_winOk _ _ _ h⟩
  | writeSlot _ _ _ _ => exact ⟨by simp only [execWriteSlot_frame _ _ _ _ _ h], execWriteSlot_wf _ _ _ _ _ h, execWriteSlot_winOk _ _ _ _ _ h⟩
  | debugOpen _ _ => exact ⟨by simp only [execDebugOpen_frame _ _ _ h], execDebugOpen_wf _ _ _ h, execDebugOpen_winOk _ _ _ h⟩
  | debugClose _ => exact ⟨by simp only [execDebugClose_frame _ _ h], execDebugClose_wf _ _ h, execDebugClose_winOk _ _ h⟩
  | registerWrite _ _ _ => exact ⟨by simp only [execRegisterWrite_frame _ _ _ _ h], execRegisterWrite_wf _ _ _ _ h, execRegisterWrite_winOk _ _ _ _ h⟩

end

/-- Settles O3: reset lists no byte and no window. -/
theorem resetIsSafe : Obligations.ResetIsSafe := ⟨by simp [State.reset], MemS.reset_wf, WinS.reset_ok⟩

/-- Settles O4: the command taken keeps its part of the invariant, and those left were in the queue before. -/
theorem stepKeepsSafe : Obligations.StepKeepsSafe := by
  rintro s t hsafe hstep
  obtain ⟨hqueue, hmem, hwin⟩ := hsafe
  unfold step at hstep
  split at hstep
  next => exact Host.Outcome.next.inj hstep ▸ ⟨hqueue, hmem, hwin⟩
  next c rest hpending =>
    have hkept := exec_kept c hstep
    have hrest : t.pending = rest := hkept.pending
    exact ⟨fun d hd => hqueue d (hpending ▸ List.mem_cons_of_mem c (hrest ▸ hd)), hkept.memoryOk hmem, hkept.windowsOk hwin⟩

end Sys2Proof.Machine

/-! ## The commit of an inbound window

What WIN_COMMIT makes of the staged entry, and the statement O31 settled from it. -/

namespace Sys2Proof.Machine

section
variable {s : State} {v : W32}

/-- The staged entry may be installed: its words agree with their complements, and its fields keep the rules (R243, R244). -/
def WinS.stageOk (x : WinS) : Prop :=
  (∀ j < 4, x.stage.get 0#64 (4 + j) = ~~~ x.stage.get 0#64 j)
    ∧ winLegal (x.stage.get 0#64 0) (x.stage.get 0#64 1) (x.stage.get 0#64 2) (x.stage.get 0#64 3) = true

/-- The table with the staged entry installed as window `w`, which LAST names. -/
def WinS.commit (x : WinS) (w : Nat) : WinS :=
  { x with words := x.words.setRun 0#64 (8 * w) ((List.range 8).map fun j => x.stage.get 0#64 j), last := BitVec.ofNat 8 w }

theorem WinS.commit_word (x : WinS) (v w : Nat) {j : Nat} (hj : j < 8) :
    (x.commit v).word w j = if w = v then x.stage.get 0#64 j else x.word w j :=
  WinS.word_commit x v w j (fun j => x.stage.get 0#64 j) _ hj

theorem exec_winCommit_beyond (h : 256 ≤ v.toNat) : exec (.winCommit v) s = .next s.discard := by
  rw [exec_winCommit, execWinCommit]
  exact congrArg _ (if_pos h)

theorem WinS.stageOk_iff (x : WinS) : x.stageOk
    ↔ ((List.range 4).all (fun j => flamOk (x.stage.get 0#64 j) (x.stage.get 0#64 (4 + j)))
      && winLegal (x.stage.get 0#64 0) (x.stage.get 0#64 1) (x.stage.get 0#64 2) (x.stage.get 0#64 3)) = true := by
  simp [WinS.stageOk, flamOk]

theorem exec_winCommit_legal (hv : v.toNat < 256) (h : s.win.stageOk) :
    exec (.winCommit v) s = .next { s with win := s.win.commit v.toNat } := by
  simp only [exec_winCommit, execWinCommit, ge_iff_le, Nat.not_le.mpr hv, if_false, (WinS.stageOk_iff _).mp h, if_true]
  rfl

theorem exec_winCommit_illegal (hv : v.toNat < 256) (h : ¬ s.win.stageOk) :
    exec (.winCommit v) s = .next { s with win := { s.win with err := true } } := by
  rw [WinS.stageOk_iff] at h
  simp only [exec_winCommit, execWinCommit, ge_iff_le, Nat.not_le.mpr hv, if_false, h, Bool.false_eq_true]

end

/-- Settles O31: a legal staged entry, one that is not, and a number beyond the table. -/
theorem windowCommit : Obligations.WindowCommit := by
  refine fun s v => ⟨fun hv hpairs hlegal => ?legal, fun hv hbad => ?illegal, fun hv => gives_next (exec_winCommit_beyond hv) ⟨rfl, rfl⟩⟩
  case legal =>
    refine gives_next (exec_winCommit_legal hv ⟨hpairs, hlegal⟩) ⟨fun j hj => ?_, fun w j hw hj => ?_, rfl⟩
    · rw [WinS.commit_word _ _ _ hj, if_pos rfl]
    · rw [WinS.commit_word _ _ _ hj, if_neg hw]
  case illegal =>
    have hstage : ¬ s.win.stageOk := fun ⟨hpairs, hlegal⟩ =>
      hbad.elim (fun ⟨j, hj, hne⟩ => hne (hpairs j hj)) fun hill => absurd hlegal (hill ▸ Bool.false_ne_true)
    exact gives_next (exec_winCommit_illegal hv hstage) ⟨rfl, rfl⟩

end Sys2Proof.Machine

/-! ## The answers to a tile's translation fault

What FAULT_RESP and FQ_RESP do to the fault register they name and to its tile, and the statement O28 settled from it. -/

namespace Sys2Proof.Machine

section
variable {s : State} {forward : Bool} {v : W64} {t : TileId} {r : FaultReg}

/-- FAULT_RESP and FQ_RESP are one response, each by its own path (R229, R230). -/
theorem exec_faultAnswer (s : State) (forward : Bool) (v : W64) :
    exec ((if forward then Instr.fqResp else .faultResp) v) s = .next (s.faultAnswer forward v) := by
  cases forward
  · exact exec_faultResp v s
  · exact exec_fqResp v s

theorem faultAnswer_none (h : s.xlat.faults.get none (w64Bits v 0 16) = none) : s.faultAnswer forward v = s.discard := by
  simp only [State.faultAnswer, h]

theorem faultAnswer_mismatch (h : s.xlat.faults.get none (w64Bits v 0 16) = some r)
    (hbad : r.forward ≠ forward ∨ r.seq.toNat ≠ w64Bits v 32 32) : s.faultAnswer forward v = s.discard := by
  simp only [State.faultAnswer, h]
  refine if_pos ?_
  rcases hbad with hbad | hbad <;> simp [hbad]

/-- The codes of RESP below 2 fit its low bit, so the two bits that choose between RETRY and FAIL read the same. -/
theorem respBits_eq {k : Nat} (hk : k < 2) (h : w64Bits v 16 16 = k) : w64Bits v 16 2 = k := by
  simp only [w64Bits, bitsOf] at h ⊢
  omega

/-- A response that names the record of a held fault is applied (R228). -/
theorem faultAnswer_match {k : Nat} (hk : k < 2) (hfid : w64Bits v 0 16 = t.val) (h : s.xlat.faults.get none t.val = some r)
    (hpath : r.forward = forward) (hseq : r.seq.toNat = w64Bits v 32 32) (hposted : s.tocsin.posted (faultSrc t.val) r.seq = true)
    (hresp : w64Bits v 16 16 = k) :
    s.faultAnswer forward v = s.answerFault t.val (if k = 0 then none else some stUnresolved) := by
  simp [State.faultAnswer, hfid, h, hpath, hseq, hposted, hresp, respBits_eq hk hresp, Nat.le_of_lt_succ hk]

/-- A descriptor that its tile's fault has stalled walks again, or fails with a status (R228). -/
def InFlight.answered (fail : Option W32) (d : InFlight) : InFlight :=
  if d.phase = .faulted then
    match fail with
    | none => { d with phase := .submitted }
    | some st => d.refuse st false
  else d

/-- What the answer to a tile's fault leaves: its register empty, and of the rest its tile alone changed, whose stalled descriptors
walk again or fail (R228). -/
theorem answerFault_tile {u : State} {fail : Option W32} (hu : s.answerFault t.val fail = u) :
    u.xlat.faults.get none t.val = none ∧ TileOnly t { s with xlat := u.xlat } u
      ∧ (u.tile t).descs = (s.tile t).descs.map (InFlight.answered fail) := by
  have hkind : t.val / 8192 = 0 := Nat.div_eq_of_lt (by omega)
  have htile : Fin.ofNat 256 t.val = t := Fin.ofNat_val_eq_self t
  simp only [State.answerFault, hkind, htile, State.tileAnswered] at hu
  subst hu
  refine ⟨Map.get_set_self .., ?_, ?_⟩
  · simp only [TileOnly, State.setTile_tile_self]
    rfl
  · simp only [State.setTile_tile_self]
    rfl

end

/-- Settles O28: RETRY and FAIL of the fault named, no fault held, and a response that names another record. -/
theorem faultAnswers : Obligations.FaultAnswers := by
  rintro s forward c rfl v
  refine ⟨fun t r hfid hr hpath hseq hposted => ⟨fun hresp => ?retry, fun hresp => ?fail⟩,
    fun h => gives_next (exec_faultAnswer ..) (faultAnswer_none h ▸ ⟨rfl, rfl, rfl⟩),
    fun r hr hbad => gives_next (exec_faultAnswer ..) (faultAnswer_mismatch hr hbad ▸ ⟨rfl, rfl, rfl⟩)⟩
  case retry =>
    exact gives_next (exec_faultAnswer ..)
      (answerFault_tile (faultAnswer_match (by decide) hfid hr hpath hseq hposted hresp).symm)
  case fail =>
    obtain ⟨hreg, -, hdescs⟩ := answerFault_tile (faultAnswer_match (by decide) hfid hr hpath hseq hposted hresp).symm
    exact gives_next (exec_faultAnswer ..) ⟨hreg, hdescs⟩

end Sys2Proof.Machine

/-! ## Invalidation and the unmap

What IOINVAL drops, and the life of an unmap from UNMAP_GO to its drain: the statements O26 and O27. -/

namespace Sys2Proof.Machine

/-! ### IOINVAL (R221) -/

section
variable {s : State} {v : W64}

theorem exec_ioinval_reserved (h : w64Bits v 2 6 ≠ 0 ∨ w64Bits v 33 31 ≠ 0) : exec (.ioinval v) s = .next s.discard := by
  rw [exec_ioinval, execIoinval]
  exact if_pos (by simpa using h)

theorem exec_ioinval_goes (h2 : w64Bits v 2 6 = 0) (h33 : w64Bits v 33 31 = 0) : exec (.ioinval v) s
    = .next { s with xlat := { s.xlat.invalidate (w64Bits v 0 2) (w64Bits v 8 8) (w64Bits v 16 17) s.xlat.ioBase.toNat
        s.xlat.ioLen.toNat with ioBusy := true } } := by
  simp [exec_ioinval, execIoinval, h2, h33]

/-- An invalidation keeps the cached translations outside its scope, and no others. -/
theorem mem_invalidate_tlb (x : XlatS) {kind : Nat} (hkind : kind < 4) (device process base len : Nat) (t : TlbEntry) :
    t ∈ (x.invalidate kind device process base len).tlb ↔ t ∈ x.tlb ∧ ¬ t.inScope kind device process base len := by
  obtain rfl | rfl | rfl | rfl : kind = 0 ∨ kind = 1 ∨ kind = 2 ∨ kind = 3 := by omega
  · simp [XlatS.invalidate, TlbEntry.inScope]
  · simp [XlatS.invalidate, TlbEntry.inScope]
  · simp [XlatS.invalidate, TlbEntry.inScope, imp_iff_not_or]
  · simp [XlatS.invalidate, TlbEntry.inScope, imp_iff_not_or, or_assoc]

theorem exec_ioinvalComplete_busy (h : s.xlat.ioBusy = true) :
    exec .ioinvalComplete s = .next (State.route { s with xlat := { s.xlat with ioBusy := false } } 9) := by
  rw [exec_ioinvalComplete, execIoinvalComplete, if_pos h]

end

/-! ### UNMAP_GO (R246, R248) -/

section
variable {s : State} {v : W32}

theorem exec_unmapGo_refused (h : s.xlat.unmapLen = BitVec.allOnes 64 ∨ s.xlat.unmapBase.toNat % 4096 ≠ 0
    ∨ s.xlat.unmapLen.toNat % 4096 ≠ 0 ∨ 8 ≤ s.xlat.unmaps.length) : exec (.unmapGo v) s = .next s.discard := by
  rw [exec_unmapGo, execUnmapGo]
  exact if_pos (by simpa [or_assoc] using h)

theorem unmapGo_legal (hlen : s.xlat.unmapLen ≠ BitVec.allOnes 64) (hbase : s.xlat.unmapBase.toNat % 4096 = 0)
    (hgrain : s.xlat.unmapLen.toNat % 4096 = 0) (hroom : s.xlat.unmaps.length < 8) :
    Gives (.unmapGo v) s fun u => ∃ m, u.xlat = { s.xlat with unmaps := s.xlat.unmaps ++ [m] } ∧ m.ticket = none
      ∧ m.device = w64Bits s.xlat.unmapCtx 0 8 ∧ m.base = s.xlat.unmapBase.toNat ∧ m.len = s.xlat.unmapLen.toNat := by
  refine ⟨_, (exec_unmapGo v s).trans (if_neg ?_), _, rfl, rfl, rfl, rfl, rfl⟩
  simpa [hbase, hgrain, hroom] using hlen

end

/-! ### The completion of phase one (R226, R247, R248) -/

section
variable {s : State} {i : Nat} {m : Unmap}

theorem coversPage_empty (h : m.len = 0) (device process vbase size : Nat) : m.coversPage device process vbase size = false := by
  simp [Unmap.coversPage, h]

/-- The generations once phase one of an unmap is complete. -/
def State.bumped (s : State) (m : Unmap) : State := s.when (m.len ≠ 0) fun s => s.bumpGen m.device

theorem bumped_empty (h : m.len = 0) : s.bumped m = s := by simp [State.bumped, State.when, h]

theorem bumped_gen (s : State) (m : Unmap) :
    (s.bumped m).xlat.gen m.device = s.xlat.gen m.device + if m.len = 0 then 0#24 else 1#24 := by
  by_cases h : m.len = 0
  · rw [bumped_empty h, if_pos h, BitVec.add_zero]
  · simp [State.bumped, State.when, h, State.bumpGen, XlatS.gen]

/-- A new generation changes no cached translation, no unmap and no ticket. -/
theorem bumped_keeps (s : State) (m : Unmap) : (s.bumped m).xlat.tlb = s.xlat.tlb ∧ (s.bumped m).xlat.unmaps = s.xlat.unmaps
    ∧ (s.bumped m).xlat.issued = s.xlat.issued := by
  by_cases h : m.len = 0
  · rw [bumped_empty h]; exact ⟨rfl, rfl, rfl⟩
  · simp [State.bumped, State.when, h, State.bumpGen]

/-- The state once phase one of the unmap `m`, the one at `i`, is complete everywhere. -/
def State.phaseOne (s : State) (i : Nat) (m : Unmap) : State :=
  { s.bumped m with
    tiles := (s.bumped m).tiles.map fun e => (e.1, e.2.revoke m ((s.bumped m).tileCtx e.2))
    cxl := { (s.bumped m).cxl with streams := (s.bumped m).cxl.streams.map fun e => (e.1, e.2.revoke m) }
    xlat := { (s.bumped m).xlat with
      issued := (s.bumped m).xlat.issued + 1#32
      tlb := (s.bumped m).xlat.tlb.filter fun t => !m.coversPage t.device t.process t.vbase t.size
      unmaps := (s.bumped m).xlat.unmaps.set i { m with ticket := some ((s.bumped m).xlat.issued + 1#32) } } }

theorem exec_unmapPhaseOneComplete_due (hi : s.xlat.unmaps.findIdx? (fun u => u.ticket.isNone) = some i)
    (hm : s.xlat.unmaps[i]? = some m) : exec .unmapPhaseOneComplete s = .next (s.phaseOne i m) := by
  simp only [exec_unmapPhaseOneComplete, execUnmapPhaseOneComplete, hi, hm]
  rfl

theorem phaseOne_xlat (s : State) (i : Nat) (m : Unmap) : (s.phaseOne i m).xlat.issued = s.xlat.issued + 1#32
    ∧ (s.phaseOne i m).xlat.unmaps = s.xlat.unmaps.set i { m with ticket := some (s.xlat.issued + 1#32) }
    ∧ (∀ t ∈ (s.phaseOne i m).xlat.tlb, t ∈ s.xlat.tlb ∧ m.coversPage t.device t.process t.vbase t.size = false)
    ∧ (s.phaseOne i m).xlat.gen m.device = s.xlat.gen m.device + (if m.len = 0 then 0#24 else 1#24) := by
  obtain ⟨htlb, hunmaps, hissued⟩ := bumped_keeps s m
  refine ⟨congrArg (· + 1#32) hissued, ?_, fun t ht => ?_, bumped_gen s m⟩
  · simp only [State.phaseOne, hunmaps, hissued]
  · simpa [State.phaseOne, htlb] using ht

/-! ### An unmap of length zero (R248) -/

theorem Tile.revoke_empty (h : m.len = 0) (x : Tile) (ctx : W32) : x.revoke m ctx = x := by
  simp [Tile.revoke, coversPage_empty h]

theorem StreamS.revoke_empty (h : m.len = 0) (x : StreamS) : x.revoke m = x := by
  simp [StreamS.revoke, coversPage_empty h]

/-- An empty unmap takes its ticket in phase one, and nothing else changes. -/
theorem phaseOne_empty (h : m.len = 0) : s.phaseOne i m = { s with xlat := { s.xlat with
    issued := s.xlat.issued + 1#32, unmaps := s.xlat.unmaps.set i { m with ticket := some (s.xlat.issued + 1#32) } } } := by
  simp [State.phaseOne, bumped_empty h, Tile.revoke_empty h, StreamS.revoke_empty h, coversPage_empty h]

end

/-! ### The drain (R247, R248) -/

section
variable {s : State} {m n : Unmap} {rest : List Unmap} {k : W32}

/-- The oldest unmap drains once nothing started remains in its range. -/
theorem unmapDrained_drains (hs : s.xlat.unmaps = m :: rest) (hk : m.ticket = some k)
    (hdone : m.len = 0 ∨ (s.tiles.any fun e => e.2.startedIn m (s.tileCtx e.2)) = false) :
    Gives .unmapDrained s fun u => u.xlat = { s.xlat with unmaps := rest, drained := k } := by
  have hidle : ¬ (decide (m.len ≠ 0) && s.tiles.any fun e => e.2.startedIn m (s.tileCtx e.2)) = true := by
    rcases hdone with h | h <;> simp [h]
  refine gives_next (v := State.route { s with xlat := { s.xlat with unmaps := rest, drained := k } } 8) ?_ rfl
  simp only [exec_unmapDrained, execUnmapDrained, hs, hk]
  exact if_neg hidle

/-- An unmap behind the oldest stays. -/
theorem unmapDrained_keeps_younger (hs : s.xlat.unmaps = m :: n :: rest) : Gives .unmapDrained s fun u => n ∈ u.xlat.unmaps := by
  simp only [Gives, exec_unmapDrained, execUnmapDrained, hs]
  split
  · exact ⟨_, rfl, by simp [hs]⟩
  · split
    · exact ⟨_, rfl, by simp [hs]⟩
    · exact ⟨_, rfl, by simp⟩

end

/-- Settles O26: IOINVAL by its scope or discarded, its completion, UNMAP_GO legal and refused, phase one, and the drain. -/
theorem invalidateAndUnmap : Obligations.InvalidateAndUnmap := fun s =>
  ⟨fun v h2 h33 => gives_next (exec_ioinval_goes h2 h33)
      ⟨rfl, mem_invalidate_tlb s.xlat (Nat.mod_lt _ (by decide)) _ _ _ _⟩,
    fun v h => gives_next (exec_ioinval_reserved h) ⟨rfl, rfl⟩,
    fun h => gives_next (exec_ioinvalComplete_busy h) rfl,
    fun v hlen hbase hgrain hroom => unmapGo_legal hlen hbase hgrain hroom,
    fun v h => gives_next (exec_unmapGo_refused h) ⟨rfl, rfl⟩,
    fun i m hi hm => gives_next (exec_unmapPhaseOneComplete_due hi hm) (phaseOne_xlat s i m),
    fun m rest k hs hk hdone => unmapDrained_drains hs hk hdone⟩

/-- Settles O27: phase one of an empty unmap, its drain behind another and as the oldest, and a length of all ones. -/
theorem emptyUnmap : Obligations.EmptyUnmap := by
  refine fun s => ⟨fun i m hi hm hlen => ?phaseOne, fun m n rest hs _ => unmapDrained_keeps_younger hs,
    fun n k rest hs hlen hk => unmapDrained_drains hs hk (.inl hlen),
    fun v hones => gives_next (exec_unmapGo_refused (.inl hones)) rfl⟩
  case phaseOne =>
    refine gives_next (exec_unmapPhaseOneComplete_due hi hm) ?_
    rw [phaseOne_empty hlen]
    exact ⟨rfl, rfl, rfl⟩

end Sys2Proof.Machine

/-! ## Access counter decay and the migration engine

What the decay leaves of every counter, and what a descriptor of each kind leaves of memory and advice until its completion: the
statement O30. -/

namespace Sys2Proof.Machine

/-! ### The decay (R239) -/

/-- A change of every value of a map shows at every key, if it leaves the value of unlisted keys. -/
theorem Map.get_mapValues {α : Type} (d : α) (f : α → α) (hd : f d = d) (m : Map α) (k : Nat) :
    Map.get d (m.map fun e => (e.1, f e.2)) k = f (Map.get d m k) := by
  induction m with
  | nil => exact hd.symm
  | cons e m ih =>
    obtain ⟨i, v⟩ := e
    simp only [List.map_cons, Map.get, ih]
    split <;> rfl

theorem counterDecay_gives {s : State} (h : s.mig.decay ≠ 0) :
    Gives .counterDecay s fun u => ∀ k, u.mig.ctrs.get AccCtr.empty k
      = { s.mig.ctrs.get AccCtr.empty k with count := (s.mig.ctrs.get AccCtr.empty k).count / 2 } :=
  gives_next (congrArg Host.Outcome.next (if_neg h))
    (Map.get_mapValues AccCtr.empty (fun c => { c with count := c.count / 2 }) rfl s.mig.ctrs)

/-! ### The engine's uncounted accesses (R239) -/

section
variable {s : State} {a n : Nat}

theorem memSpan_read (h : s.memSpan a n) : s.readMemBy false a n 4 = ⟨s, stOk, s.mem.load a n⟩ := by
  obtain ⟨r, hrange, hhost, hserves, hclean⟩ := h
  exact readMem_ok s false a n 4 r hrange hhost hserves hclean

/-- A write that is not counted leaves the access counters, and with them the migration engine. -/
theorem writeMemBy_uncounted_mig (s : State) (a : Nat) (bs : List Byte) (die : Nat) :
    (s.writeMemBy false a bs die).st.mig = s.mig := by
  unfold State.writeMemBy
  split
  · rfl
  · (repeat' split) <;> rfl
  · split
    · rfl
    · simp [State.when]

theorem memSpan_write {bs : List Byte} (hn : bs.length = n) (h : s.memSpan a n) :
    ∃ u, s.writeMemBy false a bs 4 = ⟨u, stOk, []⟩ ∧ u.mig = s.mig ∧ u.bells = s.bells ∧ u.mem.load a n = bs
      ∧ ∀ b, b < a ∨ a + n ≤ b → u.mem.load b 1 = s.mem.load b 1 := by
  subst hn
  obtain ⟨r, hrange, hhost, hserves, hclean⟩ := h
  obtain ⟨u, hwrite, -, -, -, -, hin, hout⟩ := writeMem_ok s false a 4 bs r hrange hhost hserves hclean
  have hu : (s.writeMemBy false a bs 4).st = u := congrArg Resp.st hwrite
  exact ⟨u, hwrite, hu ▸ writeMemBy_uncounted_mig s a bs 4, by simp [← hu], hin, hout⟩

end

/-! ### Descriptors (R241, R242) -/

section
variable {s : State} {d : MigDesc}

/-- The descriptor at the head, of the kind commanded, is run and awaits its completion. -/
theorem migTake_runs {kind : Nat} (h : s.migHead d) (hkind : d.kind = kind) :
    s.migTake kind = (s.migRun d).1.migEnd (s.mig.mq.entry 64) d (s.migRun d).2 := by
  obtain ⟨hready, hcur, hspan, hcheck, rfl, hwaits⟩ := h
  simp only [State.migTake, hready, hcur, memSpan_read hspan, hcheck, hkind, hwaits, Bool.not_true, Option.isSome_none, Bool.or_false,
    Bool.false_eq_true, if_false, ne_eq, not_true_eq_false, decide_false]

theorem migRun_copy {u : State} (hkind : d.kind = 0) (hlen : d.len ≠ 0) (hsrc : s.memSpan d.src d.len)
    (hwrite : s.writeMemBy false d.dst (s.mem.load d.src d.len) 4 = ⟨u, stOk, []⟩) : s.migRun d = (u, stOk) := by
  simp only [State.migRun, hlen, hkind, memSpan_read hsrc, hwrite, if_false, if_true, ne_eq, not_true_eq_false]

theorem migRun_zero {u : State} (hkind : d.kind = 1) (hlen : d.len ≠ 0)
    (hwrite : s.writeMemBy false d.dst (List.replicate d.len 0#8) 4 = ⟨u, stOk, []⟩) : s.migRun d = (u, stOk) := by
  simp only [State.migRun, hlen, hkind, hwrite, if_false, if_true]

/-- A descriptor that writes these bytes at its destination leaves them there, and awaits its completion with status 0. -/
theorem migTake_writes {kind : Nat} {bs : List Byte} (h : s.migHead d) (hkind : d.kind = kind) (hbs : bs.length = d.len)
    (hdst : s.memSpan d.dst d.len)
    (hrun : ∀ u, s.writeMemBy false d.dst bs 4 = ⟨u, stOk, []⟩ → s.migRun d = (u, stOk)) :
    (s.migTake kind).mem.load d.dst d.len = bs
      ∧ (∀ b, b < d.dst ∨ d.dst + d.len ≤ b → (s.migTake kind).mem.load b 1 = s.mem.load b 1)
      ∧ ∃ c, (s.migTake kind).mig.cur = some c ∧ c.addr = s.mig.mq.entry 64 ∧ c.status = 0#32 := by
  obtain ⟨u, hwrite, -, -, hin, hout⟩ := memSpan_write hbs hdst
  rw [migTake_runs h hkind, hrun u hwrite]
  exact ⟨hin, hout, _, rfl, rfl, stOk_eq⟩

/-- The advice ranges of a unit once an ADVISE has set or removed its own (R242). -/
def MigS.advised (g : MigS) (d : MigDesc) (unit : Nat) : List Advice :=
  if d.advice = 0 then (g.advice.get [] unit).filter fun r => !(r.base = d.dst && r.len = d.len)
  else g.advice.get [] unit ++ [{ base := d.dst, len := d.len, eager := d.advice = 2 }]

theorem advise_get (g : MigS) (d : MigDesc) (u k : Nat) :
    (g.advise d u).advice.get [] k = if k = u then g.advised d k else g.advice.get [] k := by
  simp only [MigS.advise, Map.get_set]
  split
  next hk => subst hk; rfl
  next => rfl

/-- An ADVISE sets its range in each unit that it names, once. -/
theorem foldl_advise_get (d : MigDesc) (g : MigS) {units : List Nat} (h : units.Nodup) (k : Nat) :
    (units.foldl (fun g u => g.advise d u) g).advice.get [] k = if k ∈ units then g.advised d k else g.advice.get [] k := by
  induction units generalizing g with
  | nil => rfl
  | cons u units ih =>
    obtain ⟨hu, hunits⟩ := List.nodup_cons.mp h
    rw [List.foldl_cons, ih (g.advise d u) hunits]
    by_cases hk : k ∈ units
    · have hne : k ≠ u := fun e => hu (e ▸ hk)
      simp only [MigS.advised, advise_get, hk, hne, if_true, if_false, List.mem_cons, or_true]
    · simp only [advise_get, hk, if_false, List.mem_cons, or_false]

theorem units_nodup (d : MigDesc) : d.units.Nodup := by
  unfold MigDesc.units
  split
  · exact List.nodup_singleton 8
  · exact List.nodup_range

theorem migTake_advise (h : s.migHead d) (hkind : d.kind = 2) (hlen : d.len ≠ 0) :
    s.migTake 2 = State.migEnd { s with mig := d.units.foldl (fun g u => g.advise d u) s.mig } (s.mig.mq.entry 64) d stOk := by
  simp only [migTake_runs h hkind, State.migRun, hlen, hkind, if_false]

end

/-! ### Completion (R242, R262) -/

section
variable {s : State} {c : MigRun}

/-- The ring of a descriptor that succeeded and asks for one (R242). -/
def State.migRings (s : State) (c : MigRun) : State :=
  if c.ringEn && c.status = stOk then (s.ringBell c.bell (c.n.zeroExtend 64) 7#3 0#8 .package).evalWaits (bellDie c.bell) else s

theorem migRings_keeps (s : State) (c : MigRun) : (s.migRings c).mem = s.mem ∧ (s.migRings c).mig = s.mig := by
  unfold State.migRings
  split
  · simp
  · exact ⟨rfl, rfl⟩

theorem migRings_count (hen : c.ringEn = true) (hst : c.status = 0#32) (hsound : (s.bell c.bell).sound)
    (hn : (s.bell c.bell).count.toNat + c.n.toNat < 2 ^ 64) :
    ((s.migRings c).bell c.bell).count = (s.bell c.bell).count + c.n.zeroExtend 64 := by
  have hn : (s.bell c.bell).count.toNat + (c.n.zeroExtend 64).toNat < 2 ^ 64 := by
    rwa [BitVec.toNat_setWidth_of_le (by decide)]
  rw [State.migRings, if_pos (by simp [hen, hst, stOk_eq])]
  refine evalWaits_P _ (stable_count _) _ _ _ ?_
  rw [ringBell_sound _ _ _ _ _ _ hsound hn, State.setBell_bell_self]

theorem exec_migrationDescriptorComplete_due {u : State} (hc : s.mig.cur = some c)
    (hwrite : s.writeMemBy false (c.addr + 0x30) (bytesOfNat 4 c.status.toNat ++ bytesOfNat 4 0) 4 = ⟨u, stOk, []⟩) :
    exec .migrationDescriptorComplete s = .next (State.route { u.migRings c with
      mig := { (u.migRings c).mig with cur := none, mq := (u.migRings c).mig.mq.advance } } 2) := by
  simp only [exec_migrationDescriptorComplete, execMigrationDescriptorComplete, hc, hwrite]
  rfl

theorem migrationDescriptorComplete_gives (hc : s.mig.cur = some c) (hspan : s.memSpan (c.addr + 0x30) 8) :
    Gives .migrationDescriptorComplete s fun u => u.mig.cur = none ∧ u.mig.mq = s.mig.mq.advance
      ∧ u.mem.load (c.addr + 0x30) 8 = bytesOfNat 4 c.status.toNat ++ bytesOfNat 4 0
      ∧ (c.ringEn = true → c.status = 0#32 → (s.bell c.bell).sound → (s.bell c.bell).count.toNat + c.n.toNat < 2 ^ 64 →
        (u.bell c.bell).count = (s.bell c.bell).count + c.n.zeroExtend 64) := by
  have hlen : (bytesOfNat 4 c.status.toNat ++ bytesOfNat 4 0).length = 8 := by simp only [List.length_append, bytesOfNat_length]
  obtain ⟨u, hwrite, hmig, hbells, hin, -⟩ := memSpan_write hlen hspan
  obtain ⟨hmem', hmig'⟩ := migRings_keeps u c
  have hbell : u.bell c.bell = s.bell c.bell := congrArg (Map.get Bell.reset · c.bell) hbells
  refine gives_next (exec_migrationDescriptorComplete_due hc hwrite) ⟨rfl, ?_, ?_, fun hen hst hsound hn => ?_⟩
  · exact congrArg (fun g : MigS => g.mq.advance) (hmig'.trans hmig)
  · exact (congrArg (MemS.load · (c.addr + 0x30) 8) hmem').trans hin
  · rw [← hbell] at hsound hn ⊢
    exact migRings_count hen hst hsound hn

end

/-- Settles O30: the decay, the three descriptors at the head of the ring, and a descriptor's completion. -/
theorem migration : Obligations.Migration := by
  refine fun s => ⟨counterDecay_gives, fun d h hkind hlen hsrc hdst => ?copy, fun d h hkind hlen hdst => ?zero,
    fun d h hkind hlen => ?advise, fun c hc hspan => migrationDescriptorComplete_gives hc hspan⟩
  case copy =>
    exact gives_next (exec_migrationCopy s)
      (migTake_writes h hkind (Map.getRunBy_length ..) hdst fun u => migRun_copy hkind hlen hsrc)
  case zero =>
    exact gives_next (exec_migrationZero s)
      (migTake_writes h hkind List.length_replicate hdst fun u => migRun_zero hkind hlen)
  case advise =>
    have hadvice (k : Nat) := foldl_advise_get d s.mig (units_nodup d) k
    refine gives_next (congrArg Host.Outcome.next (migTake_advise h hkind hlen))
      ⟨rfl, ⟨_, rfl, stOk_eq⟩, fun hhost => ?_, fun hhost k hk => ?_⟩
    · exact (hadvice 8).trans (if_pos (by simp [MigDesc.units, hhost]))
    · exact (hadvice k).trans (if_pos (by simp [MigDesc.units, hhost, hk]))

end Sys2Proof.Machine

/-! ## The cache-block operations

What a write-back leaves at the home and in the caches; the statement O24 settled from it. -/

namespace Sys2Proof.Machine

/-! ### A codeword stored at its home (R189) -/

/-- One key read after a run was written: from the run where it holds the key, else as before. -/
theorem Map.getRunBy_setRunBy_one {α : Type} [DecidableEq α] (d : Nat → α) (m : Map α) (a b : Nat) (xs : List α) :
    (m.setRunBy d a xs).getRunBy d b 1 = if h : a ≤ b ∧ b < a + xs.length then [xs[b - a]'(by omega)] else m.getRunBy d b 1 := by
  split
  · next h =>
    obtain ⟨k, rfl⟩ := Nat.exists_eq_add_of_le h.1
    have hk : k < xs.length := by omega
    simp [Map.getRunBy_eq, Map.get_setRunBy_in d m a xs k hk]
  · next h => exact Map.getRunBy_setRunBy_out d m a xs b 1 (by omega)

/-- The bytes of a line lie in one range. -/
theorem regionOf_inLine (a : Nat) {k : Nat} (hk : k < 128) : regionOf (lineOf a + k) = regionOf a := by
  have hbound (n : Nat) (hn : n % 128 = 0) : lineOf a + k < n ↔ a < n := by unfold lineOf; omega
  simp (disch := decide) only [regionOf, hbound]

section
variable {s : State} {a b : Nat}

/-- A codeword stored is what its home holds at its addresses; the rest of its range is as it was. -/
theorem storeCodeword_homeBytes (hr : regionOf b = regionOf a) (bs : List Byte) (poisoned : Bool) :
    (s.storeCodeword a bs poisoned).homeBytes b 1
      = if h : a ≤ b ∧ b < a + bs.length then [bs[b - a]'(by omega)] else s.homeBytes b 1 := by
  by_cases hhost : regionOf a = .host
  · obtain ⟨ha, -⟩ := (region_host a).mp hhost
    obtain ⟨hb, -⟩ := (region_host b).mp (hr.trans hhost)
    have hin : (hostAddr a ≤ hostAddr b ∧ hostAddr b < hostAddr a + bs.length) ↔ a ≤ b ∧ b < a + bs.length := by
      unfold hostAddr; omega
    have hoff : hostAddr b - hostAddr a = b - a := by unfold hostAddr; omega
    have hrun := Map.getRunBy_setRunBy_one (fun _ => 0#8) s.mem.host (hostAddr a) (hostAddr b) bs
    simp only [hin, hoff] at hrun
    simpa only [State.homeBytes, State.storeCodeword, hr, hhost, if_true] using! hrun
  · have hstore : (s.storeCodeword a bs poisoned).homeBytes b 1 = (s.mem.store a bs).load b 1 := by
      rw [State.homeBytes, hr, if_neg hhost, State.storeCodeword]
      split
      · next h => exact absurd h hhost
      · rfl
    rw [hstore, State.homeBytes, hr, if_neg hhost]
    exact Map.getRunBy_setRunBy_one s.mem.base s.mem.mem a b bs

/-- Both codewords of a line stored: its home holds the bytes of the line. -/
theorem storeLine_homeBytes {bs : List Byte} {k : Nat} {v : Byte} (hk : k < 128) (hv : bs[k]? = some v) (p q : Bool) :
    ((s.storeCodeword (lineOf a) (bs.take 64) p).storeCodeword (lineOf a + 64) (bs.drop 64) q).homeBytes (lineOf a + k) 1 = [v] := by
  obtain ⟨hlen, rfl⟩ := List.getElem?_eq_some_iff.mp hv
  have hregion := regionOf_inLine a hk
  have hfirst : regionOf (lineOf a) = regionOf a := regionOf_inLine a (k := 0) (by decide)
  have hsecond : regionOf (lineOf a + 64) = regionOf a := regionOf_inLine a (by decide)
  rw [storeCodeword_homeBytes (hregion.trans hsecond.symm), storeCodeword_homeBytes (hregion.trans hfirst.symm)]
  by_cases hlow : k < 64
  · rw [dif_neg (by omega), dif_pos (by simp; omega)]
    simp
  · rw [dif_pos (by simp; omega)]
    simp only [List.getElem_drop, List.cons.injEq, and_true]
    congr 1
    omega

end

/-! ### A write-back (R379, R545) -/

section
variable {s u : State} {c : CoreId} {a : Nat} {l : CacheLine} {count : Bool}

/-- The state after the home has taken a dirty line, which stays in the caches, clean. -/
def State.wroteHome (s : State) (count : Bool) (a : Nat) (l : CacheLine) : State :=
  (((s.when count fun s => s.countAccess (lineOf a) 4 true).storeCodeword (lineOf a) (l.data.take 64) l.poison0).storeCodeword
    (lineOf a + 64) (l.data.drop 64) l.poison1).setLine a (some { l with dirty := false })

theorem writeBack_taken (hl : s.cache.line a = some l) (hd : l.dirty = true) (ht : s.homeTakes a = 0#32) :
    s.writeBack count a = (s.wroteHome count a l, stOk) := by
  simp [State.writeBack, hl, hd, ht, stOk_eq, State.wroteHome]

theorem writeBack_refused (hl : s.cache.line a = some l) (hd : l.dirty = true) (ht : s.homeTakes a ≠ 0#32) :
    s.writeBack count a = ((s.setLine a none).discard, s.homeTakes a) := by
  simp [State.writeBack, hl, hd, ht, stOk_eq]

/-- A line that is not cached, or is clean, is not written. -/
theorem writeBack_clean (h : ∀ l, s.cache.line a = some l → l.dirty = false) : s.writeBack count a = (s, stOk) := by
  cases hl : s.cache.line a with
  | none => simp only [State.writeBack, hl]
  | some l => simp [State.writeBack, hl, h l hl]

theorem wroteHome_homeBytes {k : Nat} {v : Byte} (hk : k < 128) (hv : l.data[k]? = some v) :
    (s.wroteHome count a l).homeBytes (lineOf a + k) 1 = [v] :=
  storeLine_homeBytes hk hv l.poison0 l.poison1

theorem wroteHome_retry (s : State) (count : Bool) (a : Nat) (l : CacheLine) :
    (s.wroteHome count a l).cache.retry = s.cache.retry := by
  simp [State.wroteHome, State.setLine, CacheS.setLine]

/-- The two kinds of line that a write-back finds: a dirty one, or none to write. -/
theorem line_dirty_or_clean (s : State) (a : Nat) :
    (∃ l, s.cache.line a = some l ∧ l.dirty = true) ∨ ∀ l, s.cache.line a = some l → l.dirty = false := by
  cases s.cache.line a with
  | none => exact .inr nofun
  | some l => cases hd : l.dirty <;> simp [hd]

/-- A write-back at a home that takes the line cleans it. -/
theorem writeBack_cleaned (count : Bool) (ht : s.homeTakes a = 0#32) : cleaned s (s.writeBack count a).1 a false := by
  obtain ⟨l, hl, hd⟩ | hclean := line_dirty_or_clean s a
  · rw [writeBack_taken hl hd ht, cleaned, hl]
    simp only [Option.some.injEq, forall_eq']
    exact ⟨fun _ k v hk hv => wroteHome_homeBytes hk hv, nofun, fun _ => State.setLine_line_self ..⟩
  · rw [writeBack_clean hclean]
    refine ⟨fun l hl hd => absurd hd (by simp [hclean l hl]), nofun, fun _ l hl => ?_⟩
    rw [hl, ← hclean l hl]

/-- A write-back adds no write-back to those to be sent again and takes none away. -/
theorem writeBack_retry (s : State) (count : Bool) (a : Nat) : (s.writeBack count a).1.cache.retry = s.cache.retry := by
  obtain ⟨l, hl, hd⟩ | hclean := line_dirty_or_clean s a
  · by_cases ht : s.homeTakes a = 0#32
    · rw [writeBack_taken hl hd ht, wroteHome_retry]
    · rw [writeBack_refused hl hd ht]
      rfl
  · rw [writeBack_clean hclean]

/-! ### A line cleaned or flushed by a core (R265) -/

@[simp] theorem CacheS.takeFrom_line (k : CacheS) (c : CoreId) (a b : Nat) : (k.takeFrom c a).line b = k.line b := by
  unfold CacheS.takeFrom
  (repeat' split) <;> rfl

theorem cleanLine_cleaned (c : CoreId) (flush : Bool) (ht : s.homeTakes a = 0#32) :
    cleaned s (s.cleanLine c a flush).1 a flush := by
  cases flush with
  | false => exact writeBack_cleaned false ht
  | true =>
    obtain ⟨hbytes, -, -⟩ := writeBack_cleaned (s := { s with cache := s.cache.takeFrom c a }) false ht
    simp only [CacheS.takeFrom_line] at hbytes
    exact ⟨hbytes, fun _ => State.setLine_line_self .., nofun⟩

/-- A dirty line whose home cannot take it is gone from the caches and counted, and no byte of memory changes. -/
theorem cleanLine_discards (c : CoreId) (flush : Bool) (hl : s.cache.line a = some l) (hd : l.dirty = true)
    (ht : s.homeTakes a ≠ 0#32) :
    (s.cleanLine c a flush).1.cache.line a = none ∧ (s.cleanLine c a flush).1.tele = s.tele.discard
      ∧ (s.cleanLine c a flush).1.mem = s.mem := by
  cases flush with
  | false =>
    rw [State.cleanLine, if_neg Bool.false_ne_true, writeBack_refused hl hd ht]
    exact ⟨State.setLine_line_self .., rfl, rfl⟩
  | true =>
    have hl' : ({ s with cache := s.cache.takeFrom c a } : State).cache.line a = some l := (CacheS.takeFrom_line ..).trans hl
    rw [State.cleanLine, if_pos rfl, writeBack_refused hl' hd ht]
    exact ⟨State.setLine_line_self .., rfl, rfl⟩

/-- A cache-block operation that may proceed cleans or flushes the line, counts its event and raises no exception. -/
theorem cbo_performed (flush : Bool) (hrun : (s.core c).state = 1) (hmem : (regionOf a).isMem = true)
    (hw : s.writeBackWaits a = false) :
    s.cbo c a flush = (s.cleanLine c a flush).1.setCore c { ((s.cleanLine c a flush).1.core c).event 9 with trap := none } := by
  simp [State.cbo, hrun, hmem, hw]

theorem cbo_cleaned (flush : Bool) (hrun : (s.core c).state = 1) (hmem : (regionOf a).isMem = true)
    (hw : s.writeBackWaits a = false) (ht : s.homeTakes a = 0#32) :
    cleaned s (s.cbo c a flush) a flush ∧ ((s.cbo c a flush).core c).trap = none := by
  rw [cbo_performed flush hrun hmem hw, State.setCore_core_self]
  exact ⟨cleanLine_cleaned c flush ht, rfl⟩

/-- Each of the three operations is a clean or a flush of the line. -/
theorem exec_cacheBlock {i : Instr} (h : i ∈ ([.cboClean c a, .cboFlush c a, .cboInval c a] : List Instr)) :
    ∃ flush, exec i s = .next (s.cbo c a flush) := by
  simp only [List.mem_cons, List.not_mem_nil, or_false] at h
  obtain rfl | rfl | rfl := h
  · exact ⟨false, rfl⟩
  · exact ⟨true, rfl⟩
  · exact ⟨true, rfl⟩

/-- The state in which a write-back is sent again: it is no longer among those to be retried (R545). -/
def State.unretried (s : State) (a : Nat) : State :=
  { s with cache := { s.cache with retry := s.cache.retry.erase (a / 128) } }

theorem exec_writebackRetry_due (hr : s.cache.retry.contains (a / 128) = true) (hw : s.hostWaits a = false) :
    exec (.writebackRetry a) s = .next ((s.unretried a).writeBack true a).1 := by
  simp only [exec_writebackRetry, execWritebackRetry, hr, hw, Bool.not_true, Bool.or_self, Bool.false_eq_true, if_false,
    State.unretried]

end

/-- Settles O24: the three operations where the home takes the line, the three where it cannot, and the retry that is accepted. -/
theorem cacheBlocks : Obligations.CacheBlocks := by
  refine fun c a s => ⟨fun hrun hmem hw ht => ?taken, fun l hrun hmem hw ht hl hd i hi => ?refused, fun hr hw _ ht => ?retry⟩
  case taken =>
    exact ⟨gives_next (exec_cboClean c a s) (cbo_cleaned false hrun hmem hw ht),
      gives_next (exec_cboFlush c a s) (cbo_cleaned true hrun hmem hw ht),
      gives_next (exec_cboInval c a s) (cbo_cleaned true hrun hmem hw ht)⟩
  case refused =>
    obtain ⟨flush, hexec⟩ := exec_cacheBlock (s := s) hi
    obtain ⟨hline, htele, hbytes⟩ := cleanLine_discards c flush hl hd ht
    rw [cbo_performed flush hrun hmem hw] at hexec
    exact gives_next hexec ⟨hline, congrArg TeleS.discards htele, congrArg MemS.bytes hbytes⟩
  case retry =>
    exact gives_next (exec_writebackRetry_due hr hw)
      ⟨writeBack_cleaned (s := s.unretried a) true ht, writeBack_retry (s.unretried a) true a⟩

end Sys2Proof.Machine

/-! ## Carillon ports: what the operations of the fabric keep

How a port reads after each operation on it, and what a link that goes down and a transfer that goes on leave of the fabric as
configured and of the trackers' epochs. -/

namespace Sys2Proof.Machine

/-! ### A port after an operation that sends -/

/-- An operation that only sends leaves a port as it was, but for its link layer and its count of flits sent. -/
theorem SamePorts.port_eq {s u : State} (h : SamePorts s u) (q : PortId) :
    ∃ l c, u.port q = { s.port q with link := l, txCount := c } :=
  ⟨(u.port q).link, (u.port q).txCount,
    congrArg (fun x : Port => { x with link := (u.port q).link, txCount := (u.port q).txCount }) (h.same q)⟩

theorem port_of_net {s u : State} (h : u.net = s.net) (q : PortId) : u.port q = s.port q := congrArg (fun n : NetS => n.port q) h

@[simp] theorem raise_net (s : State) (c t d k u : Nat) (b : List Byte) : (s.raise c t d k u b).net = s.net := by simp

@[simp] theorem undefinedVirt_net (s : State) (die : Nat) (ctx : W32) (va n : Nat) : (s.undefinedVirt die ctx va n).net = s.net := by
  simp

@[simp] theorem raisePort_net (s : State) (c t : Nat) (p : PortId) (b : List Byte) : (s.raisePort c t p b).net = s.net :=
  raise_net ..

@[simp] theorem raisePort_port (s : State) (c t : Nat) (p q : PortId) (b : List Byte) : (s.raisePort c t p b).port q = s.port q :=
  port_of_net (raisePort_net ..) q

/-- Flits accepted advance the receiver's count and its next FSEQ (R278, R308). -/
@[simp] theorem acceptFlits_port (s : State) (p : PortId) (n : Nat) : (s.acceptFlits p n).port p
    = { s.port p with rxCount := (s.port p).rxCount + BitVec.ofNat 64 n,
                      link := { (s.port p).link with rxNext := (s.port p).link.rxNext + BitVec.ofNat 12 n, awaited := false } } :=
  State.setPort_port_self ..

/-- A flush of a link layer keeps what only acknowledgements, replays and arrivals change. -/
theorem flush_keep {α : Type} (g : LinkLayer → α) (hsend : ∀ (l : LinkLayer) (i : TxItem), g (l.send i) = g l)
    (hqueue : ∀ (l : LinkLayer) (q : List TxItem), g { l with queue := q } = g l) (l : LinkLayer) (c : Bool) : g (l.flush c) = g l := by
  refine (hqueue _ _).trans ((foldl_keep (fun st : LinkLayer × List TxItem => g st.1) _ (fun st i => ?_) _ _).trans (hqueue _ _))
  split
  · rfl
  · exact hsend ..

theorem flushPort_link {α : Type} (g : LinkLayer → α) (hsend : ∀ (l : LinkLayer) (i : TxItem), g (l.send i) = g l)
    (hqueue : ∀ (l : LinkLayer) (q : List TxItem), g { l with queue := q } = g l) (s : State) (p : PortId) :
    g ((s.flushPort p).port p).link = g (s.port p).link := by
  rw [State.flushPort, State.setPort_port_self]
  exact flush_keep g hsend hqueue ..

/-! ### The fabric as configured, and the trackers' epochs -/

/-- The part of the fabric that neither messages nor links change: coordinates, shape, freeze and fault, limits, and the Hoop. -/
def NetS.config (n : NetS) : NetS := { n with ports := [], trackers := [], xfers := [], peals := [], cad := CadS.reset }

/-- The fabric is configured as before, and every tracker slot cools or not, and stands in the epoch, as before. -/
structure SameFabric (s u : State) : Prop where
  config : u.net.config = s.net.config
  cooling : ∀ k, (u.net.trackers.get Tracker.reset k).cooling = (s.net.trackers.get Tracker.reset k).cooling
  epoch : ∀ k, (u.net.trackers.get Tracker.reset k).epoch = (s.net.trackers.get Tracker.reset k).epoch

theorem SameFabric.refl (s : State) : SameFabric s s := ⟨rfl, fun _ => rfl, fun _ => rfl⟩

theorem SameFabric.trans {s u v : State} (h : SameFabric s u) (g : SameFabric u v) : SameFabric s v :=
  ⟨g.config.trans h.config, fun k => (g.cooling k).trans (h.cooling k), fun k => (g.epoch k).trans (h.epoch k)⟩

theorem SameFabric.coordFault {s u : State} (h : SameFabric s u) : u.net.coordFault = s.net.coordFault :=
  have hconfig : u.net.config.coordFault = s.net.config.coordFault := by rw [h.config]
  hconfig

theorem SameFabric.of_trackers {s u : State} (hc : u.net.config = s.net.config) (ht : u.net.trackers = s.net.trackers) : SameFabric s u :=
  ⟨hc, fun k => by rw [ht], fun k => by rw [ht]⟩

theorem SameFabric.of_net {s u : State} (h : u.net = s.net) : SameFabric s u :=
  .of_trackers (congrArg NetS.config h) (congrArg NetS.trackers h)

theorem SameFabric.foldl {α : Type} (f : State → α → State) (h : ∀ s a, SameFabric s (f s a)) (l : List α) (s : State) :
    SameFabric s (l.foldl f s) := by
  induction l generalizing s with
  | nil => exact .refl s
  | cons a l ih => exact (h s a).trans (ih _)

/-- A tracker changed in place that keeps its state of cooling and its epoch. -/
theorem sameFabric_setTracker (s : State) (p : PortId) (slot : Nat) (t : Tracker) (hc : t.cooling = (s.net.tracker p slot).cooling)
    (he : t.epoch = (s.net.tracker p slot).epoch) : SameFabric s { s with net := s.net.setTracker p slot t } := by
  refine ⟨rfl, fun k => ?_, fun k => ?_⟩ <;>
  · simp only [NetS.setTracker, Map.get_set]
    split
    · next h => subst h; assumption
    · rfl

theorem sameFabric_enqueue (s : State) (p : PortId) (i : TxItem) : SameFabric s (s.enqueue p i) := .of_trackers rfl rfl

theorem sameFabric_respond (s : State) (m : Msg) (t n : Nat) (b : List Byte) : SameFabric s (s.respond m t n b) := by
  unfold State.respond
  dsimp only
  split
  · exact .refl s
  · exact sameFabric_enqueue ..

theorem sameFabric_sendRequest (s : State) (x : Xfer) (q : Pending) (p : PortId) (m : Msg) (slot : Nat) :
    SameFabric s (s.sendRequest x q p m slot) :=
  (sameFabric_setTracker s p slot { s.net.tracker p slot with
    busy := true, tile := x.tile, idx := x.idx, kind := q.kind, offset := q.offset, len := q.len, row := q.row, col := q.col }
    rfl rfl).trans (sameFabric_enqueue ..)

theorem sameFabric_pumpOne (s : State) (x : Xfer) : SameFabric s (s.pumpOne x).1 := by
  unfold State.pumpOne
  split
  · exact .refl s
  · split
    · split <;> exact .refl s
    · dsimp only
      split
      · exact .of_net (by simp)
      · split
        · exact .refl s
        · split
          · exact .refl s
          · exact sameFabric_sendRequest ..

theorem sameFabric_pump (fuel : Nat) (s : State) (x : Xfer) : SameFabric s (s.pump x fuel).1 := by
  induction fuel generalizing s x with
  | zero => exact .refl s
  | succ n ih =>
    unfold State.pump
    dsimp only
    split
    · exact (sameFabric_pumpOne s x).trans (ih _ _)
    · exact sameFabric_pumpOne s x

/-- The end of a transfer takes it off the list, and changes nothing else of the fabric. -/
theorem xferEnd_net (s : State) (x : Xfer) : (s.xferEnd x).net = s.net.dropXfer x.tile x.idx := by
  unfold State.xferEnd
  dsimp only
  split
  · rfl
  · split
    · rfl
    · split <;> simp

theorem sameFabric_xferStep (s : State) (x : Xfer) : SameFabric s (s.xferStep x) := by
  unfold State.xferStep
  dsimp only
  refine (sameFabric_pump (x.todo.length + 3) s x).trans ?_
  split
  · exact .of_trackers (by rw [xferEnd_net]; rfl) (by rw [xferEnd_net]; rfl)
  · exact .of_trackers rfl rfl

theorem sameFabric_pumpAll (s : State) : SameFabric s s.pumpAll := by
  refine .foldl _ (fun s x => ?_) _ _
  split
  · exact .refl s
  · exact sameFabric_xferStep ..

theorem sameFabric_answerXfer (s : State) (p : PortId) (k n : Nat) (d : Option (List Byte)) : SameFabric s (s.answerXfer p k n d) := by
  unfold State.answerXfer
  dsimp only
  refine (sameFabric_setTracker s p k { s.net.tracker p k with busy := false } rfl rfl).trans ?_
  split
  · exact .refl _
  · split
    · exact sameFabric_xferStep ..
    · exact SameFabric.trans (.of_net (by simp)) (sameFabric_xferStep ..)

theorem sameFabric_refuseMsg (s : State) (m : Msg) (n : Nat) : SameFabric s (s.refuseMsg m n) := by
  unfold State.refuseMsg
  split
  · exact sameFabric_answerXfer ..
  · exact sameFabric_respond ..

theorem sameFabric_reroute (s : State) (q : List TxItem) : SameFabric s (s.reroute q) := by
  refine .foldl _ (fun s i => ?_) _ _
  split
  · exact .refl s
  · split
    · exact .refl s
    · split
      · exact sameFabric_enqueue ..
      · exact sameFabric_refuseMsg ..

/-- A descriptor that fails leaves its run ended with the status, and its job without the lots not handed over (R306, R322). -/
theorem pealFail_net {s : State} {k : PealSlot} {r : PealRun} (hrun : (s.peal k).run = some r) (hphase : r.phase ≠ .ended) (st : W32) :
    (s.pealFail k st).net = { s.net.setPeal k { (s.peal k) with run := some { r with phase := .ended, status := st, held := [] } } with
      cad := s.net.cad.failBound r st } := by
  simp only [State.pealFail, hrun, hphase, if_false]
  rw [raise_net, when_net, undefinedVirt_net, ite_self]
  rfl

/-- Without a descriptor under way there is none to fail. -/
theorem pealFail_idle {s : State} {k : PealSlot} (st : W32) (h : ∀ r, (s.peal k).run = some r → r.phase = .ended) :
    s.pealFail k st = s := by
  unfold State.pealFail
  dsimp only
  split
  · rfl
  · next r hrun => rw [if_pos (h r hrun)]

theorem sameFabric_pealFail (s : State) (k : PealSlot) (st : W32) : SameFabric s (s.pealFail k st) := by
  by_cases h : ∀ r, (s.peal k).run = some r → r.phase = .ended
  · rw [pealFail_idle st h]
    exact .refl s
  · push Not at h
    obtain ⟨r, hrun, hphase⟩ := h
    exact .of_trackers (by rw [pealFail_net hrun hphase]; rfl) (by rw [pealFail_net hrun hphase]; rfl)

theorem sameFabric_linkDown (s : State) (p : PortId) (c : Nat) : SameFabric s (s.linkDown p c) := by
  unfold State.linkDown
  dsimp only
  split
  · exact .refl s
  · refine SameFabric.trans ?_ (sameFabric_reroute ..)
    refine SameFabric.trans (.of_trackers (by rw [raisePort_net]; rfl) (by rw [raisePort_net]; rfl)) (.foldl _ (fun s k => ?_) _ _)
    split
    · exact .refl s
    · split
      · exact sameFabric_pealFail ..
      · exact .refl s

end Sys2Proof.Machine

/-! ## The control and bring-up of a Carillon port

What the writes of PORT_CTRL, the messages of the bring-up and the checks of the coordinates leave of a port, and the statement O39
settled from it. -/

namespace Sys2Proof.Machine

/-! ### Writes of PORT_CTRL and width changes (R280, R283, R315) -/

/-- A port without a link has none to lose. -/
theorem linkDown_idle {s : State} {p : PortId} {c : Nat} (h : (s.port p).linked = false) : s.linkDown p c = s :=
  if_pos (by simp [h])

/-- The fields of a word of PORT_CTRL. -/
theorem portCtrlWord_fields (en enc : Bool) {wreq : Nat} (hw : wreq < 3) :
    (portCtrlWord en wreq enc).toNat < 16 ∧ bitsOf (portCtrlWord en wreq enc).toNat 0 1 = en.toNat
      ∧ bitsOf (portCtrlWord en wreq enc).toNat 1 2 = wreq ∧ bitsOf (portCtrlWord en wreq enc).toNat 3 1 = enc.toNat := by
  revert en enc
  interval_cases wreq <;> decide

section
variable {s : State} {p : PortId}

theorem writePortCtrl_discarded {v : W32} (h : 16 ≤ v.toNat ∨ bitsOf v.toNat 1 2 = 3) : s.writePortCtrl p v = s.discard :=
  if_pos (by simpa using h)

/-- A port with the fields that a word of PORT_CTRL gives it. -/
def Port.controlled (x : Port) (en : Bool) (wreq : Nat) (enc : Bool) : Port := { x with encReq := enc, wreq := wreq, en := en }

/-- The state in which PORT_CTRL holds the fields of a word, before they take effect. -/
def State.portWritten (s : State) (p : PortId) (en : Bool) (wreq : Nat) (enc : Bool) : State :=
  s.setPort p ((s.port p).controlled en wreq enc)

@[simp] theorem portWritten_port (s : State) (p : PortId) (en : Bool) (wreq : Nat) (enc : Bool) :
    (s.portWritten p en wreq enc).port p = (s.port p).controlled en wreq enc := State.setPort_port_self ..

theorem writePortCtrl_word (en : Bool) {wreq : Nat} (enc : Bool) (hw : wreq < 3) : s.writePortCtrl p (portCtrlWord en wreq enc)
    = let s1 := s.portWritten p en wreq enc
      if !en then (s1.linkDown p 4).setPort p { ((s1.linkDown p 4).port p).drop with en := false, state := 0 }
      else if !(s.port p).en then s1.setPort p { (s.port p).controlled en wreq enc with state := 1, step := 1 }
      else if wreq ≠ (s.port p).wreq then s1.widthBegin p else s1 := by
  obtain ⟨hlt, hen, hwreq, henc⟩ := portCtrlWord_fields en enc hw
  have hrsv : ¬ (16 ≤ (portCtrlWord en wreq enc).toNat) := by omega
  have hthree : ¬ (wreq = 3) := by omega
  simp only [State.writePortCtrl, hen, hwreq, henc, hrsv, hthree, Port.controlled, decide_false, Bool.or_self,
    Bool.false_eq_true, if_false]
  cases en <;> cases enc <;> rfl

theorem widthBegin_ready {half : Fin 2} (hstate : (s.port p).state = 3) (hreq : (s.port p).wreq = half.val + 1)
    (hwidth : (s.port p).width ≠ half.val + 1) (hready : (s.port p).halfReady half) : s.widthBegin p
      = ((s.setPort p { s.port p with widthSent := some half }).enqueue p (.ctrl 2 half.val)).widthSwitch p := by
  obtain ⟨hown, m, hpeer, hits⟩ := hready
  simp [State.widthBegin, hstate, hreq, hpeer, hown, hits, Ne.symm hwidth]

/-- The width changes once both ends have sent WIDTH for one half. -/
theorem widthSwitch_both {half : Fin 2} (hsent : (s.port p).widthSent = some half) (hgot : (s.port p).widthGot = some half) :
    (s.widthSwitch p).port p = { s.port p with width := half.val + 1, widthSent := none, widthGot := none } := by
  simp [State.widthSwitch, hsent, hgot]

/-- Until both ends have sent WIDTH for one half nothing changes. -/
theorem widthSwitch_waits {half : Fin 2} (h : (s.port p).widthSent = some half ∧ (s.port p).widthGot ≠ some half
    ∨ (s.port p).widthGot = some half ∧ (s.port p).widthSent ≠ some half) : s.widthSwitch p = s := by
  unfold State.widthSwitch
  dsimp only
  split
  · next a b hsent hgot => exact if_neg (by rintro rfl; simp_all)
  · rfl

end

section
variable (p : PortId) (s : State)

theorem portEnable_gives {wreq : Nat} (enc : Bool) (hw : wreq < 3) (hen : (s.port p).en = false) :
    Gives (.portEnable p (portCtrlWord true wreq enc)) s fun u =>
      u.port p = { s.port p with en := true, wreq := wreq, encReq := enc, state := 1, step := 1 } := by
  refine gives_next (congrArg Host.Outcome.next (writePortCtrl_word true enc hw)) ?_
  simp [hen, Port.controlled]

theorem portDisable_gives {wreq : Nat} (enc : Bool) (hw : wreq < 3) :
    Gives (.portDisable p (portCtrlWord false wreq enc)) s fun u =>
      (u.port p).en = false ∧ (u.port p).state = 0 ∧ (u.port p).step = 1 ∧ (u.port p).linked = false
        ∧ (u.port p).downs = (if (s.port p).linked then satInc32 (s.port p).downs else (s.port p).downs) := by
  have hport := portWritten_port s p false wreq enc
  have hdowns : (((s.portWritten p false wreq enc).linkDown p 4).port p).downs
      = if (s.port p).linked then satInc32 (s.port p).downs else (s.port p).downs := by
    by_cases hl : (s.port p).linked = true
    · have hlinked : ((s.portWritten p false wreq enc).port p).linked = true := by rw [hport]; exact hl
      rw [if_pos hl, linkDown_self _ p 4 hlinked Port.downs fun _ _ _ => rfl, hport]
      rfl
    · have hunlinked : ((s.portWritten p false wreq enc).port p).linked = false := by rw [hport]; exact Bool.eq_false_iff.2 hl
      rw [if_neg hl, linkDown_idle hunlinked, hport]
      rfl
  refine gives_next (congrArg Host.Outcome.next (writePortCtrl_word false enc hw)) ?_
  simp only [Bool.not_false, if_true, State.setPort_port_self, true_and]
  exact ⟨rfl, rfl, hdowns⟩

/-- A request for a width that both ends have ready is announced by WIDTH. -/
theorem widthRequest_announces {half : Fin 2} (enc : Bool) (hen : (s.port p).en = true) (hstate : (s.port p).state = 3)
    (hreq : (s.port p).wreq ≠ half.val + 1) (hwidth : (s.port p).width ≠ half.val + 1) (hready : (s.port p).halfReady half) :
    ∃ t l c, s.writePortCtrl p (portCtrlWord true (half.val + 1) enc) = State.widthSwitch t p
      ∧ t.port p = { (s.port p).controlled true (half.val + 1) enc with widthSent := some half, link := l, txCount := c } := by
  have hport := portWritten_port s p true (half.val + 1) enc
  have hbegin := widthBegin_ready (s := s.portWritten p true (half.val + 1) enc) (p := p) (half := half)
    (by rw [hport]; exact hstate) (by rw [hport]; rfl) (by rw [hport]; exact hwidth) (by rw [hport]; exact hready)
  obtain ⟨l, c, hsent⟩ := (same_enqueue ((s.portWritten p true (half.val + 1) enc).setPort p
    { (s.port p).controlled true (half.val + 1) enc with widthSent := some half }) p (.ctrl 2 half.val)).port_eq p
  refine ⟨_, l, c, ?_, hsent.trans (by rw [State.setPort_port_self])⟩
  rw [writePortCtrl_word true enc (by omega)]
  simp only [Bool.not_true, Bool.false_eq_true, if_false, hen, Ne.symm hreq, ne_eq, not_false_eq_true, if_true, hbegin, hport]

theorem widthRequest_gives {half : Fin 2} (enc : Bool) (hen : (s.port p).en = true) (hstate : (s.port p).state = 3)
    (hreq : (s.port p).wreq ≠ half.val + 1) (hwidth : (s.port p).width ≠ half.val + 1) (hready : (s.port p).halfReady half) :
    ((s.port p).widthGot ≠ some half → Gives (.widthRequest p (portCtrlWord true (half.val + 1) enc)) s fun u =>
        (u.port p).wreq = half.val + 1 ∧ (u.port p).widthSent = some half ∧ (u.port p).width = (s.port p).width
          ∧ (u.port p).state = 3)
      ∧ ((s.port p).widthGot = some half → Gives (.widthRequest p (portCtrlWord true (half.val + 1) enc)) s fun u =>
        (u.port p).wreq = half.val + 1 ∧ (u.port p).width = half.val + 1 ∧ (u.port p).widthSent = none ∧ (u.port p).state = 3) := by
  obtain ⟨t, l, c, hwrite, hport⟩ := widthRequest_announces p s enc hen hstate hreq hwidth hready
  refine ⟨fun hgot => gives_next (congrArg Host.Outcome.next hwrite) ?_, fun hgot => gives_next (congrArg Host.Outcome.next hwrite) ?_⟩
  · rw [widthSwitch_waits (.inl ⟨by rw [hport], by rw [hport]; exact hgot⟩), hport]
    exact ⟨rfl, rfl, rfl, hstate⟩
  · rw [widthSwitch_both (half := half) (by rw [hport]) (by rw [hport]; exact hgot), hport]
    exact ⟨rfl, rfl, rfl, hstate⟩

theorem portCtrl_discards {v : W32} (hv : 16 ≤ v.toNat ∨ bitsOf v.toNat 1 2 = 3) {c : Instr}
    (hc : c ∈ ([.portEnable p v, .portDisable p v, .widthRequest p v] : List Instr)) : Gives c s fun u => u = s.discard := by
  simp only [List.mem_cons, List.not_mem_nil, or_false] at hc
  obtain rfl | rfl | rfl := hc
  all_goals exact gives_next (congrArg Host.Outcome.next (writePortCtrl_discarded hv)) rfl

theorem widthLapse_gives (hreq : (s.port p).wreq ≠ 0) (hwidth : (s.port p).wreq ≠ (s.port p).width) :
    Gives (.widthLapse p) s fun u => u.port p = { s.port p with wreq := 0, widthSent := none } :=
  gives_next (congrArg Host.Outcome.next (if_pos (by simp [hreq, hwidth]))) (State.setPort_port_self ..)

theorem width_gives (half : Fin 2) (hstate : (s.port p).state = 3) :
    ((s.port p).widthSent ≠ some half → Gives (.width p half) s fun u => (u.port p).widthGot = some half
        ∧ (u.port p).width = (s.port p).width ∧ (u.port p).state = 3)
      ∧ ((s.port p).widthSent = some half → Gives (.width p half) s fun u => (u.port p).width = half.val + 1
        ∧ (u.port p).widthSent = none ∧ (u.port p).widthGot = none ∧ (u.port p).state = 3) := by
  have hexec : exec (.width p half) s = .next (State.widthSwitch ((s.acceptFlits p 1).setPort p
      { (s.acceptFlits p 1).port p with widthGot := some half }) p) := congrArg Host.Outcome.next (if_neg (not_not_intro hstate))
  refine ⟨fun hsent => gives_next hexec ?_, fun hsent => gives_next hexec ?_⟩
  · rw [widthSwitch_waits (half := half) (.inr ⟨by simp, by simpa using hsent⟩)]
    simpa using hstate
  · rw [widthSwitch_both (half := half) (by simpa using hsent) (by simp)]
    simpa using hstate

end

/-! ### The neighbour check (R284, R285, R308) -/

section
variable {s : State} {p : PortId} {m : Caps}

/-- Step 8 of the bring-up leaves the port UP. -/
theorem portUp_port (s : State) (p : PortId) :
    ∃ l c, (s.portUp p).port p = { s.port p with state := 3, step := 8, link := l, txCount := c } := by
  obtain ⟨l, c, hport⟩ := SamePorts.port_eq (same_flushPort _ p) p
  exact ⟨l, c, hport.trans (by rw [raisePort_port, State.setPort_port_self])⟩

theorem neighbour_deferred (hf : s.net.frozen = false) : s.neighbour p = s := by
  unfold State.neighbour
  dsimp only
  split
  · rfl
  · exact if_pos (by simp [hf])

/-- The check of a port in step 6 or in MISMATCH, once coordinates are frozen. -/
theorem neighbour_checked (hturn : (s.port p).state = 1 ∧ (s.port p).step = 6 ∨ (s.port p).state = 2)
    (hpeer : (s.port p).peer = some m) (hf : s.net.frozen = true) : s.neighbour p
      = if !s.net.neighbourOk p m then
          (s.setPort p { s.port p with state := 2 }).raisePort 1 0x33 p (payloadOf [(0x18, 1, p.val), (0x20, 8, m.pair.toNat)])
        else if s.mustEncrypt (s.port p) m && !(s.port p).enc then
          s.setPort p (if m.encCap then { s.port p with state := 1, step := 7 } else (s.port p).drop)
        else s.portUp p := by
  simp only [State.neighbour, hpeer]
  exact if_neg (by simpa [hf, ← not_and_or, or_iff_not_imp_left] using hturn)

theorem neighbour_mismatch (hturn : (s.port p).state = 1 ∧ (s.port p).step = 6 ∨ (s.port p).state = 2)
    (hpeer : (s.port p).peer = some m) (hf : s.net.frozen = true) (hn : s.net.neighbourOk p m = false) :
    (s.neighbour p).port p = { s.port p with state := 2 } := by
  rw [neighbour_checked hturn hpeer hf, if_pos (by simp [hn]), raisePort_port, State.setPort_port_self]

theorem neighbour_up (hturn : (s.port p).state = 1 ∧ (s.port p).step = 6 ∨ (s.port p).state = 2)
    (hpeer : (s.port p).peer = some m) (hf : s.net.frozen = true) (hn : s.net.neighbourOk p m = true)
    (he : s.mustEncrypt (s.port p) m = false ∨ (s.port p).enc = true) :
    ∃ l c, (s.neighbour p).port p = { s.port p with state := 3, step := 8, link := l, txCount := c } := by
  rw [neighbour_checked hturn hpeer hf, if_neg (by simp [hn]), if_neg (by simpa [or_iff_not_imp_left] using he)]
  exact portUp_port s p

theorem neighbour_spdm (hturn : (s.port p).state = 1 ∧ (s.port p).step = 6 ∨ (s.port p).state = 2)
    (hpeer : (s.port p).peer = some m) (hf : s.net.frozen = true) (hn : s.net.neighbourOk p m = true)
    (he : s.mustEncrypt (s.port p) m = true) (henc : (s.port p).enc = false) (hcap : m.encCap = true) :
    (s.neighbour p).port p = { s.port p with state := 1, step := 7 } := by
  rw [neighbour_checked hturn hpeer hf, if_neg (by simp [hn]), if_pos (by simp [he, henc]), State.setPort_port_self, if_pos hcap]

theorem neighbourRecheck_gives (hstate : (s.port p).state = 2) (hpeer : (s.port p).peer = some m) (hf : s.net.frozen = true) :
    (s.net.neighbourOk p m = true → s.mustEncrypt (s.port p) m = false ∨ (s.port p).enc = true →
        Gives (.neighbourRecheck p) s fun u => (u.port p).state = 3 ∧ (u.port p).step = 8)
      ∧ (s.net.neighbourOk p m = false → Gives (.neighbourRecheck p) s fun u => (u.port p).state = 2) := by
  have hexec : exec (.neighbourRecheck p) s = .next (s.neighbour p) := congrArg Host.Outcome.next (if_pos hstate)
  refine ⟨fun hn he => gives_next hexec ?_, fun hn => gives_next hexec ?_⟩
  · obtain ⟨l, c, hport⟩ := neighbour_up (.inr hstate) hpeer hf hn he
    rw [hport]
    exact ⟨rfl, rfl⟩
  · rw [neighbour_mismatch (.inr hstate) hpeer hf hn]

end

/-! ### From light to CAPS, SPDM and keys (R281, R284, R308, R309, R505) -/

section
variable (p : PortId) (s : State)

/-- A port that fails a step of its bring-up is held off. -/
theorem drop_state {x : Port} (h : x.en = true) : x.drop.state = 4 := if_pos h

/-- An engine keeps a good copy of the coordinate pair, and checks none before coordinates are frozen. -/
theorem coordCheck_idle {s : State} {p : PortId} (h : s.net.frozen = false ∨ pairGood (s.port p).coordCopy = true) :
    s.coordCheck p = s :=
  if_pos (by simpa using h)

theorem portBringup_gives (probe : PortProbe) (hl : (s.port p).linked = false) (hen : (s.port p).en = true)
    (hfault : s.net.coordFault = false) (hv : s.cust.verified = true)
    (hring : s.net.frozen = false ∨ pairGood (s.port p).coordCopy = true ∧ (6 ≤ p.val ∨ 2 ≤ s.net.len (p.val / 2))) :
    (probe.lanes &&& s.svc.lit ≠ 0#16 → Gives (.portBringup p probe) s fun u => (u.port p).state = 1 ∧ (u.port p).step = 4
        ∧ (u.port p).lanes = probe.lanes &&& s.svc.lit ∧ (u.port p).peer = none ∧ (u.port p).enc = false)
      ∧ (probe.lanes &&& s.svc.lit = 0#16 → Gives (.portBringup p probe) s fun u => (u.port p).state = 4 ∧ (u.port p).step = 1) := by
  have hclosed : ¬ (p.val < 6 ∧ s.net.frozen = true ∧ s.net.len (p.val / 2) < 2) := by
    rintro ⟨hp, hf, hlen⟩
    rcases hring with h | ⟨-, h | h⟩
    · simp [hf] at h
    · omega
    · omega
  have hexec : exec (.portBringup p probe) s = .next (if probe.lanes &&& s.svc.lit = 0#16 then s.setPort p (s.port p).drop
      else State.enqueue (s.setPort p { (s.port p).drop with state := 1, step := 4, lanes := probe.lanes &&& s.svc.lit, peer := none }) p
        (.ctrl 1 0)) := by
    rw [exec_portBringup, execPortBringup]
    simp only [coordCheck_idle (hring.imp_right And.left), hl, hen, hfault, hv]
    exact congrArg Host.Outcome.next (if_neg (by simpa using hclosed))
  refine ⟨fun hlit => gives_next (hexec.trans (congrArg _ (if_neg hlit))) ?_,
    fun hlit => gives_next (hexec.trans (congrArg _ (if_pos hlit))) ?_⟩
  · obtain ⟨l, c, hport⟩ := (same_enqueue (s.setPort p { (s.port p).drop with
      state := 1, step := 4, lanes := probe.lanes &&& s.svc.lit, peer := none }) p (.ctrl 1 0)).port_eq p
    rw [hport, State.setPort_port_self]
    exact ⟨rfl, rfl, rfl, rfl, rfl⟩
  · rw [State.setPort_port_self]
    exact ⟨drop_state hen, rfl⟩

/-- The state in which CAPS of a peer is taken, at the width common to both ends. -/
def State.capsTaken (s : State) (p : PortId) (m : Caps) (w : Nat) : State :=
  (s.acceptFlits p 1).setPort p { (s.acceptFlits p 1).port p with step := 6, peer := some m, width := w }

@[simp] theorem capsTaken_port (m : Caps) (w : Nat) : (s.capsTaken p m w).port p
    = { (s.acceptFlits p 1).port p with step := 6, peer := some m, width := w } := State.setPort_port_self ..

theorem exec_caps_taken {m : Caps} {w : Nat} (hstate : (s.port p).state = 1) (hstep : (s.port p).step = 4)
    (hw : commonWidth (s.port p).lanes m.lanes = some w) (hl : m.levels.getLsbD 1 = true) :
    exec (.caps p m) s = .next ((s.capsTaken p m w).neighbour p) := by
  rw [exec_caps, execCaps]
  simp only [hstate, hstep, hw, hl, decide_true, Bool.and_self, Bool.not_true, Bool.false_eq_true, if_false]
  rfl

theorem exec_caps_refused {m : Caps} (hstate : (s.port p).state = 1) (hstep : (s.port p).step = 4)
    (h : commonWidth (s.port p).lanes m.lanes = none ∨ m.levels.getLsbD 1 = false) :
    exec (.caps p m) s = .next ((s.acceptFlits p 1).setPort p ((s.acceptFlits p 1).port p).drop) := by
  rw [exec_caps, execCaps]
  simp only [hstate, hstep, decide_true, Bool.and_self, Bool.not_true, Bool.false_eq_true, if_false]
  split
  · rfl
  · next w hw => rw [if_pos (by simpa [hw] using h)]

theorem caps_gives (m : Caps) (hstate : (s.port p).state = 1) (hstep : (s.port p).step = 4) (henc : (s.port p).enc = false)
    (hen : (s.port p).en = true) :
    (∀ w, commonWidth (s.port p).lanes m.lanes = some w → m.levels.getLsbD 1 = true →
        (s.net.frozen = false → Gives (.caps p m) s fun u => (u.port p).state = 1 ∧ (u.port p).step = 6 ∧ (u.port p).width = w
          ∧ (u.port p).peer = some m)
        ∧ (s.net.frozen = true → s.net.neighbourOk p m = false → Gives (.caps p m) s fun u => (u.port p).state = 2 ∧ (u.port p).width = w)
        ∧ (s.net.frozen = true → s.net.neighbourOk p m = true → s.mustEncrypt (s.port p) m = false →
            Gives (.caps p m) s fun u => (u.port p).state = 3 ∧ (u.port p).step = 8 ∧ (u.port p).width = w ∧ (u.port p).enc = false)
        ∧ (s.net.frozen = true → s.net.neighbourOk p m = true → s.mustEncrypt (s.port p) m = true → m.encCap = true →
            Gives (.caps p m) s fun u => (u.port p).state = 1 ∧ (u.port p).step = 7 ∧ (u.port p).width = w))
      ∧ (commonWidth (s.port p).lanes m.lanes = none ∨ m.levels.getLsbD 1 = false →
          Gives (.caps p m) s fun u => (u.port p).state = 4 ∧ (u.port p).step = 1) := by
  refine ⟨fun w hw hl => ?taken, fun h => gives_next (exec_caps_refused p s hstate hstep h) ?refused⟩
  case refused =>
    rw [State.setPort_port_self, acceptFlits_port]
    exact ⟨drop_state hen, rfl⟩
  case taken =>
    have hexec := exec_caps_taken p s hstate hstep hw hl
    have hturn : ((s.capsTaken p m w).port p).state = 1 ∧ ((s.capsTaken p m w).port p).step = 6
        ∨ ((s.capsTaken p m w).port p).state = 2 := .inl (by simp [hstate])
    have hpeer : ((s.capsTaken p m w).port p).peer = some m := by simp
    have hmust : (s.capsTaken p m w).mustEncrypt ((s.capsTaken p m w).port p) m = s.mustEncrypt (s.port p) m := by
      rw [capsTaken_port, acceptFlits_port]
      rfl
    refine ⟨fun hf => gives_next hexec ?_, fun hf hn => gives_next hexec ?_, fun hf hn he => gives_next hexec ?_,
      fun hf hn he hcap => gives_next hexec ?_⟩
    · rw [neighbour_deferred (by exact hf)]
      simp [hstate]
    · rw [neighbour_mismatch hturn hpeer hf hn]
      simp
    · obtain ⟨l, c, hport⟩ := neighbour_up hturn hpeer hf hn (.inl (hmust.trans he))
      rw [hport]
      simp [henc]
    · rw [neighbour_spdm hturn hpeer hf hn (hmust.trans he) (by simp [henc]) hcap]
      simp

/-- The keys of a port once SPDM has given them to both directions. -/
def Port.keyed (x : Port) (admitted : Bool) : Port :=
  { x with enc := true, attested := admitted, txKey := x.txKey + 1, rxKey := x.rxKey + 1, rxNewKey := x.rxKey + 1, txCount := 0#64,
           rxCount := 0#64 }

/-- What decides step 7 does not depend on the flits accepted. -/
theorem acceptFlits_refuses (s : State) (p : PortId) (n : Nat) (m : PeerProof) :
    (!m.bothSides || ((s.acceptFlits p n).cust.sealed && !(s.acceptFlits p n).admits p m))
      = (!m.bothSides || (s.cust.sealed && !s.admits p m)) := rfl

theorem exec_spdm_keyed {m : PeerProof} (hstate : (s.port p).state = 1) (hstep : (s.port p).step = 7) (hb : m.bothSides = true)
    (ha : s.cust.sealed = false ∨ s.admits p m = true) : ∃ t : State, exec (.spdm p m) s
      = .next (((t.setPort p (((s.acceptFlits p 1).port p).keyed (s.admits p m))).enqueue p (.ctrl 3 0)).portUp p) := by
  have hgo : ¬ ((!m.bothSides || (s.cust.sealed && !s.admits p m)) = true) := by rcases ha with h | h <;> simp [hb, h]
  rw [exec_spdm, execSpdm]
  simp only [hstate, hstep, decide_true, Bool.and_self, Bool.not_true, Bool.false_eq_true, if_false]
  rw [acceptFlits_refuses, if_neg hgo]
  exact ⟨_, rfl⟩

theorem exec_spdm_refused {m : PeerProof} (hstate : (s.port p).state = 1) (hstep : (s.port p).step = 7)
    (h : m.bothSides = false ∨ s.cust.sealed = true ∧ s.admits p m = false) :
    exec (.spdm p m) s = .next ((s.acceptFlits p 1).setPort p ((s.acceptFlits p 1).port p).drop) := by
  have hstop : (!m.bothSides || (s.cust.sealed && !s.admits p m)) = true := by
    rcases h with h | ⟨h, g⟩
    · simp [h]
    · simp [h, g]
  rw [exec_spdm, execSpdm]
  simp only [hstate, hstep, decide_true, Bool.and_self, Bool.not_true, Bool.false_eq_true, if_false]
  rw [acceptFlits_refuses, if_pos hstop]

theorem spdm_gives (m : PeerProof) (hstate : (s.port p).state = 1) (hstep : (s.port p).step = 7) (hen : (s.port p).en = true) :
    (m.bothSides = true → s.cust.sealed = false ∨ s.admits p m = true → Gives (.spdm p m) s fun u =>
        (u.port p).state = 3 ∧ (u.port p).enc = true ∧ (u.port p).attested = s.admits p m ∧ (u.port p).txKey = (s.port p).txKey + 1
          ∧ (u.port p).rxKey = (s.port p).rxKey + 1 ∧ (u.port p).rxCount = 0#64)
      ∧ (m.bothSides = false ∨ s.cust.sealed = true ∧ s.admits p m = false → Gives (.spdm p m) s fun u =>
          (u.port p).state = 4 ∧ (u.port p).enc = false ∧ (u.port p).attested = false) := by
  refine ⟨fun hb ha => ?keyed, fun h => ?refused⟩
  case keyed =>
    obtain ⟨t, hexec⟩ := exec_spdm_keyed p s hstate hstep hb ha
    refine gives_next hexec ?_
    obtain ⟨l, c, hup⟩ := portUp_port ((t.setPort p (((s.acceptFlits p 1).port p).keyed (s.admits p m))).enqueue p (.ctrl 3 0)) p
    obtain ⟨l1, c1, hport⟩ := (same_enqueue (t.setPort p (((s.acceptFlits p 1).port p).keyed (s.admits p m))) p (.ctrl 3 0)).port_eq p
    rw [hup, hport, State.setPort_port_self, acceptFlits_port]
    exact ⟨rfl, rfl, rfl, rfl, rfl, rfl⟩
  case refused =>
    refine gives_next (exec_spdm_refused p s hstate hstep h) ?_
    rw [State.setPort_port_self, acceptFlits_port]
    exact ⟨drop_state hen, rfl, rfl⟩

theorem keys_give (henc : (s.port p).enc = true) (hl : (s.port p).linked = true) :
    ((s.port p).rxNewKey ≠ (s.port p).rxKey → Gives (.key p) s fun u => (u.port p).rxKey = (s.port p).rxNewKey ∧ (u.port p).rxCount = 0#64)
      ∧ (Gives (.rekey p true) s fun u => (u.port p).txKey = (s.port p).txKey + 1 ∧ (u.port p).txCount = 0#64
          ∧ (u.port p).rxKey = (s.port p).rxKey)
      ∧ (Gives (.rekey p false) s fun u => (u.port p).rxNewKey = (s.port p).rxKey + 1 ∧ (u.port p).rxKey = (s.port p).rxKey
          ∧ (u.port p).txKey = (s.port p).txKey) := by
  have hready : ¬ ((!(s.port p).enc || !(s.port p).linked) = true) := by simp [henc, hl]
  refine ⟨fun hnew => gives_next (congrArg Host.Outcome.next (if_neg hready)) ?_,
    gives_next (congrArg Host.Outcome.next (if_neg hready)) ?_, gives_next (congrArg Host.Outcome.next (if_neg hready)) ?_⟩
  · rw [State.setPort_port_self, acceptFlits_port, if_neg hnew]
    exact ⟨rfl, rfl⟩
  · obtain ⟨l, c, hport⟩ := (same_enqueue s p (.ctrl 3 0)).port_eq p
    simp only [if_true, State.setPort_port_self, hport, and_self]
  · simp only [Bool.false_eq_true, if_false, State.setPort_port_self, and_self]

end

/-! ### The copies of the coordinate pair (R287) -/

section
variable {s : State} {p : PortId}

/-- After every port has been taken down none has a link. -/
theorem allDown_linked (l : List PortId) (s : State) (c : Nat) (q : PortId) (hq : q ∈ l) :
    ((l.foldl (fun s q => s.linkDown q c) s).port q).linked = false := by
  have stays : ∀ (l : List PortId) (s : State), (s.port q).linked = false →
      ((l.foldl (fun s q => s.linkDown q c) s).port q).linked = false := by
    intro l
    induction l with
    | nil => exact fun s h => h
    | cons a l ih =>
      refine fun s h => ih _ ?_
      by_cases hqa : q = a
      · exact hqa ▸ linkDown_linked ..
      · rwa [linkDown_other s a q c hqa Port.linked fun _ _ _ => rfl]
  induction l generalizing s with
  | nil => exact absurd hq List.not_mem_nil
  | cons a l ih =>
    rcases List.mem_cons.1 hq with rfl | hq
    · exact stays l _ (linkDown_linked ..)
    · exact ih _ hq

theorem allDown_coordFault (l : List PortId) (s : State) (c : Nat) :
    (l.foldl (fun s q => s.linkDown q c) s).net.coordFault = s.net.coordFault :=
  (SameFabric.foldl _ (fun s q => sameFabric_linkDown s q c) l s).coordFault

/-- A bad copy is loaded anew from the Belfry's pair, if that is good. -/
theorem coordCheck_reloads (hf : s.net.frozen = true) (hbad : pairGood (s.port p).coordCopy = false)
    (hgood : pairGood (s.net.coordC ++ s.net.coord) = true) : s.coordCheck p
      = (s.setPort p { s.port p with coordCopy := s.net.coordC ++ s.net.coord }).raisePort 1 0x38 p (payloadOf [(0x18, 1, 0)]) := by
  simp only [State.coordCheck, hf, hbad, hgood, Bool.not_true, Bool.or_self, Bool.false_eq_true, if_false, if_true]

/-- The state in which the fault of the coordinates is recorded. -/
def State.coordFaulted (s : State) (p : PortId) : State :=
  State.raisePort { s with net := { s.net with coordFault := true } } 1 0x38 p (payloadOf [(0x18, 1, 1)])

theorem coordFaulted_coordFault (s : State) (p : PortId) : (s.coordFaulted p).net.coordFault = true := by
  rw [State.coordFaulted, raisePort_net]

/-- Where the Belfry's pair is bad too every port goes down. -/
theorem coordCheck_faults (hf : s.net.frozen = true) (hbad : pairGood (s.port p).coordCopy = false)
    (hgood : pairGood (s.net.coordC ++ s.net.coord) = false) : s.coordCheck p = (List.finRange 8).foldl (fun s q => s.linkDown q 5)
      (s.coordFaulted p) := by
  simp only [State.coordCheck, hf, hbad, hgood, Bool.not_true, Bool.or_self, Bool.false_eq_true, if_false, State.coordFaulted]

theorem coordinateCheck_gives (hf : s.net.frozen = true) (hbad : pairGood (s.port p).coordCopy = false) :
    (pairGood (s.net.coordC ++ s.net.coord) = true → Gives (.coordinateCheck p) s fun u =>
        (u.port p).coordCopy = s.net.coordC ++ s.net.coord ∧ u.net.coordFault = s.net.coordFault)
      ∧ (pairGood (s.net.coordC ++ s.net.coord) = false → Gives (.coordinateCheck p) s fun u =>
        u.net.coordFault = true ∧ ∀ q, (u.port q).linked = false) := by
  refine ⟨fun hgood => gives_next (congrArg Host.Outcome.next (coordCheck_reloads hf hbad hgood)) ?_,
    fun hgood => gives_next (congrArg Host.Outcome.next (coordCheck_faults hf hbad hgood)) ⟨?_, fun q => ?_⟩⟩
  · rw [raisePort_port, State.setPort_port_self, raisePort_net]
    exact ⟨rfl, rfl⟩
  · rw [allDown_coordFault, coordFaulted_coordFault]
  · exact allDown_linked (List.finRange 8) _ 5 q (List.mem_finRange q)

end

/-- Settles O39: the writes of PORT_CTRL and the width changes, then the bring-up step by step, the keys and the coordinates. -/
theorem portControlAndBringUp : Obligations.PortControlAndBringUp :=
  ⟨fun p s => ⟨fun _ enc hw hen => portEnable_gives p s enc hw hen, fun _ enc hw => portDisable_gives p s enc hw,
      fun _ enc hen hstate hreq hwidth hready => widthRequest_gives p s enc hen hstate hreq hwidth hready,
      fun _ hv _ hc => portCtrl_discards p s hv hc, fun hreq hwidth => widthLapse_gives p s hreq hwidth,
      fun half hstate => width_gives p s half hstate⟩,
    fun p s => ⟨fun probe hl hen hfault hv hring => portBringup_gives p s probe hl hen hfault hv hring,
      fun m hstate hstep henc hen => caps_gives p s m hstate hstep henc hen,
      fun _ hstate hpeer hf => neighbourRecheck_gives hstate hpeer hf,
      fun m hstate hstep hen => spdm_gives p s m hstate hstep hen, fun henc hl => keys_give p s henc hl,
      fun hf hbad => coordinateCheck_gives hf hbad⟩⟩

end Sys2Proof.Machine

/-! ## The link layer of a Carillon port

What a flit that is discarded, a replay, an idle flit and the heartbeat leave of a port, and the statement O40 settled from it. -/

namespace Sys2Proof.Machine

section
variable {s : State} {p : PortId}

/-! ### Acknowledgements and credits (R278, R279) -/

@[simp] theorem LinkLayer.credit_acked (l : LinkLayer) (vc n : Nat) : (l.credit vc n).acked = l.acked := rfl
@[simp] theorem LinkLayer.credit_rxNext (l : LinkLayer) (vc n : Nat) : (l.credit vc n).rxNext = l.rxNext := rfl
@[simp] theorem LinkLayer.credit_inFlight (l : LinkLayer) (vc n : Nat) : (l.credit vc n).inFlight = l.inFlight := rfl

@[simp] theorem LinkLayer.ack_rxNext (l : LinkLayer) (a : BitVec 12) : (l.ack a).rxNext = l.rxNext := by
  unfold LinkLayer.ack
  split <;> rfl

theorem LinkLayer.ack_acked {l : LinkLayer} {a : BitVec 12} (h : (a - l.acked).toNat ≤ l.inFlight) : (l.ack a).acked = a := by
  rw [LinkLayer.ack, if_pos h]

/-! ### Discards and violations (R278, R308, R310) -/

theorem flitDiscard_bad (hl : (s.port p).linked = true) {f : Trailer} (hf : (s.port p).goodFlit f = false) :
    Gives (.flitDiscard p f) s fun u => u.port p = { s.port p with
      authFail := if (s.port p).enc && f.crcGood && !f.authGood then satInc32 (s.port p).authFail else (s.port p).authFail
      retries := if f.ltype ≠ 0#4 ∧ (s.port p).link.awaited = false then satInc64 (s.port p).retries else (s.port p).retries
      link := { (s.port p).link with awaited := (s.port p).link.awaited || decide (f.ltype ≠ 0#4) } } := by
  have hexec : exec (.flitDiscard p f) s = .next (s.setPort p { s.port p with
      authFail := if (s.port p).enc && f.crcGood && !f.authGood then satInc32 (s.port p).authFail else (s.port p).authFail
      retries := if f.ltype ≠ 0#4 && !(s.port p).link.awaited then satInc64 (s.port p).retries else (s.port p).retries
      link := { (s.port p).link with awaited := (s.port p).link.awaited || (f.ltype ≠ 0#4 && !(s.port p).link.awaited) } }) := by
    simp only [exec_flitDiscard, execFlitDiscard, hl, hf, Bool.not_true, Bool.false_and, Bool.false_eq_true, if_false]
  refine gives_next hexec ?_
  rw [State.setPort_port_self]
  cases (s.port p).link.awaited <;> simp

/-- The port of a link violation, counted but not yet retrained. -/
def Port.violated (x : Port) : Port := { x with violations := satInc32 x.violations, retrains := x.retrains + 1 }

/-- The port of a link violation back at the exchange of CAPS. -/
def Port.retraining (x : Port) : Port :=
  { x.violated with state := 1, step := 4, link := { LinkLayer.fresh with queue := x.link.queue }, widthSent := none, widthGot := none }

/-- The state in which a link violation is counted and recorded. -/
def State.violationRecorded (s : State) (p : PortId) : State :=
  ((s.setPort p (s.port p).violated).raisePort 2 0x36 p (payloadOf [(0x18, 1, p.val), (0x1C, 4, (s.port p).peerCoord)])).drawn

theorem violationRecorded_port (s : State) (p : PortId) : (s.violationRecorded p).port p = (s.port p).violated := by
  have hnet : (s.violationRecorded p).net = (s.setPort p (s.port p).violated).net := by simp [State.violationRecorded]
  rw [port_of_net hnet, State.setPort_port_self]

theorem linkViolation_eq (s : State) (p : PortId) : s.linkViolation p
    = if (s.port p).retrains + 1 ≥ 3 && Config.freeChoice s.fresh 0 then (s.violationRecorded p).linkDown p 3
      else ((s.violationRecorded p).setPort p (s.port p).retraining).enqueue p (.ctrl 1 0) := rfl

/-- A link violation is counted, and the link retrains from the exchange of CAPS, or goes down at the third retrain. -/
theorem linkViolation_port (hl : (s.port p).linked = true) : ((s.linkViolation p).port p).violations = satInc32 (s.port p).violations
    ∧ (2 ≤ (s.port p).retrains ∨ ((s.linkViolation p).port p).state = 1 ∧ ((s.linkViolation p).port p).step = 4) := by
  rw [linkViolation_eq]
  split
  · next hthird =>
    have hlinked : ((s.violationRecorded p).port p).linked = true := by rw [violationRecorded_port]; exact hl
    refine ⟨?_, .inl ?_⟩
    · rw [linkDown_self _ p 3 hlinked Port.violations fun _ _ _ => rfl, violationRecorded_port]
      rfl
    · simp only [Bool.and_eq_true, decide_eq_true_eq] at hthird
      omega
  · obtain ⟨l, c, hport⟩ := (same_enqueue ((s.violationRecorded p).setPort p (s.port p).retraining) p (.ctrl 1 0)).port_eq p
    rw [hport, State.setPort_port_self]
    exact ⟨rfl, .inr ⟨rfl, rfl⟩⟩

theorem flitDiscard_violation (hl : (s.port p).linked = true) {f : Trailer} (hf : (s.port p).goodFlit f = true)
    (hb : (s.port p).trailerBad f = true) : Gives (.flitDiscard p f) s fun u => (u.port p).violations = satInc32 (s.port p).violations
      ∧ (2 ≤ (s.port p).retrains ∨ (u.port p).state = 1 ∧ (u.port p).step = 4) := by
  have hexec : exec (.flitDiscard p f) s = .next (s.linkViolation p) := by
    simp only [exec_flitDiscard, execFlitDiscard, hl, hf, hb, Bool.not_true, Bool.and_self, Bool.false_eq_true, if_false, if_true]
  exact gives_next hexec (linkViolation_port hl)

/-! ### Replays (R278) -/

/-- A link that goes down is counted, and its port has no link. -/
theorem linkDown_counted (c : Nat) (hl : (s.port p).linked = true) :
    ((s.linkDown p c).port p).linked = false ∧ ((s.linkDown p c).port p).downs = satInc32 (s.port p).downs :=
  ⟨linkDown_linked .., linkDown_self s p c hl Port.downs fun _ _ _ => rfl⟩

theorem linkReplay_gives (hl : (s.port p).linked = true) (a : BitVec 12) {l : LinkLayer} (hack : l = (s.port p).link.ack a) :
    (l.inFlight = 0 → Gives (.linkReplay p a) s fun u => (u.port p).link = { l with replays := 0 } ∧ (u.port p).linked = true)
      ∧ (l.inFlight ≠ 0 → (s.port p).link.replays = 16 → (s.port p).link.replayed = l.acked + 1#12 →
          Gives (.linkReplay p a) s fun u => (u.port p).linked = false ∧ (u.port p).downs = satInc32 (s.port p).downs)
      ∧ (l.inFlight ≠ 0 → (s.port p).link.replays = 0 ∨ (s.port p).link.replayed ≠ l.acked + 1#12 →
          Gives (.linkReplay p a) s fun u => (u.port p).link.replays = 1 ∧ (u.port p).link.replayed = l.acked + 1#12
            ∧ (u.port p).linked = true) := by
  subst hack
  have hexec : exec (.linkReplay p a) s = .next (s.replay p a) := congrArg Host.Outcome.next (if_pos hl)
  refine ⟨fun h0 => gives_next (hexec.trans (congrArg _ (if_pos h0))) ?_, fun h0 h16 hsame => gives_next hexec ?_,
    fun h0 hnew => gives_next hexec ?_⟩
  · rw [State.setPort_port_self]
    exact ⟨rfl, hl⟩
  · have hdown : s.replay p a = s.linkDown p 2 := by simp [State.replay, h0, h16, hsame]
    rw [hdown]
    exact linkDown_counted 2 hl
  · have hfirst : ¬ ((s.port p).link.replays ≠ 0 && (s.port p).link.replayed = ((s.port p).link.ack a).acked + 1#12) := by
      simpa [or_iff_not_imp_left] using hnew
    have hreplay : s.replay p a = State.flushPort (s.setPort p { s.port p with
        link := { (s.port p).link.ack a with replayed := ((s.port p).link.ack a).acked + 1#12, replays := 1 }
        txCount := (s.port p).txCount + BitVec.ofNat 64 ((s.port p).link.ack a).inFlight }) p := by
      simp only [State.replay, h0, hfirst, if_false]
      rfl
    rw [hreplay]
    refine ⟨?_, ?_, ?_⟩
    · rw [flushPort_link LinkLayer.replays (fun _ _ => rfl) (fun _ _ => rfl), State.setPort_port_self]
    · rw [flushPort_link LinkLayer.replayed (fun _ _ => rfl) (fun _ _ => rfl), State.setPort_port_self]
    · rw [(same_flushPort _ p).get Port.linked (fun _ _ _ => rfl), State.setPort_port_self]
      exact hl

/-! ### Idle flits and the heartbeat (R275, R279, R280) -/

/-- The link layer after what an idle flit returns: credits, then an acknowledgement. -/
def LinkLayer.returned (l : LinkLayer) (f : Trailer) : LinkLayer :=
  let l0 := if f.cv then l.credit f.cvc.toNat f.credits.toNat else l
  if f.ackv then l0.ack f.ackseq else l0

theorem LinkLayer.returned_rxNext (l : LinkLayer) (f : Trailer) : (l.returned f).rxNext = l.rxNext := by
  unfold LinkLayer.returned
  cases f.ackv <;> cases f.cv <;> simp

theorem LinkLayer.returned_acked {l : LinkLayer} {f : Trailer} (ha : f.ackv = true) (h : (f.ackseq - l.acked).toNat ≤ l.inFlight) :
    (l.returned f).acked = f.ackseq := by
  unfold LinkLayer.returned
  simp only [ha, if_true]
  cases f.cv
  · exact ack_acked h
  · exact ack_acked (l := l.credit f.cvc.toNat f.credits.toNat) h

theorem LinkLayer.returned_unacked {l : LinkLayer} {f : Trailer} (ha : f.ackv = false) : (l.returned f).acked = l.acked := by
  unfold LinkLayer.returned
  cases f.cv <;> simp [ha]

theorem idleFlit_gives (hl : (s.port p).linked = true) {f : Trailer} (ht : f.ltype = 0#4) (hf : (s.port p).goodFlit f = true)
    (hb : (s.port p).trailerBad f = false) (hr : f.retry = false) :
    Gives (.idleFlit p f) s fun u => (u.port p).rxCount = (s.port p).rxCount + 1#64 ∧ (u.port p).link.rxNext = (s.port p).link.rxNext
      ∧ (f.ackv = true → (f.ackseq - (s.port p).link.acked).toNat ≤ (s.port p).link.inFlight → (u.port p).link.acked = f.ackseq)
      ∧ (f.ackv = false → (u.port p).link.acked = (s.port p).link.acked) := by
  have hexec : exec (.idleFlit p f) s = .next (State.flushPort (s.setPort p { s.port p with
      rxCount := (s.port p).rxCount + 1#64, link := (s.port p).link.returned f }) p) := by
    simp only [exec_idleFlit, execIdleFlit, hl, hf, ht, hb, hr, Bool.not_true, Bool.or_self, ne_eq, not_true_eq_false, decide_false,
      Bool.false_eq_true, if_false, Bool.false_and, State.when_false]
    rfl
  have hlink {α : Type} (g : LinkLayer → α) (hsend : ∀ (l : LinkLayer) (i : TxItem), g (l.send i) = g l)
      (hqueue : ∀ (l : LinkLayer) (q : List TxItem), g { l with queue := q } = g l) :
      g ((State.flushPort (s.setPort p { s.port p with
        rxCount := (s.port p).rxCount + 1#64, link := (s.port p).link.returned f }) p).port p).link = g ((s.port p).link.returned f) := by
    rw [flushPort_link g hsend hqueue, State.setPort_port_self]
  have hacked := hlink LinkLayer.acked (fun _ _ => rfl) (fun _ _ => rfl)
  refine gives_next hexec ⟨?_, ?_, fun ha hle => hacked.trans (LinkLayer.returned_acked ha hle),
    fun ha => hacked.trans (LinkLayer.returned_unacked ha)⟩
  · rw [(same_flushPort _ p).get Port.rxCount (fun _ _ _ => rfl), State.setPort_port_self]
  · exact (hlink LinkLayer.rxNext (fun _ _ => rfl) (fun _ _ => rfl)).trans (LinkLayer.returned_rxNext ..)

theorem heartbeatTimeout_gives (hl : (s.port p).linked = true) :
    Gives (.linkHeartbeatTimeout p) s fun u => (u.port p).linked = false ∧ (u.port p).downs = satInc32 (s.port p).downs
      ∧ (u.port p).state = (if (s.port p).en then 4 else 0) ∧ ∀ q, q ≠ p → (u.port q).state = (s.port q).state := by
  obtain ⟨hlinked, hdowns⟩ := linkDown_counted 1 hl
  exact gives_next (exec_linkHeartbeatTimeout p s) ⟨hlinked, hdowns, linkDown_self s p 1 hl Port.state fun _ _ _ => rfl,
    fun q hq => linkDown_other s p q 1 hq Port.state fun _ _ _ => rfl⟩

end

/-- Settles O40: a flit discarded and one in violation, the replay by what is still in flight, an idle flit, and the heartbeat. -/
theorem portFlits : Obligations.PortFlits := fun _ _ hl =>
  ⟨fun _ hf => flitDiscard_bad hl hf, fun _ hf hb => flitDiscard_violation hl hf hb, fun a _ hack => linkReplay_gives hl a hack,
    fun _ ht hf hb hr => idleFlit_gives hl ht hf hb hr, heartbeatTimeout_gives hl⟩

end Sys2Proof.Machine

/-! ## PUT and GET descriptors and their answers

How a transfer's messages leave, how it ends with the answer to its last message, and what timeouts, epochs and the clearing of
quarantine leave; the statement O42 settled from them. -/

namespace Sys2Proof.Machine

/-! ### A descriptor starts (R296, R298, R300) -/

section
variable {s v : State} {t : TileId} {i : Nat} {f : InFlight} {d : MoveDesc} {k : MoveKind}

theorem mayStart_kind {x : Tile} (h : x.mayStart i k = some (f, d)) : d.kind = k := by
  unfold Tile.mayStart at h
  split at h
  · exact nomatch h
  · split at h
    · exact nomatch h
    · split at h
      · next hc =>
        simp only [Option.some.injEq, Prod.mk.injEq] at h
        simp only [Bool.and_eq_true, decide_eq_true_eq] at hc
        exact h.2 ▸ hc.1.2
      · exact nomatch h

theorem exec_remoteCommand (hk : k = .put ∨ k = .get) (s : State) :
    exec (if k = .put then .put t i else .get t i) s = .next (s.runRemote t i k) := by
  obtain rfl | rfl := hk <;> rfl

/-- A PUT or GET at its turn starts while the host's link is not in recovery (R154, R421). -/
theorem runRemote_starts (hm : (s.tile t).mayStart i k = some (f, d)) (hc : s.cxl.state ≠ 2) :
    s.runRemote t i k = s.remoteStart t i f d := by
  simp only [State.runRemote, hm]
  exact if_neg (by simp [hc])

theorem remoteStart_empty (he : d.empty = true) (hr : d.ringEn = false) :
    s.remoteStart t i f d = s.setDesc t i { f with phase := .done } := by
  simp [State.remoteStart, he, hr]

/-- The transfer of a descriptor that asks for no ring, with these messages to send. -/
def InFlight.xfer (f : InFlight) (t : TileId) (d : MoveDesc) (todo : List Pending) : Xfer :=
  { tile := t, idx := f.idx, d := d, vbase := f.vbase, pbase := f.pbase, todo := todo, out := 0, nack := none, timedOut := false,
    failed := none, ringDue := false }

/-- The messages of a descriptor leave with the rows that a PUT reads from its local source; a GET reads none. -/
theorem remoteStart_sends {rows : List (List Byte)} (hk : d.kind = .put ∧ s.readRows t f d = (v, 0#32, rows)
      ∨ d.kind = .get ∧ v = s ∧ rows = []) (he : d.empty = false) (hr : d.ringEn = false) :
    s.remoteStart t i f d = (v.setDesc t i { f with phase := .transferring }).xferStep (f.xfer t d (d.messages rows)) := by
  rcases hk with ⟨hkind, hread⟩ | ⟨hkind, rfl, rfl⟩
  · simp [State.remoteStart, he, hr, hkind, hread, stOk_eq, InFlight.xfer]
  · simp [State.remoteStart, he, hr, hkind, InFlight.xfer]

end

/-! ### Messages leave (R298 to R301) -/

section
variable {s : State} {x y : Xfer} {q : Pending} {rest : List Pending} {p : PortId} {m : Msg} {slot : Nat}

theorem pumpOne_sends (hx : x.closed = false) (ht : x.todo = q :: rest) (hd : x.d.remoteCoord.toNat ≠ s.net.here)
    (hr : s.routeMsg (x.message s.net q) none = some (p, m)) (hs : s.net.freeSlot p = some slot) :
    s.pumpOne x = (s.sendRequest x q p m slot, { x with todo := rest, out := x.out + 1 }, true) := by
  simp only [State.pumpOne, hx, ht, hd, hr, hs, Bool.false_eq_true, if_false]

/-- Nothing leaves of a transfer whose messages are all sent. -/
theorem pumpOne_sent (hx : x.closed = false) (ht : x.todo = []) (hr : x.ringDue = false) : s.pumpOne x = (s, x, false) := by
  simp [State.pumpOne, hx, ht, hr]

/-- Nothing more leaves of a transfer after a NACK, a timeout or a failure (R300). -/
theorem pumpOne_closed (hx : x.closed = true) : s.pumpOne x = (s, { x with todo := [], ringDue := false }, false) := by
  rw [State.pumpOne, if_pos hx]

theorem pump_stops (n : Nat) (h : s.pumpOne x = (s, y, false)) : s.pump x (n + 1) = (s, y) := by
  simp only [State.pump, h, Bool.false_eq_true, if_false]

/-- A transfer with nothing more to send or to wait for ends. -/
theorem xferStep_ends (h : s.pumpOne x = (s, y, false)) (ht : y.todo = []) (ho : y.out = 0) (hr : y.ringDue = false) :
    s.xferStep x = s.xferEnd y := by
  simp [State.xferStep, pump_stops _ h, ht, ho, hr]

/-- A transfer of one message has sent it, and waits for its answer. -/
theorem xferStep_one (hx : x.closed = false) (ht : x.todo = [q]) (hr : x.ringDue = false) (ho : x.out = 0)
    (hd : x.d.remoteCoord.toNat ≠ s.net.here) (hroute : s.routeMsg (x.message s.net q) none = some (p, m))
    (hs : s.net.freeSlot p = some slot) :
    s.xferStep x = (s.sendRequest x q p m slot).setXfer { x with todo := [], out := 1 } := by
  have hsent : (s.sendRequest x q p m slot).pumpOne { x with todo := [], out := 1 }
      = (s.sendRequest x q p m slot, { x with todo := [], out := 1 }, false) := pumpOne_sent hx rfl hr
  have hpump : s.pump x (x.todo.length + 3) = (s.sendRequest x q p m slot, { x with todo := [], out := 1 }) := by
    rw [State.pump, pumpOne_sends hx ht hd hroute hs]
    simp only [if_true, ho]
    exact pump_stops _ hsent
  simp [State.xferStep, hpump]

/-- A closed transfer takes no tracker. -/
theorem xferStep_closed_trackers (hx : x.closed = true) : (s.xferStep x).net.trackers = s.net.trackers := by
  unfold State.xferStep
  dsimp only
  rw [pump_stops _ (pumpOne_closed hx)]
  split
  · rw [xferEnd_net]
    rfl
  · rfl

@[simp] theorem setXfer_xfer (n : NetS) (x : Xfer) : (n.setXfer x).xfer x.tile x.idx = some x := by
  simp [NetS.setXfer, NetS.xfer]

@[simp] theorem dropXfer_xfer (n : NetS) (t : TileId) (idx : Nat) : (n.dropXfer t idx).xfer t idx = none := by
  refine List.find?_eq_none.2 fun x hx => ?_
  obtain ⟨-, hkept⟩ := List.mem_filter.1 hx
  simpa [or_iff_not_imp_left] using hkept

@[simp] theorem setTracker_tracker (n : NetS) (p : PortId) (slot : Nat) (t : Tracker) : (n.setTracker p slot t).tracker p slot = t :=
  Map.get_set_self ..

theorem setXfer_tracker (s : State) (x : Xfer) (p : PortId) (slot : Nat) :
    (s.setXfer x).net.tracker p slot = s.net.tracker p slot := rfl

/-- The tracker of a request that has left names its transfer and its place in it, in its slot's epoch. -/
theorem sendRequest_tracker (s : State) (x : Xfer) (q : Pending) (p : PortId) (m : Msg) (slot : Nat) :
    (s.sendRequest x q p m slot).net.tracker p slot = { s.net.tracker p slot with
      busy := true, tile := x.tile, idx := x.idx, kind := q.kind, offset := q.offset, len := q.len, row := q.row, col := q.col } :=
  setTracker_tracker ..

end

/-! ### The answer to the last message (R300, R301) -/

section
variable {s : State} {p : PortId} {m : Msg} {q : PortId} {slot : Nat} {x : Xfer} {i : Nat} {f : InFlight}

theorem response_answers {nack : Nat} {data : Option (List Byte)} (hm : s.forHere p m)
    (ha : (s.acceptFlits p (1 + m.cont)).net.answers m = some (q, slot)) :
    s.response p m nack data = ((s.acceptFlits p (1 + m.cont)).answerXfer q slot nack data).pumpAll := by
  rw [State.response, inbound_here hm]
  simp only [ha]

theorem response_unanswered {nack : Nat} {data : Option (List Byte)} (hm : s.forHere p m)
    (ha : (s.acceptFlits p (1 + m.cont)).net.answers m = none) :
    s.response p m nack data = (s.acceptFlits p (1 + m.cont)).violate p m.src.toNat 0 := by
  rw [State.response, inbound_here hm]
  simp only [ha]

/-- The state in which a tracker slot has been answered. -/
def State.slotFreed (s : State) (q : PortId) (slot : Nat) : State :=
  { s with net := s.net.setTracker q slot { s.net.tracker q slot with busy := false } }

theorem answerXfer_status (n : Nat) (hx : s.net.xfer (s.net.tracker q slot).tile (s.net.tracker q slot).idx = some x) :
    s.answerXfer q slot n none = (s.slotFreed q slot).xferStep (x.answered (s.net.tracker q slot).offset n) := by
  have hfreed : (s.slotFreed q slot).net.xfer (s.net.tracker q slot).tile (s.net.tracker q slot).idx = some x := hx
  unfold State.slotFreed at hfreed ⊢
  simp only [State.answerXfer, hfreed]

/-- The state in which a tracker slot has been answered with data for tile SRAM, stored at its place. -/
def State.answerLanded (s : State) (q : PortId) (slot : Nat) (x : Xfer) (bs : List Byte) : State :=
  (s.slotFreed q slot).setTile x.tile
    ((s.tile x.tile).store (x.landing (s.net.tracker q slot).row (s.net.tracker q slot).col) bs)

theorem answerLanded_tile (s : State) (q : PortId) (slot : Nat) (x : Xfer) (bs : List Byte) : (s.answerLanded q slot x bs).tile x.tile
    = (s.tile x.tile).store (x.landing (s.net.tracker q slot).row (s.net.tracker q slot).col) bs := State.setTile_tile_self ..

/-- Data for tile SRAM is stored at its place before the transfer goes on. -/
theorem answerXfer_sram (n : Nat) (bs : List Byte) (hx : s.net.xfer (s.net.tracker q slot).tile (s.net.tracker q slot).idx = some x)
    (hd : x.d.dstSide = .sram) : s.answerXfer q slot n (some bs)
      = (s.answerLanded q slot x bs).xferStep (x.answered (s.net.tracker q slot).offset 0) := by
  have hfreed : (s.slotFreed q slot).net.xfer (s.net.tracker q slot).tile (s.net.tracker q slot).idx = some x := hx
  unfold State.answerLanded State.slotFreed at *
  simp only [State.answerXfer, hfreed, State.land, hd, if_true]
  rfl

/-- The state in which a transfer is over and its descriptor stands as given. -/
def State.xferOver (s : State) (x : Xfer) (i : Nat) (g : InFlight) : State :=
  State.setDesc { s with net := s.net.dropXfer x.tile x.idx } x.tile i g

theorem xferEnd_done (hi : (s.tile x.tile).descs.findIdx? (fun g => g.idx = x.idx) = some i)
    (hf : (s.tile x.tile).descs[i]? = some f) (hst : x.status = stOk) : s.xferEnd x = s.xferOver x i { f with phase := .done } := by
  have htile : State.tile { s with net := s.net.dropXfer x.tile x.idx } x.tile = s.tile x.tile := rfl
  simp only [State.xferEnd, htile, hi, hf, hst, if_true, State.xferOver]

theorem xferEnd_failed (hi : (s.tile x.tile).descs.findIdx? (fun g => g.idx = x.idx) = some i)
    (hf : (s.tile x.tile).descs[i]? = some f) (hst : x.status ≠ stOk) (hk : x.d.kind = .put) :
    s.xferEnd x = s.xferOver x i (f.refuse x.status false) := by
  have htile : State.tile { s with net := s.net.dropXfer x.tile x.idx } x.tile = s.tile x.tile := rfl
  simp [State.xferEnd, htile, hi, hf, hst, hk, State.xferOver]

theorem setDesc_descs_self {t : TileId} (hf : (s.tile t).descs[i]? = some f) (g : InFlight) :
    ((s.setDesc t i g).tile t).descs[i]? = some g := by
  obtain ⟨hlt, -⟩ := List.getElem?_eq_some_iff.1 hf
  rw [State.setDesc, State.setTile_tile_self]
  exact List.getElem?_set_self hlt

/-- What a transfer that is over leaves: no transfer of its descriptor, which stands as given, and the rest of the fabric. -/
theorem xferOver_facts (hf : (s.tile x.tile).descs[i]? = some f) (g : InFlight) :
    (s.xferOver x i g).net = s.net.dropXfer x.tile x.idx ∧ ((s.xferOver x i g).tile x.tile).descs[i]? = some g
      ∧ ((s.xferOver x i g).tile x.tile).sram = (s.tile x.tile).sram :=
  ⟨rfl, setDesc_descs_self (s := { s with net := s.net.dropXfer x.tile x.idx }) hf g, setDesc_sram ..⟩

/-- Nothing goes on where no transfer has a message to send. -/
theorem pumpAll_idle (h : ∀ y ∈ s.net.xfers, y.todo = []) : s.pumpAll = s := by
  have hnone : (s.net.xfers.filter fun x => !x.todo.isEmpty) = [] :=
    List.filter_eq_nil_iff.2 fun y hy => by simp [h y hy]
  rw [State.pumpAll, hnone]
  rfl

theorem pumpAll_over (h : ∀ y ∈ s.net.xfers, y.todo = []) (x : Xfer) (i : Nat) (g : InFlight) :
    (s.xferOver x i g).pumpAll = s.xferOver x i g :=
  pumpAll_idle fun y hy => h y (List.mem_filter.1 hy).1

/-- The last outstanding message of a transfer that has met nothing is answered well: the transfer is over, its descriptor done. -/
theorem lastAnswer_done {a : State} (hl : s.lastAnswer m q slot x)
    (hi : (a.tile x.tile).descs.findIdx? (fun g => g.idx = x.idx) = some i) (hf : (a.tile x.tile).descs[i]? = some f) (o : Nat) :
    a.xferStep (x.answered o 0) = a.xferOver x i { f with phase := .done } := by
  obtain ⟨-, -, -, -, htodo, hout, hnack, htimed, hfailed, hring, -⟩ := hl
  have hclosed : (x.answered o 0).closed = false := by simp [Xfer.answered, Xfer.closed, hnack, htimed, hfailed]
  have hover := xferStep_ends (pumpOne_sent (s := a) hclosed htodo hring) htodo (by simp [Xfer.answered, hout]) hring
  have hstatus : (x.answered o 0).status = stOk := by simp [Xfer.answered, Xfer.status, hnack, htimed, hfailed]
  exact hover.trans (xferEnd_done hi hf hstatus)

/-- A remote NACK is no success. -/
theorem stRemoteNack_ne_ok (n : Nat) : stRemoteNack n ≠ stOk := fun h => by
  have htoNat := congrArg BitVec.toNat h
  simp only [stRemoteNack, stOk, statusWord, BitVec.toNat_ofNat] at htoNat
  omega

/-- The last outstanding message of a PUT is answered by a NACK: the transfer is over, its descriptor failed. -/
theorem lastAnswer_failed {a : State} {n : Nat} (hl : s.lastAnswer m q slot x) (hk : x.d.kind = .put) (hn : n ≠ 0)
    (hi : (a.tile x.tile).descs.findIdx? (fun g => g.idx = x.idx) = some i) (hf : (a.tile x.tile).descs[i]? = some f) (o : Nat) :
    a.xferStep (x.answered o n) = a.xferOver x i (f.refuse (stRemoteNack n) false) := by
  obtain ⟨-, -, -, -, htodo, hout, hnack, htimed, hfailed, hring, -⟩ := hl
  have hclosed : (x.answered o n).closed = true := by simp [Xfer.answered, Xfer.closed, hnack, hn]
  have hover := xferStep_ends (pumpOne_closed (s := a) hclosed) rfl (by simp [Xfer.answered, hout]) rfl
  have hstatus : ({ x.answered o n with todo := [], ringDue := false } : Xfer).status = stRemoteNack n := by
    simp [Xfer.answered, Xfer.status, hnack, htimed, hfailed, hn]
  have hend := xferEnd_failed (x := { x.answered o n with todo := [], ringDue := false }) hi hf
    (by rw [hstatus]; exact stRemoteNack_ne_ok n) hk
  rw [hstatus] at hend
  exact hover.trans hend

/-- A response whose answer leaves its transfer over, in a state where no other transfer waits. -/
theorem over_gives {c : Instr} {a b : State} {g : InFlight} (hc : exec c s = .next b.pumpAll) (hb : b = a.xferOver x i g)
    (hidle : ∀ y ∈ a.net.xfers, y.todo = []) (hfree : (a.net.tracker q slot).busy = false)
    (hf : (a.tile x.tile).descs[i]? = some f) :
    Gives c s fun u => (u.net.tracker q slot).busy = false ∧ u.net.xfer x.tile x.idx = none
      ∧ (u.tile x.tile).descs[i]? = some g ∧ (u.tile x.tile).sram = (a.tile x.tile).sram := by
  obtain ⟨hnet, hdesc, hsram⟩ := xferOver_facts hf g
  rw [hb, pumpAll_over hidle] at hc
  exact gives_next hc ⟨by rw [hnet]; exact hfree, by rw [hnet, dropXfer_xfer], hdesc, hsram⟩

theorem slotFreed_busy (s : State) (q : PortId) (slot : Nat) : ((s.slotFreed q slot).net.tracker q slot).busy = false :=
  congrArg Tracker.busy (setTracker_tracker ..)

theorem putAck_gives (hm : s.forHere p { m with ttype := 3#4 })
    (hl : (s.acceptFlits p (1 + m.cont)).lastAnswer { m with ttype := 3#4 } q slot x)
    (hi : (s.tile x.tile).descs.findIdx? (fun g => g.idx = x.idx) = some i) (hf : (s.tile x.tile).descs[i]? = some f) :
    Gives (.putAck p m) s fun u => (u.net.tracker q slot).busy = false ∧ u.net.xfer x.tile x.idx = none
      ∧ (u.tile x.tile).descs[i]? = some { f with phase := .done } := by
  have ⟨hanswers, hxfer, _, _, _, _, _, _, _, _, hidle⟩ := hl
  have hexec : exec (.putAck p m) s = .next (((s.acceptFlits p (1 + m.cont)).answerXfer q slot 0 none).pumpAll) :=
    congrArg Host.Outcome.next (response_answers hm hanswers)
  obtain ⟨u, hu, hbusy, hnone, hdesc, -⟩ := over_gives hexec
    ((answerXfer_status 0 hxfer).trans (lastAnswer_done (a := (s.acceptFlits p (1 + m.cont)).slotFreed q slot) hl hi hf _))
    hidle (slotFreed_busy ..) hf
  exact ⟨u, hu, hbusy, hnone, hdesc⟩

theorem nack_gives (hm : s.forHere p { m with ttype := 5#4 })
    (hl : (s.acceptFlits p (1 + m.cont)).lastAnswer { m with ttype := 5#4 } q slot x) (hk : x.d.kind = .put) (hn : m.ncode.toNat ≠ 0)
    (hi : (s.tile x.tile).descs.findIdx? (fun g => g.idx = x.idx) = some i) (hf : (s.tile x.tile).descs[i]? = some f) :
    Gives (.nack p m) s fun u => (u.net.tracker q slot).busy = false ∧ u.net.xfer x.tile x.idx = none
      ∧ (u.tile x.tile).descs[i]? = some (f.refuse (stRemoteNack m.ncode.toNat) false) := by
  have ⟨hanswers, hxfer, _, _, _, _, _, _, _, _, hidle⟩ := hl
  have hexec : exec (.nack p m) s = .next (((s.acceptFlits p (1 + m.cont)).answerXfer q slot m.ncode.toNat none).pumpAll) :=
    congrArg Host.Outcome.next (response_answers hm hanswers)
  obtain ⟨u, hu, hbusy, hnone, hdesc, -⟩ := over_gives hexec
    ((answerXfer_status _ hxfer).trans (lastAnswer_failed (a := (s.acceptFlits p (1 + m.cont)).slotFreed q slot) hl hk hn hi hf _))
    hidle (slotFreed_busy ..) hf
  exact ⟨u, hu, hbusy, hnone, hdesc⟩

theorem getData_gives (hm : s.forHere p { m with ttype := 4#4 })
    (hl : (s.acceptFlits p (1 + m.cont)).lastAnswer { m with ttype := 4#4 } q slot x) (hd : x.d.dstSide = .sram)
    (hi : (s.tile x.tile).descs.findIdx? (fun g => g.idx = x.idx) = some i) (hf : (s.tile x.tile).descs[i]? = some f) :
    Gives (.getData p m) s fun u => (u.net.tracker q slot).busy = false ∧ u.net.xfer x.tile x.idx = none
      ∧ (u.tile x.tile).descs[i]? = some { f with phase := .done }
      ∧ (u.tile x.tile).sram = ((s.tile x.tile).store
          (x.landing (s.net.tracker q slot).row (s.net.tracker q slot).col) (m.payload.take m.len)).sram := by
  have ⟨hanswers, hxfer, _, _, _, _, _, _, _, _, hidle⟩ := hl
  have hexec : exec (.getData p m) s
      = .next (((s.acceptFlits p (1 + m.cont)).answerXfer q slot 0 (some (m.payload.take m.len))).pumpAll) :=
    congrArg Host.Outcome.next (response_answers hm hanswers)
  have htile := answerLanded_tile (s.acceptFlits p (1 + m.cont)) q slot x (m.payload.take m.len)
  have hf1 : (((s.acceptFlits p (1 + m.cont)).answerLanded q slot x (m.payload.take m.len)).tile x.tile).descs[i]? = some f := by
    rw [htile]
    exact hf
  obtain ⟨u, hu, hbusy, hnone, hdesc, hsram⟩ := over_gives hexec ((answerXfer_sram 0 (m.payload.take m.len) hxfer hd).trans
    (lastAnswer_done hl (by rw [htile]; exact hi) hf1 _)) hidle (slotFreed_busy ..) hf1
  exact ⟨u, hu, hbusy, hnone, hdesc, hsram.trans (congrArg Tile.sram htile)⟩

/-- The three responses, each with its TTYPE, go by `response`. -/
theorem exec_response {k : BitVec 4} {c : Instr}
    (h : (k, c) ∈ ([(3#4, .putAck p m), (4#4, .getData p m), (5#4, .nack p m)] : List (BitVec 4 × Instr))) :
    ∃ nack data, exec c s = .next (s.response p { m with ttype := k } nack data) := by
  simp only [List.mem_cons, Prod.mk.injEq, List.not_mem_nil, or_false] at h
  obtain ⟨rfl, rfl⟩ | ⟨rfl, rfl⟩ | ⟨rfl, rfl⟩ := h
  · exact ⟨_, _, rfl⟩
  · exact ⟨_, _, rfl⟩
  · exact ⟨_, _, rfl⟩

end

/-! ### Timeouts, epochs and quarantine (R301, R310, R311, R315) -/

section
variable {s : State} {p : PortId}

/-- A tracker slot whose time has run out, cooling. -/
def Tracker.cooled (t : Tracker) : Tracker := { t with busy := false, cooling := true }

/-- A tracker slot that may be used again, in its next epoch. -/
def Tracker.renewed (t : Tracker) : Tracker := { t with cooling := false, epoch := t.epoch + 1#2 }

/-- A timed-out slot cools whatever its transfer does, since that takes no tracker any more. -/
theorem exec_messageTimeout_busy {slot : Fin 2048} (hb : (s.net.tracker p slot.val).busy = true) :
    ∃ u, exec (.messageTimeout p slot) s = .next u
      ∧ u.net.trackers = (s.net.setTracker p slot.val (s.net.tracker p slot.val).cooled).trackers := by
  rw [exec_messageTimeout, execMessageTimeout]
  simp only [hb, Bool.not_true, Bool.false_eq_true, if_false]
  refine ⟨_, rfl, ?_⟩
  split
  · rfl
  · exact xferStep_closed_trackers rfl

theorem messageTimeout_gives {slot : Fin 2048} (hb : (s.net.tracker p slot.val).busy = true) :
    Gives (.messageTimeout p slot) s fun u =>
      (u.net.tracker p slot.val).busy = false ∧ (u.net.tracker p slot.val).cooling = true := by
  obtain ⟨u, hu, htrackers⟩ := exec_messageTimeout_busy hb
  have htracker : u.net.tracker p slot.val = (s.net.tracker p slot.val).cooled := by
    rw [NetS.tracker, htrackers]
    exact setTracker_tracker ..
  exact gives_next hu (by rw [htracker]; exact ⟨rfl, rfl⟩)

theorem slotEpochAdvance_gives {slot : Fin 2048} (hc : (s.net.tracker p slot.val).cooling = true) :
    Gives (.slotEpochAdvance p slot) s fun u => (u.net.tracker p slot.val).cooling = false
      ∧ (u.net.tracker p slot.val).epoch = (s.net.tracker p slot.val).epoch + 1#2 := by
  have hrenewed := setTracker_tracker s.net p slot.val (s.net.tracker p slot.val).renewed
  have hsame := sameFabric_pumpAll { s with net := s.net.setTracker p slot.val (s.net.tracker p slot.val).renewed }
  exact gives_next (congrArg Host.Outcome.next (if_neg (by simp [hc])))
    ⟨(hsame.cooling _).trans (congrArg Tracker.cooling hrenewed), (hsame.epoch _).trans (congrArg Tracker.epoch hrenewed)⟩

theorem violationHalving_gives (s : State) : Gives .violationHalving s fun u => ∀ q, u.port q = { s.port q with
    table := (s.port q).table.map fun v => { v with count := v.count / 2 } } :=
  gives_next rfl fun q => Map.get_mapValues Port.reset
    (fun x => { x with table := x.table.map fun v => { v with count := v.count / 2 } }) rfl s.net.ports q.val

/-- QCLEAR of one entry frees it. -/
theorem qclear_one (s : State) (p : PortId) (j : Fin 16) :
    Gives (.qclear p (BitVec.ofNat 32 j.val)) s fun u => (u.port p).qent = (s.port p).qent.set none j.val none := by
  have hv : (BitVec.ofNat 32 j.val).toNat = j.val := by simp; omega
  have hall : ¬ (bitsOf j.val 4 1 = 1) := by unfold bitsOf; omega
  have hj : j.val % 16 = j.val := Nat.mod_eq_of_lt j.isLt
  refine gives_next (congrArg Host.Outcome.next (if_neg (by omega))) ?_
  simp only [State.setPort_port_self, hv, hall, hj, decide_false, Bool.false_eq_true, if_false]

/-- QCLEAR of all entries frees them, and no source stays quarantined. -/
theorem qclear_all (s : State) (p : PortId) (j : Fin 16) : Gives (.qclear p (BitVec.ofNat 32 (16 + j.val))) s fun u =>
    (u.port p).qent = [] ∧ ∀ e ∈ (u.port p).table, e.quarantined = false := by
  have hv : (BitVec.ofNat 32 (16 + j.val)).toNat = 16 + j.val := by simp; omega
  have hall : bitsOf (16 + j.val) 4 1 = 1 := by unfold bitsOf; omega
  refine gives_next (congrArg Host.Outcome.next (if_neg (by omega))) ?_
  simp [hv, hall]

theorem qclear_discards (s : State) (p : PortId) {v : W32} (hv : 32 ≤ v.toNat) : Gives (.qclear p v) s fun u => u = s.discard :=
  gives_next (congrArg Host.Outcome.next (if_pos hv)) rfl

end

/-! ### A descriptor of one message (R296) -/

section
variable {t : TileId} {i : Nat} {s v : State} {f : InFlight} {d : MoveDesc} {k : MoveKind}

theorem remote_empty (hk : k = .put ∨ k = .get) (hm : (s.tile t).mayStart i k = some (f, d)) (hc : s.cxl.state ≠ 2)
    (he : d.empty = true) (hr : d.ringEn = false) :
    Gives (if k = .put then .put t i else .get t i) s fun u => u = s.setDesc t i { f with phase := .done } :=
  gives_next (exec_remoteCommand hk s) ((runRemote_starts hm hc).trans (remoteStart_empty he hr))

theorem remote_oneMessage {rows : List (List Byte)} {q : Pending} {p : PortId} {m : Msg} {slot : Nat}
    (hm : (s.tile t).mayStart i k = some (f, d)) (hc : s.cxl.state ≠ 2) (he : d.empty = false) (hr : d.ringEn = false)
    (hread : k = .put ∧ s.readRows t f d = (v, 0#32, rows) ∨ k = .get ∧ v = s ∧ rows = []) (hq : d.messages rows = [q])
    (hd : d.remoteCoord.toNat ≠ v.net.here) (hroute : v.routeMsg ((f.xfer t d [q]).message v.net q) none = some (p, m))
    (hs : v.net.freeSlot p = some slot) :
    Gives (if k = .put then .put t i else .get t i) s fun u => u.net.xfer t f.idx = some { f.xfer t d [] with out := 1 }
      ∧ (u.net.tracker p slot).busy = true ∧ (u.net.tracker p slot).tile = t ∧ (u.net.tracker p slot).idx = f.idx
      ∧ (u.net.tracker p slot).offset = q.offset ∧ (u.net.tracker p slot).epoch = (v.net.tracker p slot).epoch := by
  have hkind : d.kind = k := mayStart_kind hm
  have hk : k = .put ∨ k = .get := hread.imp And.left And.left
  have hstart : s.runRemote t i k = ((v.setDesc t i { f with phase := .transferring }).sendRequest (f.xfer t d [q]) q p m slot).setXfer
      { f.xfer t d [] with out := 1 } := by
    rw [runRemote_starts hm hc, remoteStart_sends (hkind ▸ hread) he hr, hq]
    exact xferStep_one rfl rfl rfl rfl hd hroute hs
  refine gives_next ((exec_remoteCommand hk s).trans (congrArg _ hstart)) ⟨setXfer_xfer _ { f.xfer t d [] with out := 1 }, ?_⟩
  rw [setXfer_tracker, sendRequest_tracker]
  exact ⟨rfl, rfl, rfl, rfl, rfl⟩

end

/-- Settles O42: descriptors without elements and of one message, the answers to a last message, responses that answer nothing,
timeouts and epochs, and the clearing of counts and quarantine. -/
theorem carillonTransfers : Obligations.CarillonTransfers := by
  refine ⟨fun t i s f d k hk hm hc he hr => remote_empty hk hm hc he hr, ?message, ?answers, ?unanswered,
    fun p slot s hb => messageTimeout_gives hb, fun p slot s hc => slotEpochAdvance_gives hc, violationHalving_gives,
    fun p s j => ⟨qclear_one s p j, qclear_all s p j, fun v hv => qclear_discards s p hv⟩⟩
  case message =>
    rintro t i s v f d k rows q p m slot _ hm hc he hr hread hq hd rfl hroute hs
    exact remote_oneMessage hm hc he hr hread hq hd hroute hs
  case answers =>
    rintro p m s q slot x i f _ rfl hi hf
    exact ⟨fun hm hl => putAck_gives hm hl hi hf, fun hm hl hk hn => nack_gives hm hl hk hn hi hf,
      fun hm hl hd => getData_gives hm hl hd hi hf⟩
  case unanswered =>
    rintro p m s _ k c rfl hc hm ha
    obtain ⟨nack, data, hexec⟩ := exec_response hc
    exact gives_next (hexec.trans (congrArg _ (response_unanswered hm ha))) rfl

end Sys2Proof.Machine

/-! ## Peal descriptors taken from their ring

What the operations of a Peal slot leave of its run and of the ports, how a descriptor starts, and the statement O43 settled from
it. -/

namespace Sys2Proof.Machine

/-! ### A slot's run, and what sending leaves of it (R304 to R306) -/

section
variable {s : State} {k : PealSlot} {r : PealRun}

@[simp] theorem setRun_run (s : State) (k : PealSlot) (r : PealRun) : ((s.setRun k r).peal k).run = some r :=
  congrArg PealS.run (State.setPeal_peal_self ..)

@[simp] theorem setRun_ring (s : State) (k : PealSlot) (r : PealRun) : ((s.setRun k r).peal k).ring = (s.peal k).ring := by
  rw [State.setRun, State.setPeal_peal_self]

@[simp] theorem setRun_port (s : State) (k : PealSlot) (r : PealRun) (q : PortId) : (s.setRun k r).port q = s.port q := rfl

theorem peal_of_net {u : State} (h : u.net = s.net) (k : PealSlot) : u.peal k = s.peal k := congrArg (fun n : NetS => n.peal k) h

@[simp] theorem raisePort_peal (s : State) (c t : Nat) (p : PortId) (b : List Byte) (k : PealSlot) :
    (s.raisePort c t p b).peal k = s.peal k := peal_of_net (raisePort_net ..) k

@[simp] theorem setPort_peal (s : State) (p : PortId) (x : Port) (k : PealSlot) : (s.setPort p x).peal k = s.peal k := rfl

@[simp] theorem enqueue_peal (s : State) (p : PortId) (i : TxItem) (k : PealSlot) : (s.enqueue p i).peal k = s.peal k := rfl

@[simp] theorem pealSend_peal (s : State) (j k : PealSlot) (d : PealDesc) (c off fmt : Nat) (pos : Bool) (bs : List Byte) :
    (s.pealSend j d c off fmt pos bs).peal k = s.peal k := foldl_keep (fun s : State => s.peal k) _ (fun _ _ => enqueue_peal ..) _ _

@[simp] theorem pealSend_mem (s : State) (k : PealSlot) (d : PealDesc) (c off fmt : Nat) (pos : Bool) (bs : List Byte) :
    (s.pealSend k d c off fmt pos bs).mem = s.mem := by simp

theorem same_pealSend (s : State) (k : PealSlot) (d : PealDesc) (c off fmt : Nat) (pos : Bool) (bs : List Byte) :
    SamePorts s (s.pealSend k d c off fmt pos bs) := .foldl _ (fun s _ => same_enqueue s _ _) _ _

/-- A descriptor under way that fails is ended with its status (R306). -/
theorem pealFail_run (hrun : (s.peal k).run = some r) (hphase : r.phase ≠ .ended) (st : W32) :
    ((s.pealFail k st).peal k).run = some { r with phase := .ended, status := st, held := [] } := by
  have hnet := pealFail_net hrun hphase st
  have hpeal : (s.pealFail k st).peal k
      = (s.setPeal k { s.peal k with run := some { r with phase := .ended, status := st, held := [] } }).peal k := by
    rw [State.peal, hnet]
    rfl
  rw [hpeal, State.setPeal_peal_self]

theorem pealFail_ends (hrun : (s.peal k).run = some r) (hphase : r.phase ≠ .ended) (st : W32) :
    ∃ r', ((s.pealFail k st).peal k).run = some r' ∧ r'.phase = .ended ∧ r'.status = st :=
  ⟨_, pealFail_run hrun hphase st, rfl, rfl⟩

/-- Without step data that waits on a port there is none to take. -/
theorem pealDrain_empty {p : PortId} (h : (s.port p).waiting = []) : s.pealDrain k p = s.setPort p { s.port p with waiting := [] } := by
  simp only [State.pealDrain, h]
  rfl

/-- A port written back as it was. -/
theorem setPort_same {p : PortId} {x : Port} (h : x = s.port p) (q : PortId) : (s.setPort p x).port q = s.port q := by
  by_cases hq : q = p
  · rw [hq, State.setPort_port_self, h]
  · rw [State.setPort_port_ne _ _ _ _ hq]

theorem pealDrain_port {p : PortId} (h : (s.port p).waiting = []) (q : PortId) : (s.pealDrain k p).port q = s.port q := by
  rw [pealDrain_empty h]
  exact setPort_same (by rw [← h]) q

end

/-! ### What is sent depends on the ports, the coordinates and sealed mode alone -/

/-- Two states whose ports send alike. -/
structure SendsAlike (s u : State) : Prop where
  ports : ∀ q, u.port q = s.port q
  coord : u.net.coord = s.net.coord
  shape : u.net.shape = s.net.shape
  frozen : u.net.frozen = s.net.frozen
  cust : u.cust = s.cust

section
variable {s u : State}

theorem SendsAlike.of_net (hn : u.net = s.net) (hc : u.cust = s.cust) : SendsAlike s u :=
  ⟨port_of_net hn, by rw [hn], by rw [hn], by rw [hn], hc⟩

theorem SendsAlike.setRun (h : SendsAlike s u) (k : PealSlot) (r : PealRun) : SendsAlike s (u.setRun k r) :=
  ⟨h.ports, h.coord, h.shape, h.frozen, h.cust⟩

theorem SendsAlike.carries (h : SendsAlike s u) (p : PortId) : u.carries p = s.carries p := by
  simp only [State.carries, h.ports, h.frozen, h.cust]

theorem SendsAlike.pealMsg (h : SendsAlike s u) (k : PealSlot) (d : PealDesc) (c off fmt : Nat) (pos : Bool) (bs : List Byte) :
    u.net.pealMsg k d c off fmt pos bs = s.net.pealMsg k d c off fmt pos bs := by
  simp only [NetS.pealMsg, NetS.neighbourOf, NetS.ringLen, NetS.ringPos, NetS.len, NetS.here, h.coord, h.shape]

theorem SendsAlike.setPort (h : SendsAlike s u) (p : PortId) (x : Port) : SendsAlike (s.setPort p x) (u.setPort p x) := by
  refine ⟨fun q => ?_, h.coord, h.shape, h.frozen, h.cust⟩
  by_cases hq : q = p
  · rw [hq, State.setPort_port_self, State.setPort_port_self]
  · rw [State.setPort_port_ne _ _ _ _ hq, State.setPort_port_ne _ _ _ _ hq, h.ports]

theorem SendsAlike.flushPort (h : SendsAlike s u) (p : PortId) : SendsAlike (s.flushPort p) (u.flushPort p) := by
  simp only [State.flushPort, h.carries, h.ports]
  exact h.setPort ..

theorem SendsAlike.enqueue (h : SendsAlike s u) (p : PortId) (i : TxItem) : SendsAlike (s.enqueue p i) (u.enqueue p i) := by
  simp only [State.enqueue, h.ports]
  exact (h.setPort ..).flushPort p

theorem SendsAlike.pealSend (h : SendsAlike s u) (k : PealSlot) (d : PealDesc) (c off fmt : Nat) (pos : Bool) (bs : List Byte) :
    SendsAlike (s.pealSend k d c off fmt pos bs) (u.pealSend k d c off fmt pos bs) := by
  unfold State.pealSend
  dsimp only
  generalize pealPieces 0 (bs.length / pealBytes fmt) (3776 / pealBytes fmt) bs.length = pieces
  induction pieces generalizing s u with
  | nil => exact h
  | cons a pieces ih =>
    rw [List.foldl_cons, List.foldl_cons, h.pealMsg]
    exact ih (h.enqueue ..)

end

/-! ### Taking a descriptor (R303, R307) -/

section
variable {s v : State} {k : PealSlot} {op : Nat} {d : PealDesc}

theorem exec_pealCommand (hop : op < 3) (s : State) : exec (pealCommand k op) s = .next (s.pealNext k op) := by
  obtain rfl | rfl | rfl : op = 0 ∨ op = 1 ∨ op = 2 := by omega
  · rfl
  · rfl
  · rfl

/-- A descriptor that fails a check ends at once with its status (R307). -/
theorem pealNext_refused {t : State} {bs : List Byte} {st : W32} (hrun : (s.peal k).run = none) (hready : (s.peal k).ring.ready = true)
    (hread : s.readMem ((s.peal k).ring.entry 64) 64 (pealAxis k) = ⟨t, 0#32, bs⟩) (hcheck : pealCheck bs = some st) :
    s.pealNext k op = (if st = stHeader then t.flamMismatch else t).setRun k
      { PealRun.taken ((s.peal k).ring.entry 64) (PealDesc.ofBytes bs) with phase := .ended, status := st } := by
  simp only [State.pealNext, hrun, hready, hread, hcheck, stOk_eq, Bool.not_true, Bool.false_eq_true, if_false, ne_eq,
    not_true_eq_false, PealRun.taken]

theorem refused_ends {t : State} {bs : List Byte} {st : W32} (hop : op < 3) (hrun : (s.peal k).run = none)
    (hready : (s.peal k).ring.ready = true) (hread : s.readMem ((s.peal k).ring.entry 64) 64 (pealAxis k) = ⟨t, 0#32, bs⟩)
    (hcheck : pealCheck bs = some st) : Gives (pealCommand k op) s fun u => u.mem = t.mem ∧ (u.peal k).ring = (s.peal k).ring
      ∧ ∃ r, (u.peal k).run = some r ∧ r.phase = .ended ∧ r.status = st := by
  have hnet : t.net = s.net := by
    have hframe : (s.readMem ((s.peal k).ring.entry 64) 64 (pealAxis k)).st.net = s.net := by simp
    rwa [hread] at hframe
  obtain ⟨hmem, hkept⟩ : (if st = stHeader then t.flamMismatch else t).mem = t.mem
      ∧ (if st = stHeader then t.flamMismatch else t).net = t.net := by
    split
    · exact ⟨rfl, rfl⟩
    · exact ⟨rfl, rfl⟩
  refine gives_next ((exec_pealCommand hop s).trans (congrArg _ (pealNext_refused hrun hready hread hcheck)))
    ⟨hmem, ?_, _, setRun_run .., rfl, rfl⟩
  rw [setRun_ring, peal_of_net (hkept.trans hnet)]

/-- The run of a descriptor that a slot has just taken. -/
def State.takenRun (s : State) (k : PealSlot) (d : PealDesc) : PealRun := PealRun.taken ((s.peal k).ring.entry 64) d

theorem taken_run (h : s.pealTakes v k op d) : (v.peal k).run = some (s.takenRun k d) := by
  obtain ⟨-, -, -, ⟨t, bs, -, -, -, rfl⟩, -⟩ := h
  exact setRun_run ..

theorem exec_taken (h : s.pealTakes v k op d) : exec (pealCommand k op) s = .next (v.pealGo k (s.takenRun k d)) := by
  obtain ⟨hop, hrun, hready, ⟨t, bs, hread, hcheck, hbytes, hv⟩, hdop, -⟩ := h
  refine (exec_pealCommand hop s).trans (congrArg _ ?_)
  rw [hv, State.takenRun]
  simp only [State.pealNext, hrun, hready, hread, hcheck, hbytes, hdop, stOk_eq, Bool.not_true, Bool.false_eq_true, if_false, ne_eq,
    not_true_eq_false, if_true, PealRun.taken]

/-- A descriptor whose context and bounds are good goes on: one of COUNT 0 ends, any other begins (R306, R307). -/
theorem pealGo_taken (h : s.pealTakes v k op d) : v.pealGo k (s.takenRun k d)
    = if d.count = 0 then v.setRun k { s.takenRun k d with phase := .ended } else v.pealBegin k (s.takenRun k d) := by
  obtain ⟨-, -, -, -, -, hfault, hstart, hclap, e, hctx, hsrc, hout⟩ := h
  have hd : (s.takenRun k d).d = d := rfl
  simp only [State.pealGo, hd, hfault, hctx, hsrc, hout, hstart, hclap, stOk_eq, Bool.not_true, Bool.not_false, Bool.and_false,
    Bool.false_and, Bool.or_self, Bool.false_eq_true, if_false]
  rfl

theorem countZero_gives (h : s.pealTakes v k op d) (h0 : d.count = 0) : Gives (pealCommand k op) s fun u =>
    u = v.setRun k { PealRun.taken ((s.peal k).ring.entry 64) d with phase := .ended } :=
  gives_next (exec_taken h) ((pealGo_taken h).trans (if_pos h0))

theorem exec_taken_begins (h : s.pealTakes v k op d) (h0 : d.count ≠ 0) :
    exec (pealCommand k op) s = .next (v.pealBegin k (s.takenRun k d)) :=
  (exec_taken h).trans (congrArg _ ((pealGo_taken h).trans (if_neg h0)))

theorem ringDown_gives (h : s.pealTakes v k op d) (h0 : d.count ≠ 0) (hring : 1 < v.net.ringLen k)
    (hdown : v.carries (pealPort k true) = false ∨ v.carries (pealPort k false) = false) :
    Gives (pealCommand k op) s fun u => ∃ r, (u.peal k).run = some r ∧ r.phase = .ended ∧ r.status = 0x05030001#32 := by
  have hfails : v.pealBegin k (s.takenRun k d) = v.pealFail k (stPeal 1) :=
    if_pos (by rcases hdown with hc | hc <;> simp [hring, hc])
  exact gives_next ((exec_taken_begins h h0).trans (congrArg _ hfails)) (pealFail_ends (taken_run h) nofun (stPeal 1))

end

/-! ### Step 1 of a descriptor (R304, R306) -/

section
variable {s v : State} {k : PealSlot} {op : Nat} {d : PealDesc} {r : PealRun} {pos : Bool}

/-- One direction's own part is the whole of step 1 where the operation uses that direction alone. -/
theorem pealFirsts_one {o : State} {w : Bool} {ys : List (Nat × Nat × List Byte)} (hd : r.d.dirs = [pos])
    (h : s.pealFirst k r pos = (o, w, .ok (r, ys))) : s.pealFirsts k r = (o, .ok (r, ys.map fun y => (pos, y))) := by
  simp only [State.pealFirsts, hd, List.foldl_cons, List.foldl_nil, h, List.nil_append]

/-- What a descriptor sends in step 1: pieces by direction, chunk and format. -/
def State.pealSends (s : State) (k : PealSlot) (d : PealDesc) (ys : List (Bool × Nat × Nat × List Byte)) : State :=
  ys.foldl (fun s y => s.pealSend k d y.2.1 0 y.2.2.1 y.1 y.2.2.2) s

theorem pealSends_peal (s : State) (j k : PealSlot) (d : PealDesc) (ys : List (Bool × Nat × Nat × List Byte)) :
    (s.pealSends j d ys).peal k = s.peal k := foldl_keep (fun s : State => s.peal k) _ (fun _ _ => pealSend_peal ..) _ _

theorem pealSends_mem (s : State) (k : PealSlot) (d : PealDesc) (ys : List (Bool × Nat × Nat × List Byte)) :
    (s.pealSends k d ys).mem = s.mem := foldl_mem _ (fun _ _ => pealSend_mem ..) _ _

theorem same_pealSends (s : State) (k : PealSlot) (d : PealDesc) (ys : List (Bool × Nat × Nat × List Byte)) :
    SamePorts s (s.pealSends k d ys) := .foldl _ (fun _ _ => same_pealSend ..) _ _

/-- Where no step data waits on either port of a slot there is none to take. -/
theorem pealDrains_empty (hwait : ∀ q, (s.port q).waiting = []) (p p' : PortId) :
    ((s.pealDrain k p).pealDrain k p').mem = s.mem ∧ ((s.pealDrain k p).pealDrain k p').peal k = s.peal k
      ∧ ∀ q, ((s.pealDrain k p).pealDrain k p').port q = s.port q := by
  have hwait' : ((s.pealDrain k p).port p').waiting = [] := by rw [pealDrain_port (hwait p), hwait]
  refine ⟨?_, ?_, fun q => by rw [pealDrain_port hwait', pealDrain_port (hwait p)]⟩
  · rw [pealDrain_empty hwait', pealDrain_empty (hwait p)]
    rfl
  · rw [pealDrain_empty hwait', pealDrain_empty (hwait p), setPort_peal, setPort_peal]

/-- A descriptor whose ring carries and whose own part is read sends it, and runs; no step data waited for it. -/
theorem pealBegin_runs {o : State} {ys : List (Bool × Nat × Nat × List Byte)}
    (hring : v.net.ringLen k ≤ 1 ∨ v.carries (pealPort k true) = true ∧ v.carries (pealPort k false) = true)
    (hfirst : v.pealFirsts k r = (o, .ok (r, ys))) (hwait : ∀ q, (o.port q).waiting = []) :
    (v.pealBegin k r).mem = o.mem ∧ ((v.pealBegin k r).peal k).run = some { r with phase := .running }
      ∧ ∀ q, (v.pealBegin k r).port q = ((o.setRun k { r with phase := .running }).pealSends k r.d ys).port q := by
  have hgo : ¬ ((v.net.ringLen k > 1 && !(v.carries (pealPort k true) && v.carries (pealPort k false))) = true) := by
    rcases hring with h | ⟨h, g⟩
    · simp [Nat.not_lt.2 h]
    · simp [h, g]
  have hbegin : v.pealBegin k r = (((o.setRun k { r with phase := .running }).pealSends k r.d ys).pealDrain k
      (pealPort k false)).pealDrain k (pealPort k true) := by
    rw [State.pealBegin, if_neg hgo, hfirst]
    rfl
  have hnone (q : PortId) : (((o.setRun k { r with phase := .running }).pealSends k r.d ys).port q).waiting = [] := by
    rw [(same_pealSends ..).get Port.waiting (fun _ _ _ => rfl), setRun_port, hwait]
  obtain ⟨hmem, hpeal, hports⟩ := pealDrains_empty (k := k) hnone (pealPort k false) (pealPort k true)
  rw [hbegin]
  refine ⟨hmem.trans (pealSends_mem ..), ?_, hports⟩
  rw [hpeal, pealSends_peal, setRun_run]

/-- RS and AR send this module's elements of the first chunk. -/
theorem pealFirst_sum {t : State} {bs : List Byte} (hop : r.d.op ≠ 1) (hring : 1 < v.net.ringLen k)
    (hread : v.virtRead (pealAxis k) r.d.ctx (r.d.src + v.net.firstChunk k r.d pos * r.d.count * pealBytes r.d.inFmt)
      (r.d.count * pealBytes r.d.inFmt) = (t, .ok bs)) :
    v.pealFirst k r pos = (t, false, .ok (r, [(v.net.firstChunk k r.d pos, 0, pealOut 0 (pealWords r.d.inFmt bs))])) := by
  have hlen : ¬ (v.net.ringLen k < 2) := by omega
  simp only [State.pealFirst, hop, hlen, decide_false, Bool.or_self, Bool.false_eq_true, if_false, hread]

/-- AG writes this module's own chunk, and sends it. -/
theorem pealFirst_gather {t t1 : State} {bs : List Byte} (hop : r.d.op = 1) (hring : 1 < v.net.ringLen k)
    (hread : v.virtRead (pealAxis k) r.d.ctx
      (r.d.src + ownPlace (v.net.ringLen k) (v.net.ownChunk k r.d pos) * r.d.count * pealBytes r.d.inFmt)
      (r.d.count * pealBytes r.d.inFmt) = (t, .ok bs))
    (hwrite : t.virtWrite (pealAxis k) r.d.ctx (r.d.out + v.net.ownChunk k r.d pos * r.d.count * pealBytes r.d.inFmt) bs = (t1, none)) :
    v.pealFirst k r pos = (t1, true, .ok (r, [(v.net.ownChunk k r.d pos, r.d.outFmt, bs)])) := by
  have hlen : ¬ (v.net.ringLen k < 2) := by omega
  simp only [State.pealFirst, hop, hlen, decide_true, Bool.true_or, if_true, if_false, hread, hwrite]

/-- RS on a ring of one module writes its result. -/
theorem pealFirst_alone {t t1 : State} {bs : List Byte} (hop : r.d.op = 0) (hclap : r.d.toClapper = false) (hring : v.net.ringLen k < 2)
    (ht : t.net = v.net)
    (hread : v.virtRead (pealAxis k) r.d.ctx (r.d.src + v.net.ownChunk k r.d pos * r.d.count * pealBytes r.d.inFmt)
      (r.d.count * pealBytes r.d.inFmt) = (t, .ok bs))
    (hwrite : t.virtWrite (pealAxis k) r.d.ctx
      (r.d.out + ownPlace (v.net.ringLen k) (v.net.ownChunk k r.d pos) * r.d.count * pealBytes r.d.outFmt)
      (pealOut r.d.outFmt (pealWords r.d.inFmt bs)) = (t1, none)) :
    v.pealFirst k r pos = (t1, true, .ok (r, [])) := by
  have hown : t.pealOwned k r (v.net.ownChunk k r.d pos) 0 (pealWords r.d.inFmt bs) = (t1, .ok r) := by
    simp [State.pealOwned, hop, hclap, ht, hwrite]
  simp [State.pealFirst, hop, hring, hread, hown, Except.map]

/-- A descriptor of one direction that sends one piece: memory as its accesses left it, the piece on its port, and the run. -/
theorem oneSend_gives {o : State} {w : Bool} {c fmt : Nat} {bs : List Byte} (h : s.pealTakes v k op d) (h0 : d.count ≠ 0)
    (hdirs : d.dirs = [pos]) (hup : v.carries (pealPort k true) = true) (hdown : v.carries (pealPort k false) = true)
    (hwait : ∀ q, (v.port q).waiting = []) (hnet : o.net = v.net) (hcust : o.cust = v.cust)
    (hfirst : v.pealFirst k (s.takenRun k d) pos = (o, w, .ok (s.takenRun k d, [(c, fmt, bs)]))) :
    Gives (pealCommand k op) s fun u => u.mem = o.mem ∧ (∀ q, u.port q = (v.pealSend k d c 0 fmt pos bs).port q)
      ∧ ∃ r, (u.peal k).run = some r ∧ r.phase = .running ∧ r.d = d := by
  have hwait : ∀ q, (o.port q).waiting = [] := fun q => by rw [port_of_net hnet, hwait]
  obtain ⟨hmem, hrun, hports⟩ := pealBegin_runs (.inr ⟨hup, hdown⟩) (pealFirsts_one hdirs hfirst) hwait
  have halike := (SendsAlike.of_net hnet hcust).setRun k { s.takenRun k d with phase := .running }
  exact gives_next (exec_taken_begins h h0) ⟨hmem, fun q => (hports q).trans ((halike.pealSend k d c 0 fmt pos bs).ports q),
    _, hrun, rfl, rfl⟩

end

theorem virtRead_cust {s t : State} {die : Nat} {ctx : W32} {va n : Nat} {e : Except AccErr (List Byte)}
    (h : s.virtRead die ctx va n = (t, e)) : t.cust = s.cust := by
  have hframe : (s.virtRead die ctx va n).1.cust = s.cust := by simp
  rwa [h] at hframe

theorem virtWrite_cust {s t : State} {die : Nat} {ctx : W32} {va : Nat} {bs : List Byte} {e : Option AccErr}
    (h : s.virtWrite die ctx va bs = (t, e)) : t.cust = s.cust := by
  have hframe : (s.virtWrite die ctx va bs).1.cust = s.cust := by simp
  rwa [h] at hframe

/-- Settles O43: a check that fails, COUNT 0, a ring that does not carry, and step 1 of RS and AR, of AG, and of RS alone. -/
theorem pealStarts : Obligations.PealStarts := by
  intro k s v op d
  refine ⟨fun t bs st hop hrun hready hread hcheck => refused_ends hop hrun hready hread hcheck, countZero_gives, ringDown_gives,
    fun pos t bs h h0 hdirs hop hring hup hdown hwait ht hread => ?sums,
    fun pos t t1 bs h h0 hdirs hop hring hup hdown hwait ht ht1 hread hwrite => ?gathers,
    fun pos t t1 bs h h0 hdirs hop hring hwait ht ht1 hread hwrite => ?alone⟩
  case sums =>
    have ⟨_, _, _, _, hdop, _⟩ := h
    exact oneSend_gives h h0 hdirs hup hdown hwait ht (virtRead_cust hread)
      (pealFirst_sum (r := s.takenRun k d) (fun h1 => hop (hdop.symm.trans h1)) hring hread)
  case gathers =>
    have ⟨_, _, _, _, hdop, _⟩ := h
    exact oneSend_gives h h0 hdirs hup hdown hwait ht1 ((virtWrite_cust hwrite).trans (virtRead_cust hread))
      (pealFirst_gather (hdop.trans hop) hring hread hwrite)
  case alone =>
    have ⟨_, _, _, _, hdop, _, _, hclap, _⟩ := h
    have hfirst := pealFirst_alone (r := s.takenRun k d) (hdop.trans hop) hclap hring ht hread hwrite
    obtain ⟨hmem, hrun, -⟩ := pealBegin_runs (.inl (by omega)) (pealFirsts_one hdirs hfirst)
      fun q => by rw [port_of_net ht1, hwait]
    exact gives_next (exec_taken_begins h h0) ⟨hmem, _, hrun, rfl, rfl⟩

end Sys2Proof.Machine

/-! ## A running Peal descriptor

What step data, a timeout, the end, the binding to a job and the hand-over of a lot do to a descriptor under way, and the statement
O44 settled from it. -/

namespace Sys2Proof.Machine

/-! ### Step data (R304, R305, R310) -/

section
variable {s : State} {k : PealSlot} {r : PealRun} {p : PortId} {m : Msg}

/-- The slot that a message's port and TAG name (R305). -/
theorem slot_of_tag (he : bitsOf m.tag.toNat 0 11 = k.val % 4) (hp : pealAxis k = p.val / 2) :
    bitsOf m.tag.toNat 0 11 < 4 ∧ (Fin.ofNat 16 (4 * (p.val / 2) + bitsOf m.tag.toNat 0 11) : PealSlot) = k := by
  unfold pealAxis at hp
  refine ⟨by omega, Fin.ext ?_⟩
  simp only [Fin.ofNat]
  omega

/-- Step data for a slot without a descriptor waits on its port. -/
theorem pealArrive_waits (he : bitsOf m.tag.toNat 0 11 = k.val % 4) (hp : pealAxis k = p.val / 2) (hrun : (s.peal k).run = none) :
    s.pealArrive p m = s.setPort p { s.port p with waiting := (s.port p).waiting ++ [m] } := by
  obtain ⟨hlt, hslot⟩ := slot_of_tag he hp
  have hfour : ¬ (bitsOf m.tag.toNat 0 11 ≥ 4) := by omega
  simp only [State.pealArrive, hfour, if_false, hslot, hrun]

/-- A running descriptor takes the step data of a direction that is not over, unless some is held back. -/
theorem pealArrive_takes (he : bitsOf m.tag.toNat 0 11 = k.val % 4) (hp : pealAxis k = p.val / 2) (hrun : (s.peal k).run = some r)
    (hphase : r.phase = .running) (hheld : r.held = []) (hfault : s.pealFaulted k = false)
    (hdone : s.net.dirDone k r (decide (p.val % 2 = 1)) = false) :
    s.pealArrive p m = s.pealTake k (decide (p.val % 2 = 1)) m := by
  obtain ⟨hlt, hslot⟩ := slot_of_tag he hp
  have hfour : ¬ (bitsOf m.tag.toNat 0 11 ≥ 4) := by omega
  simp only [State.pealArrive, hfour, if_false, hslot, hrun, hphase, hheld, hfault, hdone, Bool.and_false, ne_eq, not_true_eq_false,
    decide_false, Bool.or_self, List.isEmpty_nil, Bool.not_true, Bool.false_eq_true]

/-- Partial sums of a chunk that another module owns: this module's elements are added and the sums sent on. -/
theorem pealTake_sums {t : State} {bs : List Byte} {pos : Bool} (hrun : (s.peal k).run = some r)
    (hsum : r.rsGot.get 0 (msgChunk m) ≠ s.net.rsNeed k r.d (msgChunk m))
    (hown : msgChunk m ≠ s.net.ownChunk k r.d (r.d.positive (s.net.ringLen k) (msgChunk m)))
    (hfits : s.net.pealFits k r pos false m = true)
    (hread : s.virtRead (pealAxis k) r.d.ctx (r.d.src + (msgChunk m * r.d.count + msgElement m) * pealBytes r.d.inFmt)
      ((pealWords 0 (m.payload.take m.len)).length * pealBytes r.d.inFmt) = (t, .ok bs)) :
    s.pealTake k pos m = (t.pealSend k r.d (msgChunk m) (msgElement m) 0 (r.d.positive (s.net.ringLen k) (msgChunk m))
        (pealOut 0 (List.zipWith fp32Add (pealWords 0 (m.payload.take m.len)) (pealWords r.d.inFmt bs)))).setRun k
      { r with rsGot := r.rsGot.modify 0 (msgChunk m) fun g => g + (pealWords 0 (m.payload.take m.len)).length } := by
  simp only [State.pealTake, hrun, hsum, decide_false, hfits, Bool.not_true, Bool.false_eq_true, if_false, State.pealSum, hread, hown]

/-- A violation is counted and recorded, and changes no slot. -/
theorem violate_peal (s : State) (p : PortId) (src n : Nat) (k : PealSlot) : (s.violate p src n).peal k = s.peal k := by
  unfold State.violate
  dsimp only
  split
  · rw [raisePort_peal, setPort_peal]
  · split
    · rw [raisePort_peal, raisePort_peal, setPort_peal]
    · rw [raisePort_peal, setPort_peal, raisePort_peal, setPort_peal]

/-- Step data out of its place fails the descriptor. -/
theorem pealTake_mismatch {pos : Bool} (hrun : (s.peal k).run = some r)
    (hfits : s.net.pealFits k r pos (decide (r.rsGot.get 0 (msgChunk m) = s.net.rsNeed k r.d (msgChunk m))) m = false) :
    s.pealTake k pos m = (s.pealFail k (stPeal 2)).violate (pealPort k !pos) m.src.toNat 0 := by
  simp only [State.pealTake, hrun, hfits, Bool.not_false, if_true]

/-- A message for this module arrives at its slot behind the flits that it takes. -/
theorem exec_peal_here (hm : s.forHere p { m with ttype := 6#4 }) :
    exec (.peal p m) s = .next ((s.acceptFlits p (1 + m.cont)).pealArrive p m) := congrArg Host.Outcome.next (inbound_here hm)

theorem peal_waits (hm : s.forHere p { m with ttype := 6#4 }) (he : bitsOf m.tag.toNat 0 11 = k.val % 4) (hp : pealAxis k = p.val / 2)
    (hrun : (s.peal k).run = none) : Gives (.peal p m) s fun u => (u.port p).waiting = (s.port p).waiting ++ [m] := by
  refine gives_next ((exec_peal_here hm).trans (congrArg _ (pealArrive_waits he hp hrun))) ?_
  rw [State.setPort_port_self, acceptFlits_port]

/-! ### A timeout and the end (R303, R306) -/

theorem pealTimeout_gives (hrun : (s.peal k).run = some r) (hphase : r.phase = .running) :
    Gives (.pealTimeout k) s fun u => ∃ r', (u.peal k).run = some r' ∧ r'.phase = .ended ∧ r'.status = 0x05030003#32 := by
  have hexec : exec (.pealTimeout k) s = .next (s.pealFail k (stPeal 3)) := by
    simp only [exec_pealTimeout, execPealTimeout, hrun, hphase, if_true]
  exact gives_next hexec (pealFail_ends hrun (by simp [hphase]) (stPeal 3))

/-- The status that a descriptor ends with. -/
def PealRun.outcome (r : PealRun) : W32 := if r.phase = .ended then r.status else 0#32

/-- A descriptor that is over writes its status where memory takes it, and its slot's ring goes on. -/
theorem pealComplete_gives (hrun : (s.peal k).run = some r) (hover : r.phase = .ended ∨ s.net.pealDone k r = true)
    (hbell : r.d.doneEn = false) (hrange : engineRange (r.addr + 0x38) 8 = some .near)
    (hserves : s.serves (r.addr + 0x38) (pealAxis k) = true) (hclean : s.mem.clean (r.addr + 0x38) 8) :
    Gives (.pealDescriptorComplete k) s fun u => (u.peal k).run = none ∧ (u.peal k).ring = (s.peal k).ring.advance
      ∧ u.mem.load (r.addr + 0x38) 8 = bytesOfNat 4 (if r.phase = .ended then r.status else 0#32).toNat ++ bytesOfNat 4 0 := by
  have hlen : (bytesOfNat 4 r.outcome.toNat ++ bytesOfNat 4 0).length = 8 := by
    rw [List.length_append, bytesOfNat_length, bytesOfNat_length]
  obtain ⟨w, hwrite, -, -, -, -, hload, -⟩ := writeMem_ok s true (r.addr + 0x38) (pealAxis k)
    (bytesOfNat 4 r.outcome.toNat ++ bytesOfNat 4 0) .near (by rw [hlen]; exact hrange) nofun hserves (by rw [hlen]; exact hclean)
  have hwrite : s.writeMem (r.addr + 0x38) (bytesOfNat 4 r.outcome.toNat ++ bytesOfNat 4 0) (pealAxis k) = ⟨w, stOk, []⟩ := hwrite
  have hexec : exec (.pealDescriptorComplete k) s
      = .next (State.route (w.setPeal k { w.peal k with run := none, ring := (s.peal k).ring.advance }) 4) := by
    have hgo : ¬ ((!(r.phase = .ended || s.net.pealDone k r)) = true) := by simpa [or_iff_not_imp_left] using hover
    rw [PealRun.outcome] at hwrite
    simp only [exec_pealDescriptorComplete, execPealDescriptorComplete, hrun, hgo, if_false, stOk_eq, hwrite, hbell, Bool.and_false,
      Bool.false_eq_true]
  have hpeal : (State.route (w.setPeal k { w.peal k with run := none, ring := (s.peal k).ring.advance }) 4).peal k
      = { w.peal k with run := none, ring := (s.peal k).ring.advance } := State.setPeal_peal_self w k _
  refine gives_next hexec ⟨by rw [hpeal], by rw [hpeal], ?_⟩
  rw [hlen] at hload
  exact hload

/-! ### The update path (R317 to R322) -/

@[simp] theorem CadS.setJob_job (c : CadS) (j : JobSlot) (v : Option Job) : (c.setJob j v).job j = v := Map.get_set_self ..

@[simp] theorem CadS.setUnit_unit (c : CadS) (u : Ctrl) (v : ClapUnit) : (c.setUnit u v).unit u = v := Map.get_set_self ..

/-- Lots that fail leave the binding of their job. -/
theorem failRest_bound (j : Job) (handed : Map Bool) (st : W32) : (j.failRest handed st).bound = j.bound := by
  unfold Job.failRest
  dsimp only
  split <;> rfl

/-- A job that a failed descriptor feeds stays bound to it. -/
theorem failBound_bound {c : CadS} {j : JobSlot} {x : Job} (hjob : r.job = some j) (hx : c.job j = some x) (st : W32) :
    ∃ y, (c.failBound r st).job j = some y ∧ y.bound = x.bound := by
  refine ⟨x.failRest r.handed st, ?_, failRest_bound ..⟩
  simp only [CadS.failBound, hjob, CadS.modifyJob, hx, CadS.setJob_job, Option.map_some]

/-- The state in which a descriptor and a job are bound to each other. -/
def State.pealBound (s : State) (k : PealSlot) (r : PealRun) (j : JobSlot) (x : Job) : State :=
  (s.setCad (s.net.cad.setJob j (some { x with bound := some k }))).setRun k { r with phase := .starting, job := some j }

theorem exec_pealBind_found {j : JobSlot} {x : Job} (hrun : (s.peal k).run = some r) (hphase : r.phase = .binding)
    (hjob : s.net.cad.bindable r.d = some (j, x)) : exec (.pealBind k) s
      = .next (if x.d.n ≠ r.d.owned then (s.pealBound k r j x).pealFail k stBounds
          else (s.pealBound k r j x).pealBegin k { r with phase := .starting, job := some j }) := by
  simp only [exec_pealBind, execPealBind, hrun, hphase, hjob, ne_eq, not_true_eq_false, if_false]
  rfl

theorem pealBind_gives {j : JobSlot} {x : Job} (hrun : (s.peal k).run = some r) (hphase : r.phase = .binding)
    (hjob : s.net.cad.bindable r.d = some (j, x)) :
    (x.d.n ≠ r.d.owned → Gives (.pealBind k) s fun u => (∃ y, u.net.cad.job j = some y ∧ y.bound = some k)
        ∧ ∃ r', (u.peal k).run = some r' ∧ r'.phase = .ended ∧ r'.status = 0x01030000#32)
      ∧ (x.d.n = r.d.owned → Gives (.pealBind k) s fun u => u = State.pealBegin (s.pealBound k r j x) k
          { r with phase := .starting, job := some j }) := by
  have hexec := exec_pealBind_found hrun hphase hjob
  refine ⟨fun hn => gives_next (hexec.trans (congrArg _ (if_pos hn))) ?_,
    fun hn => gives_next (hexec.trans (congrArg _ (if_neg (not_not_intro hn)))) rfl⟩
  have hbound : ((s.pealBound k r j x).peal k).run = some { r with phase := .starting, job := some j } := setRun_run ..
  obtain ⟨y, hy, hyb⟩ := failBound_bound (r := { r with phase := .starting, job := some j }) (c := (s.pealBound k r j x).net.cad) rfl
    (CadS.setJob_job s.net.cad j (some { x with bound := some k })) stBounds
  refine ⟨⟨y, ?_, hyb⟩, pealFail_ends hbound nofun stBounds⟩
  rw [pealFail_net hbound nofun]
  exact hy

theorem exec_lotHandover_found {lot : Nat} {t : State} {j : JobSlot} {x : Job} {g : List W32} {lf : Leaf} {c : Ctrl}
    (hrun : (s.peal k).run = some r) (hphase : r.phase = .running) (hjob : r.job = some j) (hx : s.net.cad.job j = some x)
    (hg : r.gradient x.d lot = some g) (hlot : lot < x.d.lots) (hnew : r.handed.get false lot = false) (hfault : s.pealFaulted k = false)
    (htr : s.translate (pealAxis k) r.d.ctx (BitVec.ofNat 64 (x.d.anchor lot)) false = (t, .inl lf))
    (hunit : t.lotUnit (lf.pbase + (x.d.anchor lot - lf.vbase)) = .ok c) : exec (.lotHandover k lot) s
      = .next (if (t.net.cad.unit c).held ≥ 24 then t
          else (t.setCad (t.net.cad.setUnit c { t.net.cad.unit c with
            buffers := (t.net.cad.unit c).buffers ++ [{ job := j, lot := lot, grad := some g }] })).setRun k
              { r with handed := r.handed.set false lot true }) := by
  have hin : ¬ (lot ≥ x.d.lots) := by omega
  simp only [exec_lotHandover, execLotHandover, hrun, hphase, hjob, hx, hg, hin, hnew, hfault, htr, hunit, ne_eq, not_true_eq_false,
    decide_false, Bool.or_self, Bool.false_eq_true, if_false]

end

/-- Settles O44: step data that fits, that does not and that waits, then the timeout, the end, the binding and the hand-over. -/
theorem pealRuns : Obligations.PealRuns := by
  refine ⟨?step, fun p m s _ k _ hm he hp hrun => peal_waits hm he hp hrun, fun k s r hrun hphase => pealTimeout_gives hrun hphase,
    fun k s r hrun hover hbell hrange hserves hclean => pealComplete_gives hrun hover hbell hrange hserves hclean,
    fun k s r j x hrun hphase hjob => pealBind_gives hrun hphase hjob, ?handover⟩
  case step =>
    rintro p m s _ k r rfl hm he hp hrun hphase hheld hfault hdone
    have hexec := (exec_peal_here hm).trans (congrArg _ (pealArrive_takes (s := s.acceptFlits p (1 + m.cont)) he hp hrun hphase hheld
      hfault hdone))
    refine ⟨?sums, fun _ hfits => ?mismatch⟩
    case sums =>
      rintro t bs _ _ rfl hsum hown hfits rfl hread _
      refine gives_next (hexec.trans (congrArg _ (pealTake_sums (s := s.acceptFlits p (1 + m.cont)) hrun hsum hown hfits hread)))
        ⟨setRun_run .., pealSend_mem .., fun q => setRun_port ..⟩
    case mismatch =>
      refine gives_next (hexec.trans (congrArg _ (pealTake_mismatch (s := s.acceptFlits p (1 + m.cont)) hrun hfits))) ?_
      rw [violate_peal]
      exact pealFail_ends (s := s.acceptFlits p (1 + m.cont)) hrun (by simp [hphase]) (stPeal 2)
  case handover =>
    rintro k lot s t r j x g lf c hrun hphase hjob hx hg hlot hnew hfault hnet htr hunit
    have hexec := exec_lotHandover_found hrun hphase hjob hx hg hlot hnew hfault htr hunit
    rw [hnet] at hexec
    refine ⟨fun hroom => gives_next (hexec.trans (congrArg _ (if_neg (by omega)))) ⟨?_, setRun_run ..⟩,
      fun hfull => gives_next (hexec.trans (congrArg _ (if_pos hfull))) rfl⟩
    exact congrArg ClapUnit.buffers (CadS.setUnit_unit ..)

end Sys2Proof.Machine

/-! ## The step counter and the Cadence engine

The rules of the step counter, what a delivery leaves of a unit, the outputs of a schedule table, and the statement O48 settled from
them. -/

namespace Sys2Proof.Machine

/-! ### Units and jobs under the updates of the Cadence state -/

section
variable (s : State) (c : CadS) (u : Ctrl) (x : ClapUnit) (k : JobSlot) (v : Option Job)

@[simp] theorem State.setCad_cad : (s.setCad c).net.cad = c := rfl

@[simp] theorem CadS.setUnit_job (q : JobSlot) : (c.setUnit u x).job q = c.job q := rfl

variable {c u k} in
theorem CadS.setUnit_unit_ne {n : Ctrl} (h : n ≠ u) : (c.setUnit u x).unit n = c.unit n :=
  Map.get_set_ne _ _ _ _ _ _ fun e => h (Fin.ext e)

variable {c u k} in
theorem CadS.setJob_job_ne {q : JobSlot} (h : q ≠ k) : (c.setJob k v).job q = c.job q :=
  Map.get_set_ne _ _ _ _ _ _ fun e => h (Fin.ext e)

@[simp] theorem CadS.modifyJob_job (f : Job → Job) : (c.modifyJob k f).job k = (c.job k).map f := CadS.setJob_job ..

end

/-! ### The step counter (R337, R338) -/

section
variable {s : State} {c : CadS}

theorem flamOk_iff (v w : W64) : flamOk v w = true ↔ w = ~~~ v := by simp [flamOk]

/-- The counter and its complement advance together. -/
theorem complement_advances (v : W64) : ~~~ v - 1#64 = ~~~ (v + 1#64) := by
  bv_omega

/-- A change of the counter to a whole pair: a committed table takes effect and delivery is due. -/
theorem stepChanged_whole (h : c.stepC = ~~~ c.step) : s.stepChanged c = s.setCad { c with
    table := c.next.getD c.table, next := none, valid := false, pend := false, due := true, fault := false } := by
  have hok := (flamOk_iff c.step c.stepC).2 h
  simp only [State.stepChanged, CadS.changed, hok, if_true, Bool.not_true, State.when_false]

/-- Whatever its pair, a counter that has changed keeps its value, and no advance is pending. -/
theorem stepChanged_cad (s : State) (c : CadS) : (s.stepChanged c).net.cad = c.changed := by
  unfold State.stepChanged
  cases flamOk c.step c.stepC
  · rw [Bool.not_false, State.when_true]
    rfl
  · rfl

theorem CadS.changed_step (c : CadS) : c.changed.step = c.step := by
  unfold CadS.changed
  dsimp only
  split <;> rfl

theorem CadS.changed_pend (c : CadS) : c.changed.pend = false := by
  unfold CadS.changed
  dsimp only
  split <;> rfl

theorem CadS.changed_jobs (c : CadS) : c.changed.jobs = c.jobs := by
  unfold CadS.changed
  dsimp only
  split <;> rfl

theorem cadAdv_discards (v : W32) (h : s.net.cad.pend = true ∨ s.net.cad.fault = true ∨ s.net.cad.step = BitVec.allOnes 64) :
    exec (.cadAdv v) s = .next s.discard :=
  congrArg Host.Outcome.next (if_pos (by simpa [or_assoc] using h))

/-- CAD_ADV that is not discarded waits for the jobs of the step, or advances the counter. -/
theorem cadAdv_goes (v : W32) (hpend : s.net.cad.pend = false) (hfault : s.net.cad.fault = false)
    (hones : s.net.cad.step ≠ BitVec.allOnes 64) :
    exec (.cadAdv v) s = .next (if s.net.cad.stepBusy then s.setCad { s.net.cad with pend := true } else s.stepAdvance) :=
  congrArg Host.Outcome.next (if_neg (by simpa [hpend, hfault] using hones))

theorem cadAdv_advances (v : W32) (hpend : s.net.cad.pend = false) (hfault : s.net.cad.fault = false)
    (hones : s.net.cad.step ≠ BitVec.allOnes 64) (hbusy : s.net.cad.stepBusy = false) (hpair : s.net.cad.stepC = ~~~ s.net.cad.step) :
    Gives (.cadAdv v) s fun u => u = s.setCad { s.net.cad with
        step := s.net.cad.step + 1#64, stepC := s.net.cad.stepC - 1#64, valid := false, due := true, pend := false,
        table := s.net.cad.next.getD s.net.cad.table, next := none } ∧ u.net.cad.stepC = ~~~ u.net.cad.step := by
  have hnew : s.net.cad.stepC - 1#64 = ~~~ (s.net.cad.step + 1#64) := hpair ▸ complement_advances _
  have hstate := stepChanged_whole (s := s) (c := { s.net.cad with step := s.net.cad.step + 1#64, stepC := s.net.cad.stepC - 1#64 }) hnew
  refine gives_next ((cadAdv_goes v hpend hfault hones).trans (congrArg _ (if_neg (by simp [hbusy])))) ?_
  rw [State.stepAdvance, hstate]
  exact ⟨by simp only [hfault], hnew⟩

/-- CAD_SET_C with a pair that is whole, no active job and no pending advance (R338). -/
theorem cadSetC_applies (v : W64) (hpair : v = ~~~ s.net.cad.setVal) (hactive : s.net.cad.active = 0) (hpend : s.net.cad.pend = false) :
    exec (.cadSetC v) s = .next (s.setCad { s.net.cad with
      step := s.net.cad.setVal, stepC := v, valid := false, due := true, fault := false, pend := false,
      table := s.net.cad.next.getD s.net.cad.table, next := none }) := by
  have hok := (flamOk_iff s.net.cad.setVal v).2 hpair
  have hgo : exec (.cadSetC v) s = .next (s.stepChanged { s.net.cad with step := s.net.cad.setVal, stepC := v }) :=
    congrArg Host.Outcome.next (if_pos (by simp [hok, hactive, hpend]))
  exact hgo.trans (congrArg _ (stepChanged_whole hpair))

theorem cadSetC_refused (v : W64) (h : v ≠ ~~~ s.net.cad.setVal ∨ s.net.cad.active ≠ 0 ∨ s.net.cad.pend = true) :
    exec (.cadSetC v) s = .next (s.setCad { s.net.cad with err := true }).discard := by
  refine congrArg Host.Outcome.next (if_neg fun hgo => ?_)
  simp only [Bool.and_eq_true, flamOk_iff, decide_eq_true_eq, Bool.not_eq_true'] at hgo
  obtain ⟨⟨hpair, hactive⟩, hpend⟩ := hgo
  obtain hne | hne | hne := h
  · exact hne hpair
  · exact hne hactive
  · simp [hpend] at hne

theorem cadCommit_takes (v : W32) (h : (Table.ofWords s.net.cad.stage).valid = true) :
    exec (.cadCommit v) s = .next (s.setCad { s.net.cad with next := some s.net.cad.stage }) := by
  rw [exec_cadCommit, execCadCommit, if_pos h]

theorem cadCommit_refused (v : W32) (h : (Table.ofWords s.net.cad.stage).valid = false) :
    exec (.cadCommit v) s = .next (s.setCad { s.net.cad with err := true }) := by
  rw [exec_cadCommit, execCadCommit, if_neg (by simp [h])]

end

/-! ### Delivery (R339, R343) -/

/-- A run of values from key 0 reads back as the list. -/
theorem get_setRun_zero {α : Type} [DecidableEq α] (d : α) (xs : List α) (i : Nat) :
    Map.get d (Map.setRun d [] 0 xs) i = xs.getD i d := by
  by_cases h : i < xs.length
  · have hin := Map.get_setRunBy_in (fun _ => d) [] 0 xs i h
    rw [Nat.zero_add] at hin
    rw [Map.setRun, hin, List.getD_eq_getElem _ _ h]
  · rw [Map.setRun, Map.get_setRunBy_out _ _ _ _ _ _ (by omega), List.getD_eq_default _ _ (by omega), Map.get_nil]

/-- The outputs of a state's step reach the units of a list. -/
def CadS.deliverTo (c : CadS) (outs : List W32) (l : List Ctrl) : CadS :=
  l.foldl (fun c u => c.setUnit u ((c.unit u).deliver outs c.step)) c

theorem deliverTo_unit (outs : List W32) (l : List Ctrl) (hl : l.Nodup) (c : CadS) (n : Ctrl) :
    (c.deliverTo outs l).unit n = if n ∈ l then (c.unit n).deliver outs c.step else c.unit n := by
  induction l generalizing c with
  | nil => rfl
  | cons a l ih =>
    obtain ⟨ha, hl⟩ := List.nodup_cons.1 hl
    have hrest : (c.deliverTo outs (a :: l)).unit n = _ := ih hl (c.setUnit a ((c.unit a).deliver outs c.step))
    have hstep : (c.setUnit a ((c.unit a).deliver outs c.step)).step = c.step := rfl
    rw [hrest, hstep]
    by_cases hn : n = a
    · subst hn
      simp [ha]
    · simp [hn, CadS.setUnit_unit_ne _ hn]

theorem deliverTo_keep {α : Type} (g : CadS → α) (hg : ∀ c u x, g (CadS.setUnit c u x) = g c) (c : CadS) (outs : List W32)
    (l : List Ctrl) : g (c.deliverTo outs l) = g c := foldl_keep g _ (fun c u => hg c u _) l c

/-- The Cadence state once the outputs of its step have reached every unit. -/
def CadS.delivered (c : CadS) (outs : List W32) : CadS :=
  CadS.deliverTo { c with due := false, valid := true, out := Map.setRun 0#32 [] 0 outs } outs (List.finRange 24)

theorem delivered_unit (c : CadS) (outs : List W32) (n : Ctrl) : (c.delivered outs).unit n = (c.unit n).deliver outs c.step := by
  rw [CadS.delivered, deliverTo_unit _ _ (List.nodup_finRange 24), if_pos (List.mem_finRange n)]
  rfl

/-- An output at a unit is the step's, its complement beside it. -/
theorem deliver_out (x : ClapUnit) (outs : List W32) (step : W64) {i : Nat} (h : i < outs.length) :
    (x.deliver outs step).outs.get 0#32 i = outs.getD i 0#32
      ∧ (x.deliver outs step).outsC.get 0#32 i = ~~~ ((x.deliver outs step).outs.get 0#32 i) := by
  have hout : (x.deliver outs step).outs.get 0#32 i = outs.getD i 0#32 := get_setRun_zero ..
  have hcompl : (x.deliver outs step).outsC.get 0#32 i = (outs.map fun w => ~~~ w).getD i 0#32 := get_setRun_zero ..
  refine ⟨hout, ?_⟩
  rw [hcompl, hout]
  simp [h]

/-- What a delivery of eight outputs leaves of the engine and of each unit. -/
theorem delivered_facts (c : CadS) (outs : List W32) (hlen : outs.length = 8) :
    (c.delivered outs).valid = true ∧ (c.delivered outs).due = false ∧ (c.delivered outs).step = c.step
      ∧ ∀ n : Ctrl, ((c.delivered outs).unit n).valid = some c.step ∧ ((c.delivered outs).unit n).badStep = none
        ∧ ((c.delivered outs).unit n).vregs = (c.unit n).vregs ∧ ((c.delivered outs).unit n).cur = (c.unit n).cur
        ∧ ∀ i, i < 8 → ((c.delivered outs).unit n).outs.get 0#32 i = outs.getD i 0#32
          ∧ ((c.delivered outs).unit n).outsC.get 0#32 i = ~~~ (((c.delivered outs).unit n).outs.get 0#32 i)
          ∧ (c.delivered outs).out.get 0#32 i = ((c.delivered outs).unit n).outs.get 0#32 i := by
  have hout : (c.delivered outs).out = Map.setRun 0#32 [] 0 outs := deliverTo_keep CadS.out (fun _ _ _ => rfl) ..
  refine ⟨deliverTo_keep CadS.valid (fun _ _ _ => rfl) .., deliverTo_keep CadS.due (fun _ _ _ => rfl) ..,
    deliverTo_keep CadS.step (fun _ _ _ => rfl) .., fun n => ?_⟩
  rw [delivered_unit]
  refine ⟨rfl, rfl, rfl, rfl, fun i hi => ?_⟩
  obtain ⟨hread, hcompl⟩ := deliver_out (c.unit n) outs c.step (hlen.symm ▸ hi)
  exact ⟨hread, hcompl, by rw [hread, hout, get_setRun_zero]⟩

section
variable {s : State}

theorem delivery_whole (hdue : s.net.cad.due = true) (hpair : s.net.cad.stepC = ~~~ s.net.cad.step) : exec .cadenceDelivery s
    = .next (State.route (s.setCad (s.net.cad.delivered ((Table.ofWords s.net.cad.table).outputs s.net.cad.step))) 5) := by
  have hok := (flamOk_iff s.net.cad.step s.net.cad.stepC).2 hpair
  simp only [exec_cadenceDelivery, execCadenceDelivery, hdue, hok, Bool.not_true, Bool.false_eq_true, if_false, CadS.delivered,
    CadS.deliverTo]

theorem delivery_mismatch (hdue : s.net.cad.due = true) (hpair : s.net.cad.stepC ≠ ~~~ s.net.cad.step) : exec .cadenceDelivery s
    = .next ((s.setCad { s.net.cad with due := false, fault := true, valid := false }).flamMismatch.route 5) := by
  have hbad : flamOk s.net.cad.step s.net.cad.stepC = false := Bool.eq_false_iff.2 fun h => hpair ((flamOk_iff ..).1 h)
  simp only [exec_cadenceDelivery, execCadenceDelivery, hdue, hbad, Bool.not_true, Bool.not_false, Bool.false_eq_true, if_false, if_true]

theorem delivery_idle (hdue : s.net.cad.due = false) : exec .cadenceDelivery s = .next s :=
  congrArg Host.Outcome.next (if_pos (by simp [hdue]))

end

/-! ### The outputs of a step (R340, R342) -/

theorem outputs_length (t : Table) (step : W64) : (t.outputs step).length = 8 := rfl

/-- S22 and S23 hold the step's halves. -/
theorem outputs_step (t : Table) (step : W64) : (t.outputs step).getD 6 0#32 = step.setWidth 32
    ∧ (t.outputs step).getD 7 0#32 = (step >>> 32).setWidth 32 := by
  have hlow : (t.outputs step).getD 6 0#32 = BitVec.ofNat 32 (w64Bits step 0 32) := rfl
  have hhigh : (t.outputs step).getD 7 0#32 = BitVec.ofNat 32 (w64Bits step 32 32) := rfl
  rw [hlow, hhigh]
  constructor
  · apply BitVec.eq_of_toNat_eq
    simp [w64Bits, bitsOf]
  · apply BitVec.eq_of_toNat_eq
    simp [w64Bits, bitsOf, Nat.shiftRight_eq_div_pow]

/-- Without warm-up and decay the rate is LR_PEAK at every step. -/
theorem rate_constant {t : Table} (hwarm : t.wsteps = 0) (hdecay : t.decay = 0) (step : Nat) : t.rate step = fp32Val t.peak := by
  simp [Table.rate, hwarm, hdecay]

theorem outputs_rate {t : Table} (hwarm : t.wsteps = 0) (hdecay : t.decay = 0) (step : W64) :
    (t.outputs step).getD 0 0#32 = fp32Round (fp32Val t.peak) := by
  rw [← rate_constant hwarm hdecay step.toNat]
  rfl

/-- Settles O48: the commands of the step counter, the table's commit, the delivery of a whole and of a broken pair, and the outputs. -/
theorem cadenceCommands : Obligations.CadenceCommands := by
  rintro s _ rfl
  refine ⟨fun v h => gives_next (cadAdv_discards v h) rfl, fun v hp hf ho hb => gives_next (cadAdv_goes v hp hf ho) (if_pos hb),
    fun v hp hf ho hb hpair => cadAdv_advances v hp hf ho hb hpair, fun v hpair ha hp => gives_next (cadSetC_applies v hpair ha hp) rfl,
    fun v h => gives_next (cadSetC_refused v h) rfl,
    fun v => ⟨fun h => gives_next (cadCommit_takes v h) rfl, fun h => gives_next (cadCommit_refused v h) rfl⟩,
    fun hdue hpair => gives_next (delivery_whole hdue hpair) ?delivers,
    fun hdue hpair => gives_next (delivery_mismatch hdue hpair) ⟨rfl, rfl, rfl, rfl⟩, fun hdue => gives_next (delivery_idle hdue) rfl,
    fun t step => ⟨outputs_length t step, (outputs_step t step).1, (outputs_step t step).2, fun hw hd => outputs_rate hw hd step⟩⟩
  case delivers =>
    obtain ⟨hvalid, hdone, hstep, hunits⟩ := delivered_facts s.net.cad _ (outputs_length (Table.ofWords s.net.cad.table) s.net.cad.step)
    exact ⟨hvalid, hdone, hstep, by simp, hunits⟩

end Sys2Proof.Machine

/-! ## The lots of the Clapper units

How a unit runs its lot, instruction by instruction and as a whole, how a lot fails, waits and is counted, and the statements O45 and
O46 settled from it. -/

namespace Sys2Proof.Machine

/-! ### A lot under way -/

section
variable {s : State} {u : Ctrl} {r : LotRun} {j : Job}

/-- The state in which a unit, the lot it runs and the job of a slot stand as given. -/
def State.lotStands (s : State) (u : Ctrl) (k : JobSlot) (x : ClapUnit) (r : LotRun) (j : Job) : State :=
  s.setCad ((s.net.cad.setJob k (some j)).setUnit u { x with cur := some r })

theorem lotStands_unit (s : State) (u : Ctrl) (k : JobSlot) (x : ClapUnit) (r : LotRun) (j : Job) :
    (s.lotStands u k x r j).net.cad.unit u = { x with cur := some r } := CadS.setUnit_unit ..

theorem lotStands_job (s : State) (u : Ctrl) (k : JobSlot) (x : ClapUnit) (r : LotRun) (j : Job) :
    (s.lotStands u k x r j).net.cad.job k = some j := CadS.setJob_job ..

@[simp] theorem lotStands_mem (s : State) (u : Ctrl) (k : JobSlot) (x : ClapUnit) (r : LotRun) (j : Job) :
    (s.lotStands u k x r j).mem = s.mem := rfl

/-- A unit with its lot in hand goes on with it. -/
theorem lotReady_at (h : s.lotAt u r j) : s.lotReady u = s := by
  obtain ⟨hfault, hserves, hcur, -⟩ := h
  simp [State.lotReady, hfault, hserves, hcur]

theorem lotBody_runs {stop : ClapOp → Bool} {x' : ClapUnit} {r' : LotRun} {j' : Job} (hcur : (s.net.cad.unit u).cur = some r)
    (hjob : s.net.cad.job r.lot.job = some j) (hrun : clapRun stop (j.d.lanes r.lot.lot) 257 (s.net.cad.unit u) r j = some (x', r', j')) :
    s.lotBody u stop = s.lotStands u r.lot.job x' r' j' := by
  simp only [State.lotBody, hcur, hjob, hrun, State.lotStands]

/-- A program that has reached an instruction of `stop`, or its end, does not run on. -/
theorem clapRun_stops {stop : ClapOp → Bool} (h : ∀ o, j.instr r.pc = some o → stop o = true) (lanes n : Nat) (x : ClapUnit) :
    clapRun stop lanes n x r j = some (x, r, j) := by
  cases n with
  | zero => rfl
  | succ n =>
    unfold clapRun
    split
    · rfl
    · next o ho => exact if_pos (h o ho)

end

/-! ### The failure of a lot (R335, R343) -/

section
variable {s : State} {u : Ctrl} {r : LotRun} {j : Job}

theorem lotFail_running (hcur : (s.net.cad.unit u).cur = some r) (hjob : s.net.cad.job r.lot.job = some j) (st : W32) :
    (s.lotFail u st).net.cad.job r.lot.job = some { j.failLot r.lot.lot st with lastUnit := some u }
      ∧ (s.lotFail u st).net.cad.unit u = (s.net.cad.unit u).lotOver := by
  simp [State.lotFail, hcur, hjob]

theorem lotFail_waiting {l : Lot} {rest : List Lot} (hcur : (s.net.cad.unit u).cur = none) (hbuf : (s.net.cad.unit u).buffers = l :: rest)
    (hjob : s.net.cad.job l.job = some j) (st : W32) :
    (s.lotFail u st).net.cad.job l.job = some { j.failLot l.lot st with lastUnit := some u }
      ∧ (s.lotFail u st).net.cad.unit u = { (s.net.cad.unit u).lotOver with buffers := rest } := by
  simp [State.lotFail, hcur, hbuf, hjob]

/-- A Cadence output that mismatches: the lot fails with 0x0707, and the unit discards its outputs of the step. -/
theorem outMismatch_running (hcur : (s.net.cad.unit u).cur = some r) (hjob : s.net.cad.job r.lot.job = some j) :
    (s.outMismatch u j.d).net.cad.job r.lot.job = some { j.failLot r.lot.lot 0x07070000#32 with lastUnit := some u }
      ∧ (s.outMismatch u j.d).net.cad.unit u = ((s.net.cad.unit u).discardOuts j.d.step).lotOver := by
  have hunit : (s.setCad (s.net.cad.setUnit u ((s.net.cad.unit u).discardOuts j.d.step))).flamMismatch.net.cad.unit u
      = (s.net.cad.unit u).discardOuts j.d.step := CadS.setUnit_unit ..
  have hfail := lotFail_running (s := (s.setCad (s.net.cad.setUnit u ((s.net.cad.unit u).discardOuts j.d.step))).flamMismatch)
    (by rw [hunit]; exact hcur) hjob (statusWord 0x0707 0)
  rwa [hunit] at hfail

end

/-! ### One instruction with a command of its own (R326) -/

section
variable {s : State} {u : Ctrl} {r : LotRun} {j : Job} {o : ClapOp} {want : ClapOp → Bool} {c : Instr}

/-- A command meets the named instruction that the body has reached. -/
theorem clapOne_reached (h : s.lotAt u r j) (ho : j.instr r.pc = some o) (hn : o.named = true) (hw : want o = true) :
    s.clapOne u want = match clapExec o (j.d.lanes r.lot.lot) (s.net.cad.unit u) r j with
      | none => (s.lotStands u r.lot.job (s.net.cad.unit u) r j).outMismatch u j.d
      | some q => (s.lotStands u r.lot.job (s.net.cad.unit u) r j).lotStands u r.lot.job q.1 { q.2.1 with pc := r.pc + 1 } q.2.2 := by
  have hready := lotReady_at h
  obtain ⟨-, -, hcur, hjob⟩ := h
  have hbody : s.lotBody u ClapOp.named = s.lotStands u r.lot.job (s.net.cad.unit u) r j :=
    lotBody_runs hcur hjob (clapRun_stops (fun p hp => by rw [ho] at hp; cases hp; exact hn) ..)
  have hunit : (s.lotStands u r.lot.job (s.net.cad.unit u) r j).net.cad.unit u = s.net.cad.unit u := by
    rw [lotStands_unit, ← hcur]
  simp only [State.clapOne, hready, hbody, hunit, hcur, lotStands_job, ho, hw, Bool.not_true, Bool.false_eq_true, if_false]
  cases clapExec o (j.d.lanes r.lot.lot) (s.net.cad.unit u) r j <;> rfl

/-- Where the instruction goes through, the unit, its lot and its job are what it leaves, and the lot goes on behind it. -/
theorem instr_gives {x' : ClapUnit} {r' : LotRun} {j' : Job} (hexec : exec c s = .next (s.clapOne u want)) (h : s.lotAt u r j)
    (ho : j.instr r.pc = some o) (hn : o.named = true) (hw : want o = true)
    (hq : clapExec o (j.d.lanes r.lot.lot) (s.net.cad.unit u) r j = some (x', r', j')) :
    Gives c s fun v => v.net.cad.job r.lot.job = some j' ∧ v.net.cad.unit u = { x' with cur := some { r' with pc := r.pc + 1 } }
      ∧ v.mem = s.mem := by
  have hone := clapOne_reached h ho hn hw
  rw [hq] at hone
  exact gives_next (hexec.trans (congrArg _ hone)) ⟨lotStands_job .., lotStands_unit .., rfl⟩

/-- A write of a vector register: the enabled lanes of VD, and nothing else of the unit. -/
theorem rowWrite_gives {row : Row} {vd : Nat} {m : BitVec 256} (hexec : exec c s = .next (s.clapOne u want)) (h : s.lotAt u r j)
    (ho : j.instr r.pc = some o) (hn : o.named = true) (hw : want o = true)
    (hq : clapExec o (j.d.lanes r.lot.lot) (s.net.cad.unit u) r j
      = some ((s.net.cad.unit u).setVreg vd (maskedRow 256 m ((s.net.cad.unit u).vreg vd) row), r, j)) :
    Gives c s fun v =>
      (∀ q, (v.net.cad.unit u).vreg q = if q = vd then maskedRow 256 m ((s.net.cad.unit u).vreg vd) row
        else (s.net.cad.unit u).vreg q)
      ∧ (v.net.cad.unit u).mregs = (s.net.cad.unit u).mregs ∧ (v.net.cad.unit u).cur = some { r with pc := r.pc + 1 }
      ∧ v.net.cad.job r.lot.job = some j ∧ v.mem = s.mem := by
  obtain ⟨v, hv, hjob, hunit, hmem⟩ := instr_gives hexec h ho hn hw hq
  refine gives_next hv ?_
  rw [hunit]
  exact ⟨fun q => Map.get_set .., rfl, rfl, hjob, hmem⟩

/-- What a mismatch of the output that an instruction reads leaves. -/
theorem mismatch_gives (hexec : exec c s = .next (s.clapOne u want)) (h : s.lotAt u r j)
    (ho : j.instr r.pc = some o) (hn : o.named = true) (hw : want o = true)
    (hq : clapExec o (j.d.lanes r.lot.lot) (s.net.cad.unit u) r j = none) :
    Gives c s fun v => s.lotLost u r.lot.job j r.lot.lot 0x07070000#32 v ∧ (v.net.cad.unit u).valid = none
      ∧ (v.net.cad.unit u).badStep = some j.d.step ∧ v.mem = s.mem := by
  have hone := clapOne_reached h ho hn hw
  rw [hq] at hone
  have hunit := lotStands_unit s u r.lot.job (s.net.cad.unit u) r j
  obtain ⟨hjob, hlost⟩ := outMismatch_running (s := s.lotStands u r.lot.job (s.net.cad.unit u) r j)
    (by rw [hunit]) (lotStands_job ..)
  rw [hunit] at hlost
  refine gives_next (hexec.trans (congrArg _ hone)) ?_
  rw [State.lotLost, hlost]
  exact ⟨⟨hjob, rfl, rfl⟩, rfl, rfl, by simp⟩

end

/-! ### VST (R326, R334) -/

/-- M0 holds the active lanes. -/
theorem mreg_zero_getLsbD (x : ClapUnit) (lanes : Nat) {l : Nat} (hl : l < 256) : (x.mreg lanes 0).getLsbD l = decide (l < lanes) := by
  simp only [ClapUnit.mreg, if_true, BitVec.getLsbD_ofNat, Nat.testBit_two_pow_sub_one, hl, decide_true, Bool.true_and]

/-- The element that a store leaves for a lane. -/
theorem storeLanes_get (fmt : Fmt) (rm : Nat) (m : BitVec 256) (single : Bool) (old : List (Option Nat)) {row : Row} {l : Nat} {e : W32}
    (h : row[l]? = some e) : (storeLanes fmt rm m single old row)[l]? = some (if m.getLsbD l && (!single || l = 0)
      then some (fmt.convert (vecRound rm) (storeValue fmt e)).1 else old.getD l none) := by
  simp [storeLanes, List.getElem?_map, List.getElem?_zipIdx, h]

/-- Settles O45: each command meets its instruction; a VBCAST by whether the output it reads is whole. -/
theorem clapperPrograms : Obligations.ClapperPrograms := by
  rintro u s r j _ _ h rfl rfl
  refine ⟨fun msk ho => ?cnt, fun vd msk stream a ho hvd hmsk himm => ?vld,
    fun vc msk stream rtz a fmt ho hvc hmsk himm hrm hfmt => ?vst,
    fun vd msk sa a ho hvd hmsk hva => ⟨fun hout => ?bcast, fun h16 hbad => ?mismatch⟩⟩
  case cnt => exact instr_gives (exec_vcnt u msk s) h ho rfl (by simp) rfl
  case vld =>
    rw [← hvd, ← hmsk, ← himm]
    exact rowWrite_gives (exec_clapperVld u vd msk stream s) h ho rfl (by simp [hvd, hmsk, himm]) rfl
  case vst =>
    obtain ⟨v, hv, hjob, hunit, hmem⟩ := instr_gives (exec_clapperVst u vc msk stream rtz s) h ho rfl
      (by simp [hvc, hmsk, himm, hrm]) rfl
    refine gives_next hv ⟨hmem, hjob, _, hunit, fun k hk => ?_, fun l e hl he => ?_⟩
    · exact Map.get_set_ne _ _ _ _ _ _ (himm ▸ hk)
    · rw [himm, Map.get_set_self, hfmt, hvc, storeLanes_get _ _ _ _ _ he, BitVec.getLsbD_and, mreg_zero_getLsbD _ _ hl, hmsk, hrm]
      simp [and_assoc, imp_iff_not_or]
  case bcast =>
    have hok : (s.net.cad.unit u).outOk a.va = true := by simpa [ClapUnit.outOk, hva] using hout
    have hq : clapExec (.vec .vbcast a) (j.d.lanes r.lot.lot) (s.net.cad.unit u) r j = some _ := if_pos hok
    rw [← hvd, ← hmsk, ← hva]
    exact rowWrite_gives (exec_clapperVbcast u vd msk sa s) h ho rfl (by simp [hvd, hmsk, hva]) hq
  case mismatch =>
    have hbroken : (s.net.cad.unit u).outOk a.va = false := by simpa [ClapUnit.outOk, hva] using ⟨h16, hbad⟩
    have hq : clapExec (.vec .vbcast a) (j.d.lanes r.lot.lot) (s.net.cad.unit u) r j = none := if_neg (by simp [hbroken])
    exact mismatch_gives (exec_clapperVbcast u vd msk sa s) h ho rfl (by simp [hvd, hmsk, hva]) hq

/-! ### Stage 3 (R334, R335) -/

section
variable {s t : State} {u : Ctrl} {r : LotRun} {j : Job}

/-- Without a lot at the unit there is no body to run and nothing to write. -/
theorem lotBody_none (hcur : (s.net.cad.unit u).cur = none) (stop : ClapOp → Bool) : s.lotBody u stop = s := by
  simp only [State.lotBody, hcur]

theorem writeLot_none (hcur : (s.net.cad.unit u).cur = none) (n : Nat) : s.writeLot u n = s := by
  cases n with
  | zero => rfl
  | succ n => simp only [State.writeLot, hcur]

/-- Past the last stream the lot has run, and is counted at its job and at the unit. -/
theorem writeLot_over (hcur : (s.net.cad.unit u).cur = some r) (hjob : s.net.cad.job r.lot.job = some j) (h8 : 8 ≤ r.written) (n : Nat) :
    s.writeLot u (n + 1) = s.setCad ((s.net.cad.modifyJob r.lot.job fun j =>
      { j with doneLots := j.doneLots + 1, lastUnit := some u }).setUnit u (s.net.cad.unit u).lotOver) := by
  simp only [State.writeLot, hcur, hjob, ge_iff_le, h8, if_true]

/-- The state in which a unit has dealt with the next stream of its lot. -/
def State.streamDone (s : State) (u : Ctrl) (r : LotRun) : State :=
  s.setCad (s.net.cad.setUnit u { s.net.cad.unit u with cur := some { r with written := r.written + 1 } })

theorem streamDone_unit (s : State) (u : Ctrl) (r : LotRun) : (s.streamDone u r).net.cad.unit u
    = { s.net.cad.unit u with cur := some { r with written := r.written + 1 } } := CadS.setUnit_unit ..

/-- A stream that is written leaves the next one to deal with. -/
theorem writeLot_written (hcur : (s.net.cad.unit u).cur = some r) (hjob : s.net.cad.job r.lot.job = some j) (h8 : r.written < 8)
    (hwrite : s.writeStream u j.d r.lot.lot r.written (r.stores.get [] r.written) = (t, none)) (n : Nat) :
    s.writeLot u (n + 1) = (t.streamDone u r).writeLot u n := by
  simp only [State.writeLot, hcur, hjob, ge_iff_le, Nat.not_le.2 h8, if_false, hwrite, State.streamDone]

/-- A stream whose write fails with a status ends the lot with it. -/
theorem writeLot_failed {st : W32} (hcur : (s.net.cad.unit u).cur = some r) (hjob : s.net.cad.job r.lot.job = some j) (h8 : r.written < 8)
    (hwrite : s.writeStream u j.d r.lot.lot r.written (r.stores.get [] r.written) = (t, some (.status st))) (n : Nat) :
    s.writeLot u (n + 1) = (if statusCode st / 256 = 3 then t.undefinedStream u j.d r.lot.lot r.written (r.stores.get [] r.written)
      else t).lotFail u st := by
  simp only [State.writeLot, hcur, hjob, ge_iff_le, Nat.not_le.2 h8, if_false, hwrite]

/-- What a lot that has run leaves: it is counted at its job and at the unit, which holds it no longer. -/
def State.lotRan (s : State) (u : Ctrl) (r : LotRun) (j : Job) (v : State) : Prop :=
  v.mem = s.mem ∧ v.net.cad.job r.lot.job = some { j with doneLots := j.doneLots + 1, lastUnit := some u }
    ∧ v.net.cad.unit u = (s.net.cad.unit u).lotOver

/-- Where the streams left have nothing stored, no memory is written and the lot has run. -/
theorem writeLot_rest_empty (n : Nat) : ∀ (s : State) (r : LotRun), (s.net.cad.unit u).cur = some r →
    s.net.cad.job r.lot.job = some j → 8 - r.written < n → (∀ k, r.written ≤ k → r.stores.get [] k = []) →
    s.lotRan u r j (s.writeLot u n) := by
  induction n with
  | zero => exact fun s r _ _ hn => absurd hn (Nat.not_lt_zero _)
  | succ n ih =>
    intro s r hcur hjob hn hempty
    by_cases h8 : r.written < 8
    · have hwrite : s.writeStream u j.d r.lot.lot r.written (r.stores.get [] r.written) = (s, none) := by
        rw [hempty _ (le_refl _)]
        rfl
      rw [writeLot_written hcur hjob h8 hwrite]
      obtain ⟨hmem, hran, hunit⟩ := ih (s.streamDone u r) { r with written := r.written + 1 } (by rw [streamDone_unit]) hjob
        (by dsimp only; omega) fun k hk => hempty k (by dsimp only at hk; omega)
      rw [streamDone_unit] at hunit
      exact ⟨hmem, hran, hunit⟩
    · rw [writeLot_over hcur hjob (by omega)]
      refine ⟨rfl, ?_, CadS.setUnit_unit ..⟩
      rw [State.setCad_cad, CadS.setUnit_job, CadS.modifyJob_job, hjob, Option.map_some]

end

/-! ### What a program keeps -/

/-- An instruction keeps which lot runs and the unit's count of lots. -/
theorem clapExec_keeps {o : ClapOp} {lanes : Nat} {x : ClapUnit} {r : LotRun} {j : Job} {q : ClapUnit × LotRun × Job}
    (h : clapExec o lanes x r j = some q) : q.2.1.lot = r.lot ∧ q.1.lots = x.lots := by
  cases o with
  | cnt msk =>
    cases h
    exact ⟨rfl, rfl⟩
  | vec op a =>
    unfold clapExec at h
    dsimp only at h
    (repeat' split at h) <;> cases h <;> exact ⟨rfl, rfl⟩

theorem clapRun_keeps {stop : ClapOp → Bool} {lanes : Nat} {q : ClapUnit × LotRun × Job} (n : Nat) :
    ∀ (x : ClapUnit) (r : LotRun) (j : Job), clapRun stop lanes n x r j = some q → q.2.1.lot = r.lot ∧ q.1.lots = x.lots := by
  induction n with
  | zero =>
    rintro x r j ⟨⟩
    exact ⟨rfl, rfl⟩
  | succ n ih =>
    intro x r j h
    unfold clapRun at h
    split at h
    · cases h
      exact ⟨rfl, rfl⟩
    · split at h
      · cases h
        exact ⟨rfl, rfl⟩
      · split at h
        · cases h
        · next p hp =>
          obtain ⟨hlot, hlots⟩ := ih _ _ _ h
          exact ⟨hlot.trans (clapExec_keeps hp).1, hlots.trans (clapExec_keeps hp).2⟩

/-! ### A lot begins (R333, R343) -/

section
variable {s t : State} {u : Ctrl} {l : Lot} {rest : List Lot} {j : Job} {y : ClapUnit}

theorem ready_waits {c : CadS} {d : JobDesc} (h : c.step ≠ d.step) (u : Ctrl) : c.ready u d = .waits := if_pos h

theorem ready_fails {c : CadS} {d : JobDesc} (hstep : c.step = d.step) (h : c.fault = true ∨ (c.unit u).badStep = some d.step) :
    c.ready u d = .fails := (if_neg (not_not_intro hstep)).trans (if_pos (by simpa using h))

theorem ready_runs {c : CadS} {d : JobDesc} (hstep : c.step = d.step) (hfault : c.fault = false) (hvalid : c.valid = true)
    (hdue : c.due = false) (hunit : (c.unit u).valid = some d.step) (hbad : (c.unit u).badStep = none) : c.ready u d = .runs := by
  simp [CadS.ready, hstep, hfault, hvalid, hdue, hunit, hbad]

/-- The dispatcher hands nothing out to a unit whose buffers hold a lot. -/
theorem dispatch_busy (hbuf : (s.net.cad.unit u).buffers = l :: rest) (n : Nat) : s.dispatch u n = s := by
  cases n with
  | zero => rfl
  | succ n =>
    unfold State.dispatch
    dsimp only
    split
    · rfl
    · exact if_pos (by simp [hbuf])

theorem lotReady_buffered (hfault : s.xlat.faults.get none (clapFid u.val) = none) (hserves : s.unitServes u = true)
    (hcur : (s.net.cad.unit u).cur = none) (hbuf : (s.net.cad.unit u).buffers = l :: rest) : s.lotReady u = s.lotBegin u := by
  simp [State.lotReady, hfault, hserves, hcur, dispatch_busy hbuf]

theorem lotBegin_waits (hbuf : (s.net.cad.unit u).buffers = l :: rest) (hjob : s.net.cad.job l.job = some j)
    (hready : s.net.cad.ready u j.d = .waits) : s.lotBegin u = s := by
  simp only [State.lotBegin, hbuf, hjob, hready]

theorem lotBegin_fails (hbuf : (s.net.cad.unit u).buffers = l :: rest) (hjob : s.net.cad.job l.job = some j)
    (hready : s.net.cad.ready u j.d = .fails) : s.lotBegin u = s.lotFail u (statusWord 0x0707 0) := by
  simp only [State.lotBegin, hbuf, hjob, hready]

/-- The unit with the registers that a lot of a job finds: as the last lot left them, or after the prologue on a change of job. -/
def ClapUnit.forJob (x : ClapUnit) (k : JobSlot) (j : Job) : Option ClapUnit := if x.lastJob = some k then some x else x.prologue j

/-- A stream that cannot be read stops the unit before the lot has begun. -/
theorem lotBegin_unread {e : AccErr} (hbuf : (s.net.cad.unit u).buffers = l :: rest) (hjob : s.net.cad.job l.job = some j)
    (hready : s.net.cad.ready u j.d = .runs) (hregs : (s.net.cad.unit u).forJob l.job j = some y)
    (hread : s.readStreams u j.d l.lot = (t, .error e)) : s.lotBegin u = t.clapStop u j.d.ctx false e := by
  rw [ClapUnit.forJob] at hregs
  simp only [State.lotBegin, hbuf, hjob, hready, hregs, hread]

/-- A lot whose streams are read stands at the unit at the start of the body. -/
theorem lotBegin_reads {m : Map Row} (hbuf : (s.net.cad.unit u).buffers = l :: rest) (hjob : s.net.cad.job l.job = some j)
    (hready : s.net.cad.ready u j.d = .runs) (hregs : (s.net.cad.unit u).forJob l.job j = some y)
    (hread : s.readStreams u j.d l.lot = (t, .ok m)) : ∃ m', s.lotBegin u = t.setCad (t.net.cad.setUnit u { y.clearLot with
      lastJob := some l.job, buffers := rest, cur := some { lot := l, data := m', pc := j.d.pro, stores := [], written := 0 } }) := by
  rw [ClapUnit.forJob] at hregs
  simp only [State.lotBegin, hbuf, hjob, hready, hregs, hread]
  exact ⟨_, rfl⟩

/-- A job without a prologue leaves the unit's registers clear on a change of job. -/
theorem forJob_noPrologue (x : ClapUnit) (k : JobSlot) (h : j.d.pro = 0) : ∃ y, x.forJob k j = some y ∧ y.lots = x.lots := by
  unfold ClapUnit.forJob
  split
  · exact ⟨x, rfl, rfl⟩
  · exact ⟨{ x with vregs := [], mregs := [] }, by simp [ClapUnit.prologue, h, clapRun], rfl⟩

/-- A lot of an empty program reads no stream. -/
theorem readStreams_empty (s : State) (u : Ctrl) {d : JobDesc} (lot : Nat) (h : d.plen = 0) : s.readStreams u d lot = (s, .ok []) := by
  simp [State.readStreams, JobDesc.reads, h]

end

/-! ### LOT_RUN -/

section
variable {s t : State} {u : Ctrl} {l : Lot} {rest : List Lot} {j : Job}

/-- Where the unit has no lot in hand after the start, that is all that LOT_RUN does. -/
theorem exec_lotRun_idle {v : State} (hready : s.lotReady u = v) (hcur : (v.net.cad.unit u).cur = none) :
    exec (.lotRun u) s = .next v := by
  rw [exec_lotRun, execLotRun, hready, lotBody_none hcur, writeLot_none hcur]

/-- A lot that fails before it has begun. -/
theorem lotRun_fails {st : W32} (hready : s.lotReady u = t.lotFail u st) (hnet : t.net = s.net) (hcur : (s.net.cad.unit u).cur = none)
    (hbuf : (s.net.cad.unit u).buffers = l :: rest) (hjob : s.net.cad.job l.job = some j) :
    Gives (.lotRun u) s fun v => s.lotLost u l.job j l.lot st v ∧ v.mem = t.mem ∧ (v.net.cad.unit u).buffers = rest := by
  rw [← hnet] at hcur hbuf hjob
  obtain ⟨hlost, hunit⟩ := lotFail_waiting hcur hbuf hjob st
  refine gives_next (exec_lotRun_idle hready (by rw [hunit]; rfl)) ?_
  rw [State.lotLost, hunit, hnet]
  exact ⟨⟨hlost, rfl, rfl⟩, by simp, rfl⟩

/-- A lot in hand runs the rest of its body, and goes to stage 3. -/
theorem exec_lotRun_body {v : State} {r r' : LotRun} {x' : ClapUnit} {j' : Job} (hready : s.lotReady u = v)
    (hcur : (v.net.cad.unit u).cur = some r) (hjob : v.net.cad.job r.lot.job = some j)
    (hrun : clapRun (fun _ => false) (j.d.lanes r.lot.lot) 257 (v.net.cad.unit u) r j = some (x', r', j')) :
    exec (.lotRun u) s = .next ((v.lotStands u r.lot.job x' r' j').writeLot u 10) := by
  rw [exec_lotRun, execLotRun, hready, lotBody_runs hcur hjob hrun]

/-- Such a lot that has nothing stored in the streams left is counted as run, and no memory is written. -/
theorem lotRun_storesNothing {v : State} {r r' : LotRun} {x' : ClapUnit} {j' : Job} (hready : s.lotReady u = v)
    (hcur : (v.net.cad.unit u).cur = some r) (hjob : v.net.cad.job r.lot.job = some j)
    (hrun : clapRun (fun _ => false) (j.d.lanes r.lot.lot) 257 (v.net.cad.unit u) r j = some (x', r', j'))
    (hempty : ∀ k, r'.written ≤ k → r'.stores.get [] k = []) :
    Gives (.lotRun u) s fun w => w.mem = v.mem
      ∧ w.net.cad.job r.lot.job = some { j' with doneLots := j'.doneLots + 1, lastUnit := some u } ∧ w.net.cad.unit u = x'.lotOver := by
  have hlot : r'.lot = r.lot := (clapRun_keeps _ _ _ _ hrun).1
  have hunit := lotStands_unit v u r.lot.job x' r' j'
  obtain ⟨hmem, hran, hover⟩ := writeLot_rest_empty 10 (v.lotStands u r.lot.job x' r' j') r' (by rw [hunit])
    (by rw [hlot, lotStands_job]) (by omega) hempty
  rw [hunit] at hover
  rw [hlot] at hran
  exact gives_next (exec_lotRun_body hready hcur hjob hrun) ⟨hmem, hran, hover⟩

/-- A lot of an empty program counts as run (R332). -/
theorem lotRun_empty (hready : s.lotReady u = s.lotBegin u) (hbuf : (s.net.cad.unit u).buffers = l :: rest)
    (hjob : s.net.cad.job l.job = some j) (hruns : s.net.cad.ready u j.d = .runs) (hlen : j.d.plen = 0) (hpro : j.d.pro = 0)
    (hwords : j.words = []) :
    Gives (.lotRun u) s fun v => v.mem = s.mem
      ∧ v.net.cad.job l.job = some { j with doneLots := j.doneLots + 1, lastUnit := some u }
      ∧ (v.net.cad.unit u).cur = none ∧ (v.net.cad.unit u).buffers = rest
      ∧ (v.net.cad.unit u).lots = (s.net.cad.unit u).lots + 1#32 := by
  obtain ⟨y, hregs, hlots⟩ := forJob_noPrologue (s.net.cad.unit u) l.job hpro
  obtain ⟨m, hbegin⟩ := lotBegin_reads hbuf hjob hruns hregs (readStreams_empty s u l.lot hlen)
  rw [hbegin] at hready
  have hend (o : ClapOp) (h : j.instr j.d.pro = some o) : (fun _ => false) o = true := by simp [Job.instr, hwords] at h
  obtain ⟨v, hv, hmem, hran, hunit⟩ := lotRun_storesNothing hready (congrArg ClapUnit.cur (CadS.setUnit_unit ..)) hjob
    (clapRun_stops hend ..) fun _ _ => rfl
  rw [State.setCad_cad, CadS.setUnit_unit] at hunit
  refine gives_next hv ?_
  rw [hunit]
  exact ⟨hmem, hran, rfl, rfl, congrArg (· + 1#32) hlots⟩

end

section
variable {s t : State} {u : Ctrl} {r r' : LotRun} {x' : ClapUnit} {j j' : Job}

/-- The state after the rest of the body, as stage 3 finds it. -/
theorem lotStands_eq_lotBody (h : s.lotAt u r j)
    (hrun : clapRun (fun _ => false) (j.d.lanes r.lot.lot) 257 (s.net.cad.unit u) r j = some (x', r', j')) :
    s.lotBody u (fun _ => false) = s.lotStands u r.lot.job x' r' j' := by
  obtain ⟨-, -, hcur, hjob⟩ := h
  exact lotBody_runs hcur hjob hrun

/-- A lot whose body has stored to one stream writes it, and is counted as run. -/
theorem lotRun_storesOne (h : s.lotAt u r j)
    (hrun : clapRun (fun _ => false) (j.d.lanes r.lot.lot) 257 (s.net.cad.unit u) r j = some (x', r', j'))
    (h8 : r'.written < 8) (hempty : ∀ k, r'.written < k → r'.stores.get [] k = [])
    (hcad : t.net.cad = (s.lotStands u r.lot.job x' r' j').net.cad)
    (hwrite : (s.lotStands u r.lot.job x' r' j').writeStream u j'.d r.lot.lot r'.written (r'.stores.get [] r'.written) = (t, none)) :
    Gives (.lotRun u) s fun v => v.mem = t.mem
      ∧ v.net.cad.job r.lot.job = some { j' with doneLots := j'.doneLots + 1, lastUnit := some u } ∧ v.net.cad.unit u = x'.lotOver := by
  have hlot : r'.lot = r.lot := (clapRun_keeps _ _ _ _ hrun).1
  have hready := lotReady_at h
  obtain ⟨-, -, hcur, hjob⟩ := h
  have hunit := lotStands_unit s u r.lot.job x' r' j'
  have hwritten := writeLot_written (s := s.lotStands u r.lot.job x' r' j') (r := r') (by rw [hunit])
    (by rw [hlot, lotStands_job]) h8 (by rw [hlot]; exact hwrite) 9
  have hjob' : t.net.cad.job r.lot.job = some j' := by rw [hcad, lotStands_job]
  obtain ⟨hmem, hran, hover⟩ := writeLot_rest_empty 9 (t.streamDone u r') { r' with written := r'.written + 1 }
    (by rw [streamDone_unit]) (by rw [hlot]; exact hjob') (by dsimp only; omega) fun k hk => hempty k hk
  rw [streamDone_unit, hcad, hunit] at hover
  exact gives_next ((exec_lotRun_body hready hcur hjob hrun).trans (congrArg _ hwritten)) ⟨hmem, by rw [← hlot]; exact hran, hover⟩

/-- A lot whose write fails ends with the status; memory is as the write left it, but where R335 leaves the range undefined. -/
theorem lotRun_storeFails {st : W32} (h : s.lotAt u r j)
    (hrun : clapRun (fun _ => false) (j.d.lanes r.lot.lot) 257 (s.net.cad.unit u) r j = some (x', r', j'))
    (h8 : r'.written < 8) (hcad : t.net.cad = (s.lotStands u r.lot.job x' r' j').net.cad)
    (hwrite : (s.lotStands u r.lot.job x' r' j').writeStream u j'.d r.lot.lot r'.written (r'.stores.get [] r'.written)
      = (t, some (.status st))) :
    Gives (.lotRun u) s fun v => s.lotLost u r.lot.job j' r.lot.lot st v ∧ (statusCode st / 256 ≠ 3 → v.mem = t.mem) := by
  obtain ⟨hlot, hlots⟩ := clapRun_keeps _ _ _ _ hrun
  have hready := lotReady_at h
  obtain ⟨-, -, hcur, hjob⟩ := h
  have hunit := lotStands_unit s u r.lot.job x' r' j'
  have hfailed := writeLot_failed (s := s.lotStands u r.lot.job x' r' j') (r := r') (by rw [hunit])
    (by rw [hlot, lotStands_job]) h8 (by rw [hlot]; exact hwrite) 9
  generalize hw : (if statusCode st / 256 = 3 then t.undefinedStream u j'.d r'.lot.lot r'.written (r'.stores.get [] r'.written)
    else t) = w at hfailed
  have hwcad : w.net.cad = (s.lotStands u r.lot.job x' r' j').net.cad := by
    rw [← hw, ← hcad]
    split <;> simp
  obtain ⟨hlost, hover⟩ := lotFail_running (s := w) (r := r') (j := j') (by rw [hwcad, hunit]) (by rw [hwcad, hlot, lotStands_job]) st
  rw [hwcad, hunit] at hover
  rw [hlot] at hlost
  refine gives_next ((exec_lotRun_body hready hcur hjob hrun).trans (congrArg _ hfailed)) ⟨⟨hlost, ?_, ?_⟩, fun h3 => ?_⟩
  · rw [hover]
    rfl
  · rw [hover]
    exact congrArg (· + 1#32) hlots
  · rw [← hw, if_neg h3]
    simp

end

/-- Settles O46: a lot that waits, fails, is empty or cannot be read, then one in hand by what its stage 3 writes. -/
theorem clapperLots : Obligations.ClapperLots := by
  refine ⟨fun u s l rest j hfault hserves hcur hbuf hjob => ?begins, fun u s r j x' r' j' h hrun => ?inHand⟩
  case begins =>
    have hready := lotReady_buffered hfault hserves hcur hbuf
    refine ⟨fun hstep => ?waits, fun hstep hbad => ?fails, fun hstep hfault hvalid hdue hunit hbad hlen hpro hwords => ?empty,
      fun t st hruns hlast hnet hread => ?unread⟩
    case waits =>
      have hbegin := hready.trans (lotBegin_waits hbuf hjob (ready_waits hstep u))
      exact gives_next (exec_lotRun_idle hbegin hcur) rfl
    case fails =>
      exact lotRun_fails (hready.trans (lotBegin_fails hbuf hjob (ready_fails hstep hbad))) rfl hcur hbuf hjob
    case empty => exact lotRun_empty hready hbuf hjob (ready_runs hstep hfault hvalid hdue hunit hbad) hlen hpro hwords
    case unread =>
      exact lotRun_fails (hready.trans (lotBegin_unread hbuf hjob hruns (if_pos hlast) hread)) hnet hcur hbuf hjob
  case inHand =>
    rw [lotStands_eq_lotBody h hrun]
    have hready := lotReady_at h
    have hlots : (x'.lotOver).lots = (s.net.cad.unit u).lots + 1#32 := congrArg (· + 1#32) (clapRun_keeps _ _ _ _ hrun).2
    refine ⟨fun hempty => ?nothing, fun t h8 hempty hcad hwrite => ?one,
      fun t st h8 hcad hwrite => lotRun_storeFails h hrun h8 hcad hwrite⟩
    case nothing =>
      obtain ⟨-, -, hcur, hjob⟩ := h
      obtain ⟨v, hv, hmem, hran, hunit⟩ := lotRun_storesNothing hready hcur hjob hrun hempty
      exact gives_next hv ⟨hmem, hran, by rw [hunit]; rfl, by rw [hunit]; exact hlots⟩
    case one =>
      obtain ⟨v, hv, hmem, hran, hunit⟩ := lotRun_storesOne h hrun h8 hempty hcad hwrite
      exact gives_next hv ⟨hmem, hran, by rw [hunit]; rfl, by rw [hunit]; exact hlots⟩

end Sys2Proof.Machine

/-! ## Update jobs

How the dispatcher accepts, refuses and completes a job, and the statement O47 settled from it. -/

namespace Sys2Proof.Machine

/-! ### STATUS and DONE (R330, R336) -/

section
variable {s : State} {a : Nat}

theorem jobStatus_net (s : State) (a : Nat) (st : W32) (ext : Nat) : (s.jobStatus a st ext).net = s.net := by simp

theorem jobStatus_bells (s : State) (a : Nat) (st : W32) (ext : Nat) : (s.jobStatus a st ext).bells = s.bells := by simp

/-- A job's STATUS, where memory takes it: its eight bytes, and no other. -/
theorem jobStatus_writes (hrange : engineRange (a + 0x38) 8 = some .near) (hserves : s.serves (a + 0x38) 4 = true)
    (hclean : s.mem.clean (a + 0x38) 8) (st : W32) (ext : Nat) :
    (s.jobStatus a st ext).mem.load (a + 0x38) 8 = bytesOfNat 4 st.toNat ++ bytesOfNat 4 ext
      ∧ ∀ b, b < a + 0x38 ∨ a + 0x40 ≤ b → (s.jobStatus a st ext).mem.load b 1 = s.mem.load b 1 := by
  have hlen : (bytesOfNat 4 st.toNat ++ bytesOfNat 4 ext).length = 8 := by
    rw [List.length_append, bytesOfNat_length, bytesOfNat_length]
  obtain ⟨w, hwrite, -, -, -, -, hin, hout⟩ := writeMem_ok s true (a + 0x38) 4 (bytesOfNat 4 st.toNat ++ bytesOfNat 4 ext) .near
    (by rw [hlen]; exact hrange) nofun hserves (by rw [hlen]; exact hclean)
  have hstatus : s.jobStatus a st ext = w.route 3 := by rw [State.jobStatus, State.writeMem, hwrite]
  rw [hlen] at hin hout
  rw [hstatus]
  exact ⟨hin, fun b hb => hout b (by omega)⟩

theorem jobDone_silent {d : JobDesc} (h : d.doneEn = false) (unit : Option Ctrl) : s.jobDone d unit = s := if_pos (by simp [h])

/-- DONE counts a release of kind 3 at the job's bell. -/
theorem jobDone_rings {d : JobDesc} {b : Nat} (h : d.doneEn = true) (hb : d.done = b) (hsound : (s.bell b).sound)
    (hn : (s.bell b).count.toNat + 1 < 2 ^ 64) (unit : Option Ctrl) :
    ((s.jobDone d unit).bell b).count = (s.bell b).count + 1#64 ∧ ((s.jobDone d unit).bell b).lkind = 3#3 := by
  subst hb
  unfold State.jobDone
  rw [if_neg (by simp [h])]
  refine evalWaits_P (fun x => x.count = (s.bell d.done).count + 1#64 ∧ x.lkind = 3#3) ⟨fun _ _ h => h, fun _ h _ => h⟩ _ _ _ ?_
  rw [ringBell_sound s.drawn _ 1#64 _ _ _ hsound hn, State.setBell_bell_self]
  exact ⟨rfl, rfl⟩

theorem jobDone_net (s : State) (d : JobDesc) (unit : Option Ctrl) : (s.jobDone d unit).net = s.net := by simp

end

/-! ### A free slot (R329) -/

/-- A read that finds a value finds it listed. -/
theorem mem_of_get_some {α : Type} {m : Map (Option α)} {i : Nat} {x : α} (h : Map.get none m i = some x) : (i, some x) ∈ m := by
  induction m with
  | nil => cases h
  | cons e m ih =>
    obtain ⟨k, v⟩ := e
    unfold Map.get at h
    split at h
    · next hk =>
      subst hk h
      exact List.mem_cons_self
    · exact List.mem_cons_of_mem _ (ih h)

/-- With a job in each of the sixteen slots, sixteen jobs are active. -/
theorem active_of_full {c : CadS} (h : ∀ k : JobSlot, (c.job k).isSome = true) : 16 ≤ c.active := by
  have hsub : List.range 16 ⊆ (c.jobs.filter fun e => e.2.isSome).map Prod.fst := by
    intro i hi
    obtain ⟨x, hx⟩ := Option.isSome_iff_exists.1 (h ⟨i, List.mem_range.1 hi⟩)
    exact List.mem_map.2 ⟨(i, some x), List.mem_filter.2 ⟨mem_of_get_some hx, rfl⟩, rfl⟩
  have hlen := (List.subperm_of_subset List.nodup_range hsub).length_le
  rwa [List.length_range, List.length_map] at hlen

theorem exists_free_slot {c : CadS} (h : c.active < 16) :
    ∃ k, (List.finRange 16).find? (fun k => (c.job k).isNone) = some k ∧ c.job k = none := by
  cases hfind : (List.finRange 16).find? fun k => (c.job k).isNone with
  | some k => exact ⟨k, rfl, by simpa using List.find?_some hfind⟩
  | none =>
    have hfull (k : JobSlot) : (c.job k).isSome = true := by
      simpa [Option.isSome_iff_ne_none] using List.find?_eq_none.1 hfind k (List.mem_finRange k)
    have := active_of_full hfull
    omega

/-! ### Acceptance (R329 to R332) -/

section
variable {s v t : State} {bs im : List Byte} {e : CtxEntry} {a : Nat} {k : JobSlot}

/-- The state after the entry at the head of the update queue is refused with a status. -/
def State.jobRefused (s : State) (a : Nat) (st : W32) : State :=
  ((s.when (st = stHeader) State.flamMismatch).jobStatus a st 0).uqAdvance

/-- A job just accepted. -/
def Job.accepted (a : Nat) (d : JobDesc) (consts : List W32) (words : List W64) : Job :=
  { addr := a, d := d, consts := consts, words := words, counter := 0#64, next := 0, doneLots := 0, failed := none,
    lastUnit := none, bound := none }

/-- A refusal for another reason than the header's pair writes the status and goes on to the next entry. -/
theorem jobRefused_facts {st : W32} (hst : st ≠ stHeader) (hnet : v.net = s.net) (hrange : engineRange (a + 0x38) 8 = some .near)
    (hserves : v.serves (a + 0x38) 4 = true) (hclean : v.mem.clean (a + 0x38) 8) :
    (v.jobRefused a st).mem.load (a + 0x38) 8 = bytesOfNat 4 st.toNat ++ bytesOfNat 4 0
      ∧ (∀ k, (v.jobRefused a st).net.cad.job k = s.net.cad.job k) ∧ (v.jobRefused a st).net.cad.uq = s.net.cad.uq.advance
      ∧ (v.jobRefused a st).bells = v.bells := by
  have hstate : v.jobRefused a st = (v.jobStatus a st 0).uqAdvance := by
    rw [State.jobRefused, decide_eq_false hst, State.when_false]
  have hcad : (v.jobStatus a st 0).net.cad = s.net.cad := by rw [jobStatus_net, hnet]
  rw [hstate, State.uqAdvance, State.setCad_cad, hcad]
  exact ⟨(jobStatus_writes hrange hserves hclean st 0).1, fun _ => rfl, rfl, jobStatus_bells ..⟩

/-- A descriptor that fails a check is refused with the check's status. -/
theorem jobAccept_refused {st : W32} (h : s.jobTaken v bs e) (hcheck : s.net.cad.jobCheck bs (some e.width) = some st) :
    exec .jobAccept s = .next (v.jobRefused (s.net.cad.uq.entry 128) st) := by
  obtain ⟨hready, hactive, hwait, hfault, r, hread, hctx, -⟩ := h
  simp [exec_jobAccept, execJobAccept, State.jobAccept, hready, hactive, hwait, hfault, hread, hctx, hcheck, stOk_eq, State.jobRefused]

/-- A descriptor that passes its checks, with its image read: refused for a bad image, over where N is zero, else a job in the free
slot. -/
theorem jobAccept_loaded (h : s.jobTaken v bs e) (hcheck : s.net.cad.jobCheck bs (some e.width) = none)
    (hread : v.virtRead 4 (JobDesc.ofBytes bs).ctx (JobDesc.ofBytes bs).prog (64 + 8 * (JobDesc.ofBytes bs).plen) = (t, .ok im))
    (hfree : (List.finRange 16).find? (fun k => (s.net.cad.job k).isNone) = some k) {d : JobDesc} {cs : List W32} {ws : List W64}
    (hd : d = JobDesc.ofBytes bs) (hcs : cs = (List.range 16).map fun i => w32At im (4 * i))
    (hws : ws = (List.range d.plen).map fun i => w64At im (64 + 8 * i)) :
    exec .jobAccept s = .next (if d.imageOk cs ws = false then t.jobRefused (s.net.cad.uq.entry 128) stReserved
      else if d.n = 0 then ((t.jobStatus (s.net.cad.uq.entry 128) stOk 0).jobDone d none).uqAdvance
      else (t.setCad (t.net.cad.setJob k (some (Job.accepted (s.net.cad.uq.entry 128) d cs ws)))).uqAdvance) := by
  subst hd hcs hws
  obtain ⟨hready, hactive, hwait, hfault, r, hentry, hctx, -⟩ := h
  simp [exec_jobAccept, execJobAccept, State.jobAccept, hready, hactive, hwait, hfault, hentry, hctx, hcheck, hread, hfree, stOk_eq,
    State.jobRefused, Job.accepted]

end

section
variable {s v t : State} {bs im : List Byte} {e : CtxEntry} {d : JobDesc} {cs : List W32} {ws : List W64}

/-- A whole image of a job with elements becomes an active job in a free slot, nothing counted. -/
theorem jobAccept_activates (h : s.jobTaken v bs e) (hcheck : s.net.cad.jobCheck bs (some e.width) = none)
    (hread : v.virtRead 4 (JobDesc.ofBytes bs).ctx (JobDesc.ofBytes bs).prog (64 + 8 * (JobDesc.ofBytes bs).plen) = (t, .ok im))
    (hnet : t.net = s.net) (hd : d = JobDesc.ofBytes bs) (hcs : cs = (List.range 16).map fun i => w32At im (4 * i))
    (hws : ws = (List.range d.plen).map fun i => w64At im (64 + 8 * i)) (himage : d.imageOk cs ws = true) (hn : d.n ≠ 0) :
    Gives .jobAccept s fun u => u.mem = t.mem ∧ u.net.cad.uq = s.net.cad.uq.advance
      ∧ ∃ k, s.net.cad.job k = none ∧ (∀ q, q ≠ k → u.net.cad.job q = s.net.cad.job q)
        ∧ u.net.cad.job k = some (Job.accepted (s.net.cad.uq.entry 128) d cs ws) := by
  have ⟨_, hactive, _⟩ := h
  obtain ⟨k, hfind, hfree⟩ := exists_free_slot hactive
  have hexec := jobAccept_loaded h hcheck hread hfind hd hcs hws
  rw [if_neg (by simp [himage]), if_neg hn, hnet] at hexec
  exact gives_next hexec ⟨rfl, rfl, k, hfree, fun q hq => CadS.setJob_job_ne _ hq, CadS.setJob_job ..⟩

/-- A job without elements is over at once: its STATUS is written and no slot taken. -/
theorem jobAccept_empty (h : s.jobTaken v bs e) (hcheck : s.net.cad.jobCheck bs (some e.width) = none)
    (hread : v.virtRead 4 (JobDesc.ofBytes bs).ctx (JobDesc.ofBytes bs).prog (64 + 8 * (JobDesc.ofBytes bs).plen) = (t, .ok im))
    (hnet : t.net = s.net) (hd : d = JobDesc.ofBytes bs) (hcs : cs = (List.range 16).map fun i => w32At im (4 * i))
    (hws : ws = (List.range d.plen).map fun i => w64At im (64 + 8 * i)) (himage : d.imageOk cs ws = true) (hn : d.n = 0)
    (hbell : d.doneEn = false) (hrange : engineRange (s.net.cad.uq.entry 128 + 0x38) 8 = some .near)
    (hserves : t.serves (s.net.cad.uq.entry 128 + 0x38) 4 = true) (hclean : t.mem.clean (s.net.cad.uq.entry 128 + 0x38) 8) :
    Gives .jobAccept s fun u => u.mem.load (s.net.cad.uq.entry 128 + 0x38) 8 = bytesOfNat 8 0
      ∧ (∀ k, u.net.cad.job k = s.net.cad.job k) ∧ u.net.cad.uq = s.net.cad.uq.advance := by
  have ⟨_, hactive, _⟩ := h
  obtain ⟨k, hfind, -⟩ := exists_free_slot hactive
  have hexec := jobAccept_loaded h hcheck hread hfind hd hcs hws
  rw [if_neg (by simp [himage]), if_pos hn, jobDone_silent hbell] at hexec
  have hcad : (t.jobStatus (s.net.cad.uq.entry 128) stOk 0).net.cad = s.net.cad := by rw [jobStatus_net, hnet]
  refine gives_next hexec ?_
  rw [State.uqAdvance, State.setCad_cad, hcad]
  exact ⟨(jobStatus_writes hrange hserves hclean stOk 0).1, fun _ => rfl, rfl⟩

/-- An image that is not whole refuses the job. -/
theorem jobAccept_badImage (h : s.jobTaken v bs e) (hcheck : s.net.cad.jobCheck bs (some e.width) = none)
    (hread : v.virtRead 4 (JobDesc.ofBytes bs).ctx (JobDesc.ofBytes bs).prog (64 + 8 * (JobDesc.ofBytes bs).plen) = (t, .ok im))
    (hd : d = JobDesc.ofBytes bs) (hcs : cs = (List.range 16).map fun i => w32At im (4 * i))
    (hws : ws = (List.range d.plen).map fun i => w64At im (64 + 8 * i)) (himage : d.imageOk cs ws = false) :
    exec .jobAccept s = .next (t.jobRefused (s.net.cad.uq.entry 128) stReserved) := by
  have ⟨_, hactive, _⟩ := h
  obtain ⟨k, hfind, -⟩ := exists_free_slot hactive
  exact (jobAccept_loaded h hcheck hread hfind hd hcs hws).trans (congrArg _ (if_pos himage))

end

/-! ### Completion (R336, R337) -/

section
variable {s : State} {k : JobSlot} {j : Job}

/-- The status that a job ends with. -/
def Job.outcome (j : Job) : W32 :=
  match j.failed with
  | none => stOk
  | some f => f.2

/-- The state after a job has written its STATUS, rung DONE and left its slot. -/
def State.jobLeft (s : State) (k : JobSlot) (j : Job) : State := ((s.jobStatus j.addr j.outcome j.ext).jobDone j.d j.lastUnit).jobGone k

theorem unbindJob_cad (s : State) (k : JobSlot) : (s.unbindJob k).net.cad = s.net.cad := by
  unfold State.unbindJob
  generalize List.finRange 16 = l
  refine foldl_keep (fun s : State => s.net.cad) _ (fun s p => ?_) l s
  split
  · rfl
  · split <;> rfl

/-- What does not depend on the units is of the Cadence state as the emptied slot leaves it. -/
theorem jobGone_keeps {α : Type} (g : CadS → α) (hg : ∀ c u x, g (CadS.setUnit c u x) = g c) (s : State) (k : JobSlot) :
    g (s.jobGone k).net.cad = g (s.net.cad.setJob k none) := by
  rw [State.jobGone, unbindJob_cad, State.setCad_cad]
  generalize List.finRange 24 = l
  refine foldl_keep g _ (fun c u => ?_) l _
  split
  · exact hg ..
  · rfl

/-- What is listed after a slot is emptied was listed before, at another slot. -/
theorem mem_set_unlisted {α : Type} [DecidableEq α] {d : α} {m : Map α} {i : Nat} {e : Nat × α} (h : e ∈ m.set d i d) :
    e ∈ m ∧ e.1 ≠ i := by
  simp only [Map.set, Map.setRun, Map.setRunBy, Map.cells, if_true, List.nil_append, List.length_singleton, List.mem_append] at h
  obtain h | h := h
  · exact ⟨(List.mem_filter.1 h).1, Nat.ne_of_lt (Map.mem_below h)⟩
  · exact ⟨(List.mem_filter.1 h).1, Nat.ne_of_gt (Map.mem_from h)⟩

/-- The job that leaves was the last of its step. -/
theorem stepBusy_left {c : CadS} (h : ∀ e ∈ c.jobs, e.1 ≠ k.val → ∀ y, e.2 = some y → y.d.step ≠ c.step) :
    (c.setJob k none).stepBusy = false := by
  refine List.any_eq_false.2 fun e he => ?_
  obtain ⟨hmem, hne⟩ := mem_set_unlisted he
  split
  · next y hy => exact (decide_eq_true_iff.not).2 (h e hmem hne y hy)
  · simp

theorem stepAdvance_cad (s : State) : (s.stepAdvance).net.cad.step = s.net.cad.step + 1#64 ∧ s.stepAdvance.net.cad.pend = false
    ∧ s.stepAdvance.net.cad.jobs = s.net.cad.jobs := by
  rw [State.stepAdvance, stepChanged_cad]
  exact ⟨CadS.changed_step _, CadS.changed_pend _, CadS.changed_jobs _⟩

/-- JOB_COMPLETE of a job without lots outstanding: the job leaves, and the last one of a step lets a pending advance take effect. -/
theorem jobComplete_over (hjob : s.net.cad.job k = some j) (hlots : j.d.lots ≤ j.doneLots) :
    exec (.jobComplete k) s = .next (if (s.jobLeft k j).net.cad.pend && !(s.jobLeft k j).net.cad.stepBusy
      then (s.jobLeft k j).stepAdvance else s.jobLeft k j) := by
  unfold State.jobLeft Job.outcome
  cases hfailed : j.failed <;> simp only [exec_jobComplete, execJobComplete, hjob, Nat.not_lt.2 hlots, if_false, hfailed]

theorem jobLeft_mem (s : State) (k : JobSlot) (j : Job) : (s.jobLeft k j).mem = (s.jobStatus j.addr j.outcome j.ext).mem := by
  simp [State.jobLeft]

theorem jobLeft_bells (s : State) (k : JobSlot) (j : Job) :
    (s.jobLeft k j).bells = ((s.jobStatus j.addr j.outcome j.ext).jobDone j.d j.lastUnit).bells := by
  simp [State.jobLeft]

theorem jobLeft_keeps {α : Type} (g : CadS → α) (hg : ∀ c u x, g (CadS.setUnit c u x) = g c) (s : State) (k : JobSlot) (j : Job) :
    g (s.jobLeft k j).net.cad = g (s.net.cad.setJob k none) := by
  rw [State.jobLeft, jobGone_keeps g hg, jobDone_net, jobStatus_net]

/-- The slots are as before, but for the one that the job has left. -/
theorem slots_left {c : CadS} (hc : c.jobs = (s.jobLeft k j).net.cad.jobs) :
    c.job k = none ∧ ∀ q, q ≠ k → c.job q = s.net.cad.job q := by
  have hread (q : JobSlot) : c.job q = (s.net.cad.setJob k none).job q := by
    rw [CadS.job, hc, jobLeft_keeps CadS.jobs fun _ _ _ => rfl, CadS.job]
  exact ⟨(hread k).trans (CadS.setJob_job ..), fun q hq => (hread q).trans (CadS.setJob_job_ne _ hq)⟩

/-- What a job that leaves shows of the state: memory and bells as STATUS and DONE leave them, its slot empty, and the counter. -/
theorem jobComplete_gives (hjob : s.net.cad.job k = some j) (hlots : j.d.lots ≤ j.doneLots) :
    Gives (.jobComplete k) s fun u => u.mem = (s.jobStatus j.addr j.outcome j.ext).mem
      ∧ u.bells = ((s.jobStatus j.addr j.outcome j.ext).jobDone j.d j.lastUnit).bells
      ∧ u.net.cad.job k = none ∧ (∀ q, q ≠ k → u.net.cad.job q = s.net.cad.job q)
      ∧ (s.net.cad.pend = true → (s.net.cad.setJob k none).stepBusy = false →
          u.net.cad.step = s.net.cad.step + 1#64 ∧ u.net.cad.pend = false)
      ∧ (s.net.cad.pend = false → u.net.cad.step = s.net.cad.step) := by
  have hstep : (s.jobLeft k j).net.cad.step = s.net.cad.step := jobLeft_keeps CadS.step (fun _ _ _ => rfl) ..
  have hpend : (s.jobLeft k j).net.cad.pend = s.net.cad.pend := jobLeft_keeps CadS.pend (fun _ _ _ => rfl) ..
  have hbusy := jobLeft_keeps CadS.stepBusy (fun _ _ _ => rfl) s k j
  have hexec := jobComplete_over hjob hlots
  by_cases hgo : (s.jobLeft k j).net.cad.pend && !(s.jobLeft k j).net.cad.stepBusy
  case pos =>
    rw [if_pos hgo] at hexec
    obtain ⟨hadvanced, hdone, hjobs⟩ := stepAdvance_cad (s.jobLeft k j)
    obtain ⟨hgone, hothers⟩ := slots_left hjobs
    refine gives_next hexec ⟨by simp [jobLeft_mem], by simp [jobLeft_bells], hgone, hothers,
      fun _ _ => ⟨by rw [hadvanced, hstep], hdone⟩, fun h => ?_⟩
    simp [hpend, h] at hgo
  case neg =>
    rw [if_neg hgo] at hexec
    obtain ⟨hgone, hothers⟩ := slots_left (s := s) (k := k) (j := j) rfl
    refine gives_next hexec ⟨jobLeft_mem s k j, jobLeft_bells s k j, hgone, hothers, fun hp hb => ?_, fun _ => hstep⟩
    simp [hpend, hp, hbusy, hb] at hgo

/-- The bytes of a job's STATUS as R336 gives them: the lowest failed lot's status and index, or the job's counter. -/
theorem statusBytes_eq (j : Job) : bytesOfNat 4 j.outcome.toNat ++ bytesOfNat 4 j.ext
    = bytesOfNat 4 (match j.failed with | none => 0 | some f => f.2.toNat)
      ++ bytesOfNat 4 (match j.failed with | none => min j.counter.toNat 0xFFFFFFFF | some f => f.1 % 2 ^ 32) := by
  unfold Job.outcome Job.ext
  cases j.failed <;> rfl

end

/-- Settles O47: a descriptor refused by a check or accepted by its image, then the end of a job, silent or with DONE, and a job with
lots outstanding. -/
theorem clapperJobs : Obligations.ClapperJobs := by
  refine ⟨?accepts, ?silent, ?rings, fun k s j hjob hlots => ?outstanding⟩
  case accepts =>
    rintro s v bs e _ h rfl
    have ⟨_, _, _, _, _, _, _, hnet⟩ := h
    refine ⟨fun st hcheck hst hrange hserves hclean => gives_next (jobAccept_refused h hcheck)
        (jobRefused_facts hst hnet hrange hserves hclean), fun t im d cs ws hcheck hd hread hnet' hcs hws => ?_⟩
    rw [hd] at hread
    refine ⟨fun himage hn => jobAccept_activates h hcheck hread hnet' hd hcs hws himage hn,
      fun himage hn hbell hrange hserves hclean => jobAccept_empty h hcheck hread hnet' hd hcs hws himage hn hbell hrange hserves hclean,
      fun himage hrange hserves hclean => ?_⟩
    obtain ⟨hload, hjobs, huq, -⟩ := jobRefused_facts (st := stReserved) (by decide) hnet' hrange hserves hclean
    exact gives_next (jobAccept_badImage h hcheck hread hd hcs hws himage) ⟨hload, hjobs, huq⟩
  case silent =>
    intro k s j hjob hlots _ hrange hserves hclean
    obtain ⟨u, hu, hmem, -, hgone, hothers, hadvance, hstays⟩ := jobComplete_gives hjob hlots
    obtain ⟨hin, hout⟩ := jobStatus_writes hrange hserves hclean j.outcome j.ext
    rw [← hmem] at hin hout
    exact gives_next hu ⟨hgone, hothers, hout, hin.trans (statusBytes_eq j),
      fun hpend hlast => hadvance hpend (stepBusy_left hlast), hstays⟩
  case rings =>
    intro k s j b hjob hlots hbell hb hsound hn hrange hserves hclean
    obtain ⟨u, hu, hmem, hbells, hgone, -⟩ := jobComplete_gives hjob hlots
    obtain ⟨hin, -⟩ := jobStatus_writes hrange hserves hclean j.outcome j.ext
    have hsame := bell_of_bells (jobStatus_bells s j.addr j.outcome j.ext) b.val
    obtain ⟨hcount, hkind⟩ := jobDone_rings (s := s.jobStatus j.addr j.outcome j.ext) hbell hb (hsame ▸ hsound) (hsame ▸ hn)
      j.lastUnit
    rw [← bell_of_bells hbells, hsame] at hcount
    rw [← bell_of_bells hbells] at hkind
    rw [← hmem] at hin
    exact gives_next hu ⟨hgone, hcount, hkind, hin.trans (statusBytes_eq j)⟩
  case outstanding =>
    have hexec : exec (.jobComplete k) s = .next s := by
      simp only [exec_jobComplete, execJobComplete, hjob, hlots, if_true]
    exact gives_next hexec rfl

end Sys2Proof.Machine

/-! ## The packets of a Hoop link

What the shared operations leave of a link and of its lanes, what a good packet, link control and a retrain do, and the statement O49
settled from it. -/

namespace Sys2Proof.Machine

/-! ### A link after the operations that do not speak of it -/

section
variable (s : State) (l : LinkId)

theorem hoop_of_net {s u : State} (h : u.net = s.net) (l : LinkId) : u.hoop l = s.hoop l := congrArg (fun n : NetS => n.hoop l) h

@[simp] theorem drawn_hoop : s.drawn.hoop l = s.hoop l := rfl
@[simp] theorem answer_hoop (c : W32) (b : List Byte) : (s.answer c b).hoop l = s.hoop l := rfl
@[simp] theorem raiseHoop_hoop (c t : Nat) (k : LinkId) (b : List Byte) : (s.raiseHoop c t k b).hoop l = s.hoop l :=
  hoop_of_net (raise_net ..) l
@[simp] theorem unitLeft_hoop (kind unit cause : Nat) : (s.unitLeft kind unit cause).hoop l = s.hoop l := hoop_of_net (raise_net ..) l

theorem routeMap_hoop (n : NetS) (m : BitVec 20) (l : LinkId) : ({ n with routeMap := m } : NetS).hoop l = n.hoop l := rfl

/-- The choice of routes changes no link. -/
@[simp] theorem reroute_hoop : ({ s with net := s.net.reroute } : State).hoop l = s.hoop l := routeMap_hoop s.net _ l

/-- A fenced link shows its cause, and is otherwise as it was. -/
@[simp] theorem fence_hoop (cause : Nat) : (s.fence l cause).hoop l = { s.hoop l with state := 3, cause := cause } := by
  unfold State.fence
  dsimp only
  rw [raiseHoop_hoop, reroute_hoop, State.setHoop_hoop_self]

end

/-! ### Retrain points, CRC failures and violations (R354 to R356) -/

/-- A link at the start of a retrain. -/
def HoopLink.retraining (x : HoopLink) : HoopLink :=
  { x with state := 1, full := false, retrains := satInc32 x.retrains, recent := x.recent + 1, crcFwd := 0, crcRev := 0 }

/-- A link with one more packet of a direction that failed its CRC. -/
def HoopLink.crcCounted (x : HoopLink) (rev : Bool) : HoopLink :=
  let n := (if rev then x.crcRev else x.crcFwd) + 1
  { x with crcErr := satInc64 x.crcErr, crcFwd := if rev then x.crcFwd else n, crcRev := if rev then n else x.crcRev }

section
variable {s : State} {l : LinkId}

/-- A retrain point of an UP link fences it where sixteen retrains stand within the second, else it retrains. -/
theorem hoopRetrain_hoop (h : (s.hoop l).state = 2) : (s.hoopRetrain l).hoop l
    = if 16 ≤ (s.hoop l).recent ∧ Config.freeChoice s.fresh 0 = true then { s.hoop l with state := 3, cause := 3 }
      else (s.hoop l).retraining := by
  simp only [State.hoopRetrain, h, ne_eq, not_true_eq_false, if_false, ge_iff_le, Bool.and_eq_true, decide_eq_true_eq]
  split
  · rw [fence_hoop, drawn_hoop]
  · rw [drawn_hoop, State.setHoop_hoop_self]
    rfl

theorem hoopRetrain_retrains (h : (s.hoop l).state = 2) (hrecent : (s.hoop l).recent < 16 ∨ Config.freeChoice s.fresh 0 = false) :
    (s.hoopRetrain l).hoop l = (s.hoop l).retraining := by
  rw [hoopRetrain_hoop h, if_neg]
  rintro ⟨hmany, hdraw⟩
  rcases hrecent with hfew | hdraw'
  · omega
  · simp [hdraw'] at hdraw

/-- Before the eighth CRC failure of a direction the link stays as it is, the failure counted. -/
theorem hoopCrc_hoop {rev : Bool} (h : (if rev then (s.hoop l).crcRev else (s.hoop l).crcFwd) < 7) :
    (s.hoopCrc l rev).hoop l = (s.hoop l).crcCounted rev := by
  have hfew : ¬ 8 ≤ (if rev then (s.hoop l).crcRev else (s.hoop l).crcFwd) + 1 := by omega
  simp only [State.hoopCrc, ge_iff_le, hfew, decide_false, Bool.false_and, Bool.false_eq_true, if_false, drawn_hoop,
    State.setHoop_hoop_self]
  rfl

theorem hoopViolation_hoop (h : (s.hoop l).state = 2) (hrecent : (s.hoop l).recent < 16) (rev : Bool) (word : Nat) :
    (s.hoopViolation l rev word).hoop l
      = HoopLink.retraining { s.hoop l with violations := satInc32 (s.hoop l).violations } := by
  unfold State.hoopViolation
  rw [hoopRetrain_retrains] <;> simp only [raiseHoop_hoop, State.setHoop_hoop_self]
  · exact h
  · exact .inl hrecent

theorem retrain_discarded (h : (s.hoop l).state = 1 ∨ (s.hoop l).state = 3) : exec (.retrain l) s = .next s.discard :=
  congrArg Host.Outcome.next (if_pos (by simpa using h))

theorem exec_retrain_up (h : (s.hoop l).state = 2) : exec (.retrain l) s = .next (s.hoopRetrain l) :=
  congrArg Host.Outcome.next (if_neg (by simp [h]))

end

/-! ### The lanes of a link -/

section
variable (x : HoopLink) (c : Nat) (r : Bool) (v : HoopLane)

@[simp] theorem setLane_lane_self : (x.setLane c r v).lane c r = v := Map.get_set_self ..

theorem setLane_lane_ne {c' : Nat} {r' : Bool} (h : laneKey c' r' ≠ laneKey c r) : (x.setLane c r v).lane c' r' = x.lane c' r' :=
  Map.get_set_ne _ _ _ _ _ _ h

/-- Two classes of one direction have lanes of their own. -/
theorem laneKey_ne {c c' : Nat} (h : c ≠ c') : laneKey c r ≠ laneKey c' r := by
  unfold laneKey
  omega

end

/-! ### A good packet at its receiver (R353, R354) -/

namespace HoopLane

/-- The arrival of a packet tells of the sender what it has sent and spent, and nothing of the receiver. -/
theorem sent_eq (x : HoopLane) (q : BitVec 12) : ∃ t n, x.sent q = { x with txNext := t, spent := n } := by
  unfold sent
  dsimp only
  split
  · exact ⟨_, _, rfl⟩
  · exact ⟨x.txNext, x.spent, rfl⟩

theorem deliverHeld_none {x : HoopLane} (h : x.rxNext ∉ x.held) (fuel : Nat) : x.deliverHeld fuel = x := by
  cases fuel with
  | zero => rfl
  | succ n => exact if_neg (by simpa using h)

theorem deliverHeld_next {x : HoopLane} (h : x.rxNext ∈ x.held) (n : Nat) : x.deliverHeld (n + 1)
    = HoopLane.deliverHeld { x with held := x.held.erase x.rxNext, rxNext := x.rxNext + 1#12, freed := (x.freed + 1) % 1024 } n :=
  if_pos (by simpa using h)

/-- A delivery changes what the receiver holds, waits for and has freed. -/
theorem deliverHeld_keeps (x : HoopLane) (fuel : Nat) : ∃ h q n, x.deliverHeld fuel = { x with held := h, rxNext := q, freed := n } := by
  induction fuel generalizing x with
  | zero => exact ⟨_, _, _, rfl⟩
  | succ n ih =>
    by_cases h : x.rxNext ∈ x.held
    · rw [deliverHeld_next h]
      exact ih _
    · exact ⟨_, _, _, deliverHeld_none h _⟩

/-- A packet delivers those that follow it, is held, is dropped for want of room, or has been delivered before. -/
theorem take_eq (x : HoopLane) (q : BitVec 12) : ∃ t n, x.take q
    = if (q - x.rxNext).toNat = 0 then
        deliverHeld { x with txNext := t, spent := n, rxNext := x.rxNext + 1#12, freed := (x.freed + 1) % 1024, owed := true } 512
      else if (q - x.rxNext).toNat < 2047 then
        if x.held.contains q || x.held.length ≥ 511 then { x with txNext := t, spent := n }
        else { x with txNext := t, spent := n, held := q :: x.held }
      else { x with txNext := t, spent := n, owed := true } := by
  obtain ⟨t, n, hsent⟩ := x.sent_eq q
  refine ⟨t, n, ?_⟩
  unfold take
  rw [hsent]

/-- The packet that the receiver waits for is delivered, alone where none is held. -/
theorem take_alone {x : HoopLane} (h : x.held = []) : ∃ t n, x.take x.rxNext
    = { x with txNext := t, spent := n, rxNext := x.rxNext + 1#12, freed := (x.freed + 1) % 1024, owed := true } := by
  obtain ⟨t, n, htake⟩ := x.take_eq x.rxNext
  exact ⟨t, n, by rw [htake, if_pos (by simp), deliverHeld_none (by simp [h])]⟩

theorem take_followed {x : HoopLane} (h : x.held = [x.rxNext + 1#12]) : ∃ t n f, x.take x.rxNext
    = { x with txNext := t, spent := n, held := [], rxNext := x.rxNext + 1#12 + 1#12, freed := f, owed := true } := by
  obtain ⟨t, n, htake⟩ := x.take_eq x.rxNext
  refine ⟨t, n, ((x.freed + 1) % 1024 + 1) % 1024, ?_⟩
  rw [htake, if_pos (by simp), deliverHeld_next (by simp [h]), deliverHeld_none (by simp [h])]
  simp [h]

/-- A packet behind which one is missing is held, where there is room. -/
theorem take_early {x : HoopLane} {q : BitVec 12} (h0 : 0 < (q - x.rxNext).toNat) (h : (q - x.rxNext).toNat < 2047)
    (hnew : q ∉ x.held) (hroom : x.held.length < 511) : ∃ t n, x.take q = { x with txNext := t, spent := n, held := q :: x.held } := by
  obtain ⟨t, n, htake⟩ := x.take_eq q
  exact ⟨t, n, by rw [htake, if_neg (Nat.ne_of_gt h0), if_pos h, if_neg (by simpa [hnew] using hroom)]⟩

/-- A packet delivered before is dropped, and an acknowledgement owed. -/
theorem take_late {x : HoopLane} {q : BitVec 12} (h : 2047 ≤ (q - x.rxNext).toNat) :
    ∃ t n, x.take q = { x with txNext := t, spent := n, owed := true } := by
  obtain ⟨t, n, htake⟩ := x.take_eq q
  exact ⟨t, n, by rw [htake, if_neg (by omega), if_neg (by omega)]⟩

/-- No packet changes what its sender has seen acknowledged, or takes back a replay that is owed. -/
theorem take_keeps (x : HoopLane) (q : BitVec 12) : (x.take q).acked = x.acked ∧ (x.take q).replayOwed = x.replayOwed := by
  obtain ⟨t, n, htake⟩ := x.take_eq q
  rw [htake]
  split
  · obtain ⟨_, _, _, hdeliver⟩ := deliverHeld_keeps
      { x with txNext := t, spent := n, rxNext := x.rxNext + 1#12, freed := (x.freed + 1) % 1024, owed := true } 512
    rw [hdeliver]
    exact ⟨rfl, rfl⟩
  · split
    · split <;> exact ⟨rfl, rfl⟩
    · exact ⟨rfl, rfl⟩

end HoopLane

/-! ### HOOP_PACKET (R352 to R354) -/

section
variable {s : State} {l : LinkId} {rev : Bool} {p : HoopPkt}

theorem hoopPacket_good (hstate : (s.hoop l).state = 2) (hcrc : p.crcGood = true) (hgen : p.gen = 1#4) (hrsv : p.rsv = 0#14)
    (hcls : p.cls.toNat < 2) : exec (.hoopPacket l rev p) s
      = .next (s.setHoop l ((s.hoop l).setLane p.cls.toNat rev (((s.hoop l).lane p.cls.toNat rev).take p.seq))) := by
  have h2 : p.cls.toNat ≠ 2 := by omega
  have h3 : p.cls.toNat ≠ 3 := by omega
  simp [exec_hoopPacket, execHoopPacket, hstate, hcrc, hgen, hrsv, h2, h3]

theorem hoopPacket_bad (hstate : (s.hoop l).state = 2) (hcrc : p.crcGood = false) (hcls : p.cls.toNat < 2) :
    exec (.hoopPacket l rev p) s = .next (State.hoopCrc (s.setHoop l ((s.hoop l).setLane p.cls.toNat rev
      { (s.hoop l).lane p.cls.toNat rev with replayOwed := true })) l rev) := by
  simp [exec_hoopPacket, execHoopPacket, hstate, hcrc, hcls]

theorem hoopPacket_violates (hstate : (s.hoop l).state = 2) (hcrc : p.crcGood = true)
    (h : p.gen ≠ 1#4 ∨ p.cls = 3#2 ∨ p.rsv ≠ 0#14) : exec (.hoopPacket l rev p) s = .next (s.hoopViolation l rev
      (p.gen.toNat + 16 * p.cls.toNat + 64 * p.seq.toNat + 2 ^ 18 * p.rsv.toNat)) := by
  have hbad : (p.gen ≠ 1#4 || p.cls.toNat = 3 || p.rsv ≠ 0#14) = true := by
    rcases h with h | h | h <;> simp [h]
  simp only [exec_hoopPacket, execHoopPacket, hstate, hcrc, hbad, ne_eq, not_true_eq_false, Bool.not_true, Bool.false_eq_true,
    if_false, if_true]

theorem hoopPacket_good_gives {y : HoopLane} (hstate : (s.hoop l).state = 2) (hcrc : p.crcGood = true) (hgen : p.gen = 1#4)
    (hrsv : p.rsv = 0#14) (hcls : p.cls.toNat < 2) (hy : y = (s.hoop l).lane p.cls.toNat rev) :
    Gives (.hoopPacket l rev p) s fun u =>
      (∀ c r, laneKey c r ≠ laneKey p.cls.toNat rev → (u.hoop l).lane c r = (s.hoop l).lane c r)
        ∧ (u.hoop l).state = 2 ∧ ∃ z, (u.hoop l).lane p.cls.toNat rev = z ∧ z.acked = y.acked ∧ z.replayOwed = y.replayOwed
        ∧ (p.seq = y.rxNext → y.held = [] → z.rxNext = y.rxNext + 1#12 ∧ z.freed = (y.freed + 1) % 1024 ∧ z.owed = true ∧ z.held = [])
        ∧ (p.seq = y.rxNext → y.held = [p.seq + 1#12] → z.rxNext = y.rxNext + 2#12 ∧ z.owed = true ∧ z.held = [])
        ∧ (0 < (p.seq - y.rxNext).toNat → (p.seq - y.rxNext).toNat < 2047 → p.seq ∉ y.held → y.held.length < 511 →
            z.rxNext = y.rxNext ∧ z.held = p.seq :: y.held ∧ z.freed = y.freed)
        ∧ (2047 ≤ (p.seq - y.rxNext).toNat → z.rxNext = y.rxNext ∧ z.held = y.held ∧ z.freed = y.freed ∧ z.owed = true) := by
  refine gives_next (hoopPacket_good hstate hcrc hgen hrsv hcls) ?_
  rw [State.setHoop_hoop_self, ← hy]
  refine ⟨fun c r hne => setLane_lane_ne _ _ _ _ hne, hstate, y.take p.seq, setLane_lane_self .., (y.take_keeps p.seq).1,
    (y.take_keeps p.seq).2, fun hseq hheld => ?_, fun hseq hheld => ?_, fun h0 hlt hnew hroom => ?_, fun hlate => ?_⟩
  · obtain ⟨t, n, htake⟩ := HoopLane.take_alone hheld
    rw [hseq, htake]
    exact ⟨rfl, rfl, rfl, hheld⟩
  · rw [hseq] at hheld
    obtain ⟨t, n, f, htake⟩ := HoopLane.take_followed hheld
    rw [hseq, htake]
    exact ⟨BitVec.add_assoc .., rfl, rfl⟩
  · obtain ⟨t, n, htake⟩ := HoopLane.take_early h0 hlt hnew hroom
    rw [htake]
    exact ⟨rfl, rfl, rfl⟩
  · obtain ⟨t, n, htake⟩ := HoopLane.take_late hlate
    rw [htake]
    exact ⟨rfl, rfl, rfl, rfl⟩

end

/-! ### Link control (R353, R354) -/

/-- An acknowledgement that is valid and of packets in flight is taken, and the credits returned are no longer spent. -/
theorem HoopLane.learn_eq (x : HoopLane) (ack : BitVec 12) (av : Bool) (cr : BitVec 10) : x.learn ack av cr
    = { x with acked := if av = true ∧ (ack - x.acked).toNat ≤ x.inFlight then ack else x.acked
               spent := x.spent - (cr.toNat + 1024 - x.crSeen) % 1024, crSeen := cr.toNat } := by
  unfold HoopLane.learn
  by_cases h : av = true ∧ (ack - x.acked).toNat ≤ x.inFlight
  · rw [if_pos h, if_pos (by simpa using h)]
  · rw [if_neg h, if_neg (by simpa using h)]

/-- Without a valid acknowledgement only the credits change. -/
theorem HoopLane.learn_credits (x : HoopLane) (ack : BitVec 12) (cr : BitVec 10) : x.learn ack false cr
    = { x with spent := x.spent - (cr.toNat + 1024 - x.crSeen) % 1024, crSeen := cr.toNat } := rfl

/-- A link whose senders have learnt what a link control packet of the other direction says. -/
def HoopLink.learned (x : HoopLink) (rev : Bool) (p : HoopCtl) : HoopLink :=
  let y := x.setLane 0 (!rev) ((x.lane 0 (!rev)).learn p.ackReq p.avReq p.crReq)
  y.setLane 1 (!rev) ((y.lane 1 (!rev)).learn p.ackRsp p.avRsp p.crRsp)

section
variable (x : HoopLink) (rev : Bool) (p : HoopCtl)

theorem learned_requests : (x.learned rev p).lane 0 (!rev) = (x.lane 0 (!rev)).learn p.ackReq p.avReq p.crReq := by
  rw [HoopLink.learned, setLane_lane_ne _ _ _ _ (laneKey_ne _ (by decide)), setLane_lane_self]

theorem learned_responses : (x.learned rev p).lane 1 (!rev) = (x.lane 1 (!rev)).learn p.ackRsp p.avRsp p.crRsp := by
  rw [HoopLink.learned, setLane_lane_self, setLane_lane_ne _ _ _ _ (laneKey_ne _ (by decide))]

/-- A link control packet without acknowledgements changes the credits of a lane alone. -/
theorem learned_credits (hq : p.avReq = false) (hr : p.avRsp = false) : ∃ n k, (x.learned rev p).lane p.rclass.toNat (!rev)
    = { x.lane p.rclass.toNat (!rev) with spent := n, crSeen := k } := by
  cases hclass : p.rclass with
  | false => exact ⟨_, _, by rw [Bool.toNat_false, learned_requests, hq, HoopLane.learn_credits]⟩
  | true => exact ⟨_, _, by rw [Bool.toNat_true, learned_responses, hr, HoopLane.learn_credits]⟩

end

/-- A lane of which a packet has been replayed, once more or for the first time. -/
def HoopLane.replayed (y : HoopLane) (q : BitVec 12) : HoopLane :=
  { y with replaySeq := q, replays := if y.replays ≠ 0 && y.replaySeq = q then y.replays + 1 else 1 }

theorem replayed_few {y : HoopLane} {q : BitVec 12} (h : y.replays < 7 ∨ y.replaySeq ≠ q) : (y.replayed q).replays < 8 := by
  unfold HoopLane.replayed
  dsimp only
  split
  · next hsame =>
    have hseq : y.replaySeq = q := by simpa using (Bool.and_eq_true_iff.1 hsame).2
    have := h.resolve_right (not_not_intro hseq)
    omega
  · decide

section
variable {s : State} {l : LinkId} {rev : Bool} {p : HoopCtl}

theorem linkControl_bad (hstate : (s.hoop l).state = 2) (hcrc : p.crcGood = false) :
    exec (.linkControl l rev p) s = .next (s.hoopCrc l rev) := by
  simp [exec_linkControl, execLinkControl, hstate, hcrc]

theorem linkControl_learns (hstate : (s.hoop l).state = 2) (hcrc : p.crcGood = true) (hrsv : p.rsv = false) :
    exec (.linkControl l rev p) s = .next (let s1 := s.setHoop l ((s.hoop l).learned rev p)
      if p.rreq then s1.hoopReplay l p.rclass.toNat (!rev) p.rseq else s1) := by
  simp only [exec_linkControl, execLinkControl, hstate, hcrc, hrsv, ne_eq, not_true_eq_false, Bool.not_true, Bool.false_eq_true, if_false]
  rfl

/-- The replay of a packet in flight, before its eighth, is counted and remembered. -/
theorem hoopReplay_hoop {c : Nat} {r : Bool} {q : BitVec 12} {y : HoopLane} (hy : y = (s.hoop l).lane c r)
    (hflight : (q - y.acked - 1#12).toNat < y.inFlight) (hfew : y.replays < 7 ∨ y.replaySeq ≠ q) :
    (s.hoopReplay l c r q).hoop l
      = { (s.hoop l).setLane c r (y.replayed q) with replayCount := satInc64 (s.hoop l).replayCount } := by
  have hseven : ¬ 8 ≤ (y.replayed q).replays := Nat.not_le.2 (replayed_few hfew)
  unfold State.hoopReplay
  dsimp only
  rw [← hy, if_neg (Nat.not_le.2 hflight)]
  exact (congrArg (State.hoop · l) (if_neg hseven)).trans (State.setHoop_hoop_self ..)

theorem linkControl_learns_gives (hstate : (s.hoop l).state = 2) (hcrc : p.crcGood = true) (hrsv : p.rsv = false)
    (hrreq : p.rreq = false) : Gives (.linkControl l rev p) s fun u =>
      ∀ e ∈ ([(0, p.ackReq, p.avReq, p.crReq), (1, p.ackRsp, p.avRsp, p.crRsp)] : List (Nat × BitVec 12 × Bool × BitVec 10)),
        ∃ y z, y = (s.hoop l).lane e.1 (!rev) ∧ z = (u.hoop l).lane e.1 (!rev)
          ∧ z.acked = (if e.2.2.1 = true ∧ (e.2.1 - y.acked).toNat ≤ y.inFlight then e.2.1 else y.acked)
          ∧ z.spent = y.spent - (e.2.2.2.toNat + 1024 - y.crSeen) % 1024 ∧ z.crSeen = e.2.2.2.toNat ∧ z.txNext = y.txNext := by
  refine gives_next (linkControl_learns hstate hcrc hrsv) ?_
  simp only [hrreq, Bool.false_eq_true, if_false, State.setHoop_hoop_self, List.forall_mem_cons, learned_requests, learned_responses,
    HoopLane.learn_eq]
  exact ⟨⟨_, _, rfl, rfl, rfl, rfl, rfl, rfl⟩, ⟨_, _, rfl, rfl, rfl, rfl, rfl, rfl⟩, List.forall_mem_nil _⟩

theorem linkControl_replays_gives {y : HoopLane} (hstate : (s.hoop l).state = 2) (hcrc : p.crcGood = true) (hrsv : p.rsv = false)
    (hrreq : p.rreq = true) (hq : p.avReq = false) (hr : p.avRsp = false) (hy : y = (s.hoop l).lane p.rclass.toNat (!rev))
    (hflight : (p.rseq - y.acked - 1#12).toNat < y.inFlight) (hfew : y.replays < 7 ∨ y.replaySeq ≠ p.rseq) :
    Gives (.linkControl l rev p) s fun u => (u.hoop l).state = 2 ∧ (u.hoop l).replayCount = satInc64 (s.hoop l).replayCount
      ∧ ((u.hoop l).lane p.rclass.toNat (!rev)).replaySeq = p.rseq := by
  obtain ⟨n, k, hlane⟩ := learned_credits (s.hoop l) rev p hq hr
  have hreplay := hoopReplay_hoop (s := s.setHoop l ((s.hoop l).learned rev p)) (l := l) (c := p.rclass.toNat) (r := !rev)
    (q := p.rseq) (y := { y with spent := n, crSeen := k }) (by rw [State.setHoop_hoop_self, hlane, hy]) hflight hfew
  refine gives_next (linkControl_learns hstate hcrc hrsv) ?_
  simp only [hrreq, if_true, hreplay, State.setHoop_hoop_self]
  exact ⟨hstate, rfl, congrArg HoopLane.replaySeq (setLane_lane_self ..)⟩

theorem linkControlSend_owed (hstate : (s.hoop l).state = 2)
    (h : ((s.hoop l).lane 0 (!rev)).owed = true ∨ ((s.hoop l).lane 1 (!rev)).owed = true) : exec (.linkControlSend l rev) s
      = .next ((s.setHoop l ((s.hoop l).control rev).1).answer 0#32 ((s.hoop l).control rev).2) :=
  congrArg Host.Outcome.next (if_neg (by rcases h with h | h <;> simp [hstate, h]))

theorem bytesOfNat_zero (n : Nat) : bytesOfNat n 0 = List.replicate n 0#8 := by simp [bytesOfNat, List.map_const']

/-- The payload of link control from lanes that have delivered packets and ask for no replay. -/
theorem control_payload {x : HoopLink} (ha : (x.lane 0 (!rev)).replayOwed = false) (hb : (x.lane 1 (!rev)).replayOwed = false)
    (hna : (x.lane 0 (!rev)).rxNext ≠ 0#12) (hnb : (x.lane 1 (!rev)).rxNext ≠ 0#12) : (x.control rev).2
      = bytesOfNat 2 (((x.lane 0 (!rev)).rxNext - 1#12).toNat + 2 ^ 15) ++ bytesOfNat 2 (((x.lane 1 (!rev)).rxNext - 1#12).toNat + 2 ^ 15)
        ++ bytesOfNat 2 (x.lane 0 (!rev)).freed ++ bytesOfNat 2 (x.lane 1 (!rev)).freed ++ bytesOfNat 56 0 := by
  have hzeros : bytesOfNat 2 0 ++ bytesOfNat 54 0 = bytesOfNat 56 0 := by
    simp only [bytesOfNat_zero, List.replicate_append_replicate]
  simp only [HoopLink.control, ha, hb, hna, hnb, ne_eq, not_false_eq_true, decide_true, Bool.or_true, Bool.toNat_true,
    Bool.false_eq_true, if_false, List.append_assoc, hzeros]
  rfl

/-- Once link control has been sent neither lane owes it. -/
theorem control_owed (x : HoopLink) (rev : Bool) :
    ((x.control rev).1.lane 0 (!rev)).owed = false ∧ ((x.control rev).1.lane 1 (!rev)).owed = false := by
  refine ⟨?_, congrArg HoopLane.owed (setLane_lane_self ..)⟩
  rw [HoopLink.control, setLane_lane_ne _ _ _ _ (laneKey_ne _ (by decide)), setLane_lane_self]

theorem linkControlSend_idle (h : ∀ c, c < 2 → ((s.hoop l).lane c (!rev)).owed = false ∧ ((s.hoop l).lane c (!rev)).replayOwed = false) :
    exec (.linkControlSend l rev) s = .next s :=
  congrArg Host.Outcome.next (if_pos (by simp [h 0 (by decide), h 1 (by decide)]))

end

/-- Settles O49: packets and link control of a link that is not UP, then HOOP_PACKET, LINK_CONTROL, LINK_CONTROL_SEND and RETRAIN. -/
theorem hoopPackets : Obligations.HoopPackets := by
  rintro l rev s _ rfl
  refine ⟨fun p q hstate => ?idle, fun p y => hoopPacket_good_gives, fun p hstate hcrc hcls hfew => ?bad,
    fun p hstate hcrc hviolates hrecent => ?violates, fun p hstate hcrc hfew => ?controlBad, fun p => linkControl_learns_gives,
    fun p y => linkControl_replays_gives, fun hstate a b ha hb howed hra hrb hna hnb => ?sends,
    fun _ h => gives_next (linkControlSend_idle h) rfl, fun h => gives_next (retrain_discarded h) rfl,
    fun hstate hrecent => gives_next (exec_retrain_up hstate) ?retrains, fun hstate hmany hdraw => gives_next (exec_retrain_up hstate) ?fences⟩
  case idle =>
    simp only [List.forall_mem_cons]
    exact ⟨gives_next (congrArg Host.Outcome.next (if_pos hstate)) rfl, gives_next (congrArg Host.Outcome.next (if_pos hstate)) rfl,
      gives_next (congrArg Host.Outcome.next (if_pos (by simp [hstate]))) rfl, List.forall_mem_nil _⟩
  case bad =>
    refine gives_next (hoopPacket_bad hstate hcrc hcls) ?_
    rw [hoopCrc_hoop (by rw [State.setHoop_hoop_self]; exact hfew), State.setHoop_hoop_self]
    exact ⟨rfl, hstate, setLane_lane_self ..⟩
  case violates =>
    refine gives_next (hoopPacket_violates hstate hcrc hviolates) ?_
    rw [hoopViolation_hoop hstate hrecent]
    exact ⟨rfl, rfl, rfl, rfl, rfl⟩
  case controlBad =>
    refine gives_next (linkControl_bad hstate hcrc) ?_
    rw [hoopCrc_hoop hfew]
    exact ⟨rfl, hstate, rfl⟩
  case sends =>
    subst ha hb
    refine gives_next (linkControlSend_owed hstate howed) ?_
    rw [State.answer_reply, answer_hoop, State.setHoop_hoop_self]
    exact ⟨control_payload hra hrb hna hnb, control_owed ..⟩
  case retrains =>
    rw [hoopRetrain_retrains hstate hrecent]
    exact ⟨rfl, rfl, rfl, rfl, rfl⟩
  case fences =>
    rw [hoopRetrain_hoop hstate, if_pos ⟨hmany, hdraw⟩]
    exact ⟨rfl, rfl⟩

end Sys2Proof.Machine

/-! ## The training of a Hoop link

What the lane tests, the mask agreement and the last steps of a training leave of a link, and the statement O50 settled from it. -/

namespace Sys2Proof.Machine

/-! ### Spares (R358) -/

section
variable {s : State} {l : LinkId} {g lane : Nat} {failed : List Nat}

/-- A lane whose spare works needs no other. -/
theorem repairLane_kept {sp : Nat} (h : (s.hoop l).spareFor g lane = some sp) (hsp : sp ∉ failed) :
    s.repairLane l g failed lane = (s, true) := by
  simp [State.repairLane, h, hsp]

/-- A lane takes the free spare. -/
theorem repairLane_spared {sp : Nat} (h : (s.hoop l).spareFor g lane = none) (hfree : (s.hoop l).freeSpare g failed = some sp) :
    (s.repairLane l g failed lane).2 = true ∧ (s.repairLane l g failed lane).1.hoop l = { s.hoop l with
      spares := (s.hoop l).spares.set 0 (35 * g + sp) (lane + 1), sparesUsed := satInc32 (s.hoop l).sparesUsed } := by
  simp only [State.repairLane, h, hfree, Bool.false_eq_true, if_false, raiseHoop_hoop, State.setHoop_hoop_self, and_self]

/-- Without a free spare the lane stays failed. -/
theorem repairLane_failed (h : (s.hoop l).spareFor g lane = none) (hfree : (s.hoop l).freeSpare g failed = none) :
    s.repairLane l g failed lane = (s, false) := by
  simp [State.repairLane, h, hfree]

/-- A group with no spare assigned has none for any lane. -/
theorem spareFor_unused {x : HoopLink} (h : ∀ sp, sp < 35 → x.spares.get 0 (35 * g + sp) = 0) (lane : Nat) :
    x.spareFor g lane = none := by
  simp [HoopLink.spareFor, h 33 (by decide), h 34 (by decide)]

theorem freeSpare_unused {x : HoopLink} (h : ∀ sp, sp < 35 → x.spares.get 0 (35 * g + sp) = 0) (h33 : 33 ∉ failed) :
    x.freeSpare g failed = some 33 := by
  simp [HoopLink.freeSpare, h 33 (by decide), h33]

theorem freeSpare_broken {x : HoopLink} (h33 : 33 ∈ failed) (h34 : 34 ∈ failed) : x.freeSpare g failed = none := by
  simp [HoopLink.freeSpare, h33, h34]

end

/-! ### The test of a group (R357 step 4, R358) -/

/-- The clock and data lanes of a group that failed or that a spare replaces, in the order of their repair. -/
def HoopLink.lanesToRepair (x : HoopLink) (g : Nat) (failed : List Nat) : List Nat :=
  (32 :: List.range 32).filter fun lane => failed.contains lane || (x.spareFor g lane).isSome

/-- The state after a group's lanes have been repaired, and whether all of them work. -/
def State.repairs (s : State) (l : LinkId) (g : Nat) (failed : List Nat) : State × Bool :=
  ((s.hoop l).lanesToRepair g failed).foldl (fun st lane =>
    ((st.1.repairLane l g failed lane).1, st.2 && (st.1.repairLane l g failed lane).2)) (s, true)

section
variable {s : State} {l : LinkId} {g : Nat} {failed : List Nat}

theorem testGroup_eq (s : State) (l : LinkId) (g : Nat) (failed : List Nat) : s.testGroup l g failed
    = let e := (s.hoop l).receiver g
      let r := s.repairs l g failed
      if ((s.hoop l).retiredAt e).getLsbD g then s
      else if r.2 then r.1
      else ((r.1.setHoop l ((r.1.hoop l).retireAt e (groupBit g))).raiseHoop 1 0x29 l (payloadOf [(0x18, 2, g), (0x1A, 1, e)])).unitLeft 8
        (512 * l.val + g) 2 := rfl

/-- A group no lane of which failed keeps the spares that it has. -/
theorem repairs_sound (s : State) (l : LinkId) (g : Nat) : s.repairs l g [] = (s, true) := by
  refine List.foldlRecOn (motive := (· = (s, true))) _ _ rfl ?_
  rintro _ rfl lane hlane
  have hspare : ((s.hoop l).spareFor g lane).isSome = true := by simpa using (List.mem_filter.1 hlane).2
  obtain ⟨sp, hsp⟩ := Option.isSome_iff_exists.1 hspare
  simp only [repairLane_kept hsp List.not_mem_nil, Bool.and_self]

theorem testGroup_sound (s : State) (l : LinkId) (g : Nat) : s.testGroup l g [] = s := by
  rw [testGroup_eq]
  dsimp only
  rw [repairs_sound, if_pos rfl, ite_self]

/-- Of a group with no spare assigned the lanes that failed need a repair. -/
theorem lanesToRepair_unused {x : HoopLink} (h : ∀ sp, sp < 35 → x.spares.get 0 (35 * g + sp) = 0) (failed : List Nat) :
    x.lanesToRepair g failed = (32 :: List.range 32).filter failed.contains :=
  List.filter_congr fun lane _ => by rw [spareFor_unused h lane, Option.isSome_none, Bool.or_false]

theorem repairs_one {lane : Nat} (h : (s.hoop l).lanesToRepair g failed = [lane]) :
    s.repairs l g failed = s.repairLane l g failed lane := by
  simp only [State.repairs, h, List.foldl_cons, List.foldl_nil, Bool.true_and]

/-- A single failed clock or data lane takes spare 33 of a group whose spares are all free. -/
theorem testGroup_spares {lane : Fin 33} (hin : ((s.hoop l).retiredAt ((s.hoop l).receiver g)).getLsbD g = false)
    (h : ∀ sp, sp < 35 → (s.hoop l).spares.get 0 (35 * g + sp) = 0) :
    (s.testGroup l g [lane.val]).hoop l = { s.hoop l with
      spares := (s.hoop l).spares.set 0 (35 * g + 33) (lane.val + 1), sparesUsed := satInc32 (s.hoop l).sparesUsed } := by
  have hneed : (32 :: List.range 32).filter [lane.val].contains = [lane.val] := by revert lane; decide
  have h33 : 33 ∉ [lane.val] := by simp only [List.mem_singleton]; omega
  obtain ⟨hworks, hlink⟩ := repairLane_spared (spareFor_unused h lane.val) (freeSpare_unused h h33)
  rw [testGroup_eq]
  dsimp only
  rw [hin, if_neg Bool.false_ne_true, repairs_one ((lanesToRepair_unused h _).trans hneed), if_pos hworks, hlink]

/-- A failed clock or data lane retires a group both spares of which have failed. -/
theorem testGroup_retires {lane : Fin 33} (hin : ((s.hoop l).retiredAt ((s.hoop l).receiver g)).getLsbD g = false)
    (h : ∀ sp, sp < 35 → (s.hoop l).spares.get 0 (35 * g + sp) = 0) :
    (s.testGroup l g [lane.val, 33, 34]).hoop l = (s.hoop l).retireAt ((s.hoop l).receiver g) (groupBit g) := by
  have hneed : (32 :: List.range 32).filter [lane.val, 33, 34].contains = [lane.val] := by revert lane; decide
  have hrepairs := (repairs_one ((lanesToRepair_unused h _).trans hneed)).trans
    (repairLane_failed (spareFor_unused h lane.val) (freeSpare_broken (by simp) (by simp)))
  rw [testGroup_eq]
  dsimp only
  rw [hin, if_neg Bool.false_ne_true, hrepairs, if_neg Bool.false_ne_true, unitLeft_hoop, raiseHoop_hoop, State.setHoop_hoop_self]

end

/-- A group retired at an end is retired there. -/
theorem retireAt_retired (x : HoopLink) (e g : Nat) (hg : g < 512) : ((x.retireAt e (groupBit g)).retiredAt e).getLsbD g = true := by
  by_cases he : e = 0 <;> simp [HoopLink.retireAt, HoopLink.retiredAt, he, groupBit, hg]

theorem retireAt_sparesUsed (x : HoopLink) (e : Nat) (m : BitVec 512) : (x.retireAt e m).sparesUsed = x.sparesUsed := by
  unfold HoopLink.retireAt
  split <;> rfl

/-! ### The tests of all groups (R357 steps 3 and 4) -/

/-- The failed lanes that the findings give for a group. -/
def lanesFailed (f : TrainFindings) (g : Nat) : List Nat :=
  (f.failed.filter fun e => e.1.val = g).flatMap fun e => e.2.map (·.val)

/-- The state once every group has been tested. -/
def State.tested (s : State) (l : LinkId) (f : TrainFindings) : State :=
  (List.range 512).foldl (fun s g => s.testGroup l g (lanesFailed f g)) s

section
variable {s : State} {l : LinkId} {f : TrainFindings}

/-- A fold in which one element alone acts is that element's action. -/
theorem foldl_one {α β : Type} {op : β → α → β} {a : α} {m : List α} (ha : a ∈ m) (hm : m.Nodup)
    (hop : ∀ b k, k ≠ a → op b k = b) (b : β) : m.foldl op b = op b a := by
  obtain ⟨m₁, m₂, rfl⟩ := List.append_of_mem ha
  have hidle (n : List α) (hn : a ∉ n) (b : β) : n.foldl op b = b :=
    List.foldlRecOn (motive := (· = b)) n op rfl fun c hc k hk => (hop c k (ne_of_mem_of_not_mem hk hn)).trans hc
  have hsplit := List.nodup_middle.1 hm
  simp only [List.nodup_cons, List.mem_append, not_or] at hsplit
  rw [List.foldl_append, List.foldl_cons, hidle m₁ hsplit.1.1, hidle m₂ hsplit.1.2]

theorem tested_sound (h : f.failed = []) : s.tested l f = s :=
  List.foldlRecOn (motive := (· = s)) _ _ rfl fun t ht g _ => by
    rw [lanesFailed, h, ht]
    exact testGroup_sound s l g

/-- Where lanes of one group failed, that group alone is changed. -/
theorem tested_one {g : Fin 512} {lanes : List (Fin 35)} (h : f.failed = [(g, lanes)]) :
    s.tested l f = s.testGroup l g (lanes.map (·.val)) := by
  have hself : lanesFailed f g = lanes.map (·.val) := by simp [lanesFailed, h]
  have hother (k : Nat) (hk : k ≠ g) : lanesFailed f k = [] := by simp [lanesFailed, h, Ne.symm hk]
  have hmem : g.val ∈ List.range 512 := List.mem_range.2 g.isLt
  rw [State.tested, foldl_one hmem List.nodup_range (fun t k hk => by rw [hother k hk, testGroup_sound]), hself]

/-! ### The levels, the masks and the floors (R357 steps 5 to 8, R359 to R364) -/

theorem training_eq (s : State) (l : LinkId) (f : TrainFindings) : s.training l f
    = if (s.hoop l).state ≠ 1 then s
      else if !(f.level0.getLsbD 1 && f.level1.getLsbD 1) then (s.tested l f).fence l 4
      else match agreedAttempt f.damaged with
        | none => (s.tested l f).maskDisagree l
        | some n => (s.tested l f).linkTrained l n (((s.tested l f).hoop l).ownMask 0 &&& ((s.tested l f).hoop l).ownMask 1) := rfl

theorem training_idle (h : (s.hoop l).state ≠ 1) : s.training l f = s := if_pos h

theorem training_noLevel (hstate : (s.hoop l).state = 1) (h : f.level0.getLsbD 1 = false ∨ f.level1.getLsbD 1 = false) :
    s.training l f = (s.tested l f).fence l 4 := by
  have hnone : (!(f.level0.getLsbD 1 && f.level1.getLsbD 1)) = true := by rw [Bool.not_eq_true', Bool.and_eq_false_iff]; exact h
  rw [training_eq, if_neg (not_not_intro hstate), if_pos hnone]

/-- With a level in common the masks decide. -/
theorem training_levels (hstate : (s.hoop l).state = 1) (h0 : f.level0.getLsbD 1 = true) (h1 : f.level1.getLsbD 1 = true) :
    s.training l f = match agreedAttempt f.damaged with
      | none => (s.tested l f).maskDisagree l
      | some n => (s.tested l f).linkTrained l n (((s.tested l f).hoop l).ownMask 0 &&& ((s.tested l f).hoop l).ownMask 1) := by
  rw [training_eq, if_neg (not_not_intro hstate), h0, h1, if_neg (by decide)]

theorem agreedAttempt_first {d : List Bool} (h : d.getD 0 false = false) : agreedAttempt d = some 1 := by
  have hthree : List.range 3 = [0, 1, 2] := rfl
  simp only [agreedAttempt, hthree, List.findSome?_cons, h, Bool.false_eq_true, if_false, Nat.zero_add]

end

/-- A link whose ends did not agree on a mask. -/
def HoopLink.disagreed (x : HoopLink) : HoopLink :=
  { x with attempts := 3, dmask0 := x.ownMask 0, dmask1 := x.ownMask 1, state := 3, cause := 2 }

/-- A link that has agreed on a mask: the groups outside it are retired, those held out apart. -/
def HoopLink.agreed (x : HoopLink) (attempts : Nat) (mask : BitVec 512) : HoopLink :=
  let gone := ~~~ (mask ||| x.heldOut)
  { x with attempts := attempts, dmask0 := 0#512, dmask1 := 0#512, retired := x.retired ||| gone,
           retired0 := x.retired0 ||| gone, retired1 := x.retired1 ||| gone, good := mask, trained := true }

/-- A link that is UP after a training, with its lanes anew or resumed. -/
def HoopLink.resumed (x : HoopLink) (attempts : Nat) (mask : BitVec 512) : HoopLink :=
  { x.agreed attempts mask with state := 2, cause := 0, full := false,
                                lanes := if x.full then [] else x.lanes.map fun e => (e.1, e.2.resume) }

/-- A direction of a link has fewer groups in a mask than its floor. -/
def HoopLink.belowFloor (x : HoopLink) (mask : BitVec 512) : Prop :=
  countGroups mask 0 x.nf < floorOf x.nf ∨ countGroups mask x.nf 512 < floorOf (512 - x.nf)

section
variable {s : State} {l : LinkId} {attempts : Nat} {mask : BitVec 512}

theorem maskDisagree_hoop (s : State) (l : LinkId) : (s.maskDisagree l).hoop l = (s.hoop l).disagreed := by
  unfold State.maskDisagree
  dsimp only
  rw [fence_hoop, raiseHoop_hoop, State.setHoop_hoop_self]
  rfl

theorem linkTrained_fenced (h : (s.hoop l).belowFloor mask) :
    (s.linkTrained l attempts mask).hoop l = { (s.hoop l).agreed attempts mask with state := 3, cause := 1 } := by
  unfold State.linkTrained
  dsimp only
  rw [if_pos (by simpa [HoopLink.belowFloor] using h), fence_hoop, State.setHoop_hoop_self]
  rfl

theorem when_raiseHoop_hoop (s : State) (b : Bool) (c t : Nat) (l : LinkId) (bs : List Byte) :
    (s.when b fun s => s.raiseHoop c t l bs).hoop l = s.hoop l := by
  cases b
  · rfl
  · exact raiseHoop_hoop ..

theorem reroute_if_hoop (s : State) (b : Bool) (l : LinkId) :
    (if b then { s with net := s.net.reroute } else s).hoop l = s.hoop l := by
  cases b
  · rw [if_neg Bool.false_ne_true]
  · rw [if_pos rfl, reroute_hoop]

theorem linkTrained_up (h : ¬ (s.hoop l).belowFloor mask) :
    (s.linkTrained l attempts mask).hoop l = (s.hoop l).resumed attempts mask := by
  unfold State.linkTrained
  dsimp only
  rw [if_neg (by simpa [HoopLink.belowFloor] using h), when_raiseHoop_hoop, reroute_if_hoop, State.setHoop_hoop_self]
  rfl

/-- Each lane of a link that retrained goes on where it was (R356). -/
theorem resumed_lane {x : HoopLink} (h : x.full = false) (c : Nat) (r : Bool) :
    (x.resumed attempts mask).lane c r = (x.lane c r).resume := by
  unfold HoopLink.lane HoopLink.resumed
  dsimp only
  rw [if_neg (by simp [h])]
  exact Map.get_mapValues HoopLane.fresh HoopLane.resume rfl x.lanes (laneKey c r)

end

/-! ### What holds of the groups after any training with a level in common -/

/-- What a link keeps of its spares and retirements from the tests to the end of a training, and that no group retired is good. -/
structure HoopLink.EndsFrom (x y : HoopLink) : Prop where
  spares : y.spares = x.spares
  sparesUsed : y.sparesUsed = x.sparesUsed
  retired : ∀ e g, (x.retiredAt e).getLsbD g = true → (y.retiredAt e).getLsbD g = true
  notGood : ∀ e g, e < 2 → (x.retiredAt e).getLsbD g = true → y.state = 2 → y.good.getLsbD g = false

/-- A group retired at an end is in no mask that both ends agree. -/
theorem ownMasks_retired {x : HoopLink} {e g : Nat} (he : e < 2) (h : (x.retiredAt e).getLsbD g = true) :
    (x.ownMask 0 &&& x.ownMask 1).getLsbD g = false := by
  interval_cases e <;> simp [HoopLink.ownMask, h]

/-- Retirements stand when a mask is agreed. -/
theorem agreed_retiredAt {x : HoopLink} {e g : Nat} (n : Nat) (m : BitVec 512) (h : (x.retiredAt e).getLsbD g = true) :
    ((x.agreed n m).retiredAt e).getLsbD g = true := by
  unfold HoopLink.retiredAt at h ⊢
  split at h
  · next he => simp [HoopLink.agreed, he, h]
  · next he => simp [HoopLink.agreed, he, h]

namespace HoopLink

theorem endsFrom_disagreed (x : HoopLink) : x.EndsFrom x.disagreed :=
  ⟨rfl, rfl, fun _ _ h => h, fun _ _ _ _ hup => absurd hup (by simp [disagreed])⟩

theorem endsFrom_fenced (x : HoopLink) (n : Nat) (m : BitVec 512) (cause : Nat) :
    x.EndsFrom { x.agreed n m with state := 3, cause := cause } :=
  ⟨rfl, rfl, fun _ _ h => agreed_retiredAt n _ h, fun _ _ _ _ hup => absurd hup (by simp)⟩

theorem endsFrom_resumed (x : HoopLink) (n : Nat) : x.EndsFrom (x.resumed n (x.ownMask 0 &&& x.ownMask 1)) :=
  ⟨rfl, rfl, fun _ _ h => agreed_retiredAt n _ h, fun _ _ he h _ => ownMasks_retired he h⟩

end HoopLink

theorem training_endsFrom {s : State} {l : LinkId} {f : TrainFindings} (hstate : (s.hoop l).state = 1)
    (h0 : f.level0.getLsbD 1 = true) (h1 : f.level1.getLsbD 1 = true) :
    ((s.tested l f).hoop l).EndsFrom ((s.training l f).hoop l) := by
  rw [training_levels hstate h0 h1]
  split
  · rw [maskDisagree_hoop]
    exact HoopLink.endsFrom_disagreed _
  · next n _ =>
    by_cases hfloor : ((s.tested l f).hoop l).belowFloor (((s.tested l f).hoop l).ownMask 0 &&& ((s.tested l f).hoop l).ownMask 1)
    · rw [linkTrained_fenced hfloor]
      exact HoopLink.endsFrom_fenced ..
    · rw [linkTrained_up hfloor]
      exact HoopLink.endsFrom_resumed ..

theorem receiver_lt (x : HoopLink) (g : Nat) : x.receiver g < 2 := by
  unfold HoopLink.receiver
  split <;> decide

/-! ### TRAINING_COMPLETE (R357 to R364) -/

section
variable {s : State} {l : LinkId} {f : TrainFindings}

/-- A training in which no lane failed and the first exchange of masks is whole ends with the mask of both ends. -/
theorem training_agreed (hstate : (s.hoop l).state = 1) (hfailed : f.failed = []) (h0 : f.level0.getLsbD 1 = true)
    (h1 : f.level1.getLsbD 1 = true) (hfirst : f.damaged.getD 0 false = false) :
    s.training l f = s.linkTrained l 1 ((s.hoop l).ownMask 0 &&& (s.hoop l).ownMask 1) := by
  rw [training_levels hstate h0 h1, agreedAttempt_first hfirst, tested_sound hfailed]

theorem training_disagreed (hstate : (s.hoop l).state = 1) (hfailed : f.failed = []) (h0 : f.level0.getLsbD 1 = true)
    (h1 : f.level1.getLsbD 1 = true) (hdamaged : f.damaged = [true, true, true]) : s.training l f = s.maskDisagree l := by
  have hnone : agreedAttempt f.damaged = none := by rw [hdamaged]; decide
  rw [training_levels hstate h0 h1, hnone, tested_sound hfailed]

end

/-- Settles O50: a link not TRAINING, the outcomes of a training in which no lane failed, and one in which lanes of one group failed. -/
theorem hoopTraining : Obligations.HoopTraining := by
  rintro l f s _ rfl
  refine ⟨fun hstate => gives_next (congrArg Host.Outcome.next (training_idle hstate)) rfl, fun hstate hfailed => ?sound,
    fun g lane lanes hstate hfailed h0 h1 hin hunused => ?oneGroup⟩
  case sound =>
    refine ⟨fun hnone => gives_next (congrArg Host.Outcome.next (training_noLevel hstate hnone)) ?_, fun h0 h1 hdamaged =>
      gives_next (congrArg Host.Outcome.next (training_disagreed hstate hfailed h0 h1 hdamaged)) ?_, ?_⟩
    · rw [fence_hoop]
      exact ⟨rfl, rfl⟩
    · rw [maskDisagree_hoop]
      exact ⟨rfl, rfl, rfl, rfl, rfl⟩
    · rintro _ h0 h1 hfirst rfl
      have hexec : exec (.trainingComplete l f) s = _ := congrArg Host.Outcome.next (training_agreed hstate hfailed h0 h1 hfirst)
      refine ⟨fun hfwd hrev => gives_next hexec ?_, fun hfloor => gives_next hexec ?_⟩
      · rw [linkTrained_up (by rintro (h | h) <;> omega)]
        refine ⟨rfl, rfl, rfl, rfl, fun hfull => if_pos hfull, fun hfull c r => ?_⟩
        rw [resumed_lane hfull]
        exact ⟨rfl, rfl, rfl, rfl⟩
      · rw [linkTrained_fenced hfloor]
        exact ⟨rfl, rfl⟩
  case oneGroup =>
    have hends := training_endsFrom hstate h0 h1
    rw [tested_one hfailed] at hends
    refine ⟨?spared, ?retired⟩
    case spared =>
      rintro rfl
      have hlink := testGroup_spares (lane := lane) hin hunused
      refine gives_next (exec_trainingComplete l f s) ⟨?_, ?_⟩
      · rw [hends.spares]
        exact (congrArg (fun x : HoopLink => x.spares.get 0 (35 * g.val + 33)) hlink).trans (Map.get_set_self ..)
      · exact hends.sparesUsed.trans (congrArg HoopLink.sparesUsed hlink)
    case retired =>
      rintro rfl
      have hlink := testGroup_retires (lane := lane) hin hunused
      have hretired : (((s.testGroup l g [lane.val, 33, 34]).hoop l).retiredAt ((s.hoop l).receiver g)).getLsbD g = true := by
        rw [hlink]
        exact retireAt_retired _ _ _ g.isLt
      refine gives_next (exec_trainingComplete l f s) ⟨?_, hends.retired _ _ hretired, hends.notGood _ _ (receiver_lt ..) hretired⟩
      exact hends.sparesUsed.trans ((congrArg HoopLink.sparesUsed hlink).trans (retireAt_sparesUsed ..))

end Sys2Proof.Machine

/-! ## Range operations and the registers of the cores

What a write-back leaves of every line, the range operations built from it, and the registers that start a core, make a timer
pending and hand over the mailbox buffers; the statement O25 settled from them. -/

namespace Sys2Proof.Machine

/-! ### Every line after a clean or a flush of one (R265, R379) -/

section
variable {s : State} {c : CoreId} {a b : Nat} {flush : Bool}

theorem CacheS.setLine_line (k : CacheS) (a b : Nat) (l : Option CacheLine) :
    (k.setLine a l).line b = if b / 128 = a / 128 then l else k.line b := Map.get_set ..

theorem wroteHome_cache (s : State) (count : Bool) (a : Nat) (l : CacheLine) :
    (s.wroteHome count a l).cache = s.cache.setLine a (some { l with dirty := false }) := by
  simp [State.wroteHome, State.setLine]

/-- A write-back leaves its line clean or gone, and every other line as it was. -/
theorem writeBack_line (s : State) (count : Bool) (a : Nat) : ∃ m : Option CacheLine, (∀ l, m = some l → l.dirty = false)
    ∧ ∀ b, (s.writeBack count a).1.cache.line b = if b / 128 = a / 128 then m else s.cache.line b := by
  obtain ⟨l, hl, hd⟩ | hclean := line_dirty_or_clean s a
  · by_cases ht : s.homeTakes a = 0#32
    · refine ⟨some { l with dirty := false }, fun _ h => by cases h; rfl, fun b => ?_⟩
      rw [writeBack_taken hl hd ht, wroteHome_cache, CacheS.setLine_line]
    · refine ⟨none, nofun, fun b => ?_⟩
      rw [writeBack_refused hl hd ht]
      exact CacheS.setLine_line ..
  · refine ⟨s.cache.line a, hclean, fun b => ?_⟩
    rw [writeBack_clean hclean]
    split
    · next h => simp only [CacheS.line, h]
    · rfl

/-- The line of an address is in no cache dirty and, where it was to be flushed, in none at all. -/
def State.lineSettled (s : State) (flush : Bool) (a : Nat) : Prop :=
  ∀ l, s.cache.line a = some l → flush = false ∧ l.dirty = false

/-- A clean or a flush settles its line and leaves every other line as it was. -/
theorem cleanLine_line (s : State) (c : CoreId) (a : Nat) (flush : Bool) :
    ∃ m : Option CacheLine, (∀ l, m = some l → flush = false ∧ l.dirty = false)
      ∧ ∀ b, (s.cleanLine c a flush).1.cache.line b = if b / 128 = a / 128 then m else s.cache.line b := by
  cases flush with
  | false =>
    obtain ⟨m, hm, hline⟩ := writeBack_line s false a
    exact ⟨m, fun l hl => ⟨rfl, hm l hl⟩, hline⟩
  | true =>
    obtain ⟨m, -, hline⟩ := writeBack_line { s with cache := s.cache.takeFrom c a } false a
    refine ⟨none, nofun, fun b => (CacheS.setLine_line ..).trans ?_⟩
    split
    · rfl
    · next h => rw [hline, if_neg h, CacheS.takeFrom_line]

theorem cleanLine_settles (s : State) (c : CoreId) (a : Nat) (flush : Bool) : (s.cleanLine c a flush).1.lineSettled flush a := by
  obtain ⟨m, hm, hline⟩ := cleanLine_line s c a flush
  intro l hl
  rw [hline, if_pos rfl] at hl
  exact hm l hl

theorem cleanLine_keepsSettled (a : Nat) (h : s.lineSettled flush b) : (s.cleanLine c a flush).1.lineSettled flush b := by
  obtain ⟨m, hm, hline⟩ := cleanLine_line s c a flush
  intro l hl
  rw [hline] at hl
  split at hl
  · exact hm l hl
  · exact h l hl

end

/-! ### Range operations (R378 to R380) -/

section
variable {s : State} {c : CoreId} {cmd : Nat}

theorem rangeStart_passes (hcmd : cmd = 1 ∨ cmd = 2) (hrun : (s.core c).state = 1) (hidle : (s.core c).crBusy = false)
    (hcheck : rangeCheck (s.core c).crBase (s.core c).crLen false = 0#32) :
    s.rangeStart c cmd = s.setCore c { s.core c with crBusy := true, crCmd := cmd } := by
  obtain rfl | rfl := hcmd <;> simp [State.rangeStart, hrun, hidle, hcheck, stOk_eq]

theorem rangeStart_fails (hcmd : cmd = 1 ∨ cmd = 2) (hrun : (s.core c).state = 1) (hidle : (s.core c).crBusy = false)
    (hcheck : rangeCheck (s.core c).crBase (s.core c).crLen false ≠ 0#32) :
    s.rangeStart c cmd = s.setCore c { (s.core c).event 9 with
      crStatus := rangeCheck (s.core c).crBase (s.core c).crLen false, crBusy := false } := by
  obtain rfl | rfl := hcmd <;> simp [State.rangeStart, hrun, hidle, hcheck, stOk_eq]

/-- Each of the two commands starts the range operation of its number. -/
theorem exec_rangeCommand {i : Instr} (h : (i, cmd) ∈ ([(.cleanByRange c, 1), (.invalidateByRange c, 2)] : List (Instr × Nat))) :
    (cmd = 1 ∨ cmd = 2) ∧ exec i s = .next (s.rangeStart c cmd) := by
  simp only [List.mem_cons, Prod.mk.injEq, List.not_mem_nil, or_false] at h
  obtain ⟨rfl, rfl⟩ | ⟨rfl, rfl⟩ := h
  · exact ⟨.inl rfl, rfl⟩
  · exact ⟨.inr rfl, rfl⟩

/-- One line of a range operation: it is cleaned or flushed, and the first failure stands as the status. -/
def rangeStep (c : CoreId) (flush : Bool) (r : State × W32) (a : Nat) : State × W32 :=
  ((r.1.cleanLine c a flush).1, if r.2 = stOk then (r.1.cleanLine c a flush).2 else r.2)

/-- The lines that the range operation under way covers. -/
def State.rangeLines (s : State) (c : CoreId) : List Nat :=
  s.cache.linesIn (s.core c).crBase.toNat (s.core c).crLen.toNat

/-- The state and the status once every line of the range has been cleaned or flushed. -/
def State.rangeCleaned (s : State) (c : CoreId) : State × W32 :=
  (s.rangeLines c).foldl (rangeStep c (decide ((s.core c).crCmd = 2))) (s, stOk)

theorem exec_rangeOperationComplete_busy (hbusy : (s.core c).crBusy = true)
    (hwait : ∀ a ∈ s.rangeLines c, s.writeBackWaits a = false) :
    exec (.rangeOperationComplete c) s = .next ((s.rangeCleaned c).1.setCore c
      { ((s.rangeCleaned c).1.core c).event 9 with crBusy := false, crStatus := (s.rangeCleaned c).2 }) := by
  refine congrArg Host.Outcome.next (if_neg ?_)
  simpa [hbusy, State.rangeLines] using hwait

theorem rangeCleaned_settles {a : Nat} (ha : a ∈ s.rangeLines c) :
    (s.rangeCleaned c).1.lineSettled (decide ((s.core c).crCmd = 2)) a :=
  foldl_reaches (fun r : State × W32 => r.1.lineSettled _ a) (rangeStep c _) ha (fun r => cleanLine_settles r.1 c a _)
    (fun b _ _ h => cleanLine_keepsSettled b h) (s, stOk)

theorem rangeCleaned_keepsSettled {a : Nat} (h : s.lineSettled (decide ((s.core c).crCmd = 2)) a) :
    (s.rangeCleaned c).1.lineSettled (decide ((s.core c).crCmd = 2)) a :=
  List.foldlRecOn (motive := fun r : State × W32 => r.1.lineSettled _ a) (s.rangeLines c) _ h
    fun _ hr b _ => cleanLine_keepsSettled b hr

/-- A cached line whose address lies in a range is one of the range's lines. -/
theorem mem_linesIn {k : CacheS} {a base len : Nat} {l : CacheLine} (hl : k.line a = some l) (hlow : base ≤ a)
    (hhigh : a < base + len) (halign : a % 128 = 0) : a ∈ k.linesIn base len := by
  have hentry : (a / 128, some l) ∈ k.lines := mem_of_get_some hl
  have haddr : a / 128 * 128 = a := by omega
  simp only [CacheS.linesIn, List.mem_filter, List.mem_map]
  exact ⟨⟨_, hentry, haddr⟩, by simp [hlow, hhigh]⟩

/-- After the operation no line of the range is dirty, and after an INVALIDATE none is cached. -/
theorem rangeCleaned_line {a : Nat} {l : CacheLine} (hlow : (s.core c).crBase.toNat ≤ a)
    (hhigh : a < (s.core c).crBase.toNat + (s.core c).crLen.toNat) (halign : a % 128 = 0)
    (hl : (s.rangeCleaned c).1.cache.line a = some l) : (s.core c).crCmd ≠ 2 ∧ l.dirty = false := by
  have hsettled : (s.rangeCleaned c).1.lineSettled (decide ((s.core c).crCmd = 2)) a := by
    cases hline : s.cache.line a with
    | none => exact rangeCleaned_keepsSettled fun l h => absurd (hline.symm.trans h) nofun
    | some m => exact rangeCleaned_settles (mem_linesIn hline hlow hhigh halign)
  obtain ⟨hcmd, hdirty⟩ := hsettled l hl
  exact ⟨of_decide_eq_false hcmd, hdirty⟩

end

/-! ### Core start, timers and the mailbox buffers (R203, R375, R384, R387, R391) -/

section
variable {s : State} {c : CoreId}

theorem exec_coreStart_held {e : W64} (hheld : (s.core c).state = 0) (halign : e.toNat % 4 = 0) (hswept : s.cache.swept = true) :
    exec (.coreStart c e) s = .next (s.setCore c ((s.core c).start c e)) := by
  simp [exec_coreStart, execCoreStart, hheld, halign, hswept]

theorem exec_coreStart_discarded {e : W64} (h : (s.core c).state ≠ 0 ∨ e.toNat % 4 ≠ 0) :
    exec (.coreStart c e) s = .next s.discard := by
  obtain h | h := h <;> simp [exec_coreStart, execCoreStart, h]

/-- Time that has come to a value stands at it or beyond, and has not run back. -/
theorem tally_reach (q : TocsinS) (v : W64) :
    v.toNat ≤ ((q.reach v).tally 4).toNat ∧ (q.tally 4).toNat ≤ ((q.reach v).tally 4).toNat := by
  have htally : (q.reach v).tally 4 = if (q.tally 4).toNat < v.toNat then v else q.tally 4 := Map.get_set_self ..
  rw [htally]
  split <;> omega

theorem exec_hostMsgFree_other {v : W32} (h : v ≠ 0#32) : exec (.hostMsgFree v) s = .next s.discard :=
  congrArg Host.Outcome.next (if_neg h)

theorem exec_rtMsgOffer_fits {v : W32} (h : v.toNat ≤ 256) : exec (.rtMsgOffer v) s
    = .next { s with cores := { s.cores with rtMsgLen := v.toNat, rtMsgOffered := true } } :=
  congrArg Host.Outcome.next (if_pos h)

theorem exec_rtMsgOffer_tooLong {v : W32} (h : 256 < v.toNat) : exec (.rtMsgOffer v) s = .next s.discard :=
  congrArg Host.Outcome.next (if_neg (by omega))

end

/-- Settles O25: the range operations, then each register of a core or of the mailbox buffers by the outcome of its write. -/
theorem rangesAndCoreRegisters : Obligations.RangesAndCoreRegisters := by
  refine ⟨fun c s => ⟨fun i cmd hi hrun hidle => ⟨fun hcheck => ?passes, fun hcheck => ?fails⟩, fun hbusy hwait => ?complete⟩,
    fun c s => ⟨fun e hheld halign hswept => ?start, fun e h => ?noStart, ?machine, ?supervisor, ?virtual, ?free,
      fun v hv => ?notFreed, fun v hv => ?offer, fun v hv => ?notOffered⟩⟩
  case passes =>
    obtain ⟨hcmd, hexec⟩ := exec_rangeCommand (s := s) hi
    rw [rangeStart_passes hcmd hrun hidle hcheck] at hexec
    refine gives_next hexec ?_
    rw [State.setCore_core_self]
    exact ⟨rfl, rfl, rfl⟩
  case fails =>
    obtain ⟨hcmd, hexec⟩ := exec_rangeCommand (s := s) hi
    rw [rangeStart_fails hcmd hrun hidle hcheck] at hexec
    refine gives_next hexec ?_
    rw [State.setCore_core_self]
    exact ⟨rfl, rfl, rfl⟩
  case complete =>
    refine gives_next (exec_rangeOperationComplete_busy hbusy hwait) ⟨?_, fun a l => rangeCleaned_line⟩
    rw [State.setCore_core_self]
  case start =>
    refine gives_next (exec_coreStart_held hheld halign hswept) ?_
    rw [State.setCore_core_self]
    exact ⟨rfl, rfl, rfl⟩
  case noStart => exact gives_next (exec_coreStart_discarded h) ⟨rfl, rfl⟩
  case machine =>
    refine gives_next (exec_machineTimerInterrupt c s) ⟨?_, tally_reach s.tocsin _⟩
    rw [State.setCore_core_self]
  case supervisor =>
    refine gives_next (exec_supervisorTimerInterrupt c false s) ⟨?_, ?_, (tally_reach s.tocsin _).1⟩ <;>
      rw [if_neg Bool.false_ne_true, State.setCore_core_self]
  case virtual =>
    refine gives_next (exec_supervisorTimerInterrupt c true s) ⟨?_, ?_⟩ <;>
      rw [if_pos rfl, State.setCore_core_self]
  case free => exact gives_next (exec_hostMsgFree 0#32 s) rfl
  case notFreed => exact gives_next (exec_hostMsgFree_other hv) ⟨rfl, rfl⟩
  case offer => exact gives_next (exec_rtMsgOffer_fits hv) ⟨rfl, rfl⟩
  case notOffered => exact gives_next (exec_rtMsgOffer_tooLong hv) ⟨rfl, rfl⟩

end Sys2Proof.Machine

/-! ## The host's mailbox, DOE discovery and IDE keys

The outcomes of the mailbox commands and of IDE_KM; the statement O38 settled from them. -/

namespace Sys2Proof.Machine

/-! ### Mailbox commands (R391, R417) -/

section
variable {s : State}

/-- The state in which a message of the host stands in its buffer and source 7 tells the runtime. -/
def State.messagePlaced (s : State) (bs : List Byte) : State :=
  State.route { s with cores := { s.cores with hostMsg := bs, hostMsgLen := bs.length } } 7

theorem exec_runtimeSend_badLength {bs : List Byte} (h : bs.length = 0 ∨ 256 < bs.length) :
    exec (.runtimeSend bs) s = .next (s.mailbox 2#32 []) :=
  congrArg Host.Outcome.next (if_pos (by simpa using h))

theorem exec_runtimeSend_busy {bs : List Byte} (h0 : bs.length ≠ 0) (h : bs.length ≤ 256) (hbusy : s.cores.hostMsgLen ≠ 0) :
    exec (.runtimeSend bs) s = .next (s.mailbox 1#32 []) := by
  have hlen : ¬ 256 < bs.length := by omega
  simp [exec_runtimeSend, execRuntimeSend, List.ne_nil_of_length_pos (Nat.pos_of_ne_zero h0), hlen, hbusy]

theorem exec_runtimeSend_placed {bs : List Byte} (h0 : bs.length ≠ 0) (h : bs.length ≤ 256) (hfree : s.cores.hostMsgLen = 0) :
    exec (.runtimeSend bs) s = .next ((s.messagePlaced bs).mailbox 0#32 []) := by
  have hlen : ¬ 256 < bs.length := by omega
  simp [exec_runtimeSend, execRuntimeSend, List.ne_nil_of_length_pos (Nat.pos_of_ne_zero h0), hlen, hfree, State.messagePlaced]

theorem exec_runtimeRecv_offered (h : s.cores.rtMsgOffered = true) : exec .runtimeRecv s
    = .next (State.mailbox { s with cores := { s.cores with rtMsgOffered := false, rtMsgLen := 0 } } 0#32
        (s.cores.rtMsg.getRun 0#8 0 s.cores.rtMsgLen)) :=
  congrArg Host.Outcome.next (if_neg (by simp [h]))

theorem exec_runtimeRecv_none (h : s.cores.rtMsgOffered = false) : exec .runtimeRecv s = .next (s.mailbox 0#32 []) :=
  congrArg Host.Outcome.next (if_pos (by simp [h]))

/-- A run read from key 0 lists the values of the keys from 0 on. -/
theorem Map.getRun_zero {α : Type} (d : α) (m : Map α) (n : Nat) : m.getRun d 0 n = (List.range n).map fun k => m.get d k := by
  simp [Map.getRun, Map.getRunBy_eq]

end

/-! ### IDE_KM (R418, R422) -/

section
variable {s : State} {act : Bool} {key : List Byte}

theorem exec_ideKm_session (hup : s.cxl.state = 1) (hsession : (s.cust.spdm.get SpdmS.reset 0).sessions ≠ []) :
    exec (.ideKm act key false) s
      = .next (if act then s.setCxl { s.cxl with ideOn := true } else s.setCxl { s.cxl with ideKey := key }) := by
  simp [exec_ideKm, execIdeKm, hup, hsession]

theorem exec_ideKm_noSession (hup : s.cxl.state = 1) (hnone : (s.cust.spdm.get SpdmS.reset 0).sessions = []) :
    exec (.ideKm act key false) s = .next s := by
  simp [exec_ideKm, execIdeKm, hup, hnone]

/-- An integrity failure is logged and is host loss. -/
theorem exec_ideKm_integrityFault (hup : s.cxl.state = 1) :
    exec (.ideKm act key true) s = .next ((s.hostLog 8 0 0 0 0).loseHost .ide) := by
  simp [exec_ideKm, execIdeKm, hup]

/-- Host loss of a link that was up leaves it lost, with no key and IDE off. -/
theorem loseHost_ide (cause : LossCause) (hup : s.cxl.state = 1) :
    (s.loseHost cause).cxl.state = 3 ∧ (s.loseHost cause).cxl.ideKey = [] ∧ (s.loseHost cause).cxl.ideOn = false :=
  ⟨lose_keep CxlS.state (fun _ _ _ _ => rfl) (fun _ _ => rfl) s cause (.inl hup),
    lose_keep CxlS.ideKey (fun _ _ _ _ => rfl) (fun _ _ => rfl) s cause (.inl hup),
    lose_keep CxlS.ideOn (fun _ _ _ _ => rfl) (fun _ _ => rfl) s cause (.inl hup)⟩

theorem hostLog_state (s : State) (kind stream requester data detail : Nat) :
    (s.hostLog kind stream requester data detail).cxl.state = s.cxl.state :=
  hostLog_cxl CxlS.state (fun _ _ _ _ => rfl) ..

end

/-- Settles O38: the log commands, the message sent and the reply taken, discovery below and from index 3, and the keys with a
session, without one and after an integrity failure. -/
theorem mailboxCommands : Obligations.MailboxCommands := by
  refine fun s => ⟨gives_next (exec_getSupportedLogs s) ⟨rfl, rfl⟩, gives_next (exec_getLog s) ⟨rfl, rfl⟩,
    fun bs h0 hlen => ⟨fun hfree => ?placed, fun hbusy => gives_next (exec_runtimeSend_busy h0 hlen hbusy) ⟨rfl, rfl⟩⟩,
    fun bs hbad => gives_next (exec_runtimeSend_badLength hbad) ⟨rfl, rfl⟩,
    fun hoffer => ?taken, fun hnone => gives_next (exec_runtimeRecv_none hnone) ⟨rfl, rfl⟩,
    fun i hi => ?protocol, fun i _ => gives_next (exec_doeDiscovery i s) ⟨rfl, rfl⟩,
    fun key hup => ⟨fun hsession => ?session, fun hnone act => gives_next (exec_ideKm_noSession hup hnone) rfl,
      fun act => ?integrity⟩⟩
  case placed =>
    obtain ⟨hmsg, hmsgLen⟩ := route_hostMsg { s.cores with hostMsg := bs, hostMsgLen := bs.length } 7
    exact gives_next (exec_runtimeSend_placed h0 hlen hfree) ⟨rfl, hmsg, hmsgLen, rfl, rfl⟩
  case taken =>
    refine gives_next (exec_runtimeRecv_offered hoffer) ⟨?_, rfl, rfl⟩
    rw [← Map.getRun_zero]
    rfl
  case protocol =>
    refine gives_next (exec_doeDiscovery i s) ?_
    rw [if_pos hi]
  case session =>
    exact ⟨gives_next (exec_ideKm_session hup hsession) ⟨rfl, rfl⟩, gives_next (exec_ideKm_session hup hsession) ⟨rfl, rfl⟩⟩
  case integrity => exact gives_next (exec_ideKm_integrityFault hup) (loseHost_ide .ide ((hostLog_state ..).trans hup))

end Sys2Proof.Machine

/-! ## One step, and the frame of every command

The statements O1 and O5, settled from the frames and the totality of the commands. -/

namespace Sys2Proof.Machine

/-- Of the parts `qs`, those not listed in `ps` hold the same in two states, in the form of the frames of the commands: the memory
system agrees as a whole where no byte of memory may change, and the queue comes last. -/
def RestSame (ps : List Part) (s t : State) (qs : List Part) : Prop :=
  match qs with
  | [] => t.pending = s.pending
  | .memory :: qs => bif ps.elem .memory then RestSame ps s t qs else t.mem = s.mem ∧ RestSame ps s t qs
  | .memCtl :: qs =>
    bif ps.elem .memCtl || !ps.elem .memory then RestSame ps s t qs else t.mem.ctl = s.mem.ctl ∧ RestSame ps s t qs
  | q :: qs => bif ps.elem q then RestSame ps s t qs else q.same s t ∧ RestSame ps s t qs

section
variable {s t : State} {ps : List Part}

theorem RestSame.pending {qs : List Part} (h : RestSame ps s t qs) : t.pending = s.pending := by
  fun_induction RestSame ps s t qs <;> simp_all

theorem RestSame.mem {qs : List Part} (h : RestSame ps s t qs) (hq : .memory ∈ qs) (hp : .memory ∉ ps) : t.mem = s.mem := by
  fun_induction RestSame ps s t qs <;> grind

theorem RestSame.same {qs : List Part} {p : Part} (h : RestSame ps s t qs) (hq : p ∈ qs) (hp : p ∉ ps)
    (hm : p = .memCtl → .memory ∈ ps) : p.same s t := by
  fun_induction RestSame ps s t qs <;> grind [Part.same]

theorem mem_allParts (p : Part) : p ∈ allParts := by cases p <;> decide

theorem ChangesOnly.of_rest (h : RestSame ps s t allParts) : ChangesOnly ps s t := by
  refine ⟨h.pending, fun p hp => ?_⟩
  by_cases hm : p = .memCtl → .memory ∈ ps
  · exact h.same (mem_allParts p) hp hm
  · obtain rfl : p = .memCtl := by_contra fun hne => hm fun he => absurd he hne
    exact congrArg MemS.ctl (h.mem (mem_allParts _) fun hn => hm fun _ => hn)

/-- A command that may change anything but the bytes of memory within the memory system. -/
theorem ChangesOnly.of_bytes (h : RestSame (.memory :: ps) s t allParts) (hb : t.mem.bytes = s.mem.bytes) : ChangesOnly ps s t := by
  refine ⟨h.pending, fun p hp => ?_⟩
  by_cases hm : p = .memory
  · exact hm ▸ hb
  · exact h.same (mem_allParts p) (by simp [hm, hp]) (by simp)

/-- The frame of a command of a tile's own sequencer or engine. -/
theorem changesOnly_tile (h : Touch.tTXQF t s) : ChangesOnly [.tiles, .xlat, .tocsin, .fresh] s t := .of_rest h

theorem changesOnly_allParts (h : t.pending = s.pending) : ChangesOnly allParts s t :=
  ⟨h, fun p hp => absurd (mem_allParts p) hp⟩

/-- Every command changes at most the parts listed for it: by its frame, and where it reaches the memory system but no byte of it, by
what it keeps of the bytes. -/
theorem exec_changesOnly (c : Instr) (h : exec c s = .next t) : ChangesOnly (partsOf c) s t := by
  cases c with
  -- A frame that names every part.
  | instructionFetch _ => exact .of_rest (execInstructionFetch_frame _ _ h)
  | nop _ _ => exact changesOnly_tile (execNop_frame _ _ _ h)
  | halt _ _ => exact changesOnly_tile (execHalt_frame _ _ _ h)
  | sadd _ _ _ _ _ => exact changesOnly_tile (execSadd_frame _ _ _ _ _ _ h)
  | ssub _ _ _ _ _ => exact changesOnly_tile (execSsub_frame _ _ _ _ _ _ h)
  | sand _ _ _ _ _ => exact changesOnly_tile (execSand_frame _ _ _ _ _ _ h)
  | sor _ _ _ _ _ => exact changesOnly_tile (execSor_frame _ _ _ _ _ _ h)
  | sxor _ _ _ _ _ => exact changesOnly_tile (execSxor_frame _ _ _ _ _ _ h)
  | sshl _ _ _ _ _ => exact changesOnly_tile (execSshl_frame _ _ _ _ _ _ h)
  | sshr _ _ _ _ _ => exact changesOnly_tile (execSshr_frame _ _ _ _ _ _ h)
  | smul _ _ _ _ _ => exact changesOnly_tile (execSmul_frame _ _ _ _ _ _ h)
  | saddi _ _ _ _ _ => exact changesOnly_tile (execSaddi_frame _ _ _ _ _ _ h)
  | sli _ _ _ _ => exact changesOnly_tile (execSli_frame _ _ _ _ _ h)
  | shi _ _ _ _ => exact changesOnly_tile (execShi_frame _ _ _ _ _ h)
  | sld _ _ _ _ _ => exact changesOnly_tile (execSld_frame _ _ _ _ _ _ h)
  | sst _ _ _ _ _ => exact changesOnly_tile (execSst_frame _ _ _ _ _ _ h)
  | beq _ _ _ _ _ => exact changesOnly_tile (execBeq_frame _ _ _ _ _ _ h)
  | bne _ _ _ _ _ => exact changesOnly_tile (execBne_frame _ _ _ _ _ _ h)
  | blt _ _ _ _ _ => exact changesOnly_tile (execBlt_frame _ _ _ _ _ _ h)
  | bltu _ _ _ _ _ => exact changesOnly_tile (execBltu_frame _ _ _ _ _ _ h)
  | jmp _ _ _ => exact changesOnly_tile (execJmp_frame _ _ _ _ h)
  | ring _ _ _ _ _ _ => exact changesOnly_tile (execRing_frame _ _ _ _ _ _ _ h)
  | ringFire _ => exact .of_rest (execRingFire_frame _ _ h)
  | wait _ _ _ _ _ => exact .of_rest (execWait_frame _ _ _ _ _ _ h)
  | fence t k scope q => exact changesOnly_tile (execFence_frame t k scope q s h)
  | flags _ _ _ _ => exact changesOnly_tile (execFlags_frame _ _ _ _ _ h)
  | tally _ _ _ => exact changesOnly_tile (execTally_frame _ _ _ _ h)
  | mma _ _ => exact changesOnly_tile (execMma_frame _ _ _ h)
  | drain _ _ => exact changesOnly_tile (execDrain_frame _ _ _ h)
  | sclr _ => exact changesOnly_tile (execSclr_frame _ _ h)
  | ssto _ => exact changesOnly_tile (execSsto_frame _ _ h)
  | seed _ => exact changesOnly_tile (execSeed_frame _ _ h)
  | vadd _ => exact changesOnly_tile (execVadd_frame _ _ h)
  | vsub _ => exact changesOnly_tile (execVsub_frame _ _ h)
  | vmul _ => exact changesOnly_tile (execVmul_frame _ _ h)
  | vfma _ => exact changesOnly_tile (execVfma_frame _ _ h)
  | vfnma _ => exact changesOnly_tile (execVfnma_frame _ _ h)
  | vmin _ => exact changesOnly_tile (execVmin_frame _ _ h)
  | vmax _ => exact changesOnly_tile (execVmax_frame _ _ h)
  | vabs _ => exact changesOnly_tile (execVabs_frame _ _ h)
  | vneg _ => exact changesOnly_tile (execVneg_frame _ _ h)
  | vdiv _ => exact changesOnly_tile (execVdiv_frame _ _ h)
  | vsqrt _ => exact changesOnly_tile (execVsqrt_frame _ _ h)
  | vcmplt _ => exact changesOnly_tile (execVcmplt_frame _ _ h)
  | vcmpeq _ => exact changesOnly_tile (execVcmpeq_frame _ _ h)
  | vclass _ => exact changesOnly_tile (execVclass_frame _ _ h)
  | vsel _ => exact changesOnly_tile (execVsel_frame _ _ h)
  | vbcast _ => exact changesOnly_tile (execVbcast_frame _ _ h)
  | vld _ => exact changesOnly_tile (execVld_frame _ _ h)
  | vst _ => exact changesOnly_tile (execVst_frame _ _ h)
  | vrsum _ => exact changesOnly_tile (execVrsum_frame _ _ h)
  | vrmax _ => exact changesOnly_tile (execVrmax_frame _ _ h)
  | viadd _ => exact changesOnly_tile (execViadd_frame _ _ h)
  | visub _ => exact changesOnly_tile (execVisub_frame _ _ h)
  | vimul _ => exact changesOnly_tile (execVimul_frame _ _ h)
  | vand _ => exact changesOnly_tile (execVand_frame _ _ h)
  | vor _ => exact changesOnly_tile (execVor_frame _ _ h)
  | vxor _ => exact changesOnly_tile (execVxor_frame _ _ h)
  | vshl _ => exact changesOnly_tile (execVshl_frame _ _ h)
  | vshr _ => exact changesOnly_tile (execVshr_frame _ _ h)
  | vshra _ => exact changesOnly_tile (execVshra_frame _ _ h)
  | vcvtif _ => exact changesOnly_tile (execVcvtif_frame _ _ h)
  | vcvtfi _ => exact changesOnly_tile (execVcvtfi_frame _ _ h)
  | vmov _ => exact changesOnly_tile (execVmov_frame _ _ h)
  | instructionCompletion _ _ _ => exact changesOnly_tile (execInstructionCompletion_frame _ _ _ _ h)
  | msub _ => exact changesOnly_tile (execMsub_frame _ _ h)
  | copy _ _ => exact .of_rest (execCopy_frame _ _ _ h)
  | transpose _ _ => exact .of_rest (execTranspose_frame _ _ _ h)
  | fill _ _ => exact .of_rest (execFill_frame _ _ _ h)
  | inline _ _ => exact .of_rest (execInline_frame _ _ _ h)
  | put _ _ => exact .of_rest (execPut_frame _ _ _ h)
  | get _ _ => exact .of_rest (execGet_frame _ _ _ h)
  | descriptorComplete _ _ => exact .of_rest (execDescriptorComplete_frame _ _ _ h)
  | set _ _ => exact .of_rest (execSet_frame _ _ _ h)
  | ringRegisterWrite _ _ _ => exact .of_rest (execRingRegisterWrite_frame _ _ _ _ h)
  | bellBatch _ _ => exact .of_rest (execBellBatch_frame _ _ _ h)
  | launch _ _ => exact .of_rest (execLaunch_frame _ _ _ h)
  | tileStop _ => exact changesOnly_tile (execTileStop_frame _ _ h)
  | tileProgramEnd _ => exact .of_rest (execTileProgramEnd_frame _ _ h)
  | completionRecord _ => exact .of_rest (execCompletionRecord_frame _ _ h)
  | tileClearEnd _ => exact .of_rest (execTileClearEnd_frame _ _ h)
  | arraySelfTest _ _ => exact .of_rest (execArraySelfTest_frame _ _ _ h)
  | srSeedWrite _ _ => exact .of_rest (execSrSeedWrite_frame _ _ _ h)
  | memoryWrite _ _ _ => exact .of_rest (execMemoryWrite_frame _ _ _ _ h)
  | lowerTierTimeout _ _ => exact .of_rest (execLowerTierTimeout_frame _ _ _ h)
  | writebackRetry _ => exact .of_rest (execWritebackRetry_frame _ _ h)
  | coreLoad _ _ _ _ _ _ => exact .of_rest (execCoreLoad_frame _ _ _ _ _ _ _ h)
  | coreStore _ _ _ _ _ => exact .of_rest (execCoreStore_frame _ _ _ _ _ _ h)
  | coreAmo _ _ _ _ _ _ => exact .of_rest (execCoreAmo_frame _ _ _ _ _ _ _ h)
  | cacheSweepComplete => exact .of_rest (execCacheSweepComplete_frame _ h)
  | qmodeWrite _ _ => exact .of_rest (execQmodeWrite_frame _ _ _ h)
  | stackInitComplete _ _ => exact .of_rest (execStackInitComplete_frame _ _ _ h)
  | faultResp _ => exact .of_rest (execFaultResp_frame _ _ h)
  | fqResp _ => exact .of_rest (execFqResp_frame _ _ h)
  | ioinval _ => exact .of_rest (execIoinval_frame _ _ h)
  | ioinvalComplete => exact .of_rest (execIoinvalComplete_frame _ h)
  | tocsinPost _ => exact .of_rest (execTocsinPost_frame _ _ h)
  | tqConsWrite _ => exact .of_rest (execTqConsWrite_frame _ _ h)
  | tqEnable _ => exact .of_rest (execTqEnable_frame _ _ h)
  | overflowMarkerRewrite => exact .of_rest (execOverflowMarkerRewrite_frame _ h)
  | forwardQueuePost _ => exact .of_rest (execForwardQueuePost_frame _ _ h)
  | counterDecay => exact .of_rest (execCounterDecay_frame _ h)
  | migrationCopy => exact .of_rest (execMigrationCopy_frame _ h)
  | migrationZero => exact .of_rest (execMigrationZero_frame _ h)
  | migrationAdvise => exact .of_rest (execMigrationAdvise_frame _ h)
  | winCommit _ => exact .of_rest (execWinCommit_frame _ _ h)
  | unmapGo v => exact .of_rest (execUnmapGo_frame v s h)
  | unmapPhaseOneComplete => exact .of_rest (execUnmapPhaseOneComplete_frame _ h)
  | unmapDrained => exact .of_rest (execUnmapDrained_frame _ h)
  | coreStart _ _ => exact .of_rest (execCoreStart_frame _ _ _ h)
  | cboClean _ _ => exact .of_rest (execCboClean_frame _ _ _ h)
  | cboFlush _ _ => exact .of_rest (execCboFlush_frame _ _ _ h)
  | cboInval _ _ => exact .of_rest (execCboInval_frame _ _ _ h)
  | cleanByRange _ => exact .of_rest (execCleanByRange_frame _ _ h)
  | invalidateByRange _ => exact .of_rest (execInvalidateByRange_frame _ _ h)
  | rangeOperationComplete _ => exact .of_rest (execRangeOperationComplete_frame _ _ h)
  | machineTimerInterrupt _ => exact .of_rest (execMachineTimerInterrupt_frame _ _ h)
  | hostMsgFree _ => exact .of_rest (execHostMsgFree_frame _ _ h)
  | rtMsgOffer _ => exact .of_rest (execRtMsgOffer_frame _ _ h)
  | monitorEvaluation _ _ _ _ => exact .of_rest (execMonitorEvaluation_frame _ _ _ _ _ h)
  | trimSave => exact .of_rest (execTrimSave_frame _ h)
  | streamOpen _ _ => exact .of_rest (execStreamOpen_frame _ _ _ h)
  | streamClose _ _ => exact .of_rest (execStreamClose_frame _ _ _ h)
  | doorbell _ _ => exact .of_rest (execDoorbell_frame _ _ _ h)
  | streamNop _ _ => exact .of_rest (execStreamNop_frame _ _ _ h)
  | streamInline _ _ => exact .of_rest (execStreamInline_frame _ _ _ h)
  | inlineChain _ _ => exact .of_rest (execInlineChain_frame _ _ _ h)
  | streamCopy _ _ => exact .of_rest (execStreamCopy_frame _ _ _ h)
  | streamLaunch _ _ _ _ => exact .of_rest (execStreamLaunch_frame _ _ _ _ _ h)
  | streamTerminate _ _ => exact .of_rest (execStreamTerminate_frame _ _ _ h)
  | streamRing _ _ => exact .of_rest (execStreamRing_frame _ _ _ h)
  | streamWait _ _ => exact .of_rest (execStreamWait_frame _ _ _ h)
  | streamFence _ _ => exact .of_rest (execStreamFence_frame _ _ _ h)
  | roll _ _ => exact .of_rest (execRoll_frame _ _ _ h)
  | completionEntry _ _ => exact .of_rest (execCompletionEntry_frame _ _ _ h)
  | apertureWrite _ _ _ => exact .of_rest (execApertureWrite_frame _ _ _ _ h)
  | cxlMemWrite _ _ => exact .of_rest (execCxlMemWrite_frame _ _ _ h)
  | hdmCommit _ _ => exact .of_rest (execHdmCommit_frame _ _ _ h)
  | hostSnoop _ _ => exact .of_rest (execHostSnoop_frame _ _ _ h)
  | getSupportedLogs => exact .of_rest (execGetSupportedLogs_frame _ h)
  | getLog => exact .of_rest (execGetLog_frame _ h)
  | runtimeSend _ => exact .of_rest (execRuntimeSend_frame _ _ h)
  | runtimeRecv => exact .of_rest (execRuntimeRecv_frame _ h)
  | linkRecovery => exact .of_rest (execLinkRecovery_frame _ h)
  | hostLoss _ => exact .of_rest (execHostLoss_frame _ _ h)
  | hostLinkUp _ => exact .of_rest (execHostLinkUp_frame _ _ h)
  | kettleRoll _ => exact .of_rest (execKettleRoll_frame _ _ h)
  | currentLimitAlert _ _ => exact .of_rest (execCurrentLimitAlert_frame _ _ _ h)
  | railTargetReached => exact .of_rest (execRailTargetReached_frame _ h)
  | dictRead _ _ => exact .of_rest (execDictRead_frame _ _ _ h)
  | dictDescribe _ _ => exact .of_rest (execDictDescribe_frame _ _ _ h)
  | dictDiscover _ _ => exact .of_rest (execDictDiscover_frame _ _ _ h)
  | dictOpen _ _ => exact .of_rest (execDictOpen_frame _ _ _ h)
  | dictClose _ _ => exact .of_rest (execDictClose_frame _ _ _ h)
  | sessionIdleTimeout _ _ => exact .of_rest (execSessionIdleTimeout_frame _ _ _ h)
  | frameDrop why => exact .of_rest (execFrameDrop_frame why s h)
  | sealedComplete => exact .of_rest (execSealedComplete_frame _ h)
  | telemetryWindow => exact .of_rest (execTelemetryWindow_frame _ h)
  | getVersion _ => exact .of_rest (execGetVersion_frame _ _ h)
  | getCapabilities _ => exact .of_rest (execGetCapabilities_frame _ _ h)
  | negotiateAlgorithms _ _ => exact .of_rest (execNegotiateAlgorithms_frame _ _ _ h)
  | getDigests _ => exact .of_rest (execGetDigests_frame _ _ h)
  | getCertificate _ _ _ _ => exact .of_rest (execGetCertificate_frame _ _ _ _ _ h)
  | challenge _ _ => exact .of_rest (execChallenge_frame _ _ _ h)
  | getMeasurements _ _ => exact .of_rest (execGetMeasurements_frame _ _ _ h)
  | keyExchange _ _ => exact .of_rest (execKeyExchange_frame _ _ _ h)
  | finish _ _ _ => exact .of_rest (execFinish_frame _ _ _ _ h)
  | heartbeat _ => exact .of_rest (execHeartbeat_frame _ _ h)
  | keyUpdate _ => exact .of_rest (execKeyUpdate_frame _ _ h)
  | endSession _ => exact .of_rest (execEndSession_frame _ _ h)
  | romBegin _ _ => exact .of_rest (execRomBegin_frame _ _ _ h)
  | romData _ _ => exact .of_rest (execRomData_frame _ _ _ h)
  | powerOn _ => exact .of_rest (execPowerOn_frame _ _ h)
  | latchOpened _ => exact .of_rest (execLatchOpened_frame _ _ h)
  | bayInserted _ => exact .of_rest (execBayInserted_frame _ _ h)
  | unitOutOfService _ => exact .of_rest (execUnitOutOfService_frame _ _ h)
  | portEnable _ _ => exact .of_rest (execPortEnable_frame _ _ _ h)
  | portDisable _ _ => exact .of_rest (execPortDisable_frame _ _ _ h)
  | widthRequest _ _ => exact .of_rest (execWidthRequest_frame _ _ _ h)
  | widthLapse _ => exact .of_rest (execWidthLapse_frame _ _ h)
  | portBringup _ _ => exact .of_rest (execPortBringup_frame _ _ _ h)
  | neighbourRecheck _ => exact .of_rest (execNeighbourRecheck_frame _ _ h)
  | coordinateCheck _ => exact .of_rest (execCoordinateCheck_frame _ _ h)
  | linkHeartbeatTimeout _ => exact .of_rest (execLinkHeartbeatTimeout_frame _ _ h)
  | flitDiscard _ _ => exact .of_rest (execFlitDiscard_frame _ _ _ h)
  | linkReplay _ _ => exact .of_rest (execLinkReplay_frame _ _ _ h)
  | caps _ _ => exact .of_rest (execCaps_frame _ _ _ h)
  | width _ _ => exact .of_rest (execWidth_frame _ _ _ h)
  | key _ => exact .of_rest (execKey_frame _ _ h)
  | spdm _ _ => exact .of_rest (execSpdm_frame _ _ _ h)
  | rekey _ _ => exact .of_rest (execRekey_frame _ _ _ h)
  | putData _ _ => exact .of_rest (execPutData_frame _ _ _ h)
  | remoteRing _ _ => exact .of_rest (execRemoteRing_frame _ _ _ h)
  | putAck _ _ => exact .of_rest (execPutAck_frame _ _ _ h)
  | getData _ _ => exact .of_rest (execGetData_frame _ _ _ h)
  | nack _ _ => exact .of_rest (execNack_frame _ _ _ h)
  | peal _ _ => exact .of_rest (execPeal_frame _ _ _ h)
  | messageTimeout _ _ => exact .of_rest (execMessageTimeout_frame _ _ _ h)
  | slotEpochAdvance _ _ => exact .of_rest (execSlotEpochAdvance_frame _ _ _ h)
  | violationHalving => exact .of_rest (execViolationHalving_frame _ h)
  | qclear _ _ => exact .of_rest (execQclear_frame _ _ _ h)
  | rs _ => exact .of_rest (execRs_frame _ _ h)
  | ag _ => exact .of_rest (execAg_frame _ _ h)
  | ar _ => exact .of_rest (execAr_frame _ _ h)
  | pealTimeout _ => exact .of_rest (execPealTimeout_frame _ _ h)
  | pealDescriptorComplete _ => exact .of_rest (execPealDescriptorComplete_frame _ _ h)
  | pealBind _ => exact .of_rest (execPealBind_frame _ _ h)
  | lotHandover _ _ => exact .of_rest (execLotHandover_frame _ _ _ h)
  | jobAccept => exact .of_rest (execJobAccept_frame _ h)
  | lotRun _ => exact .of_rest (execLotRun_frame _ _ h)
  | jobComplete _ => exact .of_rest (execJobComplete_frame _ _ h)
  | cadAdv v => exact .of_rest (execCadAdv_frame v s h)
  | cadSetC _ => exact .of_rest (execCadSetC_frame _ _ h)
  | cadCommit v => exact .of_rest (execCadCommit_frame v s h)
  | cadenceDelivery => exact .of_rest (execCadenceDelivery_frame _ h)
  | hoopPacket _ _ _ => exact .of_rest (execHoopPacket_frame _ _ _ _ h)
  | linkControl _ _ _ => exact .of_rest (execLinkControl_frame _ _ _ _ h)
  | linkControlSend _ _ => exact .of_rest (execLinkControlSend_frame _ _ _ h)
  | retrain _ => exact .of_rest (execRetrain_frame _ _ h)
  | trainingComplete _ _ => exact .of_rest (execTrainingComplete_frame _ _ _ h)
  | registerWrite _ _ _ => exact .of_rest (execRegisterWrite_frame _ _ _ _ h)
  | linkReturnToL0 _ => exact .of_rest (execLinkReturnToL0_frame _ _ h)
  | supervisorTimerInterrupt _ _ => exact .of_rest (execSupervisorTimerInterrupt_frame _ _ _ h)
  | idleFlit _ _ => exact .of_rest (execIdleFlit_frame _ _ _ h)
  | fqConsWrite _ => exact .of_rest (execFqConsWrite_frame _ _ h)
  | fqEnable _ => exact .of_rest (execFqEnable_frame _ _ h)
  | migrationDescriptorComplete => exact .of_rest (execMigrationDescriptorComplete_frame _ h)
  | writeSlotEnded _ => exact .of_rest (execWriteSlotEnded_frame _ _ h)
  | doeDiscovery _ => exact .of_rest (execDoeDiscovery_frame _ _ h)
  | ideKm _ _ _ => exact .of_rest (execIdeKm_frame _ _ _ _ h)
  | enTied _ => exact .of_rest (execEnTied_frame _ _ h)
  -- The memory system is reached, but no byte of memory.
  | vcnt _ _ => exact .of_bytes (execVcnt_frame _ _ _ h) (execVcnt_bytes _ _ _ h)
  | clapperVld _ _ _ _ => exact .of_bytes (execClapperVld_frame _ _ _ _ _ h) (execClapperVld_bytes _ _ _ _ _ h)
  | clapperVst _ _ _ _ _ => exact .of_bytes (execClapperVst_frame _ _ _ _ _ _ h) (execClapperVst_bytes _ _ _ _ _ _ h)
  | clapperVbcast _ _ _ _ => exact .of_bytes (execClapperVbcast_frame _ _ _ _ _ h) (execClapperVbcast_bytes _ _ _ _ _ h)
  | descriptorAccept _ => exact .of_bytes (execDescriptorAccept_frame _ _ h) (execDescriptorAccept_bytes _ _ h)
  | terminate => exact .of_bytes (execTerminate_frame _ h) (execTerminate_bytes _ h)
  | memoryRead _ _ _ => exact .of_bytes (execMemoryRead_frame _ _ _ _ h) (execMemoryRead_bytes _ _ _ _ h)
  | patrolScrub _ => exact .of_bytes (execPatrolScrub_frame _ _ h) (execPatrolScrub_bytes _ _ h)
  | ceInnerCollect _ _ => exact .of_bytes (execCeInnerCollect_frame _ _ _ h) (execCeInnerCollect_bytes _ _ _ h)
  | lateResponseDiscard _ _ => exact .of_bytes (execLateResponseDiscard_frame _ _ _ h) (execLateResponseDiscard_bytes _ _ _ h)
  | poolWrite _ _ => exact .of_bytes (execPoolWrite_frame _ _ _ h) (execPoolWrite_bytes _ _ _ h)
  | stackFailure _ => exact .of_bytes (execStackFailure_frame _ _ h) (execStackFailure_bytes _ _ h)
  | slotRead _ => exact .of_bytes (execSlotRead_frame _ _ h) (execSlotRead_bytes _ _ h)
  | slotReread _ => exact .of_bytes (execSlotReread_frame _ _ h) (execSlotReread_bytes _ _ h)
  | apertureRead _ _ _ => exact .of_bytes (execApertureRead_frame _ _ _ _ h) (execApertureRead_bytes _ _ _ _ h)
  | cxlMemRead _ _ => exact .of_bytes (execCxlMemRead_frame _ _ _ h) (execCxlMemRead_bytes _ _ _ h)
  | reintegration _ _ => exact .of_bytes (execReintegration_frame _ _ _ h) (execReintegration_bytes _ _ _ h)
  | getReq _ _ => exact .of_bytes (execGetReq_frame _ _ _ h) (execGetReq_bytes _ _ _ h)
  -- What can start a cold reset or take power away.
  | mydarRequest _ => exact changesOnly_allParts (by simp only [execMydarRequest_frame _ _ h])
  | kettleCycle _ => exact changesOnly_allParts (by simp only [execKettleCycle_frame _ _ h])
  | inputReport _ _ => exact changesOnly_allParts (by simp only [execInputReport_frame _ _ _ h])
  | dictWrite _ _ => exact changesOnly_allParts (by simp only [execDictWrite_frame _ _ _ h])
  | dictFreeze _ _ => exact changesOnly_allParts (by simp only [execDictFreeze_frame _ _ _ h])
  | dictRelease _ _ => exact changesOnly_allParts (by simp only [execDictRelease_frame _ _ _ h])
  | romEnd => exact changesOnly_allParts (by simp only [execRomEnd_frame _ h])
  | resetN _ _ => exact changesOnly_allParts (by simp only [execResetN_frame _ _ _ h])
  | enBreak _ => exact changesOnly_allParts (by simp only [execEnBreak_frame _ _ h])
  | actNone _ => exact changesOnly_allParts (by simp only [execActNone_frame _ _ h])
  | coldReset _ => exact changesOnly_allParts (by simp only [execColdReset_frame _ _ h])
  | bringupDone _ => exact changesOnly_allParts (by simp only [execBringupDone_frame _ _ h])
  | takeOut _ _ _ => exact changesOnly_allParts (by simp only [execTakeOut_frame _ _ _ _ h])
  | bringBack _ _ => exact changesOnly_allParts (by simp only [execBringBack_frame _ _ _ h])
  | retest _ _ => exact changesOnly_allParts (by simp only [execRetest_frame _ _ _ h])
  | dieReset _ _ => exact changesOnly_allParts (by simp only [execDieReset_frame _ _ _ h])
  | writeSlot _ _ _ _ => exact changesOnly_allParts (by simp only [execWriteSlot_frame _ _ _ _ _ h])
  | debugOpen _ _ => exact changesOnly_allParts (by simp only [execDebugOpen_frame _ _ _ h])
  | debugClose _ => exact changesOnly_allParts (by simp only [execDebugClose_frame _ _ h])

end

/-- Settles O5: a command answers a next state, and its frame lists what may differ there. -/
theorem commandFrames : Obligations.CommandFrames := fun c s =>
  have ⟨t, ht⟩ := exec_total c s
  ⟨t, ht, exec_changesOnly c ht⟩

/-- Settles O1: both are the definition of a step, by what the queue holds. -/
theorem stepRunsTheFrontCommand : Obligations.StepRunsTheFrontCommand :=
  ⟨fun _ _ _ => rfl, fun s hs => by rw [step, hs]⟩

end Sys2Proof.Machine

/-! ## Command streams open and close

What a write of CMD makes of a stream, with the rules of a stream's own state that the later statements about streams share; the
statement O32 settled from them. -/

namespace Sys2Proof.Machine

/-! ### A stream under the operations of its attachment -/

section
variable {s : State} {k : StreamId} {i : Nat} {c : StreamCmd}

theorem stream_of_cxl {u : State} (h : u.cxl = s.cxl) (k : StreamId) : u.stream k = s.stream k := by simp only [State.stream, h]

@[simp] theorem vector_stream (s : State) (v : Nat) (k : StreamId) : (s.vector v).stream k = s.stream k := rfl

@[simp] theorem hostLog_stream (s : State) (kind stream requester data detail : Nat) (k : StreamId) :
    (s.hostLog kind stream requester data detail).stream k = s.stream k := rfl

@[simp] theorem hostLog_logTotal (s : State) (kind stream requester data detail : Nat) :
    (s.hostLog kind stream requester data detail).cxl.logTotal = (s.cxl.logTotal + 1) % 2 ^ 24 := rfl

@[simp] theorem served_stream (s : State) (j k : StreamId) : (s.served j).stream k = s.stream k := rfl

/-- What a command leaves when it has ended without an entry, or what closes when nothing is left (R403, R413). -/
theorem tidy_stream (s : State) (k : StreamId) {x : StreamS}
    (hx : x = { s.stream k with cmds := (s.stream k).cmds.filter fun c => !s.silent k c }) :
    (s.tidy k).stream k = if x.state = 3 ∧ x.cmds = [] then x.closed else x := by
  subst hx
  unfold State.tidy
  dsimp only
  split
  next h => simp_all
  next h => rw [if_neg (by simpa using h), State.setStream_stream_self]

theorem tidy_cmds (s : State) (k : StreamId) : ((s.tidy k).stream k).cmds = (s.stream k).cmds.filter fun c => !s.silent k c := by
  rw [tidy_stream s k rfl]
  split <;> rfl

/-- A stream with a command left keeps its state. -/
theorem tidy_state (h : ((s.tidy k).stream k).cmds ≠ []) : ((s.tidy k).stream k).state = (s.stream k).state := by
  rw [tidy_cmds] at h
  rw [tidy_stream s k rfl, if_neg fun hc => h hc.2]

/-- A stream that is not CLOSING keeps all but its commands. -/
theorem tidy_stream_open (h : (s.stream k).state ≠ 3) :
    (s.tidy k).stream k = { s.stream k with cmds := (s.stream k).cmds.filter fun c => !s.silent k c } :=
  (tidy_stream s k rfl).trans (if_neg fun hc => h hc.1)

end

/-! ### Open and close (R402, R403) -/

section
variable {s : State} {k : StreamId} {v : W32}

/-- The fields of a word of CMD whose low half has no bit above the operation. -/
theorem cmd_fields {op : Nat} (hop : v.toNat % 4 = op) (hlow : v.toNat % 2 ^ 16 < 4) :
    bitsOf v.toNat 0 2 = op ∧ bitsOf v.toNat 2 14 = 0 := by
  simp only [bitsOf]
  omega

theorem writeCmd_refused {st : W32} (hop : v.toNat % 4 = 1) (hlow : v.toNat % 2 ^ 16 < 4) (hclosed : (s.stream k).state = 0)
    (hcheck : (s.stream k).openCheck v = some st) :
    s.writeCmd k v = (s.setStream k { s.stream k with status := st }).vector (s.stream k).evec := by
  obtain ⟨h1, h2⟩ := cmd_fields hop hlow
  simp [State.writeCmd, h1, h2, hclosed, hcheck]

theorem writeCmd_opens (hop : v.toNat % 4 = 1) (hlow : v.toNat % 2 ^ 16 < 4) (hclosed : (s.stream k).state = 0)
    (hcheck : (s.stream k).openCheck v = none) :
    s.writeCmd k v = (s.setStream k (s.stream k).opened).vector (s.stream k).evec := by
  obtain ⟨h1, h2⟩ := cmd_fields hop hlow
  simp [State.writeCmd, h1, h2, hclosed, hcheck]

/-- A stream as a close leaves it, before what has ended without an entry leaves it. -/
def State.closingStream (s : State) (k : StreamId) : StreamS :=
  { s.stream k with state := 3, waits := [], seen := 0, cmds := (s.stream k).cmds.filter (s.survives k) }

theorem writeCmd_closes (hop : v.toNat % 4 = 2) (hlow : v.toNat % 2 ^ 16 < 4) (hopen : (s.stream k).state = 1 ∨ (s.stream k).state = 2) :
    s.writeCmd k v = State.tidy (s.setStream k (s.closingStream k)) k := by
  obtain ⟨h1, h2⟩ := cmd_fields hop hlow
  simp [State.writeCmd, h1, h2, hopen, State.closingStream]

/-- A transfer under way survives a close, and is not over. -/
theorem closing_keeps_transfer {c : StreamCmd} (hc : c ∈ (s.stream k).cmds) (hphase : c.phase = .translated) (h4 : c.op ≠ 4) (h7 : c.op ≠ 7) :
    c ∈ (((s.setStream k (s.closingStream k)).tidy k).stream k).cmds := by
  have hsurvives : s.survives k c = true := by simp [State.survives, hphase, h4, h7]
  have hsilent : (s.setStream k (s.closingStream k)).silent k c = false := by simp [State.silent, State.cmdEnd, hphase]
  rw [tidy_cmds, State.setStream_stream_self]
  exact List.mem_filter.2 ⟨List.mem_filter.2 ⟨hc, hsurvives⟩, by simp [hsilent]⟩

end

/-- Settles O32: an open by its check, then the close of a stream in which nothing has started and of one with a transfer under way. -/
theorem streamLifeCycle : Obligations.StreamLifeCycle := by
  refine fun k s => ⟨fun v hop hlow hclosed => ⟨fun hcheck => ?opens, fun st hcheck => ?refused⟩,
    fun v hop hlow hopen => ⟨fun hidle => ?closes, fun c hc hphase h4 h7 => ?closing⟩⟩
  case opens =>
    refine gives_next (congrArg Host.Outcome.next (writeCmd_opens hop hlow hclosed hcheck)) ?_
    rw [vector_stream, State.setStream_stream_self]
    exact ⟨rfl, rfl, rfl, rfl, rfl, rfl, rfl⟩
  case refused =>
    refine gives_next (congrArg Host.Outcome.next (writeCmd_refused hop hlow hclosed hcheck)) ?_
    rw [vector_stream, State.setStream_stream_self]
  case closes =>
    have hnone : (s.stream k).cmds.filter (s.survives k) = [] :=
      List.filter_eq_nil_iff.2 fun c hc => by simp [State.survives, hidle c hc]
    refine gives_next (congrArg Host.Outcome.next (writeCmd_closes hop hlow hopen)) ?_
    rw [tidy_stream _ k rfl, State.setStream_stream_self]
    simp [State.closingStream, hnone, StreamS.closed]
  case closing =>
    have hmem := closing_keeps_transfer hc hphase h4 h7
    refine gives_next (congrArg Host.Outcome.next (writeCmd_closes hop hlow hopen)) ⟨?_, hmem⟩
    rw [tidy_state (List.ne_nil_of_mem hmem), State.setStream_stream_self, State.closingStream]

end Sys2Proof.Machine

/-! ## The slots of a stream, and its commands

How a slot is read, accepted or awaited, and what each command does when it starts; the statement O34 settled from them. -/

namespace Sys2Proof.Machine

/-! ### A command that ends (R412, R413) -/

section
variable {s : State} {k : StreamId} {i op : Nat} {c : StreamCmd}

theorem tidy_kernels (s : State) (k : StreamId) : (s.tidy k).kern.kernels = s.kern.kernels := by
  unfold State.tidy
  dsimp only
  split <;> rfl

theorem mem_set_of_getElem? {α : Type} {l : List α} {i : Nat} {x : α} (h : l[i]? = some x) (y : α) : y ∈ l.set i y := by
  obtain ⟨hi, -⟩ := List.getElem?_eq_some_iff.1 h
  exact List.mem_iff_getElem?.2 ⟨i, by simp [hi]⟩

/-- A command that has ended is silent where no entry is due for it. -/
theorem silent_done (s : State) (k : StreamId) (c : StreamCmd) (st : W32) :
    s.silent k { c with phase := .done, status := st } = !(c.cmpl || decide (st ≠ 0#32)) := by
  simp [State.silent, State.cmdEnd, StreamCmd.entryDue, stOk_eq]

/-- The command ended stays in its stream where an entry is due, and leaves it where none is. -/
theorem ended_cmdDone {d : StreamCmd} (hd : (s.stream k).cmds[i]? = some d) (c : StreamCmd) (st : W32) : (s.cmdDone k i c st).ended k c st := by
  unfold State.ended State.cmdDone
  rw [tidy_cmds, List.mem_filter, State.setCmd, State.setStream_stream_self, silent_done, Bool.not_not]
  simp [mem_set_of_getElem? hd]

theorem cmdAt_some {ph : CmdPhase} (h : s.cmdAt k i op ph = some c) : (s.stream k).cmds[i]? = some c ∧ c.op = op ∧ c.phase = ph := by
  simp only [State.cmdAt, Option.bind_eq_some_iff, Option.ite_none_right_eq_some, Bool.and_eq_true, decide_eq_true_eq, Option.some.injEq] at h
  obtain ⟨d, hd, ⟨hop, hph⟩, rfl⟩ := h
  exact ⟨hd, hop, hph⟩

theorem starting_cmdAt (h : s.starting k i op = some c) : s.cmdAt k i op .accepted = some c := by
  simp only [State.starting, Option.bind_eq_some_iff, Option.ite_none_right_eq_some, Option.some.injEq] at h
  obtain ⟨d, hd, -, rfl⟩ := h
  exact hd

/-- A command that may start stands at its place. -/
theorem starting_getElem? (h : s.starting k i op = some c) : (s.stream k).cmds[i]? = some c := (cmdAt_some (starting_cmdAt h)).1

/-- A command that may start is in no later phase. -/
theorem starting_cmdAt_none (h : s.starting k i op = some c) {ph : CmdPhase} (hph : ph ≠ .accepted) : s.cmdAt k i op ph = none := by
  obtain ⟨hi, -, hc⟩ := cmdAt_some (starting_cmdAt h)
  simp [State.cmdAt, hi, hc, hph.symm]

end

/-! ### Reading a slot (R405) -/

section
variable {s : State} {k : StreamId} {j : Nat} {bs : List Byte}

theorem streamReads_iff : s.streamReads k = true ↔ (s.stream k).state = 1 ∧ s.cxl.state = 1 := by simp [State.streamReads]

/-- A route carries every request of the C-die to the host window. -/
theorem routed_host {a n : Nat} (h : engineRange a n = some .host) : s.routed a 4 = true := by
  simp [State.routed, MemS.homeDie, (engineRange_some h).1]

/-- A slot in sound host memory is read as it stands. -/
theorem readSlot_holds (hup : s.cxl.state = 1) (h : s.slotHolds k j bs) : s.readSlot k j = (s, some bs) := by
  obtain ⟨hrange, hsound, hbytes⟩ := h
  simp [State.readSlot, State.readMemBy, hrange, routed_host hrange, hostServes_of_up hup, hsound, hbytes]

theorem notReady_holds (hup : s.cxl.state = 1) (h : s.slotHolds k 0 bs) :
    s.notReady k [0] = (s, if (s.stream k).tagged 0 bs then [] else [0]) := by
  simp [State.notReady, State.slotReady, readSlot_holds hup h]

end

/-! ### Acceptance (R405, R412) -/

section
variable {s s1 : State} {k : StreamId} {bs : List Byte} {c : StreamCmd} {m : Nat}

/-- Where no status is reported, no check failed. -/
theorem checks_of_firstStatus_none {l : List (Bool × W32)} (h : firstStatus l = none) (e : Bool × W32) (he : e ∈ l) : e.1 = false := by
  obtain ⟨_ | _, st⟩ := e
  · rfl
  simp only [firstStatus] at h
  (repeat' split at h) <;> simp_all

/-- A head that passes its checks and has no continuations is accepted in its one slot. -/
theorem takeHead_accepts (hann : (s.stream k).announced ≠ 0) (hwaits : (s.stream k).waits = []) (h : s.admitsHead k bs c s1) :
    s.takeHead k bs = (s1.setStream k ((s.stream k).accept c 1 none)).tidy k := by
  obtain ⟨rfl, hconts, w, hwidth, hcheck⟩ := h
  have hreserved : (StreamCmd.ofHead (s.stream k).nextUid bs).reservedBad (byteAt bs 5) = false :=
    checks_of_firstStatus_none hcheck ((StreamCmd.ofHead (s.stream k).nextUid bs).reservedBad (byteAt bs 5), stReserved)
      (List.mem_cons_of_mem _ (List.mem_cons_self ..))
  have hchain : { StreamCmd.ofHead (s.stream k).nextUid bs with chain := [] } = StreamCmd.ofHead (s.stream k).nextUid bs := rfl
  have hupto : min 1 (s.stream k).announced = 1 := by omega
  simp [State.takeHead, hwidth, hcheck, hconts, hupto, hwaits, State.notReady, State.chainData, hchain, hreserved]

theorem accepted_of_takeHead (hopen : (s.stream k).state = 1) (h : s.admitsHead k bs c s1) :
    accepted s ((s1.setStream k ((s.stream k).accept c 1 none)).tidy k) k c := by
  obtain ⟨rfl, -⟩ := h
  have hsilent (t : State) : t.silent k (StreamCmd.ofHead (s.stream k).nextUid bs) = false := rfl
  have hstate : ((s1.setStream k ((s.stream k).accept (.ofHead (s.stream k).nextUid bs) 1 none)).stream k).state ≠ 3 := by
    rw [State.setStream_stream_self]
    simp [StreamS.accept, hopen]
  unfold accepted
  rw [tidy_stream_open hstate, State.setStream_stream_self]
  simp [StreamS.accept, hsilent]

/-- The head slot is tagged and no slot is awaited: its command is judged. -/
theorem proceed_tagged (hup : s.cxl.state = 1) (hann : (s.stream k).announced ≠ 0) (hslot : s.slotHolds k 0 bs)
    (hwaits : (s.stream k).waits = []) (htag : (s.stream k).tagged 0 bs = true) : s.proceed k = s.takeHead k bs := by
  simp [State.proceed, hann, hwaits, readSlot_holds hup hslot, htag]

/-- The head slot is read for the first time and found not ready: it is awaited. -/
theorem proceed_untagged (hup : s.cxl.state = 1) (hann : (s.stream k).announced ≠ 0) (hslot : s.slotHolds k 0 bs)
    (hwaits : (s.stream k).waits = []) (hseen : (s.stream k).seen = 0) (htag : (s.stream k).tagged 0 bs = false) :
    s.proceed k = s.setStream k { s.stream k with seen := 1, waits := [(0, 0)] } := by
  simp [State.proceed, hann, hwaits, readSlot_holds hup hslot, htag, hseen]

/-- A stream that awaits its head slot reads on nothing. -/
theorem proceed_waits (h : (s.stream k).waits = [(0, m)]) : s.proceed k = s := by simp [State.proceed, h]

theorem exec_slotRead_reads (h : s.streamReads k = true) : exec (.slotRead k) s = .next (s.proceed k) :=
  congrArg Host.Outcome.next (if_pos h)

/-- The awaited head slot is ready at last. -/
theorem exec_slotReread_ready (hreads : s.streamReads k = true) (hslot : s.slotHolds k 0 bs) (hwaits : (s.stream k).waits = [(0, m)])
    (htag : (s.stream k).tagged 0 bs = true) :
    exec (.slotReread k) s = .next ((s.setStream k { s.stream k with waits := [] }).proceed k) := by
  simp [exec_slotReread, execSlotReread, hreads, hwaits, notReady_holds (streamReads_iff.1 hreads).2 hslot, htag]

/-- The awaited head slot is not ready yet. -/
theorem exec_slotReread_waits (hreads : s.streamReads k = true) (hslot : s.slotHolds k 0 bs) (hwaits : (s.stream k).waits = [(0, m)])
    (htag : (s.stream k).tagged 0 bs = false) (hm : m + 1 < 8) :
    exec (.slotReread k) s = .next (s.setStream k { s.stream k with waits := [(0, m + 1)] }) := by
  have hm7 : ¬ 7 ≤ m := by omega
  simp [exec_slotReread, execSlotReread, hreads, hwaits, notReady_holds (streamReads_iff.1 hreads).2 hslot, htag, hm7, proceed_waits]

/-- The eighth re-read that finds the slot not ready stalls the stream. -/
theorem exec_slotReread_stalls (hreads : s.streamReads k = true) (hslot : s.slotHolds k 0 bs) (hwaits : (s.stream k).waits = [(0, m)])
    (htag : (s.stream k).tagged 0 bs = false) (hm : 8 ≤ m + 1) :
    exec (.slotReread k) s = .next ((s.setStream k { s.stream k with waits := [(0, m + 1)] }).stall k 0) := by
  have hm7 : 7 ≤ m := by omega
  simp [exec_slotReread, execSlotReread, hreads, hwaits, notReady_holds (streamReads_iff.1 hreads).2 hslot, htag, hm7]

theorem stall_stream (s : State) (k : StreamId) (j : Nat) :
    (s.stall k j).stream k = { s.stream k with state := 2, status := stSlotNotReady, seen := 0, waits := [] } := by
  rw [State.stall, vector_stream, hostLog_stream, State.setStream_stream_self]

end

/-- The slots of an OPEN stream, read and read again. -/
theorem slots_give (k : StreamId) (s : State) (bs : List Byte) (hreads : s.streamReads k = true) (hann : (s.stream k).announced ≠ 0)
    (hslot : s.slotHolds k 0 bs) :
    (∀ c s1, (s.stream k).waits = [] → (s.stream k).tagged 0 bs = true → s.admitsHead k bs c s1 →
      Gives (.slotRead k) s fun u => accepted s u k c)
    ∧ ((s.stream k).waits = [] → (s.stream k).seen = 0 → (s.stream k).tagged 0 bs = false →
      Gives (.slotRead k) s fun u => u.stream k = { s.stream k with seen := 1, waits := [(0, 0)] })
    ∧ (∀ m c s1, (s.stream k).waits = [(0, m)] → (s.stream k).tagged 0 bs = true →
        (s.setStream k { s.stream k with waits := [] }).admitsHead k bs c s1 →
          Gives (.slotReread k) s fun u => accepted s u k c)
    ∧ (∀ m, (s.stream k).waits = [(0, m)] → (s.stream k).tagged 0 bs = false →
        (m + 1 < 8 → Gives (.slotReread k) s fun u => u.stream k = { s.stream k with waits := [(0, m + 1)] })
        ∧ (8 ≤ m + 1 → Gives (.slotReread k) s fun u => (u.stream k).state = 2 ∧ (u.stream k).status = stSlotNotReady
            ∧ (u.stream k).counter = (s.stream k).counter ∧ u.cxl.logTotal = (s.cxl.logTotal + 1) % 2 ^ 24)) := by
  obtain ⟨hopen, hup⟩ := streamReads_iff.1 hreads
  refine ⟨fun c s1 hwaits htag hadmits => ?accepts, fun hwaits hseen htag => ?awaits, fun m c s1 hwaits htag hadmits => ?ready,
    fun m hwaits htag => ⟨fun hm => ?again, fun hm => ?stalls⟩⟩
  case accepts =>
    refine gives_next ((exec_slotRead_reads hreads).trans (congrArg _ (proceed_tagged hup hann hslot hwaits htag))) ?_
    rw [takeHead_accepts hann hwaits hadmits]
    exact accepted_of_takeHead hopen hadmits
  case awaits =>
    refine gives_next ((exec_slotRead_reads hreads).trans (congrArg _ (proceed_untagged hup hann hslot hwaits hseen htag))) ?_
    rw [State.setStream_stream_self]
  case ready =>
    have hself : (s.setStream k { s.stream k with waits := [] }).stream k = { s.stream k with waits := [] } :=
      State.setStream_stream_self ..
    have hslot' : (s.setStream k { s.stream k with waits := [] }).slotHolds k 0 bs := by
      unfold State.slotHolds
      rw [hself]
      exact hslot
    have hann' : ((s.setStream k { s.stream k with waits := [] }).stream k).announced ≠ 0 := by rwa [hself]
    have hwaits' : ((s.setStream k { s.stream k with waits := [] }).stream k).waits = [] := by rw [hself]
    have htag' : ((s.setStream k { s.stream k with waits := [] }).stream k).tagged 0 bs = true := by rwa [hself]
    refine gives_next ((exec_slotReread_ready hreads hslot hwaits htag).trans
      (congrArg _ (proceed_tagged (s := s.setStream k _) hup hann' hslot' hwaits' htag'))) ?_
    rw [takeHead_accepts hann' hwaits' hadmits]
    have haccepted := accepted_of_takeHead (by rwa [hself]) hadmits
    unfold accepted at haccepted ⊢
    rw [hself] at haccepted ⊢
    exact haccepted
  case again =>
    refine gives_next (exec_slotReread_waits hreads hslot hwaits htag hm) ?_
    rw [State.setStream_stream_self]
  case stalls =>
    refine gives_next (exec_slotReread_stalls hreads hslot hwaits htag hm) ?_
    rw [stall_stream, State.setStream_stream_self]
    exact ⟨rfl, rfl, rfl, rfl⟩

/-! ### Accesses of the C-die to a sound span, counted at its home -/

section
variable {s u : State} {a n : Nat} {bs : List Byte}

theorem memSpan_readMem (h : s.memSpan a n) : s.readMem a n 4 = ⟨s.countSpan a n 4 false, stOk, s.mem.load a n⟩ := by
  obtain ⟨r, hrange, hhost, hserves, hclean⟩ := h
  exact readMem_ok s true a n 4 r hrange hhost hserves hclean

theorem memSpan_writeMem (h : s.memSpan a bs.length) :
    ∃ u, s.writeMem a bs 4 = ⟨u, stOk, []⟩ ∧ u.cxl = s.cxl ∧ u.mem.load a bs.length = bs
      ∧ ∀ b, b < a ∨ a + bs.length ≤ b → u.mem.load b 1 = s.mem.load b 1 := by
  obtain ⟨r, hrange, hhost, hserves, hclean⟩ := h
  obtain ⟨u, hwrite, -, -, -, -, hin, hout⟩ := writeMem_ok s true a 4 bs r hrange hhost hserves hclean
  have hu : (s.writeMem a bs 4).st = u := congrArg Resp.st hwrite
  exact ⟨u, hwrite, by simp [← hu], hin, hout⟩

theorem memSpan_congr (hm : u.mem = s.mem) (hn : u.net = s.net) (h : s.memSpan a n) : u.memSpan a n := by
  obtain ⟨r, hrange, hhost, hserves, hclean⟩ := h
  exact ⟨r, hrange, hhost, (serves_congr hm hn 4).trans hserves, hm ▸ hclean⟩

theorem hostWaits_of_memSpan (h : s.memSpan a n) : s.hostWaits a = false := by
  obtain ⟨r, hrange, hhost, -⟩ := h
  exact hostWaits_of_range hrange hhost

end

/-! ### What the commands of a stream do (R407 to R411, R435) -/

section
variable {s : State} {k : StreamId} {i : Nat} {c : StreamCmd}

/-- NOP and FENCE end, and touch neither memory nor bells. -/
theorem bare_gives {ins : Instr} {op : Nat} (hins : exec ins s = .next (s.bare k i op)) (h : s.starting k i op = some c) :
    Gives ins s fun u => u.ended k c 0#32 ∧ u.mem = s.mem ∧ u.bells = s.bells := by
  refine gives_next (hins.trans (congrArg _ ?_)) ⟨ended_cmdDone (starting_getElem? h) c 0#32, by simp, by simp⟩
  simp only [State.bare, h, stOk_eq]

/-- INLINE and INLINE_CHAIN write their bytes where their destination is translated to. -/
theorem streamInline_gives {ins : Instr} {op : Nat} {data : StreamCmd → List Byte} {s1 : State} {l : Leaf} {a : Nat}
    (hins : exec ins s = .next (s.inlineWrite k i op data)) (h : s.starting k i op = some c) (hlen : c.len ≠ 0)
    (htr : s.translate 4 (s.stream k).ctx c.operand true = (s1, .inl l)) (ha : a = l.pbase + (c.operand.toNat - l.vbase))
    (hpage : c.operand.toNat - l.vbase + c.len ≤ l.size) (hmem : inMem a c.len = true) (hspan : s1.memSpan a (data c).length) :
    Gives ins s fun u => u.ended k c 0#32 ∧ u.mem.load a (data c).length = data c
      ∧ ∀ b, b < a ∨ a + (data c).length ≤ b → u.mem.load b 1 = s1.mem.load b 1 := by
  obtain ⟨u, hwrite, hcxl, hin, hout⟩ := memSpan_writeMem hspan
  have hs1 : s1 = (s.translate 4 (s.stream k).ctx c.operand true).1 := by rw [htr]
  have hstream : u.stream k = s.stream k := stream_of_cxl (hcxl.trans (by simp [hs1])) k
  have hfits : ¬ (l.size < c.operand.toNat - l.vbase + c.len) := by omega
  refine gives_next (v := u.cmdDone k i c 0#32) (hins.trans (congrArg _ ?_))
    ⟨ended_cmdDone (hstream ▸ starting_getElem? h) c 0#32, by simpa using hin, by simpa using hout⟩
  subst ha
  simp [State.inlineWrite, h, hlen, htr, hfits, hmem, hwrite, stOk_eq]

/-- The state in which a RING of a stream has been released and the WAITs of its die evaluated. -/
def State.streamRung (s : State) (k : StreamId) (c : StreamCmd) : State :=
  (s.ringBell c.bell (BitVec.ofNat 64 (w64Bits c.operand 16 16)) 6#3 (BitVec.ofNat 8 k.val) .package).evalWaits (bellDie c.bell)

theorem exec_streamRing_starts (h : s.starting k i 6 = some c) (hcheck : s.bellCheck c.bell = s) :
    exec (.streamRing k i) s
      = .next ((s.streamRung k c).cmdDone k i c (if (s.bell c.bell).poison then stBellFault else stOk)) := by
  refine congrArg Host.Outcome.next ?_
  simp only [h, hcheck]
  rfl

theorem streamRung_stream (s : State) (k : StreamId) (c : StreamCmd) : (s.streamRung k c).stream k = s.stream k :=
  stream_of_cxl (by simp [State.streamRung]) k

theorem cmdDone_bell (s : State) (k : StreamId) (i : Nat) (c : StreamCmd) (st : W32) (b : Nat) : (s.cmdDone k i c st).bell b = s.bell b :=
  bell_of_bells (State.cmdDone_frame ..).2.1 b

/-- RING is a release of kind 6 by the stream, at the scope of the package. -/
theorem streamRing_sound (h : s.starting k i 6 = some c) (hsound : (s.bell c.bell).sound)
    (hfits : (s.bell c.bell).count.toNat + w64Bits c.operand 16 16 < 2 ^ 64) :
    Gives (.streamRing k i) s fun u => u.ended k c 0#32
      ∧ (u.bell c.bell).count = (s.bell c.bell).count + BitVec.ofNat 64 (w64Bits c.operand 16 16)
      ∧ (u.bell c.bell).lkind = 6#3 ∧ (u.bell c.bell).lrel = BitVec.ofNat 8 k.val ∧ (u.bell c.bell).lscope = .package := by
  have hcount : (s.bell c.bell).count.toNat + (BitVec.ofNat 64 (w64Bits c.operand 16 16)).toNat < 2 ^ 64 := by
    rwa [BitVec.toNat_ofNat, Nat.mod_eq_of_lt (by omega)]
  have hstable : Stable fun x => x.count = (s.bell c.bell).count + BitVec.ofNat 64 (w64Bits c.operand 16 16)
      ∧ x.lkind = 6#3 ∧ x.lrel = BitVec.ofNat 8 k.val ∧ x.lscope = .package := ⟨fun _ _ h => h, fun _ h _ => h⟩
  refine gives_next (exec_streamRing_starts h (sound_check s _ hsound)) ?_
  rw [hsound.1, cmdDone_bell]
  refine ⟨ended_cmdDone ((streamRung_stream s k c) ▸ starting_getElem? h) c stOk, evalWaits_P _ hstable _ _ _ ?_⟩
  rw [ringBell_sound s c.bell _ _ _ _ hsound hcount, State.setBell_bell_self]
  exact ⟨rfl, rfl, rfl, rfl⟩

/-- At a poisoned bell the release is dropped and the command ends with the bell's fault. -/
theorem streamRing_poisoned (h : s.starting k i 6 = some c) (hpoison : (s.bell c.bell).poison = true) :
    Gives (.streamRing k i) s fun u => u.ended k c stBellFault ∧ (u.bell c.bell).count = (s.bell c.bell).count := by
  refine gives_next (exec_streamRing_starts h (bellCheck_poisoned hpoison)) ?_
  rw [hpoison, cmdDone_bell]
  refine ⟨ended_cmdDone ((streamRung_stream s k c) ▸ starting_getElem? h) c stBellFault, evalWaits_P _ (stable_count _) _ _ _ ?_⟩
  rw [ringBell_poisoned hpoison]
  rfl

/-- A WAIT that starts, or is evaluated again. -/
theorem exec_streamWait_evaluates (h : s.cmdAt k i 7 .started = some c ∨ s.starting k i 7 = some c) :
    exec (.streamWait k i) s = .next (s.streamWaitEval k i c) := by
  refine congrArg Host.Outcome.next ?_
  rcases h with h | h
  · simp only [h]
  · simp only [starting_cmdAt_none h (ph := .started) (by decide), h]

theorem wait_getElem? (h : s.cmdAt k i 7 .started = some c ∨ s.starting k i 7 = some c) : (s.stream k).cmds[i]? = some c :=
  h.elim (fun h => (cmdAt_some h).1) starting_getElem?

/-- WAIT ends once the bell has reached its threshold. -/
theorem streamWait_reached (h : s.cmdAt k i 7 .started = some c ∨ s.starting k i 7 = some c) (hsound : (s.bell c.bell).sound)
    (hreached : c.word 0 ≤ (s.bell c.bell).count.toNat) : Gives (.streamWait k i) s fun u => u.ended k c 0#32 := by
  have hacq : s.acquire c.bell (c.word 0) (streamAcquirer k) = (s.judge c.bell (streamAcquirer k) .package, true) := by
    simp [State.acquire, sound_check s _ hsound, hsound.1, hreached]
  have hstream : (s.judge c.bell (streamAcquirer k) .package).stream k = s.stream k := stream_of_cxl (by simp) k
  refine gives_next (v := (s.judge c.bell (streamAcquirer k) .package).cmdDone k i c stOk)
    ((exec_streamWait_evaluates h).trans (congrArg _ ?_)) (ended_cmdDone (hstream ▸ wait_getElem? h) c stOk)
  simp only [State.streamWaitEval, hacq, if_true]

/-- Below its threshold a WAIT goes on. -/
theorem streamWait_waits (h : s.cmdAt k i 7 .started = some c ∨ s.starting k i 7 = some c) (hsound : (s.bell c.bell).sound)
    (hbelow : (s.bell c.bell).count.toNat < c.word 0) : Gives (.streamWait k i) s fun u =>
      { c with phase := .started } ∈ (u.stream k).cmds ∧ (u.bell c.bell).count = (s.bell c.bell).count := by
  have hacq : s.acquire c.bell (c.word 0) (streamAcquirer k) = (s, false) := by
    simp [State.acquire, sound_check s _ hsound, Nat.not_le.2 hbelow]
  refine gives_next (v := s.setCmd k i { c with phase := .started }) ((exec_streamWait_evaluates h).trans (congrArg _ ?_)) ⟨?_, rfl⟩
  · simp [State.streamWaitEval, hacq, hsound.1]
  · rw [State.setCmd, State.setStream_stream_self]
    exact mem_set_of_getElem? (wait_getElem? h) _

/-- ROLL ends when it is handed to Kettle. -/
theorem roll_gives (h : s.starting k i 9 = some c) : Gives (.roll k i) s fun u => u.ended k c 0#32
    ∧ u.kettle.waiting = s.kettle.waiting ++ (if rollEmpty c.operand then [] else [c.operand]) := by
  refine gives_next (v := (s.setKettle (s.kettle.take c.operand)).cmdDone k i c stOk) (congrArg Host.Outcome.next ?_)
    ⟨ended_cmdDone (s := s.setKettle (s.kettle.take c.operand)) (starting_getElem? h) c stOk, ?_⟩
  · simp only [h]
  · have hkettle : ((s.setKettle (s.kettle.take c.operand)).cmdDone k i c stOk).kettle = s.kettle.take c.operand := by
      simp [State.setKettle]
    rw [hkettle, KettleS.take]
    split <;> simp

/-- A COPY both of whose spans were translated. -/
def State.copyTranslated (s : State) (k : StreamId) (c : StreamCmd) (src dst : List (Nat × Nat)) : StreamCmd :=
  { c with phase := .translated, srcPs := src, dstPs := dst, pages :=
      s.spanLeaves (s.stream k).ctx (c.word 0) false src ++ s.spanLeaves (s.stream k).ctx (c.word 8) true dst }

/-- A COPY is translated whole, source first, before it moves a byte. -/
theorem streamCopy_translates {s1 s2 : State} {src dst : List (Nat × Nat)} (h : s.starting k i 3 = some c) (hlen : c.word 0x10 ≠ 0)
    (hsrc : s.virtPages 4 (s.stream k).ctx (c.word 0) (c.word 0x10) false = (s1, .ok src))
    (hdst : s1.virtPages 4 (s.stream k).ctx (c.word 8) (c.word 0x10) true = (s2, .ok dst))
    (hseal : s.cust.sealed = true → copyExports src dst = false) :
    Gives (.streamCopy k i) s fun u => u.mem = s2.mem
      ∧ ∃ ps, { c with phase := .translated, srcPs := src, dstPs := dst, pages := ps } ∈ (u.stream k).cmds := by
  have hs1 : s1 = (s.virtPages 4 (s.stream k).ctx (c.word 0) (c.word 0x10) false).1 := by rw [hsrc]
  have hs2 : s2 = (s1.virtPages 4 (s.stream k).ctx (c.word 8) (c.word 0x10) true).1 := by rw [hdst]
  have hstream : s2.stream k = s.stream k := stream_of_cxl (by simp [hs2, hs1]) k
  have hexport : (s.cust.sealed && copyExports src dst) = false := by
    cases hs : s.cust.sealed
    · rfl
    · exact hseal hs
  refine gives_next (v := s2.setCmd k i (s2.copyTranslated k c src dst)) (congrArg Host.Outcome.next ?_)
    ⟨rfl, (s2.copyTranslated k c src dst).pages, ?_⟩
  · simp [starting_cmdAt_none h (ph := .translated) (by decide), h, State.copyStart, hlen, hsrc, hdst, hexport, State.copyTranslated, hstream]
  · rw [State.setCmd, State.setStream_stream_self]
    exact mem_set_of_getElem? (hstream ▸ starting_getElem? h) _

/-- A translated COPY of one piece moves its bytes. -/
theorem streamCopy_moves {a b n : Nat} (h : s.cmdAt k i 3 .translated = some c) (hrevoked : c.revoked = false) (hsrc : c.srcPs = [(a, n)])
    (hdst : c.dstPs = [(b, n)]) (hread : s.memSpan a n) (hwrite : s.memSpan b n) :
    Gives (.streamCopy k i) s fun u => u.ended k c 0#32 ∧ u.mem.load b n = s.mem.load a n
      ∧ ∀ x, x < b ∨ b + n ≤ x → u.mem.load x 1 = s.mem.load x 1 := by
  have hlen : (s.mem.load a n).length = n := by simp [MemS.load, Map.getRunBy_eq]
  have hmem : (s.countSpan a n 4 false).mem = s.mem := countSpan_mem s true a n 4 false
  have hspan : (s.countSpan a n 4 false).memSpan b (s.mem.load a n).length := hlen.symm ▸ memSpan_congr hmem (by simp) hwrite
  obtain ⟨u, hu, hcxl, hin, hout⟩ := memSpan_writeMem hspan
  have hstream : u.stream k = s.stream k := stream_of_cxl (hcxl.trans (by simp)) k
  rw [hlen] at hin hout
  rw [hmem] at hout
  have htake : (s.mem.load a n).take n = s.mem.load a n := List.take_of_length_le hlen.le
  refine gives_next (v := u.cmdDone k i c stOk) (congrArg Host.Outcome.next ?_)
    ⟨ended_cmdDone (hstream ▸ (cmdAt_some h).1) c stOk, by simpa using hin, by simpa using hout⟩
  simp [h, State.copyMove, hrevoked, hsrc, hdst, hostWaits_of_memSpan hread, hostWaits_of_memSpan hwrite, State.readPages,
    memSpan_readMem hread, State.writePages, htake, hu]

/-- TERMINATE marks every kernel of its tag. -/
theorem streamTerminate_gives (h : s.handed k i 5 = some c) (hnodup : (s.kern.kernels.map Prod.fst).Nodup) :
    Gives (.streamTerminate k i) s fun u => ∀ kid kn, (kid, some kn) ∈ s.kern.kernels → kn.tag = w64At c.body 0 →
      u.kernel kid = some { kn with terminated := true } := by
  refine gives_next (v := State.tidy (State.terminateTag ((s.served k).setCmd k i
      { c with phase := .started, kids := s.kern.tagged (w64At c.body 0) }) (w64At c.body 0)).1 k)
    (congrArg Host.Outcome.next (by simp only [h])) fun kid kn hmem htag => ?_
  rw [State.kernel, tidy_kernels, terminateTag_eq]
  exact terminate_all _ _ kid kn (nodup_hits _ _ hnodup) (mem_tagged.2 ⟨hmem, htag⟩)

end

/-- Settles O34: the slots, then command by command. -/
theorem streamSlotsAndCommands : Obligations.StreamSlotsAndCommands := by
  refine ⟨slots_give, fun k i s c => ⟨bare_gives rfl, bare_gives rfl, fun e he => ?inline, fun h => ⟨streamRing_sound h, streamRing_poisoned h⟩,
    fun h hsound => ⟨streamWait_reached h hsound, streamWait_waits h hsound⟩, roll_gives,
    fun s1 src s2 dst => streamCopy_translates, fun a b n => streamCopy_moves, streamTerminate_gives⟩⟩
  case inline =>
    intro s1 l a h hlen htr ha hpage hmem hspan
    simp only [List.mem_cons, List.not_mem_nil, or_false] at he
    rcases he with rfl | rfl
    · exact streamInline_gives (data := fun c => c.body.take c.len) rfl h hlen htr ha hpage hmem hspan
    · exact streamInline_gives (data := fun c => c.chain.take c.len) rfl h hlen htr ha hpage hmem hspan

end Sys2Proof.Machine

/-! ## The LAUNCH of a stream, and completion entries

The statement O35 settled from the rules of launches and of a stream that is tidied. -/

namespace Sys2Proof.Machine

section
variable {s : State} {k : StreamId} {i : Nat} {c : StreamCmd}

/-- The launch request that a LAUNCH of a stream makes (R410). -/
def StreamCmd.launchReq (c : StreamCmd) (k : StreamId) (ctx : W32) : LaunchReq :=
  { image := w64At c.body 0, arg := w64At c.body 8, tag := w64At c.body 0x10, compl := c.word 0x18, ctx := ctx, src := .stream k c.uid }

theorem exec_streamLaunch_handed (h : s.handed k i 4 = some c) (hallowed : s.launchDenied c = false) (pt : List TileId) (pb : List BellId) :
    exec (.streamLaunch k i pt pb) s
      = .next ((((s.served k).setCmd k i { c with phase := .started }).launchReq (c.launchReq k (s.stream k).ctx) pt pb).tidy k) := by
  refine congrArg Host.Outcome.next ?_
  simp only [h, hallowed]
  rfl

theorem silent_congr {u : State} (h : u.kern = s.kern) (k : StreamId) (c : StreamCmd) : u.silent k c = s.silent k c := by
  unfold State.silent State.cmdEnd State.kernel
  rw [h]

/-- The state in which the entry of command `i` stands in host memory, and its stream has gone on. -/
def State.entryWritten (s : State) (k : StreamId) (i a : Nat) (bs : List Byte) : State :=
  State.setStream { s with mem := s.mem.writeHost (hostAddr a) bs } k
    { s.stream k with cmds := (s.stream k).cmds.eraseIdx i, cqTail := ((s.stream k).cqTail + 1) % (2 * 2 ^ (s.stream k).clog2) }

theorem entryBytes_length (x : StreamS) (c : StreamCmd) (e : W32 × W32) : (x.entryBytes c e).length = 16 := by
  simp [StreamS.entryBytes, bytesOfNat]

/-- An entry that is due is written at the tail of a ring with room, which lies in host memory. -/
theorem exec_completionEntry_due {e : W32 × W32} {a : Nat} (hc : (s.stream k).cmds[i]? = some c) (hend : s.cmdEnd k c = some e)
    (hdue : c.entryDue e = true) (hup : s.cxl.state = 1) (hroom : (s.stream k).cqFull = false)
    (ha : a = hostWin ((s.stream k).cqBase + 16 * ((s.stream k).cqTail % 2 ^ (s.stream k).clog2)))
    (hrange : engineRange a 16 = some .host) : exec (.completionEntry k i) s
      = .next (((s.entryWritten k i a ((s.stream k).entryBytes c e)).when (c.irq && c.cmpl) fun s' => s'.vector (s.stream k).cvec).tidy k) := by
  have hwrite : s.writeMemBy false a ((s.stream k).entryBytes c e) 4
      = ⟨{ s with mem := s.mem.writeHost (hostAddr a) ((s.stream k).entryBytes c e) }, stOk, []⟩ := by
    simp [State.writeMemBy, entryBytes_length, hrange, routed_host hrange, hostServes_of_up hup]
  refine congrArg Host.Outcome.next (congrArg (State.tidy · k) ?_)
  subst ha
  simp [hc, hend, hup, hroom, hdue, State.writeEntry, hwrite, State.entryWritten]

end

/-- Settles O35: a LAUNCH by the rule of admission, and an entry by what its write and the tidying leave. -/
theorem streamLaunchAndEntry : Obligations.StreamLaunchAndEntry := by
  refine fun k i s c => ⟨fun pt pb s0 s2 s3 hdr ts bells h hallowed hs0 hctx hread hadm htiles => ?launch,
    fun e a hc hend hdue hup hroom ha hrange hopen => ?entry⟩
  case launch =>
    subst hs0
    have hreq : ((s.served k).setCmd k i { c with phase := .started }).launchReq (c.launchReq k (s.stream k).ctx) pt pb
        = s3.enrol (c.launchReq k (s.stream k).ctx) (Image.ofBytes hdr) ts bells := launchReq_admitted hctx hread hadm
    refine gives_next ((exec_streamLaunch_handed h hallowed pt pb).trans (congrArg (fun v => Host.Outcome.next (State.tidy v k)) hreq))
      ⟨⟨(c.launchReq k (s.stream k).ctx).kernel (Image.ofBytes hdr) ts bells, ?_, rfl, rfl, rfl, rfl⟩, fun t ht => ?_, fun b hb => ?_⟩
    · rw [State.kernel, tidy_kernels, enrol_kern htiles]
      exact admitted_kernel
    · rw [tile_of_tiles (State.tidy_frame ..).1, enrol_tile_kernel htiles, if_pos ht]
    · rw [bell_of_bells (State.tidy_frame ..).2.1]
      exact enrol_bell_held htiles hb
  case entry =>
    refine gives_next (exec_completionEntry_due hc hend hdue hup hroom ha hrange) ?_
    have hstream (v : State) (hv : v = (s.entryWritten k i a ((s.stream k).entryBytes c e)).when (c.irq && c.cmpl)
        fun s' => s'.vector (s.stream k).cvec) : v.stream k = { s.stream k with
          cmds := (s.stream k).cmds.eraseIdx i
          cqTail := ((s.stream k).cqTail + 1) % (2 * 2 ^ (s.stream k).clog2) } ∧ v.kern = s.kern
          ∧ v.mem = s.mem.writeHost (hostAddr a) ((s.stream k).entryBytes c e) := by
      subst hv
      cases c.irq && c.cmpl
      · exact ⟨State.setStream_stream_self .., rfl, rfl⟩
      · exact ⟨State.setStream_stream_self .., rfl, rfl⟩
    obtain ⟨hself, hkern, hmem⟩ := hstream _ rfl
    rw [tidy_stream_open (by simp [hself, hopen]), hself]
    refine ⟨rfl, ?_, List.filter_congr fun d _ => by rw [silent_congr hkern]⟩
    rw [(State.tidy_frame ..).2.2.1, hmem, ← entryBytes_length (s.stream k) c e]
    exact MemS.getRun_writeHost ..

end Sys2Proof.Machine

/-! ## The HDM decoders, CXL.mem and the peer aperture

How a decoder commits, and what requests of the host and of its peers reach; the statement O36 settled from them. -/

namespace Sys2Proof.Machine

/-! ### Decoders (R398, R399) -/

section
variable {s : State} {i : Fin 2} {r : HdmReq}

/-- The state in which a decoder has committed. -/
def State.hdmCommitted (s : State) (i : Fin 2) (r : HdmReq) : State :=
  s.setCxl { s.cxl with hdm := s.cxl.hdm.set none i.val (some r), hdmErr := s.cxl.hdmErr.set false i.val false }

theorem exec_hdmCommit_commits (hways : r.ways = 1) (hsize : r.size.toNat = hdmSize (s.cxl.hdmMap.get 0#64 i.val)) (hne : r.size.toNat ≠ 0) :
    exec (.hdmCommit i r) s = .next ((s.hdmCommitted i r).answer 0#32 []) :=
  congrArg Host.Outcome.next (if_pos (by simp [hways, ← hsize, hne]))

theorem exec_hdmCommit_fails (h : ¬ (r.ways = 1 ∧ r.size.toNat = hdmSize (s.cxl.hdmMap.get 0#64 i.val) ∧ r.size.toNat ≠ 0)) :
    exec (.hdmCommit i r) s
      = .next ((s.setCxl { s.cxl with hdmErr := s.cxl.hdmErr.set false i.val true }).answer 1#32 []) := by
  refine congrArg Host.Outcome.next (if_neg fun hc => h ?_)
  simp only [Bool.and_eq_true, decide_eq_true_eq] at hc
  obtain ⟨⟨hne, hsize⟩, hways⟩ := hc
  exact ⟨hways, hsize, hsize ▸ hne⟩

/-- What one decoder answers for a request of `n` bytes (R399). -/
def CxlS.decodes (c : CxlS) (a n i : Nat) : Option Nat :=
  match c.hdm.get none i with
  | some r =>
    if r.base.toNat ≤ a && a + n ≤ r.base.toNat + r.size.toNat then some (hdmBase (c.hdmMap.get 0#64 i) + (a - r.base.toNat)) else none
  | none => none

theorem windowOf_eq (c : CxlS) (a n : Nat) : c.windowOf a n = (c.decodes a n 0).or (c.decodes a n 1) := by
  have hdef : c.windowOf a n = [0, 1].findSome? (c.decodes a n) := rfl
  rw [hdef, List.findSome?_cons, List.findSome?_singleton]
  cases c.decodes a n 0 <;> rfl

theorem decodes_covered {c : CxlS} {a n k : Nat} (h : c.hdm.get none k = some r) (hcovers : hdmCovers r a n) :
    c.decodes a n k = some (hdmBase (c.hdmMap.get 0#64 k) + (a - r.base.toNat)) := by
  obtain ⟨hlow, hhigh⟩ := hcovers
  simp [CxlS.decodes, h, hlow, hhigh]

theorem decodes_uncovered {c : CxlS} {a n k : Nat} (h : ∀ q, c.hdm.get none k = some q → ¬ hdmCovers q a n) : c.decodes a n k = none := by
  unfold CxlS.decodes
  split
  next q hq => exact if_neg fun hc => h q hq (by simpa [hdmCovers] using hc)
  next => rfl

/-- Where the other decoder does not answer, the decoder committed gives the deep address. -/
theorem windowOf_covered {c : CxlS} {a n : Nat} (h : c.hdm.get none i.val = some r) (hcovers : hdmCovers r a n)
    (hother : ∀ q, c.hdm.get none (1 - i.val) = some q → ¬ hdmCovers q a n) :
    c.windowOf a n = some (hdmBase (c.hdmMap.get 0#64 i.val) + (a - r.base.toNat)) := by
  have hself := decodes_covered h hcovers
  have hnone := decodes_uncovered hother
  rw [windowOf_eq]
  match i with
  | 0 => rw [show c.decodes a n 0 = _ from hself, Option.some_or]
  | 1 => rw [show c.decodes a n 0 = _ from hnone, show c.decodes a n 1 = _ from hself, Option.none_or]

end

/-! ### CXL.mem (R207, R399, R400) -/

section
variable {s : State} {a n d : Nat} {bs : List Byte}

theorem exec_cxlMemRead_window (hup : s.cxl.state = 1) (hw : s.cxl.windowOf a n = some d) (hseal : s.cust.sealed = false)
    (hspan : s.memSpan d n) : exec (.cxlMemRead a n) s = .next ((s.countSpan d n 4 false).answer 0#32 (s.mem.load d n)) := by
  simp [exec_cxlMemRead, execCxlMemRead, hup, hw, hseal, memSpan_readMem hspan, ansOk]

theorem exec_cxlMemRead_sealed (hup : s.cxl.state = 1) (hw : s.cxl.windowOf a n = some d) (hseal : s.cust.sealed = true) :
    exec (.cxlMemRead a n) s = .next ((s.hostLog 7 0 0 a 0).answer 1#32 (List.replicate n 0#8)) := by
  simp [exec_cxlMemRead, execCxlMemRead, hup, hw, hseal, ansPoison]

theorem exec_cxlMemRead_uncovered (hup : s.cxl.state = 1) (hw : s.cxl.windowOf a n = none) : exec (.cxlMemRead a n) s
    = .next ((s.drawn.hostLog 7 0 0 a 0).answer 2#32 ((List.range n).map (Config.freeByte s.fresh))) := by
  simp [exec_cxlMemRead, execCxlMemRead, hup, hw, ansUnsupported]

theorem exec_cxlMemWrite_window (hup : s.cxl.state = 1) (hw : s.cxl.windowOf a bs.length = some d) (hseal : s.cust.sealed = false) :
    exec (.cxlMemWrite a bs) s = .next ((s.writeMem d bs 4).st.answer 0#32 []) := by
  simp [exec_cxlMemWrite, execCxlMemWrite, hup, hw, hseal, ansOk]

theorem exec_cxlMemWrite_sealed (hup : s.cxl.state = 1) (hw : s.cxl.windowOf a bs.length = some d) (hseal : s.cust.sealed = true) :
    exec (.cxlMemWrite a bs) s = .next ((s.hostLog 7 0 0 a 0).answer 0#32 []) := by
  simp [exec_cxlMemWrite, execCxlMemWrite, hup, hw, hseal, ansOk]

theorem exec_cxlMemWrite_uncovered (hup : s.cxl.state = 1) (hw : s.cxl.windowOf a bs.length = none) :
    exec (.cxlMemWrite a bs) s = .next ((s.hostLog 7 0 0 a 0).answer 2#32 []) := by
  simp [exec_cxlMemWrite, execCxlMemWrite, hup, hw, ansUnsupported]

end

/-! ### The aperture (R415, R416) -/

section
variable {s : State} {off n a : Nat} {bs : List Byte} {req : W16}

theorem exec_apertureRead_allowed (hup : s.cxl.state = 1) (hoff : off < 2 ^ 40) (hr : s.cxl.regionAt off n false = some a)
    (hseal : s.cust.sealed = false) (hspan : s.memSpan a n) :
    exec (.apertureRead off n req) s = .next ((s.countSpan a n 4 false).answer 0#32 (s.mem.load a n)) := by
  have hin : ¬ 1099511627776 ≤ off := by omega
  simp [exec_apertureRead, execApertureRead, hup, hin, hr, hseal, memSpan_readMem hspan, ansOk]

/-- A read that its region or sealed mode does not allow is refused whole. -/
theorem exec_apertureRead_refused (hup : s.cxl.state = 1) (hoff : off < 2 ^ 40)
    (h : s.cust.sealed = true ∨ s.cxl.regionAt off n false = none) :
    exec (.apertureRead off n req) s = .next ((s.hostLog 3 0 req.toNat off 0).answer 2#32 []) := by
  have hin : ¬ 1099511627776 ≤ off := by omega
  have hnone : (if s.cust.sealed then none else s.cxl.regionAt off n false) = none := by
    split
    · rfl
    · exact h.resolve_left ‹_›
  simp [exec_apertureRead, execApertureRead, hup, hin, hnone, ansUnsupported]

theorem exec_apertureWrite_allowed (hup : s.cxl.state = 1) (hoff : off < 2 ^ 40) (hr : s.cxl.regionAt off bs.length true = some a) :
    exec (.apertureWrite off bs req) s = .next (s.writeMem a bs 4).st := by
  have hin : ¬ 1099511627776 ≤ off := by omega
  simp [exec_apertureWrite, execApertureWrite, hup, hin, hr]

theorem exec_apertureWrite_dropped (hup : s.cxl.state = 1) (hoff : off < 2 ^ 40) (hr : s.cxl.regionAt off bs.length true = none) :
    exec (.apertureWrite off bs req) s
      = .next (State.hostLog (s.setCxl { s.cxl with p2pDrops := satInc32 s.cxl.p2pDrops }) 2 0 req.toNat off 0) := by
  have hin : ¬ 1099511627776 ≤ off := by omega
  simp [exec_apertureWrite, execApertureWrite, hup, hin, hr]

end

/-- Settles O36: a decoder that commits and one that does not, CXL.mem covered, sealed and uncovered, then the aperture. -/
theorem hostMemoryAccess : Obligations.HostMemoryAccess := by
  refine fun s => ⟨fun i r hways hsize hne => ?commits, fun i r h => gives_next (exec_hdmCommit_fails h) ⟨rfl, rfl, Map.get_set_self ..⟩,
    fun hup a n d hw hspan => ⟨fun hseal => ?memRead, fun hseal => gives_next (exec_cxlMemRead_sealed hup hw hseal) ⟨rfl, rfl, rfl⟩⟩,
    fun hup a bs d hw hspan => ⟨fun hseal => ?memWrite, fun hseal => gives_next (exec_cxlMemWrite_sealed hup hw hseal) ⟨rfl, rfl⟩⟩,
    fun hup a n bs hw hlen => ⟨gives_next (exec_cxlMemRead_uncovered hup hw) ⟨rfl, rfl, rfl⟩,
      gives_next (exec_cxlMemWrite_uncovered hup (hlen ▸ hw)) ⟨rfl, rfl, rfl⟩⟩,
    fun hup off n a req hoff hr hspan => ⟨fun hseal => ?apertureRead,
      fun hseal => gives_next (exec_apertureRead_refused hup hoff (.inl hseal)) ⟨rfl, rfl, rfl⟩⟩,
    fun hup off n req hoff hr => gives_next (exec_apertureRead_refused hup hoff (.inr hr)) ⟨rfl, rfl, rfl⟩,
    fun hup off bs a req hoff hr hspan => ?apertureWrite,
    fun hup off bs req hoff hr => gives_next (exec_apertureWrite_dropped hup hoff hr) ⟨rfl, rfl, rfl⟩⟩
  case commits =>
    have hself : (s.hdmCommitted i r).cxl.hdm.get none i.val = some r := Map.get_set_self ..
    exact gives_next (exec_hdmCommit_commits hways hsize hne) ⟨rfl, hself, Map.get_set_self ..,
      fun a n hcovers hother => windowOf_covered hself hcovers hother⟩
  case memRead => exact gives_next (exec_cxlMemRead_window hup hw hseal hspan) ⟨rfl, countSpan_mem s true d n 4 false⟩
  case memWrite =>
    obtain ⟨u, hu, -, hin, hout⟩ := memSpan_writeMem hspan
    exact gives_next (v := u.answer 0#32 []) ((exec_cxlMemWrite_window hup hw hseal).trans (by rw [hu])) ⟨rfl, hin, hout⟩
  case apertureRead => exact gives_next (exec_apertureRead_allowed hup hoff hr hseal hspan) ⟨rfl, countSpan_mem s true a n 4 false⟩
  case apertureWrite =>
    obtain ⟨u, hu, -, hin, hout⟩ := memSpan_writeMem hspan
    exact gives_next ((exec_apertureWrite_allowed hup hoff hr).trans (by rw [hu])) ⟨hin, hout⟩

end Sys2Proof.Machine

/-! ## Snoops of the host, and its link

Snoops, recovery, host loss and the next link-up; the statement O37 settled from them. -/

namespace Sys2Proof.Machine

/-! ### Snoops (R393, R395) -/

section
variable {s : State} {a : Nat} {l : CacheLine} {k : SnoopKind}

/-- The answer to a snoop of a line that the caches hold: 2 with dirty data, 1 with clean. -/
def CacheLine.snoopReply (l : CacheLine) (a : Nat) : Reply :=
  ⟨if l.dirty then 2#32 else 1#32, (l.data.drop (a % 128 - a % 64)).take 64⟩

/-- The state with no copy of a line marked exclusive. -/
def State.shareLine (s : State) (a : Nat) : State :=
  match s.cache.line a with
  | none => s
  | some m => s.setLine a (some { m with excl := false })

/-- The caches after a snoop of a line that they hold. -/
def State.snooped (s : State) (k : SnoopKind) (a : Nat) : State :=
  match k with
  | .cur => s
  | .data => (s.writeBack false a).1.shareLine a
  | .inv => (s.writeBack false a).1.setLine a none

theorem exec_hostSnoop_held (hup : s.cxl.state = 1) (hhost : regionOf (hostWin a) = .host) (hl : s.cache.line (hostWin a) = some l) :
    exec (.hostSnoop k a) s = .next ((s.snooped k (hostWin a)).answer (l.snoopReply a).code (l.snoopReply a).data) := by
  refine congrArg Host.Outcome.next ?_
  cases k <;> simp only [hup, hhost, hl] <;> rfl

theorem exec_hostSnoop_absent (hup : s.cxl.state = 1) (hhost : regionOf (hostWin a) = .host) (hl : s.cache.line (hostWin a) = none) :
    exec (.hostSnoop k a) s = .next (s.answer 0#32 []) := by
  simp [exec_hostSnoop, execHostSnoop, hup, hhost, hl]

theorem shareLine_line (s : State) (a : Nat) :
    (s.shareLine a).cache.line a = (s.cache.line a).map fun m => { m with excl := false } := by
  unfold State.shareLine
  cases h : s.cache.line a with
  | none => exact h
  | some m => exact State.setLine_line_self ..

/-- A data snoop leaves at most a clean shared copy. -/
theorem snooped_data (s : State) {a : Nat} {m : CacheLine} (hm : (s.snooped .data a).cache.line a = some m) :
    m.excl = false ∧ m.dirty = false := by
  obtain ⟨w, hclean, hline⟩ := writeBack_line s false a
  rw [State.snooped, shareLine_line, hline, if_pos rfl, Option.map_eq_some_iff] at hm
  obtain ⟨x, hx, rfl⟩ := hm
  exact ⟨rfl, hclean x hx⟩

end

/-! ### Recovery, loss and link-up (R392, R421 to R423) -/

section
variable {s : State} {c : LossCause} {r : LinkRate}

theorem exec_linkRecovery_up (hup : s.cxl.state = 1) :
    exec .linkRecovery s = .next (State.route (s.setCxl { s.cxl with state := 2 }) 10) := congrArg Host.Outcome.next (if_pos hup)

theorem exec_linkReturnToL0_recovered (hrec : s.cxl.state = 2) (hrate : rateOk r = true) : exec (.linkReturnToL0 r) s
    = .next (State.route (s.setCxl { s.cxl with state := 1, lanes := r.lanes, gts := r.gts }) 10).resumePeals :=
  congrArg Host.Outcome.next (if_pos (by simp [hrec, hrate]))

/-- The state in which the loss of the link is found: an IDE failure is logged first (R418). -/
def State.lossFound (s : State) (c : LossCause) : State := if c = .ide && s.hostServes then s.hostLog 8 0 0 0 0 else s

theorem exec_hostLoss_found (s : State) (c : LossCause) : exec (.hostLoss c) s = .next ((s.lossFound c).loseHost c) := rfl

/-- The log changes nothing else of the attachment. -/
theorem lossFound_cxl {α : Type} (g : CxlS → α) (hg : ∀ c l t m, g { c with logs := l, logTotal := t, msix := m } = g c) (s : State)
    (c : LossCause) : g (s.lossFound c).cxl = g s.cxl := by
  unfold State.lossFound
  split
  · exact hostLog_cxl g hg ..
  · rfl

theorem lossFound_down (h1 : s.cxl.state ≠ 1) (h2 : s.cxl.state ≠ 2) (c : LossCause) : s.lossFound c = s :=
  if_neg (by simp [State.hostServes, h1, h2])

theorem loseHost_down (h1 : s.cxl.state ≠ 1) (h2 : s.cxl.state ≠ 2) (c : LossCause) : s.loseHost c = s :=
  if_pos (by simp [h1, h2])

/-- The state in which host loss has dropped what was on its way to the host. -/
def State.lossDropped (s : State) : State :=
  (((s.setCxl { s.cxl with state := 3, losses := min (s.cxl.losses + 1) 255, lanes := 0, gts := 0, ideKey := [], ideOn := false
    }).loseHostPages).loseForwarded).dropHostLines

/-- The state in which the streams of a lost host are LOST and its sessions have ended. -/
def State.hostGone (s : State) : State :=
  { s.lossDropped.setCxl (s.lossDropped.cxl.mapStreams StreamS.lose) with
    cust := { s.lossDropped.cust with spdm := s.lossDropped.cust.spdm.set SpdmS.reset 0 SpdmS.reset }
    dict := s.lossDropped.dict.endPath 1 }

theorem loseHost_up (h : s.cxl.state = 1 ∨ s.cxl.state = 2) (c : LossCause) :
    s.loseHost c = ((s.hostGone.hostLog 6 0 0 0 (lossCode c)).route 10).resumePeals :=
  if_neg (by rcases h with h | h <;> simp [h])

/-- Host loss puts every stream in state LOST. -/
theorem loseHost_stream (h : s.cxl.state = 1 ∨ s.cxl.state = 2) (c : LossCause) (i : StreamId) :
    (s.loseHost c).cxl.stream i = (s.cxl.stream i).lose := by
  have hpeals (t : State) : t.resumePeals.cxl = t.cxl := by simp
  have hroute (t : State) : (t.route 10).cxl = t.cxl := rfl
  have hgone : s.hostGone.cxl = s.lossDropped.cxl.mapStreams StreamS.lose := by simp only [State.hostGone, setCxl_cxl]
  rw [loseHost_up h, hpeals, hroute, hostLog_cxl (CxlS.stream · i) (fun _ _ _ _ => rfl), hgone, mapStreams_stream, State.lossDropped, lostCxl]
  rfl

/-- Host loss drops every line of the host window from the caches. -/
theorem loseHost_line (h : s.cxl.state = 1 ∨ s.cxl.state = 2) (c : LossCause) {a : Nat} (ha : regionOf (a * 128) = .host) :
    (s.loseHost c).cache.line (a * 128) = none := by
  have hkeep : (s.loseHost c).cache = s.lossDropped.cache := by
    rw [loseHost_up h]
    simp [State.route, State.hostGone, State.setCxl]
  rw [hkeep, CacheS.line, Nat.mul_div_cancel _ (by decide)]
  exact get_filter_none _ _ _ _ fun v => by simp [ha]

/-- Host loss ends the SPDM connection of the host's DOE. -/
theorem loseHost_spdm (h : s.cxl.state = 1 ∨ s.cxl.state = 2) (c : LossCause) : (s.loseHost c).cust.spdm.get SpdmS.reset 0 = SpdmS.reset := by
  have hkeep : (s.loseHost c).cust = s.hostGone.cust := by
    rw [loseHost_up h]
    simp [State.route]
  rw [hkeep]
  exact Map.get_set_self ..

/-- The attachment as a link-up finds it, its streams apart (R423). -/
def CxlS.linkedUp (c : CxlS) (r : LinkRate) : CxlS :=
  { c with state := 1, lanes := r.lanes, gts := r.gts, fqBase := 0, fqProd := 0, fqCons := 0, fqWerr := false,
           fqEn := false, hdm := [], hdmErr := [], msix := MsixS.reset }

theorem exec_hostLinkUp_reached (hdown : s.cxl.state = 0 ∨ s.cxl.state = 3) (hrate : rateOk r = true) (hverified : s.cust.verified = true) :
    exec (.hostLinkUp r) s = .next (State.route (s.setCxl ((s.cxl.linkedUp r).mapStreams StreamS.relink)) 10) :=
  congrArg Host.Outcome.next (if_pos (by simp [hdown, hrate, hverified]))

end

/-- Settles O37: snoops of a line held and of one that is not, recovery and its end, a loss of a link that was up and of one that was not, and the
link-up. -/
theorem hostLink : Obligations.HostLink := by
  refine fun s => ⟨fun a l hup hhost hl r hr => ?held, fun a k hup hhost hl => gives_next (exec_hostSnoop_absent hup hhost hl) rfl,
    fun hup => gives_next (exec_linkRecovery_up hup) rfl, fun r hrec hrate => ?returns, fun c hup => ?lost,
    fun c h1 h2 => gives_next (exec_hostLoss_found s c) ?notLost, fun r hdown hrate hverified => ?linkUp⟩
  case held =>
    subst hr
    exact ⟨gives_next (exec_hostSnoop_held hup hhost hl) ⟨rfl, rfl⟩,
      gives_next (exec_hostSnoop_held hup hhost hl) ⟨rfl, fun m hm => snooped_data s hm⟩,
      gives_next (exec_hostSnoop_held hup hhost hl) ⟨rfl, State.setLine_line_self ..⟩⟩
  case returns => exact gives_next (exec_linkReturnToL0_recovered hrec hrate) ⟨by simp [State.route, State.setCxl], by simp [State.route, State.setCxl]⟩
  case lost =>
    have hfound : (s.lossFound c).cxl.state = 1 ∨ (s.lossFound c).cxl.state = 2 := by
      rwa [lossFound_cxl CxlS.state (fun _ _ _ _ => rfl)]
    have hkeep {α : Type} (g : CxlS → α) (hg : ∀ c l t m, g { c with logs := l, logTotal := t, msix := m } = g c)
        (hm : ∀ c m, g { c with streams := m } = g c) := lose_keep g hg hm (s.lossFound c) c hfound
    refine gives_next (exec_hostLoss_found s c) ⟨hkeep CxlS.state (fun _ _ _ _ => rfl) (fun _ _ => rfl), ?_,
      hkeep CxlS.ideKey (fun _ _ _ _ => rfl) (fun _ _ => rfl), hkeep CxlS.ideOn (fun _ _ _ _ => rfl) (fun _ _ => rfl),
      fun i => ?_, fun a ha => loseHost_line hfound c ha, loseHost_spdm hfound c, ?_, ?_⟩
    · rw [hkeep CxlS.losses (fun _ _ _ _ => rfl) (fun _ _ => rfl), ← lossFound_cxl CxlS.losses (fun _ _ _ _ => rfl) s c]
    · rw [loseHost_stream hfound]
      exact ⟨rfl, rfl⟩
    · exact (hkeep CxlS.region (fun _ _ _ _ => rfl) (fun _ _ => rfl)).trans (lossFound_cxl CxlS.region (fun _ _ _ _ => rfl) s c)
    · exact (hkeep CxlS.hdmMap (fun _ _ _ _ => rfl) (fun _ _ => rfl)).trans (lossFound_cxl CxlS.hdmMap (fun _ _ _ _ => rfl) s c)
  case notLost => rw [lossFound_down h1 h2, loseHost_down h1 h2]
  case linkUp =>
    refine gives_next (exec_hostLinkUp_reached hdown hrate hverified) ?_
    generalize hm : (s.cxl.linkedUp r).mapStreams StreamS.relink = m
    have hkeep {α : Type} (g : CxlS → α) (hg : ∀ c x, g { c with streams := x } = g c) : g m = g (s.cxl.linkedUp r) :=
      hm ▸ mapStreams_keep g hg _ _
    have hstream (i : StreamId) : m.stream i = (s.cxl.stream i).relink := hm ▸ mapStreams_stream _ _ i
    exact ⟨hkeep CxlS.state fun _ _ => rfl, hkeep CxlS.lanes fun _ _ => rfl, hkeep CxlS.gts fun _ _ => rfl, rfl,
      hkeep CxlS.fqEn fun _ _ => rfl, hkeep CxlS.fqProd fun _ _ => rfl, hkeep CxlS.fqCons fun _ _ => rfl, hkeep CxlS.hdm fun _ _ => rfl,
      hkeep CxlS.msix fun _ _ => rfl, hstream, hkeep CxlS.region fun _ _ => rfl, hkeep CxlS.hdmMap fun _ _ => rfl,
      hkeep CxlS.logs fun _ _ => rfl, hkeep CxlS.logTotal fun _ _ => rfl, hkeep CxlS.losses fun _ _ => rfl,
      hkeep CxlS.p2pDrops fun _ _ => rfl⟩

end Sys2Proof.Machine
/-! ## O51: the commands of Kettle

A cycle is a chain of steps. `KettleS.cycleView` names the fields of Kettle's state that the settings and the thermal cap put in
place; the later steps leave them, except that the boost step moves the rails. -/

namespace Sys2Proof.Machine

/-! ### Maps, bytes and the Belfry's own commits -/

/-- Keys that the filter takes out read as the default; the others read as before. -/
theorem Map.get_filter_keys {α : Type} (d : α) (m : Map α) (p : Nat → Bool) (i : Nat) :
    Map.get d (m.filter fun e => !p e.1) i = if p i then d else m.get d i := by
  by_cases h : p i = true
  · rw [if_pos h, get_filter_none d m _ i fun v => by simp [h]]
  · rw [if_neg h, Map.get_filter d m _ i fun v => by simp [h]]

theorem natOfBytes_one_byte (n : Nat) (h : n < 256) : natOfBytes (bytesOfNat 1 n) = n := by
  simp [natOfBytes, bytesOfNat, Nat.mod_eq_of_lt h]

/-- A put sets the value of its entry and leaves the values of the others. -/
theorem DictS.put_value (d : DictS) (i j : Nat) (v : List Byte) (a b : Nat) :
    (d.put i j v).value a b = if entryKey a b = entryKey i j then v else d.value a b := by
  by_cases h : entryKey a b = entryKey i j
  · rw [if_pos h, DictS.value, DictS.entry, h]; simp [DictS.put]
  · rw [if_neg h, DictS.value, DictS.entry]
    simp only [DictS.put]
    rw [Map.get_modify_ne _ _ _ _ _ h]
    rfl

/-- Puts that give an entry no value but x leave it x, where it was x or one of them names it. -/
theorem DictS.puts_value (vs : List ((Nat × Nat) × List Byte)) (d : DictS) (a b : Nat) (x : List Byte)
    (h0 : d.value a b = x ∨ ∃ v ∈ vs, entryKey a b = entryKey v.1.1 v.1.2)
    (h : ∀ v ∈ vs, entryKey a b = entryKey v.1.1 v.1.2 → v.2 = x) :
    (vs.foldl (fun d v => d.put v.1.1 v.1.2 v.2) d).value a b = x := by
  induction vs generalizing d with
  | nil => simpa using h0
  | cons v vs ih =>
    refine ih _ ?_ fun w hw => h w (List.mem_cons_of_mem _ hw)
    rw [DictS.put_value]
    by_cases hk : entryKey a b = entryKey v.1.1 v.1.2
    · rw [if_pos hk]; exact .inl (h v List.mem_cons_self hk)
    · rw [if_neg hk]
      refine h0.imp_right ?_
      rintro ⟨w, hw, he⟩
      rcases List.mem_cons.mp hw with rfl | hw
      · exact absurd he hk
      · exact ⟨w, hw, he⟩

theorem DictS.puts_csn (vs : List ((Nat × Nat) × List Byte)) (d : DictS) :
    (vs.foldl (fun d v => d.put v.1.1 v.1.2 v.2) d).csn = d.csn := by
  induction vs generalizing d with
  | nil => rfl
  | cons v vs ih => exact ih _

theorem State.belfryCommit_csn (s : State) (vs : List ((Nat × Nat) × List Byte)) : (s.belfryCommit vs).dict.csn = s.dict.csn + 1#64 :=
  DictS.puts_csn vs _

/-- A commit of the Belfry leaves an entry at the one value that it gives it. -/
theorem State.belfryCommit_value (s : State) (vs : List ((Nat × Nat) × List Byte)) (a b : Nat) (x : List Byte)
    (hin : ((a, b), x) ∈ vs) (h : ∀ v ∈ vs, entryKey a b = entryKey v.1.1 v.1.2 → v.2 = x) :
    (s.belfryCommit vs).dict.value a b = x :=
  DictS.puts_value vs _ a b x (.inr ⟨_, hin, rfl⟩) h

/-! ### ROLL, alert, input, rails, monitors and the save of the trims -/

theorem kettleRoll_taken (s : State) (w : W64) (h : rollBad w = false) : Gives (.kettleRoll w) s fun u =>
    u.kettle = { s.kettle with waiting := s.kettle.waiting ++ if rollEmpty w then [] else [w] } := by
  refine gives_next (v := s.setKettle (s.kettle.take w)) (by simp [exec_kettleRoll, execKettleRoll, h]) ?_
  cases he : rollEmpty w <;> simp [State.setKettle, KettleS.take, he]

theorem kettleRoll_discarded (s : State) (w : W64) (h : rollBad w = true) :
    Gives (.kettleRoll w) s fun u => u.kettle = s.kettle ∧ u = s.discard :=
  gives_next (v := s.discard) (by simp [exec_kettleRoll, execKettleRoll, h]) ⟨by simp, rfl⟩

theorem currentLimitAlert_cuts (s : State) (d : ADie) (a : W32) : Gives (.currentLimitAlert d a) s fun u =>
    (u.kettle.limitOf d.val).alert = true ∧ (u.kettle.limitOf d.val).pct = 85
      ∧ u.kettle.ilimAlerts = satInc32 s.kettle.ilimAlerts
      ∧ ∀ n, u.kettle.grants.get 64 n = if onDie d.val n then 64 else s.kettle.grants.get 64 n := by
  refine gives_next rfl ?_
  simp only [when_kettle, State.raiseBelfry_frame, ite_self]
  simp only [State.setKettle, KettleS.limitOf, Map.get_set_self, KettleS.cutDie, Map.get_filter_keys]
  simp

theorem inputReport_recorded (s : State) (v w : Nat) (hr : s.svc.running = true) (hv : 5600 ≤ v) : Gives (.inputReport v w) s fun u =>
    u.kettle.volt = min 0xFFFF v ∧ u.kettle.watts = min 0xFFFF w
      ∧ u.kettle.inputBad = decide (v < 6000 ∨ 8000 < v) ∧ u.svc.running = true := by
  have hv' : ¬ v < 5600 := by omega
  refine gives_next (by simp only [exec_inputReport, execInputReport, hr, hv', Bool.not_true, Bool.false_eq_true, if_false]; rfl) ?_
  simp only [when_kettle, when_svc, State.raiseBelfry_frame, ite_self]
  simp [Bool.decide_or]

theorem inputReport_below (s : State) (v w : Nat) (hr : s.svc.running = true) (hv : v < 5600) :
    Gives (.inputReport v w) s fun u => u.svc.running = false ∧ u.mem.mem = [] ∧ u.tiles = [] :=
  gives_next (by simp only [exec_inputReport, execInputReport, hr, hv, Bool.not_true, Bool.false_eq_true, if_false, if_true]; rfl)
    ⟨rfl, rfl, rfl⟩

theorem railTargetReached_ends (s : State) (h : s.kettle.ramp = true) : Gives .railTargetReached s fun u =>
    u.kettle.rails = s.kettle.targets ∧ u.kettle.ramp = false ∧ u.kettle.frReady = decide (s.kettle.point = 2) := by
  refine gives_next (by simp only [exec_railTargetReached, execRailTargetReached, h, Bool.not_true, Bool.false_eq_true, if_false]; rfl) ?_
  simp [State.setKettle]

@[simp] theorem KettleS.tile_setTile (k : KettleS) (t : TileId) (p : TilePwr) : (k.setTile t p).tile t = p := by
  simp [KettleS.tile, KettleS.setTile]

@[simp] theorem State.setKettle_kettle (s : State) (k : KettleS) : (s.setKettle k).kettle = k := rfl

/-- The trim that a tile's monitor leaves when no neighbour boosts and its point is not fixed rate. -/
theorem monitorTile_in_range (s : State) (t : TileId) (m : Nat) (x : W16) (hc : (s.kettle.tile t).ceiling = false)
    (hp : s.kettle.point ≠ 2) (hb : s.kettle.tiles.all (fun e => !e.2.boost) = true) :
    (s.monitorTile t m true x).kettle.tile t = { s.kettle.tile t with
      trim := (trimAfter (s.kettle.tile t).trim (s.kettle.tile t).streak m).1,
      streak := (trimAfter (s.kettle.tile t).trim (s.kettle.tile t).streak m).2 } := by
  have hn : (s.kettle.tiles.any fun e => e.1 / 64 = tileDie t && e.2.boost) = false := by
    simp only [List.all_eq_true, Bool.not_eq_eq_eq_not, Bool.not_true] at hb
    simp only [List.any_eq_false, Bool.and_eq_true, not_and, Bool.not_eq_true]
    exact fun e he _ => hb e he
  simp [State.monitorTile, hc, hn, hp]

theorem monitorTile_out_of_range (s : State) (t : TileId) (m : Nat) (x : W16) (hc : (s.kettle.tile t).ceiling = false) :
    ((s.monitorTile t m false x).kettle.tile t).ceiling = true ∧ ((s.monitorTile t m false x).kettle.tile t).trim = 0 := by
  simp [State.monitorTile, hc]

theorem monitorCore_in_range (s : State) (c : CoreId) (m : Nat) (x : W16) (hc : (s.core c).ceiling = false) :
    ((s.monitorCore c m true x).core c).trim = (trimAfter (s.core c).trim (s.core c).streak m).1 := by
  simp [State.monitorCore, hc]

theorem State.core_raise (s : State) (a b d k u : Nat) (l : List Byte) (c : CoreId) : (s.raise a b d k u l).core c = s.core c := by
  simp [State.core]

theorem monitorCore_out_of_range (s : State) (c : CoreId) (m : Nat) (x : W16) (hc : (s.core c).ceiling = false) :
    ((s.monitorCore c m false x).core c).ceiling = true ∧ ((s.monitorCore c m false x).core c).trim = 0 := by
  simp [State.monitorCore, hc, State.core_raise]

theorem trimSave_commits (s : State) : Gives .trimSave s fun u => u.dict.csn = s.dict.csn + 1#64
    ∧ (∀ t : TileId, (s.kettle.tile t).trim < 256 → u.dict.num 0x1013 t.val = (s.kettle.tile t).trim)
    ∧ ∀ c : CoreId, (s.core c).trim < 256 → u.dict.num 0x1014 c.val = (s.core c).trim := by
  refine gives_next rfl ⟨State.belfryCommit_csn s _, fun t ht => ?_, fun c hc => ?_⟩
  · rw [DictS.num, State.belfryCommit_value s _ _ _ (bytesOfNat 1 (s.kettle.tile t).trim), natOfBytes_one_byte _ ht]
    · exact List.mem_append_left _ (List.mem_map.mpr ⟨t, List.mem_finRange t, rfl⟩)
    · intro v hv he
      rcases List.mem_append.mp hv with hv | hv <;> obtain ⟨i, -, rfl⟩ := List.mem_map.mp hv <;> simp only [entryKey] at he
      · have : t = i := Fin.ext (by omega)
        rw [this]
      · omega
  · rw [DictS.num, State.belfryCommit_value s _ _ _ (bytesOfNat 1 (s.core c).trim), natOfBytes_one_byte _ hc]
    · exact List.mem_append_right _ (List.mem_map.mpr ⟨c, List.mem_finRange c, rfl⟩)
    · intro v hv he
      rcases List.mem_append.mp hv with hv | hv <;> obtain ⟨i, -, rfl⟩ := List.mem_map.mp hv <;> simp only [entryKey] at he
      · omega
      · have : c = i := Fin.ext (by omega)
        rw [this]

/-! ### The cycle -/

/-- The fields that the settings, the readings and the thermal cap of a cycle put in place, and the rails. -/
def KettleS.cycleView (k : KettleS) : Nat × Bool × Option Nat × Bool × Map W16 × Map Nat :=
  (k.point, k.boostEn, k.cap, k.throttle, k.logic, k.rails)

theorem State.shortfall_cap_rails (s : State) (r : KettleIn) :
    (s.shortfall r).kettle.cap = s.kettle.cap ∧ (s.shortfall r).kettle.rails = s.kettle.rails := by
  simp only [State.shortfall]
  split <;> simp [State.setKettle]

theorem State.throttle_kettle (s : State) (p : Nat) : ∃ n, (s.throttle p).kettle = { s.kettle with
    cap := thermalCap s.kettle.cap p s.kettle.hottest (8 * s.dict.num 0x4000 1)
    throttle := (thermalCap s.kettle.cap p s.kettle.hottest (8 * s.dict.num 0x4000 1)).isSome
    throttleCycles := n } := ⟨_, by simp [State.throttle, State.setKettle]; rfl⟩

theorem State.hotDie_view (s : State) (d : Nat) : (s.hotDie d).kettle.cycleView = s.kettle.cycleView := by
  simp only [State.hotDie]
  (repeat' split) <;> simp [State.setKettle, KettleS.cycleView]

theorem State.hotStack_kettle (s : State) (p : Ctrl × Int) : (s.hotStack p).kettle = s.kettle := by simp

theorem KettleS.tokens_floor (k : KettleS) (r : KettleIn) (p : Nat × Nat) : 64 ≤ k.tokens r p := by
  simp only [KettleS.tokens]
  split <;> omega

/-- Tokens set one after another are no fewer than 64 each. -/
theorem KettleS.granted_floor (k : KettleS) (r : KettleIn) (sh : Shares) (m : Map Nat) (n : Nat) (h : 64 ≤ m.get 64 n) :
    64 ≤ (sh.foldl (fun (m : Map Nat) p => m.set 64 p.1 (k.tokens r p)) m).get 64 n := by
  induction sh generalizing m with
  | nil => exact h
  | cons p sh ih =>
    refine ih _ ?_
    rw [Map.get_set]
    split
    · exact k.tokens_floor r p
    · exact h

theorem State.grant_floor (s : State) (r : KettleIn) (b n : Nat) : 64 ≤ (s.grant r b).kettle.grants.get 64 n :=
  KettleS.granted_floor _ r _ [] n (Nat.le_refl 64)

theorem KettleS.budget_le (k : KettleS) (p : Nat) : k.budget p ≤ p := by
  simp only [KettleS.budget]
  split <;> omega

/-- Marking tiles changes only the tiles' records. -/
theorem KettleS.setTiles_tiles (l : List TileId) (k : KettleS) : ∃ ts,
    l.foldl (fun (k : KettleS) t => k.setTile t { k.tile t with boost := true }) k = { k with tiles := ts } := by
  induction l generalizing k with
  | nil => exact ⟨_, rfl⟩
  | cons t l ih =>
    obtain ⟨ts, h⟩ := ih (k.setTile t { k.tile t with boost := true })
    exact ⟨ts, by rw [List.foldl_cons, h]; rfl⟩

theorem State.boost_kettle (s : State) (r : KettleIn) : ∃ ts l, (s.boost r).kettle = KettleS.aim { s.kettle with tiles := ts } l := by
  simp only [State.boost, State.setKettle]
  generalize hk : List.foldl _ _ _ = k1
  obtain ⟨ts, h⟩ := KettleS.setTiles_tiles _ _
  exact ⟨ts, _, by rw [← hk, h]⟩

theorem railStep_near (v t : Nat) : railStep v t ≤ v + 20 ∧ v ≤ railStep v t + 20 := by
  simp only [railStep]
  split <;> omega

theorem KettleS.aim_rails (k : KettleS) (l : List Nat) (d : Nat) (h : d < 4) :
    (k.aim l).rails.get 0 d ≤ k.rails.get 0 d + 20 ∧ k.rails.get 0 d ≤ (k.aim l).rails.get 0 d + 20 := by
  have : (k.aim l).rails.get 0 d = railStep (k.rails.get 0 d) (if l.contains d then 860 else pointVolt k.point) := by
    have : d = 0 ∨ d = 1 ∨ d = 2 ∨ d = 3 := by omega
    rcases this with rfl | rfl | rfl | rfl <;> simp [KettleS.aim, List.range_succ, Map.get_set]
  rw [this]
  exact railStep_near _ _

/-- The cycle up to the grants: collect, throttle, cut the hot parts, and settle the ROLLs and the current limits. -/
def State.cycleLimited (s : State) (r : KettleIn) : State :=
  let s1 := (s.shortfall r).setKettle (((s.shortfall r).kettle.settings s.dict).readings r)
  let s4 := r.dram.foldl State.hotStack ((List.range 6).foldl State.hotDie (s1.throttle (1000 * s.dict.num 0x3000 2)))
  let k := (s4.rollBoundary r).kettle
  let limits := (List.range 4).foldl (fun (m : Map IlimS) d =>
    m.modify IlimS.clear d fun x => x.boundary (r.alerts.any fun a => a.val = d)) k.ilim
  (s4.rollBoundary r).setKettle { k with ilim := limits }

theorem State.kettleCycle_of_cool (s : State) (r : KettleIn) (hr : s.svc.railsOn = true) (ht : tripSensor r = none) :
    s.kettleCycle r
      = (((s.cycleLimited r).grant r ((s.cycleLimited r).kettle.budget (1000 * s.dict.num 0x3000 2))).boost r).observe := by
  simp only [State.kettleCycle, hr, ht, Bool.not_true, Bool.false_eq_true, if_false]
  rfl

theorem State.cycleLimited_window (s : State) (r : KettleIn) : (s.cycleLimited r).window = s.window := by
  simp only [State.cycleLimited, State.setKettle_frame, State.rollBoundary_frame]
  rw [foldl_frame State.hotStack (fun x => x.window) (by simp), foldl_frame State.hotDie (fun x => x.window) (by simp)]
  simp

/-- What stands before the grants: POINT, BOOST_EN, the thermal cap, THROTTLE and the rails. -/
theorem State.cycleLimited_view (s : State) (r : KettleIn) :
    let k := (s.cycleLimited r).kettle
    k.point = s.dict.num 0x3000 1 ∧ k.boostEn = decide (s.dict.num 0x3000 3 = 1)
      ∧ k.cap = thermalCap s.kettle.cap (1000 * s.dict.num 0x3000 2) k.hottest (8 * s.dict.num 0x4000 1)
      ∧ k.throttle = k.cap.isSome ∧ k.rails = s.kettle.rails ∧ k.waiting = [] := by
  intro k
  obtain ⟨hcap, hrails⟩ := s.shortfall_cap_rails r
  generalize hk1 : ((s.shortfall r).kettle.settings s.dict).readings r = k1
  obtain ⟨n, hth⟩ := State.throttle_kettle ((s.shortfall r).setKettle k1) (1000 * s.dict.num 0x3000 2)
  have hview : k.cycleView = (((s.shortfall r).setKettle k1).throttle (1000 * s.dict.num 0x3000 2)).kettle.cycleView := by
    calc k.cycleView
        = (r.dram.foldl State.hotStack ((List.range 6).foldl State.hotDie
            (((s.shortfall r).setKettle k1).throttle (1000 * s.dict.num 0x3000 2)))).kettle.cycleView := by rw [← hk1]; rfl
      _ = ((List.range 6).foldl State.hotDie
            (((s.shortfall r).setKettle k1).throttle (1000 * s.dict.num 0x3000 2))).kettle.cycleView := by
          rw [foldl_frame State.hotStack (fun x => x.kettle) State.hotStack_kettle]
      _ = _ := foldl_frame State.hotDie (fun x => x.kettle.cycleView) State.hotDie_view _ _
  have hd : (s.shortfall r).dict = s.dict := by simp
  rw [hth] at hview
  simp only [KettleS.cycleView, Prod.mk.injEq, State.setKettle, hd] at hview
  obtain ⟨hp, hb, hc, ht, hl, hr⟩ := hview
  have hk : k1.point = s.dict.num 0x3000 1 ∧ k1.boostEn = decide (s.dict.num 0x3000 3 = 1) ∧ k1.cap = (s.shortfall r).kettle.cap
      ∧ k1.rails = (s.shortfall r).kettle.rails := by rw [← hk1]; exact ⟨rfl, rfl, rfl, rfl⟩
  obtain ⟨kp, kb, kc, kr⟩ := hk
  have hh : k.hottest = k1.hottest := by rw [KettleS.hottest, KettleS.hottest, hl]
  exact ⟨hp.trans kp, hb.trans kb, by rw [hc, hh, kc, hcap], by rw [ht, hc], by rw [hr, kr, hrails], rfl⟩

theorem kettleCycle_trips (s : State) (r : KettleIn) (hr : s.svc.railsOn = true) (k : Nat) (x : Int) (h : tripSensor r = some (k, x)) :
    Gives (.kettleCycle r) s fun u => u.svc.tripped = true ∧ u.svc.alert = true ∧ u.svc.railsOn = false ∧ u.mem.mem = []
      ∧ u.tocsin.tallies = s.tocsin.tallies := by
  refine gives_next (v := s.thermalTrip k x)
    (by simp only [exec_kettleCycle, execKettleCycle, State.kettleCycle, hr, h, Bool.not_true, Bool.false_eq_true, if_false]) ?_
  exact ⟨rfl, rfl, rfl, rfl, rfl⟩

/-- The grants, the boost and the telemetry of a cycle keep what stands before them, but move the rails by one step. -/
theorem State.granted_boosted (v : State) (r : KettleIn) (b : Nat) :
    let u := ((v.grant r b).boost r).observe
    u.kettle.point = v.kettle.point ∧ u.kettle.boostEn = v.kettle.boostEn ∧ u.kettle.cap = v.kettle.cap
      ∧ u.kettle.throttle = v.kettle.throttle ∧ u.kettle.hottest = v.kettle.hottest ∧ u.kettle.waiting = v.kettle.waiting
      ∧ u.kettle.limit ≤ b / 1000 ∧ (∀ n, 64 ≤ u.kettle.grants.get 64 n)
      ∧ (∀ d, d < 4 → u.kettle.rails.get 0 d ≤ v.kettle.rails.get 0 d + 20 ∧ v.kettle.rails.get 0 d ≤ u.kettle.rails.get 0 d + 20)
      ∧ u.window.cycles = v.window.cycles + 1 := by
  intro u
  obtain ⟨ts, l, hk⟩ := State.boost_kettle (v.grant r b) r
  have hu : u.kettle = KettleS.aim { (v.grant r b).kettle with tiles := ts } l := hk
  have hw : u.window.cycles = ((v.grant r b).boost r).window.cycles + 1 := rfl
  rw [hu, hw]
  exact ⟨rfl, rfl, rfl, rfl, rfl, rfl, Nat.min_le_right _ _, fun n => State.grant_floor v r b n,
    fun d hd => KettleS.aim_rails _ l d hd, by simp⟩

theorem kettleCycle_cycles (s : State) (r : KettleIn) (hr : s.svc.railsOn = true) (ht : tripSensor r = none) :
    Gives (.kettleCycle r) s fun u =>
      u.kettle.point = s.dict.num 0x3000 1 ∧ u.kettle.boostEn = decide (s.dict.num 0x3000 3 = 1)
      ∧ u.kettle.cap = thermalCap s.kettle.cap (1000 * s.dict.num 0x3000 2) u.kettle.hottest (8 * s.dict.num 0x4000 1)
      ∧ u.kettle.throttle = u.kettle.cap.isSome ∧ u.kettle.limit ≤ s.dict.num 0x3000 2
      ∧ (∀ n, 64 ≤ u.kettle.grants.get 64 n) ∧ u.kettle.waiting = []
      ∧ (∀ d, d < 4 → u.kettle.rails.get 0 d ≤ s.kettle.rails.get 0 d + 20 ∧ s.kettle.rails.get 0 d ≤ u.kettle.rails.get 0 d + 20)
      ∧ u.window.cycles = s.window.cycles + 1 := by
  refine gives_next (congrArg Host.Outcome.next (s.kettleCycle_of_cool r hr ht)) ?_
  obtain ⟨hp, hb, hc, ht, hra, hw⟩ := s.cycleLimited_view r
  have hwin := s.cycleLimited_window r
  have hbud := (s.cycleLimited r).kettle.budget_le (1000 * s.dict.num 0x3000 2)
  generalize (s.cycleLimited r).kettle.budget (1000 * s.dict.num 0x3000 2) = b at *
  generalize s.cycleLimited r = v at *
  obtain ⟨kp, kb, kc, kt, kh, kw, kl, kg, kr, kn⟩ := v.granted_boosted r b
  exact ⟨kp.trans hp, kb.trans hb, by rw [kc, kh, hc], by rw [kt, kc, ht], by omega, kg, kw.trans hw, hra ▸ kr, by rw [kn, hwin]⟩

theorem telemetryWindow_closes (s : State) (h : s.firmwareRuns = true) : Gives .telemetryWindow s fun u =>
    u.window = WindowS.empty ∧ u.coarse.csn = s.dict.csn
      ∧ (s.window.limit < 2 ^ 16 → u.coarse.budget.toNat % 2 ^ 16 = s.window.limit / 10 * 10)
      ∧ u.coarse.status.toNat % 16 = s.kettle.statusWord.toNat % 16 := by
  refine gives_next (by simp only [exec_telemetryWindow, execTelemetryWindow, h, if_true]; rfl) ⟨rfl, rfl, fun hl => ?_, ?_⟩
  · simp only [State.coarseOf, BitVec.toNat_ofNat, downTo]
    omega
  · simp only [State.coarseOf, BitVec.toNat_ofNat]
    omega

/-- Settles O51: each command of Kettle by its own lemma; the cycle through the state before its grants. -/
theorem kettleCommands : Obligations.KettleCommands := by
  unfold Obligations.KettleCommands
  intro s
  refine ⟨fun w => ⟨kettleRoll_taken s w, kettleRoll_discarded s w⟩, currentLimitAlert_cuts s,
    fun v w hr => ⟨inputReport_recorded s v w hr, inputReport_below s v w hr⟩, railTargetReached_ends s, fun t m x hc => ?_,
    fun c m x hc => ?_, trimSave_commits s, fun r hr => ⟨fun k x => kettleCycle_trips s r hr k x, kettleCycle_cycles s r hr⟩,
    telemetryWindow_closes s⟩
  · refine ⟨gives_next rfl (monitorTile_out_of_range s t m x hc), fun hp hb => gives_next rfl ?_⟩
    rw [monitorTile_in_range s t m x hc hp hb]
    simp only [trimAfter]
    grind
  · exact ⟨gives_next rfl (monitorCore_out_of_range s c m x hc), gives_next rfl (monitorCore_in_range s c m x hc)⟩

end Sys2Proof.Machine
/-! ## O52: power, reset, the ROM state and the bays

Every event that boots ends in `State.bringUp`; `bringUp_booted` says once what it leaves, whatever led there. -/

namespace Sys2Proof.Machine

/-! ### Bring-up (R492, R493, R514) -/

/-- Of the service state, bring-up sets the node, the ROM state, the phase, the rails and the alert. -/
theorem State.bringUp_svc (s : State) : ∃ rom phase rails alert, s.bringUp.svc = { s.svc with
    node := s.svc.strap.val, rom := rom, phase := phase, railsOn := rails, alert := alert } := by
  unfold State.bringUp
  dsimp only
  split
  · exact ⟨_, _, _, _, rfl⟩
  · split <;> exact ⟨_, _, _, _, rfl⟩

theorem CustS.useConfig_keeps {α : Type} (g : CustS → α) (hg : ∀ c a b, g { c with config := a, topVersion := b } = g c) (c : CustS) :
    g c.useConfig = g c := by
  unfold CustS.useConfig
  split
  · exact hg c _ c.topVersion
  · split
    · exact hg c _ _
    · exact hg c _ c.topVersion

theorem NetS.hoop_setHoop (n : NetS) (l m : LinkId) (v : HoopLink) : (n.setHoop l v).hoop m = if m = l then v else n.hoop m := by
  simp only [NetS.setHoop, NetS.hoop, Map.get_set, Fin.ext_iff]

/-- Links that are set one after another to training all train. -/
theorem NetS.setHoops_train (v : LinkId → HoopLink) (hv : ∀ l, (v l).state = 1) (ls : List LinkId) (l : LinkId) (hl : l ∈ ls) (n : NetS) :
    ((ls.foldl (fun n m => n.setHoop m (v m)) n).hoop l).state = 1 := by
  refine foldl_reaches (fun n : NetS => (n.hoop l).state = 1) _ hl (fun n => ?_) (fun m _ n hn => ?_) n
  · rw [NetS.hoop_setHoop, if_pos rfl, hv]
  · rw [NetS.hoop_setHoop]
    split
    · exact hv m
    · exact hn

theorem State.loadSettings_hoop (s : State) (l : LinkId) : (s.loadSettings.hoop l).state = 1 :=
  NetS.setHoops_train (fun l => let v := s.dict.num 0x6000 l.val
    { HoopLink.reset with state := 1, split := bitsOf v 0 5, reqf := bitsOf v 8 4, reqr := bitsOf v 12 4 })
    (fun _ => rfl) _ l (List.mem_finRange l) s.net

theorem State.raiseRails_rails (s : State) (d : Nat) (h : d < 4) :
    s.raiseRails.kettle.rails.get 0 d = pointVolt (s.dict.num 0x3000 1) := by
  have : d = 0 ∨ d = 1 ∨ d = 2 ∨ d = 3 := by omega
  rcases this with rfl | rfl | rfl | rfl <;> simp [State.raiseRails, List.range_succ, Map.get_set]

theorem CustS.bootFirmware_congr {c d : CustS} (hs : c.store = d.store) (hr : c.rollback = d.rollback) :
    c.bootFirmware = d.bootFirmware := by
  unfold CustS.bootFirmware CustS.firmware CustS.slot
  rw [hs, hr]

/-- Bring-up without a good firmware ends in the ROM state. -/
theorem State.bringUp_rom (s : State) (h : s.cust.bootFirmware = none) :
    s.bringUp.svc.rom = true ∧ s.bringUp.svc.alert = true ∧ s.bringUp.svc.phase = 1 ∧ s.bringUp.dict = s.dict
      ∧ s.bringUp.cust = { s.cust with latched := decide (s.dict.num 0x7000 1 = 1), romMeas := Config.romDigest } := by
  unfold State.bringUp
  dsimp only
  split
  · exact ⟨rfl, rfl, rfl, rfl, rfl⟩
  · next f hf => exact absurd (h.symm.trans hf) nofun

/-- The state in which bring-up with a good firmware loads the settings: the firmware measured and started, the configuration in
use. -/
def State.firmwareStarts (s : State) (f : Firmware) : State :=
  let latched : Bool := s.dict.num 0x7000 1 = 1
  { s with
    cust := CustS.useConfig { s.cust with
      latched := latched, romMeas := Config.romDigest, svn := f.svn, fwMeas := Config.sm3 f.whole }
    svc := { s.svc with node := s.svc.strap.val, phase := 2, rom := false, alert := false }
    cxl := { s.cxl with sealedBit := latched }
    kern := { s.kern with sealedMark := latched } }

theorem State.firmwareStarts_cust (s : State) (f : Firmware) :
    (s.firmwareStarts f).cust.latched = decide (s.dict.num 0x7000 1 = 1) ∧ (s.firmwareStarts f).cust.svn = f.svn
      ∧ (s.firmwareStarts f).cust.store = s.cust.store := by
  simp only [State.firmwareStarts]
  refine ⟨?_, ?_, ?_⟩
  · rw [CustS.useConfig_keeps CustS.latched fun _ _ _ => rfl]
  · rw [CustS.useConfig_keeps CustS.svn fun _ _ _ => rfl]
  · rw [CustS.useConfig_keeps CustS.store fun _ _ _ => rfl]

/-- Bring-up with a good firmware runs it, loads the settings and raises the rails. -/
theorem State.bringUp_runs (s : State) (f : Firmware) (h : s.cust.bootFirmware = some f) :
    s.bringUp = (s.firmwareStarts f).loadSettings.raiseRails.bootFails ∨ s.bringUp = (s.firmwareStarts f).loadSettings.raiseRails := by
  unfold State.bringUp
  dsimp only
  split
  · next hf => exact absurd (h.symm.trans hf) nofun
  · next g hf =>
    obtain rfl : f = g := Option.some.inj (h.symm.trans hf)
    split
    · exact .inl rfl
    · exact .inr rfl

theorem State.raisedRails_facts (t : State) :
    t.loadSettings.raiseRails.net = t.loadSettings.net ∧ t.loadSettings.raiseRails.cust = t.cust
      ∧ t.loadSettings.raiseRails.dict = t.dict ∧ t.loadSettings.raiseRails.svc = { t.svc with railsOn := true }
      ∧ ∀ d, d < 4 → t.loadSettings.raiseRails.kettle.rails.get 0 d = pointVolt (t.dict.num 0x3000 1) :=
  ⟨by simp, by simp, by simp, by simp [State.raiseRails], fun d h => by simpa using t.loadSettings.raiseRails_rails d h⟩

/-- What bring-up with a good firmware leaves. -/
theorem State.bringUp_running (s : State) (f : Firmware) (h : s.cust.bootFirmware = some f) :
    s.bringUp.svc.rom = false ∧ s.bringUp.svc.phase = 2 ∧ s.bringUp.svc.railsOn = true
      ∧ s.bringUp.cust = (s.firmwareStarts f).cust ∧ s.bringUp.dict = s.dict
      ∧ (∀ d, d < 4 → s.bringUp.kettle.rails.get 0 d = pointVolt (s.dict.num 0x3000 1))
      ∧ ∀ l : LinkId, (s.bringUp.hoop l).state = 1 := by
  obtain ⟨hn, hc, hd, hv, hk⟩ := (s.firmwareStarts f).raisedRails_facts
  have hh : ∀ l, ((s.firmwareStarts f).loadSettings.raiseRails.hoop l).state = 1 := fun l => by
    rw [State.hoop, hn]
    exact State.loadSettings_hoop _ l
  have e := s.bringUp_runs f h
  generalize (s.firmwareStarts f).loadSettings.raiseRails = u at *
  rcases e with e | e <;> rw [e]
  · exact ⟨congrArg SvcS.rom hv, congrArg SvcS.phase hv, congrArg SvcS.railsOn hv, hc, hd, hk, hh⟩
  · exact ⟨congrArg SvcS.rom hv, congrArg SvcS.phase hv, congrArg SvcS.railsOn hv, hc, hd, hk, hh⟩

/-- Bring-up boots a module whose first stage runs, from the boot store and the rollback counter that stand in its custody state. -/
theorem State.bringUp_booted (s : State) (c : CustS) (hr : s.svc.running = true) (hst : c.store = s.cust.store)
    (hrb : c.rollback = s.cust.rollback) : s.bringUp.booted c := by
  obtain ⟨rom, ph, ra, al, hsvc⟩ := s.bringUp_svc
  have hrun : s.bringUp.svc.running = true := by rw [hsvc]; exact hr
  have hnode : s.bringUp.svc.node = s.bringUp.svc.strap.val := by rw [hsvc]
  unfold State.booted
  cases hf : c.bootFirmware with
  | none =>
    obtain ⟨hrom, hal, hph, hd, hc⟩ := s.bringUp_rom ((CustS.bootFirmware_congr hst hrb).symm.trans hf)
    exact ⟨hrun, by rw [hc, hd], hnode, hrom, hal, hph⟩
  | some f =>
    obtain ⟨hrom, hph, hra, hc, hd, hk, hh⟩ := s.bringUp_running f ((CustS.bootFirmware_congr hst hrb).symm.trans hf)
    obtain ⟨hla, hsvn, -⟩ := s.firmwareStarts_cust f
    exact ⟨hrun, by rw [hc, hd, hla], hnode, hrom, hph, hra, by rw [hc, hsvn], by rwa [hd], hh⟩

theorem State.bringUp_store (s : State) : s.bringUp.cust.store = s.cust.store := by
  cases hf : s.cust.bootFirmware with
  | none =>
    obtain ⟨-, -, -, -, hc⟩ := s.bringUp_rom hf
    rw [hc]
  | some f =>
    obtain ⟨-, -, -, hc, -⟩ := s.bringUp_running f hf
    rw [hc, (s.firmwareStarts_cust f).2.2]

/-- Bring-up leaves the V_B domain's tallies and event counters. -/
theorem State.bringUp_tocsin (s : State) : s.bringUp.tocsin = s.tocsin := by simp

/-! ### Power and EN -/

/-- The first stage starts with EN tied and 58 V or more at the input. -/
theorem State.powerOn_booted (s : State) (hr : s.svc.running = false) (he : s.svc.enTied = true) (hv : 5800 ≤ s.svc.inVolt) :
    s.powerOn.booted s.cust ∧ s.powerOn.svc.inVolt = s.svc.inVolt := by
  have hv' : ¬ s.svc.inVolt < 5800 := by omega
  simp only [State.powerOn, hr, he, hv', Bool.not_true, Bool.or_self, decide_false, Bool.false_eq_true, if_false]
  generalize hs : State.drawn _ = t
  obtain ⟨rom, ph, ra, al, hsvc⟩ := State.bringUp_svc t
  refine ⟨State.bringUp_booted t s.cust ?_ ?_ ?_, ?_⟩
  · rw [← hs]; rfl
  · rw [← hs]; rfl
  · rw [← hs]; rfl
  · rw [hsvc, ← hs]; rfl

theorem State.powerOn_low (s : State) (hv : s.svc.inVolt < 5800) : s.powerOn = s := by
  simp [State.powerOn, hv]

theorem enBreak_short (s : State) (us : Nat) (h : us ≤ 20) : Gives (.enBreak us) s fun u => u = s :=
  gives_next (v := s) (by simp only [exec_enBreak, execEnBreak, h, if_true]) rfl

theorem enBreak_stops (s : State) (us : Nat) (h : 20 < us) (hr : s.svc.running = true) : Gives (.enBreak us) s fun u =>
    u.svc.running = false ∧ u.svc.enTied = false ∧ u.tiles = [] ∧ u.bells = [] ∧ u.mem.mem = [] ∧ u.tocsin.tallies = []
      ∧ u.cust.store = s.cust.store ∧ u.cust.ownerKey = s.cust.ownerKey ∧ u.cust.rollback = s.cust.rollback
      ∧ u.dict.csn = s.dict.stored + 65536#64 := by
  have h' : ¬ us ≤ 20 := by omega
  exact gives_next (v := (s.setSvc { s.svc with enTied := false }).powerLost)
    (by simp only [exec_enBreak, execEnBreak, h', hr, if_true, if_false])
    ⟨rfl, rfl, rfl, rfl, rfl, rfl, rfl, rfl, rfl, rfl⟩

/-! ### RESET_N -/

theorem resetN_low (s : State) (us : Nat) (hr : s.svc.running = true) (hu : 1000 ≤ us) (hh : s.kettle.tooHot = false) :
    Gives (.resetN true us) s fun u => u.svc.resetLow = true ∧ u.svc.railsOn = false
      ∧ u.mem.mem = [] ∧ u.tocsin.tallies = s.tocsin.tallies ∧ u.tocsin.seqs = s.tocsin.seqs := by
  have hu' : ¬ us < 1000 := by omega
  exact gives_next (v := s.coldClear.setSvc { s.coldClear.svc with resetLow := true }) (by
    simp only [exec_resetN, execResetN, hr, hh, hu', Bool.not_true, Bool.or_self, decide_false, Bool.false_eq_true, if_true,
      if_false]) ⟨rfl, rfl, rfl, rfl, rfl⟩

theorem resetN_ignored (s : State) (us : Nat) (hr : s.svc.running = true) (h : us < 1000 ∨ s.kettle.tooHot = true) :
    Gives (.resetN true us) s fun u => u = s := by
  have h' : (decide (us < 1000) || s.kettle.tooHot) = true := by simpa using h
  exact gives_next (v := s) (by
    simp only [exec_resetN, execResetN, hr, h', Bool.not_true, Bool.false_eq_true, if_true, if_false]) rfl

theorem resetN_released (s : State) (us : Nat) (hr : s.svc.running = true) (hl : s.svc.resetLow = true) :
    Gives (.resetN false us) s fun u => u.booted s.cust ∧ u.svc.resetLow = false
      ∧ u.tocsin.tallies = s.tocsin.tallies ∧ u.tocsin.seqs = s.tocsin.seqs := by
  refine gives_next (v := State.bringUp (s.coldClear.setSvc { s.coldClear.svc with resetLow := false }))
    (by simp only [exec_resetN, execResetN, hr, hl, Bool.not_true, Bool.false_eq_true, if_false]) ?_
  obtain ⟨rom, ph, ra, al, hsvc⟩ := State.bringUp_svc (s.coldClear.setSvc { s.coldClear.svc with resetLow := false })
  refine ⟨State.bringUp_booted _ s.cust rfl rfl rfl, by rw [hsvc]; rfl, ?_, ?_⟩
  · rw [State.bringUp_tocsin]; rfl
  · rw [State.bringUp_tocsin]; rfl

/-! ### The ROM state (R524) -/

theorem romBegin_begins (s : State) (hr : s.svc.rom = true) (k : Byte) (n : W32) (hk : k.toNat ≤ 1) (hn : n.toNat ≤ 2 ^ 22) :
    Gives (.romBegin k n) s fun u => u.svc.romImage = some (k.toNat, n.toNat, []) ∧ u.reply.code = stOk := by
  have hk' : ¬ k.toNat > 1 := by omega
  have hn' : ¬ n.toNat > slotSize 0 := by simp [slotSize]; omega
  exact gives_next (v := State.answer (s.setSvc { s.svc with romImage := some (k.toNat, n.toNat, []) }) stOk []) (by
    simp only [exec_romBegin, execRomBegin, hr, hk', hn', Bool.not_true, Bool.false_eq_true, if_false]) ⟨rfl, rfl⟩

theorem romData_taken (s : State) (hr : s.svc.rom = true) (g : Nat × Nat × List Byte) (o : W32) (bs : List Byte)
    (hg : s.svc.romImage = some g) (ho : o.toNat = g.2.2.length) (hb : bs.length ≤ 1024) (hfit : o.toNat + bs.length ≤ g.2.1) :
    Gives (.romData o bs) s fun u => u.svc.romImage = some (g.1, g.2.1, g.2.2 ++ bs) ∧ u.reply.code = stOk := by
  have hb' : ¬ bs.length > 1024 := by omega
  have hf' : ¬ o.toNat + bs.length > g.2.1 := by omega
  refine gives_next (v := State.answer (s.setSvc { s.svc with romImage := some (g.1, g.2.1, g.2.2 ++ bs) }) stOk []) ?_ ⟨rfl, rfl⟩
  rw [exec_romData]
  unfold execRomData
  rw [if_neg (by simp [hr]), hg]
  dsimp only
  rw [if_neg (by simp only [ho]; simp [hb']), if_neg hf']

theorem romData_beyond (s : State) (hr : s.svc.rom = true) (g : Nat × Nat × List Byte) (o : W32) (bs : List Byte)
    (hg : s.svc.romImage = some g) (ho : o.toNat = g.2.2.length) (hb : bs.length ≤ 1024) (hfit : g.2.1 < o.toNat + bs.length) :
    Gives (.romData o bs) s fun u => u.svc.romImage = s.svc.romImage ∧ u.reply.code = stBounds := by
  have hb' : ¬ bs.length > 1024 := by omega
  refine gives_next (v := s.answer stBounds []) ?_ ⟨rfl, rfl⟩
  rw [exec_romData]
  unfold execRomData
  rw [if_neg (by simp [hr]), hg]
  dsimp only
  rw [if_neg (by simp only [ho]; simp [hb']), if_pos hfit]

/-- A slot that is erased and written from its start reads as written. -/
theorem CustS.slot_writeSlot (c : CustS) (k : Nat) (off : Nat) (bs : List Byte) : (c.writeSlot k off bs).slot k off bs.length = bs := by
  simp [CustS.slot, CustS.writeSlot]

theorem romEnd_boots (s : State) (hr : s.svc.rom = true) (g : Nat × Nat × List Byte) (hg : s.svc.romImage = some g)
    (hl : g.2.2.length = g.2.1) (hgood : (Firmware.ofBytes (g.2.2.take 128) (g.2.2.drop 128)).good s.cust.rollback = true) :
    Gives .romEnd s fun u =>
      u.booted ((s.cust.eraseSlot g.1).writeSlot g.1 0 g.2.2) ∧ u.cust.slot g.1 0 g.2.2.length = g.2.2 := by
  refine gives_next (v := State.coldReset ((s.setCust ((s.cust.eraseSlot g.1).writeSlot g.1 0 g.2.2)).answer stOk [])) ?_ ⟨?_, ?_⟩
  · rw [exec_romEnd]
    unfold execRomEnd
    rw [if_neg (by simp [hr]), hg]
    dsimp only
    rw [if_pos (by simp [hl, hgood])]
  · exact State.bringUp_booted _ _ rfl rfl rfl
  · rw [CustS.slot, State.coldReset, State.bringUp_store]
    exact CustS.slot_writeSlot (s.cust.eraseSlot g.1) g.1 0 g.2.2

theorem romEnd_refuses (s : State) (hr : s.svc.rom = true) (g : Nat × Nat × List Byte) (hg : s.svc.romImage = some g)
    (hbad : (Firmware.ofBytes (g.2.2.take 128) (g.2.2.drop 128)).good s.cust.rollback = false) :
    Gives .romEnd s fun u => u.reply.code = stTierError ∧ u.cust.store = s.cust.store := by
  refine gives_next (v := s.answer stTierError []) ?_ ⟨rfl, rfl⟩
  rw [exec_romEnd]
  unfold execRomEnd
  rw [if_neg (by simp [hr]), hg]
  dsimp only
  rw [if_neg (by simp [hbad])]

/-! ### Links that go down together -/

/-- Takes a port's link down where the port has a property. -/
def State.downWhere (c : Port → Bool) (cause : Nat) (s : State) (p : PortId) : State := if c (s.port p) then s.linkDown p cause else s

section
variable (c : Port → Bool) (hc : ∀ x l n, c { x with link := l, txCount := n } = c x) (cause : Nat) (s : State) (p q : PortId)

theorem downWhere_other {α : Type} (f : Port → α) (hf : ∀ x l n, f { x with link := l, txCount := n } = f x) (h : q ≠ p) :
    f ((s.downWhere c cause q).port p) = f (s.port p) := by
  unfold State.downWhere
  split
  · exact linkDown_other s q p cause (Ne.symm h) f hf
  · rfl

theorem downWhere_stays_down (h : (s.port p).linked = false) : ((s.downWhere c cause q).port p).linked = false := by
  by_cases hq : q = p
  · unfold State.downWhere
    split
    · rw [hq]; exact linkDown_linked s p cause
    · exact h
  · rw [downWhere_other c cause s p q Port.linked (fun _ _ _ => rfl) hq, h]

include hc

/-- Every port with the property is down once all have been looked at. -/
theorem allDown_where (h : c (s.port p) = true) : (((List.finRange 8).foldl (State.downWhere c cause) s).port p).linked = false := by
  obtain ⟨before, after, hl⟩ := List.append_of_mem (List.mem_finRange p)
  have hnd := List.nodup_finRange 8
  rw [hl, List.nodup_append] at hnd
  have hout : ∀ q ∈ before, q ≠ p := fun q hq => hnd.2.2 q hq p List.mem_cons_self
  rw [hl, List.foldl_append, List.foldl_cons]
  have hw : c ((before.foldl (State.downWhere c cause) s).port p) = true :=
    List.foldlRecOn (motive := fun u : State => c (u.port p) = true) before _ h
      fun u hu q hq => (downWhere_other c cause u p q c hc (hout q hq)).trans hu
  refine List.foldlRecOn (motive := fun u : State => (u.port p).linked = false) after _ ?_
    fun u hu q _ => downWhere_stays_down c cause u p q hu
  rw [State.downWhere, if_pos hw]
  exact linkDown_linked _ p cause

/-- A port without the property stays as it is, but for its queue. -/
theorem allDown_spare {α : Type} (f : Port → α) (hf : ∀ x l n, f { x with link := l, txCount := n } = f x) (h : c (s.port p) = false) :
    f (((List.finRange 8).foldl (State.downWhere c cause) s).port p) = f (s.port p) := by
  refine (List.foldlRecOn (motive := fun u : State => c (u.port p) = false ∧ f (u.port p) = f (s.port p)) _ _ ⟨h, rfl⟩
    fun u hu q _ => ?_).2
  by_cases hq : q = p
  · rw [State.downWhere, hq, if_neg (by simp [hu.1])]
    exact hu
  · rw [downWhere_other c cause u p q c hc hq, downWhere_other c cause u p q f hf hq]
    exact hu

end

/-! ### The light source bays -/

theorem latchOpened_darkens (s : State) (bay : Fin 2) (hb : bay ∉ s.svc.baysOut) : Gives (.latchOpened bay) s fun u =>
    bay ∈ u.svc.baysOut ∧ ∀ p, ((s.port p).usesBay bay = true → (s.port p).linked = true → (u.port p).linked = false)
      ∧ ((s.port p).usesBay bay = false → (u.port p).width = (s.port p).width) := by
  refine gives_next (v := (List.finRange 8).foldl (State.downWhere (·.usesBay bay) 1)
      (s.setSvc { s.svc with baysOut := bay :: s.svc.baysOut }))
    ?_ ⟨?_, fun p => ⟨fun h _ => allDown_where (·.usesBay bay) (fun _ _ _ => rfl) 1 _ p h,
      fun h => allDown_spare (·.usesBay bay) (fun _ _ _ => rfl) 1 _ p Port.width (fun _ _ _ => rfl) h⟩⟩
  · rw [exec_latchOpened]
    unfold execLatchOpened
    rw [if_neg (by simp [hb])]
    rfl
  · rw [foldl_frame (State.downWhere (·.usesBay bay) 1) (fun x => x.svc) fun u q => by simp [State.downWhere]]
    exact List.mem_cons_self

/-- Settles O52: the events that boot through `bringUp_booted`, the ROM's commands and the bays each by its own lemma. -/
theorem powerAndReset : Obligations.PowerAndReset := by
  unfold Obligations.PowerAndReset
  intro s
  refine ⟨fun v hr he => ⟨fun hv => gives_next rfl ?_, fun hv => gives_next rfl ?_⟩,
    fun ms hms hr => ⟨fun hv => ?_, fun hv => ?_⟩,
    fun us => ⟨enBreak_short s us, enBreak_stops s us⟩,
    fun hr => ⟨fun us => resetN_low s us hr, fun us => resetN_ignored s us hr, fun us => resetN_released s us hr⟩,
    fun hr => ⟨romBegin_begins s hr, fun g o bs hg ho hb => ⟨romData_taken s hr g o bs hg ho hb, romData_beyond s hr g o bs hg ho hb⟩,
      fun g f hg hl hf => ?_⟩,
    latchOpened_darkens s, fun bay => gives_next rfl ⟨?_, rfl⟩⟩
  · exact State.powerOn_booted (s.setSvc { s.svc with inVolt := v }) hr he hv
  · exact State.powerOn_low _ hv
  · have hms' : ¬ ms < 50 := by omega
    exact gives_next (by simp only [exec_enTied, execEnTied, hms', if_false])
      (State.powerOn_booted (s.setSvc { s.svc with enTied := true }) hr rfl hv).1
  · have hms' : ¬ ms < 50 := by omega
    exact gives_next (by simp only [exec_enTied, execEnTied, hms', if_false])
      (State.powerOn_low (s.setSvc { s.svc with enTied := true }) hv)
  · subst hf
    exact ⟨romEnd_boots s hr g hg hl, romEnd_refuses s hr g hg⟩
  · simp [State.setSvc]

end Sys2Proof.Machine
/-! ## O54: the service actions

Every action is a write of ACTION: `writeAction_goes` takes one that passes its checks to the state `s.actionTaken w` and what its
code does there. Then come the completions, which are commands of their own. -/

namespace Sys2Proof.Machine

/-! ### Refusals, and the fields of the words -/

theorem writeAction_refused {s : State} {who : Principal} {w : W64} (hp : 2 ≤ s.svc.phase) (ht : s.svc.tripped = false)
    (hc : s.actionCheck who w ≠ abNone) : ∃ v, s.writeAction who w
      = (s.logRefusal 0x9000 1 (principalNo who) (s.actionCheck who w) (principalPath who) v).answer
          (BitVec.ofNat 32 (s.actionCheck who w)) [] := by
  have hrun : ¬ s.svc.phase < 2 := Nat.not_lt.mpr hp
  exact ⟨_, by unfold State.writeAction; rw [if_neg (by simp [hrun, ht])]; exact if_pos hc⟩

/-- A refused action commits nothing. -/
theorem writeAction_commits_nothing {s : State} {who : Principal} {w : W64} (hp : 2 ≤ s.svc.phase) (ht : s.svc.tripped = false)
    (hc : s.actionCheck who w ≠ abNone) : (s.writeAction who w).reply.code = BitVec.ofNat 32 (s.actionCheck who w)
      ∧ (s.writeAction who w).svc = s.svc ∧ (s.writeAction who w).dict.csn = s.dict.csn := by
  obtain ⟨v, hv⟩ := writeAction_refused hp ht hc
  rw [hv]
  exact ⟨rfl, rfl, rfl⟩

theorem unitKind_lt (v : ServiceUnit) : unitKind v < 2 ^ 8 := by
  cases v with
  | ctrl c => simp only [unitKind, ctrlKind]; split <;> decide
  | tile t | core c | port p | group l g | link l => simp [unitKind]

theorem unitNumber_lt (v : ServiceUnit) : unitNumber v < 2 ^ 16 := by
  cases v with
  | ctrl c => simp only [unitNumber, ctrlUnit]; split <;> omega
  | tile t | core c | port p | group l g | link l => simp only [unitNumber]; omega

section
variable {s : State} {who : Principal} {v : ServiceUnit}

theorem exec_takeOut_goes {f : Bool} (h : s.actionGoes who (actionWord 0x10 (unitKind v) (unitNumber v) f.toNat))
    (hn : s.unitNamed 0x10 (unitKind v) (unitNumber v) = some v) : exec (.takeOut who v f) s
      = .next ((s.actionTaken (actionWord 0x10 (unitKind v) (unitNumber v) f.toNat)).actTakeOut v f) := by
  obtain ⟨hc, hk, hu, ha⟩ := actionWord_fields (c := 0x10) (k := unitKind v) (n := unitNumber v) (a := f.toNat) (by decide)
    (unitKind_lt v) (unitNumber_lt v) (by cases f <;> decide)
  have hn' : (s.actionTaken (actionWord 0x10 (unitKind v) (unitNumber v) f.toNat)).unitNamed 0x10 (unitKind v) (unitNumber v)
      = some v := hn
  have hf : decide (f.toNat = 1) = f := by cases f <;> rfl
  simp only [exec_takeOut, execTakeOut, writeAction_goes h (by omega), State.actionRuns, hc, hk, hu, ha, hn', hf]

theorem exec_bringBack_goes (h : s.actionGoes who (actionWord 0x11 (unitKind v) (unitNumber v) 0))
    (hn : s.unitNamed 0x11 (unitKind v) (unitNumber v) = some v) : exec (.bringBack who v) s
      = .next ((s.actionTaken (actionWord 0x11 (unitKind v) (unitNumber v) 0)).actReturn v) := by
  obtain ⟨hc, hk, hu, -⟩ := actionWord_fields (c := 0x11) (k := unitKind v) (n := unitNumber v) (a := 0) (by decide)
    (unitKind_lt v) (unitNumber_lt v) (by decide)
  have hn' : (s.actionTaken (actionWord 0x11 (unitKind v) (unitNumber v) 0)).unitNamed 0x11 (unitKind v) (unitNumber v)
      = some v := hn
  simp only [exec_bringBack, execBringBack, writeAction_goes h (by omega), State.actionRuns, hc, hk, hu, hn']

end

/-! ### BRINGUP_DONE (R514) -/

theorem KettleS.tile_setTile_ne (k : KettleS) (t v : TileId) (p : TilePwr) (h : v ≠ t) : (k.setTile t p).tile v = k.tile v :=
  Map.get_set_ne _ _ _ _ _ _ fun e => h (Fin.ext e)

theorem tileService_stuck (s : State) (t v : TileId) : ((s.tileService v).kettle.tile t).stuck = (s.kettle.tile t).stuck := by
  simp only [State.tileService]
  split
  · rfl
  · by_cases h : t = v
    · rw [h]; simp
    · simp [KettleS.tile_setTile_ne _ _ _ _ h]

theorem tileService_enters (s : State) (t : TileId) (h : (s.kettle.tile t).stuck = false) :
    ((s.tileService t).kettle.tile t).ceiling = false := by
  simp [State.tileService, h]

theorem tileService_keeps (s : State) (t v : TileId) (h : (s.kettle.tile t).ceiling = false) :
    ((s.tileService v).kettle.tile t).ceiling = false := by
  simp only [State.tileService]
  split
  · exact h
  · by_cases hv : t = v
    · rw [hv]; simp
    · simp [KettleS.tile_setTile_ne _ _ _ _ hv, h]

theorem coreService_enters (s : State) (c : CoreId) (h : (s.core c).stuckCeiling = false) :
    ((s.coreService c).core c).ceiling = false := by
  simp [State.coreService, h]

theorem coreService_stuck (s : State) (c d : CoreId) : ((s.coreService d).core c).stuckCeiling = (s.core c).stuckCeiling := by
  simp only [State.coreService]
  split
  · rfl
  · by_cases h : c = d
    · rw [h]; simp
    · rw [State.setCore_core_ne _ _ _ _ h]

theorem coreService_keeps (s : State) (c d : CoreId) (h : (s.core c).ceiling = false) : ((s.coreService d).core c).ceiling = false := by
  simp only [State.coreService]
  split
  · exact h
  · by_cases hd : c = d
    · rw [hd]; simp
    · rw [State.setCore_core_ne _ _ _ _ hd, h]

/-- One step of a fold that brings a fact about where another holds, when every step keeps both. -/
theorem foldl_reaches_from {σ β : Type} (I P : σ → Prop) (f : σ → β → σ) {l : List β} {x : β} (hx : x ∈ l)
    (hreach : ∀ s, I s → P (f s x)) (hI : ∀ y s, I s → I (f s y)) (hP : ∀ y s, P s → P (f s y)) (s : σ) (hs : I s) :
    P (l.foldl f s) := by
  obtain ⟨before, after, rfl⟩ := List.append_of_mem hx
  rw [List.foldl_append, List.foldl_cons]
  exact List.foldlRecOn after f (hreach _ (List.foldlRecOn before f hs fun u hu y _ => hI y u hu)) fun u hu y _ => hP y u hu

theorem tilesService_enter (s : State) (t : TileId) (h : (s.kettle.tile t).stuck = false) :
    (((List.finRange 256).foldl State.tileService s).kettle.tile t).ceiling = false :=
  foldl_reaches_from (fun u : State => (u.kettle.tile t).stuck = false) (fun u : State => (u.kettle.tile t).ceiling = false) _
    (List.mem_finRange t) (fun u hu => tileService_enters u t hu) (fun v u hu => (tileService_stuck u t v).trans hu)
    (fun v u hu => tileService_keeps u t v hu) s h

theorem coresService_enter (s : State) (c : CoreId) (h : (s.core c).stuckCeiling = false) :
    (((List.finRange 96).foldl State.coreService s).core c).ceiling = false :=
  foldl_reaches_from (fun u : State => (u.core c).stuckCeiling = false) (fun u : State => (u.core c).ceiling = false) _
    (List.mem_finRange c) (fun u hu => coreService_enters u c hu) (fun v u hu => (coreService_stuck u c v).trans hu)
    (fun v u hu => coreService_keeps u c v hu) s h

theorem core_of_cores {s u : State} (h : u.cores = s.cores) (c : CoreId) : u.core c = s.core c := by simp only [State.core, h]

theorem actBringupDone_facts (s : State) (h : s.svc.phase = 4) : s.actBringupDone.svc.phase = 5 ∧ s.actBringupDone.svc.result = 2
    ∧ (∀ t, (s.kettle.tile t).stuck = false → (s.actBringupDone.kettle.tile t).ceiling = false)
    ∧ ∀ c, (s.core c).stuckCeiling = false → (s.actBringupDone.core c).ceiling = false := by
  have hk : s.actBringupDone.kettle = ((List.finRange 256).foldl State.tileService s).kettle := by
    simp only [State.actBringupDone, h]
    simp only [ne_eq, not_true_eq_false, if_false, State.actionEnds_frame, State.setSvc_frame, State.raiseBelfry_frame]
    exact foldl_frame State.coreService (fun x => x.kettle) (by simp) _ _
  have hc : s.actBringupDone.cores
      = ((List.finRange 96).foldl State.coreService ((List.finRange 256).foldl State.tileService s)).cores := by
    simp only [State.actBringupDone, h]
    simp only [ne_eq, not_true_eq_false, if_false, State.actionEnds_frame, State.setSvc_frame, State.raiseBelfry_frame]
  have hcs : ((List.finRange 256).foldl State.tileService s).cores = s.cores :=
    foldl_frame State.tileService (fun x => x.cores) (by simp) _ _
  refine ⟨?_, ?_, fun t ht => ?_, fun c hst => ?_⟩
  · simp [State.actBringupDone, h, State.actionEnds, State.setSvc]
  · simp [State.actBringupDone, h, State.actionEnds, State.setSvc]
  · rw [hk]; exact tilesService_enter s t ht
  · rw [core_of_cores hc]
    exact coresService_enter _ c (by rw [core_of_cores hcs]; exact hst)

/-! ### TAKE_OUT (R519) -/

theorem failLots_mem (s : State) (c : Ctrl) : (s.failLots c).mem = s.mem := by simp

theorem takeOut_ctrl (s : State) (c : Ctrl) (f : Bool) : ((s.takeOut (.ctrl c) f).mem.ctrl c.val).state = 2 := by
  simp only [State.takeOut, failLots_mem]
  by_cases h : (s.mem.ctrl c.val).state = 2
  · simpa only [State.stackOut, if_pos h] using h
  · rw [stackOut_mem h]
    exact congrArg MemCtrl.state (MemS.setCtrl_ctrl_self s.mem c.val _)

theorem takeOut_port (s : State) (q : PortId) (f : Bool) :
    ((s.takeOut (.port q) f).port q).state = 0 ∧ ((s.takeOut (.port q) f).port q).en = false := by
  simp [State.takeOut]

theorem actTakeOut_in_service (s : State) (v : ServiceUnit) (f : Bool) (h : s.unitOut v = false) :
    (v, f) ∈ (s.actTakeOut v f).svc.leaving ∧ (s.actTakeOut v f).svc.result = s.svc.result
      ∧ (s.actTakeOut v f).svc.code = s.svc.code ∧ (s.actTakeOut v f).mem = (s.takeOut v f).mem
      ∧ (s.actTakeOut v f).net = (s.takeOut v f).net := by
  simp [State.actTakeOut, h, State.setSvc]

theorem actTakeOut_out (s : State) (v : ServiceUnit) (f : Bool) (h : s.unitOut v = true) :
    (s.actTakeOut v f).svc.leaving = s.svc.leaving ∧ (s.actTakeOut v f).svc.result = 2 := by
  simp [State.actTakeOut, h, State.actionEnds, State.setSvc]

theorem takeOut_leaves {s : State} {who : Principal} {v : ServiceUnit} {f : Bool}
    (h : s.actionGoes who (actionWord 0x10 (unitKind v) (unitNumber v) f.toNat)) (ho : s.unitOut v = false)
    (hn : s.unitNamed 0x10 (unitKind v) (unitNumber v) = some v) : Gives (.takeOut who v f) s fun u =>
      (v, f) ∈ u.svc.leaving ∧ u.svc.result = 1 ∧ u.svc.code = 0x10
        ∧ (∀ c, v = .ctrl c → (u.mem.ctrl c.val).state = 2) ∧ ∀ q, v = .port q → (u.port q).state = 0 ∧ (u.port q).en = false := by
  refine gives_next (exec_takeOut_goes h hn) ?_
  obtain ⟨hcode, -⟩ := actionWord_fields (c := 0x10) (k := unitKind v) (n := unitNumber v) (a := f.toNat) (by decide)
    (unitKind_lt v) (unitNumber_lt v) (by cases f <;> decide)
  have ho' : (s.actionTaken (actionWord 0x10 (unitKind v) (unitNumber v) f.toNat)).unitOut v = false := ho
  obtain ⟨hl, hr, hc, hm, hnet⟩ := actTakeOut_in_service _ v f ho'
  refine ⟨hl, hr, hc.trans hcode, ?_, ?_⟩
  · rintro c rfl
    rw [hm]
    exact takeOut_ctrl _ c f
  · rintro q rfl
    rw [port_of_net hnet]
    exact takeOut_port _ q f

/-! ### BRING_BACK, RETEST and DIE_RESET (R520, R521) -/

theorem actReturn_svc (s : State) (v : ServiceUnit) : (s.actReturn v).svc = { s.svc with returning := s.svc.returning ++ [v] } := by
  simp [State.actReturn, State.setSvc]

theorem actReturn_tile (s : State) (t : TileId) : ((s.actReturn (.tile t)).tile t).health = .outOfService
    ∧ ((s.actReturn (.tile t)).tile t).sregs = [] := by
  unfold State.actReturn
  rw [tile_of_tiles (State.setSvc_frame ..).1, tile_of_tiles (resetUnit_tile_tiles _ t), State.setTile_tile_self]
  exact ⟨rfl, rfl⟩

theorem actReturn_core (s : State) (c : CoreId) : ((s.actReturn (.core c)).core c).state = 3 := by
  have : (s.actReturn (.core c)).core c = ((s.when (!s.unitOut (.core c)) fun s => s.unitLeft 2 c.val 1).resetUnit (.core c)).core c :=
    rfl
  rw [this]
  simp only [State.resetUnit, State.setCore_core_self]

theorem bringBack_returns {s : State} {who : Principal} {v : ServiceUnit}
    (h : s.actionGoes who (actionWord 0x11 (unitKind v) (unitNumber v) 0)) (hn : s.unitNamed 0x11 (unitKind v) (unitNumber v) = some v) :
    Gives (.bringBack who v) s fun u => v ∈ u.svc.returning ∧ u.svc.result = 1 ∧ u.svc.code = 0x11
      ∧ (∀ t, v = .tile t → (u.tile t).health = .outOfService ∧ (u.tile t).sregs = []) ∧ ∀ c, v = .core c → (u.core c).state = 3 := by
  obtain ⟨hcode, -⟩ := actionWord_fields (c := 0x11) (k := unitKind v) (n := unitNumber v) (a := 0) (by decide)
    (unitKind_lt v) (unitNumber_lt v) (by decide)
  refine gives_next (exec_bringBack_goes h hn) ?_
  rw [actReturn_svc]
  refine ⟨by simp, rfl, hcode, ?_, ?_⟩
  · rintro t rfl
    exact actReturn_tile _ t
  · rintro c rfl
    exact actReturn_core _ c

theorem retest_returns {s : State} {who : Principal} {t : TileId} (h : s.actionGoes who (actionWord 0x12 1 t.val 0)) :
    Gives (.retest who t) s fun u => .tile t ∈ u.svc.returning ∧ u.svc.result = 1 ∧ (u.tile t).health = .outOfService := by
  refine gives_next (exec_retest_goes h) ?_
  rw [actReturn_svc]
  exact ⟨by simp, rfl, (actReturn_tile _ t).1⟩

/-- The reset of a unit of a die leaves a tile out of service that is so. -/
theorem resetUnit_dieUnit_health {d : Nat} {v : ServiceUnit} (hv : v ∈ dieUnits d) (s : State) (t : TileId)
    (h : (s.tile t).health = .outOfService) : ((s.resetUnit v).tile t).health = .outOfService := by
  cases v with
  | tile w =>
    rw [tile_of_tiles (resetUnit_tile_tiles s w)]
    by_cases hw : t = w
    · rw [hw, State.setTile_tile_self]
      rfl
    · rw [State.setTile_tile_ne _ _ _ _ hw, h]
  | ctrl c => exact h
  | port p => rwa [State.resetUnit, tile_of_tiles (State.setPort_frame ..).1]
  | core c | group l g | link l => simp [dieUnits] at hv

theorem dieClears_health (s : State) {t : TileId} {d : Nat} (h : tileDie t = d) : ((s.dieClears d).tile t).health = .outOfService := by
  unfold State.dieClears
  refine foldl_reaches (fun u : State => (u.tile t).health = .outOfService) _ (tile_mem_dieUnits h) (fun u => ?_) (fun v hv u hu => ?_) _
  · rw [tile_of_tiles (resetUnit_tile_tiles _ t), State.setTile_tile_self]
    rfl
  · refine resetUnit_dieUnit_health hv _ t ?_
    rwa [tile_of_tiles (State.unitLeft_frame ..).1]

theorem dieClears_bell (s : State) {b d : Nat} (h : bellDie b = d) : (s.dieClears d).bell b = Bell.reset := by
  simp only [State.dieClears, State.bell]
  exact get_filter_none _ _ _ _ fun v => by simp [h]

theorem actDieReset_facts (s : State) (d : Nat) :
    (s.actDieReset d).svc = { s.svc with returning := s.svc.returning ++ dieUnits d }
      ∧ (s.actDieReset d).tiles = ((s.dieLeaves d).dieClears d).tiles ∧ (s.actDieReset d).bells = ((s.dieLeaves d).dieClears d).bells := by
  refine ⟨?_, by simp [State.actDieReset], by simp [State.actDieReset]⟩
  simp [State.actDieReset, State.setSvc]

theorem dieReset_returns {s : State} {who : Principal} {d : ADie} (h : s.actionGoes who (actionWord 0x13 0 d.val 0)) :
    Gives (.dieReset who d) s fun u => (∀ v ∈ dieUnits d.val, v ∈ u.svc.returning)
      ∧ (∀ b, bellDie b = d.val → u.bell b = Bell.reset)
      ∧ (∀ t, tileDie t = d.val → (u.tile t).health = .outOfService) ∧ u.svc.result = 1 := by
  refine gives_next (exec_dieReset_goes h) ?_
  obtain ⟨hs, ht, hb⟩ := actDieReset_facts (s.actionTaken (actionWord 0x13 0 d.val 0)) d.val
  rw [hs]
  refine ⟨fun v hv => List.mem_append_right _ hv, fun b hbd => ?_, fun t htd => ?_, rfl⟩
  · rw [State.bell, hb]
    exact dieClears_bell _ hbd
  · rw [tile_of_tiles ht]
    exact dieClears_health _ htd

/-! ### WRITE_SLOT (R523) -/

theorem exec_writeSlot_goes {s : State} {who : Principal} {k : Fin 6} {ch : BitVec 12} {n : W16}
    (h : s.actionGoes who (actionWord 0x20 0 n.toNat (k.val + 16 * ch.toNat))) : exec (.writeSlot who k ch n) s
      = .next ((s.actionTaken (actionWord 0x20 0 n.toNat (k.val + 16 * ch.toNat))).actWriteSlot k.val ch.toNat (16 * n.toNat)) := by
  have hn := n.isLt
  have hch := ch.isLt
  obtain ⟨hc, -, hu, ha⟩ := actionWord_fields (c := 0x20) (k := 0) (n := n.toNat) (a := k.val + 16 * ch.toNat) (by decide)
    (by decide) hn (by omega)
  have hk : (k.val + 16 * ch.toNat) % 16 = k.val := by omega
  have hd : (k.val + 16 * ch.toNat) / 16 = ch.toNat := by omega
  simp only [exec_writeSlot, execWriteSlot, writeAction_goes h (by omega), State.actionRuns, hc, hu, ha, hk, hd]

theorem actWriteSlot_in_order (s : State) (k ch n : Nat) (ho : ch = 0 ∨ ch = s.svc.nextChunk.get 0 k)
    (hs : 65536 * ch + n ≤ slotSize k) : (s.actWriteSlot k ch n).svc.writing = some (k, ch, s.svc.stage.getRun 0#8 0 n)
      ∧ (s.actWriteSlot k ch n).svc.result = s.svc.result := by
  have h1 : ¬ (ch ≠ 0 && ch ≠ s.svc.nextChunk.get 0 k) = true := by
    rcases ho with h | h <;> simp [h]
  have h2 : ¬ 65536 * ch + n > slotSize k := by omega
  simp only [State.actWriteSlot, if_neg h1, if_neg h2]
  exact ⟨rfl, rfl⟩

/-- A slot that is erased reads as zeros within its capacity. -/
theorem slot_eraseSlot (c : CustS) (k o m : Nat) (h : o + m ≤ slotSize k) : (c.eraseSlot k).slot k o m = List.replicate m 0#8 := by
  have hsize : slotSize k < 2 ^ 32 := by simp only [slotSize]; split <;> [decide; (split <;> decide)]
  rw [CustS.slot, Map.getRun, Map.getRunBy_eq, List.eq_replicate_iff]
  refine ⟨by simp, fun b hb => ?_⟩
  obtain ⟨i, hi, rfl⟩ := List.mem_map.mp hb
  have hi := List.mem_range.mp hi
  refine get_filter_none _ _ _ _ fun v => ?_
  have h1 : 2 ^ 32 * k ≤ 2 ^ 32 * k + o + i := by omega
  have h2 : 2 ^ 32 * k + o + i < 2 ^ 32 * (k + 1) := by omega
  simp only [slotBase, h1, h2, decide_true, Bool.and_self, Bool.not_true]

theorem actWriteSlot_out_of_order (s : State) (k ch n : Nat) (h0 : ch ≠ 0) (h1 : ch ≠ s.svc.nextChunk.get 0 k) :
    (s.actWriteSlot k ch n).svc.result = 3 ∧ (s.actWriteSlot k ch n).svc.detail = 5
      ∧ (s.actWriteSlot k ch n).cust = s.cust.eraseSlot k := by
  have h : (ch ≠ 0 && ch ≠ s.svc.nextChunk.get 0 k) = true := by simp [h0, h1]
  simp only [State.actWriteSlot, if_pos h, if_neg h0]
  simp [State.actionEnds, State.setSvc, State.setCust]

theorem writeSlot_in_order {s : State} {who : Principal} {k : Fin 6} {ch : BitVec 12} {n : W16}
    (h : s.actionGoes who (actionWord 0x20 0 n.toNat (k.val + 16 * ch.toNat)))
    (ho : ch.toNat = 0 ∨ ch.toNat = s.svc.nextChunk.get 0 k.val) (hs : 65536 * ch.toNat + 16 * n.toNat ≤ slotSize k.val) :
    Gives (.writeSlot who k ch n) s fun u =>
      u.svc.writing = some (k.val, ch.toNat, s.svc.stage.getRun 0#8 0 (16 * n.toNat)) ∧ u.svc.result = 1 :=
  gives_next (exec_writeSlot_goes h) (actWriteSlot_in_order _ _ _ _ ho hs)

theorem writeSlot_out_of_order {s : State} {who : Principal} {k : Fin 6} {ch : BitVec 12} {n : W16}
    (h : s.actionGoes who (actionWord 0x20 0 n.toNat (k.val + 16 * ch.toNat)))
    (h0 : ch.toNat ≠ 0) (h1 : ch.toNat ≠ s.svc.nextChunk.get 0 k.val) : Gives (.writeSlot who k ch n) s fun u =>
      u.svc.result = 3 ∧ u.svc.detail = 5 ∧ ∀ o m, u.cust.slot k.val o m = List.replicate m 0#8 ∨ slotSize k.val < o + m := by
  obtain ⟨hr, hd, hc⟩ := actWriteSlot_out_of_order (s.actionTaken (actionWord 0x20 0 n.toNat (k.val + 16 * ch.toNat))) k.val ch.toNat
    (16 * n.toNat) h0 h1
  refine gives_next (exec_writeSlot_goes h) ⟨hr, hd, fun o m => ?_⟩
  rw [hc]
  by_cases hle : o + m ≤ slotSize k.val
  · exact .inl (slot_eraseSlot _ _ _ _ hle)
  · exact .inr (by omega)

theorem writeSlotEnded_ok (s : State) (k ch : Nat) (bs : List Byte) (h : s.svc.writing = some (k, ch, bs)) :
    Gives (.writeSlotEnded true) s fun u => u.cust.slot k (65536 * ch) bs.length = bs ∧ u.svc.writing = none ∧ u.svc.result = 2
      ∧ u.svc.nextChunk.get 0 k = ch + 1 := by
  refine gives_next (by simp only [exec_writeSlotEnded, execWriteSlotEnded, h, if_true]; rfl) ?_
  simp only [State.actionEnds, State.setSvc, State.raiseBelfry_frame, CustS.slot_writeSlot]
  simp

theorem writeSlotEnded_failed (s : State) (k ch : Nat) (bs : List Byte) (h : s.svc.writing = some (k, ch, bs)) :
    Gives (.writeSlotEnded false) s fun u => u.cust.store = s.cust.store ∧ u.svc.result = 3 ∧ u.svc.detail = 4 := by
  refine gives_next (by simp only [exec_writeSlotEnded, execWriteSlotEnded, h]; rfl) ?_
  simp [State.actionEnds, State.setSvc]

/-! ### COLD_RESET, NONE and the debug actions -/

theorem actNone_idle {s : State} {who : Principal} (h : s.actionGoes who (actionWord 0 0 0 0)) :
    Gives (.actNone who) s fun u => u.svc = s.svc ∧ u.reply.code = 0#32 := by
  obtain ⟨hp, ht, hc⟩ := h
  obtain ⟨h0, -⟩ := actionWord_fields (c := 0) (k := 0) (n := 0) (a := 0) (by decide) (by decide) (by decide) (by decide)
  have ht' : s.svc.tripped = false := ht.resolve_right (by omega)
  have hrun : ¬ s.svc.phase < 2 := Nat.not_lt.mpr hp
  refine gives_next (v := (s.belfryCommit [((0x9000, 1), bytesOfNat 8 (actionWord 0 0 0 0).toNat
      ++ bytesOfNat 8 (~~~ actionWord 0 0 0 0).toNat)]).answer 0#32 []) ?_ ⟨rfl, rfl⟩
  rw [exec_actNone, execActNone, State.writeAction, if_neg (by simp [hrun, ht'])]
  simp only [hc, State.actionStarts, h0, if_true, ne_eq, not_true_eq_false, if_false]

theorem coldReset_boots {s : State} {who : Principal} (h : s.actionGoes who (actionWord 1 0 0 0)) :
    Gives (.coldReset who) s fun u => u.booted s.cust ∧ u.tocsin.tallies = s.tocsin.tallies ∧ u.mem.mem = [] := by
  refine gives_next (exec_coldReset_goes h) ⟨State.bringUp_booted _ _ rfl rfl rfl, ?_, ?_⟩
  · rw [State.coldReset, State.bringUp_tocsin]; rfl
  · have : (s.actionTaken (actionWord 1 0 0 0)).coldReset.mem = (s.actionTaken (actionWord 1 0 0 0)).coldClear.mem := by
      simp [State.coldReset]
    rw [this]
    rfl

theorem bringupDone_serves {s : State} {who : Principal} (h : s.actionGoes who (actionWord 2 0 0 0)) (hp : s.svc.phase = 4) :
    Gives (.bringupDone who) s fun u => u.svc.phase = 5 ∧ u.svc.result = 2
      ∧ (∀ t, (s.kettle.tile t).stuck = false → (u.kettle.tile t).ceiling = false)
      ∧ ∀ c, (s.core c).stuckCeiling = false → (u.core c).ceiling = false := by
  obtain ⟨hc, -⟩ := actionWord_fields (c := 2) (k := 0) (n := 0) (a := 0) (by decide) (by decide) (by decide) (by decide)
  refine gives_next (v := (s.actionTaken (actionWord 2 0 0 0)).actBringupDone) ?_ (actBringupDone_facts (s.actionTaken _) hp)
  simp only [exec_bringupDone, execBringupDone, writeAction_goes h (by omega), State.actionRuns, hc]

theorem debugOpen_opens {s : State} {who : Principal} {v : BitVec 3} (h : s.actionGoes who (actionWord 0x30 0 0 v.toNat)) :
    Gives (.debugOpen who v) s fun u => u.cust.debug = s.cust.debug ||| v ∧ u.svc.result = 2 := by
  have hv := v.isLt
  obtain ⟨hc, -, -, ha⟩ := actionWord_fields (c := 0x30) (k := 0) (n := 0) (a := v.toNat) (by decide) (by decide) (by decide)
    (by omega)
  refine gives_next (by
    simp only [exec_debugOpen, execDebugOpen, writeAction_goes h (by omega), State.actionRuns, hc, ha, BitVec.ofNat_toNat,
      BitVec.setWidth_eq]
    rfl) ?_
  simp [State.actionEnds, State.setSvc, State.setCust, State.actionTaken]

theorem debugClose_closes {s : State} {who : Principal} (h : s.actionGoes who (actionWord 0x31 0 0 0)) :
    Gives (.debugClose who) s fun u => u.cust.debug = 0#3 ∧ u.svc.result = 2 := by
  obtain ⟨hc, -⟩ := actionWord_fields (c := 0x31) (k := 0) (n := 0) (a := 0) (by decide) (by decide) (by decide) (by decide)
  refine gives_next (by
    simp only [exec_debugClose, execDebugClose, writeAction_goes h (by omega), State.actionRuns, hc]
    rfl) ?_
  simp [State.actionEnds, State.setSvc, State.setCust]

/-! ### The completions (R519, R521) -/

theorem putOut_tile (s : State) (t : TileId) : ((s.putOut (.tile t)).tile t).health = .outOfService := by
  simp only [State.putOut]
  split
  · next h => exact h
  · rw [tile_of_tiles (State.tileChanged_frame ..).1, State.setTile_tile_self]

theorem putOut_core (s : State) (c : CoreId) : ((s.putOut (.core c)).core c).state = 2 := by
  simp only [State.putOut, State.setCore_core_self]

/-- The record of a unit that leaves and the end of its action change no tile and no core. -/
theorem left_tiles_cores (u : State) (kind unit cause r d : Nat) : ((u.unitLeft kind unit cause).actionEnds r d).tiles = u.tiles
    ∧ ((u.unitLeft kind unit cause).actionEnds r d).cores = u.cores := by simp

theorem unitOutOfService_leaves (s : State) (v : ServiceUnit) (f : Bool) (hv : (v, f) ∈ s.svc.leaving) (hd : s.unitDrained v = true) :
    Gives (.unitOutOfService v) s fun u => u.svc.result = 2 ∧ u.svc.detail = 0 ∧ (∀ g, (v, g) ∉ u.svc.leaving)
      ∧ (∀ t, v = .tile t → (u.tile t).health = .outOfService) ∧ ∀ c, v = .core c → (u.core c).state = 2 := by
  have ha : (s.svc.leaving.any fun p => p.1 = v) = true := List.any_eq_true.mpr ⟨_, hv, by simp⟩
  refine gives_next (by
    simp only [exec_unitOutOfService, execUnitOutOfService, ha, hd, Bool.not_true, Bool.or_self, Bool.false_eq_true, if_false]
    rfl) ⟨?_, ?_, ?_, ?_, ?_⟩
  · simp [State.actionEnds, State.setSvc]
  · simp [State.actionEnds, State.setSvc]
  · simp [State.actionEnds, State.setSvc]
  · rintro t rfl
    rw [tile_of_tiles (left_tiles_cores _ _ _ _ _ _).1]
    exact putOut_tile _ t
  · rintro c rfl
    rw [core_of_cores (left_tiles_cores _ _ _ _ _ _).2]
    exact putOut_core _ c

theorem tileService_tiles (s : State) (t : TileId) : (s.tileService t).tiles = s.tiles := by
  simp only [State.tileService]
  split <;> rfl

theorem rejoin_tile (s : State) (t : TileId) : ((s.rejoin (.tile t)).tile t).health = healthOf (s.tile t).qmask false
    ∧ ((s.rejoin (.tile t)).tile t).seq = .clearing := by
  have : (s.rejoin (.tile t)).tiles
      = (s.setTile t { s.tile t with health := healthOf (s.tile t).qmask false, seq := .clearing }).tiles := by
    simp only [State.rejoin, tileService_tiles, State.tileChanged_frame]
  rw [tile_of_tiles this, State.setTile_tile_self]
  exact ⟨rfl, rfl⟩

theorem rejoin_core (s : State) (c : CoreId) : ((s.rejoin (.core c)).core c).state = 0 := by
  simp only [State.rejoin, State.coreService, State.setCore_core_self]
  split <;> simp

theorem rejoin_ctrl (s : State) (c : Ctrl) : ((s.rejoin (.ctrl c)).mem.ctrl c.val).state = 0 := by
  simp only [State.rejoin, MemS.setCtrl_ctrl_self]

theorem stayOut_core (s : State) (c : CoreId) : ((s.stayOut (.core c)).core c).state = 2 := by
  simp only [State.stayOut, State.setCore_core_self]

theorem stayOut_ctrl (s : State) (c : Ctrl) : ((s.stayOut (.ctrl c)).mem.ctrl c.val).state = 2 := by
  simp only [State.stayOut, MemS.setCtrl_ctrl_self]

@[simp] theorem State.setSvc_svc (s : State) (v : SvcS) : (s.setSvc v).svc = v := rfl

theorem actionEnds_svc (s : State) (r d : Nat) : (s.actionEnds r d).svc = { s.svc with result := r, detail := d } := by
  simp [State.actionEnds, State.setSvc]

theorem actionEnds_cores_mem (s : State) (r d : Nat) : (s.actionEnds r d).cores = s.cores ∧ (s.actionEnds r d).mem = s.mem := by simp

theorem stayOut_svc (s : State) (v : ServiceUnit) : (s.stayOut v).svc = s.svc := by simp

theorem reintegrated_svc (s : State) (v : ServiceUnit) : (s.reintegrated v).svc = { s.svc with reint := s.svc.reint + 1 } := by
  simp [State.reintegrated, State.setSvc]

/-- The commit and the record of a reintegration leave the unit as it rejoined. -/
theorem reintegrated_unit (s : State) (v : ServiceUnit) : ∃ t : State, (∀ i, t.tile i = s.tile i) ∧ (s.reintegrated v).tiles = (t.rejoin v).tiles
    ∧ (s.reintegrated v).cores = (t.rejoin v).cores ∧ (s.reintegrated v).mem = (t.rejoin v).mem :=
  ⟨State.belfryCommit (s.setSvc { s.svc with reint := s.svc.reint + 1 }) [((0x9000, 3), bytesOfNat 8 (reintWord v (s.svc.reint + 1)))],
    fun i => tile_of_tiles (by simp) i, by simp [State.reintegrated], by simp [State.reintegrated], by simp [State.reintegrated]⟩

/-- The action ends with the last unit that returns: RESULT 2 where it rejoins with no failure before it, else RESULT 3, DETAIL 2. -/
theorem exec_reintegration_last {s : State} {v : ServiceUnit} (hv : s.svc.returning = [v]) (hr : s.svc.result = 1) :
    (s.testPassed v = true → s.svc.detail = 0 → exec (.reintegration v true) s
      = .next ((State.reintegrated (s.setSvc { s.svc with returning := [] }) v).actionEnds 2 0))
    ∧ exec (.reintegration v false) s
      = .next ((State.stayOut (s.setSvc { s.svc with returning := [], detail := 2 }) v).actionEnds 3 2) := by
  constructor
  · intro ht hd
    simp [exec_reintegration, execReintegration, hv, ht, hd, reintegrated_svc, hr]
  · simp [exec_reintegration, execReintegration, hv, hr]

theorem reintegration_passes (s : State) (v : ServiceUnit) (hv : s.svc.returning = [v]) (hr : s.svc.result = 1)
    (ht : s.testPassed v = true) (hd : s.svc.detail = 0) : Gives (.reintegration v true) s fun u =>
      u.svc.result = 2 ∧ u.svc.reint = s.svc.reint + 1 ∧ u.svc.returning = []
        ∧ (∀ t, v = .tile t → (u.tile t).health = healthOf (s.tile t).qmask false ∧ (u.tile t).seq = .clearing)
        ∧ (∀ c, v = .core c → (u.core c).state = 0) ∧ ∀ c, v = .ctrl c → (u.mem.ctrl c.val).state = 0 := by
  obtain ⟨t, htile, h1, h2, h3⟩ := reintegrated_unit (s.setSvc { s.svc with returning := [] }) v
  refine gives_next ((exec_reintegration_last hv hr).1 ht hd) ?_
  rw [actionEnds_svc, reintegrated_svc]
  refine ⟨rfl, rfl, rfl, ?_, ?_, ?_⟩
  · rintro i rfl
    rw [tile_of_tiles (State.actionEnds_frame _ _ _).1, tile_of_tiles h1]
    have hi := rejoin_tile t i
    rwa [htile i] at hi
  · rintro c rfl
    rw [core_of_cores ((actionEnds_cores_mem _ _ _).1.trans h2)]
    exact rejoin_core t c
  · rintro c rfl
    rw [(actionEnds_cores_mem _ _ _).2, h3]
    exact rejoin_ctrl t c

theorem reintegration_fails (s : State) (v : ServiceUnit) (hv : s.svc.returning = [v]) (hr : s.svc.result = 1) :
    Gives (.reintegration v false) s fun u => u.svc.result = 3 ∧ u.svc.detail = 2 ∧ u.svc.reint = s.svc.reint
      ∧ u.svc.returning = [] ∧ (∀ c, v = .core c → (u.core c).state = 2) ∧ ∀ c, v = .ctrl c → (u.mem.ctrl c.val).state = 2 := by
  refine gives_next (exec_reintegration_last hv hr).2 ?_
  rw [actionEnds_svc, stayOut_svc]
  refine ⟨rfl, rfl, rfl, rfl, ?_, ?_⟩
  · rintro c rfl
    rw [core_of_cores (actionEnds_cores_mem _ _ _).1]
    exact stayOut_core _ c
  · rintro c rfl
    rw [(actionEnds_cores_mem _ _ _).2]
    exact stayOut_ctrl _ c

/-- Settles O54: the refusals by `writeAction_commits_nothing`, each action from the state that its commit leaves, and each
completion by its own lemma. -/
theorem serviceActions : Obligations.ServiceActions := by
  unfold Obligations.ServiceActions
  refine ⟨fun who s => ⟨fun w ab hp ht hc hab c hmem hw => ?_, actNone_idle, coldReset_boots, bringupDone_serves,
    fun v f h => ⟨takeOut_leaves h, fun ho hn => ?_⟩, fun v => bringBack_returns, fun t => retest_returns,
    fun d => dieReset_returns, fun k ch n h => ⟨writeSlot_in_order h, writeSlot_out_of_order h⟩, fun v => debugOpen_opens,
    debugClose_closes⟩,
    fun s => ⟨unitOutOfService_leaves s, fun v hv hr => ⟨reintegration_passes s v hv hr, reintegration_fails s v hv hr⟩,
      fun k ch bs h => ⟨writeSlotEnded_ok s k ch bs h, writeSlotEnded_failed s k ch bs h⟩⟩⟩
  · subst hc hw
    have hg := writeAction_commits_nothing hp ht hab
    simp only [List.mem_cons, List.not_mem_nil, or_false] at hmem
    rcases hmem with rfl | rfl | rfl | rfl <;> exact gives_next rfl hg
  · exact gives_next (exec_takeOut_goes h hn) (actTakeOut_out (s.actionTaken _) v f ho)

end Sys2Proof.Machine
/-! ## O55: the requests of the dictionary

A request that its frame's checks accept is acted on in its session (`frame_acts`). What it does to the entries is told by the pair
of the entries and the commit number (`State.commits`), which the answer and the effects after it leave (`finish_commits`,
`settled_commits`). -/

namespace Sys2Proof.Machine

/-! ### The frame (R458) -/

section
variable {s : State} {p : Path} {f : Pdu} {op : Nat} {act : Option SessionS → List Byte → State}

theorem frame_reached (hr : s.reached p = true) (hk : f.kind = 0#4) (ho : f.op.toNat = op) (hb : f.broadcast = false) :
    s.frame p f op act = match s.pduCheck f with
      | some st => s.sendBack p st (pduResponse f st 0 [] (s.frameKey p f))
      | none =>
        match s.verdict p f with
        | .abort c k => (s.when (c = abAuth && k.isEmpty && p ≠ .window) fun s => s.authFailed p f.session).sendBack p
            (BitVec.ofNat 32 c) (pduResponse f stOk c [] k)
        | .again r => s.sendBack p stOk r
        | .opens k => act none k
        | .acts ses => act ses (s.frameKey p f) := by
  unfold State.frame
  dsimp only
  rw [if_neg (by simp [hr, hk, ho, hb])]
  rfl

theorem frame_acts {ses : Option SessionS} (h : s.accepts p f op ses) : s.frame p f op act = act ses (s.frameKey p f) := by
  obtain ⟨hr, hk, ho, hb, hc, hv⟩ := h
  rw [frame_reached hr hk ho hb, hc]
  dsimp only
  rw [hv]

theorem frame_opens {key : List Byte} (hr : s.reached p = true) (hk : f.kind = 0#4) (ho : f.op.toNat = op) (hb : f.broadcast = false)
    (hc : s.pduCheck f = none) (hv : s.verdict p f = .opens key) : s.frame p f op act = act none key := by
  rw [frame_reached hr hk ho hb, hc]
  dsimp only
  rw [hv]

theorem frame_refused {st : W32} (hr : s.reached p = true) (hk : f.kind = 0#4) (ho : f.op.toNat = op) (hb : f.broadcast = false)
    (hc : s.pduCheck f = some st) : s.frame p f op act = s.sendBack p st (pduResponse f st 0 [] (s.frameKey p f)) := by
  rw [frame_reached hr hk ho hb, hc]

end

/-! ### Answers -/

/-- The entries and the commit number. -/
def State.commits (s : State) : Map EntryS × W64 := (s.dict.entries, s.dict.csn)

theorem sendBack_reply (s : State) (p : Path) (c : W32) (r : List Byte) : (s.sendBack p c r).reply = ⟨c, r⟩ := by
  cases p <;> simp [State.sendBack, State.mailbox, State.answer]

theorem sendBack_commits (s : State) (p : Path) (c : W32) (r : List Byte) : (s.sendBack p c r).commits = s.commits := by
  cases p <;> simp [State.sendBack, State.commits]

theorem sendBack_sessions (s : State) (p : Path) (c : W32) (r : List Byte) : (s.sendBack p c r).dict.sessions = s.dict.sessions := by
  cases p <;> simp [State.sendBack]

theorem requestDone_commits (s : State) (ses : Option SessionS) (f : Pdu) (r : List Byte) : (s.requestDone ses f r).commits = s.commits := by
  unfold State.requestDone
  split
  · rfl
  · split <;> rfl

section
variable (s : State) (p : Path) (f : Pdu) (ses : Option SessionS) (key body : List Byte)

theorem finish_commits : (s.finish p f ses key body).commits = s.commits := by
  rw [State.finish, sendBack_commits, requestDone_commits]

theorem finish_reply : (s.finish p f ses key body).reply = ⟨0#32, pduResponse f 0#32 0 body key⟩ := sendBack_reply ..

theorem finish_answered (t : State) (items : List (List Byte)) :
    s.answered (t.finish p f ses (s.frameKey p f) items.flatten) p f items := by
  rw [State.answered, finish_reply]
  exact ⟨rfl, rfl⟩

end

/-- What the entries and the commit number settle. -/
theorem entry_of_commits {s u : State} (h : u.commits = s.commits) :
    u.dict.entries = s.dict.entries ∧ u.dict.csn = s.dict.csn ∧ (∀ x y, u.dict.entry x y = s.dict.entry x y)
      ∧ ∀ x y, u.dict.value x y = s.dict.value x y := by
  obtain ⟨he, hc⟩ := Prod.mk.inj h
  refine ⟨he, hc, fun x y => ?_, fun x y => ?_⟩
  · rw [DictS.entry, he]; rfl
  · rw [DictS.value, DictS.entry, he]; rfl

/-! ### The effects of a commit: sealed mode and the coordinates (R470, R475, R501) -/

theorem linkDown_commits (s : State) (p : PortId) (c : Nat) : (s.linkDown p c).commits = s.commits := by
  unfold State.linkDown
  dsimp only
  split
  · rfl
  · simp only [State.commits, State.reroute_frame, State.pealPortDown_frame, State.raisePort_frame, State.setPort_frame]
    rfl

theorem linkDown_cust (s : State) (p : PortId) (c : Nat) : ∃ m, (s.linkDown p c).cust = { s.cust with spdm := m } := by
  unfold State.linkDown
  dsimp only
  split
  · exact ⟨_, rfl⟩
  · exact ⟨_, by simp only [State.reroute_frame, State.pealPortDown_frame, State.raisePort_frame, State.setPort_frame]; rfl⟩

/-- A port that sealed mode takes down: up, its peer not admitted. -/
def Port.unsealed (x : Port) : Bool := x.state = 3 && !x.attested

theorem sealPorts_eq (s : State) : s.sealPorts = (List.finRange 8).foldl (State.downWhere Port.unsealed 6) s := rfl

theorem downWhere_commits (c : Port → Bool) (n : Nat) (s : State) (p : PortId) : (s.downWhere c n p).commits = s.commits := by
  unfold State.downWhere
  split
  · exact linkDown_commits s p n
  · rfl

theorem downWhere_cust (c : Port → Bool) (n : Nat) (s : State) (p : PortId) :
    ∃ m, (s.downWhere c n p).cust = { s.cust with spdm := m } := by
  unfold State.downWhere
  split
  · exact linkDown_cust s p n
  · exact ⟨_, rfl⟩

theorem sealPorts_commits (s : State) : s.sealPorts.commits = s.commits := by
  rw [sealPorts_eq]
  exact foldl_frame _ State.commits (fun u p => downWhere_commits _ _ u p) _ _

theorem sealPorts_cust (s : State) : ∃ m, s.sealPorts.cust = { s.cust with spdm := m } := by
  rw [sealPorts_eq]
  refine List.foldlRecOn (motive := fun u : State => ∃ m, u.cust = { s.cust with spdm := m }) _ _ ⟨_, rfl⟩ fun u hu q _ => ?_
  obtain ⟨m, hm⟩ := hu
  obtain ⟨n, hn⟩ := downWhere_cust Port.unsealed 6 u q
  exact ⟨n, by rw [hn, hm]⟩

theorem sealPorts_frozen (s : State) : s.sealPorts.net.frozen = s.net.frozen := by
  rw [sealPorts_eq]
  refine foldl_frame _ (fun u : State => u.net.frozen) (fun u p => ?_) _ _
  unfold State.downWhere
  split
  · have h : (u.linkDown p 6).net.config.frozen = u.net.config.frozen := by rw [(sameFabric_linkDown u p 6).config]
    exact h
  · rfl

/-- Terminating kernels leaves the package's mark of sealed mode. -/
theorem terminateWhere_sealedMark (s : State) (w : Kernel → Bool) : (s.terminateWhere w).kern.sealedMark = s.kern.sealedMark := by
  unfold State.terminateWhere
  refine foldl_frame _ (fun u : State => u.kern.sealedMark) (fun u e => ?_) _ _
  cases e.2 with
  | none => rfl
  | some k =>
    dsimp only
    split <;> rfl

/-- Sealed mode latched, and what that changes of custody, the package and the ports. -/
theorem sealBegins_latches (s : State) (h : s.cust.latched = false) :
    (∃ m, s.sealBegins.cust = { s.cust with latched := true, entering := true, debug := 0#3, spdm := m })
      ∧ s.sealBegins.kern.sealedMark = true
      ∧ ∀ q, (s.port q).state = 3 → (s.port q).attested = false → (s.sealBegins.port q).linked = false := by
  have hs : s.sealBegins = State.sealPorts (State.sealKernels (s.setCust { s.cust with latched := true, entering := true, debug := 0#3 })) := by
    rw [State.sealBegins, if_neg (by simp [h])]
  generalize ht : State.sealKernels (s.setCust { s.cust with latched := true, entering := true, debug := 0#3 }) = t at hs
  have hnet : t.net = s.net := by rw [← ht]; simp
  have hcust : t.cust = { s.cust with latched := true, entering := true, debug := 0#3 } := by rw [← ht]; simp [State.setCust]
  have hk : t.kern.sealedMark = true := by rw [← ht]; exact terminateWhere_sealedMark ..
  rw [hs]
  refine ⟨?_, ?_, fun q h3 ha => ?_⟩
  · obtain ⟨m, hm⟩ := sealPorts_cust t
    exact ⟨m, by rw [hm, hcust]⟩
  · rw [← hk]; simp
  · rw [sealPorts_eq]
    refine allDown_where Port.unsealed (fun _ _ _ => rfl) 6 t q ?_
    rw [port_of_net hnet]
    simp [Port.unsealed, h3, ha]

/-- What the beginning of sealed mode leaves. -/
theorem sealBegins_keeps (s : State) : s.sealBegins.commits = s.commits ∧ s.sealBegins.svc = s.svc
    ∧ s.sealBegins.net.frozen = s.net.frozen ∧ s.sealBegins.cust.ownerKey = s.cust.ownerKey
    ∧ s.sealBegins.cust.config = s.cust.config := by
  have hsvc : s.sealBegins.svc = s.svc := by simp
  by_cases h : s.cust.latched = true
  · have hs : s.sealBegins = s := by rw [State.sealBegins, if_pos h]
    rw [hs]
    exact ⟨rfl, rfl, rfl, rfl, rfl⟩
  · obtain ⟨⟨m, hm⟩, -⟩ := sealBegins_latches s (by simpa using h)
    refine ⟨?_, hsvc, ?_, by rw [hm], by rw [hm]⟩
    · rw [State.sealBegins, if_neg h, sealPorts_commits]
      simp [State.commits]
    · rw [State.sealBegins, if_neg h, sealPorts_frozen]
      simp

theorem neighbour_other (s : State) (p q : PortId) (h : q ≠ p) : (s.neighbour p).port q = s.port q := by
  unfold State.neighbour
  dsimp only
  split
  · rfl
  · split
    · rfl
    · split
      · rw [raisePort_port, State.setPort_port_ne _ _ _ _ h]
      · split
        · rw [State.setPort_port_ne _ _ _ _ h]
        · rw [State.portUp, State.flushPort, State.setPort_port_ne _ _ _ _ h, raisePort_port, State.setPort_port_ne _ _ _ _ h]

theorem neighbour_frozen (s : State) (p : PortId) : (s.neighbour p).net.frozen = s.net.frozen := by
  unfold State.neighbour
  dsimp only
  split
  · rfl
  · split
    · rfl
    · split
      · rw [raisePort_net]; rfl
      · split
        · rfl
        · simp only [State.portUp, State.flushPort, State.setPort, raisePort_net]; rfl

/-- A port without a link has no neighbour check due. -/
theorem neighbour_down {s : State} {p : PortId} (h : (s.port p).linked = false) : s.neighbour p = s := by
  simp only [Port.linked, Bool.or_eq_false_iff, decide_eq_false_iff_not, Bool.and_eq_false_iff] at h
  obtain ⟨⟨h3, h2⟩, h1⟩ := h
  unfold State.neighbour
  dsimp only
  split
  · rfl
  · refine if_pos ?_
    have : ((decide ((s.port p).state = 1) && decide ((s.port p).step = 6)) || decide ((s.port p).state = 2)) = false := by
      rcases h1 with h1 | h1
      · simp [h1, h2]
      · have : (s.port p).step ≠ 6 := by omega
        simp [this, h2]
    simp [this]

/-- One step of the freeze: the port takes its copy of the pair and its neighbour is checked. -/
def State.portTakesPair (pair : W64) (s : State) (p : PortId) : State :=
  State.neighbour (s.setPort p { s.port p with coordCopy := pair }) p

theorem coordsFrozen_eq (s : State) : s.coordsFrozen
    = (List.finRange 8).foldl (State.portTakesPair (s.net.coordC ++ s.net.coord)) { s with net := { s.net with frozen := true } } := rfl

theorem portTakesPair_down (pair : W64) (s : State) (p q : PortId) (h : (s.port q).linked = false) :
    ((s.portTakesPair pair p).port q).linked = false := by
  unfold State.portTakesPair
  by_cases hq : q = p
  · subst hq
    rw [neighbour_down (by rw [State.setPort_port_self]; exact h), State.setPort_port_self]
    exact h
  · rw [neighbour_other _ _ _ hq, State.setPort_port_ne _ _ _ _ hq, h]

/-- The freeze leaves a port without a link as it was. -/
theorem coordsFrozen_keeps (s : State) :
    (∀ q, (s.port q).linked = false → (s.coordsFrozen.port q).linked = false) ∧ s.coordsFrozen.net.frozen = true := by
  rw [coordsFrozen_eq]
  generalize ht : ({ s with net := { s.net with frozen := true } } : State) = t
  have hp : ∀ q, t.port q = s.port q := fun q => by rw [← ht]; rfl
  have hf : t.net.frozen = true := by rw [← ht]
  refine ⟨fun q h => ?_, ?_⟩
  · exact List.foldlRecOn (motive := fun u : State => (u.port q).linked = false) _ _ ((hp q).symm ▸ h)
      fun u hu p _ => portTakesPair_down _ u p q hu
  · rw [foldl_frame (State.portTakesPair _) (fun u : State => u.net.frozen) (fun u p => neighbour_frozen _ p), hf]

/-- The coordinates as taken leave a port without a link as it was, and stay frozen once they are. -/
theorem coordsTaken_keeps (s : State) : (∀ q, (s.port q).linked = false → (s.coordsTaken.port q).linked = false)
    ∧ (s.net.frozen = true ∨ (s.dict.entry 0x2000 1).frozen = true ∧ (s.dict.entry 0x2000 2).frozen = true →
        s.coordsTaken.net.frozen = true) := by
  unfold State.coordsTaken
  dsimp only
  split
  · exact ⟨fun q h => (coordsFrozen_keeps _).1 q h, fun _ => (coordsFrozen_keeps _).2⟩
  · next hn =>
    refine ⟨fun q h => h, fun h => ?_⟩
    rcases h with h | ⟨h1, h2⟩
    · exact h
    · by_contra hf
      exact hn (by simp [h1, h2, hf])

/-- What takes effect after a commit, but for a service action. -/
def State.settled (s : State) : State := (s.when (s.dict.num 0x7000 1 = 1) State.sealBegins).coordsTaken

theorem settled_keeps (s : State) : s.settled.commits = s.commits ∧ s.settled.svc = s.svc
    ∧ s.settled.cust.ownerKey = s.cust.ownerKey ∧ s.settled.cust.config = s.cust.config
    ∧ ((s.dict.entry 0x2000 1).frozen = true → (s.dict.entry 0x2000 2).frozen = true → s.settled.net.frozen = true) := by
  have hk : ∀ b : Bool, (s.when b State.sealBegins).commits = s.commits ∧ (s.when b State.sealBegins).svc = s.svc
      ∧ (s.when b State.sealBegins).cust.ownerKey = s.cust.ownerKey ∧ (s.when b State.sealBegins).cust.config = s.cust.config := by
    intro b
    obtain ⟨h1, h2, -, h3, h4⟩ := sealBegins_keeps s
    cases b with
    | true => exact ⟨h1, h2, h3, h4⟩
    | false => exact ⟨rfl, rfl, rfl, rfl⟩
  unfold State.settled
  generalize hu : s.when (s.dict.num 0x7000 1 = 1) State.sealBegins = u
  obtain ⟨h1, h2, h3, h4⟩ := hu ▸ hk (s.dict.num 0x7000 1 = 1)
  obtain ⟨-, -, he, -⟩ := entry_of_commits h1
  refine ⟨?_, ?_, ?_, ?_, fun ha hb => (coordsTaken_keeps u).2 (.inr ⟨by rwa [he], by rwa [he]⟩)⟩
  · rw [← h1]; simp [State.commits]
  · rw [← h2]; simp
  · rw [← h3]; simp
  · rw [← h4]; simp

/-- Sealed mode takes effect with the commit that leaves SEALED at 1. -/
theorem settled_seals (s : State) (h : s.dict.num 0x7000 1 = 1) (hl : s.cust.latched = false) :
    s.settled.cust.latched = true ∧ s.settled.cust.entering = true ∧ s.settled.cust.debug = 0#3 ∧ s.settled.kern.sealedMark = true
      ∧ ∀ q, (s.port q).state = 3 → (s.port q).attested = false → (s.settled.port q).linked = false := by
  obtain ⟨⟨m, hm⟩, hk, hp⟩ := sealBegins_latches s hl
  have hs : s.settled = s.sealBegins.coordsTaken := by simp [State.settled, h]
  have hc : s.settled.cust = s.sealBegins.cust := by rw [hs]; simp
  have hkern : s.settled.kern = s.sealBegins.kern := by rw [hs]; simp
  rw [hc, hkern, hm]
  refine ⟨rfl, rfl, rfl, hk, fun q h3 ha => ?_⟩
  rw [hs]
  exact (coordsTaken_keeps s.sealBegins).1 q (hp q h3 ha)

/-! ### One commit (R468 to R470) -/

section
variable {s : State} {p : Path} {f : Pdu} {ses : Option SessionS} {key : List Byte} {logged : Bool} {check : Item → Nat}
  {apply : State → Item → State} {i : Item}

/-- A request of one item that passes: one commit, the item applied, the answer, then the effects. -/
theorem dictCommit_one (hi : f.items = [i]) (hc : check i = abNone) : ∃ body,
    s.dictCommit p f ses key logged check apply
      = State.takesEffect ((apply { s with dict := s.dict.commit } i).finish p f ses key body) logged [i] :=
  ⟨_, by simp only [State.dictCommit, hi, List.isEmpty_cons, Bool.false_eq_true, if_false, List.map_cons, List.map_nil, hc,
      List.any_cons, List.any_nil, ne_eq, not_true_eq_false, decide_false, Bool.or_self, List.foldl_cons, List.foldl_nil]; rfl⟩

theorem logRefusals_keep (logged : Bool) (n c : Nat) (l : List (Item × Nat)) (s : State) :
    let u := l.foldl (fun s a => if logged then s.logRefusal a.1.index.toNat a.1.sub.toNat n a.2 c a.1.value else s) s
    u.commits = s.commits ∧ u.cust = s.cust := by
  refine ⟨foldl_frame _ State.commits (fun u a => ?_) _ _, foldl_frame _ (fun u : State => u.cust) (fun u a => ?_) _ _⟩
  · split <;> rfl
  · split <;> rfl

/-- A request with an item that fails commits nothing and answers each item's abort code. -/
theorem dictCommit_refused (h : ∃ i ∈ f.items, check i ≠ abNone) : ∃ t : State, t.commits = s.commits ∧ t.cust = s.cust
    ∧ s.dictCommit p f ses key logged check apply = t.finish p f ses key
        (f.items.map fun i => abortItem i (if check i = abNone then abGroup else check i)).flatten := by
  obtain ⟨i, hi, hc⟩ := h
  have hne : f.items.isEmpty = false := by
    cases hf : f.items with
    | nil => rw [hf] at hi; simp at hi
    | cons a l => rfl
  have hany : ((f.items.map fun i => (i, check i)).any fun a => a.2 ≠ abNone) = true :=
    List.any_eq_true.mpr ⟨(i, check i), List.mem_map.mpr ⟨i, hi, rfl⟩, by simpa using hc⟩
  obtain ⟨h1, h2⟩ := logRefusals_keep logged f.principal (pathCode p)
    ((f.items.map fun i => (i, check i)).map fun a => (a.1, if a.2 = abNone then abGroup else a.2)) s
  refine ⟨_, h1, h2, ?_⟩
  rw [State.dictCommit, hne]
  simp only [Bool.false_eq_true, if_false, hany, if_true, List.map_map, Function.comp_def]

end

theorem takesEffect_settles (s : State) (write : Bool) (i : Item) (h : (write && i.index = 0x9000#16 && i.sub = 1#8) = false) :
    s.takesEffect write [i] = s.settled := by
  have hf : [i].find? (fun i => write && i.index = 0x9000#16 && i.sub = 1#8) = none := by simp [List.find?, h]
  simp only [State.takesEffect, hf]
  rfl

theorem takesEffect_acts (s : State) (i : Item) (h1 : i.index = 0x9000#16) (h2 : i.sub = 1#8) :
    s.takesEffect true [i] = s.settled.actionStarts (w64At i.value 0) := by
  have hf : [i].find? (fun i => true && i.index = 0x9000#16 && i.sub = 1#8) = some i := by simp [List.find?, h1, h2]
  simp only [State.takesEffect, hf]
  rfl

/-! ### WRITE, FREEZE and RELEASE in the dictionary -/

theorem ownerWrites_commits (s : State) (i : Item) : (s.ownerWrites i).commits = s.commits := by
  simp [State.commits]

/-- One entry changed in place. -/
theorem entry_modify (d : DictS) (i j x y : Nat) (g : EntryS → EntryS) :
    ({ d with entries := d.entries.modify EntryS.empty (entryKey i j) g } : DictS).entry x y
      = if entryKey x y = entryKey i j then g (d.entry i j) else d.entry x y := by
  by_cases h : entryKey x y = entryKey i j
  · rw [if_pos h, DictS.entry, h]
    exact Map.get_modify_self ..
  · rw [if_neg h]
    exact Map.get_modify_ne _ _ _ _ _ h

/-- A written entry takes the value, or the claim where it is restrictive-wins, and no other entry changes. -/
theorem write_entry (d : DictS) (n : Nat) (i : Item) (e : EntryInfo) (he : itemEntry i = some e) :
    (e.restrictive = false → (d.write n i).value i.index.toNat i.sub.toNat = i.value
        ∧ ((d.write n i).entry i.index.toNat i.sub.toNat).csn = d.csn)
    ∧ (e.restrictive = true → ((d.write n i).entry i.index.toNat i.sub.toNat).claims
          = ((d.entry i.index.toNat i.sub.toNat).claims.filter fun c => c.1 ≠ n) ++ [(n, i.value)]
        ∧ (d.write n i).value i.index.toNat i.sub.toNat = e.claimed ((d.write n i).entry i.index.toNat i.sub.toNat).claims) := by
  simp only [DictS.write, he]
  refine ⟨fun hr => ?_, fun hr => ?_⟩
  · simp [DictS.value, DictS.entry, hr]
  · simp [DictS.value, DictS.entry, hr, EntryS.reclaim]

theorem freeze_entry (d : DictS) (i : Item) (x y : Nat) : (d.freeze i).entry x y
    = if entryKey x y = entryKey i.index.toNat i.sub.toNat then { d.entry i.index.toNat i.sub.toNat with frozen := true }
      else d.entry x y := entry_modify ..

theorem release_entry (d : DictS) (n : Nat) (i : Item) (e : EntryInfo) (he : itemEntry i = some e) :
    (d.release n i).csn = d.csn ∧ ((d.release n i).entry i.index.toNat i.sub.toNat).claims
      = (d.entry i.index.toNat i.sub.toNat).claims.filter fun c => c.1 ≠ n := by
  simp only [DictS.release, he]
  exact ⟨trivial, congrArg EntryS.claims ((entry_modify ..).trans (if_pos rfl))⟩

theorem write_other (d : DictS) (n : Nat) (i : Item) (x y : Nat) (h : entryKey x y ≠ entryKey i.index.toNat i.sub.toNat) :
    (d.write n i).entry x y = d.entry x y := by
  unfold DictS.write
  split
  · rfl
  · exact (entry_modify ..).trans (if_neg h)

theorem write_csn (d : DictS) (n : Nat) (i : Item) : (d.write n i).csn = d.csn := by
  unfold DictS.write
  split <;> rfl

section
variable {s : State} {p : Path} {f : Pdu} {ses : Option SessionS} {i : Item}

/-- The state after a WRITE of one item that passes, before its effects. -/
theorem exec_dictWrite_one (h : s.accepts p f 2 ses) (hi : f.items = [i]) (hw : s.writeAbort [i] f.principal i = abNone) :
    ∃ t : State, t.commits = ((s.dict.commit.write f.principal i).entries, s.dict.csn + 1#64)
      ∧ t.cust = (s.ownerWrites i).cust ∧ t.svc = s.svc ∧ t.net = s.net
      ∧ exec (.dictWrite p f) s = .next (t.takesEffect true [i]) := by
  obtain ⟨body, hb⟩ := dictCommit_one (s := s) (p := p) (f := f) (ses := ses) (key := s.frameKey p f) (logged := true)
    (check := s.writeAbort f.items f.principal)
    (apply := fun s i => State.ownerWrites { s with dict := s.dict.write f.principal i } i) hi (by rw [hi]; exact hw)
  refine ⟨_, ?_, ?_, ?_, ?_, by rw [exec_dictWrite, execDictWrite, State.dictWrite, frame_acts h, hb]⟩
  · rw [finish_commits, ownerWrites_commits]
    simp only [State.commits, write_csn]
    rfl
  · simp only [State.finish_frame]
    unfold State.ownerWrites
    split
    · rfl
    · rfl
  · simp
  · simp

theorem dictWrite_one (h : s.accepts p f 2 ses) (hi : f.items = [i]) (hw : s.writeAbort [i] f.principal i = abNone)
    (h9 : i.index ≠ 0x9000#16) : Gives (.dictWrite p f) s fun u => u.dict.csn = s.dict.csn + 1#64
          ∧ (∀ e, itemEntry i = some e → e.restrictive = false → u.dict.value i.index.toNat i.sub.toNat = i.value
              ∧ (u.dict.entry i.index.toNat i.sub.toNat).csn = s.dict.csn + 1#64)
          ∧ (∀ e, itemEntry i = some e → e.restrictive = true →
              (u.dict.entry i.index.toNat i.sub.toNat).claims =
                ((s.dict.entry i.index.toNat i.sub.toNat).claims.filter fun c => c.1 ≠ f.principal) ++ [(f.principal, i.value)]
              ∧ u.dict.value i.index.toNat i.sub.toNat = e.claimed (u.dict.entry i.index.toNat i.sub.toNat).claims)
          ∧ ∀ x y, entryKey x y ≠ entryKey i.index.toNat i.sub.toNat → u.dict.entry x y = s.dict.entry x y := by
  obtain ⟨t, hcom, -, -, -, ht⟩ := exec_dictWrite_one h hi hw
  refine gives_next (ht.trans (congrArg Host.Outcome.next (takesEffect_settles t true i (by simp [h9])))) ?_
  have hset : t.settled.commits = State.commits { s with dict := s.dict.commit.write f.principal i } := by
    rw [(settled_keeps t).1, hcom, State.commits, write_csn]
    rfl
  obtain ⟨-, hc, he, hv⟩ := entry_of_commits hset
  refine ⟨hc.trans (write_csn ..), fun e hie hr => ?_, fun e hie hr => ?_, fun x y hxy => ?_⟩
  · obtain ⟨h1, h2⟩ := (write_entry s.dict.commit f.principal i e hie).1 hr
    rw [hv, he]
    exact ⟨h1, h2⟩
  · obtain ⟨h1, h2⟩ := (write_entry s.dict.commit f.principal i e hie).2 hr
    rw [hv, he]
    exact ⟨h1, h2⟩
  · rw [he]
    exact write_other s.dict.commit f.principal i x y hxy

theorem dictWrite_refused (h : s.accepts p f 2 ses) (hw : ∃ i ∈ f.items, s.writeAbort f.items f.principal i ≠ abNone) :
    Gives (.dictWrite p f) s fun u => u.dict.entries = s.dict.entries ∧ u.dict.csn = s.dict.csn ∧ u.cust = s.cust
      ∧ s.answered u p f (f.items.map fun i => abortItem i
          (if s.writeAbort f.items f.principal i = abNone then abGroup else s.writeAbort f.items f.principal i)) := by
  obtain ⟨t, hcom, hcust, ht⟩ := dictCommit_refused (s := s) (p := p) (f := f) (ses := ses) (key := s.frameKey p f) (logged := true)
    (apply := fun s i => State.ownerWrites { s with dict := s.dict.write f.principal i } i) hw
  refine gives_next (by rw [exec_dictWrite, execDictWrite, State.dictWrite, frame_acts h, ht]) ?_
  obtain ⟨he, hc, -, -⟩ := entry_of_commits ((finish_commits t p f ses (s.frameKey p f) _).trans hcom)
  exact ⟨he, hc, by rw [← hcust]; simp, finish_answered s p f ses t _⟩

end

/-! ### Writes of SEALED, OWNER_KEY and ACTION -/

/-- The most restrictive of claims of 0 and 1 with a claim of 1 at their end is 1. -/
theorem claimed_one (e : EntryInfo) (he : e.rmin = false) (n : Nat) (cs : List (Nat × List Byte))
    (h : ∀ c ∈ cs, c.2 = [0#8] ∨ c.2 = [1#8]) : e.claimed (cs ++ [(n, [1#8])]) = [1#8] := by
  cases cs with
  | nil => rfl
  | cons c rest =>
    rw [List.cons_append, EntryInfo.claimed, List.foldl_append]
    simp only [he, Bool.false_eq_true, if_false, List.foldl_cons, List.foldl_nil]
    have hv : ∀ v : List Byte, v = [0#8] ∨ v = [1#8] → (if natOfBytes v < natOfBytes [1#8] then [1#8] else v) = [1#8] := by
      rintro v (rfl | rfl) <;> decide
    refine hv _ (List.foldlRecOn (motive := fun v => v = [0#8] ∨ v = [1#8]) rest _ (h c List.mem_cons_self) fun v hvv d hd => ?_)
    split
    · exact h d (List.mem_cons_of_mem _ hd)
    · exact hvv

section
variable {s : State} {p : Path} {f : Pdu} {ses : Option SessionS} {i : Item}

theorem dictWrite_seals (h : s.accepts p f 2 ses) (hi : f.items = [i]) (hx : i.index = 0x7000#16) (hs : i.sub = 1#8)
    (hval : i.value = [1#8]) (hcl : ∀ c ∈ (s.dict.entry 0x7000 1).claims, c.2 = [0#8] ∨ c.2 = [1#8])
    (hw : s.writeAbort [i] f.principal i = abNone) (hl : s.cust.latched = false) : Gives (.dictWrite p f) s fun u =>
      u.cust.latched = true ∧ u.cust.entering = true ∧ u.cust.debug = 0#3 ∧ u.kern.sealedMark = true
        ∧ ∀ q, (s.port q).state = 3 → (s.port q).attested = false → (u.port q).linked = false := by
  obtain ⟨t, hcom, hcust, -, hnet, ht⟩ := exec_dictWrite_one h hi hw
  refine gives_next (ht.trans (congrArg Host.Outcome.next (takesEffect_settles t true i (by simp [hx])))) ?_
  have hxn : i.index.toNat = 0x7000 := by rw [hx]; rfl
  have hsn : i.sub.toNat = 1 := by rw [hs]; rfl
  have hie : itemEntry i = custodyInfo 1 := by rw [itemEntry, hxn, hsn]; rfl
  have hnum : t.dict.num 0x7000 1 = 1 := by
    have hset : t.commits = State.commits { s with dict := s.dict.commit.write f.principal i } := by
      rw [hcom, State.commits, write_csn]
      rfl
    obtain ⟨-, -, -, hv⟩ := entry_of_commits hset
    obtain ⟨hclaims, hvalue⟩ := (write_entry s.dict.commit f.principal i _ hie).2 rfl
    rw [hxn, hsn] at hclaims hvalue
    rw [DictS.num, hv, hvalue, hclaims, hval, claimed_one _ rfl]
    · decide
    · exact fun c hc => hcl c (List.mem_of_mem_filter hc)
  have hlt : t.cust.latched = false := by
    rw [hcust, State.ownerWrites, if_neg (by simp [hs]), hl]
  obtain ⟨h1, h2, h3, h4, h5⟩ := settled_seals t hnum hlt
  exact ⟨h1, h2, h3, h4, fun q h3 ha => h5 q (by rwa [port_of_net hnet]) (by rwa [port_of_net hnet])⟩

theorem ownerWrites_owner (s : State) (i : Item) (hx : i.index = 0x7000#16) (hs : i.sub = 2#8) :
    (s.ownerWrites i).cust.ownerKey = i.value ∧ (i.value = [] → (s.ownerWrites i).cust.config = none) := by
  rw [State.ownerWrites, if_pos (by simp [hx, hs])]
  refine ⟨?_, fun hv => ?_⟩
  · simp only [State.setCust]
    split <;> rfl
  · simp [State.setCust, hv]

theorem dictWrite_owner (h : s.accepts p f 2 ses) (hi : f.items = [i]) (hx : i.index = 0x7000#16) (hs : i.sub = 2#8)
    (hw : s.writeAbort [i] f.principal i = abNone) : Gives (.dictWrite p f) s fun u =>
      u.dict.csn = s.dict.csn + 1#64 ∧ u.cust.ownerKey = i.value ∧ (i.value = [] → u.cust.config = none) := by
  obtain ⟨t, hcom, hcust, -, -, ht⟩ := exec_dictWrite_one h hi hw
  refine gives_next (ht.trans (congrArg Host.Outcome.next (takesEffect_settles t true i (by simp [hx])))) ?_
  obtain ⟨hc, -, ho, hg, -⟩ := settled_keeps t
  obtain ⟨h1, h2⟩ := ownerWrites_owner s i hx hs
  exact ⟨(Prod.mk.inj (hc.trans hcom)).2, by rw [ho, hcust, h1], fun hv => by rw [hg, hcust, h2 hv]⟩

theorem dictWrite_action (h : s.accepts p f 2 ses) (hi : f.items = [i]) (hx : i.index = 0x9000#16) (hs : i.sub = 1#8)
    (hw : s.writeAbort [i] f.principal i = abNone) : Gives (.dictWrite p f) s fun u =>
      ∃ t : State, t.dict.csn = s.dict.csn + 1#64 ∧ t.svc = s.svc ∧ u = t.actionStarts (w64At i.value 0) := by
  obtain ⟨t, hcom, -, hsvc, -, ht⟩ := exec_dictWrite_one h hi hw
  obtain ⟨hc, hv, -⟩ := settled_keeps t
  exact gives_next (ht.trans (congrArg Host.Outcome.next (takesEffect_acts t i hx hs)))
    ⟨t.settled, (Prod.mk.inj (hc.trans hcom)).2, hv.trans hsvc, rfl⟩

/-! ### FREEZE and RELEASE -/

theorem dictFreeze_one (h : s.accepts p f 3 ses) (hi : f.items = [i]) (hw : s.freezeAbort f.principal i = abNone) :
    Gives (.dictFreeze p f) s fun u => u.dict.csn = s.dict.csn + 1#64
      ∧ u.dict.entry i.index.toNat i.sub.toNat = { s.dict.entry i.index.toNat i.sub.toNat with frozen := true }
      ∧ ((s.dict.entry 0x2000 1).frozen = true → i.index = 0x2000#16 → i.sub = 2#8 → u.net.frozen = true) := by
  obtain ⟨body, hb⟩ := dictCommit_one (s := s) (p := p) (f := f) (ses := ses) (key := s.frameKey p f) (logged := false)
    (apply := fun s i => { s with dict := s.dict.freeze i }) hi hw
  refine gives_next (v := State.settled (State.finish { s with dict := s.dict.commit.freeze i } p f ses (s.frameKey p f) body)) ?_ ?_
  · rw [exec_dictFreeze, execDictFreeze, State.dictFreeze, frame_acts h, hb, takesEffect_settles _ false i rfl]
  · generalize ht : State.finish { s with dict := s.dict.commit.freeze i } p f ses (s.frameKey p f) body = t
    have hcom : t.commits = State.commits { s with dict := s.dict.commit.freeze i } := by rw [← ht, finish_commits]
    obtain ⟨hset, -, -, -, hfr⟩ := settled_keeps t
    obtain ⟨-, hc, he, -⟩ := entry_of_commits (hset.trans hcom)
    obtain ⟨-, -, het, -⟩ := entry_of_commits hcom
    have hx2 : i.index = 0x2000#16 → i.sub = 2#8 → entryKey i.index.toNat i.sub.toNat = entryKey 0x2000 2 := by
      intro hx hs
      rw [hx, hs]
      rfl
    refine ⟨hc, ?_, fun h1 hx hs => hfr ?_ ?_⟩
    · exact (he ..).trans ((freeze_entry ..).trans (if_pos rfl))
    · rw [het]
      refine (congrArg EntryS.frozen ((freeze_entry s.dict.commit ..).trans (if_neg ?_))).trans h1
      rw [hx2 hx hs]
      decide
    · rw [het]
      exact congrArg EntryS.frozen ((freeze_entry s.dict.commit ..).trans (if_pos (hx2 hx hs).symm))

theorem firstAbort_some {cs : List (Bool × Nat)} (h : ∃ c ∈ cs, c.1 = true) (hn : ∀ c ∈ cs, c.2 ≠ abNone) : firstAbort cs ≠ abNone := by
  unfold firstAbort
  cases hf : cs.find? fun c => c.1 with
  | some c => exact hn c (List.mem_of_find?_eq_some hf)
  | none =>
    obtain ⟨c, hc, ht⟩ := h
    exact absurd ht (List.find?_eq_none.mp hf c hc)

/-- A release that passes names an entry that is restrictive-wins (R467). -/
theorem releaseAbort_restrictive (h : s.releaseAbort f.principal i = abNone) : ∃ e, itemEntry i = some e ∧ e.restrictive = true := by
  unfold State.releaseAbort at h
  dsimp only at h
  split at h
  · exact absurd h (by decide)
  · next e he =>
    refine ⟨e, he, ?_⟩
    by_contra hr
    refine firstAbort_some (by simp [hr]) ?_ h
    simp only [List.mem_cons, List.not_mem_nil, or_false]
    rintro c (rfl | rfl | rfl | rfl | rfl | rfl) <;> simp [abNone, abSealed, abReadOnly, abNoRight, abFrozen, abType, abNoClaim]

theorem dictRelease_one (h : s.accepts p f 4 ses) (hi : f.items = [i]) (hw : s.releaseAbort f.principal i = abNone) :
    Gives (.dictRelease p f) s fun u => u.dict.csn = s.dict.csn + 1#64
      ∧ (u.dict.entry i.index.toNat i.sub.toNat).claims
        = (s.dict.entry i.index.toNat i.sub.toNat).claims.filter fun c => c.1 ≠ f.principal := by
  obtain ⟨e, hie, hre⟩ := releaseAbort_restrictive hw
  have hx9 : (true && i.index = 0x9000#16 && i.sub = 1#8) = false := by
    by_contra hn
    simp only [Bool.true_and, Bool.not_eq_false, Bool.and_eq_true, decide_eq_true_eq] at hn
    have hs : itemEntry i = serviceInfo 1 := by rw [itemEntry, hn.1, hn.2]; rfl
    rw [Option.some.inj (hie.symm.trans hs)] at hre
    exact absurd hre (by decide)
  obtain ⟨body, hb⟩ := dictCommit_one (s := s) (p := p) (f := f) (ses := ses) (key := s.frameKey p f) (logged := true)
    (apply := fun s i => { s with dict := s.dict.release f.principal i }) hi hw
  refine gives_next (v := State.settled (State.finish { s with dict := s.dict.commit.release f.principal i } p f ses (s.frameKey p f) body))
    ?_ ?_
  · rw [exec_dictRelease, execDictRelease, State.dictRelease, frame_acts h, hb, takesEffect_settles _ true i hx9]
  · have hcom := (settled_keeps (State.finish { s with dict := s.dict.commit.release f.principal i } p f ses (s.frameKey p f) body)).1.trans
      (finish_commits ..)
    obtain ⟨-, hc, he, -⟩ := entry_of_commits hcom
    obtain ⟨h1, h2⟩ := release_entry s.dict.commit f.principal i e hie
    exact ⟨hc.trans h1, (congrArg EntryS.claims (he ..)).trans h2⟩

/-! ### READ, DESCRIBE and DISCOVER -/

theorem flamMismatches_commits (c : Item → Bool) (l : List Item) (s : State) :
    (l.foldl (fun (t : State) i => if c i then t.flamMismatch else t) s).commits = s.commits :=
  foldl_frame _ State.commits (fun u i => by split <;> rfl) _ _

theorem dictRead_answers (h : s.accepts p f 1 ses) : Gives (.dictRead p f) s fun u =>
    u.dict.entries = s.dict.entries ∧ u.dict.csn = s.dict.csn ∧ s.answered u p f (f.items.map fun i =>
      if s.readAbort f.principal i = abNone then s.valueItem f.principal i none else abortItem i (s.readAbort f.principal i)) := by
  refine gives_next (by rw [exec_dictRead, execDictRead, State.dictRead, frame_acts h]) ?_
  have hcom := (finish_commits (f.items.foldl (fun t i => if s.readAbort f.principal i = abFlam then t.flamMismatch else t) s) p f ses
    (s.frameKey p f) (f.items.map fun i => if s.readAbort f.principal i = abNone then s.valueItem f.principal i none
      else abortItem i (s.readAbort f.principal i)).flatten).trans
    (by simpa using flamMismatches_commits (fun i => decide (s.readAbort f.principal i = abFlam)) f.items s)
  obtain ⟨he, hc, -, -⟩ := entry_of_commits hcom
  exact ⟨he, hc, finish_answered ..⟩

theorem dictDescribe_answers (h : s.accepts p f 5 ses) : Gives (.dictDescribe p f) s fun u => u.dict.entries = s.dict.entries
    ∧ s.answered u p f (f.items.map (s.describeItem f.principal)) :=
  gives_next (by rw [exec_dictDescribe, execDictDescribe, State.dictDescribe, frame_acts h])
    ⟨(entry_of_commits (finish_commits ..)).1, finish_answered ..⟩

theorem dictDiscover_answers (h : s.accepts p f 6 ses) : Gives (.dictDiscover p f) s fun u => u.dict.entries = s.dict.entries
    ∧ s.answered u p f ((List.range 7).map fun k => s.valueItem f.principal
      { index := 0x1000#16, sub := BitVec.ofNat 8 (k + 1), type := 0#8, vlen := 0, rsv := 0#16, value := [], padZero := true } none) :=
  gives_next (by rw [exec_dictDiscover, execDictDiscover, State.dictDiscover, frame_acts h])
    ⟨(entry_of_commits (finish_commits ..)).1, finish_answered ..⟩

/-! ### Sessions, the mailbox, refused frames -/

theorem dictOpen_opens {key : List Byte} (hr : s.reached p = true) (hk : f.kind = 0#4) (ho : f.op.toNat = 7) (hb : f.broadcast = false)
    (hc : s.pduCheck f = none) (hv : s.verdict p f = .opens key)
    (hl : (s.dict.sessions.filter fun x => x.path = pathNo p).length < pathLimit (pathNo p)) (h1 : w64Bits f.body 1 1 = 1) :
    Gives (.dictOpen p f) s fun u => u.reply.code = 0#32
      ∧ ∃ x, x ∈ u.dict.sessions ∧ x.path = pathNo p ∧ x.id = f.session ∧ x.last = 0#32 ∧ x.key = key := by
  have hl' : ¬ (s.dict.sessions.filter fun x => x.path = pathNo p).length ≥ pathLimit (pathNo p) := by omega
  have h1' : ¬ w64Bits f.body 1 1 = 0 := by omega
  refine gives_next (by rw [exec_dictOpen, execDictOpen, State.dictOpen, frame_opens hr hk ho hb hc hv]) ?_
  dsimp only
  rw [if_neg hl', if_neg h1', sendBack_reply, sendBack_sessions]
  exact ⟨rfl, _, List.mem_append_right _ (List.mem_singleton.mpr rfl), rfl, rfl, rfl, rfl⟩

theorem dictOpen_full {key : List Byte} (hr : s.reached p = true) (hk : f.kind = 0#4) (ho : f.op.toNat = 7) (hb : f.broadcast = false)
    (hc : s.pduCheck f = none) (hv : s.verdict p f = .opens key)
    (hl : pathLimit (pathNo p) ≤ (s.dict.sessions.filter fun x => x.path = pathNo p).length) :
    Gives (.dictOpen p f) s fun u => u.dict.sessions = s.dict.sessions ∧ u.reply.code = 0x10#32 := by
  refine gives_next (by rw [exec_dictOpen, execDictOpen, State.dictOpen, frame_opens hr hk ho hb hc hv]) ?_
  dsimp only
  rw [if_pos hl, sendBack_reply, sendBack_sessions]
  exact ⟨rfl, rfl⟩

/-- A session that ends is gone, and the others stay. -/
theorem endSession_sessions (d : DictS) (n : Nat) (id : W32) (y : SessionS) :
    y ∈ (d.endSession n id).sessions ↔ y ∈ d.sessions ∧ ¬ (y.path = n ∧ y.id = id) := by
  simp only [DictS.endSession, List.mem_filter, Bool.not_eq_eq_eq_not, Bool.not_true, Bool.and_eq_false_iff, decide_eq_false_iff_not,
    not_and_or]

theorem dictClose_closes {x : SessionS} (h : s.accepts p f 8 (some x)) : Gives (.dictClose p f) s fun u =>
    u.dict.entries = s.dict.entries ∧ ∀ y ∈ u.dict.sessions, ¬ (y.path = x.path ∧ y.id = x.id) := by
  refine gives_next (by rw [exec_dictClose, execDictClose, State.dictClose, frame_acts h]) ?_
  exact ⟨(entry_of_commits (finish_commits s p f (some x) (s.frameKey p f) [])).1, fun y hy => ((endSession_sessions _ _ _ y).mp hy).2⟩

/-- A frame that the checks refuse answers their status and leaves the entries. -/
theorem refused_keeps {st : W32} {op : Nat} {act : Option SessionS → List Byte → State} (hr : s.reached p = true) (hk : f.kind = 0#4)
    (hb : f.broadcast = false) (hc : s.pduCheck f = some st) (ho : f.op.toNat = op) :
    (s.frame p f op act).reply.code = st ∧ (s.frame p f op act).dict.entries = s.dict.entries
      ∧ (s.frame p f op act).dict.csn = s.dict.csn := by
  rw [frame_refused hr hk ho hb hc, sendBack_reply]
  obtain ⟨he, hcs, -, -⟩ := entry_of_commits (sendBack_commits s p st (pduResponse f st 0 [] (s.frameKey p f)))
  exact ⟨rfl, he, hcs⟩

end

/-- A mailbox frame acts as its operation on the mailbox path. -/
theorem mydarRequest_acts (f : Pdu) (s : State) : ∀ e ∈ ([(1, .dictRead .mailbox f), (2, .dictWrite .mailbox f),
    (3, .dictFreeze .mailbox f), (4, .dictRelease .mailbox f), (5, .dictDescribe .mailbox f), (6, .dictDiscover .mailbox f),
    (7, .dictOpen .mailbox f), (8, .dictClose .mailbox f)] : List (Nat × Instr)), f.op.toNat = e.1 →
      ∃ u, exec (.mydarRequest f) s = .next u ∧ exec e.2 s = .next u := by
  intro e he ho
  simp only [List.mem_cons, List.not_mem_nil, or_false] at he
  rcases he with rfl | rfl | rfl | rfl | rfl | rfl | rfl | rfl <;>
    exact ⟨_, by rw [exec_mydarRequest, execMydarRequest, ho]; rfl, rfl⟩

/-- Settles O55: the operations on the dictionary from `frame_acts`, with one commit for the items that pass. -/
theorem dictionaryRequests : Obligations.DictionaryRequests := by
  unfold Obligations.DictionaryRequests
  intro p f s
  refine ⟨fun ses h => dictRead_answers h, fun ses i h hi hw h9 _ => dictWrite_one h hi hw h9, fun ses h => dictWrite_refused h,
    fun ses i h hi hx hs hv hcl hw hl => dictWrite_seals h hi hx hs hv hcl hw hl,
    fun ses i h hi hx hs hw => dictWrite_owner h hi hx hs hw, fun ses i h hi hx hs hw => dictWrite_action h hi hx hs hw,
    fun ses i h hi hw => dictFreeze_one h hi hw, fun ses i h hi hw => dictRelease_one h hi hw,
    fun ses h => dictDescribe_answers h, fun ses h => dictDiscover_answers h,
    fun key hr hk ho hb hc hv => ⟨dictOpen_opens hr hk ho hb hc hv, dictOpen_full hr hk ho hb hc hv⟩,
    fun x h => dictClose_closes h, mydarRequest_acts f s, fun st hr hk hb hc e he ho => ?_, fun id => gives_next rfl ⟨rfl, ?_, ?_⟩,
    fun why h => gives_next (v := { s with tele := { s.tele with frameDrops := satInc32 s.tele.frameDrops } })
      (by simp only [exec_frameDrop, execFrameDrop, h, Bool.true_or, if_true]) ⟨rfl, rfl⟩⟩
  · simp only [List.mem_cons, List.not_mem_nil, or_false] at he
    rcases he with rfl | rfl | rfl | rfl | rfl | rfl | rfl | rfl <;> exact gives_next rfl (refused_keeps hr hk hb hc ho)
  · exact fun y hy => ((endSession_sessions _ _ _ y).mp hy).2
  · exact fun y hy hn => (endSession_sessions _ _ _ y).mpr ⟨hy, hn⟩

end Sys2Proof.Machine
/-! ## O56: the SPDM requests, and the completion of sealed mode -/

namespace Sys2Proof.Machine

section
variable {s : State} {p : SpdmPath} {n : Nat}

/-- A request at its level is acted on. -/
theorem spdmAt_responds (act : SpdmS → State) (h : s.responds p n) : s.spdmAt p n act = act (s.spdm p) := by
  obtain ⟨hf, hc, hl⟩ := h
  have hl' : ¬ (s.spdm p).level < n := by omega
  simp only [State.spdmAt, hf, hc, Bool.not_true, Bool.or_self, Bool.false_eq_true, if_false, hl']

theorem setSpdm_spdm (s : State) (p : SpdmPath) (x : SpdmS) : (s.setSpdm p x).spdm p = x := Map.get_set_self ..

theorem answer_spdm (s : State) (p : SpdmPath) (c : W32) (bs : List Byte) : (s.answer c bs).spdm p = s.spdm p := rfl

/-- A responder's state is a matter of custody. -/
theorem spdm_of_cust {s u : State} (h : u.cust = s.cust) (p : SpdmPath) : u.spdm p = s.spdm p := by simp only [State.spdm, h]

/-! ### Version, capabilities, algorithms -/

theorem getVersion_answers (h : s.responds p 0) (hr : s.svc.rom = false) : Gives (.getVersion p) s fun u =>
    u.reply.code = 0#32 ∧ u.reply.data = [0x12#8] ∧ (u.spdm p).level = 1 ∧ (u.spdm p).sessions = (s.spdm p).sessions := by
  refine gives_next (v := (s.setSpdm p { s.spdm p with level := 1, handshake := none }).answer spdmOk [0x12#8])
    (by simp only [exec_getVersion, execGetVersion, hr, Bool.false_and, Bool.false_eq_true, if_false, spdmAt_responds _ h]) ?_
  rw [answer_spdm, setSpdm_spdm]
  exact ⟨rfl, rfl, rfl, rfl⟩

theorem getCapabilities_answers (h : s.responds p 1) : Gives (.getCapabilities p) s fun u =>
    u.reply.code = 0#32 ∧ 2 ≤ (u.spdm p).level := by
  refine gives_next (congrArg Host.Outcome.next (spdmAt_responds _ h)) ?_
  rw [answer_spdm, setSpdm_spdm]
  exact ⟨rfl, Nat.le_max_right _ _⟩

theorem negotiateAlgorithms_answers (h : s.responds p 2) :
    (Gives (.negotiateAlgorithms p true) s fun u => u.reply.code = 0#32 ∧ (u.spdm p).level = 3)
    ∧ Gives (.negotiateAlgorithms p false) s fun u => u.reply.code = 1#32 ∧ (u.spdm p).level = (s.spdm p).level := by
  refine ⟨gives_next (congrArg Host.Outcome.next (spdmAt_responds _ h)) ?_,
    gives_next (congrArg Host.Outcome.next (spdmAt_responds _ h)) ⟨rfl, rfl⟩⟩
  rw [if_pos rfl, answer_spdm, setSpdm_spdm]
  exact ⟨rfl, rfl⟩

/-! ### Digests, certificates and signed responses (R497, R498) -/

variable (h : s.responds p 3)
include h

theorem getDigests_answers : Gives (.getDigests p) s fun u =>
    u.reply.data = 0x01#8 :: Config.sm3 (Config.certChain s.cust.fwMeas) :=
  gives_next (congrArg Host.Outcome.next (spdmAt_responds _ h)) rfl

theorem getCertificate_answers (o n : Nat) (ho : o ≤ (Config.certChain s.cust.fwMeas).length) : Gives (.getCertificate p 0 o n) s fun u =>
    u.reply.code = 0#32 ∧ u.reply.data.drop 4 = ((Config.certChain s.cust.fwMeas).drop o).take (min n 1392) := by
  have ho' : ¬ (Config.certChain s.cust.fwMeas).length < o := by omega
  refine gives_next (congrArg Host.Outcome.next (spdmAt_responds _ h)) ?_
  dsimp only
  rw [if_neg (by simp [ho'])]
  refine ⟨rfl, ?_⟩
  exact List.drop_left' (by simp [bytesOfNat_length])

theorem getCertificate_other (k o n : Nat) (hk : k ≠ 0) : Gives (.getCertificate p k o n) s fun u => u.reply.code = 1#32 := by
  refine gives_next (congrArg Host.Outcome.next (spdmAt_responds _ h)) ?_
  dsimp only
  rw [if_pos (by simp [hk])]
  rfl

omit h in
/-- A signed response answers for the state that it was made in, whatever the responder noted of the request. -/
theorem signed_reply (s t : State) (request content : List Byte) (hf : t.fresh = s.fresh) (hc : t.cust.fwMeas = s.cust.fwMeas) :
    (t.signed request content).signedReply s request content := by
  refine ⟨s.nonce, by simp [State.nonce], rfl, ?_⟩
  simp only [State.signed, State.answer, State.nonce, hf, hc]

theorem challenge_signs (q : List Byte) : Gives (.challenge p q) s fun u =>
    u.signedReply s q (Config.sm3 (Config.certChain s.cust.fwMeas)) :=
  gives_next (congrArg Host.Outcome.next (spdmAt_responds _ h)) (signed_reply s s _ _ rfl rfl)

theorem getMeasurements_signs (q : List Byte) : Gives (.getMeasurements p q) s fun u =>
    u.signedReply s q ((s.measurements.map fun m => measBlock m.1 m.2.1 m.2.2).flatten) :=
  gives_next (congrArg Host.Outcome.next (spdmAt_responds _ h)) (signed_reply s s _ _ rfl rfl)

omit h in
/-- A session's ID is neither 0 nor all ones. -/
theorem sessionId_proper (x : List Byte) (n : Nat) : sessionId x n ≠ 0#32 ∧ sessionId x n ≠ 0xFFFFFFFF#32 := by
  have hx := natOfBytes_lt (x.take 2)
  have hlen : (x.take 2).length ≤ 2 := by simp
  have hlt : natOfBytes (x.take 2) < 65536 := Nat.lt_of_lt_of_le hx (Nat.pow_le_pow_right (by decide) hlen)
  have hn : (sessionId x n).toNat = natOfBytes (x.take 2) + (1 + n % 65534) * 2 ^ 16 := by
    rw [sessionId, BitVec.toNat_ofNat]
    omega
  constructor <;> intro e <;> rw [e] at hn <;> simp at hn <;> omega

theorem keyExchange_begins (x : List Byte) : Gives (.keyExchange p x) s fun u => ∃ g, (u.spdm p).handshake = some g
    ∧ g.id = sessionId x (s.spdm p).begun ∧ g.id ≠ 0#32 ∧ g.id ≠ 0xFFFFFFFF#32 ∧ u.signedReply s x (bytesOfNat 4 g.id.toNat) := by
  refine gives_next (congrArg Host.Outcome.next (spdmAt_responds _ h)) ⟨_, congrArg SpdmS.handshake (setSpdm_spdm ..), rfl, ?_, ?_, ?_⟩
  · exact (sessionId_proper ..).1
  · exact (sessionId_proper ..).2
  · exact signed_reply s _ _ _ rfl rfl

/-! ### Sessions (R496, R499) -/

theorem finish_completes (b : Bool) (g : SpdmSes) (hg : (s.spdm p).handshake = some g) :
    (Gives (.finish p true b) s fun u => u.reply.code = 0#32 ∧ (u.spdm p).handshake = none
        ∧ (u.spdm p).sessions = { g with bothSides := b } :: (s.spdm p).sessions)
      ∧ (Gives (.finish p false b) s fun u => u.reply.code = 1#32 ∧ (u.spdm p).handshake = none
        ∧ (u.spdm p).sessions = (s.spdm p).sessions) := by
  refine ⟨gives_next (congrArg Host.Outcome.next (spdmAt_responds _ h)) ?_, gives_next (congrArg Host.Outcome.next (spdmAt_responds _ h)) ?_⟩
  · rw [hg]
    dsimp only
    rw [if_pos rfl, answer_spdm, setSpdm_spdm]
    exact ⟨rfl, rfl, rfl⟩
  · rw [hg]
    dsimp only
    rw [if_neg (by decide), answer_spdm, setSpdm_spdm]
    exact ⟨rfl, rfl, rfl⟩

theorem heartbeat_lives (g : SpdmSes) (rest : List SpdmSes) (hs : (s.spdm p).sessions = g :: rest) :
    Gives (.heartbeat p) s fun u => u.reply.code = 0#32 ∧ u.spdm p = s.spdm p := by
  refine gives_next (congrArg Host.Outcome.next (spdmAt_responds _ h)) ?_
  rw [hs]
  exact ⟨rfl, rfl⟩

theorem keyUpdate_refreshes (g : SpdmSes) (rest : List SpdmSes) (hs : (s.spdm p).sessions = g :: rest) :
    Gives (.keyUpdate p) s fun u => u.reply.code = 0#32 ∧ (u.spdm p).sessions = { g with updates := g.updates + 1 } :: rest := by
  refine gives_next (congrArg Host.Outcome.next (spdmAt_responds _ h)) ?_
  dsimp only
  rw [hs]
  dsimp only
  generalize ht : (s.setSpdm p { s.spdm p with sessions := { g with updates := g.updates + 1 } :: rest }).answer spdmOk [] = t
  have hr : t.reply.code = 0#32 := by rw [← ht]; rfl
  have hp : (t.spdm p).sessions = { g with updates := g.updates + 1 } :: rest := by rw [← ht, answer_spdm, setSpdm_spdm]
  cases p with
  | port q => exact ⟨by rw [← hr]; simp, by rw [spdm_of_cust (s := t) (by simp), hp]⟩
  | doe => exact ⟨hr, hp⟩
  | segment => exact ⟨hr, hp⟩

theorem endSession_ends (g : SpdmSes) (rest : List SpdmSes) (hs : (s.spdm p).sessions = g :: rest) (hp : ∀ q, p ≠ .port q) :
    Gives (.endSession p) s fun u => u.reply.code = 0#32 ∧ (u.spdm p).sessions = rest
      ∧ ∀ d ∈ u.dict.sessions, ¬ (d.path = carrierPath p ∧ d.id = g.id) := by
  refine gives_next (congrArg Host.Outcome.next (spdmAt_responds _ h)) ?_
  dsimp only
  rw [hs]
  have hd : ∀ d ∈ s.dict.sessions.filter fun y => !(y.path = carrierPath p && y.id = g.id), ¬ (d.path = carrierPath p ∧ d.id = g.id) :=
    fun d hd => by simpa [-not_and, not_and_or] using (List.mem_filter.mp hd).2
  cases p with
  | port q => exact absurd rfl (hp q)
  | doe => exact ⟨rfl, congrArg SpdmS.sessions (setSpdm_spdm ..), hd⟩
  | segment => exact ⟨rfl, congrArg SpdmS.sessions (setSpdm_spdm ..), hd⟩

theorem endSession_drops (g : SpdmSes) (rest : List SpdmSes) (hs : (s.spdm p).sessions = g :: rest) (q : PortId) (hp : p = .port q) :
    Gives (.endSession p) s fun u => u.reply.code = 0#32 ∧ (u.port q).linked = false := by
  subst hp
  refine gives_next (congrArg Host.Outcome.next (spdmAt_responds _ h)) ?_
  dsimp only
  rw [hs]
  dsimp only
  exact ⟨by simp [State.answer, spdmOk], linkDown_linked ..⟩

theorem noSession_refused (hs : (s.spdm p).sessions = []) : ∀ c ∈ [Instr.heartbeat p, .keyUpdate p, .endSession p],
    Gives c s fun u => u.reply.code = 1#32 ∧ u.spdm p = s.spdm p := by
  have hgive : ∀ (c : Instr) (act : SpdmS → State), exec c s = .next (s.spdmAt p 3 act) → act (s.spdm p) = s.answer spdmError [] →
      Gives c s fun u => u.reply.code = 1#32 ∧ u.spdm p = s.spdm p := fun c act he ha =>
    gives_next (he.trans (congrArg Host.Outcome.next ((spdmAt_responds _ h).trans ha))) ⟨rfl, rfl⟩
  intro c hc
  simp only [List.mem_cons, List.not_mem_nil, or_false] at hc
  rcases hc with rfl | rfl | rfl
  · exact hgive _ _ rfl (by rw [hs]; rfl)
  · exact hgive _ _ rfl (by rw [hs])
  · exact hgive _ _ rfl (by rw [hs])

end

/-- Settles O56: each request from `spdmAt_responds`, the signed ones through `signed_reply`. -/
theorem custodyCommands : Obligations.CustodyCommands := by
  unfold Obligations.CustodyCommands
  intro p s
  refine ⟨getVersion_answers, getCapabilities_answers, negotiateAlgorithms_answers, fun h => ⟨getDigests_answers h,
    getCertificate_answers h, getCertificate_other h, challenge_signs h, getMeasurements_signs h, keyExchange_begins h,
    finish_completes h, fun g rest hs => ⟨heartbeat_lives h g rest hs, keyUpdate_refreshes h g rest hs,
      endSession_ends h g rest hs, endSession_drops h g rest hs⟩, noSession_refused h⟩, fun hd => ?_⟩
  exact gives_next (v := { s with cust := { s.cust with entering := false }, cxl := { s.cxl with sealedBit := true } })
    (by simp only [exec_sealedComplete, execSealedComplete, hd, if_true]) ⟨rfl, rfl⟩

end Sys2Proof.Machine
